-- ==== Sys2Proof/Word.lean ====
section
/-! DEFINITION. The words of Pliat's registers, sheaves, tables and host-memory structures
(R16): 64-bit little-endian words, eight of them to a 64 B line. -/

namespace Sys2Proof

/-- A 64-bit word (R16). -/
abbrev Word := BitVec 64

/-- A 64 B line: eight words W0 to W7 in ascending address order (R16). -/
abbrev Line := List Word

end Sys2Proof
end

