-- ==== Sys2Proof/Syntax.lean ====
section
/-! DEFINITION. The commands of Pliat: one constructor of `Instr` for each row of the table of
operations and events, with the operands that the outside, or the part that performs the step,
supplies. Field maps of the words an operand carries are the spec's; they are taken apart in
Machine/. -/

namespace Sys2Proof

/-- The PCI Express function an access comes from: the PF, or VF p + 1 of partition p (R286). -/
inductive Fn where
  | pf
  | vf (p : Nat)
deriving DecidableEq, Repr

/-- Which part of a 64-bit register an access covers (R451): all of it, bits 31:0 or bits 63:32; `odd`
is an access that is narrower than 32 bits or misaligned. -/
inductive Part where
  | whole
  | low
  | high
  | odd
deriving DecidableEq, Repr

/-- What a register read reads: one of the 64-bit counters whose low half latches the high half (R453),
QSTATUS or LASTTAG of a doorbell page (R53), or the register at an offset of PF BAR2 that no other row
reads.
Log 67 (DESIGN CHOICE, safe). -/
inductive CountReg where
  | usec
  | doorbell (q : Nat)
  | retired (q : Nat)
  | head (q : Nat)
  | recack (q : Nat)
  | fenceseq
  | qstatus (q : Nat)
  | lasttag (q : Nat)
  | plain (offset : Nat)
deriving DecidableEq, Repr

/-- What Pliat stamps on what it sends, and what comes back with a reply or report (R290, R357): the context
on whose behalf it was sent with its generation, if there is one, and the chip reset generation. -/
structure Stamp where
  ctx     : Option (Nat × BitVec 12)
  chipgen : BitVec 8
deriving DecidableEq, Repr

/-- An error found in a word that a step reads (R39): uncorrectable or not, its failing bit and its
syndrome (R337). -/
structure Found where
  unc : Bool
  pos : BitVec 8
  syn : BitVec 8
deriving DecidableEq, Repr

/-- The registers whose read latches further words (R461, but for RETIRED). -/
inductive LatchReg where
  | scaledata0
  | faultrec0
  | auditdata0
  | tracedata0
deriving DecidableEq, Repr

/-- What a read that Pliat issued brought back: the lines, or an error at one line. -/
inductive ReadResult where
  | lines (ls : List Line)
  | error (line : Nat)
deriving DecidableEq, Repr

/-- A reply to a read that Pliat issued on the memory fabric: the stamp of the read (R290, R357), and what it brought.
-/
structure FabricReply where
  stamp  : Stamp
  result : ReadResult
deriving DecidableEq, Repr

/-- A reply to a ring read; `fixed` is a single-bit error corrected in the queue context that is read with it (R39). -/
structure RingReply where
  stamp  : Stamp
  result : ReadResult
  fixed  : Option Found
deriving DecidableEq, Repr

/-- A host-port read that flushes posted writes has come back, or has failed (R366). -/
structure HostReply where
  stamp : Stamp
  good  : Bool
deriving DecidableEq, Repr

/-- What an engine port reports of its run, with the stamp of the start (R290, R357). -/
structure PortReport where
  furrow : Nat
  stamp  : Stamp
deriving DecidableEq, Repr

/-- The generations that a token carries: its context's and the chip's (R125, R357). -/
structure Gens where
  ctx  : BitVec 12
  chip : BitVec 8
deriving DecidableEq, Repr

/-- An acknowledgement of a write of a context, with the CHIPGEN of the write (R289, R293). -/
structure DrainAck where
  ctx     : Nat
  chipgen : BitVec 8
deriving DecidableEq, Repr

/-- What an engine reports with a commit or abort handshake (R161, R304). `maxexp` is `none` for
ZERO; `ecc` says that the engine reports an uncorrectable error instead of a commit (R41);
`writes` is the number of memory writes the commit releases (R293); `stamp` is that of the start (R290,
R357). -/
structure EngineReport where
  stamp   : Stamp
  maxexp  : Option (BitVec 8)
  clipped : Nat
  memread : Nat
  memwrite : Nat
  linksent : Nat
  energy  : Nat
  writes  : Nat
  ecc     : Bool
deriving DecidableEq, Repr

/-- Where a preload met an error (R39, R41, R338). -/
inductive PreloadError where
  | nodeSlot
  | descriptor (line : Nat)
  | furrowEntry
  | fabric (line : Nat)
  | bridge (line : Nat)
  | patchLine
deriving DecidableEq, Repr

/-- A word of Pliat's storage, as the scrubber and the checks of R40 name it. -/
inductive Storage where
  | nodeSlot (n : Nat)
  | queueContext (q : Nat)
  | descriptor (n : Nat) (line : Nat)
  | patchLine (n : Nat) (ordinal : Nat)
  | furrowEntry (f : Nat) (i : Nat)
  | tokenStore (f : Nat) (i : Nat)
  | hiveObject (n : Nat)
  | hiveLine (l : Nat)
  | scaleSlot (s : Nat)
  | frame (half core fr : Nat)
  | dataCache (half core : Nat)
  | imem (half core : Nat)
  | traceRing
  | auditStore
  | sampleBuffer
  | directory (home : Nat)
deriving DecidableEq, Repr

/-- A tables' TABLE value (R227, R307). -/
inductive CohTable where
  | desc
  | hive
  | scale
  | queue
deriving DecidableEq, Repr

/-- A coherent line: its table and its number in the table (R307). A DESC line is numbered
32 times the node slot plus the line of the sheaf, a HIVE or SCALE line by fours of its entries,
a QUEUE line eight times the queue plus the line of its context. -/
structure CohLine where
  table : CohTable
  index : Nat
deriving DecidableEq, Repr

/-- A release, or a home-side write, that reaches a line's home; `same` says that it does so in the clock of the one
before it (R323), `bad` is an error in the directory entry that is looked up (R326). -/
structure HomeArrival where
  line : CohLine
  same : Bool
  bad  : Option Found := none
deriving DecidableEq, Repr

/-- A writeback that reaches a line's home; `data` is an error in the line that it carries (R326). -/
structure LineBack where
  line : CohLine
  same : Bool
  bad  : Option Found := none
  data : Option Found := none
deriving DecidableEq, Repr

/-- A request that reaches a line's home; `bad` is an error in the directory entry that is looked up (R326). -/
structure HomeRequest where
  line : CohLine
  same : Bool
  bad  : Option Found
deriving DecidableEq, Repr

/-- DATA, or a FACK, for a line; `bad` is an error in the line that it carries (R326). -/
structure LineData where
  line : CohLine
  bad  : Option Found
deriving DecidableEq, Repr

/-- A read by a control core; `bad` is an error in the word that its data cache holds (R39). -/
structure CoreRead where
  core : Nat
  bad  : Option Found
deriving DecidableEq, Repr

/-- A read of a latching register, with the part that it covers (R451, R461). -/
structure LatchRead where
  reg  : LatchReg
  part : Part
deriving DecidableEq, Repr

/-- What the tests of power-up found: the source of a failure, and those whose single-bit errors were corrected (R420,
R421). -/
structure PowerFindings where
  failing   : Option Nat
  corrected : List Nat
deriving DecidableEq, Repr

/-- A hive message with its port word (R261, R375). -/
structure HiveFrame where
  port   : Word
  header : Word
  w0     : Word
  w1     : Word
  w2     : Word
deriving DecidableEq, Repr

/-- A notice with its port word (R375, R376). -/
structure Notice where
  port : Word
  n0   : Word
  n1   : Word
deriving DecidableEq, Repr

/-- A sideband frame (R445): header word, payload lines, trailer word. -/
structure SidebandFrame where
  header  : Word
  payload : List Line
  trailer : Word
deriving DecidableEq, Repr

/-- Whose acknowledgement an engine or link port gives: a context's teardown (R291) or a queue's
destruction (R295). -/
inductive AckScope where
  | context (c : Nat)
  | queue (q : Nat)
deriving DecidableEq, Repr

/-- How the crash dump of a compute reset ends (R359): written, ended by a host-port error, or still not
written when the step ends. -/
inductive DumpEnd where
  | written
  | failed
  | late
deriving DecidableEq, Repr

/-- What step 6 of a compute reset finds (R358). Cores are physical, 0-12 of each half. -/
structure ResetFindings where
  badCores  : List (Nat × Nat)
  badImem   : List (Nat × Nat)
  badHalves : List Nat
  /-- Masked sources whose pair still reads broken. -/
  badPairs  : List Nat
  /-- Those of `badPairs` that read (1, 1). -/
  ones      : List Nat := []
  /-- Words in which a single-bit error was corrected: their sources. -/
  corrected : List Nat
  /-- How the crash dump ended, if PL_DUMPBASE.EN is 1 (R359). -/
  dump     : DumpEnd
  /-- The furrows whose engines answered the abort with a commit handshake, and those that did not
  answer within 2 µs (R355 step 3). -/
  committed : List Nat
  silent    : List Nat
deriving DecidableEq, Repr

/-- The commands. -/
inductive Instr where
  -- host port: doorbell pages and counters
  | doorbellWrite (fn : Fn) (q : Nat) (wide : Bool) (v : Word)
  | recackWrite (fn : Fn) (q : Nat) (wide : Bool) (v : Word)
  | retiredRead (fn : Fn) (q : Nat) (wide : Bool)
  | lowHalfRead (fn : Fn) (r : CountReg) (part : Part)
  -- front end
  | tailRead (q : Nat)
  | fetchGrant (h : Nat)
  | ringFetchComplete (q : Nat) (a : RingReply)
  -- resolver
  | edgeRegistration (n i : Nat)
  | retireNotice (q : Nat) (seq : Word)
  | sheafRelease (n : Nat)
  -- steward
  | stewardStep (n : Nat)
  | scaleRecord
  | measureChoice (n : Nat)
  -- templates
  | tableReadComplete (n : Nat) (a : FabricReply)
  | memberCreate (n : Nat)
  -- furrows and engines
  | furrowAdmit (f : Nat)
  | arbiterGrant (f : Nat)
  | preloadComplete (f : Nat) (err : Option (Bool × PreloadError))
  | engineStart (f : Nat)
  | commitHandshake (f : Nat) (rep : EngineReport)
  | commitReport (n : Nat)
  | progressReport (p : PortReport)
  | saturationHandshake (p : PortReport)
  | abortHandshake (f : Nat) (rep : EngineReport)
  | tokenDelivery (f : Nat) (c : Nat) (g : Gens) (v : BitVec 16) (remote : Bool)
  | cycleBudgetExpiry (q : Nat)
  | preempt (f : Nat)
  | lendMark (core : Nat)
  | queueTimeout (n : Nat)
  -- opcodes of sheaves
  | nop (n : Nat)
  | config (q : Nat)
  | start (n : Nat)
  | cfgstart (n : Nat)
  | call (n : Nat)
  | wait (n : Nat)
  | signalAdd (n : Nat)
  | signalSet (n : Nat)
  | signalOr (n : Nat)
  | stileArrive (n : Nat)
  | stileArriveNowait (n : Nat)
  | stileInit (n : Nat)
  | stileReset (n : Nat)
  | fanout (n : Nat)
  | masked (n : Nat)
  | branchDeadline (n : Nat)
  | deadlineEvaluation (n : Nat)
  | branchObject (n : Nat)
  | combine (n : Nat)
  | measure (n : Nat)
  | fenceQueue (n : Nat)
  | fenceStep (n : Nat)
  | qctlCreate (n : Nat)
  | qctlDestroy (n : Nat)
  | qctlRestart (n : Nat)
  | ctxctlCreate (n : Nat)
  | ctxctlTeardown (n : Nat)
  | ctxctlSetwindows (n : Nat)
  | ctxctlReadacct (n : Nat)
  | windowCheckersLoaded (n : Nat)
  | loadroutine (n : Nat)
  | routineImageRead (n : Nat) (a : FabricReply)
  | tallyWrite (n : Nat)
  | tallyWriteNotify (n : Nat)
  | tallyReadCompletion (n : Nat) (a : HostReply)
  | partctlDefine (n : Nat)
  | partctlRelease (n : Nat)
  | faultctlThreshold (n : Nat)
  | faultctlAcklog (n : Nat)
  -- control cores
  | runStart (k : Nat)
  | frameClearComplete (k fr : Nat)
  | quantumExpiry (k : Nat)
  | add (k rd ra rb : Nat)
  | sub (k rd ra rb : Nat)
  | and (k rd ra rb : Nat)
  | or (k rd ra rb : Nat)
  | xor (k rd ra rb : Nat)
  | sll (k rd ra rb : Nat)
  | srl (k rd ra rb : Nat)
  | sra (k rd ra rb : Nat)
  | mul (k rd ra rb : Nat)
  | mulhu (k rd ra rb : Nat)
  | slt (k rd ra rb : Nat)
  | sltu (k rd ra rb : Nat)
  | min (k rd ra rb : Nat)
  | max (k rd ra rb : Nat)
  | minu (k rd ra rb : Nat)
  | maxu (k rd ra rb : Nat)
  | clz (k rd ra rb : Nat)
  | popc (k rd ra rb : Nat)
  | addi (k rd ra : Nat) (imm : BitVec 16)
  | andi (k rd ra : Nat) (imm : BitVec 16)
  | ori (k rd ra : Nat) (imm : BitVec 16)
  | xori (k rd ra : Nat) (imm : BitVec 16)
  | shifti (k rd ra : Nat) (imm : BitVec 16)
  | lui (k rd ra : Nat) (imm : BitVec 16)
  | shori (k rd ra : Nat) (imm : BitVec 16)
  | ld (k rd ra : Nat) (imm : BitVec 16)
  | lw (k rd ra : Nat) (imm : BitVec 16)
  | lb (k rd ra : Nat) (imm : BitVec 16)
  | st (k rd ra : Nat) (imm : BitVec 16)
  | sw (k rd ra : Nat) (imm : BitVec 16)
  | sb (k rd ra : Nat) (imm : BitVec 16)
  | mfill (k rd ra rb lines : Nat)
  | mdrain (k rd ra rb lines : Nat)
  | blockTransferComplete (k : Nat) (fr : Nat) (a : FabricReply)
  | tld (k : CoreRead) (rd : Nat) (ra : Nat) (rb : Nat)
  | tst (k rd ra rb : Nat)
  | sbind (k rd ra rb : Nat)
  | spush (k rd ra rb : Nat)
  | send (k rd ra rb : Nat)
  | scred (k rd ra rb : Nat)
  | streamLineTimeout (k fr port : Nat)
  | streamCreditReturn (p : PortReport)
  | emit (k rd ra rb : Nat)
  | reemit (k rd ra rb : Nat)
  | cwait (k rd ra rb : Nat)
  | drop (k rd ra rb : Nat)
  | cpoll (k rd ra rb : Nat)
  | hadd (k rd ra rb : Nat)
  | hset (k rd ra rb : Nat)
  | hor (k rd ra rb : Nat)
  | hwait (k cmp rd ra rb : Nat)
  | harrive (k rd ra rb : Nat)
  | harrivenw (k rd ra rb : Nat)
  | loop (k ra rb : Nat) (off : BitVec 16)
  | beq (k ra rb : Nat) (off : BitVec 16)
  | bne (k ra rb : Nat) (off : BitVec 16)
  | blt (k ra rb : Nat) (off : BitVec 16)
  | bge (k ra rb : Nat) (off : BitVec 16)
  | bltu (k ra rb : Nat) (off : BitVec 16)
  | bgeu (k ra rb : Nat) (off : BitVec 16)
  | jal (k : Nat) (off : BitVec 26)
  | j (k : Nat) (off : BitVec 26)
  | jalr (k rd ra rb : Nat)
  | exit (k rd ra rb : Nat)
  | sysTrap (k rd ra rb : Nat)
  | yield (k rd ra rb : Nat)
  | sysHeartbeat (k rd ra rb : Nat)
  | mfs (k rd ra rb : Nat)
  | mts (k rd ra rb : Nat)
  | sync (k rd ra rb : Nat)
  | sysTrace (k rd ra rb : Nat)
  -- hive traffic
  | signalReport (f : Nat) (w0 w1 w2 : Word)
  | signalMessage (m : HiveFrame)
  | hiveAck (m : HiveFrame)
  | waitreg (m : HiveFrame)
  | wake (m : HiveFrame)
  | waitregRetry (msgid : BitVec 32)
  | cancel (m : HiveFrame)
  | tierarrive (m : HiveFrame)
  | tierrelease (m : HiveFrame)
  | hiveDebugSelWrite (part : Part) (v : Word)
  -- contexts
  | teardown (c : Nat)
  | teardownAck (scope : AckScope) (port : Nat)
  | writeAck (a : DrainAck)
  | quarantine (c : Nat)
  | windowViolation (p : PortReport) (addr : Word) (write : Bool)
  | remoteWriteDrop (f c : Nat) (addr : Word)
  | abortqWrite (part : Part) (v : Word)
  -- coherence
  | rds (a : Nat) (m : HomeRequest)
  | rdx (a : Nat) (m : HomeRequest)
  | upg (a : Nat) (m : HomeRequest)
  | wbd (a : Nat) (m : LineBack)
  | wbc (a : Nat) (m : HomeArrival)
  | retry (a : Nat) (l : CohLine)
  | data (a : Nat) (m : LineData)
  | gnt (a : Nat) (l : CohLine)
  | fwdS (a : Nat) (l : CohLine)
  | fwdX (a : Nat) (l : CohLine)
  | inv (a : Nat) (l : CohLine)
  | coherenceAck (a : Nat) (l : CohLine)
  | fack (a : Nat) (m : LineData)
  | wback (a : Nat) (l : CohLine)
  | holdEnd (a : Nat) (l : CohLine)
  | agentEviction (a : Nat) (l : CohLine)
  | homeSideWrite (m : HomeArrival)
  | coherenceTimeout (l : CohLine)
  -- faults and recovery
  | patrolScrub (w : Storage) (bad : Option Found)
  | brokenWire (src : Nat) (ones : Bool)
  | chargeCheck (h : Nat) (out0 out1 : Nat)
  | hangSnapshot
  | hangScanComplete
  | heartbeatPeriodEnd
  | computeReset (fd : ResetFindings)
  | dumpTimeout
  | resetOverrun
  | recoveryWindowExpiry
  | resetRequest (part : Part) (v : Word)
  | faultsrcWrite (part : Part) (v : Word)
  | injectFire (v : Word)
  | injectWire (v : Word)
  -- groups
  | peerlost (m : Notice)
  | chipFault (m : Notice)
  | withdraw (m : Notice)
  | fenceReady (m : Notice)
  | fenceFall (m : Notice)
  | fenceAbandon (m : Notice)
  | stepsyncEdge
  | stepsyncWindowExpiry
  | staleEntryExpiry (i : Nat)
  | groupWrite (p : Nat) (part : Part) (v : Word)
  | fencectlWrite (part : Part) (v : Word)
  | fenceseqWrite (part : Part) (v : Word)
  -- registers
  | hivepartWrite (p : Nat) (part : Part) (v : Word)
  | reserveWrite (part : Part) (v : Word)
  | hangmodeWrite (part : Part) (v : Word)
  | vernegOfferWrite (part : Part) (v : Word)
  | bootqEnable (h : Nat) (part : Part) (v : Word)
  | clkenWrite (part : Part) (v : Word)
  | trimWrite (part : Part) (v : Word)
  | breakctlWrite (u : Nat) (part : Part) (v : Word)
  | breakResume (u : Nat)
  | traceClear (part : Part) (v : Word)
  | latchedDataRead (fn : Fn) (r : LatchRead)
  | placcessUpdate (addr : Nat) (v : Word)
  | placcessRead (addr : Nat)
  | registerWrite (offset : Nat) (part : Part) (v : Word)
  -- power and clocks
  | powerUp (factory : Bool)
  | stabilityWindow (count : Nat)
  | stabilityTimeout
  | powerUpComplete (t : PowerFindings)
  | trimGate (count : Nat)
  | referenceLoss
  | holdoverExpiry
  | linkClockLoss
  | linkClockReturn
  | idleEntry
  | idleWake
  | wakeComplete
  | plaliveToggle
  | energyCalibrated (f : Nat)
  | temperatureReport (celsius : Int)
  | transferEnd (f : Nat) (tag : BitVec 32) (dest : BitVec 14) (packets : Nat)
  -- lifetime records
  | flush (part : Part) (v : Word)
  | flushreq (m : SidebandFrame)
  | flushTimer
  | dataFrame (m : SidebandFrame)
  | ackFrame (m : SidebandFrame)
  | nak (m : SidebandFrame)
  | sidebandTimeout
  | computeResetComplete
  | referenceReturn
  | powerRemoval
deriving DecidableEq, Repr

end Sys2Proof
end

