-- ==== Sys2Proof/Decode.lean ====
section
/-! DEFINITION. The command that a word spells. No row of the table gives bits: every command is an
access, a message or an event, and its operands are words the boundary carries, so no word spells
one. -/

namespace Sys2Proof

/-- The command spelled by a word of `nbits` bits, by the table's bits: none.
Log 1 (DESIGN CHOICE, safe). -/
def decodeTableWord (_nbits _w : Nat) : Option Instr := none

end Sys2Proof
end

