-- ==== Sys2Proof/Config.lean ====
section
/-! DEFINITION. The values the spec leaves open. Each is an opaque constant: no proof can see
what it is. The ones indexed by a `Nat` are applied to the free-value counter of State, which
every use advances, so that two uses may differ. -/

namespace Sys2Proof.Config

/-- A value the spec leaves open: the CYCLE special register (R219), the nanoseconds within a
microsecond (R438) and the busy times of R304, since the model's time has a grain of one microsecond;
the address and syndrome of a storage error (R336); and the others that the assumption log names.
Log 3 (DESIGN CHOICE, unsafe), 6 (DESIGN CHOICE, safe). -/
opaque freeWord : Nat → Word

/-- Lengths of the shipped routines in slots 0-10, which the manual does not fix (R243).
Log 13 (DESIGN CHOICE, safe). -/
opaque shippedLengthSeed : Nat → Nat

/-- The words of the library ROM's image: slot and number of the instruction (R210). Every core of every half holds
the same image; the manual gives the contracts of its routines (R244), not their words.
Log 12 (DESIGN CHOICE, safe). -/
opaque romWord : Nat → Nat → BitVec 32

/-- The configuration that fuse words give, once fuses have been blown: their layout is not
fixed by the manual (R428).
Log 9 (DESIGN CHOICE, unsafe). -/
opaque fusedT6 : List (Nat × Word) → Bool

/-- The fused power-up value of PL_CHARGE.PREFER, once fuses have been blown (R28, R428).
Log 9 (DESIGN CHOICE, unsafe). -/
opaque fusedPrefer : List (Nat × Word) → Bool

/-- The scratchpad data a crash dump samples (R359), which is the engines' memory: byte offset
of the sample and line index give the line.
Log 51 (DESIGN CHOICE, safe). -/
opaque scratchLine : Nat → Nat → Line

end Sys2Proof.Config
end

