-- ==== Sys2Proof/Machine/State.lean ====
section
/-! DEFINITION. Pliat's state as plain data: every register, table, queue, counter and pin the
spec gives the block, the queue of waiting commands, and the state right after reset. Docstrings
name the rule that gives each piece of state. Tables of many like entries are lists of
(number, entry) pairs, numbers rising, and no entry listed that equals what an unlisted number
reads as (Machine/Tables.lean). -/

namespace Sys2Proof.Machine

/-- Why a step stops. -/
inductive Fault where
  /-- Raised by a meaning whose command names a unit that no access path can spell: a queue above
  4,095, a furrow above 599, a control core above 23, an agent above 29, a half above 1 and so on
  (the ranges of Sys2Proof/WellFormed.lean). Safe: such a command cannot reach the hardware. -/
  | noSuchUnit
deriving DecidableEq, Repr

/-- Why a command has no meaning. -/
inductive Refusal where
  /-- Raised by a command's arm of `exec` while the command has no meaning yet. Safe. -/
  | notModelled (mnemonic : String)
deriving DecidableEq, Repr

/-- A sparse table: numbers strictly rising, no entry equal to the table's default. -/
abbrev Tbl (α : Type) := List (Nat × α)

/-! ## Power, clocks and start-up -/

/-- Where the power-up sequence stands (R420). -/
inductive Power where
  /-- No supply. -/
  | off
  /-- Step 2, with the number of consecutive good windows (R400). -/
  | stability (good : Nat)
  /-- Step 2 failed at 10 ms: PLFAULT stays asserted until power is removed. -/
  | stalled
  /-- Steps 3 and 4. -/
  | init
  /-- The sequence is complete. -/
  | run
deriving DecidableEq, Repr

/-- The idle states (R415), coded as MAXSTATE (R419). -/
inductive Idle where
  | none
  | nap
  | doze
  | deep
deriving DecidableEq, Repr

/-- PL_TRIM.STATE (R402). -/
inductive TrimState where
  | untrimmed
  | acquire
  | locked
  | holdover
deriving DecidableEq, Repr

/-- The trim loop (R401-R404, R409). -/
structure Trim where
  code     : BitVec 12 := 0x800
  state    : TrimState := .untrimmed
  error    : BitVec 16 := 0
  losses   : BitVec 8 := 0
  lostref  : Bool := false
  link     : BitVec 5 := 0
  ref      : BitVec 2 := 0
  /-- Consecutive gates with |e| ≤ 0.05 % (R401). -/
  good     : Nat := 0
  /-- A write of REF or LINK waiting for the next gate (R404). -/
  waiting  : Option (BitVec 5 × BitVec 2) := none
  /-- The reference is lost (R403). -/
  refLost  : Bool := false
  /-- When HOLDOVER has lasted 60 s, in local microseconds. -/
  holdDue  : Nat := 0
  /-- PL_PWRSTAT.LOCKEDXING (R409). -/
  lockedXing : Bool := false
deriving DecidableEq, Repr

/-- Clock source, clock enables, idle and start-up registers (R407, R411, R419, R423). -/
structure Clocks where
  switches : BitVec 16 := 0
  /-- PL_CLKSRC.CUR: 1 is the local fallback. -/
  curLocal : Bool := true
  selLocal : Bool := false
  /-- The recovered clock is lost or has not been present for 64 µs. -/
  linkLost : Bool := true
  /-- PL_CLKEN bits 16:0. -/
  enables  : BitVec 17 := 0
  buserr   : BitVec 8 := 0
  clkRefused : Bool := false
  maxstate : BitVec 2 := 1
  entries  : BitVec 32 := 0
  lastidle : BitVec 2 := 0
  pendfail : Bool := false
  /-- The source a power-up test failure was found in (R421). -/
  failing  : Nat := 0
  /-- Furrows whose engine port has reported its energy meter calibrated (R423). -/
  calibrated : List Nat := []
  evalid   : Bool := false
  idle     : Idle := .none
  /-- Pliat is leaving its idle state, and when it will have left it (R415, R417). -/
  waking   : Bool := false
  wakeDue  : Nat := 0
  /-- The known event for which the wake is planned (R416, R417). -/
  planned  : Option Nat := none
  /-- When the stability test of step 2 fails (R420). -/
  stableDue : Nat := 0
  /-- When the recovered clock has been present for 64 µs (R407). -/
  returnDue : Nat := 0
deriving DecidableEq, Repr

/-! ## Charge -/

/-- The charge arbiter and the halves' beliefs (R28, R31, R364, R365). -/
structure Charge where
  moves     : BitVec 16 := 0
  yielded0  : Bool := false
  yielded1  : Bool := false
  ret       : Bool := false
  prefer    : Bool := false
  inService0 : Bool := true
  inService1 : Bool := true
  holder    : Bool := false
  belief0   : Bool := true
  belief1   : Bool := false
  /-- A half that yielded performs no chip-wide function until the next compute reset (R365). -/
  barred0   : Bool := false
  barred1   : Bool := false
deriving DecidableEq, Repr

/-! ## Queues and completion -/

/-- QSTATUS.STATE (R56, R57). -/
inductive QState where
  | free
  | idle
  | active
  | stopped
  | busy
  | offline
deriving DecidableEq, Repr

/-- Queue kinds (R46). -/
inductive QKind where
  | pf
  | partition
  | user
deriving DecidableEq, Repr

/-- A completion record as produced (R68). TIME and PHASE are filled in when it is written. -/
structure Record where
  seq      : Word
  tag      : BitVec 32
  status   : BitVec 8
  gen      : BitVec 12
  queue    : Nat
  executed : BitVec 16
  count    : BitVec 16
  detail   : BitVec 32
  furrow   : BitVec 10
  retire   : Bool
  /-- The node slot in HELDRECORD while this record is held (R109). -/
  node     : Option Nat
deriving DecidableEq, Repr

/-- What the resolver remembers of a retired sequence number (R110, R69). -/
structure Retired where
  zero   : Bool
  tag    : BitVec 32
  status : BitVec 8
  /-- Order stamp of the retirement: sheaves accepted later have a higher one. -/
  stamp  : Nat := 0
deriving DecidableEq, Repr

/-- The decision of a recorded BRANCH (R99). -/
inductive Decision where
  | undecided
  | primary
  | fallback
  | aborted
deriving DecidableEq, Repr

/-- A recorded BRANCH: its sequence number and the lengths of its two paths (R99). -/
structure Branch where
  seq      : Nat
  primary  : Nat
  fallback : Nat
  decision : Decision
deriving DecidableEq, Repr

/-- A queue's context (R48, R50-R62, R65, R74, R96, R99, R300). The default is a FREE queue. -/
structure Queue where
  state    : QState := .free
  err      : BitVec 8 := 0
  ctx      : Nat := 0
  kind     : QKind := .user
  fmt      : BitVec 4 := 0
  ringBase : Word := 0
  ringHost : Bool := false
  logSize  : Nat := 0
  recBase  : Word := 0
  recHost  : Bool := false
  /-- RECMODE EXCEPT. -/
  except   : Bool := false
  priority : Nat := 0
  timeout  : Nat := 0
  maxInflight : Nat := 0
  deadline : Word := 0
  head     : Word := 0
  tail     : Word := 0
  /-- TAIL as the fetcher last read it (t0 of R60): the fetcher fetches up to it. -/
  tailSeen : Word := 0
  pending  : Bool := false
  /-- Lines of a ring read that is outstanding (fetch-busy, R58). -/
  reading  : Nat := 0
  /-- Lines fetched from HEAD on that no check has consumed yet. -/
  fetched  : List Line := []
  /-- The sheaf at HEAD runs past TAIL, so the front end waits for a doorbell (R52). -/
  partialAtTail : Bool := false
  nextSeq  : Word := 0
  retired  : Word := 0
  inflight : Nat := 0
  /-- The record of the 4,096 sequence numbers below the next one (R110). -/
  record   : Tbl (Option Retired) := []
  lastTag  : BitVec 32 := 0
  lastStatus : BitVec 8 := 0
  recWritten : Word := 0
  recAck   : Word := 0
  held     : List Record := []
  /-- Recorded configuration: REGLOAD lines (R96). -/
  config   : List Line := []
  branches : List Branch := []
  /-- Origin time (R300). -/
  origin   : Option Word := none
  /-- FMT 0: the budget of the last start holds back the next start (R141). -/
  cycHold  : Bool := false
  /-- FMT 0: the local microsecond in which that budget can end at the earliest (R141). -/
  cycDue   : Nat := 0
  /-- FMT 0: furrow and sequence number of the sheaf started last, if it has CHAIN: its successor there ignores CYC
  (R142). -/
  cycChain : Option (Nat × Nat) := none
  /-- Ports that have not acknowledged the queue's destruction (R295). -/
  acks     : List Nat := []
deriving DecidableEq, Repr

/-! ## Node slots -/

/-- What an edge waits for: a sequence number of a queue (R86), or an issue of a control-core
handle (R231). -/
inductive EdgeTarget where
  | seq (q : Nat) (s : Nat)
  | issue (id : Nat)
deriving DecidableEq, Repr

/-- How an edge stands (R116, R117). A satisfied edge says whether its source is known to have
retired with EXECUTED 0 (R89). -/
inductive EdgeState where
  /-- Open, source homed in the same half. -/
  | open
  /-- The registration is on the half bridge. -/
  | unregistered
  /-- The other half has recorded the waiter. -/
  | registered
  /-- The source has retired and the notice is on the bridge. -/
  | noticed (zero : Bool)
  | done (zero : Bool)
deriving DecidableEq, Repr

structure Edge where
  target : EdgeTarget
  st     : EdgeState
deriving DecidableEq, Repr

/-- Where a sheaf stands on its way; R109's states are computed from it. -/
inductive Phase where
  /-- HELD. -/
  | held
  /-- PREPARE: released; the steward's step comes next (R120 step 3). -/
  | steward
  /-- PREPARE: released; its opcode's own step comes next. -/
  | ready
  /-- Its MEASURE pass is being admitted, waits in a furrow or runs (R165). -/
  | measuring
  /-- PREPARE: its MEASURE pass committed and the steward completes the choice (R165). -/
  | choice
  /-- PREPARE: the table read of a template is outstanding (R182). -/
  | table
  /-- A template whose members are being created, or are all created (R195). -/
  | expand
  /-- ADMIT. -/
  | admission
  /-- TOKEN or READY: in its furrow or shadow bank. -/
  | furrow
  /-- RUNNING. -/
  | running
  /-- A started sheaf between two iterations, its next one queued in the furrow. -/
  | between
  /-- The last iteration committed and the report travels to the resolver (R45). -/
  | committed
  /-- HIVE. -/
  | hive
  /-- PREPARE: a BRANCH DEADLINE waiting for its primary path (R301). -/
  | branch
  /-- A kernel command that is being carried out. -/
  | kernel
  /-- CORE. -/
  | core
  /-- HELDRECORD. -/
  | heldRecord
  /-- Ends by the teardown or reset it asked for; nothing more of it starts. -/
  | doomed
deriving DecidableEq, Repr

/-- The stages of a template's member (R179, R192, R199). -/
inductive MemberState where
  | waiting
  | entered
  | running
  | committed
  | ended
deriving DecidableEq, Repr

/-- A member of a template (R179, R185): `arg0`, `arg1` are COUNT and START of its expert, or row
and column of its tile. -/
structure Member where
  ordinal : Nat
  id      : Nat
  arg0    : Word
  arg1    : Word
  furrow  : Nat
  st      : MemberState
  /-- It runs in 32-bit mode (R193). -/
  acc32   : Bool
  /-- It has started at least once. -/
  ran     : Bool := false
deriving DecidableEq, Repr

/-- The folded reports of a sheaf (R161): `any` once a run has committed, `maxexp` none for ZERO. -/
structure Fold where
  any     : Bool := false
  maxexp  : Option Int := none
  clipped : Nat := 0
deriving DecidableEq, Repr

/-- How a sheaf that has its final status ends: status, EXECUTED, DETAIL and furrow. -/
structure Final where
  status   : BitVec 8
  executed : Nat
  detail   : BitVec 32
  furrow   : BitVec 10
deriving DecidableEq, Repr

/-- A node slot's sheaf (R108, R109). -/
structure Node where
  queue   : Nat
  /-- Sequence number; a child has its CALL's (R233). -/
  seq     : Word
  /-- For a child of a CALL: the CALL's node slot and the issue number (R231). -/
  child   : Option (Nat × Nat)
  half    : Nat
  ctx     : Nat
  gen     : BitVec 12
  prio    : Nat
  fmt     : BitVec 4
  tag     : BitVec 32
  lines   : List Line
  /-- Loads copied from the recorded configuration by a START (R96). -/
  cfg     : List Line
  phase   : Phase
  edges   : List Edge
  /-- CHAIN of the sheaf before it in its queue gives it an implicit edge (R138). -/
  chained : Bool
  /-- Released early at the first commit of its chain predecessor (R138). -/
  chainEarly : Bool
  /-- Acceptance order and release order. -/
  order   : Nat
  relOrder : Nat
  /-- When its queue timer fires, in local microseconds; none while stopped (R76, R435). -/
  timer   : Option Nat
  /-- First started on an engine (R127). -/
  started : Bool
  /-- Its WAITTOK has been taken (R126, R127). -/
  tokenTaken : Bool
  /-- Iterations committed (R88). -/
  iter    : Nat
  /-- The furrow chosen for it (R133). -/
  furrow  : Option Nat
  /-- Runs in 32-bit mode from now on (R170). -/
  acc32   : Bool
  satRecorded : Bool
  outexp  : Option (BitVec 8)
  /-- It had a steward step, so its report is recorded (R162). -/
  scaled  : Bool
  fold    : Fold
  /-- Pre-emptions in succession (R299). -/
  preempted : Nat
  /-- An abort request covers it (R297). -/
  aborted : Bool
  /-- Members still to be created: id and the two patch arguments, in expansion order. -/
  plan    : List (Nat × Word × Word)
  members : List Member
  /-- An abort request removed members or left some uncreated (R196). -/
  cut     : Bool := false
  /-- Lines the outstanding table or image read asked for. -/
  reading : Nat
  /-- A CALL: its control core, runs that reached EXIT, and whether it is ending. -/
  coreNo  : Nat
  runsDone : Nat
  /-- Set once the sheaf's end is decided. -/
  final   : Option Final
  /-- A break unit in tag mode has fired at its release (R434). -/
  tagHit  : Bool := false
  /-- Local microsecond of its release, from which the dispatch latency runs (R442). -/
  releasedAt : Nat := 0
  /-- A TALLY: address of the buffer that it writes (R30, R366). -/
  buffer  : Word := 0
  /-- Code of the state (R109, R360) in which its end was decided, for a sheaf that has ended so. -/
  endedIn : Nat := 2
  /-- The report of its MEASURE pass, between the pass and the choice (R165). -/
  pass    : Fold := {}
  /-- A PARTCTL RELEASE that has begun, and clears its range line by line (R429). -/
  begun   : Bool := false
deriving DecidableEq, Repr

/-! ## Furrows and engines -/

/-- A furrow entry (R37, R130). `member` is the ordinal of a template's member; `measure` marks a
MEASURE pass; `after` marks a sheaf's own image behind its running pass (R165). -/
structure Entry where
  node    : Nat
  member  : Option Nat
  measure : Bool
  after   : Bool
  ctx     : Nat
  gen     : BitVec 12
  prio    : Nat
  queue   : Nat
  charge  : Nat
  /-- WAITTOK still to be taken, 0 for none. -/
  waittok : BitVec 16
  /-- Release order, and order of entering the furrow (R130, R137). -/
  order   : Nat
  entered : Nat := 0
deriving DecidableEq, Repr

/-- The shadow bank (R135-R137): `loaded` once the preload is complete, `parked` for a sheaf
granted in TOKEN state. `left` counts the lines that still wait at the cluster port or link port group, and `since`
is the order stamp of the grant (R35). -/
structure Shadow where
  entry  : Entry
  loaded : Bool
  parked : Bool
  left   : Nat := 0
  since  : Nat := 0
deriving DecidableEq, Repr

/-- Why a run is being aborted (R296). -/
inductive AbortCause where
  | preempt
  | request
  | teardown
  | destroy
deriving DecidableEq, Repr

/-- A run on an engine. -/
structure EngineRun where
  entry : Entry
  abort : Option AbortCause
  acc16 : Bool
  /-- The iteration it runs. -/
  iter  : Nat
  /-- FMT 0: the next iteration waits for the cycle budget (R141). -/
  held  : Bool := false
  /-- Local microsecond of the start; the start came before EVALID (R304, R423). -/
  since : Nat := 0
  early : Bool := false
  /-- TAG of its sheaf (R438). -/
  tag   : BitVec 32 := 0
  /-- Its sheaf as it was when the destruction of its queue withdrew it (R295). -/
  orphan : Option Node := none
deriving DecidableEq, Repr

/-- A token store entry (R126). -/
structure Tok where
  ctx   : Nat
  gen   : BitVec 12
  value : BitVec 16
  count : Nat
deriving DecidableEq, Repr

/-- A furrow with its arbiter, its engine's banks and its token store (R37, R126, R130-R139). -/
structure Furrow where
  entries  : List Entry := []
  shadow   : Option Shadow := none
  run      : Option EngineRun := none
  deficits : Tbl Int := []
  lastCtx  : Option Nat := none
  /-- Queue served last within each context (R131). -/
  lastQueue : Tbl (Option Nat) := []
  /-- TAG, queue and context of the sheaves whose runs ended here, newest first, for the transfers that end after
  their run (R439). -/
  ended    : List (BitVec 32 × Nat × Nat) := []
  /-- Consecutive chained starts while another context waited (R139). -/
  chained  : Nat := 0
  /-- The release order of the chained successor, released early, that may bypass arbitration here (R138,
  R139). -/
  chainFrom : Option Nat := none
  tokens   : List Tok := []
  /-- Since when an eligible priority-0 head has waited, and whether the oscillator was trimmed then
  (R299, R405). -/
  urgentSince : Option (Nat × Bool) := none
  /-- Since when it has had no eligible head and its engine no run (R270). -/
  quiet    : Option Nat := some 0
deriving DecidableEq, Repr

/-- A request for admission (R130): members and passes as entries, in ADMIT order. -/
structure Admit where
  furrow : Nat
  entry  : Entry
  /-- Admit at the head of its queue's list (R138, R299). -/
  front  : Bool
deriving DecidableEq, Repr

/-- A token in flight on this chip (R125). -/
structure Flying where
  furrow  : Nat
  ctx     : Nat
  gen     : BitVec 12
  value   : BitVec 16
deriving DecidableEq, Repr

/-- A commit report on its way to the resolver (R45): what it ends. -/
structure Report where
  node   : Nat
  gen    : BitVec 12
  /-- Acceptance order of its sheaf, which tells it from a later one in the same node slot. -/
  order  : Nat
  /-- How the run ended, for the final report of a sheaf. -/
  final  : Final
deriving DecidableEq, Repr

/-! ## Scale slots -/

/-- A scale slot (R157). The default is a cleared slot (R156). -/
structure Slot where
  ptr     : Nat := 0
  count   : Nat := 0
  margin  : Nat := 1
  bound   : Option Nat := none
  pendmax : Option Int := none
  lastexp : Option Int := none
  ref     : Int := 0
  /-- DELTA0 to DELTA15; positions beyond the list are 0. -/
  deltas  : List Nat := []
deriving DecidableEq, Repr

/-- A recording that the steward has still to perform (R162). -/
structure ScaleRec where
  slot    : Nat
  ctx     : Nat
  gen     : BitVec 12
  fold    : Fold
  acc32fmt : Bool
  combine : Bool
deriving DecidableEq, Repr

/-! ## Hive -/

/-- A hive object (R245). The default is a cleared object. -/
structure Obj where
  w0 : Word := 0
  w1 : Word := 0x000FFC0000000000
deriving DecidableEq, Repr

/-- Who waits on an object, or for a remote operation. -/
inductive Owner where
  /-- A WAIT or STILE sheaf. -/
  | node (n : Nat)
  /-- A control-core run: logical core, frame, and RD. -/
  | run (k fr rd : Nat)
  /-- A waiter on another chip: partition and MSGID of its WAITREG (R262). -/
  | remote (part : Nat) (msgid : BitVec 32)
deriving DecidableEq, Repr

/-- What releases a waiter: a comparison (R250) or the completion of a round (R253, R266). -/
inductive Test where
  | cmp (code : Nat) (operand : Word)
  | round (r : BitVec 16)
  /-- A direct remote arrival's round; `late` if the issuing chip's object was past it already (R266). -/
  | direct (r : BitVec 16) (late : Bool)
deriving DecidableEq, Repr

structure Waiter where
  test  : Test
  owner : Owner
  ctx   : Nat
  gen   : BitVec 12
  queue : Nat
  /-- Group chip number; 0x3FFF for this chip. -/
  chip  : BitVec 14
  chipgen : BitVec 8
deriving DecidableEq, Repr

/-- A remote operation awaiting its ACK or WAKE (R262). -/
structure RemoteOp where
  msgid : BitVec 32
  owner : Owner
  /-- A WAIT, so a WAKE is expected. -/
  wait  : Bool
  part  : Nat
  chip  : BitVec 14
  obj   : Nat
  ctx   : Nat
  frame : HiveFrame
  /-- When the WAITREG is to be sent again (R262). -/
  retryDue : Option Nat
deriving DecidableEq, Repr

/-- PL_HIVESTAT (R274) but for RWAIT, which is counted from the waiters. -/
structure HiveStat where
  blocked : BitVec 16 := 0
  stale   : BitVec 16 := 0
  misuse  : BitVec 16 := 0
deriving DecidableEq, Repr

/-- The snapshot of the hive debug window (R273).
Log 7 (DESIGN CHOICE, unsafe). -/
structure HiveDebug where
  sel     : BitVec 18 := 0
  value   : Word := 0
  header  : Word := 0
  count   : BitVec 17 := 0
  waiters : List Word := []
deriving DecidableEq, Repr

/-! ## Contexts and partitions -/

/-- Context states (R277). OFFLINE is computed from the half's loss. -/
inductive CtxState where
  | free
  | live
  | teardown
  | draining
  | quarantined
deriving DecidableEq, Repr

/-- A memory window (R94, R279): pages BASE to LIMIT of a space. The default is not in use. -/
structure Window where
  valid : Bool := false
  base  : BitVec 52 := 0
  limit : BitVec 52 := 0
  space : BitVec 2 := 0
  write : Bool := false
deriving DecidableEq, Repr

/-- Accounting counters (R304). -/
structure Acct where
  busyMe : Word := 0
  busyVe : Word := 0
  busyDm : Word := 0
  busyLink : Word := 0
  busyCore : Word := 0
  retired : Word := 0
  memread : Word := 0
  memwrite : Word := 0
  linksent : Word := 0
  busyLost : Word := 0
  energy : Word := 0
  satreruns : BitVec 32 := 0
  fallbacks : BitVec 32 := 0
  preempted : BitVec 32 := 0
deriving DecidableEq, Repr

/-- A context (R275-R278, R284, R291-R294). -/
structure Ctx where
  state  : CtxState := .free
  part   : Nat := 0
  gen    : BitVec 12 := 0
  windows : Tbl Window := []
  /-- Writes committed and not acknowledged (R293). -/
  drain  : Nat := 0
  drainDue : Nat := 0
  acct   : Acct := {}
  /-- Ports that have not acknowledged the teardown (R291). -/
  acks   : List Nat := []
  /-- The SETWINDOWS that pauses the context (R284). -/
  setwin : Option Nat := none
deriving DecidableEq, Repr

/-- A partition (R287, R288). -/
structure Partition where
  defined  : Bool := false
  clusters : BitVec 12 := 0
deriving DecidableEq, Repr

/-- A teardown that has been asked for and not begun (R291): the cause of R292, and the sheaf that
retires with its own status. -/
structure TearReq where
  ctx   : Nat
  cause : BitVec 8
  node  : Option Nat
deriving DecidableEq, Repr

/-! ## Control cores -/

/-- An active hardware loop (R224, R225): first and last instruction, remaining count. -/
structure Loop where
  first : Nat
  last  : Nat
  left  : Word
deriving DecidableEq, Repr

/-- A stream port (R237): the CALL and the issue it is bound to. `line` gathers entries not yet sent, an
end marker being none. -/
structure Port where
  call    : Nat
  bound   : Option Nat
  started : Bool
  /-- Entries before the issue's start. -/
  prefill : List (Option Word)
  credits : Nat
  line    : List (Option Word)
  ended   : Bool
  /-- The issue ended without commit; pushes are discarded. -/
  dead    : Bool
deriving DecidableEq, Repr

/-- A live handle (R231): its descriptor, its latest issue, and that issue's result. -/
structure Handle where
  num   : Nat
  /-- Node slot of the latest issue, whose descriptor lines the handle keeps (R228). -/
  slot  : Nat
  lines : List Line
  cfg   : List Line
  issue : Nat
  res   : Option (BitVec 8 × BitVec 16)
deriving DecidableEq, Repr

/-- A table access that a run has begun and that waits for its line (R229, R317): TLD's destination register
and table address, or TST's handle, line, word and value. -/
inductive LineAccess where
  | read (line : CohLine) (rd : Nat) (addr : Word)
  | write (line : CohLine) (handle j i : Nat) (value : Word)
deriving DecidableEq, Repr

/-- Why a run is not ready (R215). -/
inductive RunState where
  | ready
  | cwait (handle rd : Nat)
  | hive
  | block
  | reissue (handle : Nat)
  /-- An EMIT or REEMIT of so many lines waits (R234). -/
  | nodeSlot (lines : Nat)
  | credit (port : Nat)
  /-- A SYNC waits for the run's pushes (R236). -/
  | sync
deriving DecidableEq, Repr

/-- A block transfer in progress (R230): MFILL or MDRAIN, its frame address, lines and memory address. -/
structure Transfer where
  fill  : Bool
  frame : Nat
  lines : Nat
  addr  : Word
deriving DecidableEq, Repr

/-- How far a run of a shipped routine has come in its contract (R244); the model's own, not the spec's. -/
structure Track where
  /-- Acts done. -/
  n      : Nat := 0
  /-- Row, level or repetition, and what has been done of it. -/
  row    : Nat := 0
  entry  : Nat := 0
  /-- Slices or chunks issued. -/
  slices : List Nat := []
  /-- The latest issue, or the microsecond of the latest heartbeat. -/
  last   : Option Nat := none
  ended  : Bool := false
  /-- The memory lines that MFILL has read, by address / 64. -/
  known  : Tbl (Option Line) := []
deriving DecidableEq, Repr

/-- A framed run (R212, R214, R219). -/
structure Run where
  call   : Nat
  slot   : Nat
  iter   : Nat
  queue  : Nat
  ctx    : Nat
  gen    : BitVec 12
  prio   : Nat
  /-- General registers g1-g31; g0 reads zero (R209). -/
  regs   : Tbl Word
  pc     : Nat
  loops  : List Loop
  lc     : Word
  handles : List Handle
  /-- Frame bytes (R212). -/
  mem    : List Host.Cell
  st     : RunState
  /-- The block transfer that is in progress. -/
  xfer   : Option Transfer
  /-- Order in which it became ready. -/
  readyAt : Nat
  /-- The table access the core stalls on. -/
  stall  : Option LineAccess := none
  /-- What it has done of its routine's contract. -/
  track  : Track := {}
deriving DecidableEq, Repr

/-- A frame of a control core (R212). -/
inductive FrameState where
  | free
  | run (r : Run)
  | clearing
deriving DecidableEq, Repr

/-- A queued run (R213). -/
structure RunReq where
  call  : Nat
  prio  : Nat
  order : Nat
deriving DecidableEq, Repr

/-- A logical control core (R209, R213-R215). -/
structure Core where
  runq    : List RunReq := []
  frames  : Tbl FrameState := []
  current : Option Nat := none
  /-- When the current run became current, in local microseconds (R215). -/
  currentAt : Nat := 0
  /-- Stream ports 0-3 that are not free (R209, R237). -/
  ports   : Tbl (Option Port) := []
deriving DecidableEq, Repr

/-- A routine slot (R210, R241-R243). Shipped slots hold no image here: the ROM's contents are not
the manual's. -/
structure RSlot where
  image   : List (BitVec 32) := []
  pages   : List Nat := []
  loads   : BitVec 16 := 0
  /-- The LOADROUTINEs whose image read is under way, and the pages each holds. -/
  loading : List (Nat × List Nat) := []
deriving DecidableEq, Repr

/-! ## Coherence -/

/-- Agent states of a line, stable and transient (R308). -/
inductive AState where
  | i
  | s
  | e
  | m
  | is
  | im
  | sm
  | ei
  | mi
deriving DecidableEq, Repr

/-- Grant states of DATA (R311). -/
inductive Grant where
  | s
  | e
  | m
deriving DecidableEq, Repr

/-- Requests an agent makes of a home (R311). -/
inductive Req where
  | rds
  | rdx
  | upg
deriving DecidableEq, Repr

/-- The protocol's messages (R311); a forward carries its requester. -/
inductive MsgKind where
  | req (r : Req) (reserved : Bool)
  | wbd
  | wbc
  | retry
  | data (g : Grant)
  | gnt
  | fwdS (r : Nat)
  | fwdX (r : Nat)
  | inv
  | ack
  | fack (dirty : Bool)
  | wback
deriving DecidableEq, Repr

/-- A message in flight. Endpoint 30 + h is home h, 32 the common home; 0-29 are the agents. -/
structure Msg where
  src  : Nat
  dst  : Nat
  line : CohLine
  kind : MsgKind
deriving DecidableEq, Repr

/-- An agent's view of a line (R308, R316, R317). The default is I. -/
structure ALine where
  st   : AState := .i
  hold : Bool := false
  kept : List MsgKind := []
deriving DecidableEq, Repr

/-- Directory states (R309). -/
inductive DState where
  | u
  | s (v : List Nat)
  | x (o : Nat)
deriving DecidableEq, Repr

/-- The transaction that makes a line BUSY (R315). -/
inductive Txn where
  /-- Invalidations are outstanding; then the requester is granted DATA(M), or GNT. -/
  | inval (r : Nat) (gnt : Bool) (left : List Nat) (shared : Bool)
  /-- A forward is outstanding. -/
  | forward (r : Nat) (claim : Bool) (shared : Bool)
  /-- A home-side write waits for its sharers (R319). -/
  | homeWrite (left : List Nat)
  /-- A freed DESC line is being taken back (R320). -/
  | freeing (left : List Nat)
  /-- Storage is read for the requester, whose final grant then goes (R315, R318); since when. -/
  | fetch (r : Nat) (k : MsgKind) (next : DState) (shared : Bool) (since : Nat)
  /-- Storage is written for a writeback or release, whose WBACK then goes (R315); since when. -/
  | store (a since : Nat)
deriving DecidableEq, Repr

/-- What a hive does with an object of its own accord, once its cache holds the object's line (R317).
Log 83 (DESIGN CHOICE, safe). -/
inductive LineWork where
  /-- The object is cleared (R40). -/
  | clear (n : Nat)
  /-- The tier object becomes BROKEN: the chip lost, with its generation (R267). -/
  | broken (n : Nat) (chip : BitVec 14) (chipgen : BitVec 8)
deriving DecidableEq, Repr

/-- A directory entry with its retry list (R309, R314). Agent 30 in the list is the home-side
writer (R319, R323). -/
structure Dir where
  st    : DState := .u
  txn   : Option Txn := none
  retry : List (Nat × Req × Bool) := []
  /-- The DESC line has been freed and is taken back when its transaction ends (R320). -/
  freed : Bool := false
  /-- The requests not yet served, with the local microsecond of their first arrival (R325). -/
  arrived : List (Nat × Nat) := []
  /-- The local microsecond in which the transaction began (R325). -/
  began : Nat := 0
deriving DecidableEq, Repr

/-! ## Faults and recovery -/

/-- A fault source's counting and its pair (R329, R332). -/
structure Source where
  n      : BitVec 8 := 0xFF
  window : BitVec 22 := 1
  /-- Sub-counts: (number of the W/16 interval, count). -/
  subs   : List (Nat × Nat) := []
  masked : Bool := false
  forced : Bool := false
deriving DecidableEq, Repr

/-- Fault classes (R330). -/
inductive Class where
  | note
  | contain
  | severe
  | grave
deriving DecidableEq, Repr

/-- An event as a source reports it (R331, R336). -/
structure Event where
  source   : Nat
  kind     : BitVec 8
  cls      : Class
  /-- Context named, with its generation before any teardown. -/
  ctx      : Option (Nat × BitVec 12) := none
  tag      : BitVec 32 := 0
  queue    : Nat := 0
  furrow   : BitVec 10 := 0x3FF
  status   : BitVec 8 := 0
  address  : Word := 0
  info0    : Word := 0
  info1    : Word := 0
  detail   : BitVec 32 := 0
  injected : Bool := false
  /-- Cause code of the teardown it asks for (R292), and the sheaf that ends with it. -/
  cause    : BitVec 8 := 0
  node     : Option Nat := none
deriving DecidableEq, Repr

/-- An open fault record (R339): its entry of the log, its class and its context. -/
structure OpenRec where
  entry : Nat
  cls   : Class
  ctx   : Option Nat
  /-- A CHARGE record closes when the yield is complete. -/
  charge : Bool
deriving DecidableEq, Repr

/-- A compute reset that has been asked for (R354, R363). -/
structure ResetReq where
  /-- LASTCAUSE: 0 an event with a record, 1 an operator request, 2 an event without a record. -/
  cause  : BitVec 2
  /-- Record number of the triggering record, for cause 0. -/
  recno  : Nat
deriving DecidableEq, Repr

/-- The fault collector's log and registers (R335, R341, R347). -/
structure Faults where
  sources : Tbl Source := []
  log     : Tbl (List Word) := []
  opened  : List OpenRec := []
  lost    : BitVec 16 := 0
  acked   : BitVec 16 := 0
  written : BitVec 16 := 0
  /-- Full record number (R335). -/
  recno   : Nat := 0
  notifymin : BitVec 2 := 1
  sel     : BitVec 9 := 0
  srcSel  : BitVec 16 := 0
  inject  : Word := 0
deriving DecidableEq, Repr

/-- A sheaf as the hang detector knows it again: its node slot, generation and acceptance (R350). -/
structure HangId where
  node  : Nat
  gen   : BitVec 12
  order : Nat
deriving DecidableEq, Repr

/-- Compute reset, recovery, heartbeat and hang detection (R348-R363). -/
structure Recovery where
  chipgen : BitVec 8 := 0
  resets  : BitVec 16 := 0
  lastrec : BitVec 16 := 0
  lastcause : BitVec 2 := 0
  dumpfail : Bool := false
  window  : Bool := false
  windowDue : Nat := 0
  inprogress : Bool := false
  dumping : Bool := false
  /-- What step 6 will find, while a dump that has not been written holds it back (R359). -/
  findings : Option ResetFindings := none
  resetDue : Nat := 0
  dumpDue : Nat := 0
  safe    : Bool := false
  request : Option ResetReq := none
  cycles  : BitVec 8 := 0
  misses  : BitVec 2 := 0
  armed   : Bool := false
  hangRefused : Bool := false
  mode    : Bool := false
  period  : BitVec 17 := 0x2710
  beatDue : Nat := 0
  lastBeat : Word := 0
  /-- When the hang detector takes its next snapshot. -/
  scanDue : Nat := 0
  /-- The latest snapshot's waits, taken and not yet scanned: a sheaf and one it waits for. -/
  snapshot : Option (List (HangId × HangId)) := none
  /-- The sheaves in a cycle of the snapshot before. -/
  suspects : List HangId := []
  /-- The waits of the snapshot scanned last, and how many scans in succession have found them
  (R414). -/
  lastGraph : List (HangId × HangId) := []
  scans   : Nat := 0
  dumpBase : BitVec 52 := 0
  dumpSample : BitVec 11 := 0
  dumpEn  : Bool := false
  tallyBase : BitVec 52 := 0
  tallyValid : Bool := false
  tallies : Word := 0
  /-- Queue states captured at step 1 of a compute reset (R360). -/
  captured : Tbl (List Word) := []
  usecAt  : Word := 0
  /-- The scratchpad-sample buffer has been written (R38, R359): its offset. -/
  sample  : Option Nat := none
  /-- The sampled lines, 32 for each core, kept until the next dump (R38). -/
  sampled : List Line := []
deriving DecidableEq, Repr

/-! ## Groups and the step fence -/

/-- PL_GROUPp (R371). -/
structure Group where
  refused : Bool := false
  en      : Bool := false
  size    : BitVec 14 := 1
  mgr     : BitVec 14 := 0
  num     : BitVec 14 := 0
deriving DecidableEq, Repr

/-- Stale-table entries (R379). -/
inductive StaleKind where
  | chip (gen : BitVec 8)
  | failed
  | context (gen : BitVec 8) (ctx : BitVec 10) (cgen : BitVec 12)
deriving DecidableEq, Repr

structure Stale where
  part : Nat
  chip : BitVec 14
  kind : StaleKind
  due  : Nat
deriving DecidableEq, Repr

/-- The step fence (R385-R393). -/
structure Fence where
  refused   : Bool := false
  part      : BitVec 4 := 0
  arrivals  : BitVec 12 := 1
  window    : BitVec 13 := 0
  sync      : Bool := false
  en        : Bool := false
  seq       : BitVec 48 := 1
  arrived   : Nat := 0
  next      : Nat := 0
  /-- Waiting arrivals: counted for the open fence, for the next one, and held. -/
  openNodes : List Nat := []
  nextNodes : List Nat := []
  held      : List Nat := []
  misses    : BitVec 16 := 0
  mismatch  : BitVec 16 := 0
  /-- On the manager: the chips counted ready. -/
  ready     : List Nat := []
  /-- On a worker: READY has been sent for the open fence. -/
  sent      : Bool := false
  /-- The open fence is due and waits for an edge: when its window ends (R387, R388). -/
  due       : Option Nat := none
  /-- Edges of STEPSYNC that no fence has used and that a window can still reach, newest first, and
  the time of the latest edge (R388, R390). -/
  edges     : List Nat := []
  lastEdge  : Option Nat := none
  /-- SEQ of the last fence that fell here, for R394. -/
  fallen    : Option (BitVec 48) := none
deriving DecidableEq, Repr

/-! ## Audit, trace, breaks, lifetime -/

/-- The audit ring (R429-R431). -/
structure Audit where
  ring    : Tbl (List Word) := []
  written : BitVec 32 := 0
  count   : Nat := 0
  sel     : BitVec 13 := 0
deriving DecidableEq, Repr

/-- The trace ring (R437-R440). -/
structure Trace where
  ring    : Tbl (List Word) := []
  written : BitVec 32 := 0
  dropped : BitVec 8 := 0
  stop    : Bool := false
  filten  : Bool := false
  filtctx : BitVec 10 := 0
  kindmask : BitVec 8 := 0xFF
  sel     : BitVec 17 := 0
  /-- The model's own: the microseconds of the last 16 records that entered the queue, newest first (log 62). -/
  recent  : List Nat := []
deriving DecidableEq, Repr

/-- A break unit (R432). -/
structure Break where
  hit     : Bool := false
  refused : Bool := false
  mode    : BitVec 2 := 0
  ctx     : BitVec 10 := 0
  counted : BitVec 32 := 0
  mask    : BitVec 32 := 0
  value   : BitVec 32 := 0
deriving DecidableEq, Repr

/-- What the sideband is doing (R443-R445). -/
inductive Sideband where
  | idle
  /-- Reading the header of a slot. -/
  | header (slot : Nat)
  /-- Reading lines of a slot's image. -/
  | load (slot line : Nat)
  /-- Writing lines of a flush, 1-267 and then 0. -/
  | flush (line : Nat)
deriving DecidableEq, Repr

/-- Microseconds not yet counted as whole seconds (R441), for each kind of time of R442. -/
structure Seconds where
  powered : Nat := 0
  running : Nat := 0
  nap     : Nat := 0
  doze    : Nat := 0
  deep    : Nat := 0
  safe    : Nat := 0
deriving DecidableEq, Repr

/-- The lifetime records (R441-R446). -/
structure Life where
  /-- The live image by 64-bit word, 0-2,143 (R442). -/
  image   : Tbl Word := []
  flushes : BitVec 16 := 0
  fails   : BitVec 16 := 0
  badframes : BitVec 16 := 0
  loaded  : Bool := false
  fresh   : Bool := false
  sel     : BitVec 12 := 0
  sideband : Sideband := .idle
  /-- SEQ of the request in progress, and how often it has been sent again. -/
  seq     : BitVec 8 := 0
  retries : Nat := 0
  /-- When the answer is missing (R445). -/
  answerDue : Nat := 0
  /-- Headers read from the two slots: FLUSHES, CRC, and whether the slot is still a candidate. -/
  slot0   : Option (Word × Word) := none
  slot1   : Option (Word × Word) := none
  /-- The slot that holds the newest valid image. -/
  newest  : Nat := 1
  /-- Lines of the image being loaded, or of the snapshot being flushed. -/
  buffer  : List Line := []
  /-- A flush is waiting for the one in progress, or for the load. -/
  waiting : Bool := false
  /-- It was requested during a load: should that load fail, it is retried (R447). -/
  reload  : Bool := false
  flushDue : Nat := 0
  secs    : Seconds := {}
deriving DecidableEq, Repr

/-! ## Registers of the pages that belong to no part above -/

/-- Installer-page and operator-page registers (15_register_map.md). -/
structure Regs where
  kcmden    : BitVec 3 := 0
  groupchips : BitVec 16 := 1
  reserveRefused : Bool := false
  preemptDelay : BitVec 10 := 0
  preemptVictim : BitVec 2 := 3
  preemptEn : Bool := false
  nolend    : BitVec 12 := 0
  lendEn    : Bool := false
  tierBase  : BitVec 18 := 0
  tierCount : BitVec 19 := 0
  scalepart : Tbl Word := []
  hivepart  : Tbl Word := []
  qsel      : BitVec 12 := 0
  agreed    : BitVec 4 := 0
  offer     : BitVec 4 := 0
  boot0     : Word := 6
  boot1     : Word := 6
  abortBusy : Bool := false
  abortQueue : BitVec 12 := 0
  ctxSel    : BitVec 10 := 0
  partSel   : BitVec 4 := 0
  slotSel   : BitVec 7 := 0
  scaleSel  : BitVec 16 := 0
  absorbed0 : BitVec 32 := 0
  absorbed1 : BitVec 32 := 0
  /-- MSI-X table: address and data/control word of vectors 0 and 1, and the pending bits (R460). -/
  msixAddr0 : Word := 0
  msixCtl0  : Word := 0x100000000
  msixAddr1 : Word := 0
  msixCtl1  : Word := 0x100000000
  msixPend  : BitVec 2 := 0
  /-- MSI-X Enable and Function Mask of the capability's Message Control (R460). -/
  msixEnable : Bool := false
  msixMaskAll : Bool := false
deriving DecidableEq, Repr

/-- A latch of a function (R453, R461): which register took it, and the words. -/
structure Latch where
  fn    : Fn
  reg   : Nat
  words : List Word
deriving DecidableEq, Repr

/-- The fuses and the maker's path (R428).
Log 9 (DESIGN CHOICE, unsafe). -/
structure Fuses where
  words   : Tbl Word := []
  /-- Fuses have been blown since the configuration was taken over. -/
  blown   : Bool := false
  /-- The configuration in effect: T-6. -/
  t6      : Bool := false
  prefer  : Bool := false
  /-- Factory test mode, from the test strap at power-up. -/
  factory : Bool := false
  /-- What the next Capture-DR returns. -/
  capture : Word := 0
deriving DecidableEq, Repr

/-! ## What Pliat drives -/

/-- What crosses Pliat's boundary outwards (00_scope.md, The boundary).
Log 4 (DESIGN CHOICE, safe). -/
inductive Out where
  /-- Words written to host or device memory, stamped (R290). -/
  | memWrite (st : Stamp) (host : Bool) (addr : Word) (words : List Word)
  /-- Lines read from host or device memory, stamped (R290). -/
  | memRead (st : Stamp) (host : Bool) (addr : Word) (lines : Nat)
  /-- Data of a host read, none for Completer Abort (R412). -/
  | readData (fn : Fn) (v : Option Word)
  /-- An MSI-X message: its vector, address and data (R460). -/
  | msix (vector : Nat) (addr : Word) (data : BitVec 32)
  /-- A sheaf's or member's lines carried to a shadow bank. -/
  | preload (furrow node : Nat) (member : Option Nat)
  | discard (furrow node : Nat)
  /-- An engine start with its stamp (R290, R357) and the registers that differ from their reset values. -/
  | start (st : Stamp) (furrow node : Nat) (member : Option Nat) (measure : Bool) (image : List (Nat × Word))
  /-- The OUTEXP patch of R165. -/
  | patch (furrow : Nat) (exp : BitVec 8)
  /-- A further start of the active bank: the next iteration, or a saturation rerun. -/
  | rerun (st : Stamp) (furrow : Nat)
  | abort (furrow : Nat) (gen : BitVec 12)
  /-- A token for a furrow of another chip, handed to the data path with its stamp (R123, R258, R357). -/
  | remoteToken (st : Stamp) (value : BitVec 16) (chip : BitVec 14) (furrow : Nat)
  /-- Address-stream entries sent to an engine's FIFO; none is the end marker (R237). -/
  | stream (furrow : Nat) (entries : List (Option Word))
  /-- A context's windows written to the checkers of the cores and link ports named, with its generation
  (R281, R290). -/
  | windows (st : Stamp) (windows : List (Nat × Window)) (cores ports : List Nat)
  | hiveMsg (part : Nat) (m : HiveFrame)
  | notice (part : Nat) (m : Notice)
  /-- A stale entry loaded into, or removed from, the data movers of the cores and link ports named (R381). -/
  | staleLoad (e : Stale) (cores ports : List Nat)
  | staleRemove (e : Stale) (cores ports : List Nat)
  | sideband (f : SidebandFrame)
  | lendable (core : Nat) (on : Bool)
  /-- The engine of a furrow is reset; the scratchpads are zeroed (R355, R356). -/
  | engineReset (furrow : Nat)
  | scratchZero
deriving DecidableEq, Repr

/-! ## The machine -/

/-- The state of Pliat. -/
structure State where
  /-- The commands that wait, first in, first out. -/
  pending  : List Instr
  /-- Accesses and deliveries held until a wake, a reset or the power-up completes (R454), each with the local
  microsecond of its arrival. -/
  heldCmds : List (Nat × Instr)
  /-- Arrival of the held access or delivery that is being performed. -/
  heldFrom : Option Nat
  /-- What Pliat has driven, newest first. -/
  out      : List Out
  /-- The model's own counter for free values, not the spec's. -/
  free     : Nat
  /-- Order stamps for acceptance, release, admission and readiness; not the spec's. -/
  stamp    : Nat
  power    : Power
  /-- PL_USEC (R457). -/
  usec     : Word
  fuses    : Fuses
  trim     : Trim
  clocks   : Clocks
  charge   : Charge
  regs     : Regs
  latches  : List Latch
  queues   : Tbl Queue
  /-- Round-robin position of each half's fetch arbiter, by 4 · half + priority: 0 for no queue
  served yet, q + 1 for queue q. -/
  fetchLast : Tbl Nat
  /-- Round-robin position of each cluster port, by cluster, and of the link port group, 12: the core port or link
  furrow served last (R35). -/
  fabric   : List (Nat × Nat)
  nodes    : Tbl (Option Node)
  furrows  : Tbl Furrow
  admits   : List Admit
  flying   : List Flying
  reports  : List Report
  nextIssue : Nat
  slots    : Tbl Slot
  /-- What the storage of the common home and of homes 0 and 1 still holds of a slot, and of a queue's RETIRED,
  whose home-side write has not been performed (R319). -/
  oldSlots : List (Nat × Slot)
  oldRetired : List (Nat × Word)
  stewardQ : List ScaleRec
  objects  : Tbl Obj
  waiters  : Tbl (List Waiter)
  remoteOps : List RemoteOp
  nextMsg  : BitVec 32
  hivestat : HiveStat
  debug    : HiveDebug
  /-- Cores marked lendable, core k of cluster c by 16c + k (R270). -/
  lent     : List Nat
  ctxs     : Tbl Ctx
  parts    : Tbl Partition
  tears    : List TearReq
  cores    : Tbl Core
  /-- Physical core behind each logical one, where the spare has replaced it (R32). -/
  phys     : Tbl Nat
  routines : Tbl RSlot
  agents   : Tbl ALine
  dirs     : Tbl Dir
  net      : List Msg
  /-- The rank under R323 of the message that each home took in last. -/
  intake   : List (Nat × Nat)
  /-- What the hives still have to do of their own accord, in order (R40, R267, R317). -/
  lineWork : List LineWork
  /-- The lines that the descriptor caches still have to read for a preload or a step (R317). -/
  reads    : List (Instr × List CohLine)
  faults   : Faults
  recov    : Recovery
  groups   : Tbl Group
  stale    : List Stale
  fence    : Fence
  audit    : Audit
  trace    : Trace
  breaks   : Tbl Break
  life     : Life
  /-- PLALIVE toggles, and its level; PLFAULT (R346). -/
  plaliveOn : Bool
  plalive  : Bool
  /-- When PLALIVE toggles next (R346). -/
  aliveDue : Nat
  plfault  : Bool
deriving DecidableEq, Repr

/-- The machine as the supply is about to become good: every register at its reset value, no
command waiting, the power-up sequence of R420 not begun.
Log 1 (DESIGN CHOICE, safe), 7 (DESIGN CHOICE, unsafe), 10 (DEDUCED, safe). -/
def State.reset : State where
  pending := []
  heldCmds := []
  heldFrom := none
  out := []
  free := 0
  stamp := 0
  power := .off
  usec := 0
  fuses := {}
  trim := {}
  clocks := {}
  charge := {}
  regs := {}
  latches := []
  queues := []
  fetchLast := []
  fabric := []
  nodes := []
  furrows := []
  admits := []
  flying := []
  reports := []
  nextIssue := 0
  slots := []
  oldSlots := []
  oldRetired := []
  stewardQ := []
  objects := []
  waiters := []
  remoteOps := []
  nextMsg := 0
  hivestat := {}
  debug := {}
  lent := []
  ctxs := []
  parts := []
  tears := []
  cores := []
  phys := []
  routines := []
  agents := []
  dirs := []
  net := []
  intake := []
  lineWork := []
  reads := []
  faults := {}
  recov := {}
  groups := []
  stale := []
  fence := {}
  audit := {}
  trace := {}
  breaks := []
  life := {}
  plaliveOn := false
  plalive := false
  aliveDue := 0
  plfault := false

end Sys2Proof.Machine
end

