-- ==== Sys2Proof/Machine/Tables.lean ====
section
/-! DEFINITION. Bit fields of words, and the sparse tables of State: reading an entry, and writing
one so that the canonical form is kept. -/

namespace Sys2Proof.Machine

/-- The field high:low of a word, as a number (R17). -/
def fld {n : Nat} (w : BitVec n) (hi lo : Nat) : Nat := (w.toNat >>> lo) % 2 ^ (hi - lo + 1)

/-- Bit `i` of a word. -/
def bit {n : Nat} (w : BitVec n) (i : Nat) : Bool := fld w i i == 1

/-- The number of a flag's bit. -/
def b2n (b : Bool) : Nat := if b then 1 else 0

/-- The word with the given values at the given low bits, the layout of a field map (R17). -/
def word (fs : List (Nat × Nat)) : Word :=
  BitVec.ofNat 64 (fs.foldl (fun a p => a + p.2 * 2 ^ p.1) 0)

/-- Saturating increment of an n-bit counter. -/
def satInc {n : Nat} (x : BitVec n) : BitVec n := if x.toNat + 1 < 2 ^ n then x + 1 else x

/-- Saturating value of n bits. -/
def satVal (n x : Nat) : BitVec n := BitVec.ofNat n (min x (2 ^ n - 1))

/-- The 32 bits an access of a part covers, as a mask (R451). -/
def partMask : Part → Word
  | .whole => 0xFFFFFFFFFFFFFFFF
  | .low => 0x00000000FFFFFFFF
  | .high => 0xFFFFFFFF00000000
  | .odd => 0

/-- The value RW fields take: the covered half from the access, the other half kept (R452). -/
def merge (p : Part) (old v : Word) : Word := (v &&& partMask p) ||| (old &&& ~~~partMask p)

/-- The value W1C and WO fields see: zero in the half that is not covered (R452). -/
def seen (p : Part) (v : Word) : Word := v &&& partMask p

/-- Reading a table.
Log 10 (DEDUCED, safe). -/
def Tbl.get {α : Type} (d : α) : Tbl α → Nat → α
  | [], _ => d
  | (j, x) :: t, k => if j = k then x else Tbl.get d t k

/-- Removing an entry. -/
def Tbl.del {α : Type} : Tbl α → Nat → Tbl α
  | [], _ => []
  | (j, x) :: t, k => if j = k then t else (j, x) :: Tbl.del t k

/-- Inserting or replacing an entry, numbers rising. -/
def Tbl.ins {α : Type} : Tbl α → Nat → α → Tbl α
  | [], k, y => [(k, y)]
  | (j, x) :: t, k, y =>
    if j = k then (k, y) :: t
    else if k < j then (k, y) :: (j, x) :: t
    else (j, x) :: Tbl.ins t k y

/-- Writing a table: an entry equal to the default is not listed. -/
def Tbl.set {α : Type} [DecidableEq α] (d : α) (t : Tbl α) (k : Nat) (x : α) : Tbl α :=
  if x = d then Tbl.del t k else Tbl.ins t k x

/-- The canonical form: numbers strictly rising from `lo` on, no entry equal to the default. -/
def Tbl.wfFrom {α : Type} [DecidableEq α] (d : α) (lo : Nat) : Tbl α → Bool
  | [] => true
  | (j, x) :: t => decide (lo ≤ j) && decide (x ≠ d) && Tbl.wfFrom d (j + 1) t

/-- The canonical form of a table. -/
def Tbl.wf {α : Type} [DecidableEq α] (d : α) (t : Tbl α) : Bool := Tbl.wfFrom d 0 t

/-- The listed numbers whose entry satisfies a test. -/
def Tbl.keys {α : Type} (t : Tbl α) (p : Nat → α → Bool) : List Nat :=
  (t.filter fun e => p e.1 e.2).map Prod.fst

/-- Changing every listed entry; an entry that becomes the default is dropped. -/
def Tbl.mapAll {α : Type} [DecidableEq α] (d : α) (f : Nat → α → α) (t : Tbl α) : Tbl α :=
  (t.map fun e => (e.1, f e.1 e.2)).filter fun e => decide (e.2 ≠ d)

/-- The lowest number from `lo`, among `n`, that a table does not list. -/
def Tbl.firstFree {α : Type} (t : Tbl α) : Nat → Nat → Option Nat
  | _, 0 => none
  | lo, n + 1 => if t.any (fun e => e.1 == lo) then Tbl.firstFree t (lo + 1) n else some lo

end Sys2Proof.Machine
end

