-- ==== Sys2Proof/Machine/Frames.lean ====
section
/-! DEFINITION. The bytes of a control core's frame (R212): a list of (address, byte) pairs, addresses
rising, no zero byte listed, since a frame is cleared to zero. Words are little-endian (R16). -/

namespace Sys2Proof.Machine

/-- A frame's bytes; an unlisted address reads zero. -/
abbrev Memory := Tbl (BitVec 8)

/-- The canonical form of a frame's bytes. -/
def Memory.wf (m : Memory) : Bool := Tbl.wf (0 : BitVec 8) m

/-- Reading a byte. -/
def Memory.read (m : Memory) (a : Nat) : BitVec 8 := Tbl.get 0 m a

/-- Writing a byte. -/
def Memory.write (m : Memory) (a : Nat) (b : BitVec 8) : Memory := Tbl.set 0 m a b

/-- The number that n bytes from a spell, the lowest address least significant. -/
def Memory.readNat (m : Memory) (a : Nat) : Nat → Nat
  | 0 => 0
  | n + 1 => (Memory.read m a).toNat + 256 * Memory.readNat m (a + 1) n

/-- Writing the low n bytes of a number from a on. -/
def Memory.writeNat (m : Memory) (a v : Nat) : Nat → Memory
  | 0 => m
  | n + 1 => Memory.writeNat (Memory.write m a (BitVec.ofNat 8 v)) (a + 1) (v / 256) n

/-- The 64-bit word at a. -/
def Memory.word (m : Memory) (a : Nat) : Word := BitVec.ofNat 64 (Memory.readNat m a 8)

/-- The 64 B line at a. -/
def Memory.line (m : Memory) (a : Nat) : Line := (List.range 8).map fun i => Memory.word m (a + 8 * i)

/-- n lines from a. -/
def Memory.lines (m : Memory) (a n : Nat) : List Line :=
  (List.range n).map fun i => Memory.line m (a + 64 * i)

/-- Writing words from a on. -/
def Memory.writeWords (m : Memory) (a : Nat) : List Word → Memory
  | [] => m
  | w :: ws => Memory.writeWords (Memory.writeNat m a w.toNat 8) (a + 8) ws

end Sys2Proof.Machine
end

