-- ==== Sys2Proof/Machine/Ops.lean ====
section
/-! DEFINITION. The named operations over State: reading and writing its tables, time and timers,
free values, what Pliat drives, halves and clusters, and the conditions under which it acts. -/

namespace Sys2Proof.Machine

/-- The outcome of every meaning: a next state when the command names units that exist, otherwise
the fault that says it names none.
Log 5 (DESIGN CHOICE, safe). -/
def ok (p : Prop) [Decidable p] (t : State) : Host.Outcome State Fault Refusal :=
  if p then .next t else .fault .noSuchUnit

/-! ## Tables -/

def State.queue (s : State) (q : Nat) : Queue := Tbl.get {} s.queues q
def State.setQueue (s : State) (q : Nat) (x : Queue) : State :=
  { s with queues := Tbl.set {} s.queues q x }
def State.modQueue (s : State) (q : Nat) (f : Queue → Queue) : State := s.setQueue q (f (s.queue q))

def State.node (s : State) (n : Nat) : Option Node := Tbl.get none s.nodes n
def State.setNode (s : State) (n : Nat) (x : Option Node) : State :=
  { s with nodes := Tbl.set none s.nodes n x }
def State.modNode (s : State) (n : Nat) (f : Node → Node) : State :=
  s.setNode n ((s.node n).map f)

def State.furrow (s : State) (f : Nat) : Furrow := Tbl.get {} s.furrows f
def State.setFurrow (s : State) (f : Nat) (x : Furrow) : State :=
  { s with furrows := Tbl.set {} s.furrows f x }
def State.modFurrow (s : State) (f : Nat) (g : Furrow → Furrow) : State :=
  s.setFurrow f (g (s.furrow f))

def State.slot (s : State) (n : Nat) : Slot := Tbl.get {} s.slots n
def State.setSlot (s : State) (n : Nat) (x : Slot) : State :=
  { s with slots := Tbl.set {} s.slots n x }

def State.obj (s : State) (n : Nat) : Obj := Tbl.get {} s.objects n
def State.setObj (s : State) (n : Nat) (x : Obj) : State :=
  { s with objects := Tbl.set {} s.objects n x }

def State.waitersOf (s : State) (n : Nat) : List Waiter := Tbl.get [] s.waiters n
def State.setWaiters (s : State) (n : Nat) (x : List Waiter) : State :=
  { s with waiters := Tbl.set [] s.waiters n x }

def State.ctx (s : State) (c : Nat) : Ctx := Tbl.get {} s.ctxs c
def State.setCtx (s : State) (c : Nat) (x : Ctx) : State :=
  { s with ctxs := Tbl.set {} s.ctxs c x }
def State.modCtx (s : State) (c : Nat) (f : Ctx → Ctx) : State := s.setCtx c (f (s.ctx c))
def State.modAcct (s : State) (c : Nat) (f : Acct → Acct) : State :=
  s.modCtx c fun x => { x with acct := f x.acct }

def State.part (s : State) (p : Nat) : Partition := Tbl.get {} s.parts p
def State.setPart (s : State) (p : Nat) (x : Partition) : State :=
  { s with parts := Tbl.set {} s.parts p x }

def State.core (s : State) (k : Nat) : Core := Tbl.get {} s.cores k
def State.setCore (s : State) (k : Nat) (x : Core) : State :=
  { s with cores := Tbl.set {} s.cores k x }
def State.modCore (s : State) (k : Nat) (f : Core → Core) : State := s.setCore k (f (s.core k))

def Core.frame (c : Core) (fr : Nat) : FrameState := Tbl.get .free c.frames fr
def Core.setFrame (c : Core) (fr : Nat) (x : FrameState) : Core :=
  { c with frames := Tbl.set .free c.frames fr x }

/-- The run in a frame, if one is there. -/
def FrameState.run? : FrameState → Option Run
  | .run r => some r
  | _ => none

def State.runAt (s : State) (k fr : Nat) : Option Run := ((s.core k).frame fr).run?
def State.setRun (s : State) (k fr : Nat) (r : Run) : State :=
  s.modCore k fun c => c.setFrame fr (.run r)

def State.rslot (s : State) (i : Nat) : RSlot := Tbl.get {} s.routines i
def State.setRslot (s : State) (i : Nat) (x : RSlot) : State :=
  { s with routines := Tbl.set {} s.routines i x }

def State.group (s : State) (p : Nat) : Group := Tbl.get {} s.groups p
def State.setGroup (s : State) (p : Nat) (x : Group) : State :=
  { s with groups := Tbl.set {} s.groups p x }

def State.source (s : State) (i : Nat) : Source := Tbl.get {} s.faults.sources i
def State.setSource (s : State) (i : Nat) (x : Source) : State :=
  { s with faults := { s.faults with sources := Tbl.set {} s.faults.sources i x } }

def State.brk (s : State) (u : Nat) : Break := Tbl.get {} s.breaks u
def State.setBrk (s : State) (u : Nat) (x : Break) : State :=
  { s with breaks := Tbl.set {} s.breaks u x }

/-! ## Outputs, stamps, free values -/

/-- Log 4 (DESIGN CHOICE, safe). -/
def State.drive (s : State) (o : Out) : State := { s with out := o :: s.out }
def State.driveAll (s : State) (os : List Out) : State := os.foldl State.drive s

/-- The next order stamp. -/
def State.tickStamp (s : State) : State := { s with stamp := s.stamp + 1 }

/-- The free value of this use, a value the spec leaves open (log 3).
Log 6 (DESIGN CHOICE, safe). -/
def State.freeNow (s : State) : Word := Config.freeWord s.free
/-- Log 6 (DESIGN CHOICE, safe). -/
def State.useFree (s : State) : State := { s with free := s.free + 1 }

/-- Nanoseconds within the local microsecond: open here, since the model's time has a grain of one
microsecond (log 3).
Log 3 (DESIGN CHOICE, unsafe). -/
def State.nsNow (s : State) : Nat := s.freeNow.toNat % 1000

/-! ## Time -/

/-- The local microsecond counter as a number (R20, R457). -/
def State.now (s : State) : Nat := s.usec.toNat

/-- Nanoseconds from local microsecond `t` to now: open within what the count of whole microseconds allows
(log 3).
Log 3 (DESIGN CHOICE, unsafe). -/
def State.nsSince (s : State) (t : Nat) : Nat :=
  let d := s.now - t
  if d = 0 then s.freeNow.toNat % 1000 else (d - 1) * 1000 + 1 + s.freeNow.toNat % 1999

/-- The oscillator is trimmed (R402). -/
def State.trimmed (s : State) : Bool :=
  match s.trim.state with
  | .locked | .holdover => true
  | _ => false

/-- When a timer of R405's table that starts now ends: 1.04 times its length, rounded up, while the
oscillator is not trimmed.
Log 3 (DESIGN CHOICE, unsafe). -/
def State.dueIn (s : State) (us : Nat) : Nat :=
  s.now + (if s.trimmed then us else (us * 104 + 99) / 100)

/-- When a timer ends that starts with the arrival of the access or delivery being performed, which may have been held
(R379, R454). -/
def State.dueArrived (s : State) (us : Nat) : Nat := s.heldFrom.getD s.now + (s.dueIn us - s.now)

/-- One microsecond of a part's life (R441, R442): powered, and in the safe state, idle or running. -/
def Seconds.tick (x : Seconds) (safe : Bool) (idle : Idle) : Seconds :=
  let x := { x with powered := x.powered + 1 }
  if safe then { x with safe := x.safe + 1 }
  else match idle with
    | .none => { x with running := x.running + 1 }
    | .nap => { x with nap := x.nap + 1 }
    | .doze => { x with doze := x.doze + 1 }
    | .deep => { x with deep := x.deep + 1 }

/-- One local microsecond while the always-on domain runs (R20, R441, R457); nothing else changes.
Log 3 (DESIGN CHOICE, unsafe). -/
def State.idleTick (s : State) : State :=
  if s.power = .off then s
  else { s with
    usec := s.usec + 1
    life := { s.life with secs := s.life.secs.tick s.recov.safe s.clocks.idle } }

/-- Wake time of an idle state in µs (R415). -/
def Idle.wakeTime : Idle → Nat
  | .none => 0
  | .nap => 1
  | .doze => 20
  | .deep => 400

/-- A wake begins, which takes the idle state's wake time (R415); a compute reset, or the safe state, that begins in an
idle state includes it (R418).
Log 56 (DEDUCED, unsafe). -/
def Clocks.woken (c : Clocks) (now : Nat) : Clocks :=
  if c.idle = .none || c.waking then c else { c with waking := true, wakeDue := now + c.idle.wakeTime }

/-- A wake event starts Pliat leaving its idle state (R417). -/
def State.wakeUp (s : State) : State := { s with clocks := s.clocks.woken s.now }

/-! ## When Pliat acts -/

/-- The power-up sequence is complete, and Pliat is neither in the safe state nor idle: internal
steps and deliveries happen (R345, R415, R420).
Log 2 (DESIGN CHOICE, safe). -/
def State.up (s : State) : Bool :=
  decide (s.power = .run) && !s.recov.safe && decide (s.clocks.idle = .none)

/-- `up`, and no compute reset is in progress: grants, starts and new work happen (R355 step 1).
Log 2 (DESIGN CHOICE, safe). -/
def State.working (s : State) : Bool := s.up && !s.recov.inprogress

/-- The always-on domain runs (R397, R398). -/
def State.powered (s : State) : Bool := decide (s.power ≠ .off)

/-- A step that happens only while a condition holds changes nothing while it does not (log 2).
Log 2 (DESIGN CHOICE, safe). -/
def State.when (s : State) (b : Bool) (f : State → State) : State := if b then f s else s

/-! ## Halves, clusters, furrows -/

/-- Home half of queue q (R23). -/
def halfOfQueue (q : Nat) : Nat := q / 2048
/-- Home half of object n (R23). -/
def halfOfObj (n : Nat) : Nat := n / 131072
/-- Home half of context c (R275). -/
def halfOfCtx (c : Nat) : Nat := c / 512
/-- Home half of a logical control core (01_block_organisation.md). -/
def halfOfCore (k : Nat) : Nat := k / 12

def State.inService (s : State) (h : Nat) : Bool :=
  if h = 0 then s.charge.inService0 else s.charge.inService1

/-- The half that holds charge (R28). -/
def State.holder (s : State) : Nat := b2n s.charge.holder

def State.belief (s : State) (h : Nat) : Bool := if h = 0 then s.charge.belief0 else s.charge.belief1
/-- Log 48 (DESIGN CHOICE, unsafe). -/
def State.barred (s : State) (h : Nat) : Bool := if h = 0 then s.charge.barred0 else s.charge.barred1

/-- A half may hold charge: it is in service and has not yielded (R365). -/
def State.chargeable (s : State) (h : Nat) : Bool := s.inService h && !s.barred h

/-- Chip-wide functions are performed: the half that holds charge may hold it and believes that it does (R29,
R365).
Log 48 (DESIGN CHOICE, unsafe). -/
def State.holderActs (s : State) : Bool := s.chargeable s.holder && s.belief s.holder

/-- The queue's state as QSTATUS reads it: OFFLINE when its home half is lost (R27). -/
def State.qstate (s : State) (q : Nat) : QState :=
  if s.inService (halfOfQueue q) then (s.queue q).state else .offline

def State.clusters (s : State) : Nat := if s.fuses.t6 then 6 else 12
def State.linkPorts (s : State) : Nat := if s.fuses.t6 then 12 else 24

/-- The furrow is present in the configuration (R14, R15). -/
def State.furrowPresent (s : State) (f : Nat) : Bool :=
  if f < 576 then decide (f / 48 < s.clusters) else decide (f - 576 < s.linkPorts)

/-- Every enabled cluster as a set. -/
def State.allClusters (s : State) : BitVec 12 := if s.fuses.t6 then 0x03F else 0xFFF

/-- Contexts 0 and 512 are the system contexts (R276).
Log 58 (DEDUCED, safe). -/
def isSystem (c : Nat) : Bool := c == 0 || c == 512

/-- The cores of some clusters that the part has. -/
def State.coresOf (s : State) (m : BitVec 12) : List Nat :=
  (List.range (16 * s.clusters)).filter fun i => bit m (i / 16)

/-- The clusters of a context (R276, R287). -/
def State.clustersOf (s : State) (c : Nat) : BitVec 12 :=
  if isSystem c then s.allClusters else (s.part (s.ctx c).part).clusters

/-- A CHIP field names this chip for a context: 0x3FFF, or CHIPNUM of its partition's group (R373).
Log 37 (DEDUCED, unsafe). -/
def State.chipLocal (s : State) (c : Nat) (chip : BitVec 14) : Bool :=
  chip == 0x3FFF || (!isSystem c && chip == (s.group (s.ctx c).part).num)

/-! ## Stamps (R290, R357) -/

/-- The stamp of what Pliat sends on behalf of context c in a generation. -/
def State.stampOf (s : State) (c : Nat) (gen : BitVec 12) : Stamp :=
  { ctx := some (c, gen), chipgen := s.recov.chipgen }

/-- The stamp of what it sends on behalf of no context. -/
def State.chipStamp (s : State) : Stamp := { ctx := none, chipgen := s.recov.chipgen }

/-- A reply or report carries the current generations; any other is dropped. -/
def State.fresh (s : State) (st : Stamp) : Bool :=
  st.chipgen == s.recov.chipgen &&
  match st.ctx with
  | some x => (s.ctx x.1).gen == x.2
  | none => true

/-- Which half serves a furrow (R22, R25). -/
def State.server (s : State) (f : Nat) : Nat :=
  if s.inService 0 && s.inService 1 then
    if f < 576 then f / 48 / (s.clusters / 2) else (f - 576) / (s.linkPorts / 2)
  else if s.inService 0 then 0 else 1

/-- Engine kinds of a furrow: 0 ME, 1 VE, 2 DM, 3 link (R14, R83). -/
def kindOfFurrow (f : Nat) : Nat := if f < 576 then f % 3 else 3

/-- A queue exists (R66, R113, R413). -/
def State.queueExists (s : State) (p : Nat → Queue → Bool) : Bool :=
  s.queues.any fun e => decide (e.2.state ≠ .free) && p e.1 e.2

/-- The only queues that exist are the bootstrap queues 0 and 2,048 (R113, R348). -/
def State.onlyBoot (s : State) : Bool := !s.queueExists fun q _ => q != 0 && q != 2048

/-- Contexts of partition p that are not FREE (R288). System contexts belong to none (R276).
Log 58 (DEDUCED, safe). -/
def State.partCtxs (s : State) (p : Nat) : List Nat :=
  s.ctxs.keys fun c x => decide (x.state ≠ .free) && !isSystem c && x.part == p

/-- The node slots whose sheaf satisfies a test, in slot order.
Log 60 (DESIGN CHOICE, safe). -/
def State.nodesWhere (s : State) (p : Nat → Node → Bool) : List Nat :=
  s.nodes.keys fun n x => match x with
    | some d => p n d
    | none => false

/-- Applying a change once for each listed number.
Log 60 (DESIGN CHOICE, safe). -/
def State.forAll (s : State) (ns : List Nat) (f : State → Nat → State) : State := ns.foldl f s

/-! ## Absorbed writes -/

/-- Counting an absorbed doorbell-page write in the counter of half h (R459, saturating). -/
def State.absorbIn (s : State) (h : Nat) : State :=
  if h = 0 then { s with regs := { s.regs with absorbed0 := satInc s.regs.absorbed0 } }
  else { s with regs := { s.regs with absorbed1 := satInc s.regs.absorbed1 } }

/-- The counter of the queue's home half; the surviving half's for a lost half (R27, R459). -/
def State.absorb (s : State) (q : Nat) : State :=
  let h := halfOfQueue q
  s.absorbIn (if s.inService h then h else 1 - h)

end Sys2Proof.Machine
end

