-- ==== Sys2Proof/Machine/Format.lean ====
section
/-! DEFINITION. The bit layout of sheaves (R80-R100): header fields, flags, target, edges, body
lines and the fields of argument lines; opcodes (R95) and status codes (R106). -/

namespace Sys2Proof.Machine

/-! ## Status codes (R106) -/

def stDone : BitVec 8 := 0x00
def stAbortedRerun : BitVec 8 := 0x01
def stAborted : BitVec 8 := 0x02
def stFormat : BitVec 8 := 0x10
def stPriv : BitVec 8 := 0x11
def stWindow : BitVec 8 := 0x12
def stTimeout : BitVec 8 := 0x13
def stWaitCycle : BitVec 8 := 0x14
def stPeerLost : BitVec 8 := 0x15
def stMisuse : BitVec 8 := 0x16
def stTenantBlock : BitVec 8 := 0x17
def stSaturatedRerun : BitVec 8 := 0x18
def stEcc : BitVec 8 := 0x19
def stWithdrawn : BitVec 8 := 0x1A
def stFallbackTaken : BitVec 8 := 0x1B

/-- FURROW of a record that names none (R68). -/
def noFurrow : BitVec 10 := 0x3FF

/-! ## Opcodes (R95) -/

def opNop : Nat := 0x00
def opConfig : Nat := 0x01
def opStart : Nat := 0x02
def opCfgstart : Nat := 0x03
def opCall : Nat := 0x08
def opWait : Nat := 0x10
def opSignal : Nat := 0x11
def opStile : Nat := 0x12
def opFanout : Nat := 0x18
def opMasked : Nat := 0x19
def opBranch : Nat := 0x1A
def opCombine : Nat := 0x1B
def opMeasure : Nat := 0x1C
def opFence : Nat := 0x20
def opQctl : Nat := 0x80
def opCtxctl : Nat := 0x81
def opLoadroutine : Nat := 0x82
def opTally : Nat := 0x83
def opPartctl : Nat := 0x84
def opFaultctl : Nat := 0x85

/-- The opcodes of R95's table. -/
def opDefined (o : Nat) : Bool :=
  [0x00, 0x01, 0x02, 0x03, 0x08, 0x10, 0x11, 0x12, 0x18, 0x19, 0x1A, 0x1B, 0x1C, 0x20,
    0x80, 0x81, 0x82, 0x83, 0x84, 0x85].contains o

/-- Engine opcodes (R90). -/
def opEngine (o : Nat) : Bool := [0x02, 0x03, 0x18, 0x19, 0x1B, 0x1C].contains o
/-- Kernel opcodes (R90). -/
def opKernel (o : Nat) : Bool := decide (0x80 ≤ o) && decide (o ≤ 0x85)
/-- Templates (R179). -/
def opTemplate (o : Nat) : Bool := o == opFanout || o == opMasked

/-! ## Header line (R82) -/

/-- Word i of a line. -/
def wd (l : Line) (i : Nat) : Word := l.getD i 0

/-- Line i of a sheaf. -/
def lineOf (ls : List Line) (i : Nat) : Line := ls.getD i []

/-- Word i of the header line. -/
def hw (ls : List Line) (i : Nat) : Word := wd (lineOf ls 0) i

def hTag (ls : List Line) : BitVec 32 := BitVec.ofNat 32 (fld (hw ls 0) 63 32)
def hEdgecnt (ls : List Line) : Nat := fld (hw ls 0) 23 17
def hLen (ls : List Line) : Nat := fld (hw ls 0) 16 12
def hOp (ls : List Line) : Nat := fld (hw ls 0) 11 4
def hFmt (ls : List Line) : Nat := fld (hw ls 0) 3 0
def hSigtok (ls : List Line) : BitVec 16 := BitVec.ofNat 16 (fld (hw ls 1) 63 48)
def hWaittok (ls : List Line) : BitVec 16 := BitVec.ofNat 16 (fld (hw ls 1) 47 32)
def hTarget (ls : List Line) : Nat := fld (hw ls 1) 15 0
def hGradslot (ls : List Line) : Nat := fld (hw ls 2) 63 48
def hAccw (ls : List Line) : Nat := fld (hw ls 2) 41 40
def hSeedexp (ls : List Line) : BitVec 8 := BitVec.ofNat 8 (fld (hw ls 2) 39 32)
def hScaleslot (ls : List Line) : Nat := fld (hw ls 2) 31 16
def hRepeat (ls : List Line) : Nat := fld (hw ls 2) 15 0
def hCyc (ls : List Line) : Nat := fld (hw ls 3) 63 32
def hCost (ls : List Line) : Nat := fld (hw ls 3) 31 0
def hPredval (ls : List Line) : Word := BitVec.ofNat 64 (fld (hw ls 4) 63 32)
def hPredcmp (ls : List Line) : Nat := fld (hw ls 4) 20 18
def hPredobj (ls : List Line) : Nat := fld (hw ls 4) 17 0

/-! Flags (R84). -/
def fNoscale (ls : List Line) : Bool := bit (hw ls 1) 20
def fSkipok (ls : List Line) : Bool := bit (hw ls 1) 19
def fCommitwait (ls : List Line) : Bool := bit (hw ls 1) 18
def fPred (ls : List Line) : Bool := bit (hw ls 1) 17
def fChain (ls : List Line) : Bool := bit (hw ls 1) 16

/-! Target (R83). -/
def tAny (ls : List Line) : Bool := hTarget ls / 2 ^ 15 == 1
def tKind (ls : List Line) : Nat := hTarget ls / 2 ^ 12 % 8
def tUnit (ls : List Line) : Nat := hTarget ls % 2 ^ 10

/-- Edge extension lines (R80). -/
def eLines (ls : List Line) : Nat := if hEdgecnt ls ≤ 6 then 0 else (hEdgecnt ls - 6 + 15) / 16

/-- Body lines: those after the header and the edge extension lines (R80). -/
def bodyOf (ls : List Line) : List Line := ls.drop (1 + eLines ls)

/-- The ARG line, the first body line of the opcodes that have one (R95). -/
def argOf (ls : List Line) : Line := (bodyOf ls).headD []

/-- Word i of the ARG line. -/
def aw (ls : List Line) (i : Nat) : Word := wd (argOf ls) i

def ltype (l : Line) : Nat := fld (wd l 0) 7 0
def aSub (ls : List Line) : Nat := fld (aw ls 0) 15 8

/-- Edge entry number i (R86, R87): its line, and the position of its lowest bit in the line. -/
def edgePos (i : Nat) : Nat × Nat :=
  if i < 6 then (0, 64 * (5 + i / 2) + 32 * (i % 2))
  else (1 + (i - 6) / 16, 64 * ((i - 6) % 16 / 2) + 32 * (i % 2))

/-- Edge entry number i: 32 bits, QUEUE over SEQLO (R86). -/
def edgeEntry (ls : List Line) (i : Nat) : Nat :=
  let p := edgePos i
  (wd (lineOf ls p.1) (p.2 / 64)).toNat / 2 ^ (p.2 % 64) % 2 ^ 32

def edgeQueue (e : Nat) : Nat := e / 2 ^ 20
def edgeSeqlo (e : Nat) : Nat := e % 2 ^ 20

/-- The sequence number congruent to SEQLO in [n - 2^19, n + 2^19), if it is not negative (R86). -/
def extendSeq (seqlo n : Nat) : Option Nat :=
  let base : Int := (n : Int) - 2 ^ 19
  let s : Int := base + ((seqlo : Int) - base) % 2 ^ 20
  if s < 0 then none else some s.toNat

/-- The comparison codes of R85, the object's value on the left. -/
def compareCode (code : Nat) (v operand : Word) : Bool :=
  match code with
  | 0 => v == operand
  | 1 => v != operand
  | 2 => decide (v.toNat < operand.toNat)
  | 3 => decide (operand.toNat ≤ v.toNat)
  | 4 => decide (operand.toNat < v.toNat)
  | 5 => decide (v.toNat ≤ operand.toNat)
  | _ => false

/-- The REGLOAD lines among the body lines (R91, R92). -/
def regloads (ls : List Line) : List Line := (bodyOf ls).filter fun l => ltype l == 1

/-- The register loads of a REGLOAD line (R92). -/
def loadsOf (l : Line) : List (Nat × Word) :=
  (List.range (fld (wd l 0) 15 8)).map fun i => (fld (wd l 0) 31 16 + i, wd l (i + 1))

/-- OBJREF fields (R100). -/
def refChip (r : Nat) : BitVec 14 := BitVec.ofNat 14 (r / 2 ^ 18)
def refObj (r : Nat) : Nat := r % 2 ^ 18

/-- OBJREF of WAIT, SIGNAL and STILE (R100). -/
def aObjref (ls : List Line) : Nat := fld (aw ls 0) 47 16

/-- The windows a WINDOW line sets (R94): number and window. -/
def windowsOf (l : Line) : List (Nat × Window) :=
  (List.range (fld (wd l 0) 13 12)).map fun i =>
    let b := wd l (2 * i + 1)
    (fld (wd l 0) 11 8 + i,
      { valid := bit b 0, write := bit b 1, space := BitVec.ofNat 2 (fld b 3 2)
        base := BitVec.ofNat 52 (fld b 63 12)
        limit := BitVec.ofNat 52 (fld (wd l (2 * i + 2)) 63 12) })

/-- DETAIL of FORMAT: line index and bit position (R73). -/
def formatDetail (line pos : Nat) : BitVec 32 := BitVec.ofNat 32 (line * 2 ^ 24 + pos * 2 ^ 15)

/-- DETAIL of a refusal that names a field of the ARG line: bit b of word w (R103, R464). -/
def argDetail (ls : List Line) (w b : Nat) : BitVec 32 :=
  formatDetail (1 + eLines ls) (64 * w + b)

/-- DETAIL with an object number in bits 31:14 (R73, R85, R254, R263). -/
def objDetail (obj low : Nat) : BitVec 32 := BitVec.ofNat 32 (obj % 2 ^ 18 * 2 ^ 14 + low)

end Sys2Proof.Machine
end

