-- ==== Sys2Proof/Machine/Image.lean ====
section
/-! DEFINITION. The register image of an engine sheaf (R147-R152, R176, R185-R187, R203-R204), the
device address map and the windows of a context (R279, R280). -/

namespace Sys2Proof.Machine

/-! ## Address map (R279) -/

/-- Last address of a space in the present configuration, and its first. -/
def State.spaceRange (s : State) (sp : Nat) : Nat × Nat :=
  let t6 := s.fuses.t6
  match sp with
  | 0 => (0, if t6 then 0x000000EFFFFFFFFF else 0x000001DFFFFFFFFF)
  | 1 => (0x0000800000000000, if t6 then 0x0000800002FFFFFF else 0x0000800005FFFFFF)
  | _ => (0x0000810000000000, if t6 then 0x000081003BFFFFFF else 0x0000810077FFFFFF)

/-- The space that holds an address, if one does. -/
def State.spaceOf (s : State) (a : Nat) : Option Nat :=
  (List.range 3).find? fun sp =>
    decide ((s.spaceRange sp).1 ≤ a) && decide (a ≤ (s.spaceRange sp).2)

/-- An access of n bytes from a lies inside a window (R280). -/
def State.insideWindow (s : State) (w : Window) (a n : Nat) (write : Bool) : Bool :=
  w.valid && decide (s.spaceOf a = some w.space.toNat) && decide (w.base.toNat ≤ a / 4096) &&
  decide ((a + n - 1) / 4096 ≤ w.limit.toNat) && (!write || w.write)

/-- An access of n bytes from a lies inside one window of context c. -/
def State.insideCtx (s : State) (c a n : Nat) (write : Bool) : Bool :=
  (s.ctx c).windows.any fun e => s.insideWindow e.2 a n write

/-- An area lies in device memory (R279). -/
def State.inDevice (s : State) (a n : Nat) : Bool :=
  match s.spaceOf a with
  | some sp => decide (a + n - 1 ≤ (s.spaceRange sp).2)
  | none => false

/-! ## Loads -/

def rOutaddr : Nat := 0x3F0
def rGradstride : Nat := 0x3F1
def rOpmode : Nat := 0x3F2
def rSpmeta : Nat := 0x3F3
def rSpindex : Nat := 0x3F4
def rSpctl : Nat := 0x3F5
def rMember : Nat := 0x3F6
def rOutexp : Nat := 0x3F8
/-- Log 32 (DEDUCED, unsafe). -/
def rAccctl : Nat := 0x3F9
def rSlotctl : Nat := 0x3FA
def rTokdest : Nat := 0x3FE

/-- Reset value of an engine register (R123, R147). -/
def regReset (r : Nat) : Word := if r = rTokdest then 0x00000000FFFC03FF else 0

/-- Reserved registers, whose loads are discarded (R148, R203). -/
def regReserved (r : Nat) : Bool := [0x3F7, 0x3FB, 0x3FC, 0x3FD, 0x3FF].contains r

/-- The loads of a sheaf, in line order: its own REGLOAD lines, or for a START the recorded
configuration it copied (R96). -/
def Node.loads (d : Node) : List (Nat × Word) :=
  ((if hOp d.lines = opStart then d.cfg else regloads d.lines).flatMap loadsOf).filter
    fun l => !regReserved l.1

/-- A register of an image. -/
def regOf (img : Tbl Word) (r : Nat) : Word := Tbl.get (regReset r) img r

/-- Steps 1 and 2 of R147: reset values, then the loads in order. -/
def Node.loaded (d : Node) : Tbl Word := d.loads.foldl (fun t l => Tbl.ins t l.1 l.2) []

/-- The engine kind the sheaf runs on. -/
def Node.kind (d : Node) : Nat := tKind d.lines

/-- The steward touches the sheaf: an ME or VE engine sheaf of FMT 1 without NOSCALE (R107, R159). -/
def Node.stewarded (d : Node) : Bool :=
  opEngine (hOp d.lines) && decide (d.kind ≤ 1) && !fNoscale d.lines && decide (d.fmt ≠ 0)

/-- Step 3: GRADSLOT adjusts OUTADDR (R176). -/
def Node.graded (d : Node) : Tbl Word :=
  let img := d.loaded
  let g := hGradslot d.lines
  if d.stewarded ∧ g ≠ 0 then
    Tbl.ins img rOutaddr (regOf img rOutaddr + BitVec.ofNat 64 (g - 1) * regOf img rGradstride)
  else img

/-! ## Members -/

/-- A patch may name 0x000-0x3EF, OUTADDR, SPMETA and SPINDEX; any other is discarded (R187). -/
def patchable (r : Nat) : Bool :=
  decide (r ≤ 0x3EF) || r == rOutaddr || r == rSpmeta || r == rSpindex

def patchSet (img : Tbl Word) (r : Nat) (v : Word) : Tbl Word :=
  if patchable r then Tbl.ins img r v else img
def patchAdd (img : Tbl Word) (r : Nat) (v : Word) : Tbl Word :=
  if patchable r then Tbl.ins img r (regOf img r + v) else img

/-- MEMBER.KIND of a template (R204). -/
def memberKind (o : Nat) : Nat := if o = opFanout then 1 else 2

/-- Step 4 for a member (R185): id and its two arguments, COUNT and START or row and column. -/
def Node.patched (d : Node) (m : Member) (img : Tbl Word) : Tbl Word :=
  if hOp d.lines = opFanout then
    let img := patchSet img (fld (aw d.lines 0) 47 32) m.arg0
    (List.range 4).foldl (fun img i =>
      let r := fld (aw d.lines 2) (16 * i + 15) (16 * i)
      let st := aw d.lines (3 + i)
      if r = 0xFFFF then img
      else
        let mult := if bit st 63 then BitVec.ofNat 64 m.id else m.arg1
        patchAdd img r (mult * BitVec.ofNat 64 (fld st 62 0))) img
  else
    patchSet (patchSet img (fld (aw d.lines 0) 47 32) m.arg0) (fld (aw d.lines 0) 63 48) m.arg1

def Node.member (d : Node) (k : Nat) : Option Member := d.members.find? fun m => m.ordinal == k

/-- Member k holds its patch line: from its creation until it ends (R188). -/
def Node.patchLive (d : Node) (k : Nat) : Bool :=
  d.members.any fun m => m.ordinal == k && decide (m.st ≠ .committed) && decide (m.st ≠ .ended)

/-- Descriptor-cache lines of a sheaf: its own, and its members' patch lines (R188). -/
def Node.lineCount (d : Node) : Nat :=
  d.lines.length + (d.members.filter fun m => d.patchLive m.ordinal).length

/-- The image of a run of the sheaf: of member k, or of the sheaf itself; in measure mode OUTEXP is
left unpatched (R165). `acc32` says that a saturation has forced 32-bit mode (R170).
Log 32 (DEDUCED, unsafe). -/
def Node.image (d : Node) (member : Option Nat) (measure acc32 : Bool) : Tbl Word :=
  let img := d.graded
  let img := match member.bind d.member with
    | some m => Tbl.ins (d.patched m img) rMember
        (word [(32, memberKind (hOp d.lines)), (16, m.ordinal), (0, m.id)])
    | none => Tbl.ins img rMember 0
  let img := if d.kind = 0 then
      Tbl.ins img rAccctl (if hAccw d.lines = 1 ∧ acc32 = false then 1 else 0)
    else img
  if d.stewarded ∧ measure = false ∧ hOp d.lines ≠ opMeasure then
    match d.outexp with
    | some e => Tbl.ins img rOutexp (BitVec.setWidth 64 e)
    | none => img
  else img

/-- The registers the engine is given: those that differ from their reset values, without the two
that Pliat consumes (R148). -/
def imageOut (img : Tbl Word) : List (Nat × Word) :=
  img.filter fun e => decide (e.2 ≠ regReset e.1) && !(e.1 == rGradstride) && !(e.1 == rSlotctl)

/-- OUTFMT of a sheaf: 2 ACC32, 1 int4, otherwise int8 (R149). -/
def Node.outfmt (d : Node) : Nat :=
  let f := fld (regOf d.loaded rOpmode) 5 4
  if f = 3 then 0 else f

/-- OUTEXP as a DONE or SATURATED_RERUN record shows it (R178): the loaded value with NOSCALE, and 0x80 for a
sheaf that has not run.
Log 22 (DEDUCED, unsafe). -/
def Node.shownExp (d : Node) : BitVec 8 :=
  if hOp d.lines = opMeasure ∨ d.started = false then 0x80
  else if d.stewarded then d.outexp.getD 0x80
  else BitVec.ofNat 8 (fld (regOf d.loaded rOutexp) 7 0)

/-- The metadata check of an ME image (R205): `none` if it holds, or the register that names the
area outside every window of the context.
Log 59 (DEDUCED, unsafe). -/
def State.metaCheck (s : State) (c : Nat) (img : Tbl Word) : Option Nat :=
  let ctl := regOf img rSpctl
  let f := fld ctl 2 0
  let len := fun (n : Nat) => if n = 0 then 64 else 64 * n
  if f = 0 ∨ 3 < f then none
  else if !s.insideCtx c (regOf img rSpmeta).toNat (len (fld ctl 39 16)) false then some rSpmeta
  else if f = 3 ∧ s.insideCtx c (regOf img rSpindex).toNat (len (fld ctl 63 40)) false = false then
    some rSpindex
  else none

/-- DETAIL of a WINDOW raised by one of Pliat's checks (R206).
Log 59 (DEDUCED, unsafe). -/
def windowDetail (hi : Nat) (ordinal : Option Nat) : BitVec 32 :=
  BitVec.ofNat 32 (hi * 2 ^ 20 + (ordinal.getD 0xFFFF) % 2 ^ 16)

/-- DETAIL of WITHDRAWN (R292).
Log 39 (DEDUCED, unsafe). -/
def withdrawDetail (why cause : Nat) : BitVec 32 := BitVec.ofNat 32 (why * 2 ^ 8 + cause)

/-- DETAIL of a DONE record (R178).
Log 22 (DEDUCED, unsafe). -/
def Node.doneDetail (d : Node) : BitVec 32 :=
  if opEngine (hOp d.lines) && decide (d.kind ≤ 1) then
    let m : Nat := match d.fold.any, d.fold.maxexp with
      | true, some v => (v % 256).toNat
      | _, _ => 0x80
    BitVec.ofNat 32 (d.shownExp.toNat * 2 ^ 24 + m * 2 ^ 16 + min d.fold.clipped 0xFFFF)
  else 0

end Sys2Proof.Machine
end

