-- ==== Sys2Proof/Machine/Contracts.lean ====
section
/-! DEFINITION. The contracts of the shipped routines (R244): what a CALL of slots 0 to 10 checks, and what it then
issues, binds, pushes, adds and marks, act by act. The library ROM's words are not the manual's; an instruction of
theirs acts only where the contract allows the act (log 12). -/

namespace Sys2Proof.Machine

/-! ## Arguments -/

/-- ARGC of a shipped routine.
Log 12 (DESIGN CHOICE, safe). -/
def shippedArgc (slot : Nat) : Nat := [0, 5, 5, 6, 6, 5, 3, 6, 4, 2, 1].getD slot 0

/-- The ranges that a shipped routine's contract gives its arguments.
Log 12 (DESIGN CHOICE, safe). -/
def shippedArgs (slot : Nat) (a : Nat → Word) : Bool :=
  match slot with
  | 1 | 2 => decide (1 ≤ (a 2).toNat) && decide ((a 2).toNat ≤ 2 ^ 32 - 1)
  | 3 => (a 4).toNat % 64 == 0 && decide (1 ≤ fld (a 5) 15 0)
  | 5 => decide (2 ≤ fld (a 1) 4 0) && decide (fld (a 1) 4 0 ≤ 16) && (a 3).toNat % 32 == 0
  | 6 => decide (17 ≤ (a 1).toNat) && decide ((a 1).toNat ≤ 4096)
  | 7 => (a 3).toNat % 64 == 0 && (a 4).toNat % 64 == 0 && decide (64 ≤ (a 4).toNat) &&
      decide ((a 5).toNat ≤ 0x3EF)
  | 8 => decide ((a 1).toNat ≤ 16) && decide (1 ≤ (a 2).toNat)
  | 9 => decide (100 ≤ (a 0).toNat) && decide ((a 0).toNat ≤ 100000)
  | _ => true

/-- Argument i of a CALL. -/
def Node.arg (d : Node) (i : Nat) : Word := aw d.lines (i + 1)

/-- What the checks of a shipped routine find: 0, or the code of the SYS TRAP that it raises. -/
def Node.argCode (d : Node) (slot : Nat) : Nat :=
  if fld (aw d.lines 0) 18 16 ≠ shippedArgc slot then 1 else if shippedArgs slot d.arg then 0 else 2

/-! ## Acts -/

/-- What an instruction does beyond its run's frame, registers and handles. -/
inductive Act where
  /-- An issue of an image, by EMIT or REEMIT, behind an issue. -/
  | emit (lines : List Line) (pred : Option Nat)
  | bind (port : Nat)
  | push (v : Word)
  | send
  /-- HADD of a value to an OBJREF. -/
  | add (ref : Nat) (v : Word)
  | beat
  | mark (v : Nat)
  /-- An act that no contract has. -/
  | other
deriving DecidableEq, Repr

/-- A general register; g0 reads zero (R209). -/
def Run.reg (r : Run) (i : Nat) : Word := if i = 0 then 0 else Tbl.get 0 r.regs i

/-- A live handle. -/
def Run.handle (r : Run) (h : Nat) : Option Handle := r.handles.find? fun x => x.num == h

/-- The act of an instruction word. -/
def Run.actOf (r : Run) (w : BitVec 32) : Option Act :=
  let fn := fld w 10 0
  let ra := r.reg (fld w 20 16)
  let rb := r.reg (fld w 15 11)
  let pred := (r.handle rb.toNat).map (·.issue)
  match fld w 31 26 with
  | 0x0F => if fn % 32 = 1 then some .other else none
  | 0x11 => match fn with
    | 0 => some (.bind ra.toNat)
    | 1 => some (.push rb)
    | 2 => some .send
    | _ => none
  | 0x12 => match fn with
    | 0 => some (.emit (Memory.lines r.mem ra.toNat (fld (wd (Memory.line r.mem ra.toNat) 0) 16 12 + 1)) pred)
    | 1 => (r.handle ra.toNat).map fun h => .emit h.lines pred
    | _ => none
  | 0x13 =>
    if fn = 0 then some (.add (fld ra 31 0) rb)
    else if 8 ≤ fn ∧ fn < 16 then none else some .other
  | 0x3F => match fn with
    | 3 => some .beat
    | 7 => some (.mark (fld ra 31 0))
    | _ => none
  | _ => none

/-- EXIT. -/
def isExit (w : BitVec 32) : Bool := fld w 31 26 == 0x3F && fld w 10 0 == 0

/-! ## What MFILL has read -/

/-- The 32-bit word at an address. -/
def Track.word32 (t : Track) (a : Nat) : Option Nat :=
  (Tbl.get none t.known (a / 64)).map fun l => (wd l (a % 64 / 8)).toNat / 2 ^ (8 * (a % 8)) % 2 ^ 32

/-- n lines from an address. -/
def Track.lines (t : Track) (a : Nat) : Nat → Option (List Line)
  | 0 => some []
  | n + 1 => match Tbl.get none t.known (a / 64), t.lines (a + 64) n with
    | some l, some ls => some (l :: ls)
    | _, _ => none

/-- The sheaf image at an address. -/
def Track.image (t : Track) (a : Nat) : Option (List Line) :=
  (Tbl.get none t.known (a / 64)).bind fun l => t.lines a (fld (wd l 0) 16 12 + 1)

/-- Image i of consecutive images from an address. -/
def Track.imageNo (t : Track) (a : Nat) : Nat → Option (List Line)
  | 0 => t.image a
  | i + 1 => (t.image a).bind fun ls => t.imageNo (a + 64 * ls.length) i

/-- What MFILL of a shipped routine has brought. -/
def Track.learn (t : Track) (a : Nat) (ls : List Line) : Track :=
  { t with known := (List.range ls.length).foldl (fun k i => Tbl.ins k (a / 64 + i) (ls[i]?)) t.known }

/-! ## Register loads of an image -/

/-- The registers that an image loads. -/
def imageRegs (ls : List Line) : Tbl Word := ((regloads ls).flatMap loadsOf).foldl (fun t l => Tbl.ins t l.1 l.2) []

/-- The image loads registers as a template does but for those given, which take the values given. -/
def loadsAs (ls template : List Line) (set : List (Nat × Word)) : Bool :=
  let want := set.foldl (fun t l => Tbl.ins t l.1 l.2) (imageRegs template)
  let has := imageRegs ls
  (has.map Prod.fst ++ want.map Prod.fst).all fun r => Tbl.get none (has.map fun e => (e.1, some e.2)) r ==
    Tbl.get none (want.map fun e => (e.1, some e.2)) r

/-- A header word with one field changed. -/
def setFld (w : Word) (hi lo v : Nat) : Word :=
  BitVec.ofNat 64 (w.toNat - fld w hi lo * 2 ^ lo + v % 2 ^ (hi - lo + 1) * 2 ^ lo)

/-! ## The contracts, act by act -/

/-- GATHER, SCATTER, PAGED_GATHER and CSR_WALK: the next push, or the end marker. -/
def Track.nextPush (t : Track) (slot : Nat) (a : Nat → Word) : Option (Option Word) :=
  let k := t.n - 2
  let at32 := fun (base : Word) (i : Nat) => t.word32 (base.toNat + 4 * i)
  match slot with
  | 1 | 2 =>
    if k < (a 2).toNat then (at32 (a 1) k).map fun i => some (a 3 + BitVec.ofNat 64 i * a 4) else some none
  | 3 =>
    let b := fld (a 5) 15 0
    if k < (a 2).toNat then (at32 (a 1) (k / b)).map fun x =>
      some (a 3 + BitVec.ofNat 64 x * a 4 + BitVec.ofNat 64 (k % b) * BitVec.ofNat 64 (fld (a 5) 47 16))
    else some none
  | _ =>
    if t.row < (a 3).toNat then match at32 (a 1) t.row, at32 (a 1) (t.row + 1) with
      | some x, some y =>
        if t.entry = 0 then some (some (0x8000000000000000 ||| BitVec.ofNat 64 (y - x)))
        else (at32 (a 2) (x + t.entry - 1)).map fun c => some (a 4 + BitVec.ofNat 64 c * a 5)
      | _, _ => none
    else some none

/-- CSR_WALK: the row and entry of the push after. -/
def Track.advanceRow (t : Track) (a : Nat → Word) : Track :=
  match t.word32 ((a 1).toNat + 4 * t.row), t.word32 ((a 1).toNat + 4 * (t.row + 1)) with
  | some x, some y =>
    if y - x ≤ t.entry then { t with row := t.row + 1, entry := 0 } else { t with entry := t.entry + 1 }
  | _, _ => t

/-- Slots 1 to 4: the template is issued once and a port bound to it, port 0 for GATHER and SCATTER; then the pushes
come in order, and SEND. -/
def Track.streams (t : Track) (slot : Nat) (a : Nat → Word) (x : Act) : Option Track :=
  if t.ended then none
  else match t.n, x with
    | 0, .emit ls _ => if t.image (a 0).toNat = some ls then some { t with n := 1 } else none
    | 1, .bind p => if p = 0 ∨ 3 ≤ slot then some { t with n := 2 } else none
    | n + 2, .push v =>
      if t.nextPush slot a = some (some v) then
        let u := if slot = 4 then t.advanceRow a else t
        some { u with n := n + 3 }
      else none
    | _ + 2, .send => if t.nextPush slot a = some none then some { t with ended := true } else none
    | _, _ => none

/-- SPLIT_MATMUL: the image of slice p, with its appended REGLOAD. -/
def sliceFits (me combine ls : List Line) (a : Nat → Word) (p : Nat) : Bool :=
  let n := fld (a 1) 4 0
  let k := (a 3).toNat
  let kp := 32 * ((k + 32 * n - 1) / (32 * n))
  let len := if p + 1 = n then k - (n - 1) * kp else kp
  let areg := fld (a 2) 31 16
  let breg := fld (a 2) 47 32
  let steps := BitVec.ofNat 64 (p * kp / 32)
  let regs := imageRegs me
  let out := regOf regs rOutaddr
  let header := ((lineOf me 0).set 0 (setFld (hw me 0) 16 12 (me.length))).set 1
    (setFld (hw me 1) 9 0 (fld (a 1) 25 16 + 3 * p))
  ls.length == me.length + 1 && lineOf ls 0 == header && (ls.drop 1).take (me.length - 1) == me.drop 1 &&
  ltype (lineOf ls me.length) == 1 &&
  loadsAs ls me [(fld (a 2) 15 0, BitVec.ofNat 64 len),
    (areg, regOf regs areg + steps * BitVec.ofNat 64 (fld (a 4) 31 0)),
    (breg, regOf regs breg + steps * BitVec.ofNat 64 (fld (a 4) 63 32)),
    (rOutaddr, out + BitVec.ofNat 64 p * aw combine 2)]

/-- A COMBINE as its template but for PARTS and SRC0. -/
def combineFits (template ls : List Line) (parts : Nat) (src0 : Word) : Bool :=
  let i := 1 + eLines template
  let arg := ((lineOf template i).set 0 (setFld (aw template 0) 20 16 parts)).set 1 src0
  ls == template.set i arg

/-- SPLIT_MATMUL: every slice once, on its furrow, and then the COMBINE; `idle` says that every slice has ended. -/
def Track.splits (t : Track) (a : Nat → Word) (idle : Bool) (x : Act) : Option Track :=
  match x, t.image (a 0).toNat, t.imageNo (a 0).toNat 1 with
  | .emit ls _, some me, some combine =>
    if t.ended then none
    else
      let n := fld (a 1) 4 0
      match (List.range n).find? fun p => !t.slices.contains p && sliceFits me combine ls a p with
      | some p => some { t with slices := p :: t.slices }
      | none =>
        if t.slices.length = n ∧ idle = true ∧
            combineFits combine ls n (regOf (imageRegs me) rOutaddr) = true then some { t with ended := true }
        else none
  | _, _, _ => none

/-- COMBINE_TREE: the partials of the present level, and where they lie. -/
def Track.level (t : Track) (a : Nat → Word) (template : List Line) : Nat × Word :=
  if t.row = 0 then ((a 1).toNat, aw template 1) else (t.row, a 2)

/-- An ACC32 sum of COMBINE_TREE: number i of its level, of `parts` partials from number `first` on. -/
def sumFits (template ls : List Line) (scratch base : Word) (i first parts : Nat) : Bool :=
  let stride := aw template 2
  hOp ls == opCombine && fNoscale ls && fld (aw ls 0) 20 16 == parts &&
  aw ls 1 == base + BitVec.ofNat 64 first * stride && aw ls 2 == stride &&
  aw ls 3 == scratch + BitVec.ofNat 64 i * stride && aw ls 4 == aw template 4 &&
  fld (regOf (imageRegs ls) rOpmode) 5 4 == 2

/-- COMBINE_TREE: sums of 2 to 16 partials, as few as a level needs, until 16 or fewer remain; then the template over
them. `entry` counts the partials taken in the level, `slices` its sums; `idle` says that every issue has ended. -/
def Track.tree (t : Track) (a : Nat → Word) (idle : Bool) (x : Act) : Option Track :=
  match x, t.image (a 0).toNat with
  | .emit ls _, some template =>
    if t.ended then none
    else
      let m := (t.level a template).1
      let base := (t.level a template).2
      if m ≤ 16 then
        if idle = true ∧ combineFits template ls m base = true then some { t with ended := true } else none
      else
        let sums := (m + 15) / 16
        let i := t.slices.length
        let parts := fld (aw ls 0) 20 16
        let left := m - t.entry - parts
        let rest := sums - i - 1
        if sumFits template ls (a 2) base i t.entry parts = true ∧ 2 ≤ parts ∧ parts ≤ 16 ∧
            t.entry + parts ≤ m ∧ 2 * rest ≤ left ∧ left ≤ 16 * rest ∧ (idle = true ∨ i ≠ 0) then
          if rest = 0 then some { t with row := sums, entry := 0, slices := [] }
          else some { t with entry := t.entry + parts, slices := i :: t.slices }
        else none
  | _, _ => none

/-- COPY: the chunks. -/
def copyChunks (a : Nat → Word) : Nat := ((a 3).toNat + (a 4).toNat - 1) / (a 4).toNat

/-- COPY: a child per chunk, without predecessors, each with its source and destination. The last, which may be
shorter, may differ from the template in further registers. -/
def Track.copies (t : Track) (a : Nat → Word) (x : Act) : Option Track :=
  match x, t.image (a 0).toNat with
  | .emit ls none, some template =>
    let regs := imageRegs ls
    let i := (regOf regs rOutaddr - a 2).toNat / (a 4).toNat
    let off := BitVec.ofNat 64 i * a 4
    let set := [(rOutaddr, a 2 + off), ((a 5).toNat, a 1 + off)]
    if i < copyChunks a ∧ t.slices.contains i = false ∧ hOp ls = hOp template ∧
        (loadsAs ls template set = true ∨
          (i + 1 = copyChunks a ∧ (set.all fun e => regOf regs e.1 == e.2) = true)) then
      some { t with slices := i :: t.slices }
    else none
  | _, _ => none

/-- REPLAY: the images in order, each behind the one before, and after each repetition 1 to the object. `entry` counts
the images of the repetition, `row` the repetitions; `issue` is the number that an issue takes now. -/
def Track.replays (t : Track) (a : Nat → Word) (issue : Nat) (x : Act) : Option Track :=
  let again := fun (t : Track) => { t with row := t.row + 1, entry := 0 }
  if (a 2).toNat ≤ t.row then none
  else match x with
    | .emit ls pred =>
      if t.entry < (a 1).toNat ∧ t.imageNo (a 0).toNat t.entry = some ls ∧ pred = t.last then
        let u := { t with entry := t.entry + 1, last := some issue }
        some (if u.entry = (a 1).toNat ∧ a 3 = 0 then again u else u)
      else none
    | .add ref v =>
      if t.entry = (a 1).toNat ∧ a 3 ≠ 0 ∧ ref = fld (a 3) 31 0 ∧ v = 1 then some (again t) else none
    | _ => none

/-- HEARTBEAT: once per period. -/
def Track.beats (t : Track) (a : Nat → Word) (now : Nat) (x : Act) : Option Track :=
  match x with
  | .beat =>
    if (match t.last with
      | some b => decide (b + (a 0).toNat ≤ now)
      | none => true) = true then some { t with last := some now }
    else none
  | _ => none

/-- TRACE_MARK: one mark, of ARG0. -/
def Track.marks (t : Track) (a : Nat → Word) (x : Act) : Option Track :=
  match x with
  | .mark v => if t.n = 0 ∧ v = fld (a 0) 31 0 then some { t with n := 1 } else none
  | _ => none

/-- The act is the one that the contract of the CALL's routine has now: what the routine has then done.
Log 12 (DESIGN CHOICE, safe). -/
def State.actFits (s : State) (d : Node) (r : Run) (x : Act) : Option Track :=
  let idle := (s.nodesWhere fun _ e => match e.child with
    | some (c, _) => c == r.call
    | none => false).isEmpty
  match r.slot with
  | 0 => none
  | 5 => r.track.splits d.arg idle x
  | 6 => r.track.tree d.arg idle x
  | 7 => r.track.copies d.arg x
  | 8 => r.track.replays d.arg s.nextIssue x
  | 9 => r.track.beats d.arg s.now x
  | 10 => r.track.marks d.arg x
  | n => r.track.streams n d.arg x

/-- The routine has done what its contract says, and may end: HEARTBEAT when its object is not zero.
Log 12 (DESIGN CHOICE, safe). -/
def State.contractMet (s : State) (d : Node) (r : Run) : Bool :=
  match r.slot with
  | 0 => true
  | 7 => r.track.slices.length == copyChunks d.arg
  | 8 => decide ((d.arg 2).toNat ≤ r.track.row) || (d.arg 1 == 0 && d.arg 3 == 0)
  | 9 => (s.obj (refObj (fld (d.arg 1) 31 0))).w0 != 0 || refChip (fld (d.arg 1) 31 0) != 0x3FFF
  | 10 => r.track.n == 1
  | _ => r.track.ended

/-- The routine ends now: what it had to do is done. HEARTBEAT of an object on another chip, which this chip does not
hold, may end at any time, and nothing says when.
Log 12 (DESIGN CHOICE, safe). -/
def State.endsNow (s : State) (d : Node) (r : Run) : Bool :=
  s.contractMet d r && (r.slot != 9 || refChip (fld (d.arg 1) 31 0) == 0x3FFF)

/-- What a routine of the ROM never does once its checks have passed, whatever its arguments and the data that they
name: SYS TRAP, a loop, a jump, a frame address or a handle that traps.
Log 12 (DESIGN CHOICE, safe). -/
def Run.ownTrap (r : Run) (w : BitVec 32) : Bool :=
  let fn := fld w 10 0
  let ra := r.reg (fld w 20 16)
  let rb := r.reg (fld w 15 11)
  let live := fun (a : Word) => (r.handle a.toNat).isSome
  let frame := fun (n : Nat) =>
    let a := (ra + (BitVec.ofNat 16 (fld w 15 0)).signExtend 64).toNat
    decide (0x7E00 ≤ a) || a % n != 0
  match fld w 31 26 with
  | 0x08 | 0x0C => frame 8
  | 0x09 | 0x0D => frame 4
  | 0x0A | 0x0E => frame 1
  | 0x0F => decide (0x7E00 < rb.toNat + 64 * (fn / 32 + 1)) || rb.toNat % 64 != 0
  | 0x12 => match fn with
    | 0 => decide (0x7E00 ≤ ra.toNat) || ra.toNat % 64 != 0 || !(rb == 0 || live rb)
    | 1 => !live ra || !(rb == 0 || live rb)
    | _ => !live ra
  | 0x18 => decide (4 ≤ r.loops.length) || decide ((BitVec.ofNat 16 (fld w 15 0)).toInt < 1)
  | 0x2A => ra.toNat % 4 != 0
  | 0x3F => fn == 1
  | _ => false

/-- An instruction of a shipped routine keeps its contract: its arguments have passed the checks, it traps by no fault
of its own, an act is the next that the contract has, and EXIT comes when the contract is met.
Log 12 (DESIGN CHOICE, safe). -/
def State.keepsContract (s : State) (d : Node) (r : Run) (w : BitVec 32) : Bool :=
  d.argCode r.slot == 0 && !s.endsNow d r && !r.ownTrap w &&
  (match r.actOf w with
    | some x => (s.actFits d r x).isSome
    | none => true) &&
  (!isExit w || s.contractMet d r)

/-- The CALL's run keeps the contract of its routine; the routines of slots 64 to 127 have none. -/
def State.keeps (s : State) (r : Run) (w : BitVec 32) : Bool :=
  if 64 ≤ r.slot then true
  else match s.node r.call with
    | some d => s.keepsContract d r w
    | none => true

/-- The run after an instruction has acted. -/
def State.acted (s : State) (r : Run) (w : BitVec 32) : Run :=
  if 64 ≤ r.slot then r
  else match s.node r.call, r.actOf w with
    | some d, some x => { r with track := (s.actFits d r x).getD r.track }
    | _, _ => r

end Sys2Proof.Machine
end

