-- ==== Sys2Proof/Machine/Log.lean ====
section
/-! DEFINITION. Trace records (R437-R440), audit entries (R429, R430), MSI-X (R343, R460) and the
counts of the lifetime image (R441, R442). -/

namespace Sys2Proof.Machine

/-! ## Trace -/

/-- Clock enable bit b of PL_CLKEN (R411). -/
def State.enabled (s : State) (b : Nat) : Bool := bit s.clocks.enables b

/-- The link-notice port, the engine ports and the memory-fabric port permit handshakes (R411); what reaches one that
does not is not taken (log 81).
Log 81 (DEDUCED, safe). -/
def State.linkOn (s : State) : Bool := s.enabled 16
/-- Log 81 (DEDUCED, safe). -/
def State.engineOn (s : State) : Bool := s.enabled 15
/-- Log 81 (DEDUCED, safe). -/
def State.memOn (s : State) : Bool := s.enabled 14

/-- The hive of half h is clocked, if that half is in service (R411).
Log 81 (DEDUCED, safe). -/
def State.hiveOn (s : State) (h : Nat) : Bool := !s.inService h || s.enabled (6 + h)

/-- The queue of the ring may be full (R437): 16 records have entered it within this microsecond and the one
before, a time in which it may or may not have drained (log 62).
Log 62 (DESIGN CHOICE, unsafe). -/
def Trace.mayBeFull (t : Trace) (now : Nat) : Bool :=
  match t.recent.drop 15 with
  | old :: _ => decide (now ≤ old + 1)
  | [] => false

/-- Writing one trace record of a kind, for a queue, with its W1 (R438). The context filter
applies to kinds 0-5; nothing is written while PL_CLKEN.TRACE is 0, while the kind is masked, or
once a ring with STOP has taken 131,072 records (R437, R440). Where the queue may be full, whether the
record is dropped and counted is open (log 62).
Log 62 (DESIGN CHOICE, unsafe). -/
def State.traceRec (s : State) (kind queue : Nat) (c : Option Nat) (w1 : Word) : State :=
  let t := s.trace
  let filtered := t.filten && decide (kind ≤ 5) && decide (c ≠ some t.filtctx.toNat)
  if s.enabled 13 && bit t.kindmask kind && !filtered &&
      !(t.stop && decide (131072 ≤ t.written.toNat)) then
    let w0 := word [(30, s.now % 2 ^ 34), (20, s.nsNow), (16, kind), (0, queue % 2 ^ 12)]
    { s.useFree with trace :=
        if t.mayBeFull s.now && bit s.freeNow 63 then { t with dropped := satInc t.dropped }
        else { t with
          ring := Tbl.set [] t.ring (t.written.toNat % 131072) [w0, w1]
          written := t.written + 1
          recent := (s.now :: t.recent).take 16 } }
  else s

/-- W1 of kinds 0 to 5: TAG over DATA. -/
def traceW1 (tag : BitVec 32) (data : Nat) : Word := word [(32, tag.toNat), (0, data % 2 ^ 32)]

/-- DATA of START and COMMIT: furrow, the end-without-commit bit, ordinal (R439). -/
def traceRun (f : Nat) (member : Option Nat) (noCommit : Bool) : Nat :=
  f * 2 ^ 22 + b2n noCommit * 2 ^ 21 + (member.getD 0xFFFF) % 2 ^ 16

/-- The COMMIT record of a run (R439): its commit, or its end without commit. -/
def State.traceEnd (s : State) (f : Nat) (r : EngineRun) (noCommit : Bool) : State :=
  s.traceRec 2 r.entry.queue (some r.entry.ctx) (traceW1 r.tag (traceRun f r.entry.member noCommit))

/-! ## Lifetime counts -/

/-- Adding to 64-bit word i of the live image; 64-bit counts wrap (R441, R447). -/
def State.lifeAdd (s : State) (i n : Nat) : State :=
  { s with life := { s.life with
      image := Tbl.set 0 s.life.image i (Tbl.get 0 s.life.image i + BitVec.ofNat 64 n) } }

/-- Class code (R330). -/
def Class.code : Class → Nat
  | .note => 0
  | .contain => 1
  | .severe => 2
  | .grave => 3

/-- Adding with 32-bit saturation in half h of a word. -/
def addHalf (w : Word) (h n : Nat) : Word :=
  let v := min (fld w (32 * h + 31) (32 * h) + n) (2 ^ 32 - 1)
  if h = 0 then word [(32, fld w 63 32), (0, v)] else word [(32, v), (0, fld w 31 0)]

/-- Counting a fault event of a source by class after escalation (R442). -/
def State.lifeFault (s : State) (source : Nat) (c : Class) : State :=
  let i := 64 + 2 * source + c.code / 2
  { s with life := { s.life with
      image := Tbl.set 0 s.life.image i (addHalf (Tbl.get 0 s.life.image i) (c.code % 2) 1) } }

/-! ## MSI-X -/

/-- Message Control of the MSI-X capability (R460): bits 10:0 Table Size, encoded as 1, bit 14 Function Mask, bit 15
MSI-X Enable.
Log 8 (PRESUMED, unsafe). -/
def State.msixControl (s : State) : Nat := b2n s.regs.msixEnable * 2 ^ 15 + b2n s.regs.msixMaskAll * 2 ^ 14 + 1

/-- Offset and BIR of the MSI-X table and of the pending-bit array, as the capability states them (R460). -/
def msixTable : Nat := 0x8000 + 2
def msixPba : Nat := 0x9000 + 2

/-- The message of a vector: the address and data of its table entry. -/
def State.msixOut (s : State) (v : Nat) : Out :=
  if v = 0 then .msix 0 s.regs.msixAddr0 (BitVec.ofNat 32 (fld s.regs.msixCtl0 31 0))
  else .msix 1 s.regs.msixAddr1 (BitVec.ofNat 32 (fld s.regs.msixCtl1 31 0))

/-- A vector is masked: by its own mask bit or by the Function Mask (R460). -/
def State.msixMasked (s : State) (v : Nat) : Bool :=
  s.regs.msixMaskAll || bit (if v = 0 then s.regs.msixCtl0 else s.regs.msixCtl1) 32

/-- Sending a vector of the PF; a masked vector sets its pending bit, and while MSI-X is not enabled nothing is sent
(R343, R460).
Log 8 (PRESUMED, unsafe). -/
def State.sendMsix (s : State) (v : Nat) : State :=
  if !s.regs.msixEnable then s
  else if s.msixMasked v then
    { s with regs := { s.regs with msixPend := s.regs.msixPend ||| BitVec.ofNat 2 (2 ^ v) } }
  else s.drive (s.msixOut v)

/-! ## Audit -/

/-- One audit entry (R430); slot m mod 8,192 (R429). -/
def State.auditRec (s : State) (role : Nat) (ignored : Bool) (opcode offset : Nat)
    (old new : Word) : State :=
  let a := s.audit
  let w1 := word [(62, role), (61, b2n ignored), (48, opcode), (40, s.recov.chipgen.toNat),
    (0, offset % 2 ^ 24)]
  { s with audit := { a with
      ring := Tbl.set [] a.ring (a.count % 8192) [s.usec, w1, old, new]
      count := a.count + 1
      written := a.written + 1 } }

end Sys2Proof.Machine
end

