-- ==== Sys2Proof/Machine/Lifetime.lean ====
section
/-! DEFINITION. Loading and flushing the lifetime image over the management sideband
(R442-R447). -/

namespace Sys2Proof.Machine

/-! ## CRC-32 (IEEE 802.3), over the bytes of little-endian words -/

def crcBits (c : BitVec 32) : Nat → BitVec 32
  | 0 => c
  | n + 1 => crcBits (if bit c 0 then (c >>> 1) ^^^ 0xEDB88320 else c >>> 1) n

def crcByte (c : BitVec 32) (b : Nat) : BitVec 32 := crcBits (c ^^^ BitVec.ofNat 32 (b % 256)) 8

def crcWord (c : BitVec 32) (w : Word) : BitVec 32 :=
  (List.range 8).foldl (fun a i => crcByte a (w.toNat / 2 ^ (8 * i))) c

def crc32 (ws : List Word) : BitVec 32 := ~~~(ws.foldl crcWord 0xFFFFFFFF)

/-- Header word of a sideband frame (R445). -/
def sbHeader (typ slot : Nat) (seq : BitVec 8) (lines offset : Nat) : Word :=
  word [(60, typ), (56, slot), (48, seq.toNat), (32, lines), (0, offset)]

/-- A frame with its trailer (R445). -/
def sbFrame (header : Word) (payload : List Line) : SidebandFrame where
  header := header
  payload := payload
  trailer := word [(0, (crc32 (header :: payload.flatten)).toNat)]

/-- A received frame is sound: its trailer holds the CRC of header and payload and nothing else,
and its reserved bits are zero. -/
def sbSound (f : SidebandFrame) : Bool :=
  f.trailer == word [(0, (crc32 (f.header :: f.payload.flatten)).toNat)]

def sbType (f : SidebandFrame) : Nat := fld f.header 63 60
def sbSeq (f : SidebandFrame) : BitVec 8 := BitVec.ofNat 8 (fld f.header 55 48)

/-! ## The image -/

/-- Line i of the live image. -/
def Life.lineAt (l : Life) (i : Nat) : Line :=
  (List.range 8).map fun j => Tbl.get 0 l.image (8 * i + j)

/-- Lines of a flush frame that begins at a line: 32, the rest, or the header line (R444). -/
def flushCount (line : Nat) : Nat := if line = 0 then 1 else min 32 (268 - line)

/-- The slot a flush writes: the one that does not hold the newest valid image (R444). -/
def Life.target (l : Life) : Nat := 1 - l.newest

/-- The request that the sideband's state stands for (R443, R444). -/
def Life.request (l : Life) : Option SidebandFrame :=
  match l.sideband with
  | .idle => none
  | .header slot => some (sbFrame (sbHeader 0 slot l.seq 1 0) [])
  | .load slot line =>
    some (sbFrame (sbHeader 0 slot l.seq (flushCount line) (64 * line)) [])
  | .flush line =>
    some (sbFrame (sbHeader 1 l.target l.seq (flushCount line) (64 * line))
      ((l.buffer.drop line).take (flushCount line)))

/-- Sending the request of a new sideband state under the next SEQ. -/
def State.sbSend (s : State) (st : Sideband) : State :=
  let l := { s.life with sideband := st, seq := s.life.seq + 1, retries := 0, answerDue := s.now + 200 }
  let s := { s with life := l }
  match l.request with
  | some f => s.drive (.sideband f)
  | none => s

/-- Beginning a load: the header of slot 0 first (R443). -/
def State.startLoad (s : State) : State :=
  { s with life := { s.life with slot0 := none, slot1 := none, buffer := [], reload := false } }.sbSend (.header 0)

/-- Whole seconds are counted, and the remainder carried (R441, R442).
Log 57 (DEDUCED, unsafe). -/
def State.countSeconds (s : State) : State :=
  let x := s.life.secs
  let m := 1000000
  let s := (((((s.lifeAdd 8 (x.powered / m)).lifeAdd 9 (x.running / m)).lifeAdd 10 (x.nap / m)).lifeAdd 11
    (x.doze / m)).lifeAdd 12 (x.deep / m)).lifeAdd 13 (x.safe / m)
  { s with life := { s.life with secs := {
      powered := x.powered % m, running := x.running % m, nap := x.nap % m
      doze := x.doze % m, deep := x.deep % m, safe := x.safe % m } } }

/-- Word 0 of the header (R442). -/
def layoutWord : Word := word [(48, 1)]

/-- The header words a flush gives the image: LAYOUT, FLUSHES, USEC and the CRC of lines 1-267
(R442, R444). -/
def State.stampImage (s : State) : State :=
  let s := s.countSeconds
  let img := s.life.image
  let body := (List.range (2144 - 8)).map fun i => Tbl.get 0 img (i + 8)
  let img := Tbl.set 0 img 0 layoutWord
  let img := Tbl.set 0 img 1 (Tbl.get 0 img 1 + 1)
  let img := Tbl.set 0 img 2 s.usec
  let img := Tbl.set 0 img 3 (word [(0, (crc32 body).toNat)])
  { s with life := { s.life with image := img } }

/-- Beginning a flush: snapshot, then line 1 on (R444). -/
def State.startFlush (s : State) : State :=
  let s := s.stampImage
  let s := { s with life := { s.life with
    buffer := (List.range 268).map s.life.lineAt
    flushDue := s.now + 3600000000
    waiting := false } }
  s.sbSend (.flush 1)

/-- A flush is requested: it waits for one in progress; without a loaded image the load is retried
first and nothing is written unless it succeeds (R443, R444, R447). -/
def State.requestFlush (s : State) : State :=
  if s.life.sideband ≠ .idle then
    { s with life := { s.life with waiting := true, reload := !s.life.loaded } }
  else if !s.life.loaded then
    { s with life := { s.life with waiting := true } }.startLoad
  else s.startFlush

/-- The sideband has become free: a waiting flush begins, if an image has been loaded; one that was requested
during a load that failed retries the load (R443, R447). -/
def State.sbFree (s : State) : State :=
  let s := { s with life := { s.life with sideband := .idle } }
  if s.life.waiting && s.life.loaded then s.startFlush
  else if s.life.waiting && s.life.reload then s.startLoad
  else { s with life := { s.life with waiting := false } }

/-- No image is usable: the part starts from zero (R443). -/
def State.loadFresh (s : State) : State :=
  { s with life := { s.life with loaded := true, fresh := true, newest := 1 } }.sbFree

/-- Both headers are known: the valid slot with the higher FLUSHES is read next (R443). -/
def State.pickSlot (s : State) : State :=
  match s.life.slot0, s.life.slot1 with
  | none, none => s.loadFresh
  | some _, none => s.sbSend (.load 0 1)
  | none, some _ => s.sbSend (.load 1 1)
  | some a, some b => if b.1.toNat ≤ a.1.toNat then s.sbSend (.load 0 1) else s.sbSend (.load 1 1)

/-- Word i of the image after adding the loaded one: 64-bit counts wrap, the 32-bit fault counts
of words 64 on saturate (R441, R443). -/
def addImage (i : Nat) (live loaded : Word) : Word :=
  if 64 ≤ i then addHalf (addHalf live 0 (fld loaded 31 0)) 1 (fld loaded 63 32)
  else live + loaded

/-- Lines 1 on of the slot's image have been read: accept it if its CRC holds, otherwise drop the
slot and try the other (R443). -/
def State.finishLoad (s : State) (slot : Nat) : State :=
  let l := s.life
  let hdr := if slot = 0 then l.slot0 else l.slot1
  let ws := l.buffer.flatten
  match hdr with
  | none => s.loadFresh
  | some (fl, crc) =>
    if crc = word [(0, (crc32 ws).toNat)] then
      let img := (List.range 2144).foldl (fun t i =>
        let w := if i = 1 then fl else if i < 8 then 0 else ws.getD (i - 8) 0
        Tbl.set 0 t i (addImage i (Tbl.get 0 t i) w)) l.image
      { s with life := { l with image := img, loaded := true, newest := slot, buffer := [] } }.sbFree
    else
      { s with life := { l with
          slot0 := if slot = 0 then none else l.slot0
          slot1 := if slot = 0 then l.slot1 else none
          buffer := [] } }.pickSlot

/-- The answer is a NAK, is missing or is unsound: the same frame is sent again, up to 3 times;
then the load or flush is abandoned (R445). -/
def State.sbRetry (s : State) : State :=
  match s.life.request with
  | none => s
  | some f =>
    if s.life.retries < 3 then
      { s with life := { s.life with
          retries := s.life.retries + 1, answerDue := s.now + 200 } }.drive (.sideband f)
    else
      { s with life := { s.life with fails := satInc s.life.fails } }.sbFree

/-- Counting a dropped frame (R445). -/
def State.badFrame (s : State) : State :=
  { s with life := { s.life with badframes := satInc s.life.badframes } }

/-- An answer reaches Pliat: of a reserved TYPE it is dropped and counted; unsound, or with a wrong SEQ, it is
dropped and the request repeated (R445). An answer of another TYPE than the one that is due counts as wrong (log
54).
Log 54 (DEDUCED, unsafe). -/
def State.sbAnswer (s : State) (m : SidebandFrame) (typ : Nat) (k : State → State) : State :=
  if sbSound m && decide (6 ≤ sbType m) then s.badFrame
  else if !sbSound m || sbType m ≠ typ || sbSeq m ≠ s.life.seq || s.life.sideband == .idle then
    s.badFrame.sbRetry
  else k s

/-- A WRITE is confirmed: the next frame, line 0 last, and then the flush has ended (R444). -/
def State.flushNext (s : State) : State :=
  match s.life.sideband with
  | .flush line =>
    if line = 0 then
      { s with life := { s.life with
          flushes := satInc s.life.flushes, newest := s.life.target, buffer := [] } }.sbFree
    else if line + flushCount line < 268 then s.sbSend (.flush (line + flushCount line))
    else s.sbSend (.flush 0)
  | _ => s.badFrame.sbRetry

/-- DATA arrives for the header or the lines asked for (R443). -/
def State.loadNext (s : State) (payload : List Line) : State :=
  match s.life.sideband with
  | .header slot =>
    let h := payload.headD []
    let got := if fld (wd h 0) 63 48 = 1 then some (wd h 1, wd h 3) else none
    if slot = 0 then
      { s with life := { s.life with slot0 := got } }.sbSend (.header 1)
    else { s with life := { s.life with slot1 := got } }.pickSlot
  | .load slot line =>
    let s := { s with life := { s.life with buffer := s.life.buffer ++ payload } }
    if line + flushCount line < 268 then s.sbSend (.load slot (line + flushCount line))
    else s.finishLoad slot
  | _ => s.badFrame.sbRetry

/-! ## Commands -/

/-- A write of PL_LIFECTL.FLUSH requests a flush (R444). The access is audited by the register
write it is part of.
Log 108 (DESIGN CHOICE, unsafe). -/
def State.flushBit (s : State) (part : Part) (v : Word) : State :=
  if bit (seen part v) 0 then s.requestFlush else s

/-- FLUSHREQ from the board controller; its SEQ is ignored (R444, R445). -/
def execFlushreq (m : SidebandFrame) (s : State) : Host.Outcome State Fault Refusal :=
  ok True <| s.when s.powered fun s =>
    if sbSound m && sbType m == 5 then s.requestFlush else s.badFrame

/-- 3,600 s after the previous flush began (R444). -/
def execFlushTimer (s : State) : Host.Outcome State Fault Refusal :=
  ok True <| s.when (s.powered && decide (s.life.flushDue ≤ s.now)) fun s => s.requestFlush

/-- DATA (R443, R445). -/
def execDataFrame (m : SidebandFrame) (s : State) : Host.Outcome State Fault Refusal :=
  ok (∀ l ∈ m.payload, l.length = 8) <| s.when s.powered fun s => s.sbAnswer m 2 fun s => s.loadNext m.payload

/-- ACK (R444, R445). -/
def execAckFrame (m : SidebandFrame) (s : State) : Host.Outcome State Fault Refusal :=
  ok True <| s.when s.powered fun s => s.sbAnswer m 3 fun s => s.flushNext

/-- NAK (R445). -/
def execNak (m : SidebandFrame) (s : State) : Host.Outcome State Fault Refusal :=
  ok True <| s.when s.powered fun s => s.sbAnswer m 4 fun s => s.sbRetry

/-- No answer within 200 µs (R445).
Log 3 (DESIGN CHOICE, unsafe). -/
def execSidebandTimeout (s : State) : Host.Outcome State Fault Refusal :=
  ok True <| s.when (s.powered && decide (s.life.sideband ≠ .idle) && decide (s.life.answerDue ≤ s.now)) fun s =>
    s.sbRetry

end Sys2Proof.Machine
end

