-- ==== Sys2Proof/Machine/Collector.lean ====
section
/-! DEFINITION. The fault collector: sources, counting and escalation, the fault log, merging, and
the actions of the four classes, the safe state among them (R328-R346); and the notices a chip
sends its groups (R375-R377). -/

namespace Sys2Proof.Machine

/-! ## Sources (R328) -/

def srcFrontEnd (h : Nat) : Nat := 0x0010 + h
def srcResolver (h : Nat) : Nat := 0x0012 + h
def srcHive (h : Nat) : Nat := 0x0014 + h
def srcDescriptor (h : Nat) : Nat := 0x0016 + h
def srcQueueCtx (h : Nat) : Nat := 0x0018 + h
def srcHome (home : Nat) : Nat := 0x001A + home
def srcSteward : Nat := 0x001D
def srcBridge : Nat := 0x001E
def srcTrace : Nat := 0x001F
def srcAudit : Nat := 0x0020
def srcHang : Nat := 0x0021
def srcHeartbeat : Nat := 0x0022
def srcArbiter : Nat := 0x0023
def srcCollector : Nat := 0x0024
def srcOscillator : Nat := 0x0025
def srcHostPort : Nat := 0x0026
def srcMemPort : Nat := 0x0027
def srcLinkPort : Nat := 0x0028
def srcSideband : Nat := 0x0029
def srcCore (h i : Nat) : Nat := 0x0040 + 13 * h + i
def srcFurrow (f : Nat) : Nat := 0x0100 + f

/-- A source number the table of R328 lists. -/
def sourceListed (i : Nat) : Bool :=
  (decide (0x10 ≤ i) && decide (i ≤ 0x29)) || (decide (0x40 ≤ i) && decide (i < 0x40 + 26)) ||
  (decide (0x100 ≤ i) && decide (i < 0x100 + 600)) || (decide (0x400 ≤ i) && decide (i ≤ 0x40C))

/-- The group whose bit a merged event sets in MERGEDGRP (R328). -/
def sourceGroup (i : Nat) : Nat :=
  if i < 0x12 then 0 else if i < 0x14 then 1 else if i < 0x16 then 2 else if i < 0x18 then 3
  else if i < 0x1A then 4 else if i < 0x1D then 5 else if i = 0x1D then 6 else if i = 0x1E then 7
  else if i < 0x21 then 14 else if i < 0x23 then 10 else if i < 0x25 then 11 else if i = 0x25 then 12
  else if i < 0x2A then 13 else if i < 0x100 then 8 else if i < 0x400 then 9 else 7

/-- The half a source lies in, if it lies in one (R328). -/
def sourceHalf (i : Nat) : Option Nat :=
  if 0x10 ≤ i ∧ i < 0x1C then some (i % 2)
  else if 0x40 ≤ i ∧ i < 0x40 + 26 then some ((i - 0x40) / 13)
  else none

/-! ## Kinds (R331) -/

def kCorrected : BitVec 8 := 0x01
def kUncorrectable : BitVec 8 := 0x02
def kBrokenWire : BitVec 8 := 0x03
def kTrap : BitVec 8 := 0x04
def kWindow : BitVec 8 := 0x05
def kTimeout : BitVec 8 := 0x06
def kHung : BitVec 8 := 0x07
def kWaitCycle : BitVec 8 := 0x08
def kHeartbeat : BitVec 8 := 0x09
def kCharge : BitVec 8 := 0x0A
def kArbiter : BitVec 8 := 0x0B
def kQueueError : BitVec 8 := 0x0C
def kTokenDrop : BitVec 8 := 0x0D
def kTokenOverflow : BitVec 8 := 0x0E
def kHiveDrop : BitVec 8 := 0x0F
def kMisuse : BitVec 8 := 0x10
def kPeerLost : BitVec 8 := 0x11
def kTenantBlock : BitVec 8 := 0x12
def kQuarantine : BitVec 8 := 0x13
def kRemoteWriteDrop : BitVec 8 := 0x14
def kCoherence : BitVec 8 := 0x15
def kPort : BitVec 8 := 0x16
/-- Log 38 (DEDUCED, unsafe). -/
def kDumpFailed : BitVec 8 := 0x17
/-- Log 38 (DEDUCED, unsafe). -/
def kResetOverrun : BitVec 8 := 0x18
def kRecovery : BitVec 8 := 0x19
def kHalfLost : BitVec 8 := 0x1A
/-- Log 38 (DEDUCED, unsafe). -/
def kCoreSpared : BitVec 8 := 0x1B
/-- Log 38 (DEDUCED, unsafe). -/
def kOperatorReset : BitVec 8 := 0x1C

/-! ## Notices (R375-R377) -/

/-- The port word of a frame this chip sends to its group (R375). -/
def State.portWord (s : State) (p cls : Nat) (dest : BitVec 14) : Word :=
  word [(62, cls), (48, dest.toNat), (34, (s.group p).num.toNat), (30, p),
    (22, s.recov.chipgen.toNat)]

/-- N0 of a notice (R376). -/
def noticeN0 (ntype ftype c gen : Nat) : Word :=
  word [(60, ntype), (58, ftype), (12, c), (0, gen)]

/-- Sending a notice to the group of partition p, if that group is enabled (R377). In the safe
state nothing but CHIP_FAULT goes out (R345). -/
def State.sendNotice (s : State) (p : Nat) (dest : BitVec 14) (n0 n1 : Word) : State :=
  if (s.group p).en && !s.recov.safe then
    s.drive (.notice p { port := s.portWord p 1 dest, n0 := n0, n1 := n1 })
  else s

/-- A notice to every chip of each enabled group (R377). -/
def State.noticeAll (s : State) (n0 : Word) : State :=
  s.forAll (List.range 12) fun s p => s.sendNotice p 0x3FFF n0 0

/-! ## Counting (R332) -/

/-- The number of the W/16 interval that the present moment lies in.
Log 65 (DEDUCED, unsafe). -/
def Source.interval (x : Source) (now : Nat) : Nat := now * 16 / (x.window.toNat * 1000)

/-- The window count: the current sub-count and the 15 before it, saturating at 255.
Log 65 (DEDUCED, unsafe). -/
def Source.count (x : Source) (now : Nat) : Nat :=
  min 255 (((x.subs.filter fun e => decide (x.interval now < e.1 + 16)).map Prod.snd).foldl (· + ·) 0)

/-- Adding an event to the current sub-count.
Log 65 (DEDUCED, unsafe). -/
def Source.add (x : Source) (now : Nat) : Source :=
  let i := x.interval now
  let live := x.subs.filter fun e => decide (i < e.1 + 16) && decide (e.1 ≠ i)
  let cur := ((x.subs.filter fun e => e.1 == i).map Prod.snd).foldl (· + ·) 0
  { x with subs := (i, min 255 (cur + 1)) :: live }

/-- The class after escalation (R332). -/
def escalate (c : Class) (named : Bool) : Class :=
  match c with
  | .note => if named then .contain else .severe
  | .contain => .severe
  | .severe => .grave
  | .grave => .grave

/-- The class before counting: CONTAIN that names no context is SEVERE (R331). -/
def Event.base (e : Event) : Class :=
  if e.cls = .contain ∧ e.ctx = none then .severe else e.cls

/-! ## The fault log (R335-R342) -/

/-- The record of an event that opens one (R336). -/
def State.faultRecord (s : State) (e : Event) (c : Class) (esc : Bool) : List Word :=
  [ word [(48, e.source), (46, c.code), (45, b2n esc), (44, b2n e.injected),
      (24, e.kind.toNat), (0, s.faults.recno % 2 ^ 16)],
    s.usec,
    word [(40, s.recov.chipgen.toNat),
      (28, match e.ctx with | some x => x.2.toNat | none => 0),
      (18, match e.ctx with | some x => x.1 | none => 0), (17, b2n e.ctx.isSome)],
    word [(32, e.tag.toNat), (20, e.queue), (10, e.furrow.toNat), (0, e.status.toNat)],
    e.address, e.info0, e.info1,
    word [(32, e.detail.toNat), (0, s.now % 2 ^ 32)] ]

/-- The log after merging an event into the record at an entry (R339). -/
def mergeInto (r : List Word) (group : Nat) (now : Nat) : List Word :=
  let w0 := r.getD 0 0
  let w2 := r.getD 2 0
  let w7 := r.getD 7 0
  let m := min (fld w0 39 32 + 1) 255
  let w0 := (w0 &&& ~~~(word [(32, 255)])) ||| word [(32, m)]
  let w2 := w2 ||| word [(48 + group, 1)]
  let w7 := (w7 &&& ~~~(word [(0, 2 ^ 32 - 1)])) ||| word [(0, now % 2 ^ 32)]
  ((r.set 0 w0).set 2 w2).set 7 w7

/-- An event of class c may merge into an open record (R339). -/
def OpenRec.takes (o : OpenRec) (e : Event) (c : Class) : Bool :=
  decide (c.code ≤ o.cls.code) &&
  (decide (o.cls ≠ .contain) || decide (o.ctx = e.ctx.map Prod.fst))

/-- The event of a sheaf that another cause has ended names that end, where it is known (R336). -/
def Event.endedAs (e : Event) (fin : Option Final) : Event :=
  { e with status := (fin.map (·.status)).getD 0, detail := (fin.map (·.detail)).getD 0 }

/-- The open record an event merges into: of highest class, and within it the oldest. Open records
are kept oldest first. -/
def mergeTarget (os : List OpenRec) (e : Event) (c : Class) : Option OpenRec :=
  (os.filter fun o => o.takes e c).foldl (fun a o => match a with
    | none => some o
    | some b => if b.cls.code < o.cls.code then some o else some b) none

def Faults.full (f : Faults) : Bool := (f.written - f.acked) == 512

/-- The record number of the record in an entry: the latest one that lies there (R335). -/
def Faults.recnoOf (f : Faults) (entry : Nat) : Nat :=
  f.recno - 1 - (f.recno - 1 + 512 - entry) % 512

/-- Writing a record, or counting it as lost when the log is full (R342), with the FAULT trace
record (R439) and the notification (R343). -/
def State.openRecord (s : State) (e : Event) (c : Class) (esc : Bool) : State :=
  let f := s.faults
  if f.full then { s with faults := { f with lost := satInc f.lost } }
  else
    let i := f.recno % 512
    let op : List OpenRec := if c = .note then [] else
      [{ entry := i, cls := c, ctx := if c = .contain then e.ctx.map Prod.fst else none,
         charge := decide (e.kind = kCharge) && decide (c = .severe) }]
    let s1 := { s with faults := { f with
      log := Tbl.set [] f.log i (s.faultRecord e c esc)
      written := f.written + 1, recno := f.recno + 1, opened := f.opened ++ op } }
    let s2 := s1.traceRec 7 0 none
      (word [(48, e.source), (40, e.kind.toNat), (38, c.code), (0, f.recno % 2 ^ 16)])
    if f.notifymin.toNat ≤ c.code then s2.sendMsix 0 else s2

/-! ## Actions -/

/-- A teardown of context c already covers it (R340).
Log 15 (DESIGN CHOICE, safe). -/
def State.tearCovered (s : State) (c : Nat) : Bool :=
  s.recov.inprogress || s.recov.request.isSome ||
  s.tears.any (fun t => t.ctx == c) || decide ((s.ctx c).state ≠ .live)

/-- Asking for a context's teardown (R291, R330).
Log 15 (DESIGN CHOICE, safe). -/
def State.askTeardown (s : State) (c : Nat) (cause : BitVec 8) (node : Option Nat) : State :=
  if s.tearCovered c then s
  else { s with tears := s.tears ++ [{ ctx := c, cause := cause, node := node }] }

/-- A compute reset is triggered (R354), and step 1 of R355 happens: CHIPGEN rises, INPROGRESS is set, and the
times of the reset run. A trigger during a reset is merged. The steps that follow are COMPUTE_RESET's.
Log 16 (DESIGN CHOICE, safe), 50 (DEDUCED, unsafe). -/
def State.askReset (s : State) (r : ResetReq) : State :=
  if s.recov.inprogress then s
  else { s with
    clocks := { s.clocks.woken s.now with pendfail := false }
    recov := { s.recov with
      request := some r
      chipgen := s.recov.chipgen + 1
      resets := satInc s.recov.resets
      lastcause := r.cause
      lastrec := if r.cause = 0 then BitVec.ofNat 16 r.recno else 0xFFFF
      inprogress := true
      window := false
      resetDue := s.dueIn 12000
      dumpDue := s.dueIn 2500
      usecAt := s.usec } }

/-- Every run is aborted, under its own generation, and ends without commit (R290, R345, R355, R439). -/
def State.abortAll (s : State) (ended : Nat → Bool) : State :=
  s.furrows.foldl (fun s e => match e.2.run with
    | some r =>
      let s := s.drive (.abort e.1 r.entry.gen)
      s.traceEnd e.1 r (ended e.1)
    | none => s) s

/-- The safe state (R345): grants stop, uncommitted work is aborted, CHIP_FAULT goes out, PLALIVE
holds, PLFAULT is asserted, and the lifetime image is flushed once (R444).
Log 16 (DESIGN CHOICE, safe). -/
def State.enterSafe (s : State) : State :=
  if s.recov.safe then s
  else
    let s := s.abortAll fun _ => true
    let s := { s with
      furrows := s.furrows.mapAll {} fun _ f => { f with entries := [], shadow := none, run := none }
      admits := [], flying := [] }
    let s := s.noticeAll (noticeN0 1 0 0 0)
    let s := { s with
      recov := { s.recov with safe := true }
      clocks := s.clocks.woken s.now
      plaliveOn := false
      plfault := true }
    s.requestFlush

/-- The action of a class (R330), unless what is already under way covers it (R340). -/
def State.act (s : State) (e : Event) (c : Class) (rec : Nat) (full : Bool) : State :=
  match c with
  | .note => s
  | .contain =>
    match e.ctx with
    | some x => s.askTeardown x.1 (if e.cls = .note ∧ e.injected = false then 0xE3 else e.cause) e.node
    | none => s
  | .severe =>
    if e.kind = kCharge then s
    else s.askReset { cause := if full then 2 else 0, recno := rec }
  | .grave => s.enterSafe

/-- The lifetime counts of an event (R441, R442): injected events are not counted. -/
def State.lifeEvent (s : State) (e : Event) (c : Class) : State :=
  if e.injected then s
  else
    let s := s.lifeFault e.source c
    let s := if e.kind = kHeartbeat then s.lifeAdd 33 1 else s
    let s := if e.kind = kHung then s.lifeAdd 34 1 else s
    if c = .grave then s.lifeAdd 35 1 else s

/-- The class an event takes from its source's counter, and whether it was escalated (R332). -/
def State.counted (s : State) (e : Event) : Class × Bool :=
  let x := s.source e.source
  let esc := decide (x.n.toNat ≤ x.count s.now)
  (if esc then escalate e.base e.ctx.isSome else e.base, esc)

/-- A SEVERE event inside the recovery window, which ends it in failure (R362). -/
def State.failsWindow (s : State) (e : Event) : Bool :=
  decide ((s.counted e).1 = .severe) && s.recov.window

/-- The class of an event: a SEVERE one inside the recovery window is GRAVE (R362). -/
def State.classify (s : State) (e : Event) : Class × Bool :=
  (if s.failsWindow e then .grave else (s.counted e).1, (s.counted e).2)

/-- The recovery window after an event.
Log 50 (DEDUCED, unsafe). -/
def State.windowAfter (s : State) (e : Event) : State :=
  { s with recov := { s.recov with window := s.recov.window && !s.failsWindow e } }

/-- Counting the event: an escalated one clears the counter and is not counted (R332).
Log 65 (DEDUCED, unsafe). -/
def State.countEvent (s : State) (e : Event) (esc : Bool) : State :=
  let x := s.source e.source
  s.setSource e.source (if esc then { x with subs := [] } else x.add s.now)

/-- An event reaches the collector (R339): counted, escalated, logged or merged, and acted on; it
wakes an idle Pliat (R417). In the safe state further events have no effect (R345); the pair of a masked
source is ignored (R329): BROKEN_WIRE, and CORE_SPARED of a pair that still reads broken (R358), do not come through
it. -/
def State.raise (s : State) (e : Event) : State :=
  if s.recov.safe || ((s.source e.source).masked && decide (e.kind ≠ kBrokenWire ∧ e.kind ≠ kCoreSpared)) then s
  else
    let cl := s.classify e
    let s1 := ((s.windowAfter e).countEvent e cl.2).lifeEvent e cl.1
    match mergeTarget s1.faults.opened e cl.1 with
    | some o =>
      let s2 := { s1 with faults := { s1.faults with
        log := Tbl.set [] s1.faults.log o.entry
          (mergeInto (Tbl.get [] s1.faults.log o.entry) (sourceGroup e.source) s.now) } }
      (s2.act e cl.1 (s2.faults.recnoOf o.entry) false).wakeUp
    | none =>
      let s2 := s1.openRecord e cl.1 cl.2
      (s2.act e cl.1 s1.faults.recno s1.faults.full).wakeUp

/-- The trigger that an event gives a compute reset (R363): the record it opens or merges into, or none where it
finds the log full. -/
def State.resetFor (s : State) (e : Event) : ResetReq :=
  match mergeTarget s.faults.opened e (s.classify e).1 with
  | some o => { cause := 0, recno := s.faults.recnoOf o.entry }
  | none => { cause := if s.faults.full then 2 else 0, recno := s.faults.recno }

/-- Closing the open records that satisfy a test (R339). -/
def State.closeRecords (s : State) (p : OpenRec → Bool) : State :=
  { s with faults := { s.faults with opened := s.faults.opened.filter fun o => !p o } }

/-- The context and generation an event of a node's sheaf names. -/
def Node.names (d : Node) : Option (Nat × BitVec 12) := some (d.ctx, d.gen)

/-- An event about a sheaf: it names the sheaf's context, TAG and queue. -/
def Node.event (d : Node) (source : Nat) (kind : BitVec 8) (cls : Class) (status : BitVec 8)
    (detail : BitVec 32) (furrow : BitVec 10) : Event where
  source := source
  kind := kind
  cls := cls
  ctx := d.names
  tag := d.tag
  queue := d.queue
  furrow := furrow
  status := status
  detail := detail
  cause := status

/-! ## Errors in words that are read (R39, R336, R337) -/

/-- An error event of a storage word; the word's address is an open value.
Log 17 (DESIGN CHOICE, safe). -/
def storageEvent (source : Nat) (kind : BitVec 8) (cls : Class) (info : Word) (addr : Word)
    (c : Option (Nat × BitVec 12)) : Event where
  source := source
  kind := kind
  cls := cls
  ctx := c
  address := addr
  info0 := info
  cause := 0xE2

/-- INFO0 of an error: its failing bit and syndrome (R337). -/
def foundInfo (x : Found) : Word := word [(8, x.pos.toNat), (0, x.syn.toNat)]

/-- A single-bit error was corrected in a word of a source: CORRECTED, NOTE (R39). The word's address is open.
Log 17 (DESIGN CHOICE, safe). -/
def State.corrected (s : State) (source : Nat) (x : Found) : State :=
  s.useFree.raise (storageEvent source kCorrected .note (foundInfo x) s.freeNow none)

/-- What a step found to correct in a word that it read is reported (R39). -/
def State.fixed (s : State) (source : Nat) (fix : Option Found) : State :=
  match fix with
  | some x => s.corrected source x
  | none => s

/-- An uncorrectable error that belongs to no context: SEVERE (R39). -/
def State.severeError (s : State) (source : Nat) (x : Found) : State :=
  s.useFree.raise (storageEvent source kUncorrectable .severe (foundInfo x) s.freeNow none)

/-! ## Commands -/

/-- A source's event pair has read invalid on 4 consecutive clocks (R329): BROKEN_WIRE, and the
pair is masked until the next compute reset. `ones` says it read (1, 1).
Log 49 (DEDUCED, safe). -/
def execBrokenWire (src : Nat) (ones : Bool) (s : State) : Host.Outcome State Fault Refusal :=
  ok (sourceListed src = true) <| s.when (s.powered && !(s.source src).masked) fun s =>
    let x := s.source src
    let s := s.setSource src { x with masked := true }
    s.raise { source := src, kind := kBrokenWire
              cls := if src = srcAudit ∨ src = srcArbiter ∨ src = srcCollector then .grave else .severe
              info0 := if ones then 3 else 0
              injected := x.forced }

end Sys2Proof.Machine
end

