-- ==== Sys2Proof/WellFormed.lean ====
section
/-! DEFINITION. The ranges of the numbers that commands name: units that some access path can
spell. A command outside them names nothing, and its meaning stops with `noSuchUnit`. -/

namespace Sys2Proof

/-- Queue number (R46).
Log 5 (DESIGN CHOICE, safe). -/
abbrev isQueue (q : Nat) : Prop := q < 4096
/-- Half (R13). -/
abbrev isHalf (h : Nat) : Prop := h < 2
/-- Node slot: half · 32,768 + index (R37, R108).
Log 5 (DESIGN CHOICE, safe). -/
abbrev isNode (n : Nat) : Prop := n < 65536
/-- Furrow number (R14).
Log 5 (DESIGN CHOICE, safe). -/
abbrev isFurrow (f : Nat) : Prop := f < 600
/-- Context number (R275). -/
abbrev isCtx (c : Nat) : Prop := c < 1024
/-- Partition number (R287). -/
abbrev isPart (p : Nat) : Prop := p < 12
/-- Logical control core (R209). -/
abbrev isCore (k : Nat) : Prop := k < 24
/-- Frame of a control core (R212). -/
abbrev isFrame (f : Nat) : Prop := f < 8
/-- Register field of a control-core instruction (R209). -/
abbrev isReg (r : Nat) : Prop := r < 32
/-- Coherence agent (R306). -/
abbrev isAgent (a : Nat) : Prop := a < 30
/-- Break unit (R432). -/
abbrev isBreak (u : Nat) : Prop := u < 8
/-- Port whose acknowledgement is awaited: an engine or link port by its furrow, the host port
600, the memory port 601, the other half's resolver 602 (R291).
Log 5 (DESIGN CHOICE, safe). -/
abbrev isPort (p : Nat) : Prop := p < 608
/-- The partition of a function, 0 for the PF (R286). -/
def fnPart : Fn → Nat
  | .pf => 0
  | .vf p => p
/-- The PF, or the VF of a partition (R286). -/
abbrev isFn (fn : Fn) : Prop := fnPart fn < 12

/-- Three register fields. -/
abbrev areRegs (rd ra rb : Nat) : Prop := rd < 32 ∧ ra < 32 ∧ rb < 32

end Sys2Proof
end

