-- ==== Sys2Proof/Machine/Coherence.lean ====
section
/-! DEFINITION. The coherence protocol of Pliat's tables (R306-R327): lines, homes and agents, the
directory, the retry lists and the messages in flight. The values of the tables stand once in
State; what the protocol decides is when an agent may read or write its copy of a line (log 11). -/

namespace Sys2Proof.Machine

/-! ## Lines and homes -/

/-- Lines of a table (R307): 32 of each node slot, one for four objects or slots, eight of each
queue context. -/
def linesOf : CohTable → Nat
  | .desc => 2097152
  | .hive => 65536
  | .scale => 16384
  | .queue => 32768

/-- A line that exists. -/
abbrev isLine (l : CohLine) : Prop := l.index < linesOf l.table

/-- The line's number among all coherent lines. -/
def lineKey (l : CohLine) : Nat :=
  match l.table with
  | .desc => l.index
  | .hive => 2097152 + l.index
  | .scale => 2162688 + l.index
  | .queue => 2179072 + l.index

/-- The line's home: 0 and 1 in the halves, 2 the common home (R307). -/
def lineHome (l : CohLine) : Nat :=
  match l.table with
  | .desc => l.index / 1048576
  | .hive => l.index / 32768
  | .scale => 2
  | .queue => l.index / 16384

/-- The half an agent lies in (R306). -/
def halfOfAgent (a : Nat) : Nat := if a < 4 then a % 2 else if a < 17 then 0 else 1

/-- Agents that may hold a copy of a line, and writable (R307). -/
def mayHold (a : Nat) (l : CohLine) : Bool :=
  match l.table with
  | .desc => decide (4 ≤ a) || a == (lineHome l)
  | .hive => decide (4 ≤ a) || a == 2 + (lineHome l)
  | .scale | .queue => decide (4 ≤ a)
def mayWrite (a : Nat) (l : CohLine) : Bool :=
  match l.table with
  | .desc => decide (4 ≤ a) || a == (lineHome l)
  | .hive => a == 2 + (lineHome l)
  | .scale | .queue => false

def State.aline (s : State) (a : Nat) (l : CohLine) : ALine := Tbl.get {} s.agents (a * 4194304 + (lineKey l))
def State.setAline (s : State) (a : Nat) (l : CohLine) (x : ALine) : State :=
  { s with agents := Tbl.set {} s.agents (a * 4194304 + (lineKey l)) x }
def State.dir (s : State) (l : CohLine) : Dir := Tbl.get {} s.dirs (lineKey l)
def State.setDir (s : State) (l : CohLine) (x : Dir) : State :=
  { s with dirs := Tbl.set {} s.dirs (lineKey l) x }

/-- Endpoint of the line's home in messages. -/
def homeEnd (l : CohLine) : Nat := 30 + (lineHome l)

def State.send (s : State) (src dst : Nat) (l : CohLine) (k : MsgKind) : State :=
  { s with net := s.net ++ [{ src := src, dst := dst, line := l, kind := k }] }

/-- Splitting off the first message that satisfies a test, if no message before it has the same
sender and receiver (R311). -/
def takeMsg (p : Msg → Bool) : List Msg → List Msg → Option (Msg × List Msg)
  | _, [] => none
  | before, m :: rest =>
    if p m then
      if before.any fun b => b.src == m.src && b.dst == m.dst then none
      else some (m, before.reverse ++ rest)
    else takeMsg p (m :: before) rest

/-- Delivering the message a command names: it is taken from the network and handled.
Log 11 (DEDUCED, safe). -/
def State.deliver (s : State) (p : Msg → Bool) (f : State → Msg → State) : State :=
  match takeMsg p [] s.net with
  | some (m, rest) => f { s with net := rest } m
  | none => s

/-! ## The home -/

def insertSharer (v : List Nat) (a : Nat) : List Nat := if v.contains a then v else a :: v

/-- A read grant from storage in directory state U (R310, R318). -/
def firstGrant (l : CohLine) : Grant :=
  match l.table with
  | .desc | .hive => .e
  | .scale | .queue => .s

/-- The oldest request of agent r, or home-side write, has been served: it stands no longer among those of the line
(R325). -/
def Dir.drop (d : Dir) (r : Nat) : Dir := { d with arrived := d.arrived.eraseP fun e => e.1 == r }

/-- A request of agent r, or a home-side write, has arrived for the first time. -/
def Dir.note (d : Dir) (r now : Nat) : Dir := { d with arrived := d.arrived ++ [(r, now)] }

/-- A transaction begins: it makes the line BUSY, and its age counts from now (R315, R325). -/
def Dir.start (d : Dir) (t : Txn) (now : Nat) : Dir := { d with txn := some t, began := now }

/-- The home-side write of a line is in storage (R319); RETIRED of queue q lies in line 8q (R227). -/
def State.writeHome (s : State) (l : CohLine) : State :=
  match l.table with
  | .queue => { s with oldRetired := s.oldRetired.filter fun e => 8 * e.1 != l.index }
  | .scale => { s with oldSlots := s.oldSlots.filter fun e => e.1 / 4 != l.index }
  | _ => s

/-- Sending INV to each agent of a list. -/
def State.invAll (s : State) (l : CohLine) (v : List Nat) : State :=
  s.forAll v fun s a => s.send (homeEnd l) a l .inv

/-- Serving a request of agent r on a line that is not BUSY (R318); a read of storage keeps it BUSY until the grant
is sent (R315). Agent 30 is a home-side write (R319). -/
def State.serve (s : State) (l : CohLine) (r : Nat) (q : Req) (shared : Bool) : State :=
  let d := s.dir l
  let fetch := fun (k : MsgKind) (next : DState) =>
    s.setDir l (d.start (.fetch r k next shared s.now) s.now)
  if r = 30 then
    match d.st with
    | .s (a :: v) => (s.setDir l (d.start (.homeWrite (a :: v)) s.now)).invAll l (a :: v)
    | _ => (s.setDir l (d.drop 30)).writeHome l
  else
    match d.st, q with
    | .u, .rds =>
      let g := firstGrant l
      fetch (.data g) (if g = .e then .x r else .s [r])
    | .u, _ => fetch (.data .m) (.x r)
    | .s v, .rds => fetch (.data .s) (.s (insertSharer v r))
    | .s v, q =>
      let gnt := decide (q = .upg) && v.contains r
      let left := v.filter (· ≠ r)
      if left.isEmpty then
        if gnt then (s.setDir l { d.drop r with st := .x r }).send (homeEnd l) r l .gnt
        else fetch (.data .m) (.x r)
      else (s.setDir l (d.start (.inval r gnt left shared) s.now)).invAll l left
    | .x o, .rds =>
      (s.setDir l (d.start (.forward r false shared) s.now)).send (homeEnd l) o l (.fwdS r)
    | .x o, _ =>
      (s.setDir l (d.start (.forward r true shared) s.now)).send (homeEnd l) o l (.fwdX r)

/-- The agents a directory state names. -/
def DState.holders : DState → List Nat
  | .u => []
  | .s v => v
  | .x o => [o]

/-- Taking back a freed DESC line: INV to every holder, then U (R320). -/
def State.takeBack (s : State) (l : CohLine) : State :=
  let d := s.dir l
  let v := d.st.holders
  if v.isEmpty then s.setDir l { d with freed := false }
  else (s.setDir l ({ d with freed := false }.start (.freeing v) s.now)).invAll l v

/-- A line that is no longer BUSY: a freed line is taken back, then the head of the retry list is
served once its request has been reissued (R314).
Log 97 (DESIGN CHOICE, unsafe). -/
def State.serveNext (s : State) (l : CohLine) : Nat → State
  | 0 => s
  | n + 1 =>
    let d := s.dir l
    if d.txn.isSome then s
    else if d.freed then (s.takeBack l).serveNext l n
    else match d.retry with
      | (r, q, true) :: rest => ((s.setDir l { d with retry := rest }).serve l r q false).serveNext l n
      | _ => s

/-- Ending a line's transaction. -/
def State.endTxn (s : State) (l : CohLine) (st : DState) : State :=
  let d := s.dir l
  (s.setDir l { d with st := st, txn := none, began := 0 }).serveNext l (d.retry.length + 2)

/-- Storage has been read: the grant goes, and the line is no longer BUSY. -/
def State.finishFetch (s : State) (l : CohLine) : State :=
  match (s.dir l).txn with
  | some (.fetch r k next _ _) =>
    ((s.setDir l ((s.dir l).drop r)).send (homeEnd l) r l k).endTxn l next
  | _ => s

/-- Storage has been written: the WBACK goes, and the line is no longer BUSY. -/
def State.finishStore (s : State) (l : CohLine) : State :=
  match (s.dir l).txn with
  | some (.store a _) => (s.send (homeEnd l) a l .wback).endTxn l .u
  | _ => s

/-- An access of the home's storage that began in an earlier microsecond has ended; one that began in this
microsecond ends with the message that follows it (log 11).
Log 11 (DEDUCED, safe). -/
def State.settleDir (s : State) (l : CohLine) : State :=
  match (s.dir l).txn with
  | some (.fetch _ _ _ _ t) => if t < s.now then s.finishFetch l else s
  | some (.store _ t) => if t < s.now then s.finishStore l else s
  | _ => s

/-- The home of a line's number. -/
def homeOfKey (k : Nat) : Nat :=
  if k < 2097152 then k / 1048576
  else if k < 2162688 then (k - 2097152) / 32768
  else if k < 2179072 then 2 else (k - 2179072) / 16384

/-- Shared request entries in use at a home (R313). -/
def State.sharedUsed (s : State) (home : Nat) : Nat :=
  (s.dirs.filter fun e =>
    (match e.2.txn with
      | some (.inval _ _ _ sh) | some (.forward _ _ sh) | some (.fetch _ _ _ sh _) => sh
      | _ => false) && homeOfKey e.1 == home).length

/-- Reserved entries agent a holds at a home (R314). -/
def State.reservedUsed (s : State) (a home : Nat) : Nat :=
  (s.dirs.filter fun e =>
    (e.2.retry.any (fun r => r.1 == a) ||
      (match e.2.txn with
        | some (.inval r _ _ sh) | some (.forward r _ sh) | some (.fetch r _ _ sh _) => r == a && !sh
        | _ => false)) && homeOfKey e.1 == home).length

/-- A first request reaches the home (R314). `canAsk` keeps an agent from needing a third reserved entry. -/
def State.firstRequest (s : State) (m : Msg) (q : Req) : State :=
  let l := m.line
  let r := m.src
  let d := s.dir l
  if d.txn.isSome || !d.retry.isEmpty || decide (68 ≤ s.sharedUsed (lineHome l)) then
    (s.setDir l { d.note r s.now with retry := d.retry ++ [(r, q, false)] }).send (homeEnd l) r l .retry
  else (s.setDir l (d.note r s.now)).serve l r q true

/-- A reissued request reaches its reserved entry (R314). By then the storage write that its RETRY met has ended:
the RETRY and the reissue take the 14 clocks of R315. -/
def State.reissue (s : State) (l : CohLine) (r : Nat) (q : Req) : State :=
  let s := s.finishStore l
  let d := s.dir l
  (s.setDir l { d with retry := d.retry.map fun e => if e.1 == r then (r, q, true) else e }).serveNext
    l (d.retry.length + 2)

/-- A request message reaches the home. -/
def State.requestArrives (s : State) (m : Msg) : State :=
  let s := s.settleDir m.line
  match m.kind with
  | .req q true => s.reissue m.line m.src q
  | .req q false => s.firstRequest m q
  | _ => s

/-! ## Simultaneous arrivals (R323) -/

/-- Rank among the messages of one home clock: writebacks and releases, then the agents in ascending order, then
the front end and the steward. -/
def intakeRank (a : Nat) (back : Bool) : Nat := if back then 0 else a + 1
def homeRank (l : CohLine) : Nat := if l.table = .queue then 31 else 32

/-- The home may take the message in: in the clock of the message before, only in R323's order.
Log 11 (DEDUCED, safe). -/
def State.takesIn (s : State) (home rank : Nat) (same : Bool) : Bool :=
  !same || match s.intake.find? fun e => e.1 == home with
    | some e => decide (e.2 ≤ rank)
    | none => true

/-- The home takes a message of a rank in. -/
def State.tookIn (s : State) (home rank : Nat) : State :=
  { s with intake := (home, rank) :: s.intake.filter fun e => e.1 != home }

/-! ## The agent -/

/-- The request a transient state waits for. -/
def AState.request : AState → Option Req
  | .is => some .rds
  | .im => some .rdx
  | .sm => some .upg
  | _ => none

/-- First requests of agent a that are on their way to a home. -/
def State.asking (s : State) (a home : Nat) : Nat :=
  (s.net.filter fun m => m.src == a && lineHome m.line == home && match m.kind with
    | .req _ false => true
    | _ => false).length

/-- The agent may send a further request to a home: with those on their way, each of which may be answered with RETRY,
it needs no third reserved entry there (R313, R314).
Log 11 (DEDUCED, safe). -/
def State.canAsk (s : State) (a home : Nat) : Bool := decide (s.reservedUsed a home + s.asking a home < 2)

/-- An agent whose state is I asks for a copy (R317). -/
def State.localRead (s : State) (a : Nat) (l : CohLine) : State :=
  let x := s.aline a l
  if x.st = .i ∧ mayHold a l = true ∧ s.canAsk a (lineHome l) = true then
    (s.setAline a l { x with st := .is }).send a (homeEnd l) l (.req .rds false)
  else s

/-- An agent asks for a writable copy (R317). E becomes M with no message. -/
def State.localWrite (s : State) (a : Nat) (l : CohLine) : State :=
  let x := s.aline a l
  if mayWrite a l then
    match x.st with
    | .i =>
      if s.canAsk a (lineHome l) then
        (s.setAline a l { x with st := .im }).send a (homeEnd l) l (.req .rdx false)
      else s
    | .s =>
      if s.canAsk a (lineHome l) then
        (s.setAline a l { x with st := .sm }).send a (homeEnd l) l (.req .upg false)
      else s
    | .e => s.setAline a l { x with st := .m }
    | _ => s
  else s

/-- The agent's copy is readable, or writable (R308).
Log 11 (DEDUCED, safe). -/
def State.readable (s : State) (a : Nat) (l : CohLine) : Bool :=
  match (s.aline a l).st with
  | .s | .e | .m => true
  | _ => false
/-- Log 11 (DEDUCED, safe). -/
def State.writable (s : State) (a : Nat) (l : CohLine) : Bool :=
  match (s.aline a l).st with
  | .e | .m => true
  | _ => false

/-- The agent gives up its copy (R317): a retained line stays until its WBACK, and an upgrade becomes a claim. -/
def ALine.givenUp (x : ALine) : ALine :=
  { x with
    st := match x.st with
      | .ei => .ei | .mi => .mi | .sm => .im | _ => .i
    hold := false }

/-- Acting on a forward or an invalidation (R317). A sharer vector can name an agent that no longer
holds the line (R309), so an agent in I answers ACK too. -/
def State.answer (s : State) (a : Nat) (l : CohLine) (k : MsgKind) : State :=
  let x := s.aline a l
  let dirty := decide (x.st = .m) || decide (x.st = .mi)
  let released := decide (x.st = .ei) || decide (x.st = .mi)
  match k with
  | .fwdS r =>
    ((s.setAline a l { x with st := if released then x.st else .s }).send a r l (.data .s)).send
      a (homeEnd l) l (.fack dirty)
  | .fwdX r =>
    ((s.setAline a l { x with st := if released then x.st else .i }).send a r l (.data .m)).send
      a (homeEnd l) l (.fack false)
  | .inv => (s.setAline a l x.givenUp).send a (homeEnd l) l .ack
  | _ => s

/-- A forward or invalidation arrives: kept during a hold and in IS, IM and SM (but an INV in SM is
answered), otherwise acted on (R316, R317).
Log 11 (DEDUCED, safe). -/
def State.probe (s : State) (a : Nat) (l : CohLine) (k : MsgKind) : State :=
  let x := s.aline a l
  let keep := match x.st, k with
    | .is, _ | .im, _ => true
    | .sm, .inv => false
    | .sm, _ => true
    | _, .inv => false
    | _, _ => x.hold
  if keep then s.setAline a l { x with kept := x.kept ++ [k] } else s.answer a l k

/-- Acting on what was kept. -/
def State.release (s : State) (a : Nat) (l : CohLine) : State :=
  let x := s.aline a l
  x.kept.foldl (fun s k => s.answer a l k) (s.setAline a l { x with hold := false, kept := [] })

/-- A grant arrives: the read or write that waited for it is performed first (`f`); then a shared copy acts on what
was kept, and E and M start the hold (R316, R317). -/
def State.granted (s : State) (a : Nat) (l : CohLine) (st : AState) (f : State → State) : State :=
  let x := s.aline a l
  if st = .s then (f (s.setAline a l { x with st := .s })).release a l
  else f (s.setAline a l { x with st := st, hold := true })

/-- DATA in a state that waits for it (R317). -/
def State.dataArrives (s : State) (a : Nat) (l : CohLine) (g : Grant) (f : State → State) : State :=
  match (s.aline a l).st, g with
  | .is, .s => s.granted a l .s f
  | .is, .e => s.granted a l .e f
  | .im, .m | .sm, .m => s.granted a l .m f
  | _, _ => s

/-! ## The accesses of Pliat's own caches (R317, R321) -/

/-- A line that an access of the hive cache or of a descriptor cache needs, to read it or to write it. -/
structure LineNeed where
  agent : Nat
  line  : CohLine
  write : Bool
deriving DecidableEq, Repr

/-- The cache holds the line as the access needs it. -/
def State.lineHeld (s : State) (x : LineNeed) : Bool :=
  if x.write then s.writable x.agent x.line else s.readable x.agent x.line

/-- The local read or write of R317: a hit, which makes M of E for a write, or a request to the line's home. -/
def State.askLine (s : State) (x : LineNeed) : State :=
  if x.write then s.localWrite x.agent x.line else s.localRead x.agent x.line

/-- An access of Pliat's own caches: it is performed once every line is held as it needs it; until then its caches ask
for what they lack, and it waits (R317, R321).
Log 83 (DESIGN CHOICE, safe). -/
def State.withLines (s : State) (xs : List LineNeed) (wait f : State → State) : State :=
  if xs.all s.lineHeld then f (xs.foldl State.askLine s)
  else wait ((xs.filter fun x => !s.lineHeld x).foldl State.askLine s)

/-- The descriptor cache has read a line for everything that still had to read it (R317). -/
def State.lineRead (s : State) (l : CohLine) : State :=
  { s with reads := s.reads.map fun e => (e.1, e.2.filter (· ≠ l)) }

/-- The reads of command c begin: a line that the cache holds is read at once, and it asks for the others. -/
def State.beginReads (s : State) (c : Instr) (xs : List LineNeed) : State :=
  let left := xs.filter fun x => !s.lineHeld x
  left.foldl State.askLine { s with
    reads := (s.reads.filter fun e => e.1 != c) ++ [(c, left.map (·.line))] }

/-- The reads of command c, which `wait` holds: each is complete with its own grant, or at once where the cache holds
the line; the command is performed when all are (R317).
Log 83 (DESIGN CHOICE, safe). -/
def State.withReads (s : State) (c : Instr) (xs : List LineNeed) (wait f : State → State) : State :=
  let open1 := match s.reads.find? fun e => e.1 == c with
    | some e => xs.filter fun x => e.2.contains x.line
    | none => xs
  if open1.all s.lineHeld then f { s with reads := s.reads.filter fun e => e.1 != c }
  else wait (s.beginReads c open1)

/-- The line of a hive object. -/
def hiveLineOf (n : Nat) : CohLine := { table := .hive, index := n / 4 }

/-- The line of an object in the hive cache of the object's half. -/
def hiveNeed (n : Nat) (write : Bool) : LineNeed :=
  { agent := 2 + halfOfObj n, line := hiveLineOf n, write := write }

/-- What a hive does of its own accord is done once its cache holds the object's line. -/
def State.whenHeld (s : State) (n : Nat) (w : LineWork) (f : State → State) : State :=
  s.withLines [hiveNeed n true] (fun s => { s with lineWork := s.lineWork ++ [w] }) f

/-! ## Descriptor lines (R317, R320) -/

/-- Descriptor line i of node slot n. -/
def descLine (n i : Nat) : CohLine := { table := .desc, index := 32 * n + i }

/-- Line i of node slot n in the descriptor cache of its half. -/
def descNeed (n i : Nat) (write : Bool) : LineNeed :=
  { agent := lineHome (descLine n i), line := descLine n i, write := write }

/-- The descriptor caches ask again for lines they still have to read and do not hold. -/
def State.askReads (s : State) : State :=
  (s.reads.flatMap Prod.snd).foldl (fun s l =>
    s.askLine { agent := lineHome l, line := l, write := false }) s

/-- The lines of a sheaf, which the descriptor cache reads for the fabric, or for an image build (R317). -/
def sheafNeeds (n len : Nat) : List LineNeed := (List.range len).map fun i => descNeed n i false

/-- The descriptor cache takes a sheaf's lines in M, with a hold and no message.
Log 64 (DEDUCED, unsafe). -/
def State.allocLines (s : State) (n len : Nat) : State :=
  s.forAll (List.range len) fun s i =>
    let l := descLine n i
    (s.setDir l { s.dir l with st := .x (lineHome l) }).setAline (lineHome l) l { st := .m, hold := true }

/-- The lines of a slot are freed: the home sends INV to every holder.
Log 64 (DEDUCED, unsafe). -/
def State.freeLines (s : State) (n len : Nat) : State :=
  let s := { s with
    reads := s.reads.filter fun e => !e.2.any fun l => decide (l.table = CohTable.desc) && l.index / 32 == n }
  s.forAll (List.range len) fun s i =>
    let l := descLine n i
    (s.setDir l { s.dir l with freed := true }).serveNext l ((s.dir l).retry.length + 2)

/-- Every line of a slot is back in U, with nothing in progress.
Log 64 (DEDUCED, unsafe). -/
def State.linesFree (s : State) (n : Nat) : Bool :=
  !s.dirs.any fun e => decide (32 * n ≤ e.1) && decide (e.1 < 32 * n + 32)

/-! ## Commands -/

/-- The line's home is in service (R327). -/
def State.homeUp (s : State) (l : CohLine) : Bool := s.up && (lineHome l == 2 || s.inService (lineHome l))

/-- The agent takes part: its half and the line's home are in service (R327). -/
def State.coherent (s : State) (a : Nat) (l : CohLine) : Bool := s.homeUp l && s.inService (halfOfAgent a)

/-- The directory entry is looked up for a message or a home-side write: an uncorrectable error in it is SEVERE and
nothing is served, a single-bit error is corrected and reported (R326). -/
def State.lookup (s : State) (l : CohLine) (bad : Option Found) (f : State → State) : State :=
  match bad with
  | none => f s
  | some x =>
    if x.unc then s.severeError (srcHome (lineHome l)) x else f (s.corrected (srcHome (lineHome l)) x)

/-- A request of agent a reaches the home of a line. -/
def State.request (s : State) (a : Nat) (l : CohLine) (q : Req) (same : Bool) (bad : Option Found) : State :=
  s.when (s.takesIn (lineHome l) (intakeRank a false) same) fun s =>
    s.deliver (fun m => m.src == a && m.line == l && (m.kind == .req q true || m.kind == .req q false)) fun s m =>
      (s.tookIn (lineHome l) (intakeRank a false)).lookup l bad fun s => s.requestArrives m

/-- An RDS reaches its home; an agent in I first makes its local read (R317, R318). -/
def execRds (a : Nat) (h : HomeRequest) (s : State) : Host.Outcome State Fault Refusal :=
  ok (isAgent a ∧ isLine h.line) <| s.when (s.coherent a h.line) fun s =>
    (s.localRead a h.line).request a h.line .rds h.same h.bad

/-- An RDX reaches its home; an agent in I first makes its local write. -/
def execRdx (a : Nat) (h : HomeRequest) (s : State) : Host.Outcome State Fault Refusal :=
  ok (isAgent a ∧ isLine h.line) <| s.when (s.coherent a h.line) fun s =>
    (if (s.aline a h.line).st = .i then s.localWrite a h.line else s).request a h.line .rdx h.same h.bad

/-- A UPG reaches its home; an agent in S first makes its local write. -/
def execUpg (a : Nat) (h : HomeRequest) (s : State) : Host.Outcome State Fault Refusal :=
  ok (isAgent a ∧ isLine h.line) <| s.when (s.coherent a h.line) fun s =>
    (if (s.aline a h.line).st = .s then s.localWrite a h.line else s).request a h.line .upg h.same h.bad

/-- A writeback or release reaches the home: accepted always. The owner's is written to storage, which keeps the
line BUSY until its WBACK goes, unless a forward is under way; any other is discarded (R313, R315, R318). -/
def State.writeBack (s : State) (m : Msg) : State :=
  let l := m.line
  let s := (s.tookIn (lineHome l) (intakeRank m.src true)).settleDir l
  let d := s.dir l
  if d.txn.isNone && d.st == .x m.src then s.setDir l (d.start (.store m.src s.now) s.now)
  else s.send (homeEnd l) m.src l .wback

/-- WBC reaches the home. -/
def execWbc (a : Nat) (h : HomeArrival) (s : State) : Host.Outcome State Fault Refusal :=
  ok (isAgent a ∧ isLine h.line) <|
    s.when (s.coherent a h.line && s.takesIn (lineHome h.line) (intakeRank a true) h.same) fun s =>
      s.deliver (fun m => m.src == a && m.line == h.line && m.kind == .wbc) fun s m =>
        s.lookup h.line h.bad fun s => s.writeBack m

/-- RETRY reaches the agent, which reissues its request with the reservation (R314). -/
def execRetry (a : Nat) (l : CohLine) (s : State) : Host.Outcome State Fault Refusal :=
  ok (isAgent a ∧ isLine l) <| s.when (s.coherent a l) fun s =>
    s.deliver (fun m => m.dst == a && m.line == l && m.kind == .retry) fun s _ =>
      match (s.aline a l).st.request with
      | some q => s.send a (homeEnd l) l (.req q true)
      | none => s

/-- A message carries data. -/
def MsgKind.grant : MsgKind → Option Grant
  | .data g => some g
  | _ => none

/-- A forward for a read, or for a claim. -/
def MsgKind.isFwdS : MsgKind → Bool
  | .fwdS _ => true
  | _ => false
def MsgKind.isFwdX : MsgKind → Bool
  | .fwdX _ => true
  | _ => false

/-- FWD_S reaches the owner. -/
def execFwdS (a : Nat) (l : CohLine) (s : State) : Host.Outcome State Fault Refusal :=
  ok (isAgent a ∧ isLine l) <| s.when (s.coherent a l) fun s =>
    s.deliver (fun m => m.dst == a && m.line == l && m.kind.isFwdS) fun s m => s.probe a l m.kind

/-- FWD_X reaches the owner. -/
def execFwdX (a : Nat) (l : CohLine) (s : State) : Host.Outcome State Fault Refusal :=
  ok (isAgent a ∧ isLine l) <| s.when (s.coherent a l) fun s =>
    s.deliver (fun m => m.dst == a && m.line == l && m.kind.isFwdX) fun s m => s.probe a l m.kind

/-- INV reaches the agent.
Log 11 (DEDUCED, safe). -/
def execInv (a : Nat) (l : CohLine) (s : State) : Host.Outcome State Fault Refusal :=
  ok (isAgent a ∧ isLine l) <| s.when (s.coherent a l) fun s =>
    s.deliver (fun m => m.dst == a && m.line == l && m.kind == .inv) fun s _ => s.probe a l .inv

/-- An ACK reaches the home: the last one lets the grant go (R318), ends a home-side write (R319)
or the taking back of a freed line (R320). -/
def State.ackArrives (s : State) (m : Msg) : State :=
  let l := m.line
  let d := s.dir l
  let less := fun (v : List Nat) => v.filter (· ≠ m.src)
  match d.txn with
  | some (.inval r gnt left sh) =>
    if (less left).isEmpty then
      ((s.setDir l (d.drop r)).send (homeEnd l) r l (if gnt then .gnt else .data .m)).endTxn l (.x r)
    else s.setDir l { d with txn := some (.inval r gnt (less left) sh) }
  | some (.homeWrite left) =>
    if (less left).isEmpty then ((s.setDir l (d.drop 30)).writeHome l).endTxn l .u
    else s.setDir l { d with txn := some (.homeWrite (less left)) }
  | some (.freeing left) =>
    if (less left).isEmpty then s.endTxn l .u
    else s.setDir l { d with txn := some (.freeing (less left)) }
  | _ => s

/-- 48 control clocks after a grant of E or M the hold ends (R316). -/
def execHoldEnd (a : Nat) (l : CohLine) (s : State) : Host.Outcome State Fault Refusal :=
  ok (isAgent a ∧ isLine l) <| s.when (s.coherent a l && (s.aline a l).hold) fun s => s.release a l

/-- A furrow entry refers to the sheaf of a node slot, or has done: its lines stay in the descriptor cache until it
has retired (R37). -/
def State.linesPinned (s : State) (n : Nat) : Bool :=
  match s.node n with
  | some d => d.started || s.furrows.any fun e => e.2.entries.any fun x => x.node == n
  | none => false

/-- The line may leave the agent: a descriptor cache keeps what a furrow entry refers to (R37). -/
def State.evictable (s : State) (a : Nat) (l : CohLine) : Bool :=
  !(s.aline a l).hold && !(decide (l.table = .desc) && a == lineHome l && s.linesPinned (l.index / 32))

/-- An eviction: silent for S, a release or a writeback for E or M after the hold (R317). -/
def execAgentEviction (a : Nat) (l : CohLine) (s : State) : Host.Outcome State Fault Refusal :=
  ok (isAgent a ∧ isLine l) <| s.when (s.coherent a l && s.evictable a l) fun s =>
    let x := s.aline a l
    match x.st with
    | .s => s.setAline a l { x with st := .i }
    | .e => (s.setAline a l { x with st := .ei }).send a (homeEnd l) l .wbc
    | .m => (s.setAline a l { x with st := .mi }).send a (homeEnd l) l .wbd
    | _ => s

/-- The front end writes a QUEUE line, or the steward a SCALE line, at the home: the write waits its turn, every
sharer gives up its copy, and then storage holds the value (R319).
Log 11 (DEDUCED, safe). -/
def execHomeSideWrite (h : HomeArrival) (s : State) : Host.Outcome State Fault Refusal :=
  ok (isLine h.line) <| s.when (s.homeUp h.line && (h.line.table == .queue || h.line.table == .scale) &&
      s.takesIn (lineHome h.line) (homeRank h.line) h.same) fun s =>
    let l := h.line
    (s.tookIn (lineHome l) (homeRank l)).lookup l h.bad fun s =>
      let s := s.settleDir l
      let d := s.dir l
      (s.setDir l { d.note 30 s.now with retry := d.retry ++ [(30, .rds, true)] }).serveNext l (d.retry.length + 2)

/-- A request of the line that has not been served was first made, or its transaction began, 10,000 clocks ago (R325):
6.25 µs, which the count of whole microseconds shows once it has moved by 7.
Log 11 (DEDUCED, safe). -/
def Dir.overdue (d : Dir) (now : Nat) : Bool :=
  (d.arrived.any fun e => decide (e.2 + 7 ≤ now)) || (d.txn.isSome && decide (d.began + 7 ≤ now))

/-- A home finds a transaction older than 10,000 clocks: COHERENCE, SEVERE (R325, R331).
Log 11 (DEDUCED, safe). -/
def execCoherenceTimeout (l : CohLine) (s : State) : Host.Outcome State Fault Refusal :=
  ok (isLine l) <| s.when (s.homeUp l && (s.dir l).overdue s.now) fun s =>
    s.raise { source := srcHome (lineHome l), kind := kCoherence, cls := .severe }

end Sys2Proof.Machine
end

