-- ==== Sys2Proof/Machine/Heads.lean ====
section
/-! DEFINITION. The lists of a furrow and their heads (R130, R131), eligibility (R126), and what
follows a change of a furrow's heads: deficits, the wait of an urgent head, lending (R132, R270,
R299). -/

namespace Sys2Proof.Machine

/-- The token store has an entry for a context, generation and value (R126). -/
def Furrow.hasTok (f : Furrow) (c : Nat) (gen : BitVec 12) (v : BitVec 16) : Bool :=
  f.tokens.any fun t => t.ctx == c && t.gen == gen && t.value == v

/-- Taking one token (R126): the entry vanishes at count 0. -/
def Furrow.takeTok (f : Furrow) (c : Nat) (gen : BitVec 12) (v : BitVec 16) : Furrow :=
  let left := f.tokens.map fun t =>
    if t.ctx = c ∧ t.gen = gen ∧ t.value = v then { t with count := t.count - 1 } else t
  { f with tokens := left.filter fun t => t.count != 0 }

/-- WAITTOK is 0 or present (R131). -/
def Furrow.eligible (f : Furrow) (e : Entry) : Bool :=
  decide (e.waittok = 0) || f.hasTok e.ctx e.gen e.waittok

/-- The heads of the queues' lists, in the order of the furrow's entries. -/
def headsFrom (seen : List Nat) : List Entry → List Entry
  | [] => []
  | e :: es => if seen.contains e.queue then headsFrom seen es else e :: headsFrom (e.queue :: seen) es

def Furrow.heads (f : Furrow) : List Entry := headsFrom [] f.entries

/-- Some head is eligible. -/
def Furrow.anyEligible (f : Furrow) : Bool := f.heads.any f.eligible

/-- After a change at local time `now`, the oscillator trimmed or not: a context without a sheaf in the furrow has
deficit 0 (R132), the waits of an urgent head and of an idle core begin or end. -/
def Furrow.touch (now : Nat) (trimmed : Bool) (f : Furrow) : Furrow :=
  { f with
    deficits := f.deficits.filter fun d => f.entries.any fun e => e.ctx == d.1
    urgentSince :=
      if f.heads.any (fun e => e.prio == 0 && f.eligible e) then
        some (f.urgentSince.getD (now, trimmed))
      else none
    quiet := if f.run.isSome || f.anyEligible then none else some (f.quiet.getD now) }

/-- Changing a furrow, with what follows. -/
def State.onFurrow (s : State) (f : Nat) (g : Furrow → Furrow) : State :=
  s.modFurrow f fun x => (g x).touch s.now s.trimmed

/-- The furrows of core i: 3i to 3i + 2 (R14). -/
def coreFurrows (i : Nat) : List Nat := [3 * i, 3 * i + 1, 3 * i + 2]

/-- The marks of cores one of whose furrows has an eligible head clear (R270). -/
def State.wakeLent (s : State) : State :=
  let woken := s.lent.filter fun i => (coreFurrows i).any fun f => (s.furrow f).anyEligible
  { s with lent := s.lent.filter fun i => !woken.contains i }.driveAll
    (woken.map fun i => Out.lendable i false)

/-- The shadow bank holds a sheaf that was granted in TOKEN state and is still not eligible (R137). -/
def Furrow.parkedIdle (f : Furrow) : Bool :=
  match f.shadow with
  | some sh => sh.parked && !f.eligible sh.entry
  | none => false

end Sys2Proof.Machine
end

