-- ==== Sys2Proof/Machine/Resolver.lean ====
section
/-! DEFINITION. The graph resolver's part in retirement: completion records (R68-R75), RETIRED, the
record of R110, edges (R116-R119), queue timers (R76), break units and pauses (R434, R435), and the
retirement of a sheaf or of a CALL's child (R71, R231, R233). -/

namespace Sys2Proof.Machine

/-! ## Completion records -/

/-- The record ring is full (R74). -/
def Queue.recFull (x : Queue) : Bool := x.recWritten - x.recAck == 64

/-- The four words of a record (R68), number m of its queue (R70). -/
def recordWords (r : Record) (m : Nat) (now : Nat) : List Word :=
  [ r.seq,
    word [(32, r.tag.toNat), (24, r.status.toNat), (12, r.gen.toNat), (0, r.queue)],
    word [(48, r.executed.toNat), (32, r.count.toNat), (0, now % 2 ^ 32)],
    word [(32, r.detail.toNat), (22, r.furrow.toNat), (1, b2n r.retire), (0, b2n (m / 64 % 2 == 0))] ]

/-- Writing a record into slot m mod 64 of the ring (R70), stamped with the context's current generation (R290). -/
def State.writeRecord (s : State) (r : Record) : State :=
  let x := s.queue r.queue
  let m := x.recWritten.toNat
  (s.setQueue r.queue { x with recWritten := x.recWritten + 1 }).drive
    (.memWrite (s.stampOf x.ctx (s.ctx x.ctx).gen) x.recHost (x.recBase + BitVec.ofNat 64 (32 * (m % 64)))
      (recordWords r m s.now))

/-- Producing a record: written, or held while the ring is full (R74). -/
def State.putRecord (s : State) (r : Record) : State :=
  let x := s.queue r.queue
  if x.recFull then s.setQueue r.queue { x with held := x.held ++ [r] } else s.writeRecord r

/-- A sequence number of the queue has retired (R110). -/
def Queue.isRetired (x : Queue) (n : Nat) : Bool :=
  decide (n < x.retired.toNat) || (Tbl.get none x.record n).isSome

/-- A held retire record covers a sequence number (R74). -/
def Queue.heldCovers (x : Queue) (n : Nat) : Bool :=
  x.held.any fun r => r.retire && decide (r.seq.toNat ≤ n) && decide (n < r.seq.toNat + r.count.toNat)

/-- RETIRED moves past every contiguously retired sheaf whose retire record is not held (R53, R74). -/
def Queue.advance (x : Queue) : Nat → Queue
  | 0 => x
  | k + 1 =>
    match Tbl.get none x.record x.retired.toNat with
    | some r =>
      if x.heldCovers x.retired.toNat then x
      else { x with retired := x.retired + 1, lastTag := r.tag, lastStatus := r.status }.advance k
    | none => x

/-- The next sequence number is given out; the record keeps the 4,096 below it (R65, R110). -/
def Queue.number (x : Queue) : Queue :=
  { x with
    nextSeq := x.nextSeq + 1
    record := if 4096 ≤ x.nextSeq.toNat then Tbl.del x.record (x.nextSeq.toNat - 4096) else x.record }

/-! ## Pauses and timers -/

/-- A context is paused by a break unit (R435). -/
def State.breakPaused (s : State) (c : Nat) : Bool :=
  s.breaks.any fun e => e.2.hit && e.2.ctx.toNat == c

/-- QSTATUS.PAUSED: only user queues pause (R434, R435). -/
def State.qPaused (s : State) (q : Nat) : Bool :=
  decide ((s.queue q).kind = .user) && s.breakPaused (s.queue q).ctx

/-- The queue timer of node n restarts (R76); it does not run while the queue is paused (R435). -/
def State.restartTimer (s : State) (n : Nat) : State :=
  s.modNode n fun d => { d with
    timer := if s.qPaused d.queue then none else some (s.dueIn (s.queue d.queue).timeout) }

/-- The timer a sheaf of queue q starts with. -/
def State.newTimer (s : State) (q : Nat) : Option Nat :=
  if s.qPaused q then none else some (s.dueIn (s.queue q).timeout)

/-- Discarding a preload: the entry keeps its place at the head of its list (R137), and a charge taken at its grant
is not given back.
Log 73 (DESIGN CHOICE, unsafe). -/
def State.discard (s : State) (f : Nat) : State :=
  match (s.furrow f).shadow with
  | some sh => (s.modFurrow f fun x => { x with shadow := none }).drive (.discard f sh.entry.node)
  | none => s

/-- Discarding every preload whose entry satisfies a test. -/
def State.discardWhere (s : State) (p : Entry → Bool) : State :=
  s.forAll (s.furrows.keys fun _ x => match x.shadow with
    | some sh => p sh.entry
    | none => false) State.discard

/-- The pause of a context's user queues begins: their preloads are discarded and their timers stop
(R435).
Log 34 (DEDUCED, unsafe). -/
def State.beginPause (s : State) (c : Nat) : State :=
  let hit := fun (q : Nat) => decide ((s.queue q).ctx = c) && decide ((s.queue q).kind = .user)
  let s := s.discardWhere fun e => hit e.queue
  { s with nodes := s.nodes.mapAll none fun _ o => o.map fun d =>
      if hit d.queue then { d with timer := none } else d }

/-- A unit fires: HIT is set and the context pauses (R434).
Log 31 (DEDUCED, unsafe). -/
def State.fireBreak (s : State) (u : Nat) : State :=
  let b := s.brk u
  (s.setBrk u { b with hit := true }).beginPause b.ctx.toNat

/-- Retirements of a queue's sheaves are counted by the armed units in count mode (R434); a count that has
reached VALUE has stopped.
Log 31 (DEDUCED, unsafe). -/
def State.countBreaks (s : State) (q n : Nat) : State :=
  if (s.queue q).kind = .user then
    s.forAll (s.breaks.keys fun _ b =>
      decide (b.mode = 1) && !b.hit && decide (b.counted.toNat < max 1 b.value.toNat) &&
        decide (b.ctx.toNat = (s.queue q).ctx)) fun s u =>
        let b := s.brk u
        let b := { b with counted := satVal 32 (b.counted.toNat + n) }
        let s := s.setBrk u b
        if max 1 b.value.toNat ≤ b.counted.toNat then s.fireBreak u else s
  else s

/-- The release of a sheaf matches the armed units in tag mode (R434): the units that fire.
Log 31 (DEDUCED, unsafe). -/
def State.tagBreaks (s : State) (q : Nat) (tag : BitVec 32) : List Nat :=
  if (s.queue q).kind = .user then
    s.breaks.keys fun _ b =>
      decide (b.mode = 2) && !b.hit && decide (b.ctx.toNat = (s.queue q).ctx) &&
      decide (tag &&& b.mask = b.value &&& b.mask)
  else []

/-! ## Edges -/

/-- What a half knows of a source: `none` while it has not retired, otherwise whether it is known
to have retired with EXECUTED 0 (R89, R116). -/
def Queue.source (x : Queue) (n : Nat) : Option Bool :=
  match Tbl.get none x.record n with
  | some r => some r.zero
  | none => if n < x.retired.toNat then some false else none

/-- An edge whose source retires: open edges are satisfied, registered ones get a notice (R117). -/
def Edge.settle (e : Edge) (hit : EdgeTarget → Bool) (zero : Bool) : Edge :=
  if hit e.target then
    match e.st with
    | .open => { e with st := .done zero }
    | .registered => { e with st := .noticed zero }
    | _ => e
  else e

/-- Every edge that names a source follows its retirement (R116, R118). -/
def State.settleEdges (s : State) (hit : EdgeTarget → Bool) (zero : Bool) : State :=
  { s with nodes := s.nodes.mapAll none fun _ o => o.map fun d =>
      { d with edges := d.edges.map fun e => e.settle hit zero } }

def EdgeTarget.isSeq (q n : Nat) : EdgeTarget → Bool
  | .seq q' n' => q' == q && n' == n
  | _ => false
def EdgeTarget.isIssue (i : Nat) : EdgeTarget → Bool
  | .issue j => j == i
  | _ => false
/-- Log 25 (DEDUCED, unsafe). -/
def EdgeTarget.ofQueue (q : Nat) : EdgeTarget → Bool
  | .seq q' _ => q' == q
  | _ => false

/-! ## Runs of control cores (R215) -/

/-- A run comes before another: lower priority number, then ready longer (R215). -/
def Run.before (a b : Run) : Bool :=
  decide (a.prio < b.prio) || (a.prio == b.prio && decide (a.readyAt < b.readyAt))

/-- The frame of the run that the core takes when it switches, among those that satisfy a test; a run
whose CALL has ended is not taken. -/
def State.nextRun (s : State) (k : Nat) (p : Run → Bool) : Option Nat :=
  ((s.core k).frames.foldl (fun (b : Option (Nat × Run)) e => match e.2 with
    | .run r =>
      let live := match s.node r.call with
        | some d => decide (d.phase = .core)
        | none => false
      if p r && live then match b with
        | none => some (e.1, r)
        | some (i, x) => if r.before x then some (e.1, r) else some (i, x)
      else b
    | _ => b) none).map Prod.fst

/-- A run becomes the current run of its core. -/
def State.makeCurrent (s : State) (k fr : Nat) : State :=
  s.modCore k fun c => { c with current := some fr, currentAt := s.now }

/-- A core without a current run takes the next ready one. -/
def State.pickRun (s : State) (k : Nat) : State :=
  match (s.core k).current, s.nextRun k fun r => decide (r.st = .ready) with
  | none, some fr => s.makeCurrent k fr
  | _, _ => s

/-- The current run stops being current, and the time it was is counted (R304).
Log 3 (DESIGN CHOICE, unsafe). -/
def State.leaveCore (s : State) (k : Nat) : State :=
  match (s.core k).current with
  | none => s
  | some fr =>
    let ns := BitVec.ofNat 64 (s.nsSince (s.core k).currentAt)
    let s := match s.runAt k fr with
      | some r => s.useFree.modAcct r.ctx fun a => { a with busyCore := a.busyCore + ns }
      | none => s
    s.modCore k fun c => { c with current := none }

/-- A run becomes ready (R215); an idle core takes it. -/
def State.readyRun (s : State) (k fr : Nat) : State :=
  match s.runAt k fr with
  | some r => ((s.setRun k fr { r with st := .ready, readyAt := s.stamp }).tickStamp).pickRun k
  | none => s

/-- The frame of core k that a test selects. -/
def State.frameWhere (s : State) (k : Nat) (p : Run → Bool) : Option Nat :=
  (((s.core k).frames.keys fun _ f => match f with
    | .run r => p r
    | _ => false)).head?


/-! ## Node slots -/

/-- Reserved node slots and queues per half for a group of g chips. -/
def reserveOf (g : Nat) : Nat × Nat :=
  if g ≤ 8 then (656, 41)
  else if g ≤ 64 then (1024, 64)
  else if g ≤ 256 then (1639, 103)
  else if g ≤ 1024 then (2458, 154)
  else if g ≤ 4095 then (3277, 205)
  else (4096, 256)

/-- Queue q is a recovery queue of its half. -/
def State.isRecovery (s : State) (q : Nat) : Bool :=
  decide (2048 - (reserveOf s.regs.groupchips.toNat).2 ≤ q % 2048)

/-- Occupied node slots of a half. -/
def State.occupied (s : State) (h : Nat) : Nat :=
  (s.nodes.filter fun e => e.1 / 32768 == h).length

/-- R114 lets the queue's sheaves take a node slot.
Log 18 (DESIGN CHOICE, unsafe). -/
def State.slotAvailable (s : State) (q : Nat) : Bool :=
  let used := s.occupied (halfOfQueue q)
  if decide ((s.queue q).kind = .pf) || s.isRecovery q then decide (used < 32768)
  else decide (used < 32768 - (reserveOf s.regs.groupchips.toNat).1)

/-- The lowest free node slot from n on whose descriptor lines have been taken back (R320).
Log 18 (DESIGN CHOICE, unsafe). -/
def State.findSlot (s : State) (n : Nat) : Nat → Option Nat
  | 0 => none
  | k + 1 => if (s.node n).isNone && s.linesFree n then some n else s.findSlot (n + 1) k

/-- Log 18 (DESIGN CHOICE, unsafe). -/
def State.freeSlot (s : State) (h : Nat) : Option Nat := s.findSlot (32768 * h) 32768

/-- Lines of the descriptor cache of half h that may not leave it: those of sheaves that a furrow entry refers to
(R37). -/
def State.pinnedLines (s : State) (h : Nat) : Nat :=
  (s.nodes.map fun e => match e.2 with
    | some d => if e.1 / 32768 = h ∧ s.linesPinned e.1 = true then d.lineCount else 0
    | none => 0).foldl (· + ·) 0

/-- The descriptor cache of half h, of 49,152 lines, can take more lines (R37, R234).
Log 64 (DEDUCED, unsafe). -/
def State.cacheRoom (s : State) (h lines : Nat) : Bool := decide (s.pinnedLines h + lines ≤ 49152)

/-- A run may issue a child of so many lines: it holds fewer than 255 handles, R114 gives it a node slot, and the
descriptor cache takes the lines (R234).
Log 64 (DEDUCED, unsafe). -/
def State.mayIssue (s : State) (r : Run) (lines : Nat) : Bool :=
  decide (r.handles.length < 255) && s.slotAvailable r.queue && (s.freeSlot (halfOfQueue r.queue)).isSome &&
  s.cacheRoom (halfOfQueue r.queue) lines

/-- Runs that wait for a node slot, and that could now issue, become ready (R215, R234). -/
def State.wakeIssuers (s : State) : State :=
  s.forAll (s.cores.map Prod.fst) fun s k =>
    s.forAll ((s.core k).frames.map Prod.fst) fun s fr =>
      match s.runAt k fr with
      | some r => match r.st with
        | .nodeSlot n => if s.mayIssue r n then s.readyRun k fr else s
        | _ => s
      | none => s

/-- A live handle keeps the descriptor of an issue (R228, R231).
Log 84 (DEDUCED, unsafe). -/
def State.handleKeeps (s : State) (call issue : Nat) : Bool :=
  s.cores.any fun e => e.2.frames.any fun x => match x.2.run? with
    | some r => r.call == call && r.handles.any fun h => h.issue == issue
    | none => false

/-- A node slot is freed; its descriptor lines are freed with it, unless a live handle keeps them (R108, R228, R320).
Runs that waited for it become ready.
Log 84 (DEDUCED, unsafe). -/
def State.freeNode (s : State) (n : Nat) : State :=
  match s.node n with
  | some d =>
    let kept := match d.child with
      | some (call, i) => s.handleKeeps call i
      | none => false
    let s := s.setNode n none
    (if kept then s else s.freeLines n d.lines.length).wakeIssuers
  | none => s

/-- A handle no longer names an issue: the descriptor lines of one that has retired are freed; those of another are
freed when it retires.
Log 84 (DEDUCED, unsafe). -/
def State.letGo (s : State) (h : Handle) : State :=
  match s.node h.slot with
  | some _ => s
  | none => (s.freeLines h.slot h.lines.length).wakeIssuers

/-- PL_ABORTQ.BUSY clears when every covered sheaf has retired (R297). -/
def State.checkAbortBusy (s : State) : State :=
  if s.regs.abortBusy ∧
      (s.nodesWhere fun _ d => d.aborted && d.child.isNone && d.queue == s.regs.abortQueue.toNat &&
        decide (d.phase ≠ .heldRecord)) = [] then
    { s with regs := { s.regs with abortBusy := false } }
  else s

/-- A recorded BRANCH is forgotten once it and every sheaf of both paths have retired (R99). -/
def Queue.dropBranches (x : Queue) : Queue :=
  { x with branches := x.branches.filter fun b =>
      !x.isRetired b.seq ||
      !(List.range (b.primary + b.fallback)).all fun i => x.isRetired (b.seq + 1 + i) }

/-! ## Retirement -/

/-- A sequence number retires with a status: it enters the record of R110, and INFLIGHT falls if it
was accepted. -/
def State.markRetired (s : State) (q : Nat) (seq : Word) (tag : BitVec 32) (status : BitVec 8)
    (executed : Nat) (accepted : Bool) : State :=
  s.modQueue q fun x => { x with
    record := Tbl.ins x.record seq.toNat
      (some { zero := executed == 0, tag := tag, status := status, stamp := s.stamp })
    inflight := if accepted then x.inflight - 1 else x.inflight }

/-- The front end writes a queue context. The storage of its line holds the RETIRED before until the home-side write is
performed (R319).
Log 11 (DEDUCED, safe). -/
def State.writeQueue (s : State) (q : Nat) (y : Queue) : State :=
  let old := (s.queue q).retired
  let s := if y.retired = old ∨ s.oldRetired.any (fun e => e.1 == q) = true then s
    else { s with oldRetired := s.oldRetired ++ [(q, old)] }
  s.setQueue q y

/-- RETIRED and the recorded branches follow. -/
def State.advanceQueue (s : State) (q : Nat) : State :=
  s.writeQueue q (((s.queue q).advance 4097).dropBranches)

/-- A retirement writes a retire record: always in RECMODE ALL, otherwise only if it is not DONE
(R71). -/
def Queue.records (x : Queue) (status : BitVec 8) : Bool := !x.except || decide (status ≠ stDone)

/-- The retire record of a sheaf (R68). -/
def retireRecord (q : Nat) (seq : Word) (tag : BitVec 32) (gen : BitVec 12) (fin : Final)
    (node : Option Nat) : Record where
  seq := seq
  tag := tag
  status := fin.status
  gen := gen
  queue := q
  executed := BitVec.ofNat 16 fin.executed
  count := 1
  detail := fin.detail
  furrow := fin.furrow
  retire := true
  node := node

/-- A sheaf of a queue retires, accepted (with its node slot) or by a front-end check (R71): the
record of R110, its completion record, RETIRED, the trace, the accounting and the break units. -/
def State.retireSeq (s : State) (q : Nat) (seq : Word) (tag : BitVec 32) (gen : BitVec 12)
    (fin : Final) (node : Option Nat) : State :=
  let c := (s.queue q).ctx
  let s := s.markRetired q seq tag fin.status fin.executed node.isSome
  let x := s.queue q
  let held := x.records fin.status && x.recFull
  let s := if x.records fin.status then s.putRecord (retireRecord q seq tag gen fin node) else s
  let s := match node with
    | some n => if held then s.modNode n fun d => { d with phase := .heldRecord, final := some fin }
      else s.freeNode n
    | none => s
  let s := s.advanceQueue q
  let s := s.traceRec 3 q (some c) (traceW1 tag (fin.status.toNat * 2 ^ 24 + seq.toNat % 2 ^ 20))
  let s := s.modAcct c fun a => { a with retired := a.retired + 1 }
  s.countBreaks q 1

/-- The folded report of a scaled sheaf waits for the steward; the report of a MEASURE pass is no part of it
(R162). -/
def State.queueScale (s : State) (d : Node) : State :=
  if d.scaled then
    { s with stewardQ := s.stewardQ ++ [{
        slot := hScaleslot d.lines, ctx := d.ctx, gen := d.gen, fold := d.fold
        acc32fmt := d.outfmt == 2, combine := hOp d.lines == opCombine }] }
  else s

/-- Removing what a sheaf holds in furrows, in ADMIT and in shadow banks, except runs. -/
def State.removeEntries (s : State) (p : Entry → Bool) : State :=
  let s := s.discardWhere p
  { s with
    admits := s.admits.filter fun a => !p a.entry
    furrows := s.furrows.mapAll {} fun _ f =>
      { f with entries := f.entries.filter fun e => !p e }.touch s.now s.trimmed }.wakeLent

/-- A TALLY that was accepted has retired; WRITE_NOTIFY then sends vector 1, whatever its status (R367).
Log 41 (DEDUCED, unsafe). -/
def State.tallyEnd (s : State) (d : Node) : State :=
  if hOp d.lines = opTally ∧ aSub d.lines = 1 then s.sendMsix 1 else s

/-- A sheaf with a sequence number retires (R71), the edges that name it are satisfied (R116), and a TALLY notifies the
host (R367). -/
def State.retireQueued (s : State) (n : Nat) (d : Node) (fin : Final) : State :=
  let s := s.queueScale d
  let s := s.retireSeq d.queue d.seq d.tag d.gen fin (some n)
  let s := s.settleEdges (EdgeTarget.isSeq d.queue d.seq.toNat) (fin.executed == 0)
  s.checkAbortBusy.tallyEnd d

/-! ## Address streams (R237) -/

/-- The core of a CALL. -/
def State.callCore (s : State) (call : Nat) : Nat := match s.node call with
  | some c => c.coreNo
  | none => 0

/-- Number and state of the stream port that is bound to an issue of a CALL. -/
def State.portOf (s : State) (call issue : Nat) : Option (Nat × Port) :=
  (s.core (s.callCore call)).ports.findSome? fun e => match e.2 with
    | some p => if p.call = call ∧ p.bound = some issue then some (e.1, p) else none
    | none => none

def State.putPort (s : State) (k i : Nat) (p : Option Port) : State :=
  s.modCore k fun c => { c with ports := Tbl.set none c.ports i p }

/-- Pushes of a CALL's run have not been performed: a stream line gathers, or the prefill waits for the start of its
issue (R236, R237).
Log 85 (DEDUCED, unsafe). -/
def State.pushesWait (s : State) (k call : Nat) : Bool :=
  (s.core k).ports.any fun e => match e.2 with
    | some p => p.call == call && !p.dead && !(if p.started then p.line else p.prefill).isEmpty
    | none => false

/-- A run that waits at SYNC for its pushes is ready once they have been performed (R236). -/
def State.wakeSync (s : State) (k : Nat) : State :=
  s.forAll ((s.core k).frames.map Prod.fst) fun s fr => match s.runAt k fr with
    | some r => if r.st = .sync ∧ s.pushesWait k r.call = false then s.readyRun k fr else s
    | none => s

def State.setPort (s : State) (k i : Nat) (p : Option Port) : State := (s.putPort k i p).wakeSync k

/-- A run of the core that is blocked for credit of port i becomes ready. -/
def State.wakeCredit (s : State) (k i : Nat) : State :=
  match s.frameWhere k fun r => decide (r.st = .credit i) with
  | some fr => s.readyRun k fr
  | none => s

/-- The bound issue ends, or retires unstarted: its port becomes free; without a commit, later pushes to it are
discarded. -/
def State.streamEnd (s : State) (d : Node) (committed : Bool) : State :=
  match d.child with
  | none => s
  | some (call, i) =>
    match s.portOf call i with
    | none => s
    | some (j, p) =>
      let k := s.callCore call
      (s.setPort k j (if committed then none else
        some { p with bound := none, dead := true, prefill := [], line := [] })).wakeCredit k j

/-! ## Children (R231, R233) -/

/-- Writing a general register; g0 discards writes (R209). -/
def Run.setReg (r : Run) (i : Nat) (v : Word) : Run :=
  if i = 0 then r else { r with regs := Tbl.set 0 r.regs i v }

/-- What CWAIT and CPOLL return for a retired issue (R231). -/
def issueWord (res : BitVec 8 × BitVec 16) : Word := word [(16, res.2.toNat), (0, res.1.toNat)]

/-- The result of issue `i` reaches the handles of the CALL's run, and wakes a CWAIT or REEMIT that
waits for it. -/
def State.issueDone (s : State) (k call i : Nat) (res : BitVec 8 × BitVec 16) : State :=
  match s.frameWhere k fun r => r.call == call with
  | none => s
  | some fr =>
    match s.runAt k fr with
    | none => s
    | some r =>
      let nums := (r.handles.filter fun h => h.issue == i).map (·.num)
      let r : Run := { r with handles := r.handles.map fun (h : Handle) =>
        if h.issue = i then { h with res := some res } else h }
      match r.st with
      | .cwait h rd =>
        if nums.contains h then (s.setRun k fr (r.setReg rd (issueWord res))).readyRun k fr
        else s.setRun k fr r
      | .reissue h => if nums.contains h then (s.setRun k fr r).readyRun k fr else s.setRun k fr r
      | _ => s.setRun k fr r

/-- Unretired children of a CALL. -/
def State.childrenOf (s : State) (call : Nat) : List Nat :=
  s.nodesWhere fun _ d => match d.child with
    | some (c, _) => c == call
    | none => false

/-- A CALL whose runs have ended retires once every child issue has retired (R216). -/
def State.endCall (s : State) (call : Nat) : State :=
  match s.node call with
  | some d =>
    match d.final, d.phase with
    | some fin, .core => if s.childrenOf call = [] then s.retireQueued call d fin else s
    | _, _ => s
  | none => s

/-- A child retires: no record; a port still bound to it becomes free (R237); its handle gets the result, the edges
that name its issue are satisfied, the CALL's timer restarts (R218), and the CALL may retire. -/
def State.retireChild (s : State) (n : Nat) (d : Node) (call i : Nat) (fin : Final) : State :=
  let s := (s.queueScale d).streamEnd d false
  let s := s.freeNode n
  let s := s.traceRec 3 d.queue (some d.ctx)
    (traceW1 d.tag (fin.status.toNat * 2 ^ 24 + d.seq.toNat % 2 ^ 20))
  let s := s.settleEdges (EdgeTarget.isIssue i) (fin.executed == 0)
  let k := match s.node call with
    | some c => c.coreNo
    | none => 0
  let s := s.issueDone k call i (fin.status, BitVec.ofNat 16 fin.executed)
  (s.restartTimer call).endCall call

/-- A sheaf retires with its final status (R71). -/
def State.retire (s : State) (n : Nat) (fin : Final) : State :=
  match s.node n with
  | none => s
  | some d =>
    match d.child with
    | some (call, i) => s.retireChild n d call i fin
    | none => s.retireQueued n d fin

/-- Retiring with a status, EXECUTED and DETAIL, no furrow named. -/
def State.retireWith (s : State) (n : Nat) (status : BitVec 8) (executed : Nat)
    (detail : BitVec 32) : State :=
  s.retire n { status := status, executed := executed, detail := detail, furrow := noFurrow }

/-- A refusal under R103: FORMAT that names a field of the ARG line; the queue is not stopped. -/
def State.refuse (s : State) (n : Nat) (d : Node) (w b : Nat) : State :=
  s.retireWith n stFormat 0 (argDetail d.lines w b)

/-! ## Node-slot states (R109, R195) -/

/-- DETAIL of a sheaf that waits in a furrow: 2 for its token, otherwise 4 (R73, R109). -/
def State.furrowCode (s : State) (n : Nat) (member : Option Nat) : BitVec 32 :=
  if s.furrows.any fun x => x.2.entries.any fun e =>
    e.node == n && e.member == member && !x.2.eligible e then 2 else 4

/-- The first member that has not started (R195).
Log 34 (DEDUCED, unsafe). -/
def Node.firstWaiting (d : Node) : Option Member :=
  d.members.find? fun m => decide (m.st = .waiting) || decide (m.st = .entered)

/-- Node-slot state as the dump codes it (R109, R360). -/
def Phase.code : Phase → Nat
  | .held => 0
  | .hive => 1
  | .steward | .ready | .choice | .table | .branch | .kernel => 2
  | .admission => 3
  | .furrow | .between => 5
  | .measuring | .expand | .running | .committed => 6
  | .core => 7
  | .heldRecord => 8
  | .doomed => 2

/-- TOKEN while a WAITTOK is absent, otherwise READY (R109). -/
def State.waitCode (s : State) (n : Nat) (member : Option Nat) : Nat :=
  if s.furrowCode n member = 2 then 4 else 5

/-- The state of a template: PREPARE while members are created, RUNNING while one runs or none is left to start,
otherwise that of the first that has not started (R195). -/
def State.templateCode (s : State) (n : Nat) (d : Node) : Nat :=
  if !d.plan.isEmpty then 2
  else if d.members.any fun m => decide (m.st = .running) then 6
  else match d.firstWaiting with
    | some m => if m.st = .waiting then 3 else s.waitCode n (some m.ordinal)
    | none => 6

/-- A MEASURE pass is admitted, waits in its furrow, or runs (R165). -/
def State.passCode (s : State) (n : Nat) : Nat :=
  if s.admits.any fun a => a.entry.node == n then 3
  else if s.furrows.any fun x => x.2.entries.any fun e => e.node == n then s.waitCode n none
  else 6

/-- State of a sheaf (R109); of one whose end is decided, the state it was in then. -/
def State.phaseCode (s : State) (n : Nat) (d : Node) : Nat :=
  match d.phase with
  | .furrow | .between => s.waitCode n none
  | .measuring => s.passCode n
  | .expand => s.templateCode n d
  | .doomed => d.endedIn
  | p => p.code

/-! ## Ends that tear down a context -/

/-- A sheaf ends with a status that tears down its context: the event asks for the teardown, and
the sheaf retires with its own status as step 5 of R291 says, unless a teardown for another cause is already under
way (R305). -/
def State.doom (s : State) (n : Nat) (d : Node) (fin : Final) (e : Event) : State :=
  let code := s.phaseCode n d
  let s := s.removeEntries fun x => x.node == n && decide (x.gen = d.gen)
  let s := s.setNode n (some { d with
    phase := .doomed, endedIn := code, final := if s.tearCovered d.ctx then none else some fin })
  s.raise { e with node := some n }

/-! ## Informational records (R72) -/

/-- An informational record of a sheaf; it restarts the queue timer (R76). A child's record carries
the CALL's SEQ (R233), which `d.seq` is.
Log 101 (DESIGN CHOICE, unsafe). -/
def State.inform (s : State) (n : Nat) (d : Node) (status : BitVec 8) (executed : Nat)
    (detail : BitVec 32) (furrow : BitVec 10) : State :=
  (s.putRecord {
    seq := d.seq, tag := d.tag, status := status, gen := d.gen, queue := d.queue
    executed := BitVec.ofNat 16 executed, count := 1, detail := detail, furrow := furrow
    retire := false, node := none }).restartTimer n

/-! ## RECACK -/

/-- Writing held records while the ring has room; a written retire record frees its node slot.
Log 25 (DEDUCED, unsafe). -/
def State.drainHeld (s : State) (q : Nat) : Nat → State
  | 0 => s
  | k + 1 =>
    let x := s.queue q
    match x.held with
    | [] => s
    | r :: rest =>
      if x.recFull then s
      else
        let s := (s.setQueue q { x with held := rest }).writeRecord { r with queue := q, node := none }
        let s := match r.node with
          | some n => s.freeNode n
          | none => s
        s.drainHeld q k

/-- A write of RECACK (R74): a value below the current one or above the records written is ignored. -/
def State.recack (s : State) (q : Nat) (v : Word) : State :=
  let x := s.queue q
  if v.toNat < x.recAck.toNat ∨ x.recWritten.toNat < v.toNat then s
  else
    let s := s.setQueue q { x with recAck := v }
    (s.drainHeld q (x.held.length)).advanceQueue q

/-! ## Commands of the half bridge (R117) -/

/-- Setting edge i of a node. -/
def Node.setEdge (d : Node) (i : Nat) (st : EdgeState) : Node :=
  match d.edges[i]? with
  | some e => { d with edges := d.edges.set i { e with st := st } }
  | none => d

/-- A registration reaches the source's half: satisfied at once, or the waiter is recorded. A sheaf that the
destruction of its queue withdrew satisfies no edge accepted before that until the queue is FREE (R119); for a sheaf
accepted after it, it counts as recorded (R116).
Log 25 (DEDUCED, unsafe). -/
def execEdgeRegistration (n i : Nat) (s : State) : Host.Outcome State Fault Refusal :=
  ok (isNode n ∧ i < 64) <| s.when s.up fun s =>
    match s.node n with
    | none => s
    | some d =>
      match d.edges[i]? with
      | some { target := .seq q m, st := .unregistered } =>
        let x := s.queue q
        let withdrawn : Bool := match Tbl.get none x.record m with
          | some r => decide (x.state = .busy) && decide (r.status = stWithdrawn) && decide (d.order < r.stamp)
          | none => false
        let st := if x.state = .free then EdgeState.done false
          else if withdrawn = true then .registered
          else match x.source m with
            | some z => .done z
            | none => .registered
        s.setNode n (some (d.setEdge i st))
      | _ => s

/-- A retire notice reaches the consumers' half and satisfies the edges that wait for it. -/
def execRetireNotice (q : Nat) (seq : Word) (s : State) : Host.Outcome State Fault Refusal :=
  ok (isQueue q) <| s.when s.up fun s =>
    { s with nodes := s.nodes.mapAll none fun _ o => o.map fun d =>
        { d with edges := d.edges.map fun e =>
            match e.st with
            | .noticed z => if e.target.isSeq q seq.toNat then { e with st := .done z } else e
            | _ => e } }

end Sys2Proof.Machine
end

