-- ==== Sys2Proof/Machine/Access.lean ====
section
/-! DEFINITION. Host accesses and deliveries: when they are served, held, absorbed or discarded
(R412, R417, R454), and the latches of reads (R453, R461). -/

namespace Sys2Proof.Machine

/-! ## When accesses are served (R454) -/

/-- Holding an access or delivery until a wake, a reset or the power-up completes, with the time of its arrival.
Log 61 (DEDUCED, unsafe). -/
def State.hold (s : State) (c : Instr) : State :=
  { s with heldCmds := s.heldCmds ++ [(s.heldFrom.getD s.now, c)] }

/-- A read by the host: held before step 5 and through a wake, otherwise served.
Log 61 (DEDUCED, unsafe). -/
def State.hostRead (s : State) (c : Instr) (f : State → State) : State :=
  match s.power with
  | .off => s
  | .run => if s.clocks.idle = .none then f s else (s.hold c).wakeUp
  | _ => s.hold c

/-- A write of a privileged register: held before step 5, through a wake and during a compute reset;
without effect in the safe state. -/
def State.hostWrite (s : State) (c : Instr) (f : State → State) : State :=
  match s.power with
  | .off => s
  | .run =>
    if s.recov.safe then s
    else if s.clocks.idle ≠ .none then (s.hold c).wakeUp
    else if s.recov.inprogress then s.hold c
    else f s
  | _ => s.hold c

/-- A step of Pliat's own waits for a coherent line, and is performed with the grant (R317).
Log 83 (DESIGN CHOICE, safe). -/
def State.park (s : State) (c : Instr) : State := if s.heldCmds.any fun e => e.2 == c then s else s.hold c

/-- A delivery from outside the host port: held through a wake; it has no effect before the power-up
is complete or in the safe state. -/
def State.delivery (s : State) (c : Instr) (f : State → State) : State :=
  if s.power = .run ∧ s.recov.safe = false then
    if s.clocks.idle = .none then f s else (s.hold c).wakeUp
  else s

/-! ## Gated blocks (R411, R412) -/

/-- A write to, or read of, a register of a gated block is counted in BUSERR. -/
def State.busErr (s : State) : State :=
  { s with clocks := { s.clocks with buserr := satInc s.clocks.buserr } }

/-- The enable bit `lo + h` of every half in service is 1.
Log 33 (DEDUCED, unsafe). -/
def State.halvesOn (s : State) (lo : Nat) : Bool :=
  (List.range 2).all fun h => !s.inService h || s.enabled (lo + h)

/-- The doorbell page of queue q is gated: the FE bit of its half, if the half is in service.
Log 33 (DEDUCED, unsafe). -/
def State.pageGated (s : State) (q : Nat) : Bool :=
  s.inService (halfOfQueue q) && !s.enabled (halfOfQueue q)

/-- The queue's page is live for a function: a VF sees the queues of its partition but for the PF kernel queues
(R46, R55, R450). -/
def State.pageLive (s : State) (fn : Fn) (q : Nat) : Bool :=
  match fn with
  | .pf => true
  | .vf p =>
    let x := s.queue q
    decide (x.state ≠ .free) && decide (x.kind ≠ .pf) && !isSystem x.ctx && (s.ctx x.ctx).part == p

/-- Answering a read.
Log 61 (DEDUCED, unsafe). -/
def State.answerRead (s : State) (fn : Fn) (v : Word) : State := s.drive (.readData fn (some v))
/-- Completer Abort (R412).
Log 61 (DEDUCED, unsafe). -/
def State.abortRead (s : State) (fn : Fn) : State := s.busErr.drive (.readData fn none)

/-! ## Latches (R453, R461) -/

/-- Number of a 64-bit counter's latch of bits 63:32 (R453). -/
def countLatch : CountReg → Nat
  | .usec => 16
  | .fenceseq => 17
  | .doorbell q => 10000 + q
  | .retired q => 20000 + q
  | .head q => 30000 + q
  | .recack q => 40000 + q
  | .qstatus q => 60000 + q
  | .lasttag q => 70000 + q
  | .plain off => 80000 + off

/-- Number of the latch of LASTTAG and LASTSTATUS, which a read of RETIRED takes (R69). -/
def latchLast (q : Nat) : Nat := 50000 + q

/-- Number of the latch of a register with further words. -/
def latchNo : LatchReg → Nat
  | .scaledata0 => 0
  | .faultrec0 => 1
  | .auditdata0 => 2
  | .tracedata0 => 3

def State.dropLatch (s : State) (fn : Fn) (r : Nat) : State :=
  { s with latches := s.latches.filter fun l => !(l.fn == fn && l.reg == r) }

def State.setLatch (s : State) (fn : Fn) (r : Nat) (ws : List Word) : State :=
  { s with latches := { fn := fn, reg := r, words := ws } ::
      (s.latches.filter fun l => !(l.fn == fn && l.reg == r)) }

/-- A queue is created: no function holds a latch of its page, which reads zero (R462). -/
def State.freshPage (s : State) (q : Nat) : State :=
  { s with latches := s.latches.filter fun l =>
      !(decide (10000 ≤ l.reg) && l.reg % 10000 == q) }

/-- The words of a latch; none holds zeros.
Log 61 (DEDUCED, unsafe). -/
def State.latched (s : State) (fn : Fn) (r : Nat) : Option (List Word) :=
  (s.latches.find? fun l => l.fn == fn && l.reg == r).map (·.words)

/-- The part of a word that an access covers, in its low bits; a narrow or misaligned read returns zero (R451). -/
def partOf (part : Part) (v : Word) : Word :=
  match part with
  | .whole => v
  | .low => v &&& 0xFFFFFFFF
  | .high => v >>> 32
  | .odd => 0

/-- Answering a read of a part of a register. -/
def State.readPart (s : State) (fn : Fn) (v : Word) (part : Part) : State := s.answerRead fn (partOf part v)

/-- The value a 64-bit counter of R453 holds. A FREE queue's page reads 0 (R462). -/
def State.counter (s : State) : CountReg → Word
  | .usec => s.usec
  | .fenceseq => BitVec.setWidth 64 s.fence.seq
  | .doorbell q => (s.queue q).tail
  | .retired q => (s.queue q).retired
  | .head q => (s.queue q).head
  | .recack q => (s.queue q).recAck
  | .qstatus _ | .lasttag _ | .plain _ => 0

/-- A read of a 64-bit counter register (R453): bits 31:0 latch bits 63:32, bits 63:32 return and
release the latch, and a 64-bit read releases it. A read of RETIRED at bits 31:0 or in full latches
LASTTAG and LASTSTATUS (R69). -/
def State.readCounter (s : State) (fn : Fn) (r : CountReg) (part : Part) : State :=
  let v := s.counter r
  let s := match r, part with
    | .retired q, .whole | .retired q, .low =>
      s.setLatch fn (latchLast q)
        [BitVec.setWidth 64 (s.queue q).lastTag, BitVec.setWidth 64 (s.queue q).lastStatus]
    | _, _ => s
  match part with
  | .whole => (s.dropLatch fn (countLatch r)).answerRead fn v
  | .low => (s.setLatch fn (countLatch r) [v >>> 32]).answerRead fn (v &&& 0xFFFFFFFF)
  | .high =>
    let hi := match s.latched fn (countLatch r) with
      | some (w :: _) => w
      | _ => v >>> 32
    (s.dropLatch fn (countLatch r)).answerRead fn hi
  | .odd => s.answerRead fn 0

/-- A read of queue q's page as the gating and the function let it happen: a gated page aborts it, a page that is not
live for the function reads zero (R55, R412, R450). -/
def State.pageRead (s : State) (fn : Fn) (q : Nat) (f : State → State) : State :=
  if s.pageGated q then s.abortRead fn
  else if s.pageLive fn q then f s
  else s.answerRead fn 0

/-! ## The audit of register writes (R429, R430) -/

/-- Role of a register by its offset in PF BAR2 (R448, R449). -/
def roleOf (offset : Nat) : Nat := if offset < 0x20000 then 1 else 2

end Sys2Proof.Machine
end

