-- ==== Sys2Proof/Machine/Check.lean ====
section
/-! DEFINITION. The front-end checks of R63 and the field that FORMAT DETAIL names (R464). A
failing condition is the position it names, line · 512 + bit; DETAIL gives the lowest. -/

namespace Sys2Proof.Machine

/-- Lowest set bit of `w` in high:low, as a position in line `l`, word `i` (a reserved bit that is
not zero names that bit). -/
def resBits (l i : Nat) (w : Word) (hi lo : Nat) : List Nat :=
  ((List.range (hi - lo + 1)).filter fun b => bit w (lo + b)).take 1 |>.map
    fun b => 512 * l + 64 * i + lo + b

/-- A condition that fails names the field whose lowest bit is b of word i of line l. -/
def named (l i b : Nat) (fails : Bool) : List Nat := if fails then [512 * l + 64 * i + b] else []

/-- Whether the device lets an opcode's TARGET have a kind (R95). -/
def kindAllowed (o k : Nat) : Bool :=
  if o == opStart || o == opCfgstart then decide (k ≤ 3)
  else if o == opCall then k == 4
  else if o == opFanout || o == opMasked then decide (k ≤ 2)
  else if o == opCombine then k == 1
  else if o == opMeasure then decide (k ≤ 1)
  else k == 5

/-- TARGET meets R83, R15 and R95 for a sheaf of context c. -/
def targetOk (s : State) (c : Nat) (ls : List Line) : Bool :=
  let k := tKind ls
  let u := tUnit ls
  kindAllowed (hOp ls) k &&
  (if tAny ls then
     decide (k ≤ 4) && u == 0 && !(hOp ls == opStart) && !(hFmt ls == 0)
   else if k ≤ 2 then
     decide (u < 576) && u % 3 == k && s.furrowPresent u && bit (s.clustersOf c) (u / 48)
   else if k = 3 then decide (576 ≤ u) && decide (u < 600) && s.furrowPresent u
   else if k = 4 then decide (u < 24) && s.inService (halfOfCore u)
   else u == 0)

/-- Least and most body lines of an opcode (R95, R100): LEN − E lies in this range.
Log 21 (DEDUCED, safe). -/
def bodyRange (o sub : Nat) : Nat × Nat :=
  if o == opNop || o == opStart then (0, 0)
  else if o == opConfig then (1, 4)
  else if o == opCfgstart || o == opMeasure then (1, 31)
  else if opTemplate o then (2, 31)
  else if o == opCtxctl && (sub == 0 || sub == 2) then (1, 7)
  else (1, 1)

/-- The line type the layout of an opcode puts at body position j (R91, R95). -/
def bodyType (o j : Nat) : Nat :=
  if o == opConfig || o == opCfgstart || o == opMeasure then 1
  else if opTemplate o then (if j = 0 then 2 else 1)
  else if o == opCtxctl then (if j = 0 then 2 else 3)
  else 2

/-- Use of header fields by opcode (R90, R92, R107, R15, R82-R84): positions in the header. -/
def headerErrors (s : State) (c : Nat) (ls : List Line) : List Nat :=
  let o := hOp ls
  let fmt0 := hFmt ls == 0
  let engine := opEngine o
  let single := o == opStart || o == opCfgstart
  let pred := fPred ls
  let me := tKind ls == 0
  let br := bodyRange o (aSub ls)
  let e := eLines ls
  -- reserved bits
  resBits 0 0 (hw ls 0) 31 24 ++ resBits 0 1 (hw ls 1) 31 21 ++ resBits 0 1 (hw ls 1) 11 10 ++
  resBits 0 2 (hw ls 2) 47 42 ++ resBits 0 4 (hw ls 4) 31 21 ++
  -- lengths
  named 0 0 4 (fmt0 && ! [0x00, 0x01, 0x02, 0x03, 0x20].contains o) ++
  named 0 0 12 (decide (hLen ls < e + br.1) || decide (e + br.2 < hLen ls)) ++
  named 0 0 17 (decide (64 < hEdgecnt ls) ||
    ((o == opConfig || fmt0) && decide (hEdgecnt ls ≠ 0))) ++
  -- target
  named 0 1 0 (!targetOk s c ls) ++
  -- flags
  named 0 1 16 (fChain ls && !single) ++
  named 0 1 17 (pred && (o == opConfig || opKernel o || fmt0)) ++
  named 0 1 18 (fCommitwait ls && (o == opConfig || fmt0)) ++
  named 0 1 19 (fSkipok ls && (o == opConfig || fmt0)) ++
  named 0 1 20 (fNoscale ls && (!engine || fmt0)) ++
  -- tokens
  named 0 1 32 (decide (hWaittok ls ≠ 0) && (!engine || fmt0)) ++
  named 0 1 48 (decide (hSigtok ls ≠ 0) && (!engine || fmt0)) ++
  -- W2
  named 0 2 0 (decide (1 < hRepeat ls) && !(single || o == opCall)) ++
  named 0 2 16 (decide (hScaleslot ls ≠ 0) && (!engine || fmt0 || fNoscale ls)) ++
  named 0 2 32 (decide (hSeedexp ls ≠ 0) && (!engine || fmt0 || fNoscale ls)) ++
  named 0 2 40 (decide (2 ≤ hAccw ls) || (hAccw ls == 1 && (fmt0 || !me ||
    !(single || opTemplate o || o == opMeasure)))) ++
  named 0 2 48 (decide (hGradslot ls ≠ 0) && (!engine || fmt0 || fNoscale ls)) ++
  -- W3
  named 0 3 32 (decide (hCyc ls ≠ 0) && !(fmt0 && single)) ++
  -- predicate
  named 0 4 0 (decide (hPredobj ls ≠ 0) && !pred ||
    pred && !s.inService (halfOfObj (hPredobj ls))) ++
  named 0 4 18 (decide (hPredcmp ls ≠ 0) && !pred || pred && decide (5 < hPredcmp ls)) ++
  named 0 4 32 (decide (hPredval ls ≠ 0) && !pred)

/-- R87: unused entries are zero; a used entry names an existing queue of the sheaf's partition,
and its own queue only below its own sequence number. System contexts count as one partition. -/
def edgeErrors (s : State) (q : Nat) (own : Word) (ls : List Line) : List Nat :=
  let used := hEdgecnt ls
  let slots := 6 + 16 * eLines ls
  let c := (s.queue q).ctx
  (List.range slots).flatMap fun i =>
    let p := edgePos i
    let e := edgeEntry ls i
    let bad :=
      if i < used then
        let eq := edgeQueue e
        let x := s.queue eq
        let st := s.qstate eq
        let samePart :=
          if isSystem c || isSystem x.ctx then isSystem c && isSystem x.ctx
          else (s.ctx x.ctx).part == (s.ctx c).part
        let past :=
          if eq = q then
            match extendSeq (edgeSeqlo e) own.toNat with
            | some n => decide (own.toNat ≤ n)
            | none => false
          else false
        decide (st = .free) || decide (st = .offline) || !samePart || past
      else decide (e ≠ 0)
    named p.1 0 p.2 bad

/-- A REGLOAD line (R92). -/
def regloadErrors (l : Nat) (ln : Line) : List Nat :=
  let cnt := fld (wd ln 0) 15 8
  let base := fld (wd ln 0) 31 16
  resBits l 0 (wd ln 0) 63 32 ++
  named l 0 16 (decide (0x3FF < base)) ++
  named l 0 8 (cnt == 0 || decide (7 < cnt) || decide (0x3FF + 1 < base + cnt)) ++
  ((List.range 7).flatMap fun i => named l (i + 1) 0 (decide (cnt ≤ i) && decide (wd ln (i + 1) ≠ 0)))

/-- A WINDOW line (R94). -/
def windowErrors (l : Nat) (ln : Line) : List Nat :=
  let cnt := fld (wd ln 0) 13 12
  let first := fld (wd ln 0) 11 8
  resBits l 0 (wd ln 0) 63 14 ++
  named l 0 12 (cnt == 0 || decide (16 < first + cnt)) ++
  ((List.range 3).flatMap fun i =>
    let b := wd ln (2 * i + 1)
    let m := wd ln (2 * i + 2)
    if i < cnt then
      resBits l (2 * i + 1) b 11 4 ++ named l (2 * i + 1) 2 (fld b 3 2 == 3) ++
      resBits l (2 * i + 2) m 11 0 ++
      named l (2 * i + 2) 12 (decide (fld m 63 12 < fld b 63 12))
    else named l (2 * i + 1) 0 (decide (b ≠ 0)) ++ named l (2 * i + 2) 0 (decide (m ≠ 0))) ++
  resBits l 7 (wd ln 7) 63 0

/-- Fields of argument lines (R100): word, high bit, low bit, and the SUB values that define the
field (empty: every SUB). LTYPE and SUB are not listed.
Log 100 (DESIGN CHOICE, unsafe). -/
def argFields (o : Nat) : List (Nat × Nat × Nat × List Nat) :=
  if o == opCall then (0, 18, 16, []) :: (List.range 6).map fun i => (i + 1, 63, 0, [])
  else if o == opWait || o == opSignal then [(0, 47, 16, []), (1, 63, 0, [])]
  else if o == opStile then [(0, 63, 48, [0, 1]), (0, 47, 16, []), (1, 16, 0, [2])]
  else if o == opFanout then
    [(0, 47, 32, []), (0, 24, 16, []), (1, 63, 0, []), (2, 63, 0, []), (3, 63, 0, []),
      (4, 63, 0, []), (5, 63, 0, []), (6, 63, 0, [])]
  else if o == opMasked then
    [(0, 63, 48, []), (0, 47, 32, []), (0, 31, 24, []), (0, 23, 16, []), (1, 63, 0, [])]
  else if o == opBranch then
    [(0, 47, 32, []), (0, 31, 16, []), (1, 31, 0, [0]), (2, 34, 32, [1]), (2, 31, 0, [1]),
      (3, 63, 0, [1])]
  else if o == opCombine then
    [(0, 20, 16, []), (1, 63, 0, []), (2, 63, 0, []), (3, 63, 0, []), (4, 31, 0, [])]
  else if o == opQctl then
    [(0, 53, 52, [0]), (0, 51, 51, [0]), (0, 50, 50, [0]), (0, 49, 49, [0]), (0, 48, 44, [0]),
      (0, 43, 40, [0]), (0, 39, 38, [0]), (0, 37, 28, [0]), (0, 27, 16, []), (1, 63, 0, [0, 2]),
      (2, 63, 0, [0, 2]), (3, 44, 32, [0]), (3, 31, 0, [0]), (4, 63, 0, [0])]
  else if o == opCtxctl then [(0, 29, 26, [0]), (0, 25, 16, []), (1, 63, 0, [3])]
  else if o == opLoadroutine then [(0, 31, 16, []), (1, 63, 0, [])]
  else if o == opTally then [(1, 63, 0, [])]
  else if o == opPartctl then [(0, 43, 32, [0]), (0, 19, 16, [])]
  else if o == opFaultctl then [(0, 39, 32, [0]), (0, 31, 16, [0]), (1, 31, 0, [])]
  else []

/-- The SUB values of an opcode (R100). -/
def subOk (o sub : Nat) : Bool :=
  if o == opCall then decide (sub ≤ 127)
  else if o == opWait then decide (sub ≤ 5)
  else if o == opSignal then decide (sub ≤ 2)
  else if o == opStile then decide (sub ≤ 3)
  else if o == opFanout || o == opMasked || o == opCombine then sub == 0
  else if o == opBranch || o == opFence then decide (sub ≤ 1)
  else if o == opQctl then decide (sub ≤ 2)
  else if o == opCtxctl then decide (sub ≤ 3)
  else if o == opLoadroutine then decide (64 ≤ sub) && decide (sub ≤ 127)
  else decide (sub ≤ 1)

/-- The range conditions of R100 on the ARG line at line l of a sheaf of context c. An object of a lost half, under
any name of this chip (R27, R272, R373), fails here and stops the queue.
Log 21 (DEDUCED, safe), 68 (DESIGN CHOICE, unsafe), 86 (DESIGN CHOICE, unsafe). -/
def argRanges (s : State) (c o sub l : Nat) (ln : Line) : List Nat :=
  let w := wd ln
  let reg := fun (v : Nat) => decide (0x3FF < v)
  let low := fun (i bits : Nat) => decide ((w i).toNat % 2 ^ bits ≠ 0)
  let objRef := fld (w 0) 47 16
  -- an object of a lost half (R27)
  let lost := fun (r : Nat) => s.chipLocal c (refChip r) && !s.inService (halfOfObj (refObj r))
  if o == opCall then
    let argc := fld (w 0) 18 16
    named l 0 16 (decide (6 < argc)) ++
    ((List.range 6).flatMap fun i => named l (i + 1) 0 (decide (argc ≤ i) && decide (w (i + 1) ≠ 0)))
  else if o == opWait || o == opSignal then named l 0 16 (lost objRef)
  else if o == opStile then
    named l 0 16 (lost objRef || (decide (2 ≤ sub) && refChip objRef != 0x3FFF)) ++
    named l 1 0 (sub == 2 && (decide (fld (w 1) 16 0 < 2) || decide (65536 < fld (w 1) 16 0)))
  else if o == opFanout then
    named l 0 32 (reg (fld (w 0) 47 32)) ++
    named l 0 16 (fld (w 0) 24 16 == 0 || decide (256 < fld (w 0) 24 16)) ++
    named l 1 0 (low 1 6) ++
    ((List.range 4).flatMap fun i =>
      let r := fld (w 2) (16 * i + 15) (16 * i)
      named l 2 (16 * i) (reg r && r != 0xFFFF) ++
      named l (i + 3) 0 (r == 0xFFFF && decide (w (i + 3) ≠ 0)))
  else if o == opMasked then
    named l 0 48 (reg (fld (w 0) 63 48)) ++ named l 0 32 (reg (fld (w 0) 47 32)) ++
    named l 0 24 (decide (127 < fld (w 0) 31 24)) ++ named l 0 16 (decide (127 < fld (w 0) 23 16)) ++
    named l 1 0 (low 1 6)
  else if o == opBranch then
    named l 0 32 (decide (4096 < fld (w 0) 47 32)) ++
    named l 0 16 (fld (w 0) 31 16 == 0 || decide (4096 < fld (w 0) 31 16)) ++
    (if sub = 1 then
      named l 2 32 (decide (5 < fld (w 2) 34 32)) ++
      named l 2 0 (refChip (fld (w 2) 31 0) != 0x3FFF || lost (fld (w 2) 31 0))
     else [])
  else if o == opCombine then
    named l 0 16 (decide (fld (w 0) 20 16 < 2) || decide (16 < fld (w 0) 20 16)) ++
    named l 1 0 (low 1 6) ++ named l 2 0 (low 2 6) ++ named l 3 0 (low 3 6) ++
    named l 4 0 (fld (w 4) 31 0 == 0)
  else if o == opCtxctl then
    named l 0 26 (sub == 0 && decide (11 < fld (w 0) 29 26)) ++ named l 1 0 (sub == 3 && low 1 6)
  else if o == opLoadroutine then
    named l 0 16 (decide (16384 < fld (w 0) 31 16)) ++ named l 1 0 (low 1 6)
  else if o == opTally then named l 1 0 (low 1 12)
  else if o == opPartctl then
    named l 0 16 (decide (11 < fld (w 0) 19 16)) ++
    named l 0 32 (sub == 0 && s.fuses.t6 && decide (2 ^ 6 ≤ fld (w 0) 43 32))
  else if o == opFaultctl then
    named l 0 32 (sub == 0 && fld (w 0) 39 32 == 0) ++
    named l 1 0 (sub == 0 && (fld (w 1) 31 0 == 0 || decide (3600000 < fld (w 1) 31 0)))
  else []

/-- Bits of word i that no field of the opcode's ARG line covers (R93).
Log 21 (DEDUCED, safe). -/
def unnamedBits (o l i : Nat) (w : Word) : List Nat :=
  let fs := argFields o
  ((List.range 64).filter fun b =>
    bit w b && !(i == 0 && decide (b < 16)) &&
    !fs.any fun f => f.1 == i && decide (f.2.2.1 ≤ b) && decide (b ≤ f.2.1)).take 1 |>.map
    fun b => 512 * l + 64 * i + b

/-- An ARG line (R93, R100). A field that only other SUB values define names itself.
Log 21 (DEDUCED, safe). -/
def argErrors (s : State) (c o l : Nat) (ln : Line) : List Nat :=
  let sub := fld (wd ln 0) 15 8
  named l 0 8 (!subOk o sub) ++
  ((List.range 8).flatMap fun i => unnamedBits o l i (wd ln i)) ++
  ((argFields o).flatMap fun f =>
    named l f.1 f.2.2.1 (!f.2.2.2.isEmpty && !f.2.2.2.contains sub &&
      decide (fld (wd ln f.1) f.2.1 f.2.2.1 ≠ 0))) ++
  argRanges s c o sub l ln

/-- Body lines from body position j on, the first of them being line l (R91).
Log 21 (DEDUCED, safe). -/
def bodyErrors (s : State) (c o l j : Nat) : List Line → List Nat
  | [] => []
  | ln :: rest =>
    (if ltype ln ≠ bodyType o j then [512 * l]
     else if ltype ln = 1 then regloadErrors l ln
     else if ltype ln = 3 then windowErrors l ln
     else argErrors s c o l ln) ++ bodyErrors s c o (l + 1) (j + 1) rest

/-- Everything that step 4 of R63 finds wrong, as the positions that are named (R464). -/
def formatErrors (s : State) (q : Nat) (c : Nat) (own : Word) (ls : List Line) : List Nat :=
  headerErrors s c ls ++ edgeErrors s q own ls ++
  bodyErrors s c (hOp ls) (1 + eLines ls) 0 (bodyOf ls)

/-- DETAIL names the position with the lowest line, and the lowest bit in it (R464).
Log 19 (DEDUCED, unsafe). -/
def lowestPos (ps : List Nat) : Option Nat := ps.foldl (fun a p => match a with
  | none => some p
  | some b => some (min b p)) none

/-- What the checks of R63 answer for the sheaf at HEAD: accepted, or the status and DETAIL it
retires with, the lines it consumes, and the queue error. -/
inductive Verdict where
  | accept
  | reject (status : BitVec 8) (detail : BitVec 32) (lines : Nat) (err : BitVec 8)
deriving DecidableEq, Repr

/-- Context x, or a queue that belongs to it, is of a partition other than context c's, or x is a system context. -/
def State.elsewhere (s : State) (c x : Nat) : Bool := isSystem x || decide ((s.ctx x).part ≠ (s.ctx c).part)

/-- Whether context x lies outside the partition of context c: it exists and belongs to another
partition, or is a system context (R47). -/
def State.outside (s : State) (c x : Nat) : Bool := decide ((s.ctx x).state ≠ .free) && s.elsewhere c x

/-- Whether queue q lies outside the partition of context c: it exists and belongs to another partition, also when
its context has become FREE since (R47). -/
def State.queueOutside (s : State) (c q : Nat) : Bool :=
  decide ((s.queue q).state ≠ .free) && s.elsewhere c (s.queue q).ctx

/-- The first body line is the ARG line, so that the sheaf names what its command is about (R91, R93). -/
def hasArgLine (ls : List Line) : Bool := !(bodyOf ls).isEmpty && ltype (lineOf (bodyOf ls) 0) == bodyType (hOp ls) 0

/-- The opcode is not permitted on the queue's kind (R46, R47). -/
def privileged (s : State) (q : Nat) (ls : List Line) : Bool :=
  let o := hOp ls
  let x := s.queue q
  match x.kind with
  | .pf => false
  | .user => opKernel o
  | .partition =>
    if decide (opLoadroutine ≤ o) && opKernel o then true
    else if !hasArgLine ls then false
    else if o = opQctl then
      if aSub ls = 0 then s.outside x.ctx (fld (aw ls 0) 37 28) else s.queueOutside x.ctx (fld (aw ls 0) 27 16)
    else if o = opCtxctl then
      s.outside x.ctx (fld (aw ls 0) 25 16) ||
      (aSub ls == 0 && decide (fld (aw ls 0) 29 26 ≠ (s.ctx x.ctx).part))
    else false

/-- The checks of R63 in their order, on the lines of one sheaf. -/
def checkSheaf (s : State) (q : Nat) (ls : List Line) : Verdict :=
  let x := s.queue q
  if hFmt ls ≠ 0 ∧ hFmt ls ≠ 1 then .reject stFormat (formatDetail 0 0) 1 0x04
  else if BitVec.ofNat 4 (hFmt ls) ≠ x.fmt then
    .reject stFormat (formatDetail 0 0) (hLen ls + 1) 0x05
  else if !opDefined (hOp ls) then .reject stFormat (formatDetail 0 4) (hLen ls + 1) 0x05
  else if privileged s q ls then
    .reject stPriv (BitVec.ofNat 32 (hOp ls)) (hLen ls + 1) 0x05
  else
    match lowestPos (formatErrors s q x.ctx x.nextSeq ls) with
    | some p => .reject stFormat (formatDetail (p / 512) (p % 512)) (hLen ls + 1) 0x05
    | none => .accept

end Sys2Proof.Machine
end

