-- ==== Sys2Proof/Machine/FrontEnd.lean ====
section
/-! DEFINITION. The front ends: doorbells and RECACK, the fetcher's loop, fetch grants, ring lines
and their checks, acceptance, CONFIG and BRANCH at acceptance (R50-R65, R74, R96, R99, R110-R116). -/

namespace Sys2Proof.Machine

/-! ## Doorbell pages -/

/-- A doorbell-page write that reaches the front end: ignored unless 64 bits wide (R54), discarded in
a gated block (R412), absorbed and counted where R27, R55, R62 and R467 say, otherwise performed. -/
def State.pageWrite (s : State) (fn : Fn) (q : Nat) (wide : Bool) (f : State → State) : State :=
  if !wide then s
  else if s.pageGated q then s.busErr
  else if s.recov.safe || s.recov.inprogress then s.absorb q
  else if !s.pageLive fn q then s.absorb q
  else f s

/-- DOORBELL in each queue state (R58, R62). -/
def State.doorbell (s : State) (q : Nat) (v : Word) : State :=
  let x := s.queue q
  match s.qstate q with
  | .free | .busy | .offline => s.absorb q
  | .stopped => s.setQueue q { x with tail := v, pending := true }
  | .active => s.setQueue q { x with tail := v, pending := true }
  | .idle =>
    s.setQueue q { x with
      tail := v, pending := true, state := .active
      origin := if x.deadline ≠ 0 ∧ fld x.deadline 33 32 = 0 then some s.usec else x.origin }

/-- RECACK in each queue state (R467). -/
def State.recackWrite (s : State) (q : Nat) (v : Word) : State :=
  match s.qstate q with
  | .free | .offline => s.absorb q
  | _ => s.recack q v

/-- A write of DOORBELL or RECACK: held before step 5 of the power-up; a doorbell takes effect when it
arrives and wakes an idle Pliat, a RECACK waits for the wake (R417, R420). -/
def State.doDoorbell (s : State) (fn : Fn) (q : Nat) (wide : Bool) (v : Word) : State :=
  s.pageWrite fn q wide fun s => s.doorbell q v
def State.doRecack (s : State) (fn : Fn) (q : Nat) (wide : Bool) (v : Word) : State :=
  s.pageWrite fn q wide fun s => s.recackWrite q v

/-- A write to DOORBELL (R54, R55, R58, R62). -/
def execDoorbellWrite (fn : Fn) (q : Nat) (wide : Bool) (v : Word) (s : State) :
    Host.Outcome State Fault Refusal :=
  ok (isFn fn ∧ isQueue q) <|
    match s.power with
    | .off => s
    | .run => (s.doDoorbell fn q wide v).wakeUp
    | _ => s.hold (.doorbellWrite fn q wide v)

/-- A write to RECACK (R54, R55, R74, R467). -/
def execRecackWrite (fn : Fn) (q : Nat) (wide : Bool) (v : Word) (s : State) :
    Host.Outcome State Fault Refusal :=
  ok (isFn fn ∧ isQueue q) <|
    s.hostRead (.recackWrite fn q wide v) fun s => s.doRecack fn q wide v

/-- A read of RETIRED (R69), in full or of bits 31:0. -/
def execRetiredRead (fn : Fn) (q : Nat) (wide : Bool) (s : State) :
    Host.Outcome State Fault Refusal :=
  ok (isFn fn ∧ isQueue q) <| s.hostRead (.retiredRead fn q wide) fun s =>
    s.pageRead fn q fun s => s.readCounter fn (.retired q) (if wide then .whole else .low)

/-! ## Queue errors (R61) -/

/-- A queue error stops fetch, sets STATE and ERR, and is reported as NOTE. The event names the
queue's context, and the TAG, STATUS and DETAIL of the sheaf that the check rejected, if one did (R336).
Log 38 (DEDUCED, unsafe). -/
def State.queueErrorOf (s : State) (q : Nat) (err : BitVec 8) (tag : BitVec 32) (status : BitVec 8)
    (detail : BitVec 32) : State :=
  let x := s.queue q
  let s := s.setQueue q { x with
    state := .stopped, err := err, fetched := [], reading := 0, partialAtTail := false }
  s.raise { source := srcFrontEnd (halfOfQueue q), kind := kQueueError, cls := .note
            ctx := some (x.ctx, (s.ctx x.ctx).gen), queue := q, tag := tag, status := status, detail := detail }

/-- A queue error that no sheaf is the cause of.
Log 38 (DEDUCED, unsafe). -/
def State.queueError (s : State) (q : Nat) (err : BitVec 8) : State := s.queueErrorOf q err 0 0 0

/-! ## Acceptance limits -/

/-- The conditions under which the front end fetches for a queue, and accepts (R52, R74, R110, R114,
MAXINFLIGHT). -/
def State.mayFetch (s : State) (q : Nat) : Bool :=
  let x := s.queue q
  decide (x.state = .active) && !x.recFull && decide (x.inflight < x.maxInflight) &&
  decide (x.nextSeq.toNat - x.retired.toNat < 4096) && s.slotAvailable q &&
  (s.freeSlot (halfOfQueue q)).isSome

/-! ## The fetcher -/

/-- Line counts up to which lines have been fetched. -/
def Queue.fetchedTo (x : Queue) : Nat := x.head.toNat + x.fetched.length

/-- Every line up to the TAIL last read has been fetched and checked, but for a sheaf that runs past
TAIL (R52, R58).
Log 23 (DESIGN CHOICE, safe). -/
def Queue.caughtUp (x : Queue) : Bool :=
  x.reading == 0 && decide (x.tailSeen.toNat ≤ x.fetchedTo) && (x.fetched.isEmpty || x.partialAtTail)

/-- The fetcher reads TAIL (R58-R60).
Log 98 (DESIGN CHOICE, unsafe). -/
def State.tailRead (s : State) (q : Nat) : State :=
  let x := s.queue q
  let t := x.tail.toNat
  let s := s.setQueue q { x with pending := false }
  if 2 ^ x.logSize + x.head.toNat < t then s.queueError q 0x01
  else if t < x.tailSeen.toNat then s.queueError q 0x02
  else if t = x.tailSeen.toNat then s.modQueue q fun x => { x with state := .idle }
  else s.modQueue q fun x => { x with tailSeen := x.tail, partialAtTail := false }

/-- TAIL_READ: while the queue is ACTIVE and nothing is left to fetch or check. -/
def execTailRead (q : Nat) (s : State) : Host.Outcome State Fault Refusal :=
  ok (isQueue q) <|
    s.when (s.working && decide (s.qstate q = .active) && (s.queue q).caughtUp) fun s => s.tailRead q

/-! ## Acceptance -/

/-- An edge entry classified at acceptance (R86, R116, R117); `own` is the sheaf's own sequence
number, or its CALL's. -/
def State.classifyEdge (s : State) (h q own e : Nat) : Edge :=
  let eq := edgeQueue e
  let x := s.queue eq
  let n := if eq = q then own else x.nextSeq.toNat
  match extendSeq (edgeSeqlo e) n with
  | none => { target := .seq eq 0, st := .done false }
  | some m =>
    { target := .seq eq m
      st := if halfOfQueue eq ≠ h then .unregistered
        else match x.source m with
          | some z => .done z
          | none => .open }

/-- The explicit edges of a sheaf. -/
def State.edgesOf (s : State) (h q own : Nat) (ls : List Line) : List Edge :=
  (List.range (hEdgecnt ls)).map fun i => s.classifyEdge h q own (edgeEntry ls i)

/-- The unretired sheaf with a sequence number of a queue. -/
def State.nodeAt (s : State) (q n : Nat) : Option Nat :=
  (s.nodesWhere fun _ d => d.queue == q && d.child.isNone && d.seq.toNat == n &&
    decide (d.phase ≠ .heldRecord)).head?

/-- The node a new sheaf takes (R108). -/
def State.newNode (s : State) (q : Nat) (ls : List Line) : Node :=
  let x := s.queue q
  let n := x.nextSeq.toNat
  let pred := if n = 0 then none else (s.nodeAt q (n - 1)).bind s.node
  { queue := q, seq := x.nextSeq, child := none, half := halfOfQueue q, ctx := x.ctx
    gen := (s.ctx x.ctx).gen, prio := x.priority, fmt := x.fmt, tag := hTag ls, lines := ls
    cfg := if hOp ls = opStart then x.config else []
    phase := .held
    edges := s.edgesOf (halfOfQueue q) q n ls
    chained := match pred with
      | some p => fChain p.lines && decide (p.fmt ≠ 0)
      | none => false
    chainEarly := false, order := s.stamp, relOrder := 0, timer := s.newTimer q, started := false
    tokenTaken := false, iter := 0, furrow := none, acc32 := false, satRecorded := false
    outexp := none, scaled := false, fold := {}, preempted := 0, aborted := false, plan := []
    members := [], reading := 0, coreNo := 0, runsDone := 0, final := none }

/-- Trace of an acceptance (R439). -/
def State.traceAccept (s : State) (q : Nat) (ls : List Line) (n : Nat) : State :=
  s.traceRec 0 q (some (s.queue q).ctx) (traceW1 (hTag ls) (hOp ls * 2 ^ 24 + n % 2 ^ 20))

/-- The lines at HEAD are consumed (R51). -/
def State.consume (s : State) (q n : Nat) : State :=
  s.modQueue q fun x => { x with
    head := x.head + BitVec.ofNat 64 n, fetched := x.fetched.drop n, partialAtTail := false }

/-- A sheaf that retires at acceptance or at a check: it takes a sequence number and holds no node
slot (R65, R96). -/
def State.retireAtAcceptance (s : State) (q : Nat) (ls : List Line) (fin : Final) : State :=
  let x := s.queue q
  let c := x.ctx
  let s := s.modQueue q Queue.number
  let s := s.retireSeq q x.nextSeq (hTag ls) (s.ctx c).gen fin none
  s.settleEdges (EdgeTarget.isSeq q x.nextSeq.toNat) (fin.executed == 0)

/-- The field a refused BRANCH names: PRIMARY for the in-flight limit, a fifth recorded BRANCH or a
primary path that ends outside the enclosing path, FALLBACK for a fallback path that does (R99).
Log 24 (DEDUCED, unsafe). -/
def Queue.branchRefused (x : Queue) (ls : List Line) : Option Nat :=
  let p := fld (aw ls 0) 31 16
  let f := fld (aw ls 0) 47 32
  let b := x.nextSeq.toNat
  let ends := x.branches.flatMap fun r =>
    [(r.seq + 1, r.seq + r.primary), (r.seq + r.primary + 1, r.seq + r.primary + r.fallback)].filterMap
      fun g => if g.1 ≤ b ∧ b ≤ g.2 then some g.2 else none
  if x.maxInflight - 1 < p + f || decide (4 ≤ x.branches.length) || ends.any (fun e => decide (e < b + p))
    then some 16
  else if ends.any fun e => decide (e < b + p + f) then some 32
  else none

/-- Accepting the sheaf at HEAD into the node slot n.
Log 24 (DEDUCED, unsafe). -/
def State.accept (s : State) (q n : Nat) (ls : List Line) : State :=
  let d := s.newNode q ls
  let s := (s.setNode n (some d)).tickStamp
  let s := s.allocLines n ls.length
  let s := s.traceAccept q ls d.seq.toNat
  s.modQueue q fun x =>
    { x.number with
      inflight := x.inflight + 1
      branches := if hOp ls = opBranch then x.branches ++ [{
          seq := x.nextSeq.toNat, primary := fld (aw ls 0) 31 16, fallback := fld (aw ls 0) 47 32
          decision := .undecided }] else x.branches }

/-- CONFIG at acceptance (R96): it replaces the recorded configuration unless REPEAT is 0, and retires
DONE. -/
def State.acceptConfig (s : State) (q : Nat) (ls : List Line) : State :=
  let n := (s.queue q).nextSeq.toNat
  let s := s.traceAccept q ls n
  let s := if hRepeat ls = 0 then s else s.modQueue q fun x => { x with config := regloads ls }
  s.retireAtAcceptance q ls
    { status := stDone, executed := if hRepeat ls = 0 then 0 else 1, detail := 0, furrow := noFurrow }

/-- What the fetched lines of a queue begin with. -/
inductive Head where
  | nothing
  /-- The sheaf runs past the lines fetched; `true` if it runs past TAIL. -/
  | short (pastTail : Bool)
  | sheaf (ls : List Line)
deriving DecidableEq, Repr

/-- Splitting the next sheaf off the fetched lines: a header with an unknown FMT stands alone (R63).
Log 23 (DESIGN CHOICE, safe). -/
def Queue.nextSheaf (x : Queue) : Head :=
  match x.fetched with
  | [] => .nothing
  | h :: _ =>
    let n := if fld (wd h 0) 3 0 ≤ 1 then fld (wd h 0) 16 12 + 1 else 1
    if n ≤ x.fetched.length then .sheaf (x.fetched.take n)
    else .short (x.tailSeen.toNat < x.head.toNat + n && decide (x.fetchedTo = x.tailSeen.toNat))

/-- Checking the fetched sheaves in ring order (R63): each is accepted, refused as R99 says, or
retired with the queue stopped. A CONFIG that passes is left for its own command, and a limit of
acceptance leaves the rest waiting.
Log 23 (DESIGN CHOICE, safe). -/
def State.drain (s : State) (q : Nat) : Nat → State
  | 0 => s
  | k + 1 =>
    let x := s.queue q
    match x.nextSheaf with
    | .nothing => s
    | .short past => s.setQueue q { x with partialAtTail := past }
    | .sheaf ls =>
      if !s.mayFetch q then s
      else match checkSheaf s q ls with
        | .reject status detail n err =>
          let s := s.retireAtAcceptance q ls
            { status := status, executed := 0, detail := detail, furrow := noFurrow }
          (s.consume q n).queueErrorOf q err (hTag ls) status detail
        | .accept =>
          if hOp ls = opConfig then s
          else
            let refused := if hOp ls = opBranch then x.branchRefused ls else none
            match refused with
            | some b =>
              ((s.retireAtAcceptance q ls { status := stFormat, executed := 0
                                            detail := argDetail ls 0 b, furrow := noFurrow }).consume
                q ls.length).drain q k
            | none =>
              match s.freeSlot (halfOfQueue q) with
              | none => s
              | some n => ((s.accept q n ls).consume q ls.length).drain q k

/-- A complete sheaf waits for its check.
Log 23 (DESIGN CHOICE, safe). -/
def State.sheafWaits (s : State) (q : Nat) : Bool :=
  match (s.queue q).nextSheaf with
  | .sheaf ls => !(decide (hOp ls = opConfig) && decide (checkSheaf s q ls = .accept))
  | _ => false

/-! ## Fetch grants (R58, R110, R114) -/

/-- A queue that the front end of half h may serve now: lines to read, or fetched sheaves whose check
was waiting. -/
def State.wantsFetch (s : State) (h q : Nat) : Bool :=
  let x := s.queue q
  halfOfQueue q == h && s.mayFetch q && x.reading == 0 &&
  (s.sheafWaits q || (x.fetchedTo < x.tailSeen.toNat && (match x.nextSheaf with
    | .sheaf _ => false
    | _ => true)))

/-- The next of a list of numbers, in ring order after one served last. -/
def ringNext (ns : List Nat) (last : Option Nat) : Option Nat :=
  match last with
  | none => ns.head?
  | some l => match ns.find? fun n => decide (l < n) with
    | some n => some n
    | none => ns.head?

/-- The queue that a grant of half h goes to: lowest priority number, then round-robin. -/
def State.grantChoice (s : State) (h : Nat) : Option Nat :=
  let qs := s.queues.keys fun q _ => s.wantsFetch h q
  let prio := qs.foldl (fun a q => min a (s.queue q).priority) 4
  ringNext (qs.filter fun q => (s.queue q).priority == prio)
    (let l := Tbl.get 0 s.fetchLast (4 * h + prio)
     if l = 0 then none else some (l - 1))

/-- The ring read of one grant: up to 32 lines, or up to TAIL, from the two ends of the ring when it
wraps (R50). -/
def State.issueFetch (s : State) (q : Nat) : State :=
  let x := s.queue q
  let n := min 32 (x.tailSeen.toNat - x.fetchedTo)
  let slot := x.fetchedTo % 2 ^ x.logSize
  let first := min n (2 ^ x.logSize - slot)
  let s := s.setQueue q { x with reading := n }
  let st := s.stampOf x.ctx (s.ctx x.ctx).gen
  let s := s.drive (.memRead st x.ringHost (x.ringBase + BitVec.ofNat 64 (64 * slot)) first)
  if first < n then s.drive (.memRead st x.ringHost x.ringBase (n - first)) else s

/-- A fetch grant of half h. -/
def execFetchGrant (h : Nat) (s : State) : Host.Outcome State Fault Refusal :=
  ok (isHalf h) <| s.when (s.working && s.inService h) fun s =>
    match s.grantChoice h with
    | none => s
    | some q =>
      let s := { s with fetchLast := Tbl.set 0 s.fetchLast (4 * h + (s.queue q).priority) (q + 1) }
      if s.sheafWaits q then s.drain q 1024 else s.issueFetch q

/-- Ring lines arrive (R63), all that the read asked for or the next of them, or the ring read failed
(R61). Lines for a queue that has stopped or is being destroyed are dropped, as is a reply of another generation
(R290, R357). A single-bit error corrected in the queue context that is read here is reported (R39).
Log 4 (DESIGN CHOICE, safe), 23 (DESIGN CHOICE, safe). -/
def execRingFetchComplete (q : Nat) (a : RingReply) (s : State) :
    Host.Outcome State Fault Refusal :=
  ok (isQueue q) <| s.when (s.working && decide (s.qstate q = .active) && (s.queue q).reading != 0 &&
      a.stamp == s.stampOf (s.queue q).ctx (s.ctx (s.queue q).ctx).gen) fun s =>
    let x := s.queue q
    let t := match a.result with
      | .error _ => s.queueError q 0x03
      | .lines ls =>
        if 0 < ls.length ∧ ls.length ≤ x.reading then
          (s.setQueue q { x with reading := x.reading - ls.length, fetched := x.fetched ++ ls }).drain q 1024
        else s
    t.fixed (srcQueueCtx (halfOfQueue q)) a.fixed

/-- CONFIG at the head of the fetched lines takes effect at its acceptance (R96).
Log 23 (DESIGN CHOICE, safe). -/
def execConfig (q : Nat) (s : State) : Host.Outcome State Fault Refusal :=
  ok (isQueue q) <| s.when (s.working && decide (s.qstate q = .active) && s.mayFetch q) fun s =>
    match (s.queue q).nextSheaf with
    | .sheaf ls =>
      if hOp ls = opConfig ∧ checkSheaf s q ls = .accept then
        ((s.acceptConfig q ls).consume q ls.length).drain q 1024
      else s
    | _ => s

end Sys2Proof.Machine
end

