-- ==== Sys2Proof/Machine/Release.lean ====
section
/-! DEFINITION. Release (R115, R140), the predicate, the skip rules and path-not-taken (R85, R89,
R99, R202), the target choice (R133) and the routing of SIGTOK (R123-R125, R129). -/

namespace Sys2Proof.Machine

/-! ## Tenants of hive objects (R247) -/

/-- The range of partition p: BASE and COUNT. -/
def State.hiveRange (s : State) (p : Nat) : Nat × Nat :=
  let w := Tbl.get 0 s.regs.hivepart p
  (fld w 17 0, fld w 40 22)

/-- The partition whose range holds an object. -/
def State.objPart (s : State) (n : Nat) : Option Nat :=
  (List.range 12).find? fun p =>
    let r := s.hiveRange p
    decide (r.1 ≤ n) && decide (n < r.1 + r.2)

/-- A context may operate on an object: it belongs to the context's tenant, or the context is a
system context (R247, R276). -/
def State.objAllowed (s : State) (c n : Nat) : Bool :=
  isSystem c || decide (s.objPart n = some (s.ctx c).part)

/-- A TENANT_BLOCK event, NOTE (R331, R466). -/
def tenantEvent (source : Nat) (d : Node) (detail : BitVec 32) : Event :=
  d.event source kTenantBlock .note stTenantBlock detail noFurrow

/-- A TENANT_BLOCK event for an operation of a routine: the CALL runs on, so that neither STATUS nor DETAIL of a record
stands in it (R236, R263, R336). -/
def callBlocked (source : Nat) (d : Node) : Event :=
  { tenantEvent source d 0 with status := 0 }

/-- A sheaf retires TENANT_BLOCK with an object's number (R85, R263); its context stays. -/
def State.tenantBlock (s : State) (n : Nat) (d : Node) (source obj : Nat) : State :=
  (s.raise (tenantEvent source d (objDetail obj 0))).retireWith n stTenantBlock 0 (objDetail obj 0)

/-! ## Target choice (R133) -/

/-- The furrows a sheaf of a kind and context may run on. -/
def State.furrowsOf (s : State) (c k : Nat) : List Nat :=
  if k = 3 then (List.range s.linkPorts).map (576 + ·)
  else ((List.range 192).map fun i => 3 * i + k).filter fun f =>
    s.furrowPresent f && bit (s.clustersOf c) (f / 48)

/-- Fewest entries first, then a furrow served by the home half, then the lowest number.
Log 26 (DEDUCED, unsafe), 72 (DESIGN CHOICE, unsafe). -/
def State.chooseFurrow (s : State) (h c k : Nat) : Nat :=
  let key := fun (f : Nat) => 2 * (s.furrow f).entries.length + (if s.server f = h then 0 else 1)
  match s.furrowsOf c k with
  | [] => 0
  | f :: fs => fs.foldl (fun b f => if key f < key b then f else b) f

/-- The furrow of a sheaf: chosen now for ANY = 1, otherwise the one TARGET names. -/
def State.targetFurrow (s : State) (d : Node) : Nat :=
  if tAny d.lines then s.chooseFurrow d.half d.ctx (tKind d.lines) else tUnit d.lines

/-! ## Tokens (R123-R125, R129, R373) -/

/-- A remote chip cannot be reached by a context (R373, R276).
Log 37 (DEDUCED, unsafe). -/
def State.unreachable (s : State) (c : Nat) (chip : BitVec 14) : Bool :=
  let g := s.group (s.ctx c).part
  isSystem c || !g.en || decide (g.size.toNat ≤ chip.toNat)

/-- SIGTOK of a sheaf that ends on furrow `own` is routed by its TOKDEST: put in flight, handed to the
data path for another chip, or dropped with a NOTE (R124). -/
def State.emitToken (s : State) (d : Node) (own : Nat) : State :=
  if hSigtok d.lines = 0 then s
  else
    let td := regOf d.loaded rTokdest
    let chip : BitVec 14 := BitVec.ofNat 14 (fld td 31 18)
    let f := if fld td 9 0 = 0x3FF then own else fld td 9 0
    let here := s.chipLocal d.ctx chip
    let drop := !(decide (f < 600) && s.furrowPresent f) ||
      (decide (f < 576) && !bit (s.clustersOf d.ctx) (f / 48)) ||
      (!here && (decide (d.kind ≤ 1) || s.unreachable d.ctx chip))
    if drop then
      s.raise (d.event (srcFurrow own) kTokenDrop .note 0 0 (BitVec.ofNat 10 own))
    else if here then
      { s with flying := s.flying ++ [{ furrow := f, ctx := d.ctx, gen := d.gen
                                        value := hSigtok d.lines }] }
    else s.drive (.remoteToken (s.stampOf d.ctx d.gen) (hSigtok d.lines) chip f)

/-! ## BRANCH paths (R99) -/

/-- Recording what a BRANCH decided. -/
def State.decideBranch (s : State) (q seq : Nat) (r : Decision) : State :=
  s.modQueue q fun x => { x with branches := x.branches.map fun b =>
    if b.seq = seq then { b with decision := r } else b }

def Branch.inPrimary (b : Branch) (n : Nat) : Bool :=
  decide (b.seq < n) && decide (n ≤ b.seq + b.primary)
def Branch.inFallback (b : Branch) (n : Nat) : Bool :=
  decide (b.seq + b.primary < n) && decide (n ≤ b.seq + b.primary + b.fallback)

/-- A sequence number lies on a path not taken. -/
def Queue.notTaken (x : Queue) (n : Nat) : Bool :=
  x.branches.any fun b =>
    (decide (b.decision = .primary) && b.inFallback n) ||
    (decide (b.decision = .fallback) && b.inPrimary n)

/-- A sequence number lies on a path of an aborted BRANCH. -/
def Queue.onAborted (x : Queue) (n : Nat) : Bool :=
  x.branches.any fun b => decide (b.decision = .aborted) && (b.inPrimary n || b.inFallback n)

/-! ## The release rule (R115, R140) -/

/-- An earlier unretired sheaf of the same queue satisfies a test. -/
def State.earlier (s : State) (d : Node) (p : Node → Bool) : Bool :=
  (s.nodesWhere fun _ e => e.queue == d.queue && e.child.isNone && decide (e.seq.toNat < d.seq.toNat) &&
    decide (e.phase ≠ .heldRecord) && p e) ≠ []

/-- The chain predecessor has retired, or has committed under the chaining rules (R138). -/
def State.chainOpen (s : State) (d : Node) : Bool :=
  d.chained && !d.chainEarly && !(s.queue d.queue).isRetired (d.seq.toNat - 1)

/-- A LOADROUTINE and the CALLs to its slot wait for one another in acceptance order (R105). -/
def State.slotHeld (s : State) (d : Node) : Bool :=
  let other := if hOp d.lines = opCall then opLoadroutine else opCall
  (hOp d.lines == opCall || hOp d.lines == opLoadroutine) &&
  (s.nodesWhere fun _ e => hOp e.lines == other && aSub e.lines == aSub d.lines &&
    decide (e.order < d.order) && decide (e.phase ≠ .heldRecord)) ≠ []

/-- The sheaf has committed: its last iteration has, and its report is on its way (R84). -/
def Node.hasCommitted (d : Node) : Bool :=
  decide (d.phase = .committed) && match d.final with
    | some fin => decide (fin.status = stDone)
    | none => false

/-- Everything R115 asks of a held sheaf; for FMT 0 its predecessor has started (R140). -/
def State.releasable (s : State) (d : Node) : Bool :=
  decide (d.phase = .held) && !s.qPaused d.queue &&
  (d.edges.all fun e => match e.st with
    | .done _ => true
    | _ => false) &&
  (d.child.isSome ||
    (!(fCommitwait d.lines && s.earlier d fun e => !e.hasCommitted) &&
     !s.earlier d (fun e => hOp e.lines == opFence || hOp e.lines == opBranch) &&
     !(hOp d.lines == opFence && s.earlier d fun _ => true) &&
     !s.chainOpen d && !s.slotHeld d &&
     (decide (d.fmt ≠ 0) || !s.earlier d fun e => !e.started)))

/-! ## Skipping (R89, R202) -/

/-- A skipped sheaf retires DONE with EXECUTED 0 and delivers its SIGTOK without data; a skipped
BRANCH takes the primary path.
Log 22 (DEDUCED, unsafe). -/
def State.skip (s : State) (n : Nat) (d : Node) : State :=
  let s := if hOp d.lines = opBranch then s.decideBranch d.queue d.seq.toNat .primary else s
  let s := if opEngine (hOp d.lines) ∧ hSigtok d.lines ≠ 0 then s.emitToken d (s.targetFurrow d) else s
  s.retireWith n stDone 0 d.doneDetail

/-- SKIPOK applies (R89). -/
def Node.allZero (d : Node) : Bool :=
  !d.edges.isEmpty && d.edges.all fun e => match e.st with
    | .done z => z
    | _ => false

/-- What the predicate answers (R85, R200): `none` for a tenant block. -/
def State.predicate (s : State) (d : Node) : Option Bool :=
  if fPred d.lines then
    let o := hPredobj d.lines
    if s.objAllowed d.ctx o then some (compareCode (hPredcmp d.lines) (s.obj o).w0 (hPredval d.lines))
    else none
  else some true

/-- What a BRANCH that retires at its release has decided: nothing on the path of an aborted BRANCH, and the primary
path where its predicate's object belongs to another tenant (R99, R303).
Log 70 (DESIGN CHOICE, unsafe). -/
def State.branchEnds (s : State) (d : Node) (r : Decision) : State :=
  if hOp d.lines = opBranch ∧ d.child = none then s.decideBranch d.queue d.seq.toNat r else s

/-- The steps of a released sheaf up to the steward (R120).
Log 22 (DEDUCED, unsafe), 70 (DESIGN CHOICE, unsafe). -/
def State.afterRelease (s : State) (n : Nat) (d : Node) : State :=
  let x := s.queue d.queue
  if d.child.isNone && x.onAborted d.seq.toNat then (s.branchEnds d .aborted).retireWith n stAborted 0 0
  else if d.child.isNone && x.notTaken d.seq.toNat then s.skip n d
  else match s.predicate d with
    | none => (s.branchEnds d .primary).tenantBlock n d (srcHive d.half) (hPredobj d.lines)
    | some false => s.skip n d
    | some true =>
      if hRepeat d.lines = 0 || (fSkipok d.lines && d.allZero) then s.skip n d
      else s.setNode n (some { d with phase := if d.stewarded then .steward else .ready })

/-- The break units in tag mode that the release of a sheaf fires. -/
def State.releaseBreaks (s : State) (d : Node) : List Nat :=
  if d.child.isNone && !d.tagHit then s.tagBreaks d.queue d.tag else []

/-- The line that a release needs: the hive cache reads the object of a predicate that is evaluated (R200, R317). -/
def State.releaseNeeds (s : State) (d : Node) : List LineNeed :=
  let x := s.queue d.queue
  let decided := d.child.isNone && (x.onAborted d.seq.toNat || x.notTaken d.seq.toNat)
  if fPred d.lines && s.objAllowed d.ctx (hPredobj d.lines) && !decided && s.releaseBreaks d == [] then
    [hiveNeed (hPredobj d.lines) false]
  else []

/-- Release: the break units in tag mode, then the steps of R120.
Log 27 (DESIGN CHOICE, safe). -/
def State.release1 (s : State) (n : Nat) (d : Node) : State :=
  let us := s.releaseBreaks d
  if us ≠ [] then
    (s.setNode n (some { d with tagHit := true })).forAll us State.fireBreak
  else
    let d := { d with relOrder := s.stamp, releasedAt := s.now }
    let s := ((s.setNode n (some d)).tickStamp).restartTimer n
    match s.node n with
    | some d => s.afterRelease n d
    | none => s

/-- A release, which for a chained successor that is released early lets it bypass the arbitration (R138). -/
def State.releaseSheaf (s : State) (n : Nat) (d : Node) : State :=
  let t := s.release1 n d
  if d.chainEarly then match t.node n with
    | some c =>
      if c.phase = .held then t
      else t.modFurrow (tUnit d.lines) fun x => { x with chainFrom := some c.relOrder }
    | none => t
  else t

/-- SHEAF_RELEASE (R115, R120). -/
def execSheafRelease (n : Nat) (s : State) : Host.Outcome State Fault Refusal :=
  ok (isNode n) <| s.when s.working fun s =>
    match s.node n with
    | some d =>
      if s.releasable d then
        s.withLines (s.releaseNeeds d) (·.park (.sheafRelease n)) fun s => s.releaseSheaf n d
      else s
    | none => s

end Sys2Proof.Machine
end

