-- ==== Sys2Proof/Machine/Steward.lean ====
section
/-! DEFINITION. Admission of engine runs to furrows (R120, R130, R191, R192), and the scale steward:
slots, checks, the choice of an exponent, MEASURE passes and recordings (R152-R168). -/

namespace Sys2Proof.Machine

/-! ## Asking for admission -/

/-- A sheaf's charge (R132), or a member's among n members (R191). -/
def chargeOf (cost : Nat) (members : Option Nat) : Nat :=
  if cost = 0 then 2000
  else match members with
    | none => cost
    | some n => (cost + n - 1) / max 1 n

/-- The furrow entry of a run: of the sheaf, of member k or of a MEASURE pass. The first run to start
carries the WAITTOK (R127, R192). -/
def Node.entry (d : Node) (n : Nat) (member : Option Nat) (measure : Bool) (order : Nat) : Entry where
  node := n
  member := member
  measure := measure
  after := false
  ctx := d.ctx
  gen := d.gen
  prio := d.prio
  queue := d.queue
  charge := chargeOf (hCost d.lines) (member.map fun _ => d.members.length + d.plan.length)
  waittok := if d.tokenTaken || (member.isSome && decide (member ≠ some 0)) then 0 else hWaittok d.lines
  order := order

/-- A released run asks for admission to a furrow (R130). -/
def State.askAdmit (s : State) (f : Nat) (e : Entry) (front : Bool) : State :=
  { s with admits := s.admits ++ [{ furrow := f, entry := e, front := front }] }

/-- The sheaf's state is one in which a pause of its context holds it where it stands (R435). -/
def State.frozen (s : State) (d : Node) : Bool := s.qPaused d.queue

/-- A metadata check that fails (R205): the sheaf retires WINDOW and its context is torn down.
Log 29 (DEDUCED, unsafe), 59 (DEDUCED, unsafe). -/
def State.metaFail (s : State) (n : Nat) (d : Node) (img : Tbl Word) (reg executed : Nat)
    (ordinal : Option Nat) : State :=
  let fin : Final := { status := stWindow, executed := executed, detail := windowDetail reg ordinal
                       furrow := noFurrow }
  s.doom n d fin { d.event (srcResolver d.half) kWindow .contain stWindow fin.detail noFurrow with
    address := regOf img reg }

/-- The metadata check of a sheaf's own image: of a sheaf that is not a template, and of a template's MEASURE pass
(R166, R205).
Log 59 (DEDUCED, unsafe). -/
def State.sheafMeta (s : State) (d : Node) : Option Nat :=
  if d.kind = 0 then s.metaCheck d.ctx (d.image none false d.acc32) else none

/-- Image build, target choice and the request for admission of a sheaf that is not a template
(R120 steps 5 and 6, R147, R205).
Log 27 (DESIGN CHOICE, safe). -/
def State.launch (s : State) (n : Nat) (d : Node) : State :=
  match s.sheafMeta d with
  | some reg => s.metaFail n d (d.image none false d.acc32) reg 0 none
  | none =>
    let f := s.targetFurrow d
    (s.setNode n (some { d with phase := .admission, furrow := some f })).askAdmit f
      (d.entry n none false d.relOrder) d.chainEarly

/-- The image build reads the sheaf's lines (R317). -/
def State.launchOf (s : State) (c : Instr) (n : Nat) (d : Node) : State :=
  s.withReads c (sheafNeeds n d.lines.length) (·.park c) fun s => s.launch n d

/-! ## Slots (R154-R157) -/

/-- Reset value of PL_SCALEPARTp (R154): every slot. -/
def scaleReset : Word := 0x0000000100000000

/-- A context's tenant for the binding rule: its partition, or the one that the system contexts make
up together (R155, R276).
Log 58 (DEDUCED, safe). -/
def State.tenantOf (s : State) (c : Nat) : Nat := if isSystem c then 12 else (s.ctx c).part

/-- Slot i lies in the range of the context's partition (R154, R276). -/
def State.slotInRange (s : State) (c i : Nat) : Bool :=
  isSystem c ||
  (let w := Tbl.get scaleReset s.regs.scalepart (s.ctx c).part
   decide (fld w 15 0 ≤ i) && decide (i < fld w 15 0 + fld w 32 16))

/-- R155 blocks the context. -/
def State.slotBlocked (s : State) (c i : Nat) : Bool :=
  !s.slotInRange c i ||
  match (s.slot i).bound with
  | some b => decide (s.tenantOf b ≠ s.tenantOf c)
  | none => false

/-- The steward writes a slot; the storage of its line holds the value before until the home-side write is performed
(R319).
Log 11 (DEDUCED, safe). -/
def State.writeSlot (s : State) (i : Nat) (x : Slot) : State :=
  let old := s.slot i
  let s := if x = old ∨ s.oldSlots.any (fun e => e.1 == i) = true then s
    else { s with oldSlots := s.oldSlots ++ [(i, old)] }
  s.setSlot i x

/-- Binding an unbound slot. -/
def Slot.bindTo (x : Slot) (c : Nat) : Slot := { x with bound := some (x.bound.getD c) }

/-- SLOTCTL (R152). -/
def Slot.control (x : Slot) (ctl : Word) : Slot :=
  let x := if bit ctl 1 then { x with margin := fld ctl 3 2 } else x
  if bit ctl 0 then { x with ptr := 0, count := 0, ref := 0, deltas := [], pendmax := none } else x

/-- A sheaf that R155 blocks. -/
def State.scaleBlock (s : State) (n : Nat) (d : Node) : State :=
  let detail : BitVec 32 := BitVec.ofNat 32 (hScaleslot d.lines * 2 ^ 16)
  (s.raise (tenantEvent srcSteward d detail)).retireWith n stTenantBlock 0 detail

/-! ## The choice (R160) -/

/-- ⌈log2 n⌉. -/
def clog2 (n : Nat) : Nat := ((List.range 16).find? fun k => decide (n ≤ 2 ^ k)).getD 16

/-- e = clamp(m + margin − w, −127, 127). -/
def clampExp (m : Int) (margin w : Nat) : Int := max (-127) (min 127 (m + margin - w))

/-- W of R160. -/
def Node.rangeBits (d : Node) : Nat := if d.outfmt = 1 then 3 else 7

/-- The exponent that the slot or the seed gives; none asks for a MEASURE pass. -/
def chooseExp (x : Slot) (d : Node) : Option Int :=
  if x.count ≠ 0 then some (clampExp x.ref x.margin d.rangeBits)
  else match x.pendmax with
    | some m =>
      let m := if hOp d.lines = opCombine then m + clog2 (fld (aw d.lines 0) 20 16) else m
      some (clampExp m x.margin d.rangeBits)
    | none => if hSeedexp d.lines = 0x80 then none else some (hSeedexp d.lines).toInt

/-- Step write of R160. -/
def State.writeExp (s : State) (d : Node) (x : Slot) (e : Int) : State × Node :=
  (s.writeSlot (hScaleslot d.lines) { x with lastexp := some e },
    { d with outexp := some (BitVec.ofInt 8 e), scaled := true })

/-- The MEASURE pass of a sheaf is asked for (R165, R166): on the sheaf's own furrow, or for a
template with ANY = 1 on one chosen for the pass alone (R190). -/
def State.askPass (s : State) (n : Nat) (d : Node) : State :=
  match s.sheafMeta d with
  | some reg => s.metaFail n d (d.image none false d.acc32) reg 0 none
  | none =>
    let f := s.targetFurrow d
    let d := { d with phase := .measuring, scaled := true
                      furrow := if opTemplate (hOp d.lines) then none else some f }
    (s.setNode n (some d)).askAdmit f (d.entry n none true d.relOrder) false

/-- The steward's step of a released sheaf (R155, R152, R160). -/
def State.steward (s : State) (n : Nat) (d : Node) : State :=
  let i := hScaleslot d.lines
  if s.slotBlocked d.ctx i then s.scaleBlock n d
  else
    let x := ((s.slot i).bindTo d.ctx).control (regOf d.loaded rSlotctl)
    let s := s.writeSlot i x
    if hOp d.lines = opMeasure then s.setNode n (some { d with phase := .ready, scaled := true })
    else match chooseExp x d with
      | some e =>
        let r := s.writeExp d x e
        r.1.setNode n (some { r.2 with phase := .ready })
      | none => s.askPass n d

/-- The line of the sheaf's register load that the steward patches with OUTEXP, which overrides every load: the last
REGLOAD line (R42, R92); a sheaf without one is patched in its header line.
Log 83 (DESIGN CHOICE, safe). -/
def patchLine (ls : List Line) : Nat :=
  ((List.range ls.length).filter fun i => decide (1 + eLines ls ≤ i) && ltype (lineOf ls i) == 1).getLastD 0

/-- The patch of OUTEXP is a local write of its line (R317). -/
def patchNeed (n : Nat) (d : Node) : LineNeed := descNeed n (patchLine d.lines) true

/-- The steward's step with the descriptor lines that it needs: a choice patches the register load, and a pass needs an
image build (R42, R317). -/
def State.stewardLines (s : State) (n : Nat) (d : Node) (f : State → State) : State :=
  let i := hScaleslot d.lines
  let wait := fun (s : State) => s.park (.stewardStep n)
  if s.slotBlocked d.ctx i ∨ hOp d.lines = opMeasure then f s
  else match chooseExp (((s.slot i).bindTo d.ctx).control (regOf d.loaded rSlotctl)) d with
    | some _ => s.withLines [patchNeed n d] wait f
    | none => s.withReads (.stewardStep n) (sheafNeeds n d.lines.length) wait f

/-- STEWARD_STEP. -/
def execStewardStep (n : Nat) (s : State) : Host.Outcome State Fault Refusal :=
  ok (isNode n) <| s.when s.working fun s =>
    match s.node n with
    | some d =>
      if d.phase = .steward ∧ s.frozen d = false then
        s.stewardLines n d fun s => s.steward n d
      else s
    | none => s

/-! ## Completing the choice after a pass (R165) -/

/-- The sheaf's own image behind its pass may start from now on. -/
def Furrow.releaseAfter (f : Furrow) (n : Nat) : Furrow :=
  let open1 := fun (e : Entry) => if e.node = n then { e with after := false } else e
  { f with entries := f.entries.map open1
           shadow := f.shadow.map fun sh => { sh with entry := open1 sh.entry } }

/-- The shadow bank holds, or is being given, the image of a sheaf. -/
def State.imageHeld (s : State) (f n : Nat) : Bool :=
  match (s.furrow f).shadow with
  | some sh => sh.entry.node == n
  | none => false

/-- The choice after the pass: R155 again, then the write, and the OUTEXP patch of the image in the shadow bank; an
image that is preloaded later carries the exponent (R165). -/
def State.completeChoice (s : State) (n : Nat) (d : Node) : State :=
  let i := hScaleslot d.lines
  if s.slotBlocked d.ctx i then
    (s.removeEntries fun e => e.node == n).scaleBlock n d
  else
    let x := (s.slot i).bindTo d.ctx
    let e : Int := match d.pass.maxexp with
      | none => 0
      | some m => clampExp m x.margin d.rangeBits
    let r := s.writeExp d x e
    let d := { r.2 with pass := {} }
    if opTemplate (hOp d.lines) then r.1.setNode n (some { d with phase := .ready })
    else
      let f := d.furrow.getD 0
      let s := (r.1.setNode n (some { d with phase := .furrow })).onFurrow f fun x => x.releaseAfter n
      if s.imageHeld f n then s.drive (.patch f (BitVec.ofInt 8 e)) else s

/-- The choice after a pass patches the register load in the descriptor cache, but for an image that is already in the
shadow bank (R165, R317). -/
def State.choiceLines (s : State) (n : Nat) (d : Node) (f : State → State) : State :=
  if s.slotBlocked d.ctx (hScaleslot d.lines) = true ∨
      (opTemplate (hOp d.lines) = false ∧ s.imageHeld (d.furrow.getD 0) n = true) then f s
  else s.withLines [patchNeed n d] (·.park (.measureChoice n)) f

/-- MEASURE_CHOICE.
Log 27 (DESIGN CHOICE, safe). -/
def execMeasureChoice (n : Nat) (s : State) : Host.Outcome State Fault Refusal :=
  ok (isNode n) <| s.when s.working fun s =>
    match s.node n with
    | some d => if d.phase = .choice then s.choiceLines n d fun s => s.completeChoice n d else s
    | none => s

/-! ## Recordings (R162, R163) -/

/-- The recorded value at a history position (R157). -/
def Slot.at (x : Slot) (i : Nat) : Int := x.ref - x.deltas.getD i 0

/-- The COUNT positions that precede PTR (R157). -/
def Slot.valid (x : Slot) (i : Nat) : Bool := decide ((x.ptr + 15 - i) % 16 < x.count)

/-- Inserting a value into the history (R163). -/
def Slot.insert (x : Slot) (v : Int) : Slot :=
  let val := fun (i : Nat) => if i = x.ptr then v else x.at i
  let count := min (x.count + 1) 16
  let y := { x with ptr := (x.ptr + 1) % 16, count := count }
  let ref := (List.range 16).foldl (fun m i => if y.valid i then max m (val i) else m) v
  { y with
    ref := ref
    deltas := (List.range 16).map fun i => if y.valid i then (min (ref - val i) 31).toNat else 0 }

/-- Recording a folded value (R162). -/
def Slot.record (x : Slot) (r : ScaleRec) (v : Int) : Slot :=
  if r.acc32fmt then { x with pendmax := some (max v (x.pendmax.getD v)) }
  else
    let y := x.insert v
    if r.combine then { y with pendmax := none } else y

/-- The slot is bound to a context of the tenant of c (R155). -/
def State.slotOwned (s : State) (c i : Nat) : Bool :=
  match (s.slot i).bound with
  | some b => decide (s.tenantOf b = s.tenantOf c)
  | none => false

/-- A recording: nothing when the generation is stale, the slot unbound or bound by another tenant since (R155), or
the fold is ZERO or covers no committed run. -/
def State.scaleRecord (s : State) (r : ScaleRec) : State :=
  match r.fold.any, r.fold.maxexp with
  | true, some v =>
    if (s.ctx r.ctx).gen = r.gen ∧ s.slotOwned r.ctx r.slot = true then
      s.writeSlot r.slot ((s.slot r.slot).record r v)
    else s
  | _, _ => s

/-- SCALE_RECORD: the oldest report that waits. -/
def execScaleRecord (s : State) : Host.Outcome State Fault Refusal :=
  ok True <| s.when s.working fun s =>
    match s.stewardQ with
    | [] => s
    | r :: rest => { s with stewardQ := rest }.scaleRecord r

end Sys2Proof.Machine
end

