-- ==== Sys2Proof/Machine/Furrows.lean ====
section
/-! DEFINITION. Furrows and their arbiters: admission (R130, R191, R192), grants (R131, R132, R137,
R139), preloads (R135, R41, R338), engine starts (R136, R140, R141, R237), tokens (R126-R129), cycle
budgets and lending (R270). -/

namespace Sys2Proof.Machine

/-! ## Members -/

def Node.setMember (d : Node) (k : Nat) (g : Member → Member) : Node :=
  { d with members := d.members.map fun m => if m.ordinal = k then g m else m }

/-- Members that committed. -/
def Node.committedMembers (d : Node) : Nat :=
  (d.members.filter fun m => decide (m.st = .committed)).length

/-- EXECUTED of a sheaf that ends now (R88, R180). -/
def Node.executed (d : Node) : Nat :=
  if opTemplate (hOp d.lines) then d.committedMembers
  else if hOp d.lines = opCall then d.runsDone else d.iter

/-! ## Admission (R130) -/

/-- The furrow has room for one more entry of a context: 16 in all, 12 of one context. An entry granted into the
shadow bank counts until it starts.
Log 72 (DESIGN CHOICE, unsafe). -/
def Furrow.roomFor (x : Furrow) (c : Nat) : Bool :=
  decide (x.entries.length < 16) && decide ((x.entries.filter fun e => e.ctx == c).length < 12)

/-- Members other than the first wait until the first has taken the template's WAITTOK (R192); they wait again once a
pre-emption has returned it.
Log 77 (DESIGN CHOICE, unsafe). -/
def Node.tokenGate (d : Node) (e : Entry) : Bool :=
  match e.member with
  | some k => k != 0 && decide (hWaittok d.lines ≠ 0) && !d.tokenTaken
  | none => false

/-- A request that may enter its furrow now. -/
def State.enterable (s : State) (a : Admit) : Bool :=
  (s.furrow a.furrow).roomFor a.entry.ctx && !s.qPaused a.entry.queue &&
  match s.node a.entry.node with
  | some d => !d.tokenGate a.entry
  | none => false

/-- The request that enters first: lowest priority number, then release order, then expansion order. -/
def firstAdmit (as : List Admit) : Option Admit :=
  as.foldl (fun b a => match b with
    | none => some a
    | some c =>
      if a.entry.prio < c.entry.prio ∨
          (a.entry.prio = c.entry.prio ∧ a.entry.order < c.entry.order) then some a else b) none

/-- Entering an entry: at the end of its queue's list, or at its head (R138, R299). -/
def Furrow.enter (x : Furrow) (e : Entry) (front : Bool) : Furrow :=
  { x with entries := if front then e :: x.entries else x.entries ++ [e] }

/-- An entry enters furrow f, stamped with the order of entering (R137). -/
def State.enterFurrow (s : State) (f : Nat) (e : Entry) (front : Bool) : State :=
  (s.onFurrow f fun x => x.enter { e with entered := s.stamp } front).tickStamp.wakeLent

/-- The sheaf's state after its run has entered the furrow. -/
def Node.entered (d : Node) (e : Entry) : Node :=
  match e.member with
  | some k => d.setMember k fun m => { m with st := .entered }
  | none => if e.measure then d else { d with phase := .furrow }

def State.admit1 (s : State) (a : Admit) : State :=
  let s := { s with admits := s.admits.erase a }
  let s := s.modNode a.entry.node fun d => d.entered a.entry
  s.enterFurrow a.furrow a.entry a.front

/-- FURROW_ADMIT.
Log 27 (DESIGN CHOICE, safe). -/
def execFurrowAdmit (f : Nat) (s : State) : Host.Outcome State Fault Refusal :=
  ok (isFurrow f) <| s.when s.working fun s =>
    match firstAdmit (s.admits.filter fun a => a.furrow == f && s.enterable a) with
    | some a => s.admit1 a
    | none => s

/-! ## Grants -/

/-- The chain predecessor of a sheaf released early is over, or still on its way to the commit of its
last iteration; `true` in the second component once that commit has come (R138). -/
def State.chainState (s : State) (d : Node) : Bool × Bool :=
  if d.chainEarly then
    match (s.nodeAt d.queue (d.seq.toNat - 1)).bind s.node with
    | none => (true, true)
    | some p => match p.final with
      | none => (true, false)
      | some fin => (decide (fin.status = stDone), decide (fin.status = stDone))
  else (true, true)

/-- A MEASURE pass runs here with the sheaf's own image behind it (R165). -/
def Furrow.passRuns (x : Furrow) : Bool :=
  match x.run with
  | some r => r.entry.measure && r.abort.isNone && x.entries.any fun e => e.after && e.node == r.entry.node
  | none => false

/-- The entry may be granted: its queue and context are not paused, a running pass admits only the
sheaf's own image, and its chain predecessor has not ended without its last commit. -/
def State.grantable (s : State) (x : Furrow) (e : Entry) : Bool :=
  !s.qPaused e.queue && (s.ctx e.ctx).setwin.isNone && (!x.passRuns || e.after) &&
  match s.node e.node with
  | some d => (s.chainState d).1
  | none => false

/-- Inserting a number into a rising list without repeats. -/
def insNat (n : Nat) : List Nat → List Nat
  | [] => [n]
  | m :: t => if n = m then m :: t else if n < m then n :: m :: t else m :: insNat n t

/-- A list's numbers rising, without repeats. -/
def sortNats (ns : List Nat) : List Nat := ns.foldr insNat []

/-- Distinct contexts of a list of heads, numbers rising. -/
def contextsOf (hs : List Entry) : List Nat :=
  sortNats (hs.map (·.ctx))

/-- Numbers in ring order, beginning with the one served last.
Log 26 (DEDUCED, unsafe). -/
def ringFrom (cs : List Nat) (last : Option Nat) : List Nat :=
  match last with
  | none => cs
  | some l => (cs.filter fun c => decide (l ≤ c)) ++ cs.filter fun c => decide (c < l)

/-- The head of a context that is taken next: its queues in round-robin order. -/
def Furrow.nextOf (x : Furrow) (hs : List Entry) (c : Nat) : Option Entry :=
  let qs := sortNats ((hs.filter fun e => e.ctx == c).map (·.queue))
  (ringNext qs (Tbl.get none x.lastQueue c)).bind fun q => hs.find? fun e => e.ctx == c && e.queue == q

/-- Visits a context needs before its deficit covers its head's charge.
Log 26 (DEDUCED, unsafe). -/
def visitsFor (deficit : Int) (charge : Nat) : Nat := ((charge : Int) - deficit + 3999).toNat / 4000

/-- Adding to a context's deficit. -/
def Furrow.addDeficit (x : Furrow) (c : Nat) (v : Int) : Furrow :=
  { x with deficits := Tbl.set 0 x.deficits c (Tbl.get 0 x.deficits c + v) }

/-- The last walk of the ring: contexts before the granted one are visited once more.
Log 26 (DEDUCED, unsafe). -/
def walkRing (x : Furrow) (rounds : Nat) : List (Nat × Entry) → Option (Entry × Furrow)
  | [] => none
  | (c, e) :: rest =>
    let d := Tbl.get 0 x.deficits c + 4000 * (rounds : Int)
    if (e.charge : Int) ≤ d then
      let x := { x.addDeficit c (4000 * (rounds : Int) - e.charge) with
        lastCtx := some c, lastQueue := Tbl.set none x.lastQueue c (some e.queue) }
      some (e, rest.foldl (fun x p => x.addDeficit p.1 (4000 * (rounds : Int))) x)
    else walkRing (x.addDeficit c (4000 * (rounds : Int) + 4000)) rounds rest

/-- Arbitration among eligible heads (R131): strict priority, then deficit round robin.
Log 26 (DEDUCED, unsafe). -/
def Furrow.arbitrate (x : Furrow) (hs : List Entry) : Option (Entry × Furrow) :=
  let p := hs.foldl (fun a e => min a e.prio) 4
  let hs := hs.filter fun e => e.prio == p
  let ring := (ringFrom (contextsOf hs) x.lastCtx).filterMap fun c =>
    (x.nextOf hs c).map fun e => (c, e)
  match ring.map fun p => visitsFor (Tbl.get 0 x.deficits p.1) p.2.charge with
  | [] => none
  | v :: vs => walkRing x (vs.foldl min v) ring

/-- The TOKEN-state head that is preloaded when no head is eligible (R137). -/
def tokenHead (hs : List Entry) : Option Entry :=
  let p := hs.foldl (fun a e => min a e.prio) 4
  (hs.filter fun e => e.prio == p).foldl (fun b e => match b with
    | none => some e
    | some c => if e.entered < c.entered then some e else b) none

/-! ### The fabric (R33, R35) -/

/-- The cluster port that carries a furrow's lines; 12 is the link port group. -/
def fabricPort (f : Nat) : Nat := if f < 576 then f / 48 else 12

/-- The core port, or the link furrow, among which the port goes round. -/
def fabricUnit (f : Nat) : Nat := if f < 576 then f / 3 else f

/-- Lines of the entry's sheaf that the fabric carries: its own, a START's recorded loads and a member's patch line. -/
def State.fabricLines (s : State) (e : Entry) : Nat :=
  match s.node e.node with
  | some d => d.lines.length + d.cfg.length + (if e.member.isSome then 1 else 0)
  | none => 0

/-- The furrows of a port whose preloads are under way: furrow, lines that wait, order of the grant. -/
def State.carrying (s : State) (port : Nat) : List (Nat × Nat × Nat) :=
  s.furrows.filterMap fun e => match e.2.shadow with
    | some sh => if fabricPort e.1 = port ∧ sh.loaded = false then some (e.1, sh.left, sh.since) else none
    | none => none

/-- The furrow that the port serves next: of the next unit in ring order with lines waiting, the one granted first
(R35). -/
def State.nextCarried (s : State) (port : Nat) : Option Nat :=
  let ws := (s.carrying port).filter fun w => w.2.1 != 0
  let units := sortNats (ws.map fun w => fabricUnit w.1)
  (ringNext units ((s.fabric.find? fun e => e.1 == port).map Prod.snd)).bind fun u =>
    ((ws.filter fun w => fabricUnit w.1 == u).foldl (fun (b : Option (Nat × Nat × Nat)) w => match b with
      | none => some w
      | some c => if w.2.2 < c.2.2 then some w else b) none).map Prod.fst

/-- One handshake of a port: one line reaches its furrow's shadow bank. -/
def State.carryLine (s : State) (port : Nat) : State :=
  match s.nextCarried port with
  | none => s
  | some f =>
    { s.modFurrow f fun x => { x with shadow := x.shadow.map fun sh => { sh with left := sh.left - 1 } } with
      fabric := (port, fabricUnit f) :: s.fabric.filter fun e => e.1 != port }

def State.carryLines (s : State) (port : Nat) : Nat → State
  | 0 => s
  | k + 1 => (s.carryLine port).carryLines port k

/-- The port carries lines until the last of furrow f's has arrived; none if another preload is complete before
(R35).
Log 78 (DESIGN CHOICE, safe). -/
def State.carryTo (s : State) (f : Nat) : Nat → Option State
  | 0 => none
  | k + 1 =>
    let ws := s.carrying (fabricPort f)
    if ws.any fun w => w.1 == f && w.2.1 == 0 then some s
    else if ws.any fun w => w.2.1 == 0 then none
    else (s.carryLine (fabricPort f)).carryTo f k

/-- Before a grant the port has carried some of the lines that waited at it; how many is open, since handshakes are
shorter than the model's grain.
Log 78 (DESIGN CHOICE, safe). -/
def State.carrySome (s : State) (port : Nat) : State :=
  let n := ((s.carrying port).map fun w => w.2.1).foldl (· + ·) 0
  if n = 0 then s else (s.carryLines port (s.freeNow.toNat % (n + 1))).useFree

/-- Placing a granted entry in the shadow bank: the descriptor cache reads its lines, and the fabric begins to carry
them (R35, R317). -/
def State.preload (s : State) (f : Nat) (x : Furrow) (e : Entry) (parked : Bool) : State :=
  let s := (s.setFurrow f x).carrySome (fabricPort f)
  let s := match s.node e.node with
    | some d => s.beginReads (.preloadComplete f none) (sheafNeeds e.node d.lines.length)
    | none => s
  ((s.modFurrow f fun x => { x with shadow := some {
      entry := e, loaded := false, parked := parked, left := s.fabricLines e, since := s.stamp } }).tickStamp.drive
    (.preload f e.node e.member))

/-- The entry of the chained successor (R138). -/
def Furrow.chainEntry (x : Furrow) (es : List Entry) : Option Entry :=
  x.chainFrom.bind fun m => es.find? fun e => e.order == m && e.member.isNone

/-- After 16 chained starts while another context's head is eligible, the next successor goes through arbitration
(R139). -/
def Furrow.chainSpent (x : Furrow) (es : List Entry) (e : Entry) : Bool :=
  decide (16 ≤ x.chained) && es.any fun h => h.ctx != e.ctx

/-- The chained successor that is granted without arbitration (R138, R139). -/
def Furrow.direct (x : Furrow) (es : List Entry) : Option Entry :=
  (x.chainEntry es).bind fun e => if x.chainSpent es e then none else some e

/-- One grant (R131, R137, R139); `chain` lets a chained successor bypass the arbitration.
Log 26 (DEDUCED, unsafe), 87 (DESIGN CHOICE, unsafe). -/
def State.grantWith (s : State) (f : Nat) (chain : Bool) : State :=
  let x := s.furrow f
  let hs := x.heads.filter fun e => s.grantable x e
  let es := hs.filter x.eligible
  let parkedNode := match x.shadow with
    | some sh => if x.parkedIdle then some sh.entry else none
    | none => none
  let s := if parkedNode.isSome && !es.isEmpty then s.discard f else s
  let x := s.furrow f
  if x.shadow.isSome then s
  else match if chain then x.direct es else none with
    | some e =>
      s.preload f (x.addDeficit e.ctx (-(e.charge : Int))) e false
    | none =>
      let spent := (x.chainEntry es).any fun e => x.chainSpent es e
      match x.arbitrate es with
      | some (e, y) =>
        s.preload f { y with chainFrom := if y.chainFrom = some e.order ∨ spent = true then none else y.chainFrom } e
          false
      | none => match tokenHead hs with
        | some e => s.preload f x e true
        | none => s

/-- Log 26 (DEDUCED, unsafe). -/
def State.grant (s : State) (f : Nat) : State := s.grantWith f true

/-- ARBITER_GRANT. -/
def execArbiterGrant (f : Nat) (s : State) : Host.Outcome State Fault Refusal :=
  ok (isFurrow f) <| s.when s.working fun s => s.grant f

/-! ## Preloads (R41, R338) -/

/-- DETAIL of an ECC record (R338). -/
def eccDetail (code line : Nat) (ordinal : Option Nat) : BitVec 32 :=
  BitVec.ofNat 32 (code * 2 ^ 24 + line % 256 * 2 ^ 16 + (ordinal.getD 0xFFFF) % 2 ^ 16)

/-- Code and line of R338, and the source, of an error that a preload met.
Log 17 (DESIGN CHOICE, safe). -/
def preloadCode (d : Node) (f : Nat) : PreloadError → Nat × Nat × Nat
  | .nodeSlot => (0x01, 0xFF, srcResolver d.half)
  | .descriptor l => (0x02, l, srcDescriptor d.half)
  | .furrowEntry => (0x03, 0xFF, srcFurrow f)
  | .fabric l => (0x04, l, if f < 576 then 0x0400 + f / 48 else 0x040C)
  | .bridge l => (0x05, l, srcBridge)
  | .patchLine => (0x06, 0xFF, srcDescriptor d.half)

/-- The event of an uncorrectable error of a sheaf; the address and the syndrome of a word that the step does not name
are open values.
Log 17 (DESIGN CHOICE, safe). -/
def eccOf (d : Node) (source : Nat) (detail : BitVec 32) (furrow : BitVec 10) (addr syn : Word) : Event :=
  { d.event source kUncorrectable .contain stEcc detail furrow with
    address := addr, info0 := word [(8, 0xFF), (0, fld syn 7 0)] }

/-- An uncorrectable error of a sheaf (R40, R41): it retires ECC and its context is torn down.
Log 17 (DESIGN CHOICE, safe). -/
def State.sheafEcc (s : State) (n : Nat) (d : Node) (source : Nat) (detail : BitVec 32)
    (furrow : BitVec 10) : State :=
  s.useFree.useFree.doom n d { status := stEcc, executed := d.executed, detail := detail, furrow := furrow }
    (eccOf d source detail furrow s.freeNow s.useFree.freeNow)

/-- Such an error of a sheaf whose end is decided already: the event alone (R42, R340).
Log 39 (DEDUCED, unsafe). -/
def State.eccEvent (s : State) (d : Node) (source : Nat) (furrow : BitVec 10) (fin : Option Final) : State :=
  s.useFree.useFree.raise
    ({ eccOf d source 0 furrow s.freeNow s.useFree.freeNow with cause := 0xE2 }.endedAs fin)

/-- The error can be met by the preload of an entry: its sheaf has the line, it is a member's, and the half bridge
carries it only to a furrow that the other half serves (R24, R25). -/
def State.errorFits (s : State) (f : Nat) (e : Entry) (d : Node) : PreloadError → Bool
  | .descriptor l => decide (l < d.lines.length)
  | .patchLine => e.member.isSome
  | .bridge _ => s.inService 0 && s.inService 1 && decide (s.server f ≠ d.half)
  | _ => true

/-- The bank is loaded (R135). -/
def State.loadBank (s : State) (f : Nat) : State :=
  s.modFurrow f fun x => { x with shadow := x.shadow.map fun sh => { sh with loaded := true, left := 0 } }

/-- What is left of the reads of furrow f's preload, which began with it: the completion waits for them (R317). -/
def State.preloadRead (s : State) (f : Nat) (err : Option (Bool × PreloadError)) (n : Nat) (d : Node)
    (g : State → State) : State :=
  s.withReads (.preloadComplete f none) (sheafNeeds n d.lines.length) (·.park (.preloadComplete f err)) g

/-- PRELOAD_COMPLETE: the bank is loaded, once the descriptor cache could read the lines (R317) and the port has
carried its lines in the order of R35; or the preload is discarded for an uncorrectable error; a corrected one is
reported (R39, R41). Failing bit and syndrome of a corrected error are open.
Log 17 (DESIGN CHOICE, safe). -/
def execPreloadComplete (f : Nat) (err : Option (Bool × PreloadError)) (s : State) :
    Host.Outcome State Fault Refusal :=
  ok (isFurrow f) <| s.when s.working fun s =>
    match (s.furrow f).shadow with
    | none => s
    | some sh =>
      if sh.loaded then s
      else match s.node sh.entry.node, err with
        | none, _ => s
        | some d, none => s.preloadRead f err sh.entry.node d fun s =>
          match s.carryTo f 20000 with
          | some t => t.loadBank f
          | none => s
        | some d, some (unc, e) =>
          if !s.errorFits f sh.entry d e then s
          else
            let c := preloadCode d f e
            if unc then
              (s.discard f).sheafEcc sh.entry.node d c.2.2 (eccDetail c.1 c.2.1 sh.entry.member) (BitVec.ofNat 10 f)
            else s.preloadRead f err sh.entry.node d fun s => match s.carryTo f 20000 with
              | some t => (t.loadBank f).useFree.corrected c.2.2
                  { unc := false, pos := BitVec.ofNat 8 (fld t.freeNow 15 8)
                    syn := BitVec.ofNat 8 (fld t.freeNow 7 0) }
              | none => s

/-! ## Address streams (R237) -/

/-- Entries in the lines of 8 in which they are sent (R237). -/
def streamLines (es : List (Option Word)) : List (List (Option Word)) :=
  (List.range ((es.length + 7) / 8)).map fun i => (es.drop (8 * i)).take 8

/-- The bound issue starts: the prefill goes to the FIFO, and the port holds the remaining credits. -/
def State.streamStart (s : State) (f : Nat) (d : Node) : State :=
  match d.child with
  | none => s
  | some (call, i) =>
    match s.portOf call i with
    | none => s
    | some (j, p) =>
      let k := s.callCore call
      let s := s.setPort k j (some { p with started := true, prefill := []
                                            credits := 256 - p.prefill.length })
      let s := s.driveAll ((streamLines p.prefill).map fun es => .stream f es)
      s.wakeCredit k j

/-! ## Engine starts (R136) -/

/-- The sheaf has made its last start: it has ended, or runs its last iteration, which no budget holds back. -/
def State.lastStarted (s : State) (n : Nat) (d : Node) : Bool :=
  d.final.isSome || (d.started && decide (hRepeat d.lines ≤ d.iter + 1) && !s.furrows.any fun x => match x.2.run with
    | some r => r.held && r.entry.node == n
    | none => false)

/-- The sheaf's predecessor on its chain has CHAIN and runs, or ran, on the same furrow (R142). -/
def State.cycVoid (s : State) (d : Node) : Bool :=
  match (s.queue d.queue).cycChain with
  | some (f, n) => decide (d.furrow = some f) && decide (n + 1 = d.seq.toNat)
  | none => false

/-- An FMT = 0 sheaf's start is not held back: every earlier sheaf of its chain has made its last start, and no budget
runs, unless CHAIN on the same furrow makes the budget void (R141, R142): then the sheaf starts at the commit of its
predecessor. -/
def State.budgetOpen (s : State) (d : Node) : Bool :=
  if d.fmt ≠ 0 then true
  else
    let earlier := s.nodesWhere fun _ e => e.queue == d.queue && e.child.isNone && decide (e.seq.toNat < d.seq.toNat) &&
      decide (e.phase ≠ .heldRecord)
    (earlier.all fun n => match s.node n with
      | some p => s.lastStarted n p && (!(s.cycVoid d && decide (p.seq.toNat + 1 = d.seq.toNat)) || p.final.isSome)
      | none => true) &&
    (s.cycVoid d || !(s.queue d.queue).cycHold)

/-- The sheaf in the shadow bank may start now. -/
def State.canStart (s : State) (x : Furrow) (sh : Shadow) (d : Node) : Bool :=
  sh.loaded && x.run.isNone && x.eligible sh.entry && !sh.entry.after && (s.chainState d).2 &&
  s.budgetOpen d

/-- A run that starts now is in 32-bit mode: after a saturation every later iteration, rerun of a pre-empted one and
member of the sheaf is (R170, R193).
Log 75 (DEDUCED, unsafe). -/
def Node.wide (d : Node) : Bool := d.acc32

/-- The run begins in measure mode (R165, R167). -/
def Node.measures (d : Node) (e : Entry) : Bool := e.measure || hOp d.lines == opMeasure

/-- The sheaf after a start of an entry (R127, R195). -/
def Node.afterStart (d : Node) (e : Entry) : Node :=
  let d' := { d with started := true, tokenTaken := d.tokenTaken || decide (e.waittok ≠ 0) }
  match e.member with
  | some k => d'.setMember k fun m => { m with st := .running, acc32 := d.wide, ran := true }
  | none => if e.measure then d' else { d' with phase := .running }

/-- First start of the sheaf, or of its member: its dispatch latency counts (R442). -/
def Node.firstStart (d : Node) (e : Entry) : Bool :=
  match e.member.bind d.member with
  | some m => !m.ran
  | none => !d.started

/-- The furrow after the start: the entry leaves its list, its token and a deferred charge are taken,
chained starts are counted (R126, R137, R139), and behind a MEASURE pass stands the sheaf's own
image, which is charged as an entry of its own.
Log 74 (DESIGN CHOICE, unsafe). -/
def Furrow.afterStart (x : Furrow) (sh : Shadow) (d : Node) (now stamp : Nat) (early : Bool) : Furrow :=
  let e := sh.entry
  let x := if e.waittok = 0 then x else x.takeTok e.ctx e.gen e.waittok
  let x := { x with entries := x.entries.erase e, shadow := none
                    run := some { entry := e, abort := none, iter := d.iter, since := now, early := early, tag := d.tag
                                  acc16 := d.kind == 0 && hAccw d.lines == 1 && !d.wide && !d.measures e } }
  let x := if sh.parked then x.addDeficit e.ctx (-(e.charge : Int)) else x
  let others := x.heads.any fun h => h.ctx != e.ctx && x.eligible h
  let x := if x.chainFrom = some e.order ∧ e.member = none then
      { x with chainFrom := none, chained := if others then x.chained + 1 else 0 }
    else { x with chained := 0 }
  if e.measure ∧ opTemplate (hOp d.lines) = false then
    x.enter { (d.afterStart e).entry e.node none false e.order with after := true, entered := stamp } true
  else x

/-- The budget that a start of an FMT = 0 sheaf begins: CYC cycles of 0.625 ns (R141).
Log 3 (DESIGN CHOICE, unsafe). -/
def State.startBudget (s : State) (d : Node) : State :=
  if d.fmt = 0 then s.modQueue d.queue fun x => { x with
    cycHold := decide (hCyc d.lines ≠ 0)
    cycDue := s.now + hCyc d.lines / 1600
    cycChain := if fChain d.lines then d.furrow.map fun f => (f, d.seq.toNat) else none }
  else s

/-- The START record (R439). -/
def State.traceStart (s : State) (f : Nat) (d : Node) (member : Option Nat) : State :=
  s.traceRec 1 d.queue (some d.ctx) (traceW1 d.tag (traceRun f member false))

/-- A start restarts the sheaf's timer, and for a child its CALL's (R76, R218). -/
def State.startTimers (s : State) (n : Nat) (d : Node) : State :=
  let s := s.restartTimer n
  match d.child with
  | some (call, _) => s.restartTimer call
  | none => s

/-- Bucket of a dispatch latency in ns (R442). -/
def latencyBucket (ns : Nat) : Nat := if ns < 64 then 0 else min 15 (Nat.log2 (ns / 32))

/-- The latency from release to a first start is counted (R442).
Log 3 (DESIGN CHOICE, unsafe). -/
def State.countLatency (s : State) (d : Node) (e : Entry) : State :=
  if d.firstStart e then (s.lifeAdd (16 + latencyBucket (s.nsSince d.releasedAt)) 1).useFree else s

/-- The stamp of a run (R290, R357). -/
def State.runStamp (s : State) (r : EngineRun) : Stamp := s.stampOf r.entry.ctx r.entry.gen

/-- The engine port swaps banks and starts the sheaf. -/
def State.start1 (s : State) (f : Nat) (sh : Shadow) (d : Node) : State :=
  let e := sh.entry
  let n := e.node
  let s := s.countLatency d e
  let s := s.setNode n (some (d.afterStart e))
  let s := (s.onFurrow f fun x => x.afterStart sh d s.now s.stamp (!s.clocks.evalid)).tickStamp
  let s := s.startBudget d
  let s := s.drive (.start (s.stampOf e.ctx e.gen) f n e.member (d.measures e)
    (imageOut (d.image e.member (d.measures e) d.wide)))
  let s := (s.traceStart f d e.member).startTimers n d
  if e.measure then s else s.streamStart f d

/-- The next iteration of an FMT = 0 run whose budget has ended. -/
def State.nextHeld (s : State) (f : Nat) (r : EngineRun) (d : Node) : State :=
  let s := s.modFurrow f fun x => { x with
    run := some { r with held := false, since := s.now, early := !s.clocks.evalid } }
  (((s.startBudget d).drive (.rerun (s.runStamp r) f)).traceStart f d none).startTimers r.entry.node d

/-- ENGINE_START. -/
def execEngineStart (f : Nat) (s : State) : Host.Outcome State Fault Refusal :=
  ok (isFurrow f) <| s.when s.working fun s =>
    let x := s.furrow f
    match x.run with
    | some r =>
      match s.node r.entry.node with
      | some d =>
        if r.held ∧ r.abort = none ∧ (s.queue d.queue).cycHold = false then s.nextHeld f r d else s
      | none => s
    | none =>
      match x.shadow with
      | some sh =>
        match s.node sh.entry.node with
        | some d => if s.canStart x sh d then s.start1 f sh d else s
        | none => s
      | none => s

/-- CYCLE_BUDGET_EXPIRY: CYC cycles after the last start on the chain of queue q, the next one goes (R141).
Log 3 (DESIGN CHOICE, unsafe). -/
def execCycleBudgetExpiry (q : Nat) (s : State) : Host.Outcome State Fault Refusal :=
  ok (isQueue q) <| s.when s.working fun s =>
    if (s.queue q).cycDue ≤ s.now then s.modQueue q fun x => { x with cycHold := false } else s

/-! ## Tokens (R126-R129) -/

/-- A delivery into a token store: added, or none when it needs a 65th entry or exceeds 65,535. -/
def Furrow.addTok (x : Furrow) (c : Nat) (gen : BitVec 12) (v : BitVec 16) : Option Furrow :=
  if x.hasTok c gen v then
    let hit := fun (t : Tok) => t.ctx == c && t.gen == gen && t.value == v
    if x.tokens.any fun t => hit t && decide (65535 ≤ t.count) then none
    else
      let ts := x.tokens.map fun t => if hit t then { t with count := t.count + 1 } else t
      some { x with tokens := ts }
  else if 64 ≤ x.tokens.length then none
  else some { x with tokens := x.tokens ++ [{ ctx := c, gen := gen, value := v, count := 1 }] }

/-- A head has become eligible: a sheaf parked in the shadow bank for its token gives way (R137). -/
def State.unpark (s : State) (f : Nat) : State :=
  let x := s.furrow f
  if x.parkedIdle ∧ x.anyEligible = true then s.discard f else s

/-- A token lands: dropped with an old generation (R129, R290) or for a furrow that is absent (R124), added, or an
overflow that tears its context down (R128). -/
def State.landToken (s : State) (f c : Nat) (gen : BitVec 12) (v : BitVec 16) : State :=
  if (s.ctx c).gen ≠ gen then s
  else if !s.furrowPresent f then
    s.raise { source := srcFurrow f, kind := kTokenDrop, cls := .note, ctx := some (c, gen)
              furrow := BitVec.ofNat 10 f }
  else match (s.furrow f).addTok c gen v with
    | some x => ((s.setFurrow f (x.touch s.now s.trimmed)).unpark f).wakeLent
    | none => s.raise { source := srcFurrow f, kind := kTokenOverflow, cls := .contain
                        ctx := some (c, gen), furrow := BitVec.ofNat 10 f, cause := 0xE1 }

/-- TOKEN_DELIVERY: of a token in flight on this chip, unless it carries an older CHIPGEN (R357), or of one that arrives
from another, whose stale tokens the data movers drop (R381). -/
def execTokenDelivery (f c : Nat) (g : Gens) (v : BitVec 16) (remote : Bool) (s : State) :
    Host.Outcome State Fault Refusal :=
  ok (isFurrow f ∧ isCtx c) <|
    let t : Flying := { furrow := f, ctx := c, gen := g.ctx, value := v }
    s.when (if remote then s.engineOn else s.flying.contains t && g.chip == s.recov.chipgen) fun s =>
      s.delivery (.tokenDelivery f c g v remote) fun s =>
        if s.recov.inprogress then s
        else if remote then s.landToken f c g.ctx v
        else { s with flying := s.flying.erase t }.landToken f c g.ctx v

/-! ## Lending (R270, R271) -/

/-- The partition that owns a cluster. -/
def State.clusterPart (s : State) (cl : Nat) : Option Nat :=
  (List.range 12).find? fun p => (s.part p).defined && bit (s.part p).clusters cl

/-- Core i = 16c + k has met the conditions of R270 for 50 µs. -/
def State.lendableNow (s : State) (i : Nat) : Bool :=
  s.regs.lendEn && s.furrowPresent (3 * i) && !s.lent.contains i &&
  (match s.clusterPart (i / 16) with
   | some p => !bit s.regs.nolend p
   | none => true) &&
  (coreFurrows i).all fun f => match (s.furrow f).quiet with
    | some t => decide (t + 50 ≤ s.now)
    | none => false

/-- LEND_MARK. -/
def execLendMark (core : Nat) (s : State) : Host.Outcome State Fault Refusal :=
  ok (core < 192) <| s.when s.working fun s =>
    if s.lendableNow core then { s with lent := core :: s.lent }.drive (.lendable core true) else s

end Sys2Proof.Machine
end

