-- ==== Sys2Proof/Machine/Engine.lean ====
section
/-! DEFINITION. What engines report (R45, R88, R161, R170-R172, R193, R196, R290, R296, R304), chaining
at a commit (R138), pre-emption (R299) and the events of a timeout (R77, R353). -/

namespace Sys2Proof.Machine

/-! ## Ports and accounting -/

/-- A boundary port detects a handshake protocol violation (R331): a handshake without a run to which
it could belong.
Log 14 (DEDUCED, unsafe). -/
def State.portViolation (s : State) (f : Nat) : State :=
  s.raise { source := srcFurrow f, kind := kPort, cls := .severe, furrow := BitVec.ofNat 10 f }

/-- Adding ns to the busy counter of an engine kind. -/
def Acct.busy (a : Acct) (kind : Nat) (ns : Word) : Acct :=
  if kind = 0 then { a with busyMe := a.busyMe + ns }
  else if kind = 1 then { a with busyVe := a.busyVe + ns }
  else if kind = 2 then { a with busyDm := a.busyDm + ns }
  else { a with busyLink := a.busyLink + ns }

/-- A report or handshake that arrives from furrow f: for the run that it belongs to by its stamp; one of an older
generation is dropped, and any other violates the protocol (R290, R331, R357). While the engine ports are not enabled
the handshake does not take place (R411).
Log 81 (DEDUCED, safe). -/
def State.reportFor (s : State) (f : Nat) (st : Stamp) (k : EngineRun → State) : State :=
  if !s.engineOn then s else match (s.furrow f).run with
  | some r => if st = s.runStamp r then k r else if s.fresh st then s.portViolation f else s
  | none => if s.fresh st then s.portViolation f else s

/-- The figures of a handshake (R304): busy time runs from the start. Of the energy of a run that began before EVALID
the part used since then is open (R423).
Log 3 (DESIGN CHOICE, unsafe), 57 (DEDUCED, unsafe). -/
def State.account (s : State) (f : Nat) (r : EngineRun) (rep : EngineReport) (lost : Bool) : State :=
  let ns := BitVec.ofNat 64 (s.nsSince r.since)
  let s := s.useFree
  let energy := if r.early then s.freeNow.toNat % (rep.energy + 1) else rep.energy
  let s := if r.early then s.useFree else s
  s.modAcct r.entry.ctx fun a =>
    let a := a.busy (kindOfFurrow f) ns
    { a with
      busyLost := if lost then a.busyLost + ns else a.busyLost
      memread := a.memread + BitVec.ofNat 64 rep.memread
      memwrite := a.memwrite + BitVec.ofNat 64 rep.memwrite
      linksent := a.linksent + BitVec.ofNat 64 rep.linksent
      energy := if s.clocks.evalid then a.energy + BitVec.ofNat 64 energy else a.energy }

/-- An engine that no longer runs; what names its transfers is kept, for those that end after it (R439). -/
def Furrow.noRun (x : Furrow) : Furrow :=
  { x with
    run := none
    ended := match x.run with
      | some r => (r.tag, r.entry.queue, r.entry.ctx) :: x.ended.filter fun e => e.2.2 != r.entry.ctx
      | none => x.ended }
def State.clearRun (s : State) (f : Nat) : State := s.onFurrow f Furrow.noRun

/-- The sheaf of a run: gone once a teardown or the queue's destruction has retired it (R291, R295). -/
def State.runNode (s : State) (r : EngineRun) : Option Node :=
  if r.abort = some .teardown ∨ r.abort = some .destroy then none
  else match s.node r.entry.node with
    | some d => if d.gen = r.entry.gen ∧ d.ctx = r.entry.ctx then some d else none
    | none => none

/-! ## Folding (R161) -/

def Fold.add (x : Fold) (rep : EngineReport) : Fold where
  any := true
  maxexp := match x.maxexp, rep.maxexp with
    | a, none => a
    | none, some b => some b.toInt
    | some a, some b => some (max a b.toInt)
  clipped := x.clipped + rep.clipped

/-! ## Chaining (R138) -/

/-- A steward step of the sheaf would ask for a MEASURE pass now. -/
def State.needsPass (s : State) (d : Node) : Bool :=
  d.stewarded && hOp d.lines != opMeasure && !s.slotBlocked d.ctx (hScaleslot d.lines) &&
  (chooseExp ((s.slot (hScaleslot d.lines)).control (regOf d.loaded rSlotctl)) d).isNone

/-- At the first commit of a sheaf with CHAIN, its successor on the same furrow is released early. -/
def State.chainCommit (s : State) (f : Nat) (d : Node) : State :=
  if fChain d.lines ∧ d.child = none ∧ d.fmt ≠ 0 then
    match s.nodeAt d.queue (d.seq.toNat + 1) with
    | none => s
    | some m => match s.node m with
      | none => s
      | some b =>
        let b' := { b with chainEarly := true }
        if (hOp b.lines == opStart || hOp b.lines == opCfgstart) && !tAny b.lines &&
            tUnit b.lines == f && s.releasable b' && !s.needsPass b then
          (s.setNode m (some b')).withLines (s.releaseNeeds b') (·.park (.sheafRelease m)) fun s =>
            s.releaseSheaf m b'
        else s
  else s

/-- A sheaf ends without the commit of its last iteration: the preload of a successor that was released early is
discarded, and arbitration grants it once the sheaf has retired; one still held waits for that retirement (R138). -/
def State.chainBreak (s : State) (d : Node) : State :=
  match (if fChain d.lines ∧ d.child = none then s.nodeAt d.queue (d.seq.toNat + 1) else none) with
  | none => s
  | some m => match s.node m with
    | some b =>
      if b.chainEarly ∧ b.phase = .held then s.setNode m (some { b with chainEarly := false })
      else if b.chainEarly then
        (s.discardWhere fun e => e.node == m).modFurrow (b.furrow.getD (tUnit b.lines)) fun x =>
          { x with chainFrom := if x.chainFrom = some b.relOrder then none else x.chainFrom }
      else s
    | none => s

/-! ## Ends of sheaves -/

/-- The report of an ended sheaf travels to the resolver (R45). -/
def State.sendReport (s : State) (n : Nat) (d : Node) (fin : Final) : State :=
  { s.setNode n (some { d with phase := .committed, final := some fin }) with
    reports := s.reports ++ [{ node := n, gen := d.gen, order := d.order, final := fin }] }

/-- The DONE or ABORTED end of an engine sheaf. -/
def Node.endFinal (d : Node) (status : BitVec 8) (f : BitVec 10) : Final where
  status := status
  executed := d.executed
  detail := if status = stDone then d.doneDetail else 0
  furrow := f

/-- Every member of a template has been created and has committed or ended (R196). -/
def Node.allEnded (d : Node) : Bool :=
  d.plan.isEmpty && d.members.all fun m => decide (m.st = .committed) || decide (m.st = .ended)

/-- Every member committed. -/
def Node.allCommitted (d : Node) : Bool :=
  d.plan.isEmpty && !d.cut && d.members.all fun m => decide (m.st = .committed)

/-- The furrow of the first member, which delivers the template's token (R192).
Log 29 (DEDUCED, unsafe). -/
def Node.firstFurrow (d : Node) : Nat := (d.members.headD
  { ordinal := 0, id := 0, arg0 := 0, arg1 := 0, furrow := 0, st := .ended, acc32 := false }).furrow

/-- A template whose members have all committed or ended: DONE with its token, or ABORTED (R192,
R196); its record names the furrow of the member that ended last.
Log 29 (DEDUCED, unsafe). -/
def State.templateEnd (s : State) (n : Nat) (f : Nat) : State :=
  match s.node n with
  | none => s
  | some d =>
    if d.phase = .expand ∧ d.allEnded = true then
      if d.allCommitted then
        (s.emitToken d d.firstFurrow).sendReport n d (d.endFinal stDone (BitVec.ofNat 10 f))
      else s.sendReport n d (d.endFinal stAborted (BitVec.ofNat 10 f))
    else s

/-- An iteration's entry returns to the head of its queue's list in its furrow (R299): at once where
the furrow has room, otherwise as soon as it has. -/
def State.requeue (s : State) (f : Nat) (e : Entry) : State :=
  if (s.furrow f).roomFor e.ctx then s.enterFurrow f e true else s.askAdmit f e true

/-! ## Commits -/

/-- The commit of a MEASURE pass: its report goes to the steward (R165). An abort request, which may have met a
pre-emption at the port (R305), ends the sheaf. -/
def State.commitPass (s : State) (n : Nat) (d : Node) (r : EngineRun) (rep : EngineReport) : State :=
  if r.abort = some .request ∨ (r.abort.isSome ∧ d.aborted = true) then
    (s.removeEntries fun e => e.node == n).retireWith n stAborted 0 0
  else
    s.setNode n (some { d with
      phase := .choice, preempted := 0
      pass := { any := true, maxexp := rep.maxexp.map (·.toInt), clipped := 0 } })

/-- The commit of a member (R193, R194). -/
def State.commitMember (s : State) (f n : Nat) (d : Node) (k : Nat) (rep : EngineReport) : State :=
  let d := (d.setMember k fun m => { m with st := .committed })
  let d := { d with fold := d.fold.add rep, preempted := 0 }
  (s.setNode n (some d)).templateEnd n f

/-- The next iteration starts on the engine (R88, R136), unless an FMT = 0 budget holds it back.
Log 88 (DEDUCED, unsafe). -/
def State.nextIteration (s : State) (f n : Nat) (d : Node) (r : EngineRun) : State :=
  let held := decide (d.fmt = 0) && (s.queue d.queue).cycHold
  let s := s.setNode n (some d)
  let s := s.modFurrow f fun x => { x with run := some { r with
    iter := d.iter, held := held, since := s.now, early := !s.clocks.evalid } }
  if held then s.restartTimer n
  else (((s.startBudget d).drive (.rerun (s.runStamp r) f)).traceStart f d none).startTimers n d

/-- The commit of an iteration of a sheaf that is no template (R88, R296). -/
def State.commitIteration (s : State) (f n : Nat) (d : Node) (r : EngineRun) (rep : EngineReport) :
    State :=
  let d := { d with iter := d.iter + 1, fold := d.fold.add rep, preempted := 0 }
  let fr : BitVec 10 := BitVec.ofNat 10 f
  if hRepeat d.lines ≤ d.iter then
    let s := ((s.clearRun f).streamEnd d true).emitToken d f
    let s := s.sendReport n d (d.endFinal stDone fr)
    if d.iter = 1 then s.chainCommit f d else s
  else
    let s := s.setNode n (some d)
    let s := if d.iter = 1 then s.chainCommit f d else s
    if r.abort = some .request ∨ (r.abort = some .preempt ∧ d.aborted = true) then
      (((s.clearRun f).streamEnd d false).sendReport n d (d.endFinal stAborted fr)).chainBreak d
    else if r.abort = some .preempt then
      ((s.clearRun f).setNode n (some { d with phase := .between })).requeue f { r.entry with waittok := 0 }
    else s.nextIteration f n d r

/-- The sheaf after the commit of its run r: a member has committed, or one more iteration (R88, R193). -/
def Node.runCommit (d : Node) (r : EngineRun) : Node :=
  match r.entry.member with
  | some k => d.setMember k fun m => { m with st := .committed }
  | none => { d with iter := d.iter + 1 }

/-- A sheaf whose end has been decided (a metadata check, a window violation of another member) still
counts an iteration or member that commits before its context's teardown, whichever cause ends it (R296). -/
def Node.lateCommit (d : Node) (r : EngineRun) (rep : EngineReport) : Node :=
  { d.runCommit r with
    fold := d.fold.add rep
    final := d.final.map fun x => { x with executed := x.executed + 1 } }

/-- The withdrawn sheaf has committed as a whole. -/
def Node.orphanDone (d : Node) : Bool :=
  if opTemplate (hOp d.lines) then d.allCommitted else decide (hRepeat d.lines ≤ d.iter)

/-- A run of a destroyed queue commits first: the token of a sheaf that has thereby committed as a whole arrives as
usual (R295). -/
def State.commitOrphan (s : State) (f : Nat) (r : EngineRun) : State :=
  match r.orphan with
  | none => s
  | some d =>
    let e := d.runCommit r
    let s := { s with furrows := s.furrows.mapAll {} fun _ x => { x with run := x.run.map fun y =>
      if y.orphan.isSome ∧ y.entry.node = r.entry.node ∧ y.entry.queue = r.entry.queue then
        { y with orphan := some e }
      else y } }
    if e.orphanDone && !r.entry.measure then
      s.emitToken e (if opTemplate (hOp e.lines) then e.firstFurrow else f)
    else s

/-- A commit handshake whose run is live: what commits, by its kind. -/
def State.commitRun (s : State) (f : Nat) (r : EngineRun) (rep : EngineReport) : State :=
  let n := r.entry.node
  let s := s.modCtx r.entry.ctx fun c => { c with drain := c.drain + rep.writes }
  let s := (s.account f r rep false).traceEnd f r false
  match s.runNode r with
  | none => (s.clearRun f).commitOrphan f r
  | some d =>
    if d.phase = .doomed then
      (s.clearRun f).setNode n (some (if r.entry.measure then d else d.lateCommit r rep))
    else if r.entry.measure then (s.clearRun f).commitPass n d r rep
    else match r.entry.member with
      | some k => (s.clearRun f).commitMember f n d k rep
      | none => s.commitIteration f n d r rep

/-- How the destruction of its queue has ended a sheaf that an engine still runs: WITHDRAWN, but for one whose own end
was decided before (R71, R292, R295). -/
def Node.orphanEnd (d : Node) : Final :=
  let fin : Final := { status := stWithdrawn, executed := 0, detail := withdrawDetail 2 0, furrow := noFurrow }
  if d.phase = .doomed then d.final.getD fin else fin

/-- An uncorrectable error reported in place of a commit (R41): the run ends without commit. Where the destruction of
its queue has withdrawn the sheaf, its context is torn down all the same (R305), and the record names the end that the
sheaf has had (R336). -/
def State.commitEcc (s : State) (f : Nat) (r : EngineRun) (rep : EngineReport) : State :=
  let s := ((s.account f r rep true).traceEnd f r true).clearRun f
  let fr : BitVec 10 := BitVec.ofNat 10 f
  match s.runNode r with
  | none => match r.orphan with
    | some d => if (s.ctx d.ctx).gen = d.gen then s.eccEvent d (srcFurrow f) fr (some d.orphanEnd) else s
    | none => s
  | some d =>
    if d.phase = .doomed then s.eccEvent d (srcFurrow f) fr d.final
    else (s.streamEnd d false).sheafEcc r.entry.node d (srcFurrow f) (eccDetail 0x0B 0xFF r.entry.member) fr

/-- COMMIT_HANDSHAKE (R296). While a compute reset is in progress nothing commits (R355).
Log 4 (DESIGN CHOICE, safe), 14 (DEDUCED, unsafe). -/
def execCommitHandshake (f : Nat) (rep : EngineReport) (s : State) :
    Host.Outcome State Fault Refusal :=
  ok (isFurrow f) <| s.when s.working fun s =>
    s.reportFor f rep.stamp fun r =>
      if r.held then s.portViolation f
      else if rep.ecc then s.commitEcc f r rep
      else s.commitRun f r rep

/-- COMMIT_REPORT: the oldest report of node n reaches the resolver, which drops one of a generation that is no longer
current, or of a sheaf that has been withdrawn (R45, R290, R305). -/
def execCommitReport (n : Nat) (s : State) : Host.Outcome State Fault Refusal :=
  ok (isNode n) <| s.when s.working fun s =>
    match s.reports.find? fun r => r.node == n with
    | none => s
    | some r =>
      let s := { s with reports := s.reports.erase r }
      match s.node n with
      | some d =>
        if (s.ctx d.ctx).gen = r.gen ∧ d.order = r.order ∧ d.phase = .committed then s.retire n r.final else s
      | none => s

/-- PROGRESS_REPORT restarts the timer of the sheaf, and for a child its CALL's (R76, R195, R218). -/
def execProgressReport (p : PortReport) (s : State) : Host.Outcome State Fault Refusal :=
  ok (isFurrow p.furrow) <| s.when s.working fun s =>
    s.reportFor p.furrow p.stamp fun r => match s.runNode r with
      | some d => s.startTimers r.entry.node d
      | none => s

/-! ## Saturation (R170-R172, R193) -/

/-- The sheaf after a saturation: its later iterations, reruns and members run in 32-bit mode. -/
def Node.saturated (d : Node) (e : Entry) : Node :=
  match e.member with
  | some k => { d.setMember k fun m => { m with acc32 := true } with acc32 := true }
  | none => { d with acc32 := true }

/-- The informational record of the first saturation (R171, R178).
Log 30 (DEDUCED, unsafe), 102 (DESIGN CHOICE, unsafe). -/
def State.satRecord (s : State) (f n : Nat) (d : Node) (r : EngineRun) : State :=
  if d.satRecorded then s
  else
    let i := min (r.entry.member.getD d.iter) 0xFFFF
    let s := s.setNode n (some { d with satRecorded := true })
    let s := s.inform n d stSaturatedRerun d.executed (BitVec.ofNat 32 (d.shownExp.toNat * 2 ^ 24 + i))
      (BitVec.ofNat 10 f)
    s.modAcct d.ctx fun a => { a with satreruns := a.satreruns + 1 }

/-- SATURATION_HANDSHAKE: the iteration restarts with 32-bit accumulation.
Log 30 (DEDUCED, unsafe). -/
def execSaturationHandshake (p : PortReport) (s : State) : Host.Outcome State Fault Refusal :=
  let f := p.furrow
  ok (isFurrow f) <| s.when s.working fun s =>
    s.reportFor f p.stamp fun r =>
      if r.acc16 = false ∨ r.held = true then s.portViolation f
      else
        let s := s.modFurrow f fun x => { x with run := some { r with acc16 := false } }
        let s := s.drive (.rerun (s.runStamp r) f)
        match s.runNode r with
        | none => s
        | some d =>
          let d := d.saturated r.entry
          (s.setNode r.entry.node (some d)).satRecord f r.entry.node d r

/-! ## Aborts (R296, R299) -/

/-- The token that a pre-empted start took goes back to the store (R127): the entry that ran carries
it again. -/
def State.returnToken (s : State) (f : Nat) (d : Node) (e : Entry) : State × Node × Entry :=
  let v := hWaittok d.lines
  let took := d.tokenTaken && decide (v ≠ 0) &&
    (match e.member with
     | some _ => decide (e.waittok ≠ 0)
     | none => true)
  if took then
    match (s.furrow f).addTok d.ctx d.gen v with
    | some x => (s.setFurrow f (x.touch s.now s.trimmed), { d with tokenTaken := false }, { e with waittok := v })
    | none =>
      (s.raise { source := srcFurrow f, kind := kTokenOverflow, cls := .contain
                 ctx := some (d.ctx, d.gen), furrow := BitVec.ofNat 10 f, cause := 0xE1 },
        d, { e with waittok := 0 })
  else (s, d, { e with waittok := 0 })

/-- A run that an abort request ended. -/
def State.requestAborted (s : State) (f : Nat) (d : Node) (r : EngineRun) : State :=
  let n := r.entry.node
  match r.entry.member with
  | some k =>
    (s.setNode n (some (d.setMember k fun m => { m with st := .ended }))).templateEnd n f
  | none =>
    (((s.removeEntries fun e => e.node == n).streamEnd d false).retire n
      (d.endFinal stAborted (BitVec.ofNat 10 f))).chainBreak d

/-- A pre-empted iteration: the ABORTED_RERUN record, and back to the head of its list; where an abort request has
come since the pre-emption, it ends what remains (R305). -/
def State.preempted (s : State) (f : Nat) (d : Node) (r : EngineRun) : State :=
  let n := r.entry.node
  let d := { d with preempted := d.preempted + 1 }
  let s := s.removeEntries fun e => e.node == n && e.after
  let b := s.returnToken f d r.entry
  let d := match r.entry.member with
    | some k => b.2.1.setMember k fun m => { m with st := .entered }
    | none => if r.entry.measure then b.2.1 else { b.2.1 with phase := .between }
  let s := b.1.setNode n (some d)
  let s := s.inform n d stAbortedRerun d.executed (BitVec.ofNat 32 d.preempted) (BitVec.ofNat 10 f)
  let s := s.modAcct d.ctx fun a => { a with preempted := a.preempted + 1 }
  match s.node n with
  | some e => if e.aborted then s.requestAborted f e r else s.requeue f b.2.2
  | none => s

/-- ABORT_HANDSHAKE: the iteration ends without commit. -/
def execAbortHandshake (f : Nat) (rep : EngineReport) (s : State) :
    Host.Outcome State Fault Refusal :=
  ok (isFurrow f) <| s.when s.working fun s =>
    s.reportFor f rep.stamp fun r =>
      if r.abort = none then s.portViolation f
      else
        let s := ((s.account f r rep true).traceEnd f r true).clearRun f
        match s.runNode r with
        | none => s
        | some d =>
          if d.phase = .doomed then s
          else if r.abort = some .preempt then s.preempted f d r
          else s.requestAborted f d r

/-! ## Pre-emption (R298, R299) -/

/-- The lowest priority whose runs may be pre-empted. -/
def State.victim (s : State) : Nat := max 1 s.regs.preemptVictim.toNat

/-- The issue of a child is bound to a stream port (R237). -/
def State.streamBound (s : State) (d : Node) : Bool :=
  match d.child with
  | some (call, i) => (s.portOf call i).isSome
  | none => false

/-- R299's two conditions, and none of its exceptions. -/
def State.mayPreempt (s : State) (x : Furrow) (r : EngineRun) (d : Node) : Bool :=
  s.regs.preemptEn && decide (s.victim ≤ r.entry.prio) && r.abort.isNone && decide (d.fmt ≠ 0) &&
  !s.streamBound d && decide (d.preempted < 8) && decide (d.phase ≠ .doomed) &&
  match x.urgentSince with
  | some (t, trimmed) =>
    let us := s.regs.preemptDelay.toNat
    decide (t + (if trimmed then us else (us * 104 + 99) / 100) ≤ s.now)
  | none => false

/-- PREEMPT: the abort goes out, a preload that is not the urgent head's is discarded, and the urgent
head is granted. -/
def execPreempt (f : Nat) (s : State) : Host.Outcome State Fault Refusal :=
  ok (isFurrow f) <| s.when s.working fun s =>
    let x := s.furrow f
    match x.run with
    | none => s
    | some r => match s.runNode r with
      | none => s
      | some d =>
        if s.mayPreempt x r d then
          let s := (s.setFurrow f { x with run := some { r with abort := some .preempt } }).drive
            (.abort f r.entry.gen)
          let urgent : Bool := match x.shadow with
            | some sh => sh.entry.prio == 0 && x.eligible sh.entry
            | none => false
          if urgent then s else (s.discard f).grantWith f false
        else s

/-! ## Queue timeouts (R77) -/

/-- The furrow on which a sheaf, pass or member of node n runs. -/
def State.runningOn (s : State) (n : Nat) : Option Nat :=
  (s.furrows.keys fun _ x => match x.run with
    | some r => r.entry.node == n && decide (r.abort ≠ some .teardown) && decide (r.abort ≠ some .destroy)
    | none => false).head?

/-- The hung command buffer (R77, R353). -/
def State.hung (s : State) (d : Node) (f : Nat) : State :=
  s.raise (d.event (srcFurrow f) kHung .severe 0 0 (BitVec.ofNat 10 f))

/-- The TIMEOUT event of a sheaf. -/
def timeoutEvent (d : Node) (detail : BitVec 32) (f : BitVec 10) : Event :=
  d.event (srcResolver d.half) kTimeout .contain stTimeout detail f

/-- A TIMEOUT (R77): the sheaf retires and its context is torn down. -/
def State.timeout (s : State) (n : Nat) (d : Node) (detail : BitVec 32) (f : BitVec 10) : State :=
  s.doom n d { status := stTimeout, executed := d.executed, detail := detail, furrow := f } (timeoutEvent d detail f)

/-- A child of the CALL has run for TIMEOUT without a progress report, and does not stall on an empty
address FIFO (R218): its node.
Log 34 (DEDUCED, unsafe). -/
def State.hungChild (s : State) (n : Nat) : Option Nat :=
  (s.nodesWhere fun m d => (match d.child with
      | some (c, _) => c == n
      | none => false) && (s.runningOn m).isSome &&
    (match d.timer with
     | some t => decide (t ≤ s.now)
     | none => false) &&
    (match d.child with
     | some (c, i) => match s.portOf c i with
       | some (_, p) => !(decide (256 ≤ p.credits) && !p.ended)
       | none => true
     | none => true)).head?

/-- DETAIL of a CALL's TIMEOUT (R218). -/
def callDetail (core : Nat) : BitVec 32 := BitVec.ofNat 32 (core * 2 ^ 27 + 6)

/-- The furrow number of a record of a sheaf that waits in one. -/
def Node.furrowNo (d : Node) : BitVec 10 := match d.furrow with
  | some f => BitVec.ofNat 10 f
  | none => noFurrow

end Sys2Proof.Machine
end

