-- ==== Sys2Proof/Machine/Templates.lean ====
section
/-! DEFINITION. Templates: the table read, expansion and members (R179-R199, R205, R206). -/

namespace Sys2Proof.Machine

/-- A command performs the own step of a released sheaf: the sheaf stands there, it is of the opcode,
and its context is not paused (R120, R435).
Log 27 (DESIGN CHOICE, safe). -/
def State.opStep (s : State) (n : Nat) (p : Node → Bool) (f : State → Node → State) : State :=
  match s.node n with
  | some d => if d.phase = .ready ∧ p d = true ∧ s.frozen d = false then f s d else s
  | none => s

/-! ## The table read (R180-R182) -/

/-- Address and lines of a template's table. -/
def Node.tableArea (d : Node) : Nat × Nat :=
  ((aw d.lines 1).toNat,
    if hOp d.lines = opFanout then (fld (aw d.lines 0) 24 16 + 7) / 8
    else (fld (aw d.lines 0) 23 16 + 1 + 3) / 4)

/-- The read of a template's table is issued; what it brings is checked against the windows when it arrives.
Log 76 (DESIGN CHOICE, safe). -/
def State.readTable (s : State) (n : Nat) (d : Node) : State :=
  let a := d.tableArea
  (s.setNode n (some { d with phase := .table, reading := a.2 })).drive
    (.memRead (s.stampOf d.ctx d.gen) false (BitVec.ofNat 64 a.1) a.2)

/-- FANOUT: the route table is read after release and the steward's step. -/
def execFanout (n : Nat) (s : State) : Host.Outcome State Fault Refusal :=
  ok (isNode n) <| s.when s.working fun s =>
    s.opStep n (fun d => hOp d.lines == opFanout) fun s d => s.readTable n d

/-- MASKED: the occupancy mask is read. -/
def execMasked (n : Nat) (s : State) : Host.Outcome State Fault Refusal :=
  ok (isNode n) <| s.when s.working fun s =>
    s.opStep n (fun d => hOp d.lines == opMasked) fun s d => s.readTable n d

/-- An area lies inside one valid window of the context in external or cluster memory (R182, R230). -/
def State.insideMem (s : State) (c a n : Nat) (write : Bool) : Bool :=
  (s.ctx c).windows.any fun e => s.insideWindow e.2 a n write && decide (e.2.space.toNat ≤ 1)

/-- The swath of a route table (R181): experts with work, ascending, with COUNT and START. -/
def fanoutPlan (experts : Nat) (ws : List Word) : List (Nat × Word × Word) :=
  (List.range experts).filterMap fun e =>
    let w := ws.getD e 0
    if fld w 31 0 = 0 then none
    else some (e, BitVec.ofNat 64 (fld w 31 0), BitVec.ofNat 64 (fld w 63 32))

/-- The tiles of an occupancy mask (R197), row-major, with row and column. -/
def maskedPlan (rows cols : Nat) (ws : List Word) : List (Nat × Word × Word) :=
  (List.range rows).flatMap fun r =>
    (List.range cols).filterMap fun c =>
      if bit (ws.getD (2 * r + c / 64) 0) (c % 64) then
        some (128 * r + c, BitVec.ofNat 64 r, BitVec.ofNat 64 c)
      else none

/-- The members that a table names, in expansion order. -/
def Node.planOf (d : Node) (ls : List Line) : List (Nat × Word × Word) :=
  let ws := ls.flatten
  if hOp d.lines = opFanout then fanoutPlan (fld (aw d.lines 0) 24 16) ws
  else maskedPlan (fld (aw d.lines 0) 23 16 + 1) (fld (aw d.lines 0) 31 24 + 1) ws

/-- The table read returned an uncorrectable error or poisoned data (R182, R338, R466).
Log 17 (DESIGN CHOICE, safe). -/
def State.tableEcc (s : State) (n : Nat) (d : Node) (line : Nat) : State :=
  let detail := eccDetail 0x07 (min line 0xFE) none
  let syn := s.freeNow.toNat % 256
  s.useFree.doom n d { status := stEcc, executed := 0, detail := detail, furrow := noFurrow }
    { d.event srcMemPort kUncorrectable .contain stEcc detail noFurrow with
      address := BitVec.ofNat 64 (d.tableArea.1 + 64 * line), info0 := word [(8, 0xFF), (0, syn)] }

/-- The table arrives. A template without members retires, after a pause that holds it (R435).
Log 76 (DESIGN CHOICE, safe). -/
def State.tableArrives (s : State) (n : Nat) (d : Node) (r : ReadResult) : State :=
  let a := d.tableArea
  if !s.insideMem d.ctx a.1 (64 * a.2) false then
    let detail := windowDetail 0xFFF none
    s.doom n d { status := stWindow, executed := 0, detail := detail, furrow := noFurrow }
      { d.event (srcResolver d.half) kWindow .contain stWindow detail noFurrow with
        address := BitVec.ofNat 64 a.1 }
  else match r with
    | .error line => s.tableEcc n d line
    | .lines ls =>
      match d.planOf ls with
      | [] => if s.frozen d then s.setNode n (some { d with reading := 0 }) else s.skip n d
      | p => s.setNode n (some { d with phase := .expand, plan := p })

/-- TABLE_READ_COMPLETE; a reply of another generation is dropped (R290, R357).
Log 76 (DESIGN CHOICE, safe). -/
def execTableReadComplete (n : Nat) (a : FabricReply) (s : State) :
    Host.Outcome State Fault Refusal :=
  ok (isNode n) <| s.when s.working fun s =>
    match s.node n with
    | some d =>
      if d.phase = .table ∧ d.reading ≠ 0 ∧ a.stamp = s.stampOf d.ctx d.gen ∧ (match a.result with
        | .lines ls => decide (ls.length = d.reading)
        | .error line => decide (line < d.reading)) = true then s.tableArrives n d a.result
      else s
    | none => s

/-! ## Members (R185-R193) -/

/-- The next member of a template: its patch line (R188, `Node.patchLive`), its metadata check, its furrow and its
request for admission.
Log 29 (DEDUCED, unsafe). -/
def State.createMember (s : State) (n : Nat) (d : Node) (id : Nat) (a0 a1 : Word)
    (rest : List (Nat × Word × Word)) : State :=
  let k := d.members.length
  let f := if tAny d.lines then s.chooseFurrow d.half d.ctx d.kind else tUnit d.lines
  let m : Member := { ordinal := k, id := id, arg0 := a0, arg1 := a1, furrow := f, st := .waiting
                      acc32 := d.acc32 }
  let e := d.entry n (some k) false d.relOrder
  let d := { d with plan := rest, members := d.members ++ [m] }
  let img := d.image (some k) false d.acc32
  match if d.kind = 0 then s.metaCheck d.ctx img else none with
  | some reg => s.metaFail n d img reg d.committedMembers (some k)
  | none => (s.setNode n (some d)).askAdmit f e false

/-- MEMBER_CREATE: the image build reads the template's lines (R185, R317). -/
def execMemberCreate (n : Nat) (s : State) : Host.Outcome State Fault Refusal :=
  ok (isNode n) <| s.when s.working fun s =>
    match s.node n with
    | some d =>
      if d.phase = .expand ∧ s.frozen d = false then
        match d.plan with
        | (id, a0, a1) :: rest =>
          s.withReads (.memberCreate n) (sheafNeeds n d.lines.length) (·.park (.memberCreate n)) fun s =>
            s.createMember n d id a0 a1 rest
        | [] => s
      else s
    | none => s

end Sys2Proof.Machine
end

