-- ==== Sys2Proof/Machine/Opcodes.lean ====
section
/-! DEFINITION. The own steps of NOP, the engine opcodes, BRANCH and FENCE QUEUE (R96-R99, R167, R174,
R300-R303). -/

namespace Sys2Proof.Machine

/-- NOP retires DONE (R97). -/
def execNop (n : Nat) (s : State) : Host.Outcome State Fault Refusal :=
  ok (isNode n) <| s.when s.working fun s =>
    s.opStep n (fun d => hOp d.lines == opNop) fun s _ => s.retireWith n stDone 1 0

/-- START: the image of the configuration copied at acceptance goes to its target (R96). -/
def execStart (n : Nat) (s : State) : Host.Outcome State Fault Refusal :=
  ok (isNode n) <| s.when s.working fun s =>
    s.opStep n (fun d => hOp d.lines == opStart) fun s d => s.launchOf (.start n) n d

/-- CFGSTART: the image of its own loads goes to its target (R147). -/
def execCfgstart (n : Nat) (s : State) : Host.Outcome State Fault Refusal :=
  ok (isNode n) <| s.when s.working fun s =>
    s.opStep n (fun d => hOp d.lines == opCfgstart) fun s d => s.launchOf (.cfgstart n) n d

/-- COMBINE goes to its VE (R174). -/
def execCombine (n : Nat) (s : State) : Host.Outcome State Fault Refusal :=
  ok (isNode n) <| s.when s.working fun s =>
    s.opStep n (fun d => hOp d.lines == opCombine) fun s d => s.launchOf (.combine n) n d

/-- MEASURE goes to its ME or VE, in measure mode (R167). -/
def execMeasure (n : Nat) (s : State) : Host.Outcome State Fault Refusal :=
  ok (isNode n) <| s.when s.working fun s =>
    s.opStep n (fun d => hOp d.lines == opMeasure) fun s d => s.launchOf (.measure n) n d

/-! ## BRANCH (R99, R300-R303) -/

/-- A BRANCH OBJECT decides at release (R303).
Log 24 (DEDUCED, unsafe). -/
def State.branchObject (s : State) (n : Nat) (d : Node) : State :=
  let o := refObj (fld (aw d.lines 2) 31 0)
  let seq := d.seq.toNat
  if !s.objAllowed d.ctx o then
    (s.decideBranch d.queue seq .primary).tenantBlock n d (srcHive d.half) o
  else if compareCode (fld (aw d.lines 2) 34 32) (s.obj o).w0 (aw d.lines 3) then
    (s.decideBranch d.queue seq .primary).retireWith n stDone 0 0
  else (s.decideBranch d.queue seq .fallback).retireWith n stDone 1 0

/-- The hive cache reads the object of a BRANCH OBJECT (R317). -/
def State.branchNeeds (s : State) (d : Node) : List LineNeed :=
  let o := refObj (fld (aw d.lines 2) 31 0)
  if s.objAllowed d.ctx o then [hiveNeed o false] else []

/-- BRANCH_OBJECT. -/
def execBranchObject (n : Nat) (s : State) : Host.Outcome State Fault Refusal :=
  ok (isNode n) <| s.when s.working fun s =>
    s.opStep n (fun d => hOp d.lines == opBranch && aSub d.lines == 1) fun s d =>
      s.withLines (s.branchNeeds d) (·.park (.branchObject n)) fun s => s.branchObject n d

/-- BRANCH_DEADLINE: released, it waits in PREPARE for its primary path (R301). -/
def execBranchDeadline (n : Nat) (s : State) : Host.Outcome State Fault Refusal :=
  ok (isNode n) <| s.when s.working fun s =>
    s.opStep n (fun d => hOp d.lines == opBranch && aSub d.lines == 0) fun s d =>
      s.setNode n (some { d with phase := .branch })

/-- COST of the queue's accepted, unretired sheaves whose sequence number satisfies a test. -/
def State.costOf (s : State) (q : Nat) (p : Nat → Bool) : Nat :=
  (s.nodes.map fun e => match e.2 with
    | some d =>
      if d.queue == q && d.child.isNone && decide (d.phase ≠ .heldRecord) && p d.seq.toNat then
        hCost d.lines
      else 0
    | none => 0).foldl (· + ·) 0

/-- P of R301, in ns. -/
def State.projection (s : State) (d : Node) : Nat :=
  let b := d.seq.toNat
  s.now * 1000 + s.nsNow + s.costOf d.queue (fun n => decide (n < b)) +
    s.costOf d.queue fun n => decide (b < n) && decide (n ≤ b + fld (aw d.lines 0) 31 16)

/-- The limit of R301, in ns; none without a deadline or an origin time. -/
def State.deadlineLimit (s : State) (d : Node) : Option Int :=
  let x := s.queue d.queue
  match x.origin with
  | some o =>
    if x.deadline = 0 then none
    else some (((o.toNat + fld x.deadline 31 0) * 1000 : Nat) - (fld (aw d.lines 1) 31 0 : Int))
  | none => none

/-- The fallback path is taken (R302).
Log 22 (DEDUCED, unsafe). -/
def State.takeFallback (s : State) (n : Nat) (d : Node) (excess : Nat) : State :=
  let detail : BitVec 32 := satVal 32 excess
  let s := s.decideBranch d.queue d.seq.toNat .fallback
  let s := s.inform n d stFallbackTaken 1 detail noFurrow
  let s := s.modAcct d.ctx fun a => { a with fallbacks := a.fallbacks + 1 }
  s.retireWith n stDone 1 detail

/-- The evaluation of a BRANCH DEADLINE (R301, R302). -/
def State.evaluate (s : State) (n : Nat) (d : Node) : State :=
  let p : Int := s.projection d
  let primary := fun (s : State) =>
    (s.decideBranch d.queue d.seq.toNat .primary).retireWith n stDone 0 0
  match s.deadlineLimit d with
  | none => primary s
  | some l =>
    if l < p then s.useFree.takeFallback n d (p - l).toNat else primary s.useFree

/-- DEADLINE_EVALUATION: every sheaf of the primary path has its sequence number. -/
def execDeadlineEvaluation (n : Nat) (s : State) : Host.Outcome State Fault Refusal :=
  ok (isNode n) <| s.when s.working fun s =>
    match s.node n with
    | some d =>
      if d.phase = .branch ∧ s.frozen d = false ∧
          d.seq.toNat + fld (aw d.lines 0) 31 16 < (s.queue d.queue).nextSeq.toNat then
        s.evaluate n d
      else s
    | none => s

/-! ## FENCE QUEUE (R98) -/

/-- A FENCE QUEUE that retires DONE is an origin event of a deadline with ORIGIN 1 (R300).
Log 45 (DEDUCED, unsafe). -/
def State.fenceOrigin (s : State) (q : Nat) : State :=
  s.modQueue q fun x =>
    if x.deadline ≠ 0 ∧ fld x.deadline 33 32 = 1 then { x with origin := some s.usec } else x

/-- FENCE_QUEUE: its order took effect at release. -/
def execFenceQueue (n : Nat) (s : State) : Host.Outcome State Fault Refusal :=
  ok (isNode n) <| s.when s.working fun s =>
    s.opStep n (fun d => hOp d.lines == opFence && aSub d.lines == 0) fun s d =>
      (s.fenceOrigin d.queue).retireWith n stDone 1 0

end Sys2Proof.Machine
end

