-- ==== Sys2Proof/Machine/Hive.lean ====
section
/-! DEFINITION. The hive: operations on objects (R245-R256), tier objects (R264-R267), operations on
other chips' objects (R262, R266, R373), the release of waiters, and the end
of control-core runs (R216, R240). -/

namespace Sys2Proof.Machine

/-! ## Objects (R245, R251) -/

def Obj.kind (o : Obj) : Nat := fld o.w1 63 62
def Obj.round (o : Obj) : Nat := fld o.w0 63 48
def Obj.pminus1 (o : Obj) : Nat := fld o.w0 47 32
def Obj.arrived (o : Obj) : Nat := fld o.w0 31 16
def Obj.next (o : Obj) : Nat := fld o.w0 15 0

/-- W0 of a stile (R251). -/
def stileWord (round pminus1 arrived next : Nat) : Word :=
  word [(48, round % 65536), (32, pminus1), (16, arrived), (0, next)]

/-- Who signals: the last-signaller fields of an operation (R245). -/
structure Signer where
  ctx : Nat
  src : Nat
  tag : BitVec 32
deriving DecidableEq, Repr

/-- W1 with a kind and a last signaller. -/
def signed (kind : Nat) (g : Signer) : Word :=
  word [(62, kind), (52, g.ctx), (42, g.src), (0, g.tag.toNat)]

/-- The object's range of tier objects (R264). -/
def State.inTier (s : State) (n : Nat) : Bool :=
  decide (s.regs.tierBase.toNat ≤ n) && decide (n < s.regs.tierBase.toNat + s.regs.tierCount.toNat)

/-- The group of an object's partition; a partition without a group has the reset value. -/
def State.objGroup (s : State) (n : Nat) : Group := match s.objPart n with
  | some p => s.group p
  | none => {}

/-- This chip is a worker of the object's group (R265, R371). -/
def State.objWorker (s : State) (n : Nat) : Bool :=
  (s.objGroup n).en && decide ((s.objGroup n).num ≠ (s.objGroup n).mgr)

/-! ## Messages to other chips (R261, R375) -/

/-- Header word of a hive message.
Log 35 (DEDUCED, unsafe). -/
def hiveHeader (typ : Nat) (dest : BitVec 14) (result : Nat) (msgid : BitVec 32) : Word :=
  word [(60, typ), (46, dest.toNat), (32, result), (0, msgid.toNat)]

/-- W0 of a hive message: TAG, no source furrow, operation and object (R257). -/
def hiveW0 (tag : BitVec 32) (op obj : Nat) : Word :=
  word [(32, tag.toNat), (22, 0x3FF), (19, op), (0, obj)]

/-- W2: who originates (R257). -/
def hiveW2 (chip : BitVec 14) (c : Nat) (gen : BitVec 12) (p : Nat) (chipgen : BitVec 8) : Word :=
  word [(50, chip.toNat), (40, c), (28, gen.toNat), (24, p), (16, chipgen.toNat)]

/-- Sending a hive message to a chip of partition p's group. In the safe state none goes out.
Log 35 (DEDUCED, unsafe). -/
def State.sendHive (s : State) (p : Nat) (m : HiveFrame) : State :=
  if s.recov.safe then s else s.drive (.hiveMsg p m)

/-- A message of this chip under the next MSGID. -/
def State.hiveFrame (s : State) (p typ : Nat) (dest : BitVec 14) (w0 w1 : Word) (c : Nat)
    (gen : BitVec 12) : HiveFrame where
  port := s.portWord p 0 dest
  header := hiveHeader typ dest 0 s.nextMsg
  w0 := w0
  w1 := w1
  w2 := hiveW2 (s.group p).num c gen p s.recov.chipgen

def State.takeMsgid (s : State) : State := { s with nextMsg := s.nextMsg + 1 }

/-- An answer: it names the waiter's chip, context and generations, OP and W1 are zero. -/
def State.reply (s : State) (p typ : Nat) (dest : BitVec 14) (result : Nat) (msgid : BitVec 32)
    (obj : Nat) (w2 : Word) : State :=
  s.sendHive p { port := s.portWord p 0 dest, header := hiveHeader typ dest result msgid
                 w0 := BitVec.ofNat 64 obj, w1 := 0, w2 := w2 }

/-- TIERARRIVE for a round, on behalf of the object's last signaller (R265).
Log 95 (DESIGN CHOICE, unsafe). -/
def State.sendTierarrive (s : State) (n round : Nat) : State :=
  match s.objPart n with
  | none => s
  | some p =>
    let o := s.obj n
    let c := fld o.w1 61 52
    (s.sendHive p (s.hiveFrame p 4 (s.group p).mgr (hiveW0 (BitVec.ofNat 32 (fld o.w1 31 0)) 3 n)
      (BitVec.ofNat 64 round) c (s.ctx c).gen)).takeMsgid

/-- TIERRELEASE for a round to every worker of the group (R265).
Log 95 (DESIGN CHOICE, unsafe). -/
def State.sendTierrelease (s : State) (n round : Nat) : State :=
  match s.objPart n with
  | none => s
  | some p =>
    let g := s.group p
    if !g.en then s
    else
      let o := s.obj n
      let c := fld o.w1 61 52
      s.forAll ((List.range g.size.toNat).filter fun i => i != g.num.toNat) fun s i =>
        (s.sendHive p (s.hiveFrame p 5 (BitVec.ofNat 14 i)
          (hiveW0 (BitVec.ofNat 32 (fld o.w1 31 0)) 0 n) (BitVec.ofNat 64 round) c (s.ctx c).gen)).takeMsgid

/-! ## Arrivals (R253, R255, R265) -/

/-- How an arrival is classified. -/
inductive Arrival where
  /-- Counted; the round completes or not, and a worker reports its full round. -/
  | counted (o : Obj) (completes : Bool) (report : Bool)
  /-- Not counted: the reason of R254. -/
  | misuse (reason : Nat)
deriving DecidableEq, Repr

/-- The round completes (R255). -/
def Obj.complete (o : Obj) : Obj :=
  { o with w0 := stileWord (o.round + 1) o.pminus1 o.next 0 }

/-- Classifying an arrival for round r at a STILE or TIER object. -/
def classifyArrival (o : Obj) (r : Nat) (worker : Bool) : Arrival :=
  let p := o.pminus1 + 1
  let d := (r + 65536 - o.round) % 65536
  let tierWorker := worker && o.kind == 2
  if d = 0 then
    if tierWorker && o.arrived == p then .misuse 6
    else if o.arrived + 1 = p then
      if tierWorker then
        .counted { o with w0 := stileWord o.round o.pminus1 p o.next } false true
      else .counted o.complete true false
    else .counted { o with w0 := stileWord o.round o.pminus1 (o.arrived + 1) o.next } false false
  else if d = 1 then
    if (if tierWorker then p < o.next + 1 else p ≤ o.next + 1) then .misuse 2
    else .counted { o with w0 := stileWord o.round o.pminus1 o.arrived (o.next + 1) } false false
  else .misuse 3

/-! ## Waiters (R250, R252) -/

/-- The object is past a round. -/
def Obj.past (o : Obj) (r : BitVec 16) : Bool :=
  let d := (o.round + 65536 - r.toNat) % 65536
  decide (1 ≤ d) && decide (d ≤ 32768)

/-- A waiter is released by the object's present value: its comparison holds, or its round is over. A
direct arrival may wait for a round further ahead than the object's next one; for one that the object was past
already, no completion comes (R266). -/
def Waiter.released (w : Waiter) (o : Obj) : Bool :=
  match w.test with
  | .cmp c v => compareCode c o.w0 v
  | .round r => o.past r
  | .direct r late => !late && o.past r

/-- Removing waiters that satisfy a test, of every object. -/
def State.dropWaiters (s : State) (p : Waiter → Bool) : State :=
  { s with waiters := s.waiters.mapAll [] fun _ ws => ws.filter fun w => !p w }

/-- Ending a run's wait: RD receives a code and the run becomes ready. -/
def State.finishRun (s : State) (k fr rd : Nat) (v : Word) : State :=
  match s.runAt k fr with
  | some r => (s.setRun k fr (r.setReg rd v)).readyRun k fr
  | none => s

/-- A sheaf in HIVE state retires DONE; one whose end is decided already is left alone (R272). -/
def State.wakeSheaf (s : State) (n : Nat) : State :=
  match s.node n with
  | some d => if d.phase = .hive then s.retireWith n stDone 1 0 else s
  | none => s

/-- A waiter is released (R252): its sheaf retires, its run continues, or a WAKE goes to its chip. -/
def State.releaseWaiter (s : State) (n : Nat) (w : Waiter) : State :=
  let s := { s with remoteOps := s.remoteOps.filter fun r => !decide (r.owner = w.owner) }
  match w.owner with
  | .node m => s.wakeSheaf m
  | .run k fr rd => s.finishRun k fr rd 0
  | .remote p msgid => s.reply p 3 w.chip 0 msgid n (hiveW2 w.chip w.ctx w.gen p w.chipgen)

/-- After a change of object n its waiters are tested in arrival order, and those whose test holds
are released (R250).
Log 60 (DESIGN CHOICE, safe). -/
def State.wakeWaiters (s : State) (n : Nat) : State :=
  let o := s.obj n
  let ws := s.waitersOf n
  let s := s.setWaiters n (ws.filter fun w => !w.released o)
  (ws.filter fun w => w.released o).foldl (fun s w => s.releaseWaiter n w) s

def State.addWaiter (s : State) (n : Nat) (w : Waiter) : State :=
  s.setWaiters n (s.waitersOf n ++ [w])

/-! ## Operations -/

/-- The operations of R249. -/
inductive HiveOp where
  | signal (k : Nat)
  | wait (code : Nat)
  | arrive
  | nowait
  | init
  | reset
deriving DecidableEq, Repr

/-- Who performs an operation: a sheaf or a run, with its context. -/
structure Actor where
  owner : Owner
  ctx   : Nat
  gen   : BitVec 12
  queue : Nat
  tag   : BitVec 32
  /-- LSSRC (R245). -/
  src   : Nat
  half  : Nat
deriving DecidableEq, Repr

/-- How an operation ends for who performs it. -/
inductive HiveEnd where
  | done
  | waits
  | blocked
  | misuse (reason : Nat)
  | peerLost
deriving DecidableEq, Repr

/-- DETAIL of STILE_MISUSE (R254). -/
def misuseDetail (obj reason : Nat) : BitVec 32 := objDetail obj (reason * 2 ^ 10)

/-- DETAIL of PEER_LOST (R384).
Log 46 (DEDUCED, unsafe). -/
def peerDetail (chip : BitVec 14) (chipgen : BitVec 8) (cause : Nat) : BitVec 32 :=
  BitVec.ofNat 32 (chip.toNat * 2 ^ 18 + chipgen.toNat * 2 ^ 8 + cause)

/-- ADD, SET and OR (R249). -/
def signalValue (k : Nat) (v operand : Word) : Word :=
  if k = 0 then v + operand else if k = 1 then operand else v ||| operand

def Actor.signer (a : Actor) : Signer := { ctx := a.ctx, src := a.src, tag := a.tag }

/-- A waiter of this chip. -/
def Actor.waiter (a : Actor) (t : Test) : Waiter where
  test := t
  owner := a.owner
  ctx := a.ctx
  gen := a.gen
  queue := a.queue
  chip := 0x3FFF
  chipgen := 0

/-- A counted arrival: the object, its last signaller, and a tier's messages (R255, R265). -/
def State.countArrival (s : State) (n : Nat) (o : Obj) (g : Signer) (completes report : Bool) : State :=
  let old := (s.obj n).round
  let s := s.setObj n { o with w1 := signed o.kind g }
  let s := if report then s.sendTierarrive n old else s
  if completes && o.kind == 2 then s.sendTierrelease n old else s

/-- An operation on an object of this chip (R249-R256): the state, how it ends for who performs it,
and whether the waiters are to be tested after that.
Log 92 (DEDUCED, unsafe), 96 (DESIGN CHOICE, unsafe). -/
def State.localOp (s : State) (a : Actor) (op : HiveOp) (n round : Nat) (operand : Word) :
    State × HiveEnd × Bool :=
  let o := s.obj n
  if !s.objAllowed a.ctx n then (s, .blocked, false)
  else
    match op with
    | .signal k =>
      if o.kind ≠ 0 then (s, .misuse 1, false)
      else (s.setObj n { w0 := signalValue k o.w0 operand, w1 := signed 0 a.signer }, .done, true)
    | .wait c =>
      if o.kind = 3 then (s, .peerLost, false)
      else if compareCode c o.w0 operand then (s, .done, false)
      else (s.addWaiter n (a.waiter (.cmp c operand)), .waits, false)
    | .arrive | .nowait =>
      if o.kind = 0 then (s, .misuse 1, false)
      else if o.kind = 3 then (s, .peerLost, false)
      else match classifyArrival o round (s.objWorker n) with
        | .misuse r => (s, .misuse r, false)
        | .counted o' completes report =>
          let s := s.countArrival n o' a.signer completes report
          if op = .arrive ∧ completes = false then
            (s.addWaiter n (a.waiter (.round (BitVec.ofNat 16 round))), .waits, true)
          else (s, .done, true)
    | .init =>
      let count := operand.toNat
      if o.kind ≠ 3 ∧ s.waitersOf n ≠ [] then (s, .misuse 4, false)
      else if s.inTier n ∧ count = 65536 then (s, .misuse 5, false)
      else
        (s.setObj n { w0 := stileWord 0 (count - 1) 0 0
                      w1 := signed (if s.inTier n then 2 else 1) a.signer }, .done, true)
    | .reset =>
      if o.kind ≠ 3 ∧ s.waitersOf n ≠ [] then (s, .misuse 4, false)
      else (s.setObj n { w0 := 0, w1 := signed 0 a.signer }, .done, true)

/-- A remote operation is sent and awaits its ACK or WAKE (R262, R266).
Log 36 (DEDUCED, unsafe). -/
def State.sendOp (s : State) (a : Actor) (chip : BitVec 14) (n typ op : Nat) (w1 : Word)
    (wait : Bool) : State :=
  let p := (s.ctx a.ctx).part
  let m := s.hiveFrame p typ chip (hiveW0 a.tag op n) w1 a.ctx a.gen
  let r : RemoteOp := { msgid := s.nextMsg, owner := a.owner, wait := wait, part := p, chip := chip
                        obj := n, ctx := a.ctx, frame := m, retryDue := none }
  let s := { s with remoteOps := s.remoteOps ++ [r] }
  (s.sendHive p m).takeMsgid

/-- An operation on another chip's object (R262, R266, R373). A tier object has one number on every chip of its group
and breaks on all of them, so a wait on one whose own object is BROKEN ends at once (R267, log 80).
Log 80 (DEDUCED, unsafe), 91 (DEDUCED, unsafe). -/
def State.remoteOp (s : State) (a : Actor) (op : HiveOp) (chip : BitVec 14) (n round : Nat)
    (operand : Word) : State × HiveEnd × Bool :=
  if s.unreachable a.ctx chip then (s, .blocked, false)
  else match op with
    | .signal k => (s.sendOp a chip n 0 k operand false, .waits, false)
    | .wait c =>
      if s.objAllowed a.ctx n && (s.obj n).kind == 3 then (s, .peerLost, false)
      else (s.sendOp a chip n 2 c operand true, .waits, false)
    | .arrive | .nowait =>
      if !s.objAllowed a.ctx n then (s, .blocked, false)
      else if (s.obj n).kind = 3 then (s, .peerLost, false)
      else if (s.obj n).kind ≠ 2 then (s, .misuse 7, false)
      else
        let r : BitVec 16 := BitVec.ofNat 16 round
        let late := (s.obj n).past r
        let s := s.sendOp a chip n 4 3 (BitVec.ofNat 64 round) false
        if op = .arrive then (s.addWaiter n (a.waiter (.direct r late)), .waits, false)
        else (s, .waits, false)
    | .init | .reset => (s, .misuse 1, false)

/-- An operation by its object reference. -/
def State.hiveOp (s : State) (a : Actor) (op : HiveOp) (ref round : Nat) (operand : Word) :
    State × HiveEnd × Bool :=
  if s.chipLocal a.ctx (refChip ref) then s.localOp a op (refObj ref) round operand
  else s.remoteOp a op (refChip ref) (refObj ref) round operand

/-- The line that an operation needs: it writes an object of this chip, and a direct remote arrival reads the tier
object here (R266, R317). -/
def State.opNeeds (s : State) (a : Actor) (op : HiveOp) (ref : Nat) : List LineNeed :=
  let n := refObj ref
  if !s.objAllowed a.ctx n || !s.inService (halfOfObj n) then []
  else if s.chipLocal a.ctx (refChip ref) then [hiveNeed n true]
  else if (op = .arrive ∨ op = .nowait) ∧ s.unreachable a.ctx (refChip ref) = false then [hiveNeed n false]
  else []

/-- The hive a blocked operation is reported from: the object's, or the issuing half's (R466). -/
def State.hiveSource (s : State) (a : Actor) (ref : Nat) : Nat :=
  if s.chipLocal a.ctx (refChip ref) then srcHive (halfOfObj (refObj ref)) else srcHive a.half

/-! ## Sheaves -/

/-- A sheaf ends with STILE_MISUSE (R249, R254). -/
def State.misuseEnd (s : State) (n : Nat) (d : Node) (source obj reason : Nat) : State :=
  let detail := misuseDetail obj reason
  s.doom n d { status := stMisuse, executed := d.executed, detail := detail, furrow := noFurrow }
    (d.event source kMisuse .contain stMisuse detail noFurrow)

/-- A sheaf ends with PEER_LOST (R267, R383, R384). -/
def State.peerLostEnd (s : State) (n : Nat) (d : Node) (source : Nat) (detail : BitVec 32) : State :=
  s.doom n d { status := stPeerLost, executed := d.executed, detail := detail, furrow := noFurrow }
    (d.event source kPeerLost .contain stPeerLost detail noFurrow)

/-- The sheaf of a Pliat-kind operation as an actor. -/
def Node.actor (d : Node) (n : Nat) : Actor where
  owner := .node n
  ctx := d.ctx
  gen := d.gen
  queue := d.queue
  tag := d.tag
  src := 0x3FD
  half := d.half

/-- A WAIT, SIGNAL or STILE sheaf reaches the hive: it retires, waits in HIVE state, or ends as R249
and R263 say; then the waiters it released follow. -/
def State.hiveDone (s : State) (n : Nat) (d : Node) (op : HiveOp) (operand : Word) : State :=
  let ref := aObjref d.lines
  let obj := refObj ref
  let src := s.hiveSource (d.actor n) ref
  let r := s.hiveOp (d.actor n) op ref (fld (aw d.lines 0) 63 48) operand
  let s := match r.2.1 with
    | .done => r.1.retireWith n stDone 1 0
    | .waits => r.1.setNode n (some { d with phase := .hive })
    | .blocked => r.1.tenantBlock n d src obj
    | .misuse why => r.1.misuseEnd n d src obj why
    | .peerLost => r.1.peerLostEnd n d src (peerDetail 0x3FFF 0 1)
  if r.2.2 then s.wakeWaiters obj else s

/-- The operation of a sheaf, with the line it needs; `c` is its command. -/
def State.hiveSheaf (s : State) (c : Instr) (n : Nat) (d : Node) (op : HiveOp) (operand : Word) : State :=
  s.withLines (s.opNeeds (d.actor n) op (aObjref d.lines)) (·.park c) fun s => s.hiveDone n d op operand

/-- The comparison code of WAIT is its SUB. -/
def execWait (n : Nat) (s : State) : Host.Outcome State Fault Refusal :=
  ok (isNode n) <| s.when s.working fun s =>
    s.opStep n (fun d => hOp d.lines == opWait) fun s d =>
      s.hiveSheaf (.wait n) n d (.wait (aSub d.lines)) (aw d.lines 1)

/-- SIGNAL ADD (R249). -/
def execSignalAdd (n : Nat) (s : State) : Host.Outcome State Fault Refusal :=
  ok (isNode n) <| s.when s.working fun s =>
    s.opStep n (fun d => hOp d.lines == opSignal && aSub d.lines == 0) fun s d =>
      s.hiveSheaf (.signalAdd n) n d (.signal 0) (aw d.lines 1)

/-- SIGNAL SET (R249). -/
def execSignalSet (n : Nat) (s : State) : Host.Outcome State Fault Refusal :=
  ok (isNode n) <| s.when s.working fun s =>
    s.opStep n (fun d => hOp d.lines == opSignal && aSub d.lines == 1) fun s d =>
      s.hiveSheaf (.signalSet n) n d (.signal 1) (aw d.lines 1)

/-- SIGNAL OR (R249). -/
def execSignalOr (n : Nat) (s : State) : Host.Outcome State Fault Refusal :=
  ok (isNode n) <| s.when s.working fun s =>
    s.opStep n (fun d => hOp d.lines == opSignal && aSub d.lines == 2) fun s d =>
      s.hiveSheaf (.signalOr n) n d (.signal 2) (aw d.lines 1)

/-- STILE ARRIVE (R253). -/
def execStileArrive (n : Nat) (s : State) : Host.Outcome State Fault Refusal :=
  ok (isNode n) <| s.when s.working fun s =>
    s.opStep n (fun d => hOp d.lines == opStile && aSub d.lines == 0) fun s d =>
      s.hiveSheaf (.stileArrive n) n d .arrive 0

/-- STILE ARRIVE_NOWAIT (R253). -/
def execStileArriveNowait (n : Nat) (s : State) : Host.Outcome State Fault Refusal :=
  ok (isNode n) <| s.when s.working fun s =>
    s.opStep n (fun d => hOp d.lines == opStile && aSub d.lines == 1) fun s d =>
      s.hiveSheaf (.stileArriveNowait n) n d .nowait 0

/-- STILE INIT (R256). -/
def execStileInit (n : Nat) (s : State) : Host.Outcome State Fault Refusal :=
  ok (isNode n) <| s.when s.working fun s =>
    s.opStep n (fun d => hOp d.lines == opStile && aSub d.lines == 2) fun s d =>
      s.hiveSheaf (.stileInit n) n d .init (aw d.lines 1)

/-- STILE RESET (R249, R256). -/
def execStileReset (n : Nat) (s : State) : Host.Outcome State Fault Refusal :=
  ok (isNode n) <| s.when s.working fun s =>
    s.opStep n (fun d => hOp d.lines == opStile && aSub d.lines == 3) fun s d =>
      s.hiveSheaf (.stileReset n) n d .reset 0

/-! ## Cancelling (R262, R272) -/

/-- Ending the waits of owners that satisfy a test: local waiters go, remote WAITs are cancelled. -/
def State.cancelWaits (s : State) (p : Owner → Bool) : State :=
  let s := s.dropWaiters fun w => p w.owner
  let gone := s.remoteOps.filter fun r => p r.owner
  let s := { s with remoteOps := s.remoteOps.filter fun r => !p r.owner }
  (gone.filter (·.wait)).foldl (fun s r =>
    s.sendHive r.part { r.frame with
      port := s.portWord r.part 0 r.chip
      header := hiveHeader 6 r.chip 0 r.msgid
      w0 := BitVec.ofNat 64 r.obj, w1 := 0 }) s

/-! ## The end of a run (R216) -/

/-- The furrow of the issue a port is bound to. -/
def State.issueFurrow (s : State) (call issue : Nat) : Nat :=
  ((s.nodesWhere fun _ d => decide (d.child = some (call, issue))).head?.bind fun n =>
    (s.node n).bind (·.furrow)).getD 0

/-- Sending a port's gathered line to the FIFO of its issue. -/
def State.flushLine (s : State) (k i : Nat) : State :=
  match Tbl.get none (s.core k).ports i with
  | some p => match p.bound with
    | some issue =>
      if p.started = false ∨ p.line = [] then s
      else (s.setPort k i (some { p with line := [] })).drive (.stream (s.issueFurrow p.call issue) p.line)
    | none => s
  | none => s

/-- Appending an end marker to an open port (R216, R237). After the start it takes a credit; without one what has
gathered is sent, and the marker waits for the next credit that returns. -/
def State.endPort (s : State) (k i : Nat) : State :=
  match Tbl.get none (s.core k).ports i with
  | some p =>
    if p.ended then s
    else if p.started then
      if p.credits = 0 then (s.flushLine k i).setPort k i (some { p with line := [none], ended := true })
      else
        (s.setPort k i (some { p with
          credits := p.credits - 1, line := p.line ++ [none], ended := true })).flushLine k i
    else s.setPort k i (some { p with prefill := p.prefill ++ [none], ended := true })
  | none => s

/-- The core's ports of a CALL. -/
def State.callPorts (s : State) (k call : Nat) : List Nat :=
  (s.core k).ports.keys fun _ p => match p with
    | some p => p.call == call
    | none => false

/-- A run ends: its handles go with it, with the descriptor lines of issues that have retired, open ports receive an
end marker, waits are abandoned, and the frame begins to clear. -/
def State.endRun (s : State) (k fr : Nat) : State :=
  match s.runAt k fr with
  | none => s
  | some r =>
    let s := s.forAll (s.callPorts k r.call) fun s i => s.endPort k i
    let s := s.cancelWaits fun o => match o with
      | .run k' fr' _ => k' == k && fr' == fr
      | _ => false
    let s := if (s.core k).current = some fr then s.leaveCore k else s
    let s := (s.modCore k fun c => { c.setFrame fr .clearing with
      ports := c.ports.filter fun e => match e.2 with
        | some p => !(p.call == r.call && p.dead)
        | none => false }).pickRun k
    r.handles.foldl State.letGo s

/-- Stopping the runs of a CALL, queued or framed. -/
def State.stopCall (s : State) (n : Nat) (d : Node) : State :=
  let k := d.coreNo
  let s := s.modCore k fun c => { c with runq := c.runq.filter fun r => r.call != n }
  match s.frameWhere k fun r => r.call == n with
  | some fr => s.endRun k fr
  | none => s

/-- The ports of a CALL are freed (R240). -/
def State.freePorts (s : State) (n : Nat) (d : Node) : State :=
  s.modCore d.coreNo fun c => { c with ports := c.ports.filter fun e => match e.2 with
    | some p => p.call != n
    | none => false }

/-- A run whose operation ends it ends; a sheaf of its own has no run (R216). -/
def State.stopOwner (s : State) (o : Owner) : State :=
  match o with
  | .run k fr _ => s.endRun k fr
  | .node _ => s
  | .remote _ _ => s

end Sys2Proof.Machine
end

