-- ==== Sys2Proof/Machine/Traffic.lean ====
section
/-! DEFINITION. Frames from other chips (R374-R380), hive messages (R260-R263, R265, R266) and signal
reports (R257, R260). -/

namespace Sys2Proof.Machine

/-! ## Frames (R375, R378) -/

def portClass (w : Word) : Nat := fld w 63 62
def portDest (w : Word) : BitVec 14 := BitVec.ofNat 14 (fld w 61 48)
def portSrc (w : Word) : BitVec 14 := BitVec.ofNat 14 (fld w 47 34)
def portPart (w : Word) : Nat := fld w 33 30
def portGen (w : Word) : BitVec 8 := BitVec.ofNat 8 (fld w 29 22)

/-- HIVE_DROP, a NOTE that names no context. -/
def State.hiveDrop (s : State) (source : Nat) : State :=
  s.raise { source := source, kind := kHiveDrop, cls := .note }

/-- R378 drops a frame of a class. -/
def State.badFrameHead (s : State) (w : Word) (cls : Nat) : Bool :=
  let g := s.group (portPart w)
  decide (portClass w ≠ cls) || decide (12 ≤ portPart w) || !g.en ||
  decide (g.size.toNat ≤ (portSrc w).toNat) ||
  !(portDest w == g.num || portDest w == 0x3FFF)

/-! ## Staleness (R380) -/

/-- A FAILED or CHIP entry makes traffic of chip x stale. -/
def State.staleChip (s : State) (p : Nat) (x : BitVec 14) (chipgen : BitVec 8) : Bool :=
  s.stale.any fun e => e.part == p && e.chip == x && match e.kind with
    | .failed => true
    | .chip g => g != chipgen
    | .context _ _ _ => false

/-- A CONTEXT entry makes the traffic of a global context generation stale. -/
def State.staleCtx (s : State) (p : Nat) (x : BitVec 14) (chipgen : BitVec 8) (c : BitVec 10)
    (gen : BitVec 12) : Bool :=
  s.stale.any fun e => e.part == p && e.chip == x && match e.kind with
    | .context g c' cg => g == chipgen && c' == c && cg == gen
    | _ => false

def w2Chip (w : Word) : BitVec 14 := BitVec.ofNat 14 (fld w 63 50)
def w2Ctx (w : Word) : Nat := fld w 49 40
def w2Gen (w : Word) : BitVec 12 := BitVec.ofNat 12 (fld w 39 28)
def w2Part (w : Word) : Nat := fld w 27 24
def w2ChipGen (w : Word) : BitVec 8 := BitVec.ofNat 8 (fld w 23 16)

/-- A stale report or message is dropped and counted (R274, R380). -/
def State.countStale (s : State) : State :=
  { s with hivestat := { s.hivestat with stale := satInc s.hivestat.stale } }

/-- A request message is stale (R260 check 1).
Log 94 (DESIGN CHOICE, unsafe). -/
def State.staleMsg (s : State) (m : HiveFrame) : Bool :=
  s.staleChip (portPart m.port) (portSrc m.port) (portGen m.port) ||
  s.staleCtx (portPart m.port) (portSrc m.port) (portGen m.port) (BitVec.ofNat 10 (w2Ctx m.w2))
    (w2Gen m.w2)

/-- An answer is stale: its sender is, or it carries an older CHIPGEN of this chip or another
generation of its context (R290, R357). -/
def State.staleReply (s : State) (m : HiveFrame) : Bool :=
  s.staleChip (portPart m.port) (portSrc m.port) (portGen m.port) ||
  decide (w2ChipGen m.w2 ≠ s.recov.chipgen) || decide ((s.ctx (w2Ctx m.w2)).gen ≠ w2Gen m.w2)

/-! ## Receiving hive messages (R261) -/

def msgType (m : HiveFrame) : Nat := fld m.header 63 60
def msgResult (m : HiveFrame) : Nat := fld m.header 39 32
def msgId (m : HiveFrame) : BitVec 32 := BitVec.ofNat 32 (fld m.header 31 0)
def msgObj (m : HiveFrame) : Nat := fld m.w0 17 0
def msgOp (m : HiveFrame) : Nat := fld m.w0 21 19
def msgTag (m : HiveFrame) : BitVec 32 := BitVec.ofNat 32 (fld m.w0 63 32)

/-- A RESULT that the type may not carry (R261): it is zero but in ACK and WAKE. -/
def badResult (m : HiveFrame) : Bool :=
  let r := msgResult m
  if msgType m = 1 then ! [0x00, 0x16, 0x17].contains r
  else if msgType m = 3 then ! [0x00, 0x16, 0x17, 0xFF].contains r
  else r != 0

/-- Receiving a hive message of a type: dropped frames, reserved types and results are reported, stale
messages counted; the rest is handled. A message of another type is another command's. A port or hive that is gated
takes nothing (R411).
Log 81 (DEDUCED, safe). -/
def State.receive (s : State) (c : Instr) (m : HiveFrame) (typ : Nat) (f : State → State) : State :=
  s.when (s.linkOn && s.hiveOn (halfOfObj (msgObj m))) fun s => s.delivery c fun s =>
    if s.recov.inprogress then s
    else if s.badFrameHead m.port 0 || decide (7 ≤ msgType m) || badResult m then s.hiveDrop srcLinkPort
    else if msgType m ≠ typ then s
    else if (if typ = 1 ∨ typ = 3 then s.staleReply m else s.staleMsg m) then s.countStale
    else f s

/-- The signaller of a message: another chip (R245). -/
def msgSigner (m : HiveFrame) : Signer := { ctx := w2Ctx m.w2, src := 0x3FE, tag := msgTag m }

/-- Answering a message.
Log 35 (DEDUCED, unsafe). -/
def State.answerMsg (s : State) (m : HiveFrame) (typ result : Nat) : State :=
  s.reply (portPart m.port) typ (portSrc m.port) result (msgId m) (msgObj m) m.w2

/-- The object lies in the range of the message's partition (R260 check 3).
Log 94 (DESIGN CHOICE, unsafe). -/
def State.msgTenant (s : State) (m : HiveFrame) : Bool :=
  decide (s.objPart (msgObj m) = some (portPart m.port))

/-- The object's half is in service (R260 check 2). -/
def State.objServed (s : State) (n : Nat) : Bool := s.inService (halfOfObj n)

/-- The line that a message needs, once the checks before the object have let it through (R260, R317). -/
def State.msgNeeds (s : State) (m : HiveFrame) (ops : Nat) : List LineNeed :=
  let n := msgObj m
  if s.objServed n && s.msgTenant m && decide (msgOp m < ops) then [hiveNeed n true] else []

/-- A message acts on its object once the hive cache holds the line; until then it is held. -/
def State.onObject (s : State) (c : Instr) (m : HiveFrame) (ops : Nat) (f : State → State) : State :=
  s.withLines (s.msgNeeds m ops) (·.hold c) f

/-- SIGNAL_MESSAGE (R260, R262).
Log 93 (DESIGN CHOICE, unsafe). -/
def State.signalArrives (s : State) (m : HiveFrame) : State :=
  let n := msgObj m
  if !s.objServed n then s.hiveDrop (srcHive (halfOfObj n))
  else if !s.msgTenant m then s.answerMsg m 1 0x17
  else if 3 ≤ msgOp m then s.hiveDrop (srcHive (halfOfObj n))
  else if (s.obj n).kind ≠ 0 then s.answerMsg m 1 0x16
  else
    let s := s.setObj n { w0 := signalValue (msgOp m) (s.obj n).w0 m.w1, w1 := signed 0 (msgSigner m) }
    (s.answerMsg m 1 0).wakeWaiters n

def execSignalMessage (m : HiveFrame) (s : State) : Host.Outcome State Fault Refusal :=
  ok True <| s.receive (.signalMessage m) m 0 fun s => s.onObject (.signalMessage m) m 3 fun s => s.signalArrives m

/-- Entries of the remote wait table of a half (R262). -/
def State.remoteWaits (s : State) (h : Nat) : Nat :=
  (s.waiters.map fun e => if halfOfObj e.1 = h then (e.2.filter fun w => match w.owner with
    | .remote _ _ => true
    | _ => false).length else 0).foldl (· + ·) 0

/-- The waiter of a WAITREG. The queue on its own chip, which the debugger shows, is an open value: no
message carries it.
Log 35 (DEDUCED, unsafe). -/
def State.remoteWaiter (s : State) (m : HiveFrame) : Waiter where
  test := .cmp (msgOp m) m.w1
  owner := .remote (portPart m.port) (msgId m)
  ctx := w2Ctx m.w2
  gen := w2Gen m.w2
  queue := s.freeNow.toNat % 4096
  chip := portSrc m.port
  chipgen := portGen m.port

/-- WAITREG (R250, R262). A wait on a BROKEN object gets no answer: no RESULT says PEER_LOST.
Log 35 (DEDUCED, unsafe), 93 (DESIGN CHOICE, unsafe). -/
def State.waitregArrives (s : State) (m : HiveFrame) : State :=
  let n := msgObj m
  let o := s.obj n
  if !s.objServed n then s.hiveDrop (srcHive (halfOfObj n))
  else if !s.msgTenant m then s.answerMsg m 3 0x17
  else if 6 ≤ msgOp m then s.hiveDrop (srcHive (halfOfObj n))
  else if o.kind = 3 then s
  else if compareCode (msgOp m) o.w0 m.w1 then s.answerMsg m 3 0
  else if 4096 ≤ s.remoteWaits (halfOfObj n) then s.answerMsg m 3 0xFF
  else s.useFree.addWaiter n (s.remoteWaiter m)

def execWaitreg (m : HiveFrame) (s : State) : Host.Outcome State Fault Refusal :=
  ok True <| s.receive (.waitreg m) m 2 fun s => s.onObject (.waitreg m) m 6 fun s => s.waitregArrives m

/-- CANCEL frees the matching entry of the remote wait table. -/
def execCancel (m : HiveFrame) (s : State) : Host.Outcome State Fault Refusal :=
  ok True <| s.receive (.cancel m) m 6 fun s => s.dropWaiters fun w =>
    decide (w.owner = .remote (portPart m.port) (msgId m)) && w.chip == portSrc m.port

/-! ## Answers (R262) -/

/-- The node and sheaf of a CALL's run. -/
def State.callOf (s : State) (k fr : Nat) : Option (Nat × Node) :=
  match s.runAt k fr with
  | some r => (s.node r.call).map fun d => (r.call, d)
  | none => none

/-- A run's sheaf ends with STILE_MISUSE or PEER_LOST; for a sheaf's own operation it is the sheaf. -/
def State.ownerSheaf (s : State) (o : Owner) : Option (Nat × Node) :=
  match o with
  | .node n => (s.node n).map fun d => (n, d)
  | .run k fr _ => s.callOf k fr
  | .remote _ _ => none

/-- The sheaf of an operation ends as f says, its run with it; one whose end is decided already is left
alone. -/
def State.endOwner (s : State) (o : Owner) (f : State → Nat → Node → State) : State :=
  match s.ownerSheaf o with
  | some (n, d) => if d.phase = .doomed ∨ d.phase = .heldRecord then s else f (s.stopOwner o) n d
  | none => s

/-- An operation that was blocked on the other chip: TENANT_BLOCK, or 0x17 in RD (R236, R263). -/
def State.ownerBlocked (s : State) (o : Owner) (obj : Nat) : State :=
  match o with
  | .node n => match s.node n with
    | some d => if d.phase = .hive then s.tenantBlock n d (srcHive d.half) obj else s
    | none => s
  | .run k fr rd => match s.callOf k fr with
    | some (_, d) =>
      (s.raise (callBlocked (srcHive d.half) d)).finishRun k fr rd 0x17
    | none => s
  | .remote _ _ => s

/-- The reason of R254 for an operation that the receiver calls a misuse. RESULT 0x16 does not say which rule a direct
arrival broke there: the object's kind, reason 7, or another, reason 8; which it gives is open.
Log 79 (DESIGN CHOICE, safe). -/
def State.misuseReason (s : State) (r : RemoteOp) : Nat :=
  if fld r.frame.header 63 60 = 4 then 7 + s.freeNow.toNat % 2 else 8

/-- What an ACK or WAKE with RESULT does for the operation it answers.
Log 79 (DESIGN CHOICE, safe). -/
def State.opAnswered (s : State) (r : RemoteOp) (result : Nat) : State :=
  let s := { s with remoteOps := s.remoteOps.filter fun x => !decide (x.msgid = r.msgid) }
  if result = 0x17 then (s.dropWaiters fun w => decide (w.owner = r.owner)).ownerBlocked r.owner r.obj
  else if result = 0x16 then
    let s := s.dropWaiters fun w => decide (w.owner = r.owner)
    let why := s.misuseReason r
    s.useFree.endOwner r.owner fun s n d => s.misuseEnd n d (srcHive d.half) r.obj why
  else if (s.waitersOf r.obj).any fun w => decide (w.owner = r.owner) then s
  else match r.owner with
    | .node n => s.wakeSheaf n
    | .run k fr rd => s.finishRun k fr rd 0
    | .remote _ _ => s

/-- The pending operation that a message answers. -/
def State.pendingOp (s : State) (m : HiveFrame) (wait : Bool) : Option RemoteOp :=
  s.remoteOps.find? fun r => r.msgid == msgId m && r.part == portPart m.port && r.wait == wait

/-- HIVE_ACK. -/
def execHiveAck (m : HiveFrame) (s : State) : Host.Outcome State Fault Refusal :=
  ok True <| s.receive (.hiveAck m) m 1 fun s => match s.pendingOp m false with
    | some r => s.opAnswered r (msgResult m)
    | none => s

/-- WAKE: RESULT 0xFF schedules the WAITREG again after 10 µs. -/
def execWake (m : HiveFrame) (s : State) : Host.Outcome State Fault Refusal :=
  ok True <| s.receive (.wake m) m 3 fun s => match s.pendingOp m true with
    | some r =>
      if msgResult m = 0xFF then
        { s with remoteOps := s.remoteOps.map fun x =>
            if x.msgid = r.msgid then { x with retryDue := some (s.now + 10) } else x }
      else s.opAnswered r (msgResult m)
    | none => s

/-- WAITREG_RETRY.
Log 36 (DEDUCED, unsafe). -/
def execWaitregRetry (msgid : BitVec 32) (s : State) : Host.Outcome State Fault Refusal :=
  ok True <| s.when s.working fun s =>
    match s.remoteOps.find? fun r => r.msgid == msgid with
    | some r => match r.retryDue with
      | some t =>
        if t ≤ s.now then
          let ops := s.remoteOps.map fun (x : RemoteOp) =>
            if x.msgid = msgid then { x with retryDue := none } else x
          { s with remoteOps := ops }.sendHive r.part r.frame
        else s
      | none => s
    | none => s

/-! ## Tier messages (R263, R265, R266) -/

/-- A tier message that R263 blocks. -/
def State.blockMsg (s : State) (n : Nat) : State :=
  { s with hivestat := { s.hivestat with blocked := satInc s.hivestat.blocked } }.hiveDrop
    (srcHive (halfOfObj n))

/-- TIERARRIVE counts as one arrival; its sender learns through an ACK whether it was counted, or blocked (R263).
Log 35 (DEDUCED, unsafe). -/
def State.tierArrives (s : State) (m : HiveFrame) : State :=
  let n := msgObj m
  let o := s.obj n
  let src := srcHive (halfOfObj n)
  if !s.objServed n then s.hiveDrop src
  else if !s.msgTenant m then (s.blockMsg n).answerMsg m 1 0x17
  else if o.kind ≠ 2 then (s.hiveDrop src).answerMsg m 1 0x16
  else match classifyArrival o (fld m.w1 15 0) (s.objWorker n) with
    | .misuse _ => (s.hiveDrop src).answerMsg m 1 0x16
    | .counted o' completes report =>
      ((s.countArrival n o' (msgSigner m) completes report).answerMsg m 1 0).wakeWaiters n

def execTierarrive (m : HiveFrame) (s : State) : Host.Outcome State Fault Refusal :=
  ok True <| s.receive (.tierarrive m) m 4 fun s => s.onObject (.tierarrive m) m 8 fun s => s.tierArrives m

/-- TIERRELEASE completes the worker's round, and reports the next if it is already full. -/
def State.tierReleased (s : State) (m : HiveFrame) : State :=
  let n := msgObj m
  let o := s.obj n
  let src := srcHive (halfOfObj n)
  if !s.objServed n then s.hiveDrop src
  else if !s.msgTenant m then s.blockMsg n
  else if o.kind ≠ 2 ∨ o.round ≠ fld m.w1 15 0 ∨ s.objWorker n = false then s.hiveDrop src
  else
    let o' := o.complete
    let s := s.setObj n { o' with w1 := signed 2 (msgSigner m) }
    let s := if o'.arrived = o'.pminus1 + 1 then s.sendTierarrive n o'.round else s
    s.wakeWaiters n

def execTierrelease (m : HiveFrame) (s : State) : Host.Outcome State Fault Refusal :=
  ok True <| s.receive (.tierrelease m) m 5 fun s => s.onObject (.tierrelease m) m 8 fun s => s.tierReleased m

/-! ## Signal reports (R257, R260) -/

/-- The report comes from this chip. -/
def reportLocal (w2 : Word) : Bool := w2Chip w2 == 0x3FFF

/-- Check 1 of R260. -/
def State.reportStale (s : State) (w2 : Word) : Bool :=
  if reportLocal w2 then
    decide ((s.ctx (w2Ctx w2)).gen ≠ w2Gen w2) || decide (w2ChipGen w2 ≠ s.recov.chipgen)
  else
    s.staleChip (w2Part w2) (w2Chip w2) (w2ChipGen w2) ||
    s.staleCtx (w2Part w2) (w2Chip w2) (w2ChipGen w2) (BitVec.ofNat 10 (w2Ctx w2)) (w2Gen w2)

/-- Check 3 of R260. -/
def State.reportTenant (s : State) (n : Nat) (w2 : Word) : Bool :=
  if reportLocal w2 then
    isSystem (w2Ctx w2) || decide (s.objPart n = some (w2Part w2))
  else
    let g := s.group (w2Part w2)
    decide (s.objPart n = some (w2Part w2)) && g.en && decide ((w2Chip w2).toNat < g.size.toNat)

/-- A dropped report: HIVE_DROP, which names the context of a signaller of this chip. -/
def State.dropReport (s : State) (n : Nat) (w0 w2 : Word) : State :=
  s.raise { source := srcHive (halfOfObj n), kind := kHiveDrop, cls := .note
            ctx := if reportLocal w2 then some (w2Ctx w2, w2Gen w2) else none
            tag := BitVec.ofNat 32 (fld w0 63 32) }

/-- A report that check 4 drops. -/
def State.misuseReport (s : State) (n : Nat) (w0 w2 : Word) : State :=
  { s with hivestat := { s.hivestat with misuse := satInc s.hivestat.misuse } }.dropReport n w0 w2

/-- Who signalled (R245). -/
def reportSigner (w0 w2 : Word) : Signer where
  ctx := w2Ctx w2
  src := if reportLocal w2 then fld w0 31 22 else 0x3FE
  tag := BitVec.ofNat 32 (fld w0 63 32)

/-- The four checks and the update. -/
def State.signalReport (s : State) (w0 w1 w2 : Word) : State :=
  let n := fld w0 17 0
  let op := fld w0 21 19
  let o := s.obj n
  if 4 ≤ op then s
  else if s.reportStale w2 then s.countStale
  else if !s.objServed n then s.dropReport n w0 w2
  else if !s.reportTenant n w2 then
    { s with hivestat := { s.hivestat with blocked := satInc s.hivestat.blocked } }.dropReport n w0 w2
  else if op < 3 then
    if o.kind ≠ 0 then s.misuseReport n w0 w2
    else (s.setObj n { w0 := signalValue op o.w0 w1, w1 := signed 0 (reportSigner w0 w2) }).wakeWaiters n
  else if o.kind ≠ 1 ∧ o.kind ≠ 2 then s.misuseReport n w0 w2
  else match classifyArrival o (fld w1 15 0) (s.objWorker n) with
    | .misuse _ => s.misuseReport n w0 w2
    | .counted o' completes report =>
      (s.countArrival n o' (reportSigner w0 w2) completes report).wakeWaiters n

/-- The line that a report needs, once the first three checks have let it through (R260, R317). -/
def State.reportNeeds (s : State) (w0 w2 : Word) : List LineNeed :=
  let n := fld w0 17 0
  if decide (fld w0 21 19 < 4) && !s.reportStale w2 && s.objServed n && s.reportTenant n w2 then [hiveNeed n true]
  else []

/-- SIGNAL_REPORT on the engine port of furrow f; a gated port or hive takes nothing (R411).
Log 81 (DEDUCED, safe). -/
def execSignalReport (f : Nat) (w0 w1 w2 : Word) (s : State) : Host.Outcome State Fault Refusal :=
  ok (isFurrow f) <| s.when (s.engineOn && s.hiveOn (halfOfObj (fld w0 17 0))) fun s =>
    s.delivery (.signalReport f w0 w1 w2) fun s =>
      if s.recov.inprogress then s
      else s.withLines (s.reportNeeds w0 w2) (·.hold (.signalReport f w0 w1 w2)) fun s => s.signalReport w0 w1 w2

end Sys2Proof.Machine
end

