-- ==== Sys2Proof/Machine/Contexts.lean ====
section
/-! DEFINITION. Ends that come from outside a sheaf: the withdrawal of sheaves (R71), teardown (R291,
R292), draining (R293, R294), the destruction of a queue (R295), abort requests (R196, R217, R297),
window violations (R281) and queue timers (R77, R109, R195, R218). -/

namespace Sys2Proof.Machine

/-! ## Withdrawal (R71) -/

/-- A kernel command that ends without completing leaves nothing pending behind it. -/
def State.dropCommand (s : State) (n : Nat) : State :=
  { s with
    routines := s.routines.mapAll {} fun _ x => { x with loading := x.loading.filter fun e => e.1 != n }
    ctxs := s.ctxs.mapAll {} fun _ x => if x.setwin = some n then { x with setwin := none } else x
    fence := { s.fence with
      openNodes := s.fence.openNodes.filter (· != n)
      nextNodes := s.fence.nextNodes.filter (· != n)
      held := s.fence.held.filter (· != n) } }

/-- The edges that name a withdrawn sheaf settle at its withdrawal, but those of a queue that is being
destroyed only when the queue is FREE (R119, R295).
Log 25 (DEDUCED, unsafe). -/
def State.settleWithdrawn (s : State) (q : Nat) (seq : Word) (zero : Bool) : State :=
  match (s.queue q).state with
  | .busy => s
  | _ => s.settleEdges (EdgeTarget.isSeq q seq.toNat) zero

/-- A withdrawn sheaf leaves the graph: what its committed runs reported is recorded if its generation is still
current (R162), its number retires, its node slot is freed at once, and the edges that name it are satisfied, those of
a queue that is being destroyed when the queue becomes FREE (R119). -/
def State.withdraw1 (s : State) (n : Nat) : State :=
  match s.node n with
  | none => s
  | some d =>
    let ex := d.executed
    let s := if (s.ctx d.ctx).gen = d.gen then s.queueScale d else s
    let s := (s.dropCommand n).freeNode n
    let s := s.traceRec 3 d.queue (some d.ctx)
      (traceW1 d.tag (stWithdrawn.toNat * 2 ^ 24 + d.seq.toNat % 2 ^ 20))
    match d.child with
    | some (_, i) => s.settleEdges (EdgeTarget.isIssue i) (ex == 0)
    | none =>
      let s := s.markRetired d.queue d.seq d.tag stWithdrawn ex true
      let s := s.modAcct d.ctx fun a => { a with retired := a.retired + 1 }
      let s := s.settleWithdrawn d.queue d.seq (ex == 0)
      (s.countBreaks d.queue 1).tallyEnd d

/-- The records of one withdrawal, in ascending order of SEQ: one for each sheaf that committed, one
for each run of consecutive numbers among the others. -/
def withdrawRecords (detail : BitVec 32) : List Node → List Record
  | [] => []
  | d :: ds =>
    let r : Record := { retireRecord d.queue d.seq d.tag d.gen
      { status := stWithdrawn, executed := d.executed, detail := detail, furrow := noFurrow } none with
      executed := BitVec.ofNat 16 d.executed }
    match withdrawRecords detail ds with
    | t :: ts =>
      if d.executed = 0 ∧ t.executed = 0 ∧ t.seq = d.seq + 1 then
        { r with count := t.count + 1 } :: ts
      else r :: t :: ts
    | [] => [r]

/-- Inserting by sequence number. -/
def insertSeq (d : Node) : List Node → List Node
  | [] => [d]
  | e :: t => if d.seq.toNat ≤ e.seq.toNat then d :: e :: t else e :: insertSeq d t

/-- Unretired sheaves of queue q, children of its CALLs included.
Log 60 (DESIGN CHOICE, safe). -/
def State.unretired (s : State) (q : Nat) : List Nat :=
  s.nodesWhere fun _ d => d.queue == q && decide (d.phase ≠ .heldRecord)

/-- The unretired sheaves of a queue retire WITHDRAWN together. -/
def State.withdrawQueue (s : State) (q : Nat) (detail : BitVec 32) : State :=
  let ns := s.unretired q
  let ds := (ns.filterMap s.node).filter fun d => d.child.isNone
  let rs := withdrawRecords detail (ds.foldr insertSeq [])
  let s := s.forAll ns State.withdraw1
  let s := if (s.queue q).state = .free then s else rs.foldl State.putRecord s
  (s.advanceQueue q).checkAbortBusy

/-! ## Removing unstarted work and aborting runs -/

/-- A run is aborted for a cause. With the destruction of its queue it keeps its sheaf as it is now, whose token
applies should the run commit first (R295). -/
def State.abortedRun (s : State) (r : EngineRun) (cause : AbortCause) : EngineRun :=
  { r with abort := some cause, orphan := if cause = .destroy then s.node r.entry.node else r.orphan }

/-- Runs that satisfy a test are aborted for a cause (R291 step 3, R295 step 3). An abort request leaves a run to which
an abort has gone already as that leaves it (R297, R305). -/
def State.abortRuns (s : State) (p : Entry → Bool) (cause : AbortCause) : State :=
  let fs := s.furrows.keys fun _ x => match x.run with
    | some r => p r.entry && !(decide (cause = .request) && r.abort.isSome)
    | none => false
  s.forAll fs fun s f =>
    match (s.furrow f).run with
    | some r => (s.modFurrow f fun x => { x with run := some (s.abortedRun r cause) }).drive
        (.abort f r.entry.gen)
    | none => s

/-- Furrows whose engines run an entry that satisfies a test. -/
def State.runsWhere (s : State) (p : Entry → Bool) : List Nat :=
  s.furrows.keys fun _ x => match x.run with
    | some r => p r.entry
    | none => false

/-- The waits, CALL runs and ports of a set of sheaves end (R272, R240).
Log 60 (DESIGN CHOICE, safe). -/
def State.stopSheaves (s : State) (ns : List Nat) : State :=
  let s := s.cancelWaits fun o => match o with
    | .node n => ns.contains n
    | _ => false
  s.forAll ns fun s n => match s.node n with
    | some d => if hOp d.lines = opCall ∧ d.child = none then (s.stopCall n d).freePorts n d else s
    | none => s

/-! ## Teardown (R291) -/

/-- Step 1: the context is in TEARDOWN, its queues stop and its generation rises; the break units that watch it return
to their reset values (R433).
Log 38 (DEDUCED, unsafe). -/
def State.tearStop (s : State) (c : Nat) : State :=
  let qs := s.queues.keys fun _ x =>
    decide (x.ctx = c) && decide (x.state ≠ .free) && decide (x.state ≠ .busy)
  let s := (s.modCtx c fun x => { x with state := .teardown }).forAll qs fun s q => s.queueError q 0x06
  let s := { s with breaks := s.breaks.filter fun e =>
    !((e.2.mode == 1 || e.2.mode == 2) && e.2.ctx.toNat == c) }
  s.modCtx c fun x => { x with gen := x.gen + 1, drainDue := s.dueIn 2000, acks := [] }

/-- A SETWINDOWS whose context enters TEARDOWN is refused (R284). -/
def State.refuseSetwin (s : State) (c : Nat) : State :=
  match (s.ctx c).setwin with
  | some n =>
    let s := s.modCtx c fun x => { x with setwin := none }
    match s.node n with
    | some d => s.refuse n d 0 16
    | none => s
  | none => s

/-- Step 2: unstarted work, waits, runs, tokens and slot bindings go. -/
def State.tearRemove (s : State) (c : Nat) : State :=
  let ns := s.nodesWhere fun _ d => d.ctx == c && decide (d.phase ≠ .heldRecord)
  let s := s.removeEntries fun e => e.ctx == c
  let s := s.stopSheaves ns
  { s with
    furrows := s.furrows.mapAll {} fun _ x =>
      { x with tokens := x.tokens.filter fun t => t.ctx != c }
    flying := s.flying.filter fun t => t.ctx != c }.forAll
      (s.slots.keys fun _ x => decide (x.bound = some c)) fun s i => s.writeSlot i {}

/-- The sheaves whose own end asked for a teardown, among those that satisfy a test, retire with their own status; those
whose end a later cause decided hold none (R291 step 5, R305). -/
def State.retireDoomed (s : State) (p : Node → Bool) : State :=
  s.forAll (s.nodesWhere fun _ d => p d && decide (d.phase = .doomed)) fun s n =>
    match s.node n with
    | some d => match d.final with
      | some fin => (s.dropCommand n).retire n fin
      | none => s
    | none => s

/-- The teardown is complete (step 7): DRAINING, or FREE with its windows released. -/
def State.tearDone (s : State) (c : Nat) : State :=
  let s := s.modCtx c fun x =>
    if x.drain = 0 then { x with state := .free, windows := [], acks := [] }
    else { x with state := .draining, acks := [] }
  let s := s.closeRecords fun o => decide (o.cls = .contain) && decide (o.ctx = some c)
  s.forAll (s.nodesWhere fun _ d => decide (d.phase = .kernel) && hOp d.lines == opCtxctl &&
      aSub d.lines == 1 && fld (aw d.lines 0) 25 16 == c) fun s n => s.retireWith n stDone 1 0

/-- Steps 1 to 5 of R291, and the acknowledgements that are awaited: those of the engines that run the
context; a port that holds nothing of it acknowledges in the step itself.
Log 15 (DESIGN CHOICE, safe). -/
def State.teardown (s : State) (c : Nat) (cause : BitVec 8) : State :=
  let old := (s.ctx c).gen
  let p := (s.ctx c).part
  let mine := fun (e : Entry) => e.ctx == c
  let s := s.tearStop c
  let s := s.refuseSetwin c
  let s := s.tearRemove c
  let s := s.abortRuns mine .teardown
  let s := if isSystem c then s else s.sendNotice p 0x3FFF (noticeN0 2 0 c old.toNat) 0
  let s := s.retireDoomed fun d => d.ctx == c
  let qs := sortNats ((s.nodes.filterMap fun e => match e.2 with
    | some d => if d.ctx = c ∧ d.phase ≠ .heldRecord then some d.queue else none
    | none => none))
  let s := s.forAll qs fun s q => s.withdrawQueue q (withdrawDetail 1 cause.toNat)
  let fs := s.runsWhere mine
  if fs = [] then s.tearDone c else s.modCtx c fun x => { x with acks := fs }

/-- TEARDOWN: the teardown that has been asked for of context c begins.
Log 15 (DESIGN CHOICE, safe). -/
def execTeardown (c : Nat) (s : State) : Host.Outcome State Fault Refusal :=
  ok (isCtx c) <| s.when s.working fun s =>
    match s.tears.find? fun t => t.ctx == c with
    | some t =>
      let s := { s with tears := s.tears.filter fun t => t.ctx != c }
      if (s.ctx c).state = .live then s.teardown c t.cause else s
    | none => s

/-! ## Destroying a queue (R295) -/

/-- Every latch that a read of the queue's page took goes: a FREE queue's page reads zero (R462). -/
def State.dropPageLatches (s : State) (q : Nat) : State :=
  { s with latches := s.latches.filter fun l => !(decide (10000 ≤ l.reg) && l.reg % 10000 == q) }

/-- The queue becomes FREE: its held records are discarded, open edges that name it are satisfied, and
the QCTL DESTROYs that wait for it retire DONE (R74, R104, R119).
Log 25 (DEDUCED, unsafe). -/
def State.queueFree (s : State) (q : Nat) : State :=
  let held := s.nodesWhere fun _ d => d.queue == q && decide (d.phase = .heldRecord)
  let s := s.forAll held State.freeNode
  let s := (s.writeQueue q {}).dropPageLatches q
  let settle := fun (e : Edge) =>
    if EdgeTarget.ofQueue q e.target then match e.st with
      | .done _ => e
      | _ => { e with st := .done false }
    else e
  let s := { s with nodes := s.nodes.mapAll none fun _ o => o.map fun (d : Node) =>
    { d with edges := d.edges.map settle } }
  s.forAll (s.nodesWhere fun _ d => decide (d.phase = .kernel) && hOp d.lines == opQctl &&
      aSub d.lines == 1 && fld (aw d.lines 0) 27 16 == q) fun s n => s.retireWith n stDone 1 0

/-- Steps 1 to 5 of R295. A sheaf that an uncorrectable error or another cause of a teardown has ended already retires
with that status (R41, R305). -/
def State.destroyQueue (s : State) (q : Nat) : State :=
  let mine := fun (e : Entry) => e.queue == q
  let s := s.modQueue q fun x => { x with
    state := .busy, fetched := [], reading := 0, partialAtTail := false }
  let s := s.removeEntries mine
  let s := s.stopSheaves (s.unretired q)
  let s := s.abortRuns (fun e => mine e && (s.ctx e.ctx).gen == e.gen) .destroy
  let s := (s.retireDoomed fun d => d.queue == q).withdrawQueue q (withdrawDetail 2 0)
  let fs := s.runsWhere mine
  if fs = [] then s.queueFree q else s.modQueue q fun x => { x with acks := fs }

/-- TEARDOWN_ACK: an engine or link port holds nothing more of the context or queue; the last
acknowledgement completes the teardown or the destruction. -/
def execTeardownAck (scope : AckScope) (port : Nat) (s : State) : Host.Outcome State Fault Refusal :=
  ok (isPort port ∧ (match scope with
    | .context c => c
    | .queue q => q / 4) < 1024) <| s.when s.working fun s =>
    let busy := fun (p : Entry → Bool) => match (s.furrow port).run with
      | some r => p r.entry
      | none => false
    match scope with
    | .context c =>
      let x := s.ctx c
      if x.state = .teardown ∧ x.acks.contains port = true ∧
          busy (fun e => e.ctx == c && e.gen != x.gen) = false then
        let rest := x.acks.filter (· != port)
        if rest = [] then s.tearDone c else s.setCtx c { x with acks := rest }
      else s
    | .queue q =>
      let x := s.queue q
      if x.state = .busy ∧ x.acks.contains port = true ∧ busy (fun e => e.queue == q) = false then
        let rest := x.acks.filter (· != port)
        if rest = [] then s.queueFree q else s.setQueue q { x with acks := rest }
      else s

/-! ## Draining (R293, R294) -/

/-- Memory acknowledges one committed write of the context. One that nothing awaits violates the memory
port's protocol.
Log 14 (DEDUCED, unsafe). -/
def State.writeLanded (s : State) (c : Nat) : State :=
  let x := s.ctx c
  if x.drain = 0 then s.raise { source := srcMemPort, kind := kPort, cls := .severe }
  else if x.drain = 1 ∧ x.state = .draining then
    s.setCtx c { x with drain := 0, state := .free, windows := [] }
  else s.setCtx c { x with drain := x.drain - 1 }

/-- WRITE_ACK: in an idle state the memory-fabric port takes it when the wake completes. One of an older chip reset
generation is dropped (R289). -/
def execWriteAck (a : DrainAck) (s : State) : Host.Outcome State Fault Refusal :=
  ok (isCtx a.ctx) <|
    s.when (decide (s.power = .run) && !s.recov.safe && !s.recov.inprogress && s.memOn) fun s =>
      if s.clocks.idle ≠ .none then s.hold (.writeAck a)
      else if a.chipgen = s.recov.chipgen then s.writeLanded a.ctx
      else s

/-- QUARANTINE: the drain limit has passed. -/
def execQuarantine (c : Nat) (s : State) : Host.Outcome State Fault Refusal :=
  ok (isCtx c) <| s.when s.working fun s =>
    let x := s.ctx c
    if x.state = .draining ∧ x.drainDue ≤ s.now then
      (s.setCtx c { x with state := .quarantined }).raise
        { source := srcFrontEnd (halfOfCtx c), kind := kQuarantine, cls := .note, ctx := some (c, x.gen) }
    else s

/-! ## Window checkers (R281) -/

/-- DETAIL of a WINDOW that an engine access raised. -/
def State.accessDetail (s : State) (addr : Word) (write : Bool) (ordinal : Option Nat) : BitVec 32 :=
  BitVec.ofNat 32 ((if write then 2 else 1) * 2 ^ 20 + ((s.spaceOf addr.toNat).getD 0xF) * 2 ^ 16 +
    (ordinal.getD 0xFFFF) % 2 ^ 16)

/-- The windows of a context, in a generation, go to the checkers of every core of its partition and of every link port
(R281). -/
def State.loadCheckers (s : State) (c : Nat) : State :=
  let x := s.ctx c
  s.drive (.windows (s.stampOf c x.gen) x.windows
    (s.coresOf (s.clustersOf c)) (List.range s.linkPorts))

/-- WINDOW_VIOLATION: the run ends without commit, and the sheaf retires WINDOW. A report of an older generation is
dropped (R290). Where the sheaf has ended otherwise, its context is torn down all the same (R305), and the record
names that end (R336).
Log 39 (DEDUCED, unsafe). -/
def execWindowViolation (p : PortReport) (addr : Word) (write : Bool) (s : State) :
    Host.Outcome State Fault Refusal :=
  let f := p.furrow
  ok (isFurrow f) <| s.when s.working fun s =>
    s.reportFor f p.stamp fun r =>
      let rep : EngineReport := { stamp := p.stamp, maxexp := none, clipped := 0, memread := 0, memwrite := 0
                                  linksent := 0, energy := 0, writes := 0, ecc := false }
      let s := ((s.account f r rep true).traceEnd f r true).clearRun f
      let fr : BitVec 10 := BitVec.ofNat 10 f
      let detail := s.accessDetail addr write r.entry.member
      let e := fun (d : Node) =>
        { d.event (srcFurrow f) kWindow .contain stWindow detail fr with address := addr }
      match s.runNode r with
      | none => match r.orphan with
        | some d => if (s.ctx d.ctx).gen = d.gen then s.raise ((e d).endedAs (some d.orphanEnd)) else s
        | none => s
      | some d =>
        if d.phase = .doomed then s.raise ((e d).endedAs d.final)
        else (s.streamEnd d false).doom r.entry.node d
          { status := stWindow, executed := d.executed, detail := detail, furrow := fr } (e d)

/-- REMOTE_WRITE_DROP: a data mover dropped a write from another chip to context c. -/
def execRemoteWriteDrop (f c : Nat) (addr : Word) (s : State) : Host.Outcome State Fault Refusal :=
  ok (isFurrow f ∧ isCtx c) <| s.when s.engineOn fun s => s.delivery (.remoteWriteDrop f c addr) fun s =>
    if s.recov.inprogress then s
    else s.raise { source := srcFurrow f, kind := kRemoteWriteDrop, cls := .note
                   ctx := some (c, (s.ctx c).gen), furrow := BitVec.ofNat 10 f, address := addr }

/-! ## Abort requests (R196, R217, R297) -/

/-- The runs of a sheaf are aborted on request; what a pre-emption that reached the port first leaves of it ends too
(R305). -/
def State.requestAbort (s : State) (n : Nat) : State :=
  (s.modNode n fun d => { d with aborted := true }).abortRuns (fun e => e.node == n) .request

/-- A sheaf that has not started, or stands between two runs, retires ABORTED. -/
def State.abortWaiting (s : State) (n : Nat) (d : Node) : State :=
  let s := s.removeEntries fun e => e.node == n
  let s := s.cancelWaits fun o => o == .node n
  let s := s.dropCommand n
  let s := if hOp d.lines = opBranch then s.decideBranch d.queue d.seq.toNat .aborted else s
  s.retireWith n stAborted d.executed 0

/-- A template: expansion stops and unstarted members go; with no member left running it retires.
Log 29 (DEDUCED, unsafe). -/
def State.abortTemplate (s : State) (n : Nat) (d : Node) : State :=
  let waiting := fun (m : Member) => decide (m.st = .waiting) || decide (m.st = .entered)
  let d := { d with
    cut := d.cut || !d.plan.isEmpty || d.members.any waiting
    plan := []
    members := d.members.map fun m => if waiting m then { m with st := .ended } else m }
  let s := (s.removeEntries fun e => e.node == n).setNode n (some d)
  if (s.runningOn n).isSome then s.requestAbort n
  else if d.allEnded then s.retireWith n stAborted d.committedMembers 0
  else s

/-- One covered sheaf or child that is not a CALL.
Log 36 (DEDUCED, unsafe). -/
def State.abortSheaf (s : State) (n : Nat) : State :=
  match s.node n with
  | none => s
  | some d =>
    match d.phase with
    | .committed | .doomed | .heldRecord | .kernel | .core => s
    | .running => s.requestAbort n
    | .measuring => if (s.runningOn n).isSome then s.requestAbort n else s.abortWaiting n d
    | .expand => s.abortTemplate n d
    | _ => s.abortWaiting n d

/-- A CALL (R217): before its last EXIT the run stops and the CALL retires ABORTED once its children
have ended; after it only the children are aborted. -/
def State.abortCall (s : State) (n : Nat) (d : Node) : State :=
  let s := if d.final.isNone then
      (s.stopCall n d).modNode n fun d => { d with final := some (d.endFinal stAborted noFurrow) }
    else s
  (s.forAll (s.childrenOf n) State.abortSheaf).endCall n

/-- Everything of queue q that has been accepted is covered (R297).
Log 36 (DEDUCED, unsafe). -/
def State.abortQueue (s : State) (q : Nat) : State :=
  let ns := ((s.unretired q).filterMap fun n => (s.node n).bind fun d =>
    if d.child.isNone then some (n, d.seq.toNat) else none)
  let s := { s with regs := { s.regs with abortBusy := true, abortQueue := BitVec.ofNat 12 q } }
  let s := s.forAll (ns.map (·.1)) fun s n => s.modNode n fun d => { d with aborted := true }
  let ordered := ns.foldr (fun p l =>
    (l.takeWhile fun e => decide (e.2 < p.2)) ++ p :: l.dropWhile fun e => decide (e.2 < p.2)) []
  let s := s.forAll (ordered.map (·.1)) fun s n =>
    match s.node n with
    | some d => if d.phase = .core then s.abortCall n d else s.abortSheaf n
    | none => s
  s.checkAbortBusy

/-! ## Queue timers (R77, R218) -/

/-- What the timer of a sheaf finds (R77, R109). A CALL whose timer fires in CORE state stops its run (R218). A sheaf
that was pre-empted and waits again in its furrow is one that waits (log 69). The event of one whose end is decided
already merges with what decided it (R340, R370).
Log 34 (DEDUCED, unsafe), 69 (DESIGN CHOICE, unsafe). -/
def State.timerFires (s : State) (n : Nat) (d : Node) : State :=
  match d.phase with
  | .committed => s
  | .doomed => s.useFree.raise (timeoutEvent d (BitVec.setWidth 32 s.freeNow) noFurrow)
  | .heldRecord =>
    let st : BitVec 8 := match d.final with
      | some fin => fin.status
      | none => 0
    s.raise { d.event (srcResolver d.half) kTimeout .contain st 5 noFurrow with cause := stTimeout }
  | .hive =>
    let obj := if hOp d.lines = opFence then 0x3FFFF else refObj (aObjref d.lines)
    s.timeout n d (objDetail obj 3) noFurrow
  | .branch => s.timeout n d 7 noFurrow
  | .core =>
    match s.hungChild n with
    | some m => match s.node m, s.runningOn m with
      | some c, some f => s.hung c f
      | _, _ => s
    | none => (s.stopCall n d).timeout n d (callDetail d.coreNo) noFurrow
  | .held | .steward | .ready | .choice | .table | .kernel => s.timeout n d 1 noFurrow
  | .admission => s.timeout n d 4 d.furrowNo
  | .furrow | .between => s.timeout n d (s.furrowCode n none) d.furrowNo
  | .running => match s.runningOn n with
    | some f => s.hung d f
    | none => s
  | .measuring => match s.runningOn n with
    | some f => s.hung d f
    | none => s.timeout n d (s.furrowCode n none) d.furrowNo
  | .expand =>
    if !d.plan.isEmpty then s.timeout n d 1 noFurrow
    else match s.runningOn n with
      | some f => s.hung d f
      | none => match d.firstWaiting with
        | some m => s.timeout n d (s.furrowCode n (some m.ordinal)) (BitVec.ofNat 10 m.furrow)
        | none => s

/-- QUEUE_TIMEOUT. A child is timed through its CALL (R218). -/
def execQueueTimeout (n : Nat) (s : State) : Host.Outcome State Fault Refusal :=
  ok (isNode n) <| s.when s.working fun s =>
    match s.node n with
    | some d =>
      match d.timer with
      | some t =>
        if t ≤ s.now ∧ d.child = none then
          let d := { d with timer := none }
          (s.setNode n (some d)).timerFires n d
        else s
      | none => s
    | none => s

end Sys2Proof.Machine
end

