-- ==== Sys2Proof/Machine/Values.lean ====
section
/-! DEFINITION. The words that Pliat's registers read as: global page, installer page, operator page,
hive debug window and doorbell pages (15_register_map.md), with the values that reads latch. -/

namespace Sys2Proof.Machine

/-! ## Codes -/

/-- QSTATUS.STATE (R56). -/
def QState.code : QState → Nat
  | .free => 0
  | .idle => 1
  | .active => 2
  | .stopped => 3
  | .busy => 4
  | .offline => 5

/-- PL_CTXINFO.STATE of a context whose half is in service (R278). -/
def CtxState.code : CtxState → Nat
  | .free => 0
  | .live => 1
  | .teardown => 2
  | .draining => 3
  | .quarantined => 4

def State.ctxCode (s : State) (c : Nat) : Nat :=
  if s.inService (halfOfCtx c) then (s.ctx c).state.code else 5

/-- PL_TRIM.STATE (R404). -/
def TrimState.code : TrimState → Nat
  | .untrimmed => 0
  | .acquire => 1
  | .locked => 2
  | .holdover => 3

/-- A value in eight bits, 0x80 for none. -/
def exp8 : Option Int → Nat
  | some v => (BitVec.ofInt 8 v).toNat
  | none => 0x80

/-! ## Global page (R456-R460) -/

def State.plId (s : State) : Word :=
  word [(48, 0x7A31), (40, 1), (32, 1), (8, s.clusters), (4, b2n s.fuses.t6), (0, 1)]

/-- PL_CHARGE.INSERVICE. -/
def State.serviceBits (s : State) : Nat := b2n s.charge.inService0 + 2 * b2n s.charge.inService1

def State.plGstatus (s : State) : Word :=
  word [(8, s.recov.chipgen.toNat), (7, b2n s.recov.safe), (6, b2n s.recov.inprogress),
    (5, b2n s.recov.window), (2, s.serviceBits), (1, s.holder), (0, b2n s.trimmed)]

/-! ## Installer page -/

/-- R31. -/
def State.plCharge (s : State) : Word :=
  let c := s.charge
  word [(32, c.moves.toNat), (8, b2n c.yielded0 + 2 * b2n c.yielded1), (5, b2n c.ret),
    (4, b2n c.prefer), (2, s.serviceBits), (0, s.holder)]

/-- R112. -/
def State.plReserve (s : State) : Word :=
  let r := reserveOf s.regs.groupchips.toNat
  word [(48, r.2), (32, r.1), (16, b2n s.regs.reserveRefused), (0, s.regs.groupchips.toNat)]

/-- R348. -/
def State.plHangmode (s : State) : Word :=
  let r := s.recov
  word [(32, r.cycles.toNat), (30, r.misses.toNat), (29, b2n r.armed), (28, b2n r.hangRefused),
    (24, b2n r.mode), (0, r.period.toNat)]

/-- R404. -/
def State.plTrim (s : State) : Word :=
  let t := s.trim
  word [(52, t.code.toNat), (48, t.state.code), (32, t.error.toNat), (24, t.losses.toNat),
    (16, b2n t.lostref), (8, t.link.toNat), (0, t.ref.toNat)]

/-- R407. -/
def State.plClksrc (s : State) : Word :=
  word [(48, s.clocks.switches.toNat), (8, b2n s.clocks.curLocal), (0, b2n s.clocks.selLocal)]

/-- Enable bits of a lost half (R411): FE, RES, CC, HIVE and DESC of it. -/
def halfBits (h : Nat) : BitVec 17 := BitVec.ofNat 17 (0x155 * 2 ^ h)

/-- The enable bits as PL_CLKEN reads: those of a lost half read 0. -/
def State.clkBits (s : State) : BitVec 17 :=
  let e := s.clocks.enables
  let e := if s.inService 0 then e else e &&& ~~~(halfBits 0)
  if s.inService 1 then e else e &&& ~~~(halfBits 1)

/-- R411. -/
def State.plClken (s : State) : Word :=
  word [(56, s.clocks.buserr.toNat), (55, b2n s.clocks.clkRefused), (0, s.clkBits.toNat)]

/-- R298. -/
def State.plPreempt (s : State) : Word :=
  word [(16, s.regs.preemptDelay.toNat), (8, s.regs.preemptVictim.toNat), (0, b2n s.regs.preemptEn)]

/-- R271. -/
def State.plLendctl (s : State) : Word := word [(16, s.regs.nolend.toNat), (0, b2n s.regs.lendEn)]

/-- R264. -/
def State.plHivetier (s : State) : Word :=
  word [(18, s.regs.tierCount.toNat), (0, s.regs.tierBase.toNat)]

/-- R385. -/
def State.plFencectl (s : State) : Word :=
  let f := s.fence
  word [(63, b2n f.refused), (48, f.part.toNat), (32, f.arrivals.toNat), (16, f.window.toNat),
    (1, b2n f.sync), (0, b2n f.en)]

/-- R359. -/
def State.plDumpbase (s : State) : Word :=
  word [(12, s.recov.dumpBase.toNat), (1, s.recov.dumpSample.toNat), (0, b2n s.recov.dumpEn)]

/-- R334. -/
def State.plFaultsrc (s : State) : Word :=
  let x := s.source s.faults.srcSel.toNat
  word [(56, x.count s.now), (48, x.n.toNat), (26, x.window.toNat), (0, s.faults.srcSel.toNat)]

/-- R371. -/
def State.plGroup (s : State) (p : Nat) : Word :=
  let g := s.group p
  word [(63, b2n g.refused), (62, b2n g.en), (42, g.size.toNat), (28, g.mgr.toNat), (14, g.num.toNat)]

/-- A register of the installer page by its offset in the page. -/
def State.installerWord (s : State) (off : Nat) : Word :=
  if off = 0x000 then s.plCharge
  else if off = 0x008 then word [(0, s.regs.kcmden.toNat)]
  else if off = 0x010 then s.plReserve
  else if off = 0x018 then s.plHangmode
  else if off = 0x020 then s.plTrim
  else if off = 0x028 then s.plClksrc
  else if off = 0x030 then s.plClken
  else if off = 0x038 then word [(0, s.clocks.maxstate.toNat)]
  else if off = 0x040 then s.plPreempt
  else if off = 0x048 then s.plLendctl
  else if off = 0x050 then s.plHivetier
  else if off = 0x058 then s.plFencectl
  else if off = 0x060 then s.plDumpbase
  else if off = 0x068 then s.plFaultsrc
  else if 0x100 ≤ off ∧ off < 0x160 then Tbl.get scaleReset s.regs.scalepart ((off - 0x100) / 8)
  else if 0x180 ≤ off ∧ off < 0x1E0 then Tbl.get 0 s.regs.hivepart ((off - 0x180) / 8)
  else if 0x200 ≤ off ∧ off < 0x260 then s.plGroup ((off - 0x200) / 8)
  else 0

/-! ## Operator page -/

/-- R66. -/
def State.plVerneg (s : State) : Word :=
  let q := s.regs.qsel.toNat
  let x := s.queue q
  word [(44, q), (40, x.fmt.toNat), (39, b2n (decide (x.state ≠ .free))), (32, s.regs.agreed.toNat),
    (24, s.regs.offer.toNat), (0, 3)]

/-- R67: EN reads 1 while the queue exists. -/
def State.plBootq (s : State) (h : Nat) : Word :=
  (if h = 0 then s.regs.boot0 else s.regs.boot1) |||
    word [(11, b2n (decide ((s.queue (2048 * h)).state ≠ .free)))]

/-- R363. -/
def State.plResetctl (s : State) : Word :=
  let r := s.recov
  word [(56, r.chipgen.toNat), (40, r.resets.toNat), (24, r.lastrec.toNat), (5, r.lastcause.toNat),
    (4, b2n r.dumpfail), (3, b2n r.window), (2, b2n r.inprogress)]

/-- R297. -/
def State.plAbortq (s : State) : Word :=
  word [(16, b2n s.regs.abortBusy), (0, s.regs.abortQueue.toNat)]

/-- R366. -/
def State.plTallybase (s : State) : Word :=
  word [(12, s.recov.tallyBase.toNat), (0, b2n s.recov.tallyValid)]

/-- R419. -/
def State.plPwrstat (s : State) : Word :=
  let c := s.clocks
  word [(32, c.entries.toNat), (10, c.lastidle.toNat), (3, b2n c.pendfail), (2, b2n c.evalid),
    (1, b2n s.trim.lockedXing), (0, b2n s.trimmed)]

/-- R274. -/
def State.plHivestat (s : State) : Word :=
  word [(48, s.hivestat.blocked.toNat), (32, s.hivestat.stale.toNat), (16, s.hivestat.misuse.toNat),
    (0, s.remoteWaits 0 + s.remoteWaits 1)]

/-- PL_CTXINFO of context c (R278). -/
def State.ctxWord (s : State) (c : Nat) : Word :=
  let x := s.ctx c
  let qs := s.queues.keys fun _ y => decide (y.state ≠ .free) && y.ctx == c
  word [(61, s.ctxCode c),
    (57, if x.state = .free then 0 else if isSystem c then 15 else x.part),
    (45, x.gen.toNat), (32, qs.length), (16, min x.drain 0xFFFF), (0, c)]

/-- PL_PARTINFO of partition p (R288). -/
def State.partWord (s : State) (p : Nat) : Word :=
  let x := s.part p
  word [(63, b2n x.defined), (48, x.clusters.toNat), (37, (s.partCtxs p).length), (0, p)]

/-- Length of the image of a slot; those of the shipped routines are open (R243).
Log 13 (DESIGN CHOICE, safe). -/
def State.slotLength (s : State) (i : Nat) : Nat :=
  if i ≤ 10 then 1 + Config.shippedLengthSeed i % 8192
  else if i < 64 then 0
  else (s.rslot i).image.length

/-- PL_SLOTINFO (R243). -/
def State.plSlotinfo (s : State) : Word :=
  let i := s.regs.slotSel.toNat
  let waiting := fun (o : Nat) => s.nodesWhere fun _ d =>
    hOp d.lines == o && aSub d.lines == i && d.child.isNone && decide (d.phase ≠ .heldRecord)
  word [(48, min (waiting opCall).length 0xFFFF), (32, (s.rslot i).loads.toNat), (17, s.slotLength i),
    (16, b2n (waiting opLoadroutine != [])), (0, i)]

/-- This chip is the manager of the fence's group, or its own manager without one (R371, R387). -/
def State.fenceManager (s : State) : Bool :=
  let g := s.group s.fence.part.toNat
  !g.en || g.num == g.mgr

/-- R392. -/
def State.plFencestat (s : State) : Word :=
  let f := s.fence
  word [(48, f.misses.toNat), (32, f.mismatch.toNat),
    (16, if s.fenceManager then f.ready.length else 0), (0, f.arrived)]

/-- R393. -/
def State.plFencenext (s : State) : Word :=
  word [(32, min s.fence.held.length 0xFFFF), (0, s.fence.next)]

/-- D of a scale slot (R157). -/
def Slot.field (x : Slot) : Nat :=
  ((List.range 16).map fun i => (x.deltas.getD i 0) * 2 ^ (5 * i)).foldl (· + ·) 0

/-- W0 and W1 of a scale slot (R157). -/
def Slot.words (x : Slot) : Word × Word :=
  (word [(60, x.ptr), (55, x.count), (53, x.margin), (50, b2n x.bound.isSome), (40, x.bound.getD 0),
      (32, exp8 x.pendmax), (24, exp8 x.lastexp), (16, (BitVec.ofInt 8 x.ref).toNat),
      (0, x.field % 2 ^ 16)],
    BitVec.ofNat 64 (x.field / 2 ^ 16))

/-- R341. -/
def State.plFaultlog (s : State) : Word :=
  let f := s.faults
  word [(48, f.lost.toNat), (32, f.acked.toNat), (16, f.written.toNat), (12, f.notifymin.toNat),
    (0, f.sel.toNat)]

/-- R431. -/
def State.plAudit (s : State) : Word :=
  word [(32, s.audit.written.toNat), (0, s.audit.sel.toNat)]

/-- R440. -/
def State.plTracectl (s : State) : Word :=
  let t := s.trace
  word [(32, t.written.toNat), (24, t.dropped.toNat), (23, b2n t.stop), (21, b2n t.filten),
    (11, t.filtctx.toNat), (0, t.kindmask.toNat)]

/-- R446. -/
def State.plLifectl (s : State) : Word :=
  let l := s.life
  word [(48, l.flushes.toNat), (32, l.fails.toNat), (16, l.badframes.toNat),
    (3, b2n (decide (l.sideband ≠ .idle) || l.waiting)), (2, b2n l.loaded), (1, b2n l.fresh)]

/-- R446: words above 2,143 read zero. -/
def State.lifeData (s : State) : Word :=
  if s.life.sel.toNat < 2144 then Tbl.get 0 s.life.image s.life.sel.toNat else 0

/-- R432. -/
def Break.ctl (b : Break) : Word :=
  word [(63, b2n b.hit), (62, b2n b.refused), (56, b.mode.toNat), (46, b.ctx.toNat),
    (0, b.counted.toNat)]
def Break.val (b : Break) : Word := word [(32, b.mask.toNat), (0, b.value.toNat)]

/-- What the read of a latching register returns: W0, and the words it latches (R461). -/
def State.latchWords (s : State) : LatchReg → List Word
  | .scaledata0 =>
    let w := (s.slot s.regs.scaleSel.toNat).words
    [w.1, w.2]
  | .faultrec0 => (List.range 8).map fun i => (Tbl.get [] s.faults.log s.faults.sel.toNat).getD i 0
  | .auditdata0 => (List.range 4).map fun i => (Tbl.get [] s.audit.ring s.audit.sel.toNat).getD i 0
  | .tracedata0 => (List.range 2).map fun i => (Tbl.get [] s.trace.ring s.trace.sel.toNat).getD i 0

/-- The word i ≥ 1 of a latch as a function reads it; zero before any latching read (R461). -/
def State.latchWord (s : State) (fn : Fn) (r : LatchReg) (i : Nat) : Word :=
  ((s.latched fn (latchNo r)).getD []).getD (i - 1) 0

/-- A register of the operator page by its offset in the page, as the PF reads it. -/
def State.operatorWord (s : State) (off : Nat) : Word :=
  if off = 0x000 then s.plVerneg
  else if off = 0x008 then s.plBootq 0
  else if off = 0x010 then s.plBootq 1
  else if off = 0x018 then s.plResetctl
  else if off = 0x020 then s.plAbortq
  else if off = 0x028 then s.plTallybase
  else if off = 0x030 then s.plPwrstat
  else if off = 0x038 then s.plHivestat
  else if off = 0x040 then s.ctxWord s.regs.ctxSel.toNat
  else if off = 0x048 then s.partWord s.regs.partSel.toNat
  else if off = 0x050 then s.plSlotinfo
  else if off = 0x058 then BitVec.setWidth 64 s.fence.seq
  else if off = 0x060 then s.plFencestat
  else if off = 0x068 then s.plFencenext
  else if off = 0x080 then BitVec.setWidth 64 s.regs.scaleSel
  else if off = 0x088 then (s.latchWords .scaledata0).headD 0
  else if off = 0x090 then s.latchWord .pf .scaledata0 1
  else if off = 0x0C0 then s.plFaultlog
  else if off = 0x0C8 then (s.latchWords .faultrec0).headD 0
  else if 0x0D0 ≤ off ∧ off ≤ 0x100 then s.latchWord .pf .faultrec0 ((off - 0x0C8) / 8)
  else if off = 0x140 then s.plAudit
  else if off = 0x148 then (s.latchWords .auditdata0).headD 0
  else if 0x150 ≤ off ∧ off ≤ 0x160 then s.latchWord .pf .auditdata0 ((off - 0x148) / 8)
  else if off = 0x180 then s.plTracectl
  else if off = 0x188 then BitVec.setWidth 64 s.trace.sel
  else if off = 0x190 then (s.latchWords .tracedata0).headD 0
  else if off = 0x198 then s.latchWord .pf .tracedata0 1
  else if off = 0x1C0 then s.plLifectl
  else if off = 0x1C8 then BitVec.setWidth 64 s.life.sel
  else if off = 0x1D0 then s.lifeData
  else if 0x200 ≤ off ∧ off < 0x280 then
    let b := s.brk ((off - 0x200) / 16)
    if off % 16 = 0 then b.ctl else b.val
  else 0

/-! ## Hive debug window (R273) -/

def State.debugWord (s : State) (off : Nat) : Word :=
  let d := s.debug
  if off = 0x000 then BitVec.setWidth 64 d.sel
  else if off = 0x008 then d.value
  else if off = 0x010 then d.header
  else if off = 0x018 then BitVec.setWidth 64 d.count
  else if 0x020 ≤ off ∧ off ≤ 0x058 then d.waiters.getD ((off - 0x020) / 8) 0
  else 0

/-! ## Doorbell pages (R53, R56, R462) -/

/-- QSTATUS. LASTSTATUS is the latched value of a function (R69). -/
def State.qstatus (s : State) (fn : Fn) (q : Nat) : Word :=
  let x := s.queue q
  let last := ((s.latched fn (latchLast q)).getD []).getD 1 0
  if x.state = .free ∧ s.qstate q = .free then 0
  else
    word [(32, x.inflight), (24, fld last 7 0), (16, x.err.toNat), (11, b2n x.recFull),
      (10, b2n x.pending), (9, b2n (s.qPaused q)), (4, x.fmt.toNat),
      (3, b2n (decide (x.kind ≠ .user))), (0, (s.qstate q).code)]

/-- A register of queue q's page as a function that the page is live for reads it. -/
def State.pageWord (s : State) (fn : Fn) (q off : Nat) : Word :=
  if off = 0x000 then s.counter (.doorbell q)
  else if off = 0x008 then s.counter (.retired q)
  else if off = 0x010 then s.qstatus fn q
  else if off = 0x018 then
    if s.qstate q = .free then 0 else ((s.latched fn (latchLast q)).getD []).headD 0
  else if off = 0x020 then s.counter (.head q)
  else if off = 0x028 then s.counter (.recack q)
  else 0

/-! ## The MSI-X capability (R460) -/

/-- Where register accesses of this model find the MSI-X capability of the PF's configuration space: behind BAR2.
Log 8 (PRESUMED, unsafe). -/
def msixCap : Nat := 0x4000000

/-- A word of the capability: Message Control with Enable, Function Mask and Table Size, and the places of the table;
or the place of the pending-bit array. The pointer to the next capability is open.
Log 8 (PRESUMED, unsafe). -/
def State.capWord (s : State) (off : Nat) : Word :=
  if off = msixCap then
    word [(32, msixTable), (16, s.msixControl), (8, s.freeNow.toNat % 256), (0, 0x11)]
  else if off = msixCap + 8 then word [(0, msixPba)]
  else 0

/-! ## BAR2 of the PF (R448) -/

def State.globalWord (s : State) (off : Nat) : Word :=
  if off = 0x0000 then s.plId
  else if off = 0x0008 then s.usec
  else if off = 0x0010 then s.plGstatus
  else if off = 0x0018 then BitVec.setWidth 64 s.regs.absorbed0
  else if off = 0x0020 then BitVec.setWidth 64 s.regs.absorbed1
  else if off = 0x8000 then s.regs.msixAddr0
  else if off = 0x8008 then s.regs.msixCtl0
  else if off = 0x8010 then s.regs.msixAddr1
  else if off = 0x8018 then s.regs.msixCtl1
  else if off = 0x9000 then BitVec.setWidth 64 s.regs.msixPend
  else 0

/-- The 64-bit word at an offset of PF BAR2 that holds a register, as the PF reads it; every other
offset reads zero (R448), but for the capability behind it.
Log 8 (PRESUMED, unsafe). -/
def State.regWord (s : State) (off : Nat) : Word :=
  if off < 0x10000 then s.globalWord off
  else if off < 0x20000 then s.installerWord (off - 0x10000)
  else if off < 0x30000 then s.operatorWord (off - 0x20000)
  else if 0x100000 ≤ off ∧ off < 0x101000 then s.debugWord (off - 0x100000)
  else if 0x1000000 ≤ off ∧ off < 0x2000000 then
    s.pageWord .pf ((off - 0x1000000) / 0x1000) ((off - 0x1000000) % 0x1000)
  else if 0x4000000 ≤ off then s.capWord off
  else 0

end Sys2Proof.Machine
end

