-- ==== Sys2Proof/Machine/Kernel.lean ====
section
/-! DEFINITION. The kernel commands: QCTL (R48, R49, R62, R103, R104, R295), CTXCTL (R282-R285, R304),
LOADROUTINE (R241, R242), TALLY (R366-R369), PARTCTL (R287), FAULTCTL (R334, R342), with the installer's
consent and the audit of R101, R102 and R429. -/

namespace Sys2Proof.Machine

/-! ## Consent, refusals, audit -/

/-- The audit entry of a kernel command (R430). -/
def State.auditCmd (s : State) (d : Node) (ignored : Bool) : State :=
  s.auditRec 3 ignored (hOp d.lines) (aSub d.lines * 2 ^ 12 + d.queue) (aw d.lines 0) (aw d.lines 1)

/-- The first refusal, by position, of those that hold: word and bit of the ARG line (R103, R464).
Log 19 (DEDUCED, unsafe). -/
def firstRefusal (cs : List (Bool × Nat × Nat)) : Option (Nat × Nat) :=
  (cs.find? fun c => c.1).map fun c => c.2

/-- A command of R102 is carried out: without consent it retires PRIV with the opcode in DETAIL, a
refusal retires FORMAT, and either is audited as ignored; otherwise it is audited and performed. While no half may
hold charge it is not performed (R29, R365).
Log 48 (DESIGN CHOICE, unsafe). -/
def State.chipWide (s : State) (n : Nat) (d : Node) (consent : Bool) (cs : List (Bool × Nat × Nat))
    (f : State → State) : State :=
  if !s.holderActs then s
  else if !consent then
    (s.auditCmd d true).retireWith n stPriv 0 (BitVec.ofNat 32 (hOp d.lines))
  else match firstRefusal cs with
    | some p => (s.auditCmd d true).refuse n d p.1 p.2
    | none => f (s.auditCmd d false)

/-- A command is released and of the opcode and SUB.
Log 40 (DEDUCED, unsafe), 63 (DESIGN CHOICE, safe). -/
def State.kernelStep (s : State) (n o sub : Nat) (f : State → Node → State) : State :=
  s.opStep n (fun d => hOp d.lines == o && aSub d.lines == sub) f

/-! ## QCTL -/

/-- The attributes a QCTL CREATE gives (R48, R100). -/
def createdQueue (d : Node) : Queue :=
  let w := aw d.lines
  { state := .idle
    ctx := fld (w 0) 37 28
    kind := match fld (w 0) 39 38 with
      | 0 => .pf
      | 1 => .partition
      | _ => .user
    fmt := BitVec.ofNat 4 (fld (w 0) 43 40)
    ringBase := w 1
    ringHost := bit (w 0) 49
    logSize := fld (w 0) 48 44
    recBase := w 2
    recHost := bit (w 0) 50
    except := bit (w 0) 51
    priority := fld (w 0) 53 52
    timeout := fld (w 3) 31 0
    maxInflight := fld (w 3) 44 32
    deadline := w 4 }

/-- The refusals of QCTL CREATE (R27, R46, R48, R66, R103, R114, R300), by position. Only a QCTL on a PF kernel queue
creates a kernel queue of either kind (R46, log 71).
Log 19 (DEDUCED, unsafe), 71 (DEDUCED, unsafe), 99 (DESIGN CHOICE, unsafe). -/
def State.createRefusals (s : State) (d : Node) : List (Bool × Nat × Nat) :=
  let w := aw d.lines
  let q := fld (w 0) 27 16
  let c := fld (w 0) 37 28
  let kind := fld (w 0) 39 38
  let fmt := fld (w 0) 43 40
  let mine := (s.queue d.queue).kind
  [ (decide ((s.queue q).state ≠ .free) || !s.inService (halfOfQueue q) ||
      (s.isRecovery q && decide (mine ≠ .pf)), 0, 16),
    (decide ((s.ctx c).state ≠ .live) || halfOfCtx c != halfOfQueue q, 0, 28),
    (kind == 3 || (decide (kind < 2) && decide (mine = .partition)), 0, 38),
    (decide (1 < fmt) || (decide (kind < 2) && fmt == 0) ||
      (decide (1 ≤ fmt) && decide (s.regs.agreed.toNat < fmt)), 0, 40),
    (decide (fld (w 0) 48 44 < 6) || decide (20 < fld (w 0) 48 44), 0, 44),
    (fld (w 1) 11 0 != 0, 1, 0),
    (fld (w 2) 10 0 != 0, 2, 0),
    (decide (fld (w 3) 31 0 < 100) || decide (1000000000 < fld (w 3) 31 0), 3, 0),
    (fld (w 3) 44 32 == 0 || decide (4096 < fld (w 3) 44 32), 3, 32),
    (w 4 != 0 && (fld (w 4) 63 34 != 0 || decide (2 ≤ fld (w 4) 33 32) || fld (w 4) 31 0 == 0), 4, 0) ]

/-- A ring in device memory lies where R49 lets it. -/
def State.ringOk (s : State) (x : Queue) (host : Bool) (base : Word) (n : Nat) : Bool :=
  host || (if x.kind = .pf then s.inDevice base.toNat n else s.insideCtx x.ctx base.toNat n false)

/-- QCTL CREATE. -/
def State.createQueue (s : State) (n : Nat) (d : Node) : State :=
  match firstRefusal (s.createRefusals d) with
  | some p => s.refuse n d p.1 p.2
  | none =>
    let x := createdQueue d
    if !s.ringOk x x.ringHost x.ringBase (64 * 2 ^ x.logSize) then s.retireWith n stWindow 0 0xFFC0FFFF
    else if !s.ringOk x x.recHost x.recBase 2048 then s.retireWith n stWindow 0 0xFFB0FFFF
    else ((s.setQueue (fld (aw d.lines 0) 27 16) x).freshPage (fld (aw d.lines 0) 27 16)).retireWith n stDone 1 0

/-- Log 40 (DEDUCED, unsafe). -/
def execQctlCreate (n : Nat) (s : State) : Host.Outcome State Fault Refusal :=
  ok (isNode n) <| s.when s.working fun s => s.kernelStep n opQctl 0 fun s d => s.createQueue n d

/-- QCTL DESTROY: refused for a FREE queue, its own queue and a queue of a lost half; a BUSY queue is
waited for.
Log 19 (DEDUCED, unsafe). -/
def execQctlDestroy (n : Nat) (s : State) : Host.Outcome State Fault Refusal :=
  ok (isNode n) <| s.when s.working fun s => s.kernelStep n opQctl 1 fun s d =>
    let q := fld (aw d.lines 0) 27 16
    match s.qstate q with
    | .free | .offline => s.refuse n d 0 16
    | .busy => s.setNode n (some { d with phase := .kernel })
    | _ =>
      if q = d.queue then s.refuse n d 0 16
      else (s.setNode n (some { d with phase := .kernel })).destroyQueue q

/-- The refusals of QCTL RESTART (R62, R103).
Log 19 (DEDUCED, unsafe), 99 (DESIGN CHOICE, unsafe). -/
def State.restartRefusals (s : State) (q h t : Nat) : List (Bool × Nat × Nat) :=
  let x := s.queue q
  [ (decide (s.qstate q ≠ .stopped) || x.err == 0x06, 0, 16),
    (decide (h < x.head.toNat) || decide (t < h), 1, 0),
    (decide (2 ^ x.logSize + h < t), 2, 0) ]

/-- QCTL RESTART. -/
def execQctlRestart (n : Nat) (s : State) : Host.Outcome State Fault Refusal :=
  ok (isNode n) <| s.when s.working fun s => s.kernelStep n opQctl 2 fun s d =>
    let q := fld (aw d.lines 0) 27 16
    let h := aw d.lines 1
    let t := aw d.lines 2
    match firstRefusal (s.restartRefusals q h.toNat t.toNat) with
    | some p => s.refuse n d p.1 p.2
    | none =>
      (s.modQueue q fun x => { x with
        err := 0, head := h, tail := t, tailSeen := t, pending := false, state := .active
        reading := 0, fetched := [], partialAtTail := false }).retireWith n stDone 1 0

/-! ## CTXCTL -/

/-- The windows that a CTXCTL sets, with the line of the sheaf that holds each, and its place there. -/
def setWindowsOf (ls : List Line) : List (Nat × Nat × Nat × Window) :=
  let body := (bodyOf ls).drop 1
  (List.range body.length).flatMap fun j =>
    let ws := windowsOf (lineOf body j)
    (List.range ws.length).filterMap fun i =>
      (ws[i]?).map fun w => (2 + eLines ls + j, i, w.1, w.2)

/-- The windows' pages meet. -/
def Window.meets (a b : Window) : Bool :=
  a.valid && b.valid && decide (a.base.toNat ≤ b.limit.toNat) && decide (b.base.toNat ≤ a.limit.toNat)

/-- A window of context c, in partition p, meets a window that R282 forbids it to meet.
Log 19 (DEDUCED, unsafe). -/
def State.windowClash (s : State) (c p : Nat) (w : Window) : Bool :=
  !isSystem c && s.ctxs.any fun e =>
    !isSystem e.1 && e.1 != c && decide (e.2.state ≠ .free) &&
    (e.2.part != p || decide (e.2.state = .draining) || decide (e.2.state = .quarantined)) &&
    e.2.windows.any fun v => w.meets v.2

/-- The clusters whose memory or scratchpads a window touches belong to the context (R282). -/
def windowClusters (w : Window) (clusters : BitVec 12) : Bool :=
  let unit := if w.space = 1 then 0x800000 else 0xA00000 * 16
  let base := if w.space = 1 then 0x0000800000000000 else 0x0000810000000000
  let lo := (w.base.toNat * 4096 - base) / unit
  let hi := (w.limit.toNat * 4096 - base) / unit
  (List.range 12).all fun cl => !(decide (lo ≤ cl) && decide (cl ≤ hi)) || bit clusters cl

/-- A window keeps the rules of R282 for context c in partition p. -/
def State.windowOk (s : State) (c p : Nat) (w : Window) : Bool :=
  if !w.valid then w.base == 0 && w.limit == 0 && w.space == 0 && !w.write
  else
    let r := s.spaceRange w.space.toNat
    decide (r.1 ≤ w.base.toNat * 4096) && decide (w.limit.toNat * 4096 + 4095 ≤ r.2) &&
    (w.space == 0 ||
      windowClusters w (if isSystem c then s.allClusters else (s.part p).clusters)) &&
    !s.windowClash c p w

/-- The position DETAIL names for the first window that breaks a rule: its BASE.
Log 19 (DEDUCED, unsafe). -/
def State.badWindow (s : State) (c p : Nat) (ls : List Line) : Option (BitVec 32) :=
  ((setWindowsOf ls).find? fun e => !s.windowOk c p e.2.2.2).map fun e =>
    formatDetail e.1 (64 * (2 * e.2.1 + 1) + 12)

/-- Writing windows into a context's set; one with VALID = 0 is removed. -/
def setWindows (t : Tbl Window) (ls : List Line) : Tbl Window :=
  (setWindowsOf ls).foldl (fun t e => Tbl.set {} t e.2.2.1 e.2.2.2) t

/-- A queue names the context.
Log 28 (DEDUCED, unsafe). -/
def State.ctxNamed (s : State) (c : Nat) : Bool := s.queueExists fun _ x => x.ctx == c

/-- CTXCTL CREATE (R276, R282, R283): it retires when every checker holds the windows. -/
def execCtxctlCreate (n : Nat) (s : State) : Host.Outcome State Fault Refusal :=
  ok (isNode n) <| s.when s.working fun s => s.kernelStep n opCtxctl 0 fun s d =>
    let c := fld (aw d.lines 0) 25 16
    let p := fld (aw d.lines 0) 29 26
    let x := s.ctx c
    if isSystem c || decide (x.state ≠ .free) || s.ctxNamed c || !s.inService (halfOfCtx c) then
      s.refuse n d 0 16
    else if !(s.part p).defined then s.refuse n d 0 26
    else match s.badWindow c p d.lines with
      | some detail => s.retireWith n stFormat 0 detail
      | none =>
        let s := s.setCtx c { x with
          state := .live, part := p, windows := setWindows [] d.lines, acct := {}, drain := 0 }
        (s.setNode n (some { d with phase := .kernel })).loadCheckers c

/-- CTXCTL TEARDOWN (R283, R291). -/
def execCtxctlTeardown (n : Nat) (s : State) : Host.Outcome State Fault Refusal :=
  ok (isNode n) <| s.when s.working fun s => s.kernelStep n opCtxctl 1 fun s d =>
    let c := fld (aw d.lines 0) 25 16
    if c = d.ctx ∨ s.inService (halfOfCtx c) = false then s.refuse n d 0 16
    else match (s.ctx c).state with
      | .free => s.refuse n d 0 16
      | .draining | .quarantined => s.retireWith n stDone 1 0
      | .teardown => s.setNode n (some { d with phase := .kernel })
      | .live =>
        let s := s.setNode n (some { d with phase := .kernel })
        if s.tears.any (fun t => t.ctx == c) then s else s.teardown c 0x00

/-- CTXCTL SETWINDOWS (R284): the context pauses until no run of it is RUNNING. A second one waits for
the first.
Log 28 (DEDUCED, unsafe), 63 (DESIGN CHOICE, safe). -/
def execCtxctlSetwindows (n : Nat) (s : State) : Host.Outcome State Fault Refusal :=
  ok (isNode n) <| s.when s.working fun s => s.kernelStep n opCtxctl 2 fun s d =>
    let c := fld (aw d.lines 0) 25 16
    let x := s.ctx c
    if x.state ≠ .live ∨ s.inService (halfOfCtx c) = false then s.refuse n d 0 16
    else match s.badWindow c x.part d.lines with
      | some detail => s.retireWith n stFormat 0 detail
      | none =>
        if x.setwin.isSome then s
        else
          let s := s.setCtx c { x with setwin := some n }
          (s.setNode n (some { d with phase := .kernel })).discardWhere fun e => e.ctx == c

/-- WINDOW_CHECKERS_LOADED: every checker holds the windows of a CREATE, or, once no run of the context
is RUNNING, of a SETWINDOWS.
Log 28 (DEDUCED, unsafe). -/
def execWindowCheckersLoaded (n : Nat) (s : State) : Host.Outcome State Fault Refusal :=
  ok (isNode n) <| s.when s.working fun s =>
    match s.node n with
    | none => s
    | some d =>
      let c := fld (aw d.lines 0) 25 16
      if d.phase = .kernel ∧ hOp d.lines = opCtxctl ∧ aSub d.lines = 0 then s.retireWith n stDone 1 0
      else if d.phase = .kernel ∧ hOp d.lines = opCtxctl ∧ aSub d.lines = 2 ∧
          (s.ctx c).setwin = some n ∧ s.runsWhere (fun e => e.ctx == c) = [] then
        ((s.modCtx c fun x => { x with setwin := none, windows := setWindows x.windows d.lines }).loadCheckers
          c).retireWith n stDone 1 0
      else s

/-- The two lines of the accounting record of context c (R304). -/
def State.acctWords (s : State) (c : Nat) : List Word :=
  let x := s.ctx c
  let a := x.acct
  [ word [(61, s.ctxCode c), (57, if x.state = .free then 0 else if isSystem c then 15 else x.part),
      (45, x.gen.toNat), (35, c), (0, b2n s.clocks.evalid)],
    s.usec, a.busyMe, a.busyVe, a.busyDm, a.busyLink, a.busyCore, a.retired,
    a.memread, a.memwrite, a.linksent, a.busyLost, if s.clocks.evalid then a.energy else 0,
    word [(32, a.satreruns.toNat), (0, a.fallbacks.toNat)], word [(0, a.preempted.toNat)], 0 ]

/-- CTXCTL READACCT (R285). -/
def execCtxctlReadacct (n : Nat) (s : State) : Host.Outcome State Fault Refusal :=
  ok (isNode n) <| s.when s.working fun s => s.kernelStep n opCtxctl 3 fun s d =>
    let c := fld (aw d.lines 0) 25 16
    let a := aw d.lines 1
    if s.inService (halfOfCtx c) = false then s.refuse n d 0 16
    else if if (s.queue d.queue).kind = .pf then s.inDevice a.toNat 128
        else s.insideCtx d.ctx a.toNat 128 true then
      (s.drive (.memWrite (s.stampOf d.ctx d.gen) false a (s.acctWords c))).retireWith n stDone 1 0
    else
      let detail : BitVec 32 := 0xFFD0FFFF
      s.doom n d { status := stWindow, executed := 0, detail := detail, furrow := noFurrow }
        { d.event (srcFrontEnd d.half) kWindow .contain stWindow detail noFurrow with address := a }

/-! ## LOADROUTINE (R241, R242) -/

/-- Pages that the loads of a slot under way have reserved. -/
def RSlot.reserved (x : RSlot) : List Nat := x.loading.flatMap Prod.snd

/-- Pages of the installer region that no slot holds and no load has reserved. -/
def State.freePages (s : State) : List Nat :=
  (List.range 32).filter fun p => !s.routines.any fun e => e.2.pages.contains p || e.2.reserved.contains p

/-- Pages that a load of slot i may take: the free ones, and those the slot holds that no other load of it has
reserved (R241). -/
def State.loadPages (s : State) (i : Nat) : List Nat :=
  s.freePages ++ (s.rslot i).pages.filter fun p => !(s.rslot i).reserved.contains p

/-- Pages that an image of a length needs. -/
def pagesFor (length : Nat) : Nat := (length + 255) / 256

/-- The 32-bit instructions of lines: the low half of a word first. -/
def instrsOf (ls : List Line) : List (BitVec 32) :=
  ls.flatten.flatMap fun w => [BitVec.ofNat 32 (fld w 31 0), BitVec.ofNat 32 (fld w 63 32)]

/-- The slot's load by node n is over: it reserves nothing more. -/
def RSlot.endLoad (x : RSlot) (n : Nat) : RSlot := { x with loading := x.loading.filter fun e => e.1 != n }

/-- The load of slot i by node n is complete: the slot holds the image, in the pages that it reserved. -/
def State.loadSlot (s : State) (n i length : Nat) (img : List (BitVec 32)) : State :=
  let x := s.rslot i
  let pages := ((x.loading.find? fun e => e.1 == n).map Prod.snd).getD []
  s.setRslot i { x.endLoad n with image := img.take length, pages := pages, loads := x.loads + 1 }

/-- The read of the image that node n's LOADROUTINE asks for (R241). -/
def State.readImage (s : State) (d : Node) : State :=
  s.drive (.memRead (s.stampOf d.ctx d.gen) false (aw d.lines 1) d.reading)

/-- LOADROUTINE: a length of 0 empties the slot, otherwise pages are reserved and the image is read.
Log 63 (DESIGN CHOICE, safe). -/
def execLoadroutine (n : Nat) (s : State) : Host.Outcome State Fault Refusal :=
  ok (isNode n) <| s.when s.working fun s =>
    s.opStep n (fun d => hOp d.lines == opLoadroutine) fun s d =>
      let i := aSub d.lines
      let len := fld (aw d.lines 0) 31 16
      s.chipWide n d (bit s.regs.kcmden 0)
        [(decide (8192 < len) || decide ((s.loadPages i).length < pagesFor len), 0, 16)] fun s =>
        if len = 0 then (s.loadSlot n i 0 []).retireWith n stDone 1 0
        else
          let x := s.rslot i
          let s := s.setRslot i { x with loading := x.loading ++ [(n, (s.loadPages i).take (pagesFor len))] }
          let d := { d with phase := .kernel, reading := (len + 15) / 16 }
          (s.setNode n (some d)).readImage d

/-- ROUTINE_IMAGE_READ: the slot is loaded, or left empty when the read met an uncorrectable error. A reply of an older
generation is dropped (R290).
Log 17 (DESIGN CHOICE, safe). -/
def execRoutineImageRead (n : Nat) (a : FabricReply) (s : State) : Host.Outcome State Fault Refusal :=
  ok (isNode n) <| s.when (s.working && s.fresh a.stamp) fun s =>
    match s.node n with
    | none => s
    | some d =>
      let i := aSub d.lines
      if d.phase = .kernel ∧ hOp d.lines = opLoadroutine ∧ a.stamp = s.stampOf d.ctx d.gen ∧
          (s.rslot i).loading.any (fun e => e.1 == n) = true then
        match a.result with
        | .lines ls =>
          if ls.length = d.reading then
            (s.loadSlot n i (fld (aw d.lines 0) 31 16) (instrsOf ls)).retireWith n stDone 1 0
          else s
        | .error line =>
          if line < d.reading then
            let s := s.setRslot i { (s.rslot i).endLoad n with image := [], pages := [] }
            let detail := eccDetail 0x0A (min line 0xFE) none
            let syn := s.freeNow.toNat % 256
            s.useFree.doom n d { status := stEcc, executed := 0, detail := detail, furrow := noFurrow }
              { d.event srcMemPort kUncorrectable .contain stEcc detail noFurrow with
                address := aw d.lines 1 + BitVec.ofNat 64 (64 * line)
                info0 := word [(8, 0xFF), (0, syn)] }
          else s
      else s

/-! ## TALLY (R366-R369) -/

/-- A queue word of the tally (R369). -/
def State.queueWord (s : State) (q : Nat) : Word :=
  let x := s.queue q
  word [(40, fld x.retired 23 0), (16, fld x.head 23 0), (8, x.err.toNat), (5, (s.qstate q).code),
    (4, b2n (decide (x.kind ≠ .user))), (3, b2n x.pending), (2, b2n x.recFull),
    (1, b2n (s.qPaused q))]

/-- The word of a queue that does not exist is zero (R462). -/
def State.queueSnap (s : State) (q : Nat) : Word :=
  if s.qstate q = .free then 0 else s.queueWord q

/-- The last step-fence sequence number (R392). -/
def State.lastFence (s : State) : Word := BitVec.setWidth 64 (s.fence.seq - 1)

/-- The header of the tally (R368). -/
def State.tallyHeader (s : State) : List Word :=
  [ word [(48, 1), (40, s.recov.chipgen.toNat), (36, s.regs.agreed.toNat), (35, b2n s.fuses.t6),
      (33, s.serviceBits), (32, s.holder), (16, 3)],
    s.recov.tallies,
    if s.inService 0 then s.usec else 0,
    if s.inService 1 then s.usec else 0,
    s.lastFence, s.plCharge, s.plFaultlog, s.plResetctl,
    s.plReserve, s.plHangmode, 0, 0, 0, 0, 0, 0 ] ++
  (List.range 12).map s.partWord ++ List.replicate (512 - 28) 0

/-- The 256 most recent records of the fault log, oldest first. -/
def State.recentFaults (s : State) : List Word :=
  let n := min s.faults.recno 256
  ((List.range n).flatMap fun i =>
    let r := Tbl.get [] s.faults.log ((s.faults.recno - n + i) % 512)
    (List.range 8).map fun j => r.getD j 0) ++ List.replicate (8 * (256 - n)) 0

/-- Address of a tally's buffer, which a tally keeps from its beginning to its end (R30, R366). -/
def State.tallyBuffer (s : State) (d : Node) : Word :=
  if aw d.lines 1 = 0 then s.recov.tallyBase ++ (0 : BitVec 12) else aw d.lines 1

/-- The writes of a tally, header last, and the ordering read of the first 8 B (R366). -/
def State.tallyWrites (s : State) (d : Node) : State :=
  let b := d.buffer
  let st := s.stampOf d.ctx d.gen
  s.driveAll
    [ .memWrite st true (b + 0x1000) ((List.range 1024).map s.ctxWord),
      .memWrite st true (b + 0x3000) ((List.range 4096).map s.queueSnap),
      .memWrite st true (b + 0xB000) s.recentFaults,
      .memWrite st true b s.tallyHeader,
      .memRead st true b 1 ]

/-- Beginning a tally. -/
def State.writeTally (s : State) (d : Node) : State :=
  { s with recov := { s.recov with tallies := s.recov.tallies + 1 } }.tallyWrites d

/-- TALLY reaches the charge holder.
Log 41 (DEDUCED, unsafe). -/
def State.tally (s : State) (n : Nat) (d : Node) : State :=
  s.chipWide n d true [(aw d.lines 1 == 0 && !s.recov.tallyValid, 1, 0)] fun s =>
    let d := { d with phase := .kernel, buffer := s.tallyBuffer d }
    (s.setNode n (some d)).writeTally d

/-- Log 63 (DESIGN CHOICE, safe). -/
def execTallyWrite (n : Nat) (s : State) : Host.Outcome State Fault Refusal :=
  ok (isNode n) <| s.when s.working fun s => s.kernelStep n opTally 0 fun s d => s.tally n d

def execTallyWriteNotify (n : Nat) (s : State) : Host.Outcome State Fault Refusal :=
  ok (isNode n) <| s.when s.working fun s => s.kernelStep n opTally 1 fun s d => s.tally n d

/-- TALLY_READ_COMPLETION: the tally is visible to the host, which also ends the recovery window (R362);
or a host-port error. A completion of an older generation is dropped (R290).
Log 41 (DEDUCED, unsafe). -/
def execTallyReadCompletion (n : Nat) (a : HostReply) (s : State) : Host.Outcome State Fault Refusal :=
  ok (isNode n) <| s.when (s.working && s.fresh a.stamp) fun s =>
    match s.node n with
    | none => s
    | some d =>
      if d.phase = .kernel ∧ hOp d.lines = opTally ∧ a.stamp = s.stampOf d.ctx d.gen then
        if a.good then { s with recov := { s.recov with window := false } }.retireWith n stDone 1 0
        else
          (s.raise (d.event srcHostPort kPort .note stFormat (argDetail d.lines 1 0) noFurrow)).refuse n d 1 0
      else s

/-! ## PARTCTL (R287) -/

/-- Clearing an object (R246). A WAIT that the cleared value satisfies is released (R250). -/
def State.clearObj (s : State) (n : Nat) : State :=
  let s := s.setObj n {}
  let hit := fun (w : Waiter) => match w.test with
    | .cmp _ _ => w.released {}
    | .round _ | .direct _ _ => false
  let ws := s.waitersOf n
  (ws.filter hit).foldl (fun s w => s.releaseWaiter n w) (s.setWaiters n (ws.filter fun w => !hit w))

/-- The objects of a partition's range that are not clear; a cleared object is not listed. -/
def State.rangeObjects (s : State) (p : Nat) : List Nat :=
  let r := s.hiveRange p
  s.objects.keys fun k _ => decide (r.1 ≤ k) && decide (k < r.1 + r.2)
/-- Each object is cleared once the hive cache holds its line, which is asked for till then (R317).
Log 83 (DESIGN CHOICE, safe). -/
def State.clearRange (s : State) (p : Nat) : State :=
  s.forAll (s.rangeObjects p) fun s k => s.withLines [hiveNeed k true] id fun s => s.clearObj k

/-- A PARTCTL RELEASE that has begun ends when its range is clear; it is audited at its beginning alone (R276,
R429). -/
def State.releasePart (s : State) (n p : Nat) : State :=
  let s := s.clearRange p
  if s.rangeObjects p = [] then s.retireWith n stDone 1 0 else s.park (.partctlRelease n)

def execPartctlDefine (n : Nat) (s : State) : Host.Outcome State Fault Refusal :=
  ok (isNode n) <| s.when s.working fun s => s.kernelStep n opPartctl 0 fun s d =>
    let p := fld (aw d.lines 0) 19 16
    let cl : BitVec 12 := BitVec.ofNat 12 (fld (aw d.lines 0) 43 32)
    let held := s.parts.any fun e => e.1 != p && e.2.defined && e.2.clusters &&& cl != 0
    s.chipWide n d (bit s.regs.kcmden 1)
      [(s.partCtxs p != [], 0, 16), (cl == 0 || held, 0, 32)] fun s =>
        (s.setPart p { defined := true, clusters := cl }).retireWith n stDone 1 0

def execPartctlRelease (n : Nat) (s : State) : Host.Outcome State Fault Refusal :=
  ok (isNode n) <| s.when s.working fun s => s.kernelStep n opPartctl 1 fun s d =>
    let p := fld (aw d.lines 0) 19 16
    if d.begun then s.when s.holderActs fun s => s.releasePart n p
    else s.chipWide n d (bit s.regs.kcmden 1) [(s.partCtxs p != [], 0, 16)] fun s =>
      ((s.setPart p {}).setNode n (some { d with begun := true })).releasePart n p

/-! ## FAULTCTL (R334, R342) -/

def execFaultctlThreshold (n : Nat) (s : State) : Host.Outcome State Fault Refusal :=
  ok (isNode n) <| s.when s.working fun s => s.kernelStep n opFaultctl 0 fun s d =>
    let i := fld (aw d.lines 0) 31 16
    s.chipWide n d (bit s.regs.kcmden 2) [(!sourceListed i, 0, 16)] fun s =>
      (s.setSource i { s.source i with
        n := BitVec.ofNat 8 (fld (aw d.lines 0) 39 32)
        window := BitVec.ofNat 22 (fld (aw d.lines 1) 31 0), subs := [] }).retireWith n stDone 1 0

def execFaultctlAcklog (n : Nat) (s : State) : Host.Outcome State Fault Refusal :=
  ok (isNode n) <| s.when s.working fun s => s.kernelStep n opFaultctl 1 fun s d =>
    let k := fld (aw d.lines 1) 31 0
    s.chipWide n d true [(decide ((s.faults.written - s.faults.acked).toNat < k), 1, 0)] fun s =>
      { s with faults := { s.faults with acked := s.faults.acked + BitVec.ofNat 16 k } }.retireWith
        n stDone 1 0

end Sys2Proof.Machine
end

