-- ==== Sys2Proof/Machine/Cores.lean ====
section
/-! DEFINITION. Control cores: runs, frames and the scheduler (R209-R216), instruction words and their
legality (R220, R221), the step of a run, hardware loops (R224-R226) and traps (R239). -/

namespace Sys2Proof.Machine

/-! ## Cores -/

/-- Physical core, 0-12 of its half, behind a logical core (R32). -/
def State.physOf (s : State) (k : Nat) : Nat := Tbl.get (k % 12) s.phys k

/-- Fault source of a logical core (R328). -/
def State.coreSource (s : State) (k : Nat) : Nat := srcCore (halfOfCore k) (s.physOf k)

/-- Coherence agent of a logical core's data cache (R306). -/
def State.coreAgent (s : State) (k : Nat) : Nat := 4 + 13 * halfOfCore k + s.physOf k

/-- Runs of a core, queued and framed (R213). -/
def Core.runCount (c : Core) : Nat :=
  c.runq.length + (c.frames.keys fun _ f => f.run?.isSome).length

/-- The core of half h with the fewest runs, lowest number first (R213). -/
def State.chooseCore (s : State) (h : Nat) : Nat :=
  (List.range 12).foldl (fun b i =>
    if (s.core (12 * h + i)).runCount < (s.core b).runCount then 12 * h + i else b) (12 * h)

/-- A run request in its place: queue priority, then release order (R213). -/
def insertReq (r : RunReq) : List RunReq → List RunReq
  | [] => [r]
  | x :: t =>
    if r.prio < x.prio ∨ (r.prio = x.prio ∧ r.order < x.order) then r :: x :: t
    else x :: insertReq r t

/-- The next run of a CALL enters the run queue. -/
def State.queueRun (s : State) (n : Nat) (d : Node) : State :=
  s.modCore d.coreNo fun c =>
    { c with runq := insertReq { call := n, prio := d.prio, order := d.relOrder } c.runq }

/-- CALL (R213): refused for an empty slot (R103), otherwise its first run is queued. -/
def execCall (n : Nat) (s : State) : Host.Outcome State Fault Refusal :=
  ok (isNode n) <| s.when s.working fun s =>
    s.opStep n (fun d => hOp d.lines == opCall) fun s d =>
      if s.slotLength (aSub d.lines) = 0 then s.refuse n d 0 8
      else
        let k := if tAny d.lines then s.chooseCore d.half else tUnit d.lines
        let d := { d with phase := .core, coreNo := k }
        (s.setNode n (some d)).queueRun n d

/-- The registers of a run as it begins (R214): ARG0-ARG5 in g1-g6, ARGC in g7. -/
def startRegs (d : Node) : Tbl Word :=
  let argc := fld (aw d.lines 0) 18 16
  (List.range 6).foldl (fun t i => Tbl.set 0 t (i + 1) (if i < argc then aw d.lines (i + 1) else 0))
    (Tbl.set 0 [] 7 (BitVec.ofNat 64 argc))

/-- A run as it begins in a frame (R214). -/
def startRun (n : Nat) (d : Node) (stamp : Nat) : Run where
  call := n
  slot := aSub d.lines
  iter := d.runsDone
  queue := d.queue
  ctx := d.ctx
  gen := d.gen
  prio := d.prio
  regs := startRegs d
  pc := 0
  loops := []
  lc := 0
  handles := []
  mem := []
  st := .ready
  xfer := none
  readyAt := stamp

/-- RUN_START (R214): the first run of the queue whose context is not paused (R435) receives a free
frame; the CALL's timer restarts (R218).
Log 110 (DESIGN CHOICE, unsafe). -/
def execRunStart (k : Nat) (s : State) : Host.Outcome State Fault Refusal :=
  ok (isCore k) <| s.when (s.working && s.inService (halfOfCore k)) fun s =>
    let c := s.core k
    let req := c.runq.find? fun r => match s.node r.call with
      | some d => !s.qPaused d.queue
      | none => false
    match req, Tbl.firstFree c.frames 0 8 with
    | some q, some fr =>
      match s.node q.call with
      | none => s
      | some d =>
        let s := s.modCore k fun c => { c with runq := c.runq.filter fun r => r.call != q.call }
        let s := s.setRun k fr (startRun q.call d s.stamp)
        ((s.readyRun k fr).restartTimer q.call)
    | _, _ => s

/-- FRAME_CLEAR_COMPLETE (R212). -/
def execFrameClearComplete (k fr : Nat) (s : State) : Host.Outcome State Fault Refusal :=
  ok (isCore k ∧ isFrame fr) <| s.when s.up fun s =>
    match (s.core k).frame fr with
    | .clearing => s.modCore k fun c => c.setFrame fr .free
    | _ => s

/-- QUANTUM_EXPIRY (R215): 20.48 µs after the run became current the core switches, if another run with
the same or a lower priority number is ready; otherwise the run keeps the core for a further quantum. The time the
run was current counts in either case (R304).
Log 44 (DEDUCED, unsafe), 105 (DESIGN CHOICE, unsafe). -/
def execQuantumExpiry (k : Nat) (s : State) : Host.Outcome State Fault Refusal :=
  ok (isCore k) <| s.when s.working fun s =>
    let c := s.core k
    match c.current with
    | none => s
    | some fr =>
      match s.runAt k fr with
      | none => s
      | some r =>
        if s.now < c.currentAt + 20 ∨ r.stall.isSome = true then s
        else match s.nextRun k fun x => decide (x.st = .ready) && decide (x.prio ≤ r.prio) &&
            decide (x.call ≠ r.call) with
          | none => (s.leaveCore k).makeCurrent k fr
          | some g =>
            let s := (s.leaveCore k).setRun k fr { r with readyAt := s.stamp }
            s.tickStamp.makeCurrent k g

/-! ## Instruction words (R220-R222) -/

def encReg (maj rd ra rb fn : Nat) : BitVec 32 :=
  BitVec.ofNat 32 (maj * 2 ^ 26 + rd * 2 ^ 21 + ra * 2 ^ 16 + rb * 2 ^ 11 + fn)
def encImm (maj rd ra : Nat) (imm : BitVec 16) : BitVec 32 :=
  BitVec.ofNat 32 (maj * 2 ^ 26 + rd * 2 ^ 21 + ra * 2 ^ 16 + imm.toNat)
def encBrn (maj ra rb : Nat) (off : BitVec 16) : BitVec 32 :=
  BitVec.ofNat 32 (maj * 2 ^ 26 + ra * 2 ^ 21 + rb * 2 ^ 16 + off.toNat)
def encLng (maj : Nat) (off : BitVec 26) : BitVec 32 := BitVec.ofNat 32 (maj * 2 ^ 26 + off.toNat)

/-- An encoding that R221 does not call illegal.
Log 12 (DESIGN CHOICE, safe), 90 (DEDUCED, unsafe). -/
def legalWord (w : BitVec 32) : Bool :=
  let maj := fld w 31 26
  let rd := fld w 25 21
  let ra := fld w 20 16
  let rb := fld w 15 11
  let fn := fld w 10 0
  if maj = 0x00 then decide (fn ≤ 15) || (decide (fn ≤ 17) && rb == 0)
  else if maj ≤ 0x04 then true
  else if maj = 0x05 then fld w 15 8 == 0 && fld w 7 6 != 3
  else if maj = 0x06 then ra == 0
  else if maj ≤ 0x0A then true
  else if maj = 0x0B then false
  else if maj ≤ 0x0E then true
  else if maj = 0x0F then decide (fn % 32 ≤ 1) && rd == 0
  else if maj = 0x10 then (fn == 0 && rb == 0) || (fn == 1 && rd == 0)
  else if maj = 0x11 then decide (fn ≤ 3)
  else if maj = 0x12 then decide (fn ≤ 4)
  else if maj = 0x13 then
    decide (fn ≤ 2) || (decide (8 ≤ fn) && decide (fn ≤ 13)) || fn == 16 || fn == 17
  else if maj = 0x18 then ra == 0
  else if maj ≤ 0x1F then false
  else if maj ≤ 0x25 then true
  else if maj ≤ 0x27 then false
  else if maj ≤ 0x29 then true
  else if maj = 0x2A then rb == 0 && fn == 0
  else if maj = 0x3F then
    decide (fn ≤ 7) && !(fn == 4 && decide (5 < rb)) && !(fn == 5 && rb != 0)
  else false

/-! ## Runs -/

/-- The PC and the loops after an instruction at `pc` that does not transfer control: back-edges and
ended loops, the innermost first (R225). -/
def stepLoops (pc : Nat) : List Loop → Nat × List Loop
  | [] => (pc + 4, [])
  | l :: ls =>
    if pc = l.last then
      if 1 < l.left.toNat then (l.first, { l with left := l.left - 1 } :: ls) else stepLoops pc ls
    else (pc + 4, l :: ls)

/-- The run after an instruction that does not transfer control. -/
def Run.next (r : Run) : Run :=
  let p := stepLoops r.pc r.loops
  { r with pc := p.1, loops := p.2 }

/-- The loop's body contains a PC (R224). -/
def Loop.holds (l : Loop) (pc : Nat) : Bool := decide (l.first ≤ pc) && decide (pc ≤ l.last)

/-- The loops after a transfer to a target (R226): one outside the innermost body pops it, and every enclosing one that
does not contain the target.
Log 20 (DEDUCED, unsafe). -/
def leaveLoops (target : Nat) (ls : List Loop) : List Loop := ls.dropWhile fun l => !l.holds target

/-- The run after a taken branch, J or JALR.
Log 20 (DEDUCED, unsafe). -/
def Run.jump (r : Run) (target : Nat) : Run := { r with pc := target, loops := leaveLoops target r.loops }

/-- The run after a JAL: a call that returns into the innermost body pops nothing (R226). Where a call returns to is
taken from the return address that it leaves.
Log 20 (DEDUCED, unsafe). -/
def Run.callTo (r : Run) (target : Nat) : Run :=
  match r.loops with
  | l :: _ => if l.holds (r.pc + 4) then { r with pc := target } else r.jump target
  | [] => r.jump target

/-- PC + 4 · OFF. -/
def Run.target {n : Nat} (r : Run) (off : BitVec n) : Nat :=
  (BitVec.ofNat 64 r.pc + 4 * off.signExtend 64).toNat

/-- The run blocks: the core switches (R215). -/
def State.blockRun (s : State) (k fr : Nat) (r : Run) (st : RunState) : State :=
  ((s.setRun k fr { r with st := st }).leaveCore k).pickRun k

/-- A run's instruction is done, and the next follows. -/
def State.doneRun (s : State) (k fr : Nat) (r : Run) : State := s.setRun k fr r.next

/-! ## Traps (R239) -/

def trIllegal : Nat := 0x01
def trIfetch : Nat := 0x02
def trDmem : Nat := 0x03
def trMisalign : Nat := 0x04
def trTable : Nat := 0x05
def trLoop : Nat := 0x06
def trEmit : Nat := 0x07
def trHandle : Nat := 0x08
def trStream : Nat := 0x09
def trOperand : Nat := 0x0A
def trRoutine : Nat := 0x0B

/-- What a trap reports: cause, instruction word, DETAIL, and RA for cause ROUTINE (R337, R239). -/
structure Trap where
  cause  : Nat
  word   : BitVec 32
  detail : BitVec 32 := 0
  ra     : Nat := 0
deriving DecidableEq, Repr

/-- The event of a trap (R239, R337).
Log 43 (DEDUCED, unsafe). -/
def State.trapEvent (s : State) (k : Nat) (r : Run) (d : Node) (t : Trap) : Event :=
  { d.event (s.coreSource k) kTrap .contain stWithdrawn t.detail noFurrow with
    info0 := word [(32, t.word.toNat), (24, t.cause), (17, r.slot), (12, k)]
    info1 := word [(32, t.ra % 2 ^ 32), (0, r.pc % 2 ^ 15)]
    cause := 0xE0 }

/-- A run traps: the instruction has no effect, the run ends, and the context's teardown is asked for;
the CALL retires with the others of its context (R216). -/
def State.trap (s : State) (k fr : Nat) (r : Run) (t : Trap) : State :=
  match s.node r.call with
  | none => s
  | some d =>
    ((s.endRun k fr).modNode r.call fun d => { d with phase := .doomed, endedIn := 7 }).raise (s.trapEvent k r d t)

/-- A run ends with a status that tears down its context (R216). -/
def State.endCallWith (s : State) (k fr : Nat) (r : Run) (status : BitVec 8) (detail : BitVec 32)
    (e : Event) : State :=
  let s := s.endRun k fr
  match s.node r.call with
  | none => s
  | some d => s.doom r.call d
      { status := status, executed := d.runsDone, detail := detail, furrow := noFurrow } e

/-! ## The step of a core -/

/-- The CALL of a run is live on its core. -/
def State.callLive (s : State) (r : Run) : Bool :=
  match s.node r.call with
  | some d => decide (d.phase = .core)
  | none => false

/-- The current run of the core, if it is live. -/
def State.currentRun (s : State) (k : Nat) : Option (Nat × Run) :=
  match (s.core k).current with
  | none => none
  | some fr => match s.runAt k fr with
    | some r => if s.callLive r then some (fr, r) else none
    | none => none

/-- A core whose current run is gone takes the next ready run. -/
def State.settleCore (s : State) (k : Nat) : State :=
  match s.currentRun k with
  | some _ => s
  | none => (s.leaveCore k).pickRun k

/-- The instruction that the core fetches at the run's PC: none outside the image. The library ROM's words are one fixed
image (R210), which the manual does not give (log 12).
Log 12 (DESIGN CHOICE, safe). -/
def State.fetched (s : State) (r : Run) : Option (BitVec 32) :=
  if s.slotLength r.slot ≤ r.pc / 4 then none
  else if r.slot < 64 then some (Config.romWord r.slot (r.pc / 4))
  else (s.rslot r.slot).image[r.pc / 4]?

/-- EXIT (R216): the run ends; the next iteration is queued, or the CALL ends DONE once its children have retired. -/
def State.exitRun (s : State) (k fr : Nat) (r : Run) : State :=
  match s.node r.call with
  | none => s
  | some d =>
    let s := s.endRun k fr
    let d := { d with runsDone := d.runsDone + 1 }
    if d.runsDone < hRepeat d.lines then (s.setNode r.call (some d)).queueRun r.call d
    else
      let fin : Final := { status := stDone, executed := d.runsDone, detail := 0, furrow := noFurrow }
      (s.setNode r.call (some { d with final := some fin })).endCall r.call

/-- What a shipped routine does of itself at its run's turn (R244): a check of its arguments that fails raises SYS TRAP
with code 1 or 2, where the ROM has its instruction, which is open; and the routine ends once its contract is met.
Log 12 (DESIGN CHOICE, safe). -/
def State.shippedTurn (s : State) (k fr : Nat) (r : Run) : Option State :=
  if 64 ≤ r.slot then none
  else match s.node r.call with
    | none => none
    | some d =>
      let code := d.argCode r.slot
      if code ≠ 0 then
        let pc := 4 * (s.freeNow.toNat % max 1 (s.slotLength r.slot))
        let t := s.useFree
        some (t.useFree.trap k fr { r with pc := pc }
          { cause := trRoutine, word := BitVec.setWidth 32 t.freeNow, ra := code })
      else if s.endsNow d r then some (s.exitRun k fr r)
      else none

/-- The run of a shipped routine executes w: w is the ROM's word at its PC, and keeps the contract. Where the fixed
image holds a word that would break R244, and so is not the ROM's, the command's word stands, if it keeps the contract.
Log 12 (DESIGN CHOICE, safe). -/
def State.romHolds (s : State) (r : Run) (w : BitVec 32) : Bool :=
  let fits := fun x => legalWord x && s.keeps r x
  match s.fetched r with
  | some x => if fits x then x == w else fits w
  | none => fits w

/-- The current run of core k executes the instruction w, if w is what it fetches and the core does not stall on a
table access (R229). A PC outside the image (there the record's instruction word is open) and an illegal word trap; any
other word than the one fetched is not executed.
Log 12 (DESIGN CHOICE, safe), 42 (DESIGN CHOICE, safe). -/
def State.coreInstr (s : State) (k : Nat) (w : BitVec 32) (f : State → Nat → Run → State) : State :=
  let t := s.settleCore k
  match t.currentRun k with
  | none => s
  | some (fr, r) =>
    if r.stall.isSome then s
    else match t.shippedTurn k fr r with
    | some u => u
    | none =>
      if r.slot < 64 then if t.romHolds r w then f t fr r else s
      else match t.fetched r with
      | none => t.useFree.trap k fr r { cause := trIfetch, word := BitVec.setWidth 32 t.freeNow }
      | some x =>
        if legalWord x = false then t.trap k fr r { cause := trIllegal, word := x }
        else if x = w then f t fr r
        else s

/-- The core takes part: Pliat works and the core's half is in service.
Log 12 (DESIGN CHOICE, safe). -/
def State.coreOn (s : State) (k : Nat) : Bool := s.working && s.inService (halfOfCore k)

end Sys2Proof.Machine
end

