-- ==== Sys2Proof/Machine/Arith.lean ====
section
/-! DEFINITION. Control-core arithmetic, immediates, frame loads and stores, branches and jumps
(R222). -/

namespace Sys2Proof.Machine

/-! ## Register operations -/

/-- RD = RA op RB. -/
def State.aluStep (s : State) (k rd ra rb fn : Nat) (g : Word → Word → Word) : State :=
  s.coreInstr k (encReg 0x00 rd ra rb fn) fun s fr r =>
    s.doneRun k fr (r.setReg rd (g (r.reg ra) (r.reg rb)))

/-- Shift amounts are RB bits 5:0. -/
def shamt (b : Word) : Nat := fld b 5 0

/-- High 64 bits of the unsigned product. -/
def mulHigh (a b : Word) : Word := BitVec.ofNat 64 (a.toNat * b.toNat / 2 ^ 64)

/-- 1 or 0. -/
def flagWord (b : Bool) : Word := if b then 1 else 0

/-- Leading zeros. -/
def leadingZeros (a : Word) : Word :=
  BitVec.ofNat 64 ((List.range 64).takeWhile fun i => !bit a (63 - i)).length

/-- One bits. -/
def oneBits (a : Word) : Word := BitVec.ofNat 64 ((List.range 64).filter fun i => bit a i).length

def execAdd (k rd ra rb : Nat) (s : State) : Host.Outcome State Fault Refusal :=
  ok (isCore k ∧ areRegs rd ra rb) <| s.when (s.coreOn k) fun s =>
    s.aluStep k rd ra rb 0 fun a b => a + b

def execSub (k rd ra rb : Nat) (s : State) : Host.Outcome State Fault Refusal :=
  ok (isCore k ∧ areRegs rd ra rb) <| s.when (s.coreOn k) fun s =>
    s.aluStep k rd ra rb 1 fun a b => a - b

def execAnd (k rd ra rb : Nat) (s : State) : Host.Outcome State Fault Refusal :=
  ok (isCore k ∧ areRegs rd ra rb) <| s.when (s.coreOn k) fun s =>
    s.aluStep k rd ra rb 2 fun a b => a &&& b

def execOr (k rd ra rb : Nat) (s : State) : Host.Outcome State Fault Refusal :=
  ok (isCore k ∧ areRegs rd ra rb) <| s.when (s.coreOn k) fun s =>
    s.aluStep k rd ra rb 3 fun a b => a ||| b

def execXor (k rd ra rb : Nat) (s : State) : Host.Outcome State Fault Refusal :=
  ok (isCore k ∧ areRegs rd ra rb) <| s.when (s.coreOn k) fun s =>
    s.aluStep k rd ra rb 4 fun a b => a ^^^ b

def execSll (k rd ra rb : Nat) (s : State) : Host.Outcome State Fault Refusal :=
  ok (isCore k ∧ areRegs rd ra rb) <| s.when (s.coreOn k) fun s =>
    s.aluStep k rd ra rb 5 fun a b => a <<< shamt b

def execSrl (k rd ra rb : Nat) (s : State) : Host.Outcome State Fault Refusal :=
  ok (isCore k ∧ areRegs rd ra rb) <| s.when (s.coreOn k) fun s =>
    s.aluStep k rd ra rb 6 fun a b => a >>> shamt b

def execSra (k rd ra rb : Nat) (s : State) : Host.Outcome State Fault Refusal :=
  ok (isCore k ∧ areRegs rd ra rb) <| s.when (s.coreOn k) fun s =>
    s.aluStep k rd ra rb 7 fun a b => a.sshiftRight (shamt b)

def execMul (k rd ra rb : Nat) (s : State) : Host.Outcome State Fault Refusal :=
  ok (isCore k ∧ areRegs rd ra rb) <| s.when (s.coreOn k) fun s =>
    s.aluStep k rd ra rb 8 fun a b => a * b

def execMulhu (k rd ra rb : Nat) (s : State) : Host.Outcome State Fault Refusal :=
  ok (isCore k ∧ areRegs rd ra rb) <| s.when (s.coreOn k) fun s =>
    s.aluStep k rd ra rb 9 fun a b => mulHigh a b

def execSlt (k rd ra rb : Nat) (s : State) : Host.Outcome State Fault Refusal :=
  ok (isCore k ∧ areRegs rd ra rb) <| s.when (s.coreOn k) fun s =>
    s.aluStep k rd ra rb 10 fun a b => flagWord (a.slt b)

def execSltu (k rd ra rb : Nat) (s : State) : Host.Outcome State Fault Refusal :=
  ok (isCore k ∧ areRegs rd ra rb) <| s.when (s.coreOn k) fun s =>
    s.aluStep k rd ra rb 11 fun a b => flagWord (a.ult b)

def execMin (k rd ra rb : Nat) (s : State) : Host.Outcome State Fault Refusal :=
  ok (isCore k ∧ areRegs rd ra rb) <| s.when (s.coreOn k) fun s =>
    s.aluStep k rd ra rb 12 fun a b => if a.slt b then a else b

def execMax (k rd ra rb : Nat) (s : State) : Host.Outcome State Fault Refusal :=
  ok (isCore k ∧ areRegs rd ra rb) <| s.when (s.coreOn k) fun s =>
    s.aluStep k rd ra rb 13 fun a b => if a.slt b then b else a

def execMinu (k rd ra rb : Nat) (s : State) : Host.Outcome State Fault Refusal :=
  ok (isCore k ∧ areRegs rd ra rb) <| s.when (s.coreOn k) fun s =>
    s.aluStep k rd ra rb 14 fun a b => if a.ult b then a else b

def execMaxu (k rd ra rb : Nat) (s : State) : Host.Outcome State Fault Refusal :=
  ok (isCore k ∧ areRegs rd ra rb) <| s.when (s.coreOn k) fun s =>
    s.aluStep k rd ra rb 15 fun a b => if a.ult b then b else a

def execClz (k rd ra rb : Nat) (s : State) : Host.Outcome State Fault Refusal :=
  ok (isCore k ∧ areRegs rd ra rb) <| s.when (s.coreOn k) fun s =>
    s.aluStep k rd ra rb 16 fun a _ => leadingZeros a

def execPopc (k rd ra rb : Nat) (s : State) : Host.Outcome State Fault Refusal :=
  ok (isCore k ∧ areRegs rd ra rb) <| s.when (s.coreOn k) fun s =>
    s.aluStep k rd ra rb 17 fun a _ => oneBits a

/-! ## Immediates -/

/-- RD = RA op IMM. -/
def State.immStep (s : State) (k maj rd ra : Nat) (imm : BitVec 16) (g : Word → Word) : State :=
  s.coreInstr k (encImm maj rd ra imm) fun s fr r => s.doneRun k fr (r.setReg rd (g (r.reg ra)))

/-- Sign extension and zero extension of an immediate. -/
def sext (imm : BitVec 16) : Word := imm.signExtend 64
def zext (imm : BitVec 16) : Word := imm.setWidth 64

/-- SHIFTI: IMM bits 7:6 give the direction, bits 5:0 the amount. -/
def shiftImm (imm : BitVec 16) (a : Word) : Word :=
  let n := fld imm 5 0
  match fld imm 7 6 with
  | 0 => a <<< n
  | 1 => a >>> n
  | _ => a.sshiftRight n

def execAddi (k rd ra : Nat) (imm : BitVec 16) (s : State) : Host.Outcome State Fault Refusal :=
  ok (isCore k ∧ isReg rd ∧ isReg ra) <| s.when (s.coreOn k) fun s =>
    s.immStep k 0x01 rd ra imm fun a => a + sext imm

def execAndi (k rd ra : Nat) (imm : BitVec 16) (s : State) : Host.Outcome State Fault Refusal :=
  ok (isCore k ∧ isReg rd ∧ isReg ra) <| s.when (s.coreOn k) fun s =>
    s.immStep k 0x02 rd ra imm fun a => a &&& zext imm

def execOri (k rd ra : Nat) (imm : BitVec 16) (s : State) : Host.Outcome State Fault Refusal :=
  ok (isCore k ∧ isReg rd ∧ isReg ra) <| s.when (s.coreOn k) fun s =>
    s.immStep k 0x03 rd ra imm fun a => a ||| zext imm

def execXori (k rd ra : Nat) (imm : BitVec 16) (s : State) : Host.Outcome State Fault Refusal :=
  ok (isCore k ∧ isReg rd ∧ isReg ra) <| s.when (s.coreOn k) fun s =>
    s.immStep k 0x04 rd ra imm fun a => a ^^^ zext imm

def execShifti (k rd ra : Nat) (imm : BitVec 16) (s : State) : Host.Outcome State Fault Refusal :=
  ok (isCore k ∧ isReg rd ∧ isReg ra) <| s.when (s.coreOn k) fun s =>
    s.immStep k 0x05 rd ra imm fun a => shiftImm imm a

def execLui (k rd ra : Nat) (imm : BitVec 16) (s : State) : Host.Outcome State Fault Refusal :=
  ok (isCore k ∧ isReg rd ∧ isReg ra) <| s.when (s.coreOn k) fun s =>
    s.immStep k 0x06 rd ra imm fun _ => sext imm <<< 16

def execShori (k rd ra : Nat) (imm : BitVec 16) (s : State) : Host.Outcome State Fault Refusal :=
  ok (isCore k ∧ isReg rd ∧ isReg ra) <| s.when (s.coreOn k) fun s =>
    s.immStep k 0x07 rd ra imm fun a => (a <<< 16) ||| zext imm

/-! ## The frame -/

/-- Why an access of n bytes to a frame address traps: it lies at 0x7E00 or above, or is not naturally
aligned (R212).
Log 43 (DEDUCED, unsafe). -/
def frameCause (a n : Nat) : Option Nat :=
  if 0x7E00 ≤ a then some trDmem else if a % n ≠ 0 then some trMisalign else none

/-- The frame address RA + sext(IMM). -/
def Run.addr (r : Run) (ra : Nat) (imm : BitVec 16) : Nat := (r.reg ra + sext imm).toNat

/-- A load of n bytes, zero-extended. -/
def State.loadStep (s : State) (k maj rd ra : Nat) (imm : BitVec 16) (n : Nat) : State :=
  let w := encImm maj rd ra imm
  s.coreInstr k w fun s fr r =>
    match frameCause (r.addr ra imm) n with
    | some c => s.trap k fr r { cause := c, word := w }
    | none => s.doneRun k fr (r.setReg rd (BitVec.ofNat 64 (Memory.readNat r.mem (r.addr ra imm) n)))

/-- A store of the low n bytes of RD. -/
def State.storeStep (s : State) (k maj rd ra : Nat) (imm : BitVec 16) (n : Nat) : State :=
  let w := encImm maj rd ra imm
  s.coreInstr k w fun s fr r =>
    match frameCause (r.addr ra imm) n with
    | some c => s.trap k fr r { cause := c, word := w }
    | none => s.doneRun k fr { r with mem := Memory.writeNat r.mem (r.addr ra imm) (r.reg rd).toNat n }

def execLd (k rd ra : Nat) (imm : BitVec 16) (s : State) : Host.Outcome State Fault Refusal :=
  ok (isCore k ∧ isReg rd ∧ isReg ra) <| s.when (s.coreOn k) fun s =>
    s.loadStep k 0x08 rd ra imm 8

def execLw (k rd ra : Nat) (imm : BitVec 16) (s : State) : Host.Outcome State Fault Refusal :=
  ok (isCore k ∧ isReg rd ∧ isReg ra) <| s.when (s.coreOn k) fun s =>
    s.loadStep k 0x09 rd ra imm 4

def execLb (k rd ra : Nat) (imm : BitVec 16) (s : State) : Host.Outcome State Fault Refusal :=
  ok (isCore k ∧ isReg rd ∧ isReg ra) <| s.when (s.coreOn k) fun s =>
    s.loadStep k 0x0A rd ra imm 1

def execSt (k rd ra : Nat) (imm : BitVec 16) (s : State) : Host.Outcome State Fault Refusal :=
  ok (isCore k ∧ isReg rd ∧ isReg ra) <| s.when (s.coreOn k) fun s =>
    s.storeStep k 0x0C rd ra imm 8

def execSw (k rd ra : Nat) (imm : BitVec 16) (s : State) : Host.Outcome State Fault Refusal :=
  ok (isCore k ∧ isReg rd ∧ isReg ra) <| s.when (s.coreOn k) fun s =>
    s.storeStep k 0x0D rd ra imm 4

def execSb (k rd ra : Nat) (imm : BitVec 16) (s : State) : Host.Outcome State Fault Refusal :=
  ok (isCore k ∧ isReg rd ∧ isReg ra) <| s.when (s.coreOn k) fun s =>
    s.storeStep k 0x0E rd ra imm 1

/-! ## Loops, branches and jumps (R224-R226) -/

/-- LOOP: the count is RA, or the LC shadow for g0; 0 skips the body.
Log 89 (DESIGN CHOICE, unsafe), 104 (DESIGN CHOICE, unsafe). -/
def State.loopStep (s : State) (k ra rb : Nat) (off : BitVec 16) : State :=
  let w := encBrn 0x18 ra rb off
  s.coreInstr k w fun s fr r =>
    let last := r.target off
    let count := if ra = 0 then r.lc else r.reg ra
    if 4 ≤ r.loops.length ∨ off.toInt < 1 ∨ s.slotLength r.slot ≤ last / 4 then
      s.trap k fr r { cause := trLoop, word := w }
    else if count = 0 then s.setRun k fr { r with pc := last + 4 }
    else s.setRun k fr { r with
      pc := r.pc + 4, loops := { first := r.pc + 4, last := last, left := count } :: r.loops }

def execLoop (k ra rb : Nat) (off : BitVec 16) (s : State) : Host.Outcome State Fault Refusal :=
  ok (isCore k ∧ isReg ra ∧ isReg rb) <| s.when (s.coreOn k) fun s => s.loopStep k ra rb off

/-- A branch by OFF if the comparison of RA and RB holds. -/
def State.branchStep (s : State) (k maj ra rb : Nat) (off : BitVec 16) (g : Word → Word → Bool) : State :=
  s.coreInstr k (encBrn maj ra rb off) fun s fr r =>
    if g (r.reg ra) (r.reg rb) then s.setRun k fr (r.jump (r.target off)) else s.doneRun k fr r

def execBeq (k ra rb : Nat) (off : BitVec 16) (s : State) : Host.Outcome State Fault Refusal :=
  ok (isCore k ∧ isReg ra ∧ isReg rb) <| s.when (s.coreOn k) fun s =>
    s.branchStep k 0x20 ra rb off fun a b => a == b

def execBne (k ra rb : Nat) (off : BitVec 16) (s : State) : Host.Outcome State Fault Refusal :=
  ok (isCore k ∧ isReg ra ∧ isReg rb) <| s.when (s.coreOn k) fun s =>
    s.branchStep k 0x21 ra rb off fun a b => a != b

def execBlt (k ra rb : Nat) (off : BitVec 16) (s : State) : Host.Outcome State Fault Refusal :=
  ok (isCore k ∧ isReg ra ∧ isReg rb) <| s.when (s.coreOn k) fun s =>
    s.branchStep k 0x22 ra rb off fun a b => a.slt b

def execBge (k ra rb : Nat) (off : BitVec 16) (s : State) : Host.Outcome State Fault Refusal :=
  ok (isCore k ∧ isReg ra ∧ isReg rb) <| s.when (s.coreOn k) fun s =>
    s.branchStep k 0x23 ra rb off fun a b => !a.slt b

def execBltu (k ra rb : Nat) (off : BitVec 16) (s : State) : Host.Outcome State Fault Refusal :=
  ok (isCore k ∧ isReg ra ∧ isReg rb) <| s.when (s.coreOn k) fun s =>
    s.branchStep k 0x24 ra rb off fun a b => a.ult b

def execBgeu (k ra rb : Nat) (off : BitVec 16) (s : State) : Host.Outcome State Fault Refusal :=
  ok (isCore k ∧ isReg ra ∧ isReg rb) <| s.when (s.coreOn k) fun s =>
    s.branchStep k 0x25 ra rb off fun a b => !a.ult b

/-- JAL: g31 = PC + 4; a call that returns into the innermost loop body pops nothing (R226).
Log 20 (DEDUCED, unsafe). -/
def execJal (k : Nat) (off : BitVec 26) (s : State) : Host.Outcome State Fault Refusal :=
  ok (isCore k) <| s.when (s.coreOn k) fun s =>
    s.coreInstr k (encLng 0x28 off) fun s fr r =>
      s.setRun k fr ((r.setReg 31 (BitVec.ofNat 64 (r.pc + 4))).callTo (r.target off))

def execJ (k : Nat) (off : BitVec 26) (s : State) : Host.Outcome State Fault Refusal :=
  ok (isCore k) <| s.when (s.coreOn k) fun s =>
    s.coreInstr k (encLng 0x29 off) fun s fr r => s.setRun k fr (r.jump (r.target off))

/-- JALR: RD = PC + 4, PC = RA as read before RD is written; a misaligned target traps (R239). -/
def execJalr (k rd ra rb : Nat) (s : State) : Host.Outcome State Fault Refusal :=
  ok (isCore k ∧ areRegs rd ra rb) <| s.when (s.coreOn k) fun s =>
    let w := encReg 0x2A rd ra rb 0
    s.coreInstr k w fun s fr r =>
      let t := (r.reg ra).toNat
      if t % 4 ≠ 0 then s.trap k fr r { cause := trMisalign, word := w }
      else s.setRun k fr ((r.jump t).setReg rd (BitVec.ofNat 64 (r.pc + 4)))

end Sys2Proof.Machine
end

