-- ==== Sys2Proof/Machine/Groups.lean ====
section
/-! DEFINITION. Multi-chip groups: the stale table and received notices (R376-R381), the loss of a
peer (R267, R382-R384), and the step fence (R385-R395). -/

namespace Sys2Proof.Machine

/-! ## The stale table (R379, R381) -/

def Stale.isContext (e : Stale) : Bool := match e.kind with
  | .context _ _ _ => true
  | _ => false
def Stale.isChip (e : Stale) : Bool := match e.kind with
  | .chip _ => true
  | _ => false
def Stale.isFailed (e : Stale) : Bool := match e.kind with
  | .failed => true
  | _ => false

/-- The entry nearest its expiry. -/
def nearest (es : List Stale) : Option Stale :=
  es.foldl (fun (b : Option Stale) e => match b with
    | none => some e
    | some x => if e.due < x.due then some e else some x) none

/-- What a new entry replaces in a full table: entries are kept oldest first. -/
def staleVictim (es : List Stale) : Option Stale :=
  match nearest (es.filter Stale.isContext) with
  | some e => some e
  | none => match nearest (es.filter Stale.isChip) with
    | some e => some e
    | none => es.head?

/-- Where the stale entries of a partition are held: the cores of its clusters, and every link port (R381). -/
def State.staleCores (s : State) (e : Stale) : List Nat := s.coresOf (s.part e.part).clusters
def State.loadStale (s : State) (e : Stale) : State :=
  s.drive (.staleLoad e (s.staleCores e) (List.range s.linkPorts))

/-- Removing an entry from the table and from the data movers. -/
def State.dropStale (s : State) (e : Stale) : State :=
  { s with stale := s.stale.erase e }.drive (.staleRemove e (s.staleCores e) (List.range s.linkPorts))

/-- A new entry. -/
def State.addStale (s : State) (e : Stale) : State :=
  let s := match (if 512 ≤ s.stale.length then staleVictim s.stale else none) with
    | some x => (s.dropStale x).hiveDrop srcLinkPort
    | none => s
  { s with stale := s.stale ++ [e] }.loadStale e

/-- PEERLOST and CHIP_FAULT replace the CHIP or FAILED entry of the chip; each replacement raises HIVE_DROP. -/
def State.replaceStale (s : State) (p : Nat) (x : BitVec 14) (k : StaleKind) (due : Nat) : State :=
  let old := s.stale.filter fun e => e.part == p && e.chip == x && !e.isContext
  (old.foldl (fun s e => (s.dropStale e).hiveDrop srcLinkPort) s).addStale
    { part := p, chip := x, kind := k, due := due }

/-! ## The step fence -/

/-- ARRIVALS of PL_FENCECTL; 0 acts as 1 (R385). -/
def State.fenceNeed (s : State) : Nat := max 1 s.fence.arrivals.toNat

/-- Chips that must be ready (R387). -/
def State.fenceSize (s : State) : Nat :=
  let g := s.group s.fence.part.toNat
  if g.en then g.size.toNat else 1

/-- Counting an arrival towards the open or the next fence, or holding it (R386). -/
def State.countFence (s : State) (n : Nat) : State :=
  let f := s.fence
  if f.arrived < s.fenceNeed then
    { s with fence := { f with arrived := f.arrived + 1, openNodes := f.openNodes ++ [n] } }
  else if f.next < s.fenceNeed then
    { s with fence := { f with next := f.next + 1, nextNodes := f.nextNodes ++ [n] } }
  else { s with fence := { f with held := f.held ++ [n] } }

/-- A chip is counted ready, at most once per fence (R387). -/
def State.countReady (s : State) (x : Nat) : State :=
  if s.fence.ready.contains x then s
  else { s with fence := { s.fence with ready := s.fence.ready ++ [x] } }

/-- W of R388, in µs. -/
def State.fenceWindow (s : State) : Nat := min s.fence.window.toNat 4000

/-- The latest unused edge that lets a fence due now fall at once (R388). -/
def State.usableEdge (s : State) : Option Nat :=
  s.fence.edges.find? fun e => decide (s.now ≤ e + s.fenceWindow)

/-- FENCE FALL for a fence goes to every chip of the group (R389). -/
def State.sendFall (s : State) (seq : BitVec 48) : State :=
  s.sendNotice s.fence.part.toNat 0x3FFF (noticeN0 3 1 0 0) (BitVec.setWidth 64 seq)

/-- A waiting arrival retires. -/
def State.endArrival (s : State) (n : Nat) (f : State → Node → State) : State :=
  match s.node n with
  | some d => if d.phase = .hive then f s d else s
  | none => s

/-- The open fence falls (R389): SEQ rises, its arrivals retire, the trace record is written, the
manager broadcasts FALL, the next fence opens with its arrivals and the held ones are counted. -/
def State.fenceFalls (s : State) : State :=
  let f := s.fence
  let held := f.held
  let s := { s with fence := { f with
    seq := f.seq + 1, openNodes := f.nextNodes, arrived := f.next, nextNodes := [], next := 0
    held := [], ready := [], sent := false, due := none, fallen := some f.seq } }
  let s := s.forAll f.openNodes fun s n => s.endArrival n fun s _ => s.retireWith n stDone 1 0
  let s := s.traceRec 6 0 none (BitVec.setWidth 64 f.seq)
  let s := if s.fenceManager then s.sendFall f.seq else s
  s.forAll held State.countFence

/-- The fence is due now (R388): it falls at once, or waits for an edge until its window ends. -/
def State.fenceDue (s : State) : State :=
  if !s.fence.sync || s.fenceWindow == 0 then s.fenceFalls
  else match s.usableEdge with
    | some e => { s with fence := { s.fence with edges := s.fence.edges.erase e } }.fenceFalls
    | none => { s with fence := { s.fence with due := some (s.dueIn s.fenceWindow) } }

/-- READY for the open fence goes to the manager (R387). -/
def State.sendReady (s : State) : State :=
  let g := s.group s.fence.part.toNat
  s.sendNotice s.fence.part.toNat g.mgr (noticeN0 3 0 0 0) (BitVec.setWidth 64 s.fence.seq)

/-- What follows from the counts: the chip becomes ready, and on the manager the fence becomes due once
every chip is (R387). The number bounds how many fences can fall one after another. -/
def State.settleFence (s : State) : Nat → State
  | 0 => s
  | k + 1 =>
    if s.fenceManager then
      let own := (s.group s.fence.part.toNat).num.toNat
      let s := if s.fenceNeed ≤ s.fence.arrived then s.countReady own else s
      if s.fence.due = none ∧ s.fenceSize ≤ s.fence.ready.length then
        let t := s.fenceDue
        if t.fence.due = none then t.settleFence k else t
      else s
    else if s.fenceNeed ≤ s.fence.arrived ∧ s.fence.sent = false then
      { s with fence := { s.fence with sent := true } }.sendReady
    else s

/-- The fence follows its counts, however many arrivals it holds.
Log 45 (DEDUCED, unsafe). -/
def State.fenceFollow (s : State) : State := s.settleFence (s.fence.held.length + 3)

/-- A FENCE STEP of the sheaf is an arrival (R386). -/
def State.isArrival (s : State) (d : Node) : Bool :=
  s.fence.en && (isSystem d.ctx || (s.ctx d.ctx).part == s.fence.part.toNat)

/-- FENCE_STEP (R386): an arrival, or otherwise a FENCE QUEUE. R300 makes the retirement of a FENCE with SUB QUEUE
the origin event, so a FENCE STEP is none. The charge holder counts arrivals (R29), and one counts once the committed
writes of its context have drained (R395, log 82).
Log 45 (DEDUCED, unsafe), 82 (DESIGN CHOICE, unsafe). -/
def State.fenceStep (s : State) (n : Nat) (d : Node) : State :=
  if s.isArrival d then
    if s.holderActs && (s.ctx d.ctx).drain == 0 then
      ((s.setNode n (some { d with phase := .hive })).countFence n).fenceFollow
    else s
  else s.retireWith n stDone 1 0

def execFenceStep (n : Nat) (s : State) : Host.Outcome State Fault Refusal :=
  ok (isNode n) <| s.when s.working fun s =>
    s.opStep n (fun d => hOp d.lines == opFence && aSub d.lines == 1) fun s d => s.fenceStep n d

/-- A waiting arrival retires PEER_LOST with cause 3 (R384).
Log 45 (DEDUCED, unsafe). -/
def State.losesFence (s : State) (detail : BitVec 32) (n : Nat) : State :=
  s.endArrival n fun s d => s.peerLostEnd n d (srcHive d.half) detail

/-- The open fence is abandoned on this chip (R391). The READYs counted for it go with it.
Log 45 (DEDUCED, unsafe). -/
def State.abandonFence (s : State) (detail : BitVec 32) : State :=
  let f := s.fence
  let s := { s with fence := { f with
    openNodes := [], arrived := 0, ready := [], sent := false, due := none } }
  s.forAll f.openNodes fun s n => s.losesFence detail n

/-- The manager broadcasts FENCE ABANDON with the open SEQ (R391). -/
def State.sendAbandon (s : State) : State :=
  s.sendNotice s.fence.part.toNat 0x3FFF (noticeN0 3 2 0 0) (BitVec.setWidth 64 s.fence.seq)

/-- What the loss of chip x does to the step fence (R382 step 4).
Log 46 (DEDUCED, unsafe). -/
def State.peerFence (s : State) (p : Nat) (x : BitVec 14) (detail : BitVec 32) : State :=
  let g := s.group p
  if s.fence.part.toNat ≠ p then s
  else if x = g.mgr then
    let later := s.fence.nextNodes ++ s.fence.held
    let s := s.abandonFence detail
    let s := { s with fence := { s.fence with nextNodes := [], held := [] } }
    s.forAll later fun s n => s.losesFence detail n
  else if g.num = g.mgr ∧ s.fence.ready.contains x.toNat = false then
    (s.abandonFence detail).sendAbandon
  else s

/-- When charge moves, READY is sent again by a chip that is ready, and FALL again by the manager
(R394). -/
def State.fenceRepeat (s : State) : State :=
  if s.fenceManager then match s.fence.fallen with
    | some q => s.sendFall q
    | none => s
  else if s.fence.sent then s.sendReady
  else s

/-! ## The loss of a peer (R267, R382) -/

/-- A sheaf that names the lost chip ends; one whose end is decided already is left alone. -/
def State.loseOwner (s : State) (o : Owner) (src : Nat → Nat) (detail : BitVec 32) : State :=
  s.endOwner o fun s n d => s.peerLostEnd n d (src d.half) detail

/-- A tier object becomes BROKEN and its waiters end with cause 1.
Log 46 (DEDUCED, unsafe). -/
def State.breakObject (s : State) (x : BitVec 14) (chipgen : BitVec 8) (n : Nat) : State :=
  let o := s.obj n
  if o.kind ≠ 2 then s
  else
    let w1 : Word := o.w1 ||| word [(62, 3)]
    let ws := s.waitersOf n
    let s := (s.setObj n { o with w1 := w1 }).setWaiters n []
    ws.foldl (fun s w =>
      s.loseOwner w.owner (fun _ => srcHive (halfOfObj n)) (peerDetail x chipgen 1)) s

/-- It does so once the hive cache holds its line (R317). -/
def State.breakHeld (s : State) (x : BitVec 14) (chipgen : BitVec 8) (n : Nat) : State :=
  s.whenHeld n (.broken n x chipgen) fun s => s.breakObject x chipgen n

/-- The tier objects of a partition. -/
def State.tierObjects (s : State) (p : Nat) : List Nat :=
  let r := s.hiveRange p
  s.objects.keys fun k o => decide (r.1 ≤ k) && decide (k < r.1 + r.2) && o.kind == 2

/-- Remote WAITs at surviving chips on objects that break there as they do here end with cause 1; no answer to them
comes (R267, log 80).
Log 80 (DEDUCED, unsafe). -/
def State.loseWaits (s : State) (p : Nat) (ns : List Nat) (detail : BitVec 32) : State :=
  let hit := fun (o : RemoteOp) => o.wait && o.part == p && ns.contains o.obj
  let gone := s.remoteOps.filter hit
  let s := { s with remoteOps := s.remoteOps.filter fun o => !hit o }
  gone.foldl (fun s o => s.loseOwner o.owner srcHive detail) s

/-- Steps 2 to 4 of R382.
Log 46 (DEDUCED, unsafe), 80 (DEDUCED, unsafe). -/
def State.losePeer (s : State) (p : Nat) (x : BitVec 14) (chipgen : BitVec 8) : State :=
  let ns := s.tierObjects p
  let s := s.forAll ns fun s n => s.breakHeld x chipgen n
  let gone := s.remoteOps.filter fun o => o.part == p && o.chip == x
  let s := { s with remoteOps := s.remoteOps.filter fun o => !(o.part == p && o.chip == x) }
  let s := gone.foldl (fun s o => s.loseOwner o.owner srcHive (peerDetail x chipgen 2)) s
  let s := s.loseWaits p ns (peerDetail x chipgen 1)
  let s := s.dropWaiters fun w => match w.owner with
    | .remote p' _ => p' == p && w.chip == x
    | _ => false
  (s.peerFence p x (peerDetail x chipgen 3)).fenceFollow

/-! ## Received notices (R376, R378, R380) -/

def noticeType (m : Notice) : Nat := fld m.n0 63 60
def noticeFtype (m : Notice) : Nat := fld m.n0 59 58
def noticeSeq (m : Notice) : BitVec 48 := BitVec.ofNat 48 (fld m.n1 47 0)

/-- Receiving a notice of a type: dropped frames and reserved types are reported, stale notices counted;
the rest is handled. A notice of another type is another command's. A gated port takes none (R411).
Log 81 (DEDUCED, safe). -/
def State.notice (s : State) (c : Instr) (m : Notice) (typ : Nat) (f : State → State) : State :=
  s.when s.linkOn fun s => s.delivery c fun s =>
    if s.badFrameHead m.port 1 || decide (4 ≤ noticeType m) then s.hiveDrop srcLinkPort
    else if noticeType m ≠ typ then s
    else if 2 ≤ typ ∧ s.staleChip (portPart m.port) (portSrc m.port) (portGen m.port) = true then
      s.countStale
    else f s

/-- PEERLOST; one whose CHIPGEN equals that of the held CHIP entry is a duplicate (R380). -/
def State.doPeerlost (s : State) (m : Notice) : State :=
  let p := portPart m.port
  let x := portSrc m.port
  if s.stale.any fun e => e.part == p && e.chip == x && e.kind == .chip (portGen m.port) then s
  else (s.replaceStale p x (.chip (portGen m.port)) (s.dueArrived 4000)).losePeer p x (portGen m.port)

def execPeerlost (m : Notice) (s : State) : Host.Outcome State Fault Refusal :=
  ok True <| s.notice (.peerlost m) m 0 fun s => s.doPeerlost m

/-- CHIP_FAULT: a FAILED entry, and the same effects (R382). -/
def execChipFault (m : Notice) (s : State) : Host.Outcome State Fault Refusal :=
  ok True <| s.notice (.chipFault m) m 1 fun s =>
    (s.replaceStale (portPart m.port) (portSrc m.port) .failed 0).losePeer (portPart m.port)
      (portSrc m.port) 0

/-- WITHDRAW: a CONTEXT entry; the remote waiters of that context go (R379). A repeated one is itself
stale. -/
def State.doWithdraw (s : State) (m : Notice) : State :=
  let p := portPart m.port
  let x := portSrc m.port
  let c : BitVec 10 := BitVec.ofNat 10 (fld m.n0 21 12)
  let gen : BitVec 12 := BitVec.ofNat 12 (fld m.n0 11 0)
  if s.staleCtx p x (portGen m.port) c gen then s.countStale
  else
    let s := s.addStale { part := p, chip := x, kind := .context (portGen m.port) c gen
                          due := s.dueArrived 4000 }
    s.dropWaiters fun w => match w.owner with
      | .remote p' _ => p' == p && w.chip == x && w.chipgen == portGen m.port &&
          w.ctx == c.toNat && w.gen == gen
      | _ => false

def execWithdraw (m : Notice) (s : State) : Host.Outcome State Fault Refusal :=
  ok True <| s.notice (.withdraw m) m 2 fun s => s.doWithdraw m

/-- Receiving a FENCE notice of an FTYPE for the fence's group.
Log 45 (DEDUCED, unsafe). -/
def State.fenceNotice (s : State) (c : Instr) (m : Notice) (ftype : Nat) (f : State → State) : State :=
  s.notice c m 3 fun s =>
    if noticeFtype m = ftype ∧ portPart m.port = s.fence.part.toNat then f s else s

/-- A READY or FALL that is dropped (R387, R389, R392). -/
def State.fenceMismatch (s : State) : State :=
  { s with fence := { s.fence with mismatch := satInc s.fence.mismatch } }

/-- FENCE READY, on the manager (R387). -/
def execFenceReady (m : Notice) (s : State) : Host.Outcome State Fault Refusal :=
  ok True <| s.fenceNotice (.fenceReady m) m 0 fun s =>
    if !s.fenceManager then s
    else if noticeSeq m ≠ s.fence.seq then s.fenceMismatch
    else (s.countReady (portSrc m.port).toNat).fenceFollow

/-- FENCE FALL, on a worker (R389). -/
def execFenceFall (m : Notice) (s : State) : Host.Outcome State Fault Refusal :=
  ok True <| s.fenceNotice (.fenceFall m) m 1 fun s =>
    if s.fenceManager then s
    else if noticeSeq m = s.fence.seq then s.fenceFalls.fenceFollow
    else if noticeSeq m = s.fence.seq - 1 then s
    else s.fenceMismatch

/-- The lost chip and its new CHIPGEN (R384) as a worker knows them: the notice carries neither, so they are those of
the CHIP or FAILED entry that the stale table holds for the group. Which of several it is, and what they are without
one, is open.
Log 45 (DEDUCED, unsafe). -/
def State.lostChip (s : State) (p : Nat) : BitVec 14 × BitVec 8 :=
  let es := s.stale.filter fun e => e.part == p && !e.isContext
  match es[s.freeNow.toNat % max 1 es.length]? with
  | some e => (e.chip, match e.kind with
    | .chip g => g
    | _ => 0)
  | none => (BitVec.ofNat 14 (fld s.freeNow 13 0), BitVec.ofNat 8 (fld s.freeNow 23 16))

/-- FENCE ABANDON, on a worker (R391).
Log 45 (DEDUCED, unsafe). -/
def execFenceAbandon (m : Notice) (s : State) : Host.Outcome State Fault Refusal :=
  ok True <| s.fenceNotice (.fenceAbandon m) m 2 fun s =>
    if s.fenceManager then s
    else if noticeSeq m = s.fence.seq then
      let x := s.lostChip s.fence.part.toNat
      s.useFree.abandonFence (peerDetail x.1 x.2 3)
    else s

/-! ## STEPSYNC (R388, R390) -/

/-- An edge is recorded; one less than 10 µs after the one before is ignored.
Log 45 (DEDUCED, unsafe). -/
def State.recordEdge (s : State) : State :=
  { s with fence := { s.fence with
      lastEdge := some s.now
      edges := s.now :: s.fence.edges.filter fun e => decide (s.now ≤ e + 4000) } }

/-- STEPSYNC_EDGE, read on the manager: a due fence falls at it; during a compute reset it is recorded only (R396). In
an idle state it then also wakes Pliat (R417).
Log 45 (DEDUCED, unsafe). -/
def execStepsyncEdge (s : State) : Host.Outcome State Fault Refusal :=
  ok True <| s.when (decide (s.power = .run) && !s.recov.safe && s.fenceManager) fun s =>
    let early := match s.fence.lastEdge with
      | some e => decide (s.now < e + 10)
      | none => false
    if early then s
    else if s.recov.inprogress then s.recordEdge
    else match s.fence.due with
      | some t =>
        if s.now ≤ t then
          (({ s with fence := { s.fence with lastEdge := some s.now } }.fenceFalls).fenceFollow).wakeUp
        else s.recordEdge
      | none => s.recordEdge

/-- STEPSYNC_WINDOW_EXPIRY: the fence falls at T + W. -/
def execStepsyncWindowExpiry (s : State) : Host.Outcome State Fault Refusal :=
  ok True <| s.when s.working fun s =>
    match s.fence.due with
    | some t =>
      if t ≤ s.now then
        ({ s with fence := { s.fence with misses := satInc s.fence.misses } }.fenceFalls).fenceFollow
      else s
    | none => s

/-! ## Expiry (R379) -/

/-- STALE_ENTRY_EXPIRY of the entry at a place of the table. -/
def execStaleEntryExpiry (i : Nat) (s : State) : Host.Outcome State Fault Refusal :=
  ok (i < 512) <| s.when (decide (s.power = .run) && !s.recov.safe) fun s =>
    match s.stale[i]? with
    | some e => if e.isFailed = false ∧ e.due ≤ s.now then s.dropStale e else s
    | none => s

/-- A PL_GROUPp whose EN changes from 0 to 1 sends PEERLOST to its group (R377). -/
def State.sendPeerlost (s : State) (p : Nat) : State :=
  s.sendNotice p 0x3FFF (noticeN0 0 0 0 0) 0

end Sys2Proof.Machine
end

