-- ==== Sys2Proof/Machine/Faults.lean ====
section
/-! DEFINITION. Errors found in storage (R39-R42), charge conflicts (R28, R364, R365), hang detection
(R349-R352), compute reset and its crash dump (R355-R363), fault injection (R347). -/

namespace Sys2Proof.Machine

/-! ## Errors in storage (R39-R42) -/

/-- The logical core that a physical core of half h stands behind, if it has a number (R32). -/
def State.logicalOf (s : State) (h i : Nat) : Option Nat :=
  ((List.range 12).map (12 * h + ·)).find? fun k => s.physOf k == i

/-- The source of a storage word (R328). -/
def storageSource : Storage → Nat
  | .nodeSlot n => srcResolver (n / 32768)
  | .queueContext q => srcQueueCtx (halfOfQueue q)
  | .descriptor n _ | .patchLine n _ => srcDescriptor (n / 32768)
  | .furrowEntry f _ | .tokenStore f _ => srcFurrow f
  | .hiveObject n => srcHive (halfOfObj n)
  | .hiveLine l => srcHive (halfOfObj (4 * l))
  | .scaleSlot _ => srcSteward
  | .frame h i _ | .dataCache h i | .imem h i => srcCore h i
  | .traceRing | .sampleBuffer => srcTrace
  | .auditStore => srcAudit
  | .directory home => srcHome home

/-- The word exists, its half is in service and it is allocated (R42). -/
def State.allocated (s : State) : Storage → Bool
  | .nodeSlot n => (s.node n).isSome
  | .queueContext q => decide ((s.queue q).state ≠ .free)
  | .descriptor n l => match s.node n with
    | some d => decide (l < d.lines.length)
    | none => false
  | .patchLine n k => match s.node n with
    | some d => d.patchLive k
    | none => false
  | .furrowEntry f i => decide (i < (s.furrow f).entries.length)
  | .tokenStore f i => decide (i < (s.furrow f).tokens.length)
  | .hiveObject n => decide (n < 262144) && s.inService (halfOfObj n)
  | .hiveLine l => decide (l < 65536) && s.inService (halfOfObj (4 * l))
  | .scaleSlot i => decide (i < 65536)
  | .frame h i fr => decide (h < 2) && decide (i < 13) && decide (fr < 8) && s.inService h
  | .dataCache h i | .imem h i => decide (h < 2) && decide (i < 13) && s.inService h
  | .traceRing | .auditStore => true
  | .sampleBuffer => s.recov.sample.isSome
  | .directory home => decide (home < 3) && (home == 2 || s.inService home)

/-- A sheaf whose node slot, lines or furrow entry hold an uncorrectable error retires ECC (R41); of one whose end is
decided already the event alone is raised, with the STATUS and DETAIL of that end where they are known; it asks for the
teardown of its context or is covered by one (R40, R336, R340). An error in a furrow's entry names the furrow.
Log 39 (DEDUCED, unsafe). -/
def State.badSheaf (s : State) (n : Nat) (source code line : Nat) (member : Option Nat) (furrow : BitVec 10)
    (info addr : Word) : State :=
  match s.node n with
  | none => s
  | some d =>
    let detail := eccDetail code line member
    let e := { d.event source kUncorrectable .contain stEcc detail furrow with
      address := addr, info0 := info }
    if d.phase = .doomed ∨ d.phase = .heldRecord then
      s.raise ({ e with cause := 0xE2 }.endedAs d.final)
    else s.doom n d { status := stEcc, executed := d.executed, detail := detail, furrow := furrow } e

/-- The run on whose behalf a control core's memory was used ends with ECC; without one the error is
SEVERE (R40, R216). -/
def State.badRun (s : State) (source : Nat) (k fr : Option Nat) (info addr : Word) : State :=
  match k, fr with
  | some k, some fr =>
    match s.runAt k fr with
    | some r =>
      match s.node r.call with
      | some d =>
        let detail := eccDetail 0x08 0xFF none
        s.endCallWith k fr r stEcc detail
          { d.event source kUncorrectable .contain stEcc detail noFurrow with
            address := addr, info0 := info }
      | none => s.raise (storageEvent source kUncorrectable .severe info addr none)
    | none => s.raise (storageEvent source kUncorrectable .severe info addr none)
  | _, _ => s.raise (storageEvent source kUncorrectable .severe info addr none)

/-- LIVE contexts of partition p. -/
def State.liveOf (s : State) (p : Nat) : List Nat :=
  s.ctxs.keys fun c x => decide (x.state = .live) && !isSystem c && x.part == p

/-- A damaged object is cleared once the hive cache holds its line (R40, R317). -/
def State.clearHeld (s : State) (n : Nat) : State := s.whenHeld n (.clear n) fun s => s.clearObj n

/-- An uncorrectable error in hive objects: every LIVE context of each partition concerned, SEVERE for an
object without a partition, NOTE without a LIVE context; the objects are then cleared (R40). -/
def State.badObjects (s : State) (source : Nat) (ns : List Nat) (info addr : Word) : State :=
  let ps := (ns.map s.objPart).eraseDups
  let s1 :=
    if ps.contains none then s.raise (storageEvent source kUncorrectable .severe info addr none)
    else
      let cs := (ps.filterMap id).flatMap s.liveOf
      if cs = [] then s.raise (storageEvent source kUncorrectable .note info addr none)
      else s.forAll cs fun s c =>
        s.raise (storageEvent source kUncorrectable .contain info addr (some (c, (s.ctx c).gen)))
  s1.forAll ns State.clearHeld

/-- An uncorrectable error in a word (R40).
Log 39 (DEDUCED, unsafe). -/
def State.uncorrectable (s : State) (w : Storage) (info addr : Word) : State :=
  let src := storageSource w
  let none' := s.raise (storageEvent src kUncorrectable .severe info addr none)
  match w with
  | .nodeSlot n => s.badSheaf n src 0x01 0xFF none noFurrow info addr
  | .descriptor n l => s.badSheaf n src 0x02 l none noFurrow info addr
  | .patchLine n k => s.badSheaf n src 0x06 0xFF (some k) noFurrow info addr
  | .furrowEntry f i => match (s.furrow f).entries[i]? with
    | some e => s.badSheaf e.node src 0x03 0xFF e.member (BitVec.ofNat 10 f) info addr
    | none => s
  | .tokenStore f i => match (s.furrow f).tokens[i]? with
    | some t => s.raise { storageEvent src kUncorrectable .contain info addr (some (t.ctx, t.gen)) with
        furrow := BitVec.ofNat 10 f }
    | none => s
  | .queueContext q =>
    let c := (s.queue q).ctx
    s.raise { storageEvent src kUncorrectable .contain info addr (some (c, (s.ctx c).gen)) with queue := q }
  | .hiveObject n => s.badObjects src [n] info addr
  | .hiveLine l => s.badObjects src [4 * l, 4 * l + 1, 4 * l + 2, 4 * l + 3] info addr
  | .scaleSlot i => match (s.slot i).bound with
    | some c => s.raise (storageEvent src kUncorrectable .contain info addr (some (c, (s.ctx c).gen)))
    | none => none'
  | .frame h i fr => s.badRun src (s.logicalOf h i) (some fr) info addr
  | .dataCache h i =>
    let k := s.logicalOf h i
    s.badRun src k (k.bind fun k => (s.core k).current) info addr
  | .imem _ _ | .traceRing | .auditStore | .sampleBuffer | .directory _ => none'

/-- PATROL_SCRUB: what a read of an allocated word finds: nothing, or an error that is uncorrectable or
not, with its failing bit and syndrome (R337). In DOZE and DEEP the scrubber pauses (R415).
Log 17 (DESIGN CHOICE, safe). -/
def execPatrolScrub (w : Storage) (bad : Option Found) (s : State) :
    Host.Outcome State Fault Refusal :=
  ok True <| s.when (decide (s.power = .run) && !s.recov.safe &&
      (decide (s.clocks.idle = .none) || decide (s.clocks.idle = .nap)) && s.allocated w) fun s =>
    match bad with
    | none => s
    | some x =>
      if x.unc then s.useFree.uncorrectable w (foundInfo x) s.freeNow
      else s.corrected (storageSource w) x

/-! ## Charge (R28, R30, R365) -/

/-- The unfinished chip-wide functions begin again: a tally is written again, the image of a LOADROUTINE is read
again, and a step-fence distribution is issued again (R30, R394).
Log 41 (DEDUCED, unsafe). -/
def State.restartChipWide (s : State) : State :=
  let ns := s.nodesWhere fun _ d => decide (d.phase = .kernel) &&
    (hOp d.lines == opTally || hOp d.lines == opLoadroutine)
  let s := s.forAll ns fun s n => match s.node n with
    | some d => if hOp d.lines = opTally then s.tallyWrites d else s.readImage d
    | none => s
  s.fenceRepeat

/-- Charge moves to half h. -/
def State.moveCharge (s : State) (h : Nat) : State :=
  let c := s.charge
  { s with charge := { c with
      holder := h == 1, moves := c.moves + 1, belief0 := h == 0, belief1 := h == 1 } }.restartChipWide

/-- INFO0 of CHARGE and ARBITER (R337). -/
def chargeInfo (answer : Nat) (belief : Bool) (h : Nat) : Word :=
  word [(3, answer % 2), (2, b2n belief), (0, h)]

/-- Half h yields its chip-wide duties. If it held charge, or the outputs name it, charge moves to the other half, where
what it had begun begins again (R28, R30); without another half that may hold charge, a compute reset is triggered by
the CHARGE event.
Log 48 (DESIGN CHOICE, unsafe). -/
def State.yieldCharge (s : State) (h answer : Nat) : State :=
  let info := chargeInfo answer (s.belief h) h
  let c := s.charge
  let s := { s with charge := if h = 0 then
      { c with yielded0 := true, barred0 := true, belief0 := false }
    else { c with yielded1 := true, barred1 := true, belief1 := false } }
  let e : Event := { source := srcArbiter, kind := kCharge, cls := .severe, info0 := info }
  let req := s.resetFor e
  let s := s.raise e
  if s.recov.safe then s
  else
    let s :=
      if s.chargeable (1 - h) then if answer = h ∨ s.holder = h then s.moveCharge (1 - h) else s
      else s.askReset req
    s.closeRecords fun o => o.charge

/-- CHARGE_CHECK of half h, which reads the arbiter's two outputs.
Log 48 (DESIGN CHOICE, unsafe). -/
def execChargeCheck (h out0 out1 : Nat) (s : State) : Host.Outcome State Fault Refusal :=
  ok (isHalf h ∧ out0 < 2 ∧ out1 < 2) <|
    s.when (decide (s.power = .run) && !s.recov.safe && s.chargeable h) fun s =>
      if out0 ≠ out1 then
        let v := s.freeNow
        s.useFree.raise { source := srcArbiter, kind := kArbiter, cls := .grave
                          info0 := chargeInfo v.toNat (s.belief h) h }
      else if s.belief h = decide (out0 = h) then s
      else s.yieldCharge h out0

/-! ## The wait-for graph (R349-R351) -/

/-- The sheaf has not ended: in HELDRECORD only its record is missing (R109). -/
def Node.unended (d : Node) : Bool := decide (d.phase ≠ .heldRecord)

/-- The oldest sheaf of queue q, in sequence order, that satisfies a test. -/
def State.oldest (s : State) (q : Nat) (p : Node → Bool) : Option Nat :=
  (s.nodes.foldl (fun (b : Option (Nat × Nat)) e => match e.2 with
    | some d =>
      if d.queue == q && d.child.isNone && p d then match b with
        | none => some (e.1, d.seq.toNat)
        | some x => if d.seq.toNat < x.2 then some (e.1, d.seq.toNat) else some x
      else b
    | none => b) none).map Prod.fst

/-- The fetch of an ACTIVE queue waits for INFLIGHT, for the window of R110 or for the record ring. -/
def Queue.fetchHeld (x : Queue) : Bool :=
  decide (x.state = .active) && decide (x.head.toNat < x.tail.toNat) &&
  (decide (x.maxInflight ≤ x.inflight) || decide (4096 ≤ x.nextSeq.toNat - x.retired.toNat) || x.recFull)

/-- The sheaf that an open edge waits for. -/
def State.edgeWait (s : State) (e : Edge) : Option Nat :=
  match e.st with
  | .done _ | .noticed _ => none
  | _ => match e.target with
    | .seq r m =>
      match s.oldest r fun d => d.unended && d.seq.toNat == m with
      | some n => some n
      | none =>
        let x := s.queue r
        if x.nextSeq.toNat = m ∧ x.fetchHeld = true then s.oldest r Node.unended else none
    | .issue i => (s.nodesWhere fun _ d => match d.child with
      | some (_, j) => j == i
      | none => false).head?

/-- The sheaves that CHAIN, COMMITWAIT, a FENCE and a BRANCH make a held sheaf wait for (R138, R349). -/
def State.holdWaits (s : State) (d : Node) : List Nat :=
  if d.child.isSome then []
  else
    let before := fun (e : Node) => decide (e.seq.toNat < d.seq.toNat)
    let hold := fun (b : Bool) (p : Node → Bool) =>
      if b then (s.oldest d.queue fun e => e.unended && before e && p e).toList else []
    hold (s.chainOpen d) (fun e => e.seq.toNat == d.seq.toNat - 1) ++
    hold (fCommitwait d.lines) (fun e => !e.hasCommitted) ++
    hold true (fun e => hOp e.lines == opFence) ++
    hold true (fun e => hOp e.lines == opBranch) ++
    hold (hOp d.lines == opFence) (fun _ => true)

/-- The child issue that a CALL's run waits for in CWAIT. -/
def State.callWait (s : State) (n : Nat) (d : Node) : Option Nat :=
  match (s.frameWhere d.coreNo fun r => r.call == n).bind (s.runAt d.coreNo) with
  | some r => match r.st with
    | .cwait h _ => match r.handles.find? fun x => x.num == h with
      | some x => (s.nodesWhere fun _ e => decide (e.child = some (n, x.issue))).head?
      | none => none
    | _ => none
  | none => none

/-- What the sheaf of a node slot waits for (R349). -/
def State.waitsOf (s : State) (n : Nat) (d : Node) : List Nat :=
  match d.phase with
  | .held => d.edges.filterMap s.edgeWait ++ s.holdWaits d
  | .core => (s.callWait n d).toList
  | _ => []

def State.hangId (s : State) (n : Nat) : HangId := match s.node n with
  | some d => { node := n, gen := d.gen, order := d.order }
  | none => { node := n, gen := 0, order := 0 }

/-- Every wait of every node slot (R350). -/
def State.waitGraph (s : State) : List (HangId × HangId) :=
  s.nodes.flatMap fun e => match e.2 with
    | some d => (s.waitsOf e.1 d).map fun m => (s.hangId e.1, s.hangId m)
    | none => []

/-- HANG_SNAPSHOT, in wait-for graph mode. -/
def execHangSnapshot (s : State) : Host.Outcome State Fault Refusal :=
  ok True <| s.when (s.working && !s.recov.mode && decide (s.recov.scanDue ≤ s.now)) fun s =>
    { s with recov := { s.recov with snapshot := some s.waitGraph, scanDue := s.now + 20 } }

/-- What is waited for, directly or through other waits. -/
def reach (es : List (HangId × HangId)) (xs : List HangId) : Nat → List HangId
  | 0 => xs
  | k + 1 =>
    let next := (es.filter fun e => xs.contains e.1 && !xs.contains e.2).map Prod.snd
    if next = [] then xs else reach es (xs ++ next.eraseDups) k

/-- The sheaves that lie on a closed chain of waits.
Log 47 (DEDUCED, unsafe). -/
def onCycle (es : List (HangId × HangId)) : List HangId :=
  (es.map Prod.fst).eraseDups.filter fun a =>
    (reach es ((es.filter fun e => e.1 == a).map Prod.snd) es.length).contains a

/-- The closed chains that some sheaves form, each with its sheaves. -/
def cyclesOf (es : List (HangId × HangId)) : List HangId → Nat → List (List HangId)
  | [], _ => []
  | _, 0 => []
  | a :: t, k + 1 =>
    let r := reach es [a] es.length
    let same := fun b => r.contains b && (reach es [b] es.length).contains a
    (a :: t.filter same) :: cyclesOf es (t.filter fun b => !same b) k

/-- DETAIL of WAIT_CYCLE: the sheaf waited for (R351). -/
def State.cycleDetail (s : State) (m : Nat) : BitVec 32 := match s.node m with
  | some d => BitVec.ofNat 32 (d.queue * 2 ^ 20 + d.seq.toNat % 2 ^ 20)
  | none => 0

/-- DETAIL of a waiting sheaf of a killed context: it names a wait inside the cycle or its waiters if it has one. -/
def State.waitDetail (s : State) (es : List (HangId × HangId)) (bad : List HangId) (a : HangId) : BitVec 32 :=
  let ts := (es.filter fun e => e.1 == a).map Prod.snd
  s.cycleDetail <| match ts.find? fun t => bad.contains t with
    | some t => t.node
    | none => (ts.map HangId.node).headD 0

/-- A waiting sheaf of a killed context ends with WAIT_CYCLE, unless a teardown that has begun decides its end (R305).
-/
def State.killWaiting (s : State) (es : List (HangId × HangId)) (bad : List HangId) (a : HangId) : State :=
  match s.node a.node with
  | some d =>
    if d.gen = a.gen ∧ d.order = a.order ∧ d.phase ≠ .doomed ∧ d.phase ≠ .heldRecord then
      s.setNode a.node (some { d with
        phase := .doomed, endedIn := s.phaseCode a.node d
        final := if s.tearCovered d.ctx then none else some {
          status := stWaitCycle, executed := d.executed, detail := s.waitDetail es bad a, furrow := noFurrow } })
    else s
  | none => s

/-- Context that the sheaf of an identity belongs to, while its node slot still holds that sheaf (R350).
Log 47 (DEDUCED, unsafe). -/
def State.hangCtx (s : State) (a : HangId) : Option Nat :=
  ((s.node a.node).filter fun d => d.gen == a.gen && d.order == a.order).map (·.ctx)

/-- The contexts that own a sheaf of some sheaves, or one that waits for them (R351). -/
def State.concerned (s : State) (es : List (HangId × HangId)) (cyc : List HangId) : List Nat :=
  ((reach (es.map fun e => (e.2, e.1)) cyc es.length).filterMap s.hangCtx).eraseDups

/-- INFO0 of WAIT_CYCLE: the contexts killed and the sheaves of the cycle (R337).
Log 47 (DEDUCED, unsafe). -/
def State.cycleInfo (s : State) (es : List (HangId × HangId)) (cyc : List HangId) : Word :=
  word [(16, min (s.concerned es cyc).length 0xFFFF), (0, min cyc.length 0xFFFF)]

/-- The confirmed cycles kill every context concerned, which receives one record: that of the first cycle that concerns
it (R351).
Log 47 (DEDUCED, unsafe). -/
def State.killCycles (s : State) (es : List (HangId × HangId)) (cycs : List (List HangId)) : State :=
  let bad := reach (es.map fun e => (e.2, e.1)) cycs.flatten es.length
  let r := s.recov
  let s := { s with recov := { r with cycles := satVal 8 (r.cycles.toNat + cycs.length) } }.lifeAdd 32 cycs.length
  let infos := cycs.map fun cyc => (s.concerned es cyc, s.cycleInfo es cyc)
  s.forAll (s.concerned es cycs.flatten) fun s c =>
    let info := ((infos.find? fun x => x.1.contains c).map Prod.snd).getD 0
    let mine := ((es.map Prod.fst).eraseDups).filter fun a => s.hangCtx a == some c
    let t := mine.foldl (fun s a => s.killWaiting es bad a) s
    match mine.head? with
    | some a => match s.node a.node with
      | some d => t.raise { d.event srcHang kWaitCycle .contain stWaitCycle (s.waitDetail es bad a) noFurrow with
          info0 := info }
      | none => t
    | none => t

/-- HANG_SCAN_COMPLETE: a cycle whose sheaves were in a cycle of the snapshot before is confirmed.
Log 47 (DEDUCED, unsafe). -/
def execHangScanComplete (s : State) : Host.Outcome State Fault Refusal :=
  ok True <| s.when (s.working && !s.recov.mode) fun s =>
    match s.recov.snapshot with
    | none => s
    | some es =>
      let old := s.recov.suspects
      let r := s.recov
      let s := { s with recov := { r with
        snapshot := none, suspects := onCycle es, lastGraph := es
        scans := if es = r.lastGraph then r.scans + 1 else 1 } }
      let es' := es.filter fun e => old.contains e.1 && old.contains e.2
      let cyc := onCycle es'
      if cyc = [] then s else s.killCycles es (cyclesOf es' cyc cyc.length)

/-! ## Heartbeat (R352) -/

/-- HEARTBEAT_PERIOD_END. -/
def execHeartbeatPeriodEnd (s : State) : Host.Outcome State Fault Refusal :=
  ok True <| s.when (s.working && s.recov.mode && s.recov.armed && decide (s.recov.beatDue ≤ s.now)) fun s =>
    let r := s.recov
    let m := r.misses + 1
    if m = 3 then
      { s with recov := { r with misses := m, armed := false } }.raise
        { source := srcHeartbeat, kind := kHeartbeat, cls := .severe
          info0 := r.lastBeat, info1 := BitVec.setWidth 64 r.period }
    else { s with recov := { r with misses := m, beatDue := s.dueIn r.period.toNat } }

/-! ## Compute reset (R355-R361) -/

/-- A queue-state entry of the dump (R360). -/
def State.dumpQueue (s : State) (q : Nat) : List Word :=
  let x := s.queue q
  [ s.qstatus .pf q, x.head, x.tail, x.retired, x.nextSeq, x.recWritten, x.recAck,
    match (s.oldest q fun _ => true).bind fun n => (s.node n).map fun d => (n, d) with
    | some (n, d) => word [(32, d.tag.toNat), (28, s.phaseCode n d)]
    | none => word [(28, 0xF)] ]

/-- What the dump shows of the queues is captured; `askReset` performed the rest of step 1 at the trigger, and nothing
has changed a queue since (R355, R360).
Log 16 (DESIGN CHOICE, safe). -/
def State.resetCaptures (s : State) : State :=
  let qs := (List.range 4096).filter fun q => decide (s.qstate q ≠ .free)
  { s with recov := { s.recov with request := none, captured := qs.map fun q => (q, s.dumpQueue q) } }

/-- The runs that a compute reset ends are counted: those of engines that answer with a handshake, which has committed
or not, and the time that the cores' current runs were current (R304).
Log 16 (DESIGN CHOICE, safe). -/
def State.countRuns (s : State) (fd : ResetFindings) : State :=
  let s := s.forAll ((s.runsWhere fun _ => true).filter fun f => !fd.silent.contains f) fun s f =>
    match (s.furrow f).run with
    | some r => s.account f r { stamp := s.runStamp r, maxexp := none, clipped := 0, memread := 0, memwrite := 0
                                linksent := 0, energy := 0, writes := 0, ecc := false } (!fd.committed.contains f)
    | none => s
  s.forAll (s.cores.map Prod.fst) State.leaveCore

/-- Steps 2 to 4: aborts, after which no engine runs, discards, the reset of the engines that do not answer, PEERLOST.
-/
def State.resetAborts (s : State) (fd : ResetFindings) : State :=
  let late := (s.runsWhere fun _ => true).filter fun f => fd.silent.contains f
  let s := (s.abortAll fun f => !fd.committed.contains f).discardWhere fun _ => true
  let s := s.countRuns fd
  let s := { s with furrows := s.furrows.mapAll {} fun _ f => f.noRun }
  (s.forAll late fun s f => s.drive (.engineReset f)).noticeAll (noticeN0 0 0 0 0)

/-- Header of the dump (R361). -/
def State.dumpHeader (s : State) (r : ResetReq) : List Word :=
  [ word [(48, 1), (40, s.recov.chipgen.toNat)], s.recov.usecAt,
    if r.cause = 0 then BitVec.ofNat 64 r.recno else 0xFFFFFFFFFFFFFFFF,
    s.plCharge, s.plDumpbase, s.lastFence ] ++ List.replicate 506 0

/-- The scratchpad samples are read into their buffer, 32 lines for core 16 c + k, from the offset of PL_DUMPBASE.SAMPLE
(R38, R359).
Log 51 (DESIGN CHOICE, safe). -/
def State.takeSample (s : State) : State :=
  let off := if 1280 ≤ s.recov.dumpSample.toNat then 0 else s.recov.dumpSample.toNat * 8192
  { s.useFree with recov := { s.recov with
    sample := some off
    sampled := (List.range (32 * 16 * s.clusters)).map (Config.scratchLine s.free) } }

/-- The words of the buffer in the order of the dump; absent cores are zero (R359). -/
def State.dumpSamples (s : State) : List Word :=
  (List.range (192 * 256)).map fun j => wd (s.recov.sampled.getD (j / 8) []) (j % 8)

/-- What the dump drives: its writes, header last, and the ordering read of its first 8 B (R359, R366). -/
def State.dumpWrites (s : State) (r : ResetReq) : List Out :=
  let b : Word := s.recov.dumpBase ++ (0 : BitVec 12)
  let st := s.chipStamp
  [ .memWrite st true (b + 0x1000) ((List.range 512).flatMap fun i =>
      (List.range 8).map fun j => (Tbl.get [] s.faults.log i).getD j 0),
    .memWrite st true (b + 0x9000) ((List.range 4096).flatMap fun q =>
      (List.range 8).map fun j => (Tbl.get [] s.recov.captured q).getD j 0),
    .memWrite st true (b + 0x49000) ((List.range 1024).flatMap fun c => (s.acctWords c).take 8),
    .memWrite st true (b + 0x59000) s.dumpSamples,
    .memWrite st true b (s.dumpHeader r),
    .memRead st true b 1 ]

/-- As much of the dump as had been driven when it ended early: how much is open.
Log 16 (DESIGN CHOICE, safe). -/
def State.partDump (s : State) (r : ResetReq) : State :=
  s.useFree.driveAll ((s.dumpWrites r).take (s.freeNow.toNat % 7))

/-- DUMP_FAILED (R359). -/
def State.dumpFails (s : State) : State :=
  { s with recov := { s.recov with dumping := false, dumpfail := true } }.raise
    { source := srcHostPort, kind := kDumpFailed, cls := .note }

/-- Step 6, first part: Pliat's state is cleared (R38, R356). -/
def State.resetClears (s : State) : State :=
  let v := s.recov
  let s := { s with
    queues := [], fetchLast := [], nodes := []
    furrows := s.furrows.mapAll {} fun _ f => { quiet := match f.quiet with
      | some t => some t
      | none => some s.now }
    fabric := [], admits := [], flying := [], reports := [], slots := [], oldSlots := [], oldRetired := []
    stewardQ := [], objects := [], waiters := [], remoteOps := [], hivestat := {}
    ctxs := [], tears := [], cores := [], agents := [], dirs := [], net := [], intake := []
    routines := s.routines.mapAll {} fun _ x => { x with loading := [] }
    breaks := [], lineWork := [], reads := []
    latches := s.latches.filter fun l => decide (l.reg < 10000)
    regs := { s.regs with abortBusy := false }
    fence := { s.fence with
      openNodes := [], nextNodes := [], held := [], arrived := 0, next := 0
      ready := [], sent := false, due := none }
    charge := { s.charge with
      barred0 := false, barred1 := false
      belief0 := !s.charge.holder, belief1 := s.charge.holder }
    recov := { v with
      cycles := 0, misses := 0, armed := false, snapshot := none, suspects := []
      lastGraph := [], scans := 0, captured := [], findings := none } }
  (s.stale.foldl State.loadStale s).drive .scratchZero

/-- The halves that the test takes out of service (R358): `cores` are the cores that failed. -/
def State.lostHalves (s : State) (cores : List (Nat × Nat)) (halves pairs : List Nat) : List Nat :=
  (List.range 2).filter fun h =>
    s.inService h && (halves.contains h ||
      (pairs.any fun p => decide (p < 0x40) && sourceHalf p == some h) ||
      -- a core with a number fails and no spare remains
      ((List.range 12).any fun i =>
        let k := 12 * h + i
        cores.contains (h, s.physOf k) &&
        (cores.contains (h, 12) || (List.range 12).any (fun j => s.physOf (12 * h + j) == 12) ||
         (List.range 12).any (fun j => decide (j < i) && cores.contains (h, s.physOf (12 * h + j))))))

/-- The logical cores of the halves in service that failed, whose numbers the spares take. -/
def State.toSpare (s : State) (cores : List (Nat × Nat)) : List Nat :=
  (List.range 24).filter fun k => s.inService (halfOfCore k) && cores.contains (halfOfCore k, s.physOf k)

/-- The cores whose event pairs are broken. -/
def pairCores (pairs : List Nat) : List (Nat × Nat) :=
  (pairs.filter fun p => decide (0x40 ≤ p) && decide (p < 0x5A)).map fun p => ((p - 0x40) / 13, (p - 0x40) % 13)

/-- The spare takes the number of a core that failed (R32); one that failed by its forced pair alone was injected
(R347). -/
def State.spareCores (s : State) (cores failed : List (Nat × Nat)) : State :=
  s.forAll (s.toSpare cores) fun s k =>
    let i := s.physOf k
    { s with phys := Tbl.ins s.phys k 12 }.raise
      { source := srcCore (halfOfCore k) i, kind := kCoreSpared, cls := .note
        injected := (s.source (srcCore (halfOfCore k) i)).forced && !failed.contains (halfOfCore k, i) }

/-- Charge after the loss of halves, and under RETURN (R28). -/
def State.resetCharge (s : State) : State :=
  let s := if s.inService s.holder then s else s.moveCharge (1 - s.holder)
  let p := b2n s.charge.prefer
  if s.charge.ret ∧ s.holder ≠ p ∧ s.inService p = true then s.moveCharge p else s

/-- A half goes out of service (R25, R358). -/
def State.loseHalf (s : State) (injected : Bool) (h : Nat) : State :=
  let c := s.charge
  { s with charge := if h = 0 then { c with inService0 := false } else { c with inService1 := false } }.raise
    { source := srcCollector, kind := kHalfLost, cls := .note, injected := injected }

/-- A core of a half in service, the spare among them, holds an intact copy of the image (R210, R211). -/
def State.imemCopyLeft (s : State) (bad : List (Nat × Nat)) : Bool :=
  (List.range 2).any fun h => s.inService h && (List.range 13).any fun i =>
    ((s.logicalOf h i).isSome || i == 12) && !bad.contains (h, i)

/-- Instruction memories that reported an error, and those of the cores that have just replaced another, take a copy of
the image: of an intact memory, or of the ROM, and slots 64-127 are then empty (R211). -/
def State.repairImem (s : State) (bad : List (Nat × Nat)) (spared : List Nat) : State :=
  if (bad = [] ∧ spared = []) ∨ s.imemCopyLeft bad = true then s
  else { s with routines := s.routines.mapAll {} fun _ x => { x with image := [], pages := [] } }

/-- The single-bit errors that a test has corrected, by their sources: failing bit unknown, the syndrome open (R358).
Log 17 (DESIGN CHOICE, safe). -/
def State.testCorrected (s : State) (ps : List Nat) : State :=
  ps.foldl (fun s p => s.useFree.corrected p { unc := false, pos := 0xFF, syn := BitVec.setWidth 8 s.freeNow }) s

/-- Step 6, second part: the tests and what follows from them (R358). A pair that PL_INJECT forces
still reads broken, as (1, 1); what follows from such a pair alone is injected (R347). -/
def State.resetTests (s : State) (fd : ResetFindings) : State :=
  let masked := s.faults.sources.keys fun _ x => x.masked
  let broken := masked.filter fun p => fd.badPairs.contains p || (s.source p).forced
  let s := s.forAll (masked.filter fun p => !broken.contains p) fun s p =>
    s.setSource p { s.source p with masked := false }
  let s := s.testCorrected fd.corrected
  let real := broken.filter fun p => !(s.source p).forced
  let cores := fd.badCores ++ pairCores broken
  let lost := s.lostHalves cores fd.badHalves broken
  let really := s.lostHalves (fd.badCores ++ pairCores real) fd.badHalves real
  let gone := fun (hs : List Nat) => (List.range 2).all fun h => hs.contains h || !s.inService h
  let other := (real ++ broken.filter fun p => (s.source p).forced).filter fun p => decide (sourceHalf p = none)
  match other with
  | p :: _ => s.raise { source := p, kind := kBrokenWire, cls := .grave
                        info0 := if (s.source p).forced || fd.ones.contains p then 3 else 0
                        injected := (s.source p).forced }
  | [] =>
    if lost ≠ [] ∧ gone lost = true then
      s.raise { source := srcCollector, kind := kHalfLost, cls := .grave, injected := !gone really }
    else
      let s := lost.foldl (fun s h => s.loseHalf (!really.contains h) h) s
      ((s.spareCores cores fd.badCores).repairImem fd.badImem (s.toSpare cores)).resetCharge

/-- Step 6: Pliat's state is cleared, and tested. -/
def State.resetStep6 (s : State) (fd : ResetFindings) : State := s.resetClears.resetTests fd

/-- Steps 5 and 6. Step 6 of a reset whose dump has not been written is left to DUMP_TIMEOUT. -/
def State.resetDump (s : State) (r : ResetReq) (fd : ResetFindings) : State :=
  if !s.recov.dumpEn then s.resetStep6 fd
  else
    let s := s.takeSample
    match fd.dump with
    | .written =>
      let s := s.driveAll (s.dumpWrites r)
      { s with recov := { s.recov with dumpfail := false } }.resetStep6 fd
    | .failed => (s.partDump r).dumpFails.resetStep6 fd
    | .late =>
      let s := s.partDump r
      { s with recov := { s.recov with dumping := true, findings := some fd } }

/-- COMPUTE_RESET: steps 2 to 6 of the reset that has been triggered, once the wake is over if it began in an idle state
(R418).
Log 16 (DESIGN CHOICE, safe). -/
def execComputeReset (fd : ResetFindings) (s : State) : Host.Outcome State Fault Refusal :=
  ok (∀ p ∈ fd.corrected, sourceListed p = true) <|
    s.when (s.up && s.recov.inprogress) fun s =>
      match s.recov.request with
      | none => s
      | some r => ((s.resetCaptures.resetAborts fd).lifeAdd 15 1).resetDump r fd

/-- DUMP_TIMEOUT: the dump is abandoned, and step 6 follows (R359).
Log 16 (DESIGN CHOICE, safe). -/
def execDumpTimeout (s : State) : Host.Outcome State Fault Refusal :=
  ok True <| s.when (!s.recov.safe && s.recov.inprogress && s.recov.dumping &&
      decide (s.recov.dumpDue ≤ s.now)) fun s =>
    match s.recov.findings with
    | some fd => s.dumpFails.resetStep6 fd
    | none => s.dumpFails

/-- RESET_OVERRUN: the reset is not complete 12 ms after its trigger (R355). -/
def execResetOverrun (s : State) : Host.Outcome State Fault Refusal :=
  ok True <| s.when (!s.recov.safe && s.recov.inprogress && decide (s.recov.resetDue ≤ s.now)) fun s =>
    s.raise { source := srcCollector, kind := kResetOverrun, cls := .grave }

/-- RECOVERY_WINDOW_EXPIRY (R362).
Log 50 (DEDUCED, unsafe). -/
def execRecoveryWindowExpiry (s : State) : Host.Outcome State Fault Refusal :=
  ok True <| s.when (decide (s.power = .run) && s.recov.window && decide (s.recov.windowDue ≤ s.now)) fun s =>
    { s with recov := { s.recov with window := false } }.raise
      { source := srcCollector, kind := kRecovery, cls := .grave }

/-! ## Injection (R347) -/

/-- RW fields of PL_INJECT. -/
def injectMask : Word := 0xFFFF00FF33FF8004

/-- The class of a code (R330). -/
def Class.ofCode (n : Nat) : Class :=
  match n with
  | 0 => .note
  | 1 => .contain
  | 2 => .severe
  | _ => .grave

/-- The event that FIRE raises.
Log 39 (DEDUCED, unsafe). -/
def State.injectEvent (s : State) (v : Word) : Event where
  source := fld v 63 48
  kind := BitVec.ofNat 8 (fld v 39 32)
  cls := Class.ofCode (fld v 29 28)
  ctx := if bit v 15 then some (fld v 25 16, (s.ctx (fld v 25 16)).gen) else none
  injected := true
  cause := 0xE4

/-- WIRE forces the pair of SOURCE until it is cleared.
Log 49 (DEDUCED, safe). -/
def State.forceWire (s : State) (old v : Word) : State :=
  let set := fun (s : State) (w : Word) (b : Bool) =>
    if bit w 2 && sourceListed (fld w 63 48) then
      s.setSource (fld w 63 48) { s.source (fld w 63 48) with forced := b }
    else s
  set (set s old false) v true

/-- A write of PL_INJECT through PLACCESS, in factory test mode (R347, R428): the fields, WIRE, the audit
entry and FIRE. -/
def State.writeInject (s : State) (v : Word) : State :=
  if s.powered && s.fuses.factory && !s.recov.safe then
    let old := s.faults.inject
    let new := v &&& injectMask
    let s := { s with faults := { s.faults with inject := new } }.forceWire old new
    let s := s.auditRec 0 false 0 0 old new
    if bit v 0 && sourceListed (fld v 63 48) then
      (s.raise (s.injectEvent v)).closeRecords fun o => o.charge
    else s
  else s

/-- INJECT_FIRE: the write raises one event from SOURCE. -/
def execInjectFire (v : Word) (s : State) : Host.Outcome State Fault Refusal := ok True (s.writeInject v)

/-- INJECT_WIRE: the write forces SOURCE's pair, so that BROKEN_WIRE follows.
Log 49 (DEDUCED, safe). -/
def execInjectWire (v : Word) (s : State) : Host.Outcome State Fault Refusal := ok True (s.writeInject v)

end Sys2Proof.Machine
end

