-- ==== Sys2Proof/Machine/Regs.lean ====
section
/-! DEFINITION. Writes of the privileged registers (R448-R465 and the rules of their field maps), the
audit of them (R429, R430), and the maker's path (R428). -/

namespace Sys2Proof.Machine

/-! ## A register write -/

/-- What a register's rule makes of a write: the state with the register written; whether the write or a
field of it was ignored (R430, R465); whether its only effect falls on a selector field, so that it is not
audited (R429); and what follows the audited change: REFUSED, which is set after the write has been
refused (R465), and the work that the write asks for. -/
structure Written where
  s : State
  ignored : Bool := false
  selects : Bool := false
  after : State → State := id

/-- The write with its audit entry (R429, R430); `role` by page.
Log 52 (DEDUCED, unsafe). -/
def State.auditedWrite (s : State) (offset : Nat) (w : Written) : State :=
  let t := if w.selects then w.s
    else w.s.auditRec (roleOf offset) w.ignored 0 offset (s.regWord offset) (w.s.regWord offset)
  w.after t

/-- Field high:low of a word as a bit vector. -/
def field (w : Word) (hi lo : Nat) : BitVec (hi - lo + 1) := BitVec.ofNat _ (fld w hi lo)

/-- Changing the installer's and operator's plain registers. -/
def State.modRegs (s : State) (f : Regs → Regs) : State := { s with regs := f s.regs }

/-! ## Installer page -/

/-- PL_CHARGE (R31).
Log 48 (DESIGN CHOICE, unsafe). -/
def State.writeCharge (s : State) (m v : Word) : Written :=
  let c := s.charge
  { s := { s with charge := { c with
      yielded0 := c.yielded0 && !bit v 8, yielded1 := c.yielded1 && !bit v 9
      ret := bit m 5, prefer := bit m 4 } } }

/-- PL_RESERVE (R112, R113). -/
def State.writeReserve (s : State) (m v : Word) : Written :=
  let g : BitVec 16 := BitVec.ofNat 16 (fld m 15 0)
  let s := s.modRegs fun r => { r with reserveRefused := r.reserveRefused && !bit v 16 }
  if g = s.regs.groupchips then { s := s }
  else if s.onlyBoot && decide (g ≠ 0) then
    { s := s.modRegs fun r => { r with groupchips := g }, after := fun s => s.wakeIssuers }
  else { s := s, ignored := true, after := fun s => s.modRegs fun r => { r with reserveRefused := true } }

/-- PL_HANGMODE (R348). A change of MODE disarms the monitor (R352) and drops the detector's scan. -/
def State.writeHangmode (s : State) (m v : Word) : Written :=
  let mode := bit m 24
  let period : BitVec 17 := BitVec.ofNat 17 (fld m 16 0)
  let s := { s with recov := { s.recov with hangRefused := s.recov.hangRefused && !bit v 28 } }
  let r := s.recov
  if mode = r.mode ∧ period = r.period then { s := s }
  else if s.onlyBoot && decide (100 ≤ period.toNat) && decide (period.toNat ≤ 100000) then
    let r := { r with period := period }
    { s := { s with recov := if mode = r.mode then r else
        { r with mode := mode, armed := false, snapshot := none, suspects := [], lastGraph := [], scans := 0 } } }
  else { s := s, ignored := true
         after := fun s => { s with recov := { s.recov with hangRefused := true } } }

/-- PL_TRIM (R404): REF and LINK take effect at the next gate. An access of bits 63:32 covers neither (R452).
Log 53 (DEDUCED, unsafe). -/
def State.writeTrim (s : State) (part : Part) (m v : Word) : Written :=
  let t := { s.trim with lostref := s.trim.lostref && !bit v 16 }
  let link : BitVec 5 := BitVec.ofNat 5 (fld m 12 8)
  let ref : BitVec 2 := BitVec.ofNat 2 (fld m 1 0)
  if part = .high then { s := s }
  else if link = t.link ∧ ref = t.ref then { s := { s with trim := { t with waiting := none } } }
  else if link.toNat < s.linkPorts then { s := { s with trim := { t with waiting := some (link, ref) } } }
  else { s := { s with trim := t }, ignored := true }

/-- A switch of the link-notice port's clock source (R406, R407). -/
def Clocks.switch (c : Clocks) (toLocal : Bool) : Clocks :=
  if c.curLocal = toLocal then c else { c with curLocal := toLocal, switches := satInc c.switches }

/-- PL_CLKSRC (R407).
Log 53 (DEDUCED, unsafe). -/
def State.writeClksrc (s : State) (m : Word) : Written :=
  let sel := bit m 0
  let c := { s.clocks with selLocal := sel }
  { s := { s with clocks := c.switch (sel || c.linkLost) } }

/-- Every enable bit other than TRACE of every part in service (R413). -/
def State.needBits (s : State) : BitVec 17 :=
  let b : BitVec 17 := 0x1DFFF
  let b := if s.inService 0 then b else b &&& ~~~(halfBits 0)
  if s.inService 1 then b else b &&& ~~~(halfBits 1)

/-- PL_CLKEN (R411, R413): the bits of a lost half ignore writes. -/
def State.writeClken (s : State) (m v : Word) : Written :=
  let old := s.clkBits
  let lost : BitVec 17 := ~~~(s.needBits ||| 0x02000)
  let new : BitVec 17 := BitVec.ofNat 17 (fld m 16 0) &&& ~~~lost
  let s := { s with clocks := { s.clocks with clkRefused := s.clocks.clkRefused && !bit v 55 } }
  if old &&& ~~~new &&& 0x1DFFF ≠ 0 ∧ s.queueExists (fun _ _ => true) = true then
    { s := s, ignored := true
      after := fun s => { s with clocks := { s.clocks with clkRefused := true } } }
  else { s := { s with clocks := { s.clocks with enables := new } } }

/-- PL_FENCECTL (R385). While an arrival waits, a write of FENCEPART or ARRIVALS is ignored. -/
def State.fenceWaits (s : State) : Bool :=
  !(s.fence.openNodes ++ s.fence.nextNodes ++ s.fence.held).isEmpty

/-- Log 45 (DEDUCED, unsafe). -/
def State.writeFencectl (s : State) (m v : Word) : Written :=
  let part : BitVec 4 := BitVec.ofNat 4 (fld m 51 48)
  let arr : BitVec 12 := BitVec.ofNat 12 (fld m 43 32)
  let f := { s.fence with refused := s.fence.refused && !bit v 63 }
  if s.fenceWaits ∧ (part ≠ f.part ∨ arr ≠ f.arrivals) then
    { s := { s with fence := f }, ignored := true
      after := fun s => { s with fence := { s.fence with refused := true } } }
  else
    { s := { s with fence := { f with
        part := part, arrivals := arr, window := BitVec.ofNat 13 (fld m 28 16)
        sync := bit m 1, en := bit m 0 } }
      after := fun s => s.fenceFollow }

/-- PL_FAULTSRC (R334): SEL first; N and WINDOW are written where the access carries a value other than
the one the register showed, for the source then selected.
Log 53 (DEDUCED, unsafe), 65 (DEDUCED, unsafe). -/
def State.writeFaultsrc (s : State) (m : Word) : Written :=
  let old := s.plFaultsrc
  let n := fld m 55 48
  let w := fld m 47 26
  let newN := n != fld old 55 48
  let newW := w != fld old 47 26
  let i := fld m 15 0
  let s := { s with faults := { s.faults with srcSel := BitVec.ofNat 16 i } }
  if !newN && !newW then { s := s, selects := true }
  else if (newN && n == 0) || (newW && (w == 0 || decide (3600000 < w))) || !sourceListed i then
    { s := s, ignored := true }
  else
    let x := s.source i
    { s := s.setSource i { x with
        n := if newN then BitVec.ofNat 8 n else x.n
        window := if newW then BitVec.ofNat 22 w else x.window
        subs := [] } }

/-- BASE and COUNT of a PL_HIVEPARTp word. -/
def hiveBase (w : Word) : Nat := fld w 17 0
def hiveCount (w : Word) : Nat := fld w 40 22

/-- The range overlaps a non-empty range of another partition (R248); an empty range overlaps none.
Log 66 (DEDUCED, unsafe). -/
def State.hiveClash (s : State) (p base count : Nat) : Bool :=
  (List.range 12).any fun i =>
    let r := s.hiveRange i
    i != p && decide (0 < count) && decide (0 < r.2) && decide (base < r.1 + r.2) && decide (r.1 < base + count)

/-- PL_HIVEPARTp (R247, R248). -/
def State.writeHivepart (s : State) (p : Nat) (m v : Word) : Written :=
  let old := Tbl.get 0 s.regs.hivepart p
  let refused := bit old 63 && !bit v 63
  let put := fun (s : State) (base count : Nat) (refused : Bool) => s.modRegs fun r =>
    { r with hivepart := Tbl.set 0 r.hivepart p (word [(63, b2n refused), (22, count), (0, base)]) }
  let base := hiveBase m
  let count := hiveCount m
  if base = hiveBase old ∧ count = hiveCount old then { s := put s base count refused }
  else if base + count ≤ 262144 ∧ s.hiveClash p base count = false ∧ s.partCtxs p = [] then
    { s := put s base count refused }
  else
    { s := put s (hiveBase old) (hiveCount old) refused, ignored := true
      after := fun s => put s (hiveBase old) (hiveCount old) true }

/-- PL_GROUPp (R371, R372). -/
def State.writeGroup (s : State) (p : Nat) (m v : Word) : Written :=
  let g := { s.group p with refused := (s.group p).refused && !bit v 63 }
  let new : Group := { g with
    en := bit m 62, size := BitVec.ofNat 14 (fld m 55 42)
    mgr := BitVec.ofNat 14 (fld m 41 28), num := BitVec.ofNat 14 (fld m 27 14) }
  if new = g then { s := s.setGroup p g }
  else if s.partCtxs p = [] ∧ 1 ≤ new.size.toNat ∧ new.size.toNat ≤ 16383 ∧
      new.num.toNat < new.size.toNat ∧ new.mgr.toNat < new.size.toNat then
    { s := s.setGroup p new
      after := fun s =>
        let s := if new.en && !g.en then s.sendPeerlost p else s
        if s.fence.part.toNat = p then s.fenceFollow else s }
  else
    { s := s.setGroup p g, ignored := true
      after := fun s => s.setGroup p { s.group p with refused := true } }

/-! ## Operator page -/

/-- PL_VERNEG (R66). -/
def State.writeVerneg (s : State) (m : Word) : Written :=
  let o : BitVec 4 := BitVec.ofNat 4 (fld m 27 24)
  let s := s.modRegs fun r => { r with qsel := BitVec.ofNat 12 (fld m 55 44) }
  if o = s.regs.offer then { s := s, selects := true }
  else if s.queueExists fun _ x => decide (1 ≤ x.fmt.toNat) then { s := s, ignored := true }
  else { s := s.modRegs fun r => { r with offer := o, agreed := BitVec.ofNat 4 (min o.toNat 1) } }

/-- A bootstrap queue (R67). -/
def bootQueue (h : Nat) (w : Word) : Queue :=
  let base : Word := w &&& 0xFFFFFFFFFFFFF000
  { state := .idle
    ctx := 512 * h
    kind := .pf
    fmt := 1
    ringBase := base
    ringHost := bit w 10
    logSize := fld w 4 0
    recBase := base + BitVec.ofNat 64 (64 * 2 ^ fld w 4 0)
    recHost := bit w 10
    priority := 0
    timeout := 100000
    maxInflight := 256 }

/-- R413 lets a bootstrap enable through. -/
def State.clocksOn (s : State) : Bool := s.clkBits &&& s.needBits == s.needBits

/-- The enable of half h's bootstrap queue takes effect (R67, R276, R413).
Log 53 (DEDUCED, unsafe). -/
def State.bootOk (s : State) (h : Nat) (w : Word) : Bool :=
  s.clocksOn && decide (s.regs.agreed ≠ 0) && decide (6 ≤ fld w 4 0) && decide (fld w 4 0 ≤ 20) &&
  decide ((s.queue (2048 * h)).state = .free) && s.inService h &&
  (decide ((s.ctx (512 * h)).state = .free) || decide ((s.ctx (512 * h)).state = .live))

/-- The system context exists from the enable on (R276). -/
def State.bootContext (s : State) (h : Nat) : State :=
  let x := s.ctx (512 * h)
  if x.state = .free then
    s.setCtx (512 * h) { x with state := .live, part := 0, windows := [], acct := {}, drain := 0 }
  else s

/-- PL_BOOTQh (R67). A power-up test failure turns the first acceptable enable into a compute reset
(R421).
Log 53 (DEDUCED, unsafe). -/
def State.writeBootq (s : State) (h : Nat) (m v : Word) : Written :=
  let w := m &&& 0xFFFFFFFFFFFFF41F
  let put := fun (s : State) => s.modRegs fun r =>
    if h = 0 then { r with boot0 := w } else { r with boot1 := w }
  if !bit v 11 then { s := put s }
  else if s.clocks.pendfail && s.clocksOn then
    { s := s, ignored := true
      after := fun s =>
        let u := s.freeNow
        s.useFree.raise (storageEvent s.clocks.failing kUncorrectable .severe
          (word [(8, 0xFF), (0, fld u 7 0)]) (u >>> 8) none) }
  else if s.bootOk h w then
    { s := (((put s).bootContext h).setQueue (2048 * h) (bootQueue h w)).freshPage (2048 * h) }
  else { s := s, ignored := true }

/-- PL_RESETCTL (R363): REQ raises OPERATOR_RESET and asks for a compute reset, unless the event was escalated to GRAVE
and the safe state entered (R345, R362).
Log 52 (DEDUCED, unsafe). -/
def State.writeResetctl (s : State) (v : Word) : Written :=
  { s := s
    after := fun s =>
      if bit v 0 then
        let t := s.raise { source := srcHostPort, kind := kOperatorReset, cls := .note }
        if t.recov.safe then t else t.askReset { cause := 1, recno := 0 }
      else s }

/-- PL_ABORTQ (R297). -/
def State.writeAbortq (s : State) (part : Part) (v : Word) : Written :=
  let q := fld v 11 0
  if part = .high then { s := s }
  else if s.regs.abortBusy || decide ((s.queue q).state = .free) then { s := s, ignored := true }
  else { s := s.abortQueue q }

/-- PL_FENCESEQ (R392).
Log 53 (DEDUCED, unsafe). -/
def State.writeFenceseq (s : State) (m : Word) : Written :=
  let q : BitVec 48 := BitVec.ofNat 48 (fld m 47 0)
  if q = s.fence.seq then { s := s }
  else if s.fenceWaits || (s.fenceManager && !s.fence.ready.isEmpty) then { s := s, ignored := true }
  else { s := { s with fence := { s.fence with seq := q, fallen := none } } }

/-- PL_FAULTLOG (R341). -/
def State.writeFaultlog (s : State) (m : Word) : Written :=
  let n : BitVec 2 := BitVec.ofNat 2 (fld m 13 12)
  { s := { s with faults := { s.faults with notifymin := n, sel := BitVec.ofNat 9 (fld m 8 0) } }
    selects := n == s.faults.notifymin }

/-- PL_TRACECTL (R440). -/
def State.writeTracectl (s : State) (m v : Word) : Written :=
  let t := { s.trace with
    stop := bit m 23, filten := bit m 21
    filtctx := BitVec.ofNat 10 (fld m 20 11), kindmask := BitVec.ofNat 8 (fld m 7 0) }
  { s := { s with trace := if bit v 22 then { t with written := 0, dropped := 0 } else t } }

/-- The pause of a context has ended: the timers of its user queues restart in full, and templates whose tables came
without a member retire (R435).
Log 76 (DESIGN CHOICE, safe). -/
def State.endPause (s : State) (c : Nat) : State :=
  if s.breakPaused c then s
  else
    let ns := s.nodesWhere fun _ d =>
      decide ((s.queue d.queue).ctx = c) && decide ((s.queue d.queue).kind = .user) && decide (d.phase ≠ .doomed)
    (s.forAll ns State.restartTimer).forAll ns fun s n => match s.node n with
      | some d => if d.phase = .table ∧ d.reading = 0 then s.skip n d else s
      | none => s

/-- PL_BREAKCTLu (R432, R433): MODE 3 acts as 0.
Log 31 (DEDUCED, unsafe). -/
def State.writeBreakctl (s : State) (u : Nat) (m v : Word) : Written :=
  let old := s.brk u
  let b := { old with hit := old.hit && !bit v 63, refused := old.refused && !bit v 62 }
  let mode : BitVec 2 := BitVec.ofNat 2 (fld m 57 56)
  let ctx : BitVec 10 := BitVec.ofNat 10 (fld m 55 46)
  let on := mode == 1 || mode == 2
  let wasOn := old.mode == 1 || old.mode == 2
  let changed := mode != old.mode || ctx != old.ctx
  let resume := fun (s : State) => if old.hit && !(s.brk u).hit then s.endPause old.ctx.toNat else s
  if on && changed && (isSystem ctx.toNat || decide ((s.ctx ctx.toNat).state ≠ .live) || old.hit) then
    { s := s.setBrk u b, ignored := true
      after := fun s => resume (s.setBrk u { s.brk u with refused := true }) }
  else
    { s := s.setBrk u { b with
        mode := mode, ctx := ctx, hit := b.hit && on
        counted := if on && !wasOn then 0 else b.counted }
      after := resume }

/-- PL_BREAKVALu (R432). -/
def State.writeBreakval (s : State) (u : Nat) (m : Word) : Written :=
  { s := s.setBrk u { s.brk u with mask := BitVec.ofNat 32 (fld m 63 32), value := BitVec.ofNat 32 (fld m 31 0) } }

/-! ## All privileged registers -/

/-- The rule of a register of the installer page; none where the page holds no register. -/
def State.installerRule (s : State) (off : Nat) (part : Part) (m v : Word) : Option Written :=
  if off = 0x000 then some (s.writeCharge m v)
  else if off = 0x008 then some { s := s.modRegs fun r => { r with kcmden := BitVec.ofNat 3 (fld m 2 0) } }
  else if off = 0x010 then some (s.writeReserve m v)
  else if off = 0x018 then some (s.writeHangmode m v)
  else if off = 0x020 then some (s.writeTrim part m v)
  else if off = 0x028 then some (s.writeClksrc m)
  else if off = 0x030 then some (s.writeClken m v)
  else if off = 0x038 then
    some { s := { s with clocks := { s.clocks with maxstate := BitVec.ofNat 2 (fld m 1 0) } } }
  else if off = 0x040 then some { s := s.modRegs fun r => { r with
    preemptDelay := BitVec.ofNat 10 (fld m 25 16), preemptVictim := BitVec.ofNat 2 (fld m 9 8)
    preemptEn := bit m 0 } }
  else if off = 0x048 then some { s := s.modRegs fun r => { r with
    nolend := BitVec.ofNat 12 (fld m 27 16), lendEn := bit m 0 } }
  else if off = 0x050 then some { s := s.modRegs fun r => { r with
    tierCount := BitVec.ofNat 19 (fld m 36 18), tierBase := BitVec.ofNat 18 (fld m 17 0) } }
  else if off = 0x058 then some (s.writeFencectl m v)
  else if off = 0x060 then some { s := { s with recov := { s.recov with
    dumpBase := BitVec.ofNat 52 (fld m 63 12), dumpSample := BitVec.ofNat 11 (fld m 11 1)
    dumpEn := bit m 0 } } }
  else if off = 0x068 then some (s.writeFaultsrc m)
  else if 0x100 ≤ off ∧ off < 0x160 then some { s := s.modRegs fun r => { r with
    scalepart := Tbl.set scaleReset r.scalepart ((off - 0x100) / 8) (m &&& 0x00000001FFFFFFFF) } }
  else if 0x180 ≤ off ∧ off < 0x1E0 then some (s.writeHivepart ((off - 0x180) / 8) m v)
  else if 0x200 ≤ off ∧ off < 0x260 then some (s.writeGroup ((off - 0x200) / 8) m v)
  else none

/-- The offsets of the operator page that hold read-only registers.
Log 52 (DEDUCED, unsafe). -/
def operatorReadOnly (off : Nat) : Bool :=
  off == 0x030 || off == 0x038 || off == 0x060 || off == 0x068 || off == 0x088 || off == 0x090 ||
  (decide (0x0C8 ≤ off) && decide (off ≤ 0x100)) || (decide (0x148 ≤ off) && decide (off ≤ 0x160)) ||
  off == 0x190 || off == 0x198 || off == 0x1D0

/-- The rule of a register of the operator page. A write of a read-only register changes nothing. -/
def State.operatorRule (s : State) (off : Nat) (part : Part) (m v : Word) : Option Written :=
  if off = 0x000 then some (s.writeVerneg m)
  else if off = 0x008 then some (s.writeBootq 0 m v)
  else if off = 0x010 then some (s.writeBootq 1 m v)
  else if off = 0x018 then some (s.writeResetctl v)
  else if off = 0x020 then some (s.writeAbortq part v)
  else if off = 0x028 then some { s := { s with recov := { s.recov with
    tallyBase := BitVec.ofNat 52 (fld m 63 12), tallyValid := bit m 0 } } }
  else if off = 0x040 then
    some { s := s.modRegs fun r => { r with ctxSel := BitVec.ofNat 10 (fld m 9 0) }, selects := true }
  else if off = 0x048 then
    some { s := s.modRegs fun r => { r with partSel := BitVec.ofNat 4 (fld m 3 0) }, selects := true }
  else if off = 0x050 then
    some { s := s.modRegs fun r => { r with slotSel := BitVec.ofNat 7 (fld m 6 0) }, selects := true }
  else if off = 0x058 then some (s.writeFenceseq m)
  else if off = 0x080 then
    some { s := s.modRegs fun r => { r with scaleSel := BitVec.ofNat 16 (fld m 15 0) }, selects := true }
  else if off = 0x0C0 then some (s.writeFaultlog m)
  else if off = 0x140 then
    some { s := { s with audit := { s.audit with sel := BitVec.ofNat 13 (fld m 12 0) } }, selects := true }
  else if off = 0x180 then some (s.writeTracectl m v)
  else if off = 0x188 then
    some { s := { s with trace := { s.trace with sel := BitVec.ofNat 17 (fld m 16 0) } }, selects := true }
  else if off = 0x1C0 then some { s := s, after := fun s => s.flushBit part v }
  else if off = 0x1C8 then
    some { s := { s with life := { s.life with sel := BitVec.ofNat 12 (fld m 11 0) } } }
  else if 0x200 ≤ off ∧ off < 0x280 then
    let u := (off - 0x200) / 16
    some (if off % 16 = 0 then s.writeBreakctl u m v else s.writeBreakval u m)
  else if operatorReadOnly off then some { s := s, ignored := true }
  else none

/-- A register of a gated block (R412), by its offset in PF BAR2. -/
def State.regGated (s : State) (off : Nat) : Bool :=
  if off = 0x20008 then s.inService 0 && !s.enabled 0
  else if off = 0x20010 then s.inService 1 && !s.enabled 1
  else if off = 0x20020 then !s.halvesOn 0
  else if off = 0x20038 ∨ (0x100000 ≤ off ∧ off < 0x100060) then !s.halvesOn 6
  else if off = 0x20050 then !s.halvesOn 4
  else if off = 0x20080 ∨ off = 0x20088 ∨ off = 0x20090 then !s.enabled 11
  else false

/-! ### The hive debug window (R273) -/

/-- A waiter as the window shows it. -/
def Waiter.word (w : Waiter) : Word :=
  let kind := match w.owner with
    | .remote _ _ => 3
    | .run _ _ _ => 2
    | .node _ => match w.test with
      | .cmp _ _ => 0
      | .round _ | .direct _ _ => 1
  let round := match w.test with
    | .cmp _ _ => 0
    | .round r | .direct r _ => r.toNat
  Machine.word [(63, 1), (60, kind), (46, w.chip.toNat), (36, w.ctx), (24, w.queue), (0, round)]

/-- A write to SEL takes the snapshot; an object of a lost half shows zeros. -/
def State.hiveSnapshot (s : State) (m : Word) : State :=
  let n := fld m 17 0
  let sel : BitVec 18 := BitVec.ofNat 18 n
  let ws := s.waitersOf n
  { s with debug :=
    if s.inService (halfOfObj n) then
      { sel := sel, value := (s.obj n).w0, header := (s.obj n).w1
        count := BitVec.ofNat 17 ws.length, waiters := (ws.take 8).map Waiter.word }
    else { sel := sel } }

/-! ### MSI-X table and capability (R460) -/

/-- A vector that is enabled and no longer masked is sent if its pending bit is set.
Log 8 (PRESUMED, unsafe). -/
def State.flushMsix (s : State) (v : Nat) : State :=
  if s.regs.msixEnable && bit s.regs.msixPend v && !s.msixMasked v then
    (s.modRegs fun r => { r with msixPend := r.msixPend &&& ~~~(BitVec.ofNat 2 (2 ^ v)) }).drive (s.msixOut v)
  else s

/-- A write of word i of the table.
Log 8 (PRESUMED, unsafe). -/
def State.writeMsix (s : State) (i : Nat) (m : Word) : State :=
  let ctl := m &&& 0x00000001FFFFFFFF
  if i = 0 then s.modRegs fun r => { r with msixAddr0 := m &&& 0xFFFFFFFFFFFFFFFC }
  else if i = 1 then (s.modRegs fun r => { r with msixCtl0 := ctl }).flushMsix 0
  else if i = 2 then s.modRegs fun r => { r with msixAddr1 := m &&& 0xFFFFFFFFFFFFFFFC }
  else (s.modRegs fun r => { r with msixCtl1 := ctl }).flushMsix 1

/-- A write of the capability's first word: MSI-X Enable and Function Mask of Message Control.
Log 8 (PRESUMED, unsafe). -/
def State.writeMsixCap (s : State) (m : Word) : State :=
  ((s.modRegs fun r => { r with msixEnable := bit m 31, msixMaskAll := bit m 30 }).flushMsix 0).flushMsix 1

/-! ### The write -/

/-- The rule of a privileged register at an offset of PF BAR2; none where no such register is. -/
def State.ruleAt (s : State) (off : Nat) (part : Part) (m w : Word) : Option Written :=
  if 0x10000 ≤ off ∧ off < 0x20000 then s.installerRule (off - 0x10000) part m w
  else if 0x20000 ≤ off ∧ off < 0x30000 then s.operatorRule (off - 0x20000) part m w
  else none

/-- A write that has no effect on the privileged register at an offset is audited as ignored (R429).
Log 52 (DEDUCED, unsafe). -/
def State.ignoredWrite (s : State) (off : Nat) : State :=
  if (s.ruleAt off .odd (s.regWord off) 0).isSome then s.auditedWrite off { s := s, ignored := true } else s

/-- A write of the PF to its BAR2 (R448, R451, R452): a narrow or misaligned one is ignored; gated registers discard it
and count it (R412); doorbell pages follow R54; the rest follows the register's rule, audited; an offset without a
register discards it.
Log 53 (DEDUCED, unsafe). -/
def State.performWrite (s : State) (off : Nat) (part : Part) (v : Word) : State :=
  if off % 8 ≠ 0 ∨ part = .odd then s.ignoredWrite (off - off % 8)
  else if s.regGated off then s.busErr.ignoredWrite off
  else
    let m := merge part (s.regWord off) v
    if 0x8000 ≤ off ∧ off < 0x8020 then s.writeMsix ((off - 0x8000) / 8) m
    else if off < 0x30000 then match s.ruleAt off part m (seen part v) with
      | some x => s.auditedWrite off x
      | none => s
    else if off = 0x100000 then if part = .high then s else s.hiveSnapshot m
    else if off = msixCap then s.writeMsixCap m
    else if 0x1000000 ≤ off ∧ off < 0x2000000 then
      let q := (off - 0x1000000) / 0x1000
      if off % 0x1000 = 0 then s.doDoorbell .pf q (part == .whole) v
      else if off % 0x1000 = 0x28 then s.doRecack .pf q (part == .whole) v
      else if s.pageGated q then s.busErr
      else s
    else s

/-- A write of a privileged register: served, or held for a wake or a compute reset (R454). One that writes REQ, bit 0
of PL_RESETCTL, is ignored during a reset, and that is audited at once (R363, R429).
Log 52 (DEDUCED, unsafe). -/
def State.privWrite (s : State) (c : Instr) (off : Nat) (part : Part) (v : Word) : State :=
  if off = 0x20018 ∧ (part = .whole ∨ part = .low) ∧ s.recov.inprogress = true ∧ s.recov.safe = false ∧
      s.power = .run then
    s.auditedWrite off { s := s, ignored := true }
  else s.hostWrite c fun s => s.performWrite off part v

/-! ## Commands -/

def execHiveDebugSelWrite (part : Part) (v : Word) (s : State) : Host.Outcome State Fault Refusal :=
  ok True <| s.privWrite (.hiveDebugSelWrite part v) 0x100000 part v

def execAbortqWrite (part : Part) (v : Word) (s : State) : Host.Outcome State Fault Refusal :=
  ok True <| s.privWrite (.abortqWrite part v) 0x20020 part v

def execResetRequest (part : Part) (v : Word) (s : State) : Host.Outcome State Fault Refusal :=
  ok True <| s.privWrite (.resetRequest part v) 0x20018 part v

def execFaultsrcWrite (part : Part) (v : Word) (s : State) : Host.Outcome State Fault Refusal :=
  ok True <| s.privWrite (.faultsrcWrite part v) 0x10068 part v

def execGroupWrite (p : Nat) (part : Part) (v : Word) (s : State) : Host.Outcome State Fault Refusal :=
  ok (isPart p) <| s.privWrite (.groupWrite p part v) (0x10200 + 8 * p) part v

def execFencectlWrite (part : Part) (v : Word) (s : State) : Host.Outcome State Fault Refusal :=
  ok True <| s.privWrite (.fencectlWrite part v) 0x10058 part v

def execFenceseqWrite (part : Part) (v : Word) (s : State) : Host.Outcome State Fault Refusal :=
  ok True <| s.privWrite (.fenceseqWrite part v) 0x20058 part v

def execHivepartWrite (p : Nat) (part : Part) (v : Word) (s : State) :
    Host.Outcome State Fault Refusal :=
  ok (isPart p) <| s.privWrite (.hivepartWrite p part v) (0x10180 + 8 * p) part v

def execReserveWrite (part : Part) (v : Word) (s : State) : Host.Outcome State Fault Refusal :=
  ok True <| s.privWrite (.reserveWrite part v) 0x10010 part v

def execHangmodeWrite (part : Part) (v : Word) (s : State) : Host.Outcome State Fault Refusal :=
  ok True <| s.privWrite (.hangmodeWrite part v) 0x10018 part v

def execVernegOfferWrite (part : Part) (v : Word) (s : State) : Host.Outcome State Fault Refusal :=
  ok True <| s.privWrite (.vernegOfferWrite part v) 0x20000 part v

def execBootqEnable (h : Nat) (part : Part) (v : Word) (s : State) : Host.Outcome State Fault Refusal :=
  ok (isHalf h) <| s.privWrite (.bootqEnable h part v) (0x20008 + 8 * h) part v

def execClkenWrite (part : Part) (v : Word) (s : State) : Host.Outcome State Fault Refusal :=
  ok True <| s.privWrite (.clkenWrite part v) 0x10030 part v

def execTrimWrite (part : Part) (v : Word) (s : State) : Host.Outcome State Fault Refusal :=
  ok True <| s.privWrite (.trimWrite part v) 0x10020 part v

def execBreakctlWrite (u : Nat) (part : Part) (v : Word) (s : State) :
    Host.Outcome State Fault Refusal :=
  ok (isBreak u) <| s.privWrite (.breakctlWrite u part v) (0x20200 + 16 * u) part v

/-- The value that writes 1 to HIT of a PL_BREAKCTLu and leaves its other fields alone. -/
def State.resumeValue (s : State) (u : Nat) : Word :=
  ((s.brk u).ctl &&& ~~~(word [(62, 1)])) ||| word [(63, 1)]

/-- BREAK_RESUME: HIT is written with 1 (R435). -/
def execBreakResume (u : Nat) (s : State) : Host.Outcome State Fault Refusal :=
  ok (isBreak u) <| s.privWrite (.breakResume u) (0x20200 + 16 * u) .whole (s.resumeValue u)

def execTraceClear (part : Part) (v : Word) (s : State) : Host.Outcome State Fault Refusal :=
  ok True <| s.privWrite (.traceClear part v) 0x20180 part v

/-- FLUSH is a bit of PL_LIFECTL (R444, R446). -/
def execFlush (part : Part) (v : Word) (s : State) : Host.Outcome State Fault Refusal :=
  ok True <| s.privWrite (.flush part v) 0x201C0 part v

/-- Any other register, by its offset in PF BAR2, or the MSI-X capability behind it. Writes of the doorbell pages and of
MSI-X are not held for a compute reset (R454), and one of DOORBELL takes effect when it arrives, also in an idle state
(R417).
Log 8 (PRESUMED, unsafe). -/
def execRegisterWrite (offset : Nat) (part : Part) (v : Word) (s : State) :
    Host.Outcome State Fault Refusal :=
  ok (offset < 67108880) <|
    if 0x10000 ≤ offset ∧ offset < 0x200000 then s.privWrite (.registerWrite offset part v) offset part v
    else if s.recov.safe = true ∧ (offset < 0x1000000 ∨ 0x2000000 ≤ offset) then s
    else if 0x1000000 ≤ offset ∧ offset < 0x2000000 ∧ offset % 0x1000 = 0 then
      match s.power with
      | .off => s
      | .run => (s.performWrite offset part v).wakeUp
      | _ => s.hold (.registerWrite offset part v)
    else s.hostRead (.registerWrite offset part v) fun s => s.performWrite offset part v

/-! ## Reads (R448, R451, R453, R461) -/

/-- Offset of a latching register. -/
def latchOffset : LatchReg → Nat
  | .scaledata0 => 0x20088
  | .faultrec0 => 0x200C8
  | .auditdata0 => 0x20148
  | .tracedata0 => 0x20190

/-- The read returns W0, or the half that it covers, and latches the other words; a VF has no such register (R450). A
narrow or misaligned read returns zero and latches nothing (R451).
Log 67 (DESIGN CHOICE, safe), 109 (DESIGN CHOICE, unsafe). -/
def State.doLatchedRead (s : State) (fn : Fn) (r : LatchReg) (part : Part) : State :=
  match fn with
  | .vf _ => s.answerRead fn 0
  | .pf =>
    if s.regGated (latchOffset r) then s.abortRead fn
    else if part = .odd then s.answerRead fn 0
    else
      let ws := s.latchWords r
      (s.setLatch fn (latchNo r) (ws.drop 1)).readPart fn (ws.headD 0) part

/-- Log 67 (DESIGN CHOICE, safe). -/
def execLatchedDataRead (fn : Fn) (r : LatchRead) (s : State) : Host.Outcome State Fault Refusal :=
  ok (isFn fn) <| s.hostRead (.latchedDataRead fn r) fun s => s.doLatchedRead fn r.reg r.part

/-- A read of a register of queue q's page (R53, R69, R453). -/
def State.readPage (s : State) (fn : Fn) (q off : Nat) (part : Part) : State :=
  s.pageRead fn q fun s =>
    if off = 0x000 then s.readCounter fn (.doorbell q) part
    else if off = 0x008 then s.readCounter fn (.retired q) part
    else if off = 0x020 then s.readCounter fn (.head q) part
    else if off = 0x028 then s.readCounter fn (.recack q) part
    else s.readPart fn (s.pageWord fn q off) part

/-- The latching register at an offset. -/
def latchAt (off : Nat) : Option LatchReg :=
  [LatchReg.scaledata0, .faultrec0, .auditdata0, .tracedata0].find? fun r => latchOffset r == off

/-- What a read of a register does first: PL_LIFEDATA shows the seconds that have elapsed until now (R441, R446), and
the capability an open value. -/
def State.readRegs (s : State) (off : Nat) : State :=
  if off = 0x201D0 then s.countSeconds else if off = msixCap then s.useFree else s

/-- A read by the PF of the 64-bit word at an offset of its BAR2, or of the MSI-X capability behind it.
Log 67 (DESIGN CHOICE, safe), 109 (DESIGN CHOICE, unsafe). -/
def State.readBar (s : State) (off : Nat) (part : Part) : State :=
  let p := if off % 8 = 0 then part else .odd
  let o := off - off % 8
  if 0x1000000 ≤ o ∧ o < 0x2000000 then s.readPage .pf ((o - 0x1000000) / 0x1000) ((o - 0x1000000) % 0x1000) p
  else if s.regGated o then s.abortRead .pf
  else if o = 0x00008 then s.readCounter .pf .usec p
  else if o = 0x20058 then s.readCounter .pf .fenceseq p
  else match latchAt o with
    | some r => s.doLatchedRead .pf r p
    | none =>
      let s := s.readRegs o
      s.readPart .pf (s.regWord o) p

/-- A read of a register without a row of its own; of the pages outside the doorbell pages a VF reads zero (R450).
Log 67 (DESIGN CHOICE, safe). -/
def State.doRead (s : State) (fn : Fn) (r : CountReg) (part : Part) : State :=
  match r with
  | .doorbell q => s.readPage fn q 0x000 part
  | .retired q => s.readPage fn q 0x008 part
  | .qstatus q => s.readPage fn q 0x010 part
  | .lasttag q => s.readPage fn q 0x018 part
  | .head q => s.readPage fn q 0x020 part
  | .recack q => s.readPage fn q 0x028 part
  | .usec => if fn = .pf then s.readBar 0x00008 part else s.answerRead fn 0
  | .fenceseq => if fn = .pf then s.readBar 0x20058 part else s.answerRead fn 0
  | .plain off => if fn = .pf then s.readBar off part else s.answerRead fn 0

/-- What a read may name: a queue's page, or an offset of PF BAR2 or of the MSI-X capability behind it. -/
def countRegOk : CountReg → Bool
  | .doorbell q | .retired q | .head q | .recack q | .qstatus q | .lasttag q => decide (q < 4096)
  | .usec | .fenceseq => true
  | .plain off => decide (off < 67108880)

/-- LOW_HALF_READ, and every other read without a row of its own.
Log 67 (DESIGN CHOICE, safe). -/
def execLowHalfRead (fn : Fn) (r : CountReg) (part : Part) (s : State) : Host.Outcome State Fault Refusal :=
  ok (isFn fn ∧ countRegOk r = true) <| s.hostRead (.lowHalfRead fn r part) fun s => s.doRead fn r part

/-! ## The maker's path (R428) -/

/-- Address of a fuse word. -/
def isFuse (addr : Nat) : Bool := decide (0x100 ≤ addr) && decide (addr ≤ 0x1FF)

/-- PLACCESS_UPDATE with WRITE = 1: PL_INJECT, or the programming of a fuse word, audited with the
maker's role (R429).
Log 53 (DEDUCED, unsafe). -/
def State.placcessWrite (s : State) (addr : Nat) (v : Word) : State :=
  if addr = 0 then s.writeInject v
  else if s.powered && s.fuses.factory && !s.recov.safe && isFuse addr then
    let old := Tbl.get 0 s.fuses.words addr
    let new := old ||| v
    { s with fuses := { s.fuses with
        words := Tbl.set 0 s.fuses.words addr new
        blown := s.fuses.blown || new != old } }.auditRec 0 false 0 addr old new
  else s

def execPlaccessUpdate (addr : Nat) (v : Word) (s : State) : Host.Outcome State Fault Refusal :=
  ok (addr < 131072) (s.placcessWrite addr v)

/-- PLACCESS_READ: the next capture returns the register; zero outside factory test mode. -/
def execPlaccessRead (addr : Nat) (s : State) : Host.Outcome State Fault Refusal :=
  ok (addr < 131072) <| s.when s.powered fun s =>
    let v := if !s.fuses.factory then 0
      else if addr = 0 then s.faults.inject
      else if isFuse addr then Tbl.get 0 s.fuses.words addr
      else 0
    { s with fuses := { s.fuses with capture := v } }

end Sys2Proof.Machine
end

