-- ==== Sys2Proof/Machine/Power.lean ====
section
/-! DEFINITION. Power-up (R420, R421), the local oscillator and its trim loop (R400-R404), the T-12
crossings (R409), the link-notice port's clock (R406, R407), idle states (R414-R419), PLALIVE (R346), the
energy meters (R423), the temperature (R441), transfers (R439) and the removal of power (R447). -/

namespace Sys2Proof.Machine

/-! ## Supply (R398, R420) -/

/-- What outlasts the loss of power: the fuses, and what has left Pliat; every other part holds its reset
value. The free-value counter and the stamps go on. -/
def State.unpowered (s : State) : State :=
  { State.reset with
    pending := s.pending, out := s.out, free := s.free, stamp := s.stamp
    fuses := { s.fuses with factory := false, capture := 0 } }

/-- The configuration that the fuses give takes effect (R428).
Log 9 (DESIGN CHOICE, unsafe). -/
def Fuses.takeOver (f : Fuses) (factory : Bool) : Fuses :=
  if f.blown then
    { f with blown := false, t6 := Config.fusedT6 f.words, prefer := Config.fusedPrefer f.words
             factory := factory }
  else { f with factory := factory }

/-- POWER_UP: steps 1 and 2 of R420 begin, charge goes to the fused half (R28), the test strap selects
factory test mode (R426), and the power-up is counted.
Log 10 (DEDUCED, safe), 54 (DEDUCED, unsafe). -/
def State.supplyGood (s : State) (factory : Bool) : State :=
  let u := s.unpowered
  let f := u.fuses.takeOver factory
  { u with
    power := .stability 0
    fuses := f
    charge := { prefer := f.prefer, holder := f.prefer, belief0 := !f.prefer, belief1 := f.prefer }
    clocks := { stableDue := 10000, returnDue := 64 }
    life := { image := Tbl.set 0 [] 0 layoutWord, flushDue := 3600000000 } }.lifeAdd 14 1

/-- Log 1 (DESIGN CHOICE, safe). -/
def execPowerUp (factory : Bool) (s : State) : Host.Outcome State Fault Refusal :=
  ok True <| s.when (decide (s.power = .off)) fun s => s.supplyGood factory

/-- POWER_REMOVAL. A flush in progress has sent line 0 whole or not at all (R447).
Log 54 (DEDUCED, unsafe). -/
def execPowerRemoval (s : State) : Host.Outcome State Fault Refusal := ok True s.unpowered

/-! ## Stability test (R400, R420) -/

/-- STABILITY_WINDOW with the cycles counted: after 64 good windows in a row the trim loop starts, and
steps 3 and 4 follow, the load of the lifetime image with them, unless a FLUSHREQ has had it loaded or is having it
loaded already (R443, R445, R447).
Log 54 (DEDUCED, unsafe). -/
def execStabilityWindow (count : Nat) (s : State) : Host.Outcome State Fault Refusal :=
  ok True <|
    match s.power with
    | .stability good =>
      if count < 1568 ∨ 1632 < count then { s with power := .stability 0 }
      else if good + 1 < 64 then { s with power := .stability (good + 1) }
      else
        let t := { s with power := .init, trim := { s.trim with state := .acquire, lockedXing := false } }
        if s.life.loaded = false ∧ s.life.sideband = .idle then t.startLoad else t
    | _ => s

/-- STABILITY_TIMEOUT: the 10 ms have passed on the local counter, and the test has not (R420).
Log 3 (DESIGN CHOICE, unsafe). -/
def execStabilityTimeout (s : State) : Host.Outcome State Fault Refusal :=
  ok True <|
    match s.power with
    | .stability _ => if s.clocks.stableDue ≤ s.now then { s with power := .stalled, plfault := true } else s
    | _ => s

/-! ## Trim loop (R401-R404, R409) -/

/-- The loop runs: the stability test has passed (R401). -/
def State.trimRuns (s : State) : Bool := decide (s.power = .init) || decide (s.power = .run)

/-- A deviation in cycles per gate as a number of steps of 0.0025 %, which are 40 cycles, to the nearest;
`up` decides between two that are equally near.
Log 55 (DESIGN CHOICE, unsafe). -/
def trimSteps (dev : Int) (up : Bool) : Int :=
  if dev % 40 = 20 then (if up then dev / 40 + 1 else dev / 40) else (dev + 20) / 40

/-- ERROR, saturating (R404). -/
def trimError (steps : Int) : BitVec 16 := BitVec.ofInt 16 (max (-32768) (min 32767 steps))

/-- A correction by at most 4 steps. -/
def fineSteps (steps : Int) : Int := max (-4) (min 4 steps)

/-- CODE after a correction against an error of so many steps; outside the 12 bits of the field it is an
open value.
Log 55 (DESIGN CHOICE, unsafe). -/
def State.trimCode (s : State) (steps : Int) : BitVec 12 :=
  let c : Int := s.trim.code.toNat - steps
  if 0 ≤ c ∧ c < 4096 then BitVec.ofInt 12 c else BitVec.ofNat 12 (fld s.freeNow 27 16)

/-- The T-12 crossings follow the trim state: they lock at LOCKED and unlock at UNTRIMMED (R409). -/
def State.settleXing (s : State) : State :=
  let x := match s.trim.state with
    | .locked => !s.fuses.t6
    | .untrimmed => false
    | _ => s.trim.lockedXing
  { s with trim := { s.trim with lockedXing := x } }

/-- A trim state is entered: the count of good gates starts again, and a HOLDOVER lasts 60 s (R403). -/
def State.enterTrim (s : State) (st : TrimState) : State :=
  let due := if st = TrimState.holdover then s.now + 60000000 else s.trim.holdDue
  { s with trim := { s.trim with state := st, good := 0, holdDue := due } }.settleXing

/-- The measured gate (R401). An UNTRIMMED loop with a reference measures towards lock.
Log 55 (DESIGN CHOICE, unsafe). -/
def State.measureGate (s : State) (count : Nat) : State :=
  let dev : Int := (count : Int) - 1600000
  let steps := trimSteps dev (bit s.freeNow 0)
  let acquiring := decide (s.trim.state = .acquire) || decide (s.trim.state = .untrimmed)
  let change := if acquiring && decide (1600 < dev.natAbs) then steps else fineSteps steps
  let good := if dev.natAbs ≤ 800 then s.trim.good + 1 else 0
  let t := { s.trim with
    code := s.trimCode change
    error := trimError steps
    good := good
    state := if acquiring then .acquire else s.trim.state }
  let s := { s.useFree with trim := t }
  if s.trim.state ≠ TrimState.locked ∧ 4 ≤ good then s.enterTrim .locked else s

/-- A waiting write of REF or LINK takes effect (R404). Under NONE the state is UNTRIMMED (R402).
Log 55 (DESIGN CHOICE, unsafe). -/
def State.applyTrim (s : State) : State :=
  match s.trim.waiting with
  | none => s
  | some (link, ref) =>
    let s := { s with trim := { s.trim with waiting := none, link := link, ref := ref, refLost := false } }
    if ref = 2 then s.enterTrim .untrimmed
    else match s.trim.state with
      | .locked => s.enterTrim .holdover
      | .holdover => { s with trim := { s.trim with good := 0 } }
      | _ => s.enterTrim .acquire

/-- TRIM_GATE with the cycles counted: measured while the reference is there; at the boundary a write of
PL_TRIM takes effect.
Log 55 (DESIGN CHOICE, unsafe). -/
def execTrimGate (count : Nat) (s : State) : Host.Outcome State Fault Refusal :=
  ok True <| s.when s.trimRuns fun s =>
    (if s.trim.refLost || s.trim.ref == 2 then s else s.measureGate count).applyTrim

/-- REFERENCE_LOSS (R403). -/
def execReferenceLoss (s : State) : Host.Outcome State Fault Refusal :=
  ok True <| s.when (s.trimRuns && !s.trim.refLost && s.trim.ref != 2) fun s =>
    let s := { s with trim := { s.trim with
      refLost := true, lostref := true, losses := satInc s.trim.losses } }
    match s.trim.state with
    | .locked => s.enterTrim .holdover
    | .acquire => s.enterTrim .untrimmed
    | _ => s

/-- REFERENCE_RETURN (R403). -/
def execReferenceReturn (s : State) : Host.Outcome State Fault Refusal :=
  ok True <| s.when (s.trimRuns && s.trim.refLost) fun s =>
    let s := { s with trim := { s.trim with refLost := false, good := 0 } }
    if s.trim.state = .untrimmed then s.enterTrim .acquire else s

/-- HOLDOVER_EXPIRY (R403).
Log 55 (DESIGN CHOICE, unsafe). -/
def execHoldoverExpiry (s : State) : Host.Outcome State Fault Refusal :=
  ok True <| s.when (s.trimRuns && decide (s.trim.state = .holdover) && decide (s.trim.holdDue ≤ s.now))
    fun s => s.enterTrim .untrimmed

/-! ## Link-notice port clock (R407) -/

/-- LINK_CLOCK_LOSS: no recovered edge for 8 ns. -/
def execLinkClockLoss (s : State) : Host.Outcome State Fault Refusal :=
  ok True <| s.when s.powered fun s =>
    { s with clocks := { s.clocks with linkLost := true, returnDue := s.now + 64 }.switch true }

/-- LINK_CLOCK_RETURN: the recovered clock has been present for 64 µs, which it cannot have been sooner after its
last loss.
Log 3 (DESIGN CHOICE, unsafe). -/
def execLinkClockReturn (s : State) : Host.Outcome State Fault Refusal :=
  ok True <| s.when (s.powered && decide (s.clocks.returnDue ≤ s.now)) fun s =>
    { s with clocks := { s.clocks with linkLost := false }.switch s.clocks.selLocal }

/-! ## Idle states (R414-R419) -/

/-- A node slot's sheaf can only be moved by an outside event: HELD, HIVE, TOKEN or HELDRECORD. -/
def State.restful (s : State) (n : Nat) (d : Node) : Bool := [0, 1, 4, 8].contains (s.phaseCode n d)

/-- No message, transaction, retry or transient state of the coherence protocol. -/
def State.coherenceQuiet (s : State) : Bool :=
  s.net.isEmpty && s.dirs.all (fun e => e.2.txn.isNone && e.2.retry.isEmpty) &&
  s.agents.all fun e => !e.2.hold && [AState.i, .s, .e, .m].contains e.2.st

/-- Furrows hold no entry. -/
def State.furrowsEmpty (s : State) : Bool :=
  s.furrows.all fun e => e.2.entries.isEmpty && e.2.shadow.isNone

/-- No step of Pliat's own is about to move a sheaf that R414 lets wait: none of its edges is on the half
bridge, it is not about to be released, no report waits for the steward, nothing waits for a line, no frame is being
cleared.
Log 56 (DEDUCED, unsafe). -/
def State.noWork (s : State) : Bool :=
  s.nodes.all (fun e => match e.2 with
    | some d => !s.releasable d && d.edges.all fun x => match x.st with
      | .unregistered | .noticed _ => false
      | _ => true
    | none => true) &&
  s.stewardQ.isEmpty && s.oldSlots.isEmpty && s.oldRetired.isEmpty && s.heldCmds.isEmpty && s.lineWork.isEmpty &&
  s.cores.all fun e => e.2.frames.isEmpty

/-- The conditions of R414.
Log 56 (DEDUCED, unsafe). -/
def State.mayIdle (s : State) : Bool :=
  s.working && s.recov.request.isNone &&
  !(s.queueExists fun q x => decide (s.qstate q = .active) || x.pending) &&
  s.nodes.all (fun e => match e.2 with
    | some d => s.restful e.1 d
    | none => true) &&
  (s.runsWhere fun _ => true).isEmpty &&
  s.noWork && s.coherenceQuiet && s.tears.isEmpty &&
  s.ctxs.all (fun e => decide (e.2.state ≠ .teardown)) &&
  (s.recov.mode || (decide (s.waitGraph = s.recov.lastGraph) && decide (2 ≤ s.recov.scans)))

/-- The times of the known events (R416); a deadline that has passed is none. -/
def State.knownEvents (s : State) : List Nat :=
  (s.nodes.flatMap fun e => match e.2 with
    | some d =>
      d.timer.toList ++
      (if hOp d.lines = opBranch ∧ aSub d.lines = 0 ∧ d.phase ≠ .heldRecord ∧
          (s.queue d.queue).deadline ≠ 0 then
        match (s.queue d.queue).origin with
        | some o => [o.toNat + fld (s.queue d.queue).deadline 31 0].filter fun t => decide (s.now < t)
        | none => []
      else [])
    | none => []) ++
  (if s.recov.mode && s.recov.armed then [s.recov.beatDue] else []) ++
  s.remoteOps.filterMap RemoteOp.retryDue ++
  (s.stale.filter fun e => !e.isFailed).map Stale.due ++
  s.fence.due.toList ++
  (if s.recov.window then [s.recov.windowDue] else []) ++
  s.ctxs.filterMap fun e => if e.2.state = .draining then some e.2.drainDue else none

/-- The time to the next known event, if there is one.
Log 56 (DEDUCED, unsafe). -/
def State.nextEvent (s : State) : Option Nat :=
  match s.knownEvents with
  | [] => none
  | t :: ts => some (ts.foldl min t - s.now)

/-- The deepest state that MAXSTATE, the thresholds and the other conditions permit (R415, R416).
Log 56 (DEDUCED, unsafe). -/
def State.idleChoice (s : State) : Idle :=
  let max := s.clocks.maxstate.toNat
  let deeper := s.trimmed && s.furrowsEmpty
  match s.nextEvent with
  | none => if 1 ≤ max then .nap else .none
  | some d =>
    if 3 ≤ max ∧ deeper = true ∧ 5000 ≤ d then .deep
    else if 2 ≤ max ∧ deeper = true ∧ 200 ≤ d then .doze
    else if 1 ≤ max ∧ 10 ≤ d then .nap
    else .none

/-- Coded as MAXSTATE (R419). -/
def Idle.code : Idle → Nat
  | .none => 0
  | .nap => 1
  | .doze => 2
  | .deep => 3

/-- IDLE_ENTRY. -/
def execIdleEntry (s : State) : Host.Outcome State Fault Refusal :=
  ok True <| s.when s.mayIdle fun s =>
    match s.idleChoice with
    | .none => s
    | st => { s with clocks := { s.clocks with
        idle := st, waking := false, entries := s.clocks.entries + 1
        lastidle := BitVec.ofNat 2 st.code
        planned := s.nextEvent.map fun d => s.now + d } }

/-- IDLE_WAKE: the planned wake, early enough that it completes at the known event (R417). The other wake events
are the commands that bring them. -/
def execIdleWake (s : State) : Host.Outcome State Fault Refusal :=
  ok True <| match s.clocks.planned with
    | some t => if t ≤ s.now + s.clocks.idle.wakeTime then s.wakeUp else s
    | none => s

/-! ## PLALIVE, energy, temperature, transfers -/

/-- PLALIVE_TOGGLE (R346). -/
def execPlaliveToggle (s : State) : Host.Outcome State Fault Refusal :=
  ok True <| s.when (decide (s.power = .run) && s.plaliveOn && decide (s.aliveDue ≤ s.now)) fun s =>
    { s with plalive := !s.plalive, aliveDue := s.now + 50 }

/-- Every engine port of every enabled core has reported (R423). -/
def State.allCalibrated (s : State) : Bool :=
  (List.range (48 * s.clusters)).all s.clocks.calibrated.contains

/-- ENERGY_CALIBRATED, from the engine port of a furrow. A link port has no core. -/
def execEnergyCalibrated (f : Nat) (s : State) : Host.Outcome State Fault Refusal :=
  ok (isFurrow f) <| s.when (s.powered && s.engineOn && decide (f < 576) && s.furrowPresent f) fun s =>
    let c := s.clocks
    let s := if c.calibrated.contains f then s
      else { s with clocks := { c with calibrated := c.calibrated ++ [f] } }
    { s with clocks := { s.clocks with evalid := c.evalid || s.allCalibrated } }

/-- Temperature bin (R442). -/
def tempBin (celsius : Int) : Nat :=
  if celsius < 30 then 0 else if 100 ≤ celsius then 15 else ((celsius - 25) / 5).toNat

/-- TEMPERATURE_REPORT, once per second.
Log 57 (DEDUCED, unsafe). -/
def execTemperatureReport (celsius : Int) (s : State) : Host.Outcome State Fault Refusal :=
  ok True <| s.when s.powered fun s => s.countSeconds.lifeAdd (40 + tempBin celsius) 1

/-- The queue and context of the sheaf that a transfer of a furrow belongs to, by its TAG: of the run on the furrow,
otherwise of the latest run that ended there. Where no run of the furrow has had the TAG they are open.
Log 57 (DEDUCED, unsafe). -/
def State.transferOf (s : State) (f : Nat) (tag : BitVec 32) : Nat × Nat :=
  let runs := (match (s.furrow f).run with
    | some r => [(r.tag, r.entry.queue, r.entry.ctx)]
    | none => []) ++ (s.furrow f).ended
  match runs.find? fun e => e.1 == tag with
  | some e => e.2
  | none => (s.freeNow.toNat % 4096, (s.queue (s.freeNow.toNat % 4096)).ctx)

/-- TRANSFER_END, from a DM or link port (R439). -/
def execTransferEnd (f : Nat) (tag : BitVec 32) (dest : BitVec 14) (packets : Nat) (s : State) :
    Host.Outcome State Fault Refusal :=
  ok (isFurrow f ∧ 2 ≤ kindOfFurrow f) <| s.when (decide (s.power = .run) && !s.recov.safe && s.engineOn) fun s =>
    let q := s.transferOf f tag
    s.traceRec 4 q.1 (some q.2)
      (traceW1 tag (f * 2 ^ 22 + dest.toNat * 2 ^ 8 + min packets 255))

end Sys2Proof.Machine
end

