-- ==== Sys2Proof/Machine/Routines.lean ====
section
/-! DEFINITION. What a routine does beyond its frame: block transfers (R230), table accesses
(R227-R229), address streams (R237), children (R231-R235), hive operations (R236) and SYS functions
(R219, R238). -/

namespace Sys2Proof.Machine

/-! ## Block transfers (R230) -/

/-- FN of MFILL and MDRAIN with a number of lines. -/
def blockFn (op lines : Nat) : Nat := op + 32 * (lines - 1)

/-- The frame area and alignment of a block transfer (R212, R230). -/
def blockCause (mem frame lines : Nat) : Option Nat :=
  if 0x7E00 < frame + 64 * lines then some trDmem
  else if mem % 64 ≠ 0 ∨ frame % 64 ≠ 0 then some trMisalign
  else none

/-- The memory area breaks R230: the CALL retires WINDOW. -/
def State.blockWindow (s : State) (k fr : Nat) (r : Run) (addr : Word) : State :=
  match s.node r.call with
  | none => s
  | some d =>
    let detail := windowDetail 0xFFE none
    s.endCallWith k fr r stWindow detail
      { d.event (s.coreSource k) kWindow .contain stWindow detail noFurrow with address := addr }

/-- MFILL or MDRAIN: the window check, then the transfer starts and the run blocks. MDRAIN's lines leave
at once, one write each. -/
def State.blockStep (s : State) (k rd ra rb lines op : Nat) : State :=
  let w := encReg 0x0F rd ra rb (blockFn op lines)
  s.coreInstr k w fun s fr r =>
    let m := r.reg ra
    let f := (r.reg rb).toNat
    let write := op == 1
    match blockCause m.toNat f lines with
    | some c => s.trap k fr r { cause := c, word := w }
    | none =>
      if !s.insideMem r.ctx m.toNat (64 * lines) write then s.blockWindow k fr r m
      else
        let x : Transfer := { fill := !write, frame := f, lines := lines, addr := m }
        let s := s.blockRun k fr { r.next with xfer := some x } .block
        if write then
          (s.modCtx r.ctx fun x => { x with drain := x.drain + lines }).drive
            (.memWrite (s.stampOf r.ctx r.gen) false m (Memory.lines r.mem f lines).flatten)
        else s.drive (.memRead (s.stampOf r.ctx r.gen) false m lines)

def execMfill (k rd ra rb lines : Nat) (s : State) : Host.Outcome State Fault Refusal :=
  ok (isCore k ∧ areRegs rd ra rb ∧ 1 ≤ lines ∧ lines ≤ 64) <| s.when (s.coreOn k) fun s =>
    s.blockStep k rd ra rb lines 0

def execMdrain (k rd ra rb lines : Nat) (s : State) : Host.Outcome State Fault Refusal :=
  ok (isCore k ∧ areRegs rd ra rb ∧ 1 ≤ lines ∧ lines ≤ 64) <| s.when (s.coreOn k) fun s =>
    s.blockStep k rd ra rb lines 1

/-- An MFILL read met an uncorrectable error or poisoned data: the CALL retires ECC, and the record names the line's
memory address (R230, R336, R338). -/
def State.fillEcc (s : State) (k fr : Nat) (r : Run) (x : Transfer) (line : Nat) : State :=
  match s.node r.call with
  | none => s
  | some d =>
    let detail := eccDetail 0x09 (min line 0xFE) none
    let syn := s.freeNow.toNat % 256
    s.useFree.endCallWith k fr r stEcc detail
      { d.event srcMemPort kUncorrectable .contain stEcc detail noFurrow with
        address := x.addr + BitVec.ofNat 64 (64 * line), info0 := word [(8, 0xFF), (0, syn)] }

/-- BLOCK_TRANSFER_COMPLETE: MFILL's lines stand in the frame, and the run is ready. A reply of an older generation is
dropped (R290). -/
def execBlockTransferComplete (k fr : Nat) (a : FabricReply) (s : State) :
    Host.Outcome State Fault Refusal :=
  ok (isCore k ∧ isFrame fr) <| s.when (s.coreOn k) fun s =>
    match s.runAt k fr with
    | none => s
    | some r => match r.xfer with
      | none => s
      | some x =>
        if !s.callLive r || a.stamp != s.stampOf r.ctx r.gen then s
        else if !x.fill then (s.setRun k fr { r with xfer := none }).readyRun k fr
        else match a.result with
          | .lines ls =>
            if ls.length = x.lines ∧ ls.all (fun l => l.length == 8) = true then
              (s.setRun k fr { r with
                xfer := none, mem := Memory.writeWords r.mem x.frame ls.flatten
                track := if r.slot < 64 then r.track.learn x.addr.toNat ls else r.track }).readyRun k fr
            else s
          | .error line => if line < x.lines then s.fillEcc k fr r x line else s

/-! ## Table accesses (R227-R229) -/

/-- What a table address names: the coherent line of an access and the word it reads. -/
structure TableRef where
  line  : CohLine
  value : Word
deriving DecidableEq, Repr

/-- The node slot of an issue of a CALL, while the issue has not retired. -/
def State.issueNode (s : State) (call issue : Nat) : Option (Nat × Node) :=
  match (s.nodesWhere fun _ d => decide (d.child = some (call, issue))).head? with
  | some n => (s.node n).map fun d => (n, d)
  | none => none

/-- W2 of a header whose REPEAT reads as the remaining count (R88). -/
def withRepeat (w : Word) (left : Nat) : Word := word [(16, fld w 63 16), (0, left)]

/-- The word of a descriptor: the CALL's own, or a live handle's as last written, also after its latest issue has
retired. REPEAT of an issue that runs reads its remaining count (R228).
Log 84 (DEDUCED, unsafe). -/
def State.descWord (s : State) (r : Run) (h line i : Nat) : Option TableRef :=
  if h = 0 then
    match s.node r.call with
    | some d =>
      if d.lines.length ≤ line then none
      else
        let w := wd (lineOf d.lines line) i
        some { line := descLine r.call line
               value := if line = 0 ∧ i = 2 then withRepeat w (hRepeat d.lines - d.runsDone) else w }
    | none => none
  else match r.handle h with
    | none => none
    | some x =>
      if x.lines.length ≤ line then none
      else
        let w := wd (lineOf x.lines line) i
        some { line := descLine x.slot line
               value := match s.issueNode r.call x.issue with
                 | some (_, d) =>
                   if line = 0 ∧ i = 2 ∧ d.started = true then withRepeat w (hRepeat d.lines - d.iter) else w
                 | none => w }

/-- A slot as storage and the copies of its line hold it: the steward's latest value once its write has been performed
(R319). -/
def State.storedSlot (s : State) (i : Nat) : Slot :=
  ((s.oldSlots.find? fun e => e.1 == i).map Prod.snd).getD (s.slot i)

/-- RETIRED of a queue in the same way. -/
def State.storedRetired (s : State) (q : Nat) : Word :=
  ((s.oldRetired.find? fun e => e.1 == q).map Prod.snd).getD (s.queue q).retired

/-- A table address as TLD reads it (R227, R228); none where the access traps. -/
def State.tableRead (s : State) (r : Run) (a : Word) : Option TableRef :=
  match fld a 63 60 with
  | 0 =>
    if fld a 59 48 ≠ 0 ∨ fld a 39 11 ≠ 0 ∨ fld a 2 0 ≠ 0 then none
    else s.descWord r (fld a 47 40) (fld a 10 6) (fld a 5 3)
  | 1 =>
    let n := fld a 17 0
    if fld a 59 18 ≠ 0 ∨ s.objAllowed r.ctx n = false ∨ s.inService (halfOfObj n) = false then none
    else some { line := hiveLineOf n, value := (s.obj n).w0 }
  | 2 =>
    let i := fld a 15 0
    if fld a 59 17 ≠ 0 ∨ (s.slot i).bound ≠ some r.ctx then none
    else
      let ws := (s.storedSlot i).words
      some { line := { table := .scale, index := i / 4 }
             value := if bit a 16 then ws.2 else ws.1 }
  | 3 =>
    let q := fld a 11 0
    if fld a 59 12 ≠ 0 ∨ (s.queue q).state = .free ∨ (s.queue q).ctx ≠ r.ctx ∨
        s.inService (halfOfQueue q) = false then none
    else some { line := { table := .queue, index := 8 * q }, value := s.storedRetired q }
  | _ => none

/-- The line an access waits for. -/
def LineAccess.line : LineAccess → CohLine
  | .read l _ _ => l
  | .write l _ _ _ _ => l

/-- A run's access waits for its line, once the cache has asked for it (R229). -/
def State.stallRun (s : State) (k fr : Nat) (r : Run) (x : LineAccess) : State :=
  if (s.aline (s.coreAgent k) x.line).st.request.isSome then s.setRun k fr { r with stall := some x } else s

/-- A TLD whose line the cache holds: it reads the word. A single-bit error is corrected and reported; an uncorrectable
one ends the run (R39, R40). -/
def State.loadWord (s : State) (k fr rd : Nat) (r : Run) (v : Word) (bad : Option Found) : State :=
  match bad with
  | none => s.doneRun k fr (r.setReg rd v)
  | some x =>
    if x.unc then
      s.useFree.uncorrectable (.dataCache (halfOfCore k) (s.physOf k)) (foundInfo x) s.freeNow
    else (s.doneRun k fr (r.setReg rd v)).corrected (s.coreSource k) x

/-- TLD: on a miss the cache asks for the line and the core stalls until it is held (R229). `bad` is an error in the
word that a hit finds. -/
def execTld (x : CoreRead) (rd ra rb : Nat) (s : State) : Host.Outcome State Fault Refusal :=
  let k := x.core
  ok (isCore k ∧ areRegs rd ra rb) <| s.when (s.coreOn k) fun s =>
    let w := encReg 0x10 rd ra rb 0
    s.coreInstr k w fun s fr r =>
      match s.tableRead r (r.reg ra) with
      | none => s.trap k fr r { cause := trTable, word := w }
      | some t =>
        if s.readable (s.coreAgent k) t.line then s.loadWord k fr rd r t.value x.bad
        else (s.localRead (s.coreAgent k) t.line).stallRun k fr r (.read t.line rd (r.reg ra))

/-- Writing word i of line j of a descriptor. -/
def setWord (ls : List Line) (j i : Nat) (v : Word) : List Line := ls.set j ((lineOf ls j).set i v)

/-- The descriptor word that TST writes: handle, line and word. -/
def State.tableTarget (r : Run) (a : Word) : Option (Handle × Nat × Nat) :=
  if fld a 63 60 ≠ 0 ∨ fld a 59 48 ≠ 0 ∨ fld a 39 11 ≠ 0 ∨ fld a 2 0 ≠ 0 then none
  else match r.handle (fld a 47 40) with
    | some h => if h.lines.length ≤ fld a 10 6 then none else some (h, fld a 10 6, fld a 5 3)
    | none => none

/-- A handle's descriptor takes a word. -/
def Run.putWord (r : Run) (h j i : Nat) (v : Word) : Run :=
  { r with handles := r.handles.map fun x =>
      if x.num = h then { x with lines := setWord x.lines j i v } else x }

/-- TST: the core stalls until the line is held writable; the handle's descriptor takes the word, and an
issue already made does not change (R228).
Log 84 (DEDUCED, unsafe). -/
def execTst (k rd ra rb : Nat) (s : State) : Host.Outcome State Fault Refusal :=
  ok (isCore k ∧ areRegs rd ra rb) <| s.when (s.coreOn k) fun s =>
    let w := encReg 0x10 rd ra rb 1
    s.coreInstr k w fun s fr r =>
      match State.tableTarget r (r.reg ra) with
      | none => s.trap k fr r { cause := trTable, word := w }
      | some (h, j, i) =>
        let a := s.coreAgent k
        let l := descLine h.slot j
        let t := s.localWrite a l
        if s.writable a l then t.doneRun k fr (r.putWord h.num j i (r.reg rb))
        else t.stallRun k fr r (.write l h.num j i (r.reg rb))

/-! ## Address streams (R237) -/

/-- The port that a register names, if the run's CALL has it bound, or had it bound to an issue that
ended without commit.
Log 103 (DESIGN CHOICE, unsafe). -/
def State.runPort (s : State) (k : Nat) (r : Run) (ra : Nat) : Option (Nat × Port) :=
  let i := (r.reg ra).toNat
  if 4 ≤ i then none
  else match Tbl.get none (s.core k).ports i with
    | some p => if p.call = r.call then some (i, p) else none
    | none => none

/-- SBIND's conditions on the issue. -/
def bindable (d : Node) : Bool :=
  !d.started && (hOp d.lines == opStart || hOp d.lines == opCfgstart) &&
  (d.kind == 2 || (d.kind == 1 && fNoscale d.lines)) && hRepeat d.lines == 1

/-- SBIND: the port is free, or bound to nothing that lives; the issue has not started.
Log 103 (DESIGN CHOICE, unsafe). -/
def execSbind (k rd ra rb : Nat) (s : State) : Host.Outcome State Fault Refusal :=
  ok (isCore k ∧ areRegs rd ra rb) <| s.when (s.coreOn k) fun s =>
    let w := encReg 0x11 rd ra rb 0
    s.coreInstr k w fun s fr r =>
      let i := (r.reg ra).toNat
      let free := match Tbl.get none (s.core k).ports i with
        | none => true
        | some p => p.dead
      let issue := match r.handle (r.reg rb).toNat with
        | some h => match s.issueNode r.call h.issue with
          | some (_, d) => if bindable d then some h.issue else none
          | none => none
        | none => none
      match issue with
      | some x =>
        if i < 4 ∧ free = true then
          (s.setPort k i (some { call := r.call, bound := some x, started := false, prefill := []
                                 credits := 256, line := [], ended := false, dead := false })).doneRun k fr
            (s.acted r w)
        else s.trap k fr r { cause := trStream, word := w }
      | none => s.trap k fr r { cause := trStream, word := w }

/-- An entry, or the end marker, goes to a port: into the prefill, or for a credit into the line that
gathers; none when it must wait. -/
def Port.push (p : Port) (e : Option Word) : Option Port :=
  if p.dead then some p
  else if p.started then
    if p.credits = 0 then none
    else some { p with credits := p.credits - 1, line := p.line ++ [e], ended := e.isNone }
  else if 32 ≤ p.prefill.length then none
  else some { p with prefill := p.prefill ++ [e], ended := e.isNone }

/-- SPUSH or SEND: a line of 8 entries is sent, and SEND sends a partial one. -/
def State.pushStep (s : State) (k rd ra rb fn : Nat) (e : Run → Option Word) : State :=
  let w := encReg 0x11 rd ra rb fn
  s.coreInstr k w fun s fr r =>
    match s.runPort k r ra with
    | none => s.trap k fr r { cause := trStream, word := w }
    | some (i, p) =>
      if p.ended then s.trap k fr r { cause := trStream, word := w }
      else match p.push (e r) with
        | none => s.blockRun k fr r (.credit i)
        | some q =>
          let s := s.setPort k i (some q)
          let s := if 8 ≤ q.line.length ∨ q.ended = true then s.flushLine k i else s
          s.doneRun k fr (s.acted r w)

def execSpush (k rd ra rb : Nat) (s : State) : Host.Outcome State Fault Refusal :=
  ok (isCore k ∧ areRegs rd ra rb) <| s.when (s.coreOn k) fun s =>
    s.pushStep k rd ra rb 1 fun r => some (r.reg rb)

def execSend (k rd ra rb : Nat) (s : State) : Host.Outcome State Fault Refusal :=
  ok (isCore k ∧ areRegs rd ra rb) <| s.when (s.coreOn k) fun s =>
    s.pushStep k rd ra rb 2 fun _ => none

/-- SCRED: the room of the prefill before the start, the credits after it. How many pushes a port
accepts whose issue has ended without commit is an open value.
Log 42 (DESIGN CHOICE, safe). -/
def execScred (k rd ra rb : Nat) (s : State) : Host.Outcome State Fault Refusal :=
  ok (isCore k ∧ areRegs rd ra rb) <| s.when (s.coreOn k) fun s =>
    let w := encReg 0x11 rd ra rb 3
    s.coreInstr k w fun s fr r =>
      match s.runPort k r ra with
      | none => s.trap k fr r { cause := trStream, word := w }
      | some (_, p) =>
        if p.ended then s.doneRun k fr (r.setReg rd 0)
        else if p.dead then s.useFree.doneRun k fr (r.setReg rd s.freeNow)
        else if p.started then s.doneRun k fr (r.setReg rd (BitVec.ofNat 64 p.credits))
        else s.doneRun k fr (r.setReg rd (BitVec.ofNat 64 (32 - p.prefill.length)))

/-- STREAM_LINE_TIMEOUT: the partial line of a port of the run in frame fr is sent. -/
def execStreamLineTimeout (k fr port : Nat) (s : State) : Host.Outcome State Fault Refusal :=
  ok (isCore k ∧ isFrame fr ∧ port < 4) <| s.when (s.coreOn k) fun s =>
    match s.runAt k fr, Tbl.get none (s.core k).ports port with
    | some r, some p => if p.call = r.call ∧ p.ended = false then s.flushLine k port else s
    | _, _ => s

/-- A credit returns to port j of core k. It goes to an end marker that waits for one, which then leaves. -/
def State.returnCredit (s : State) (k j : Nat) (p : Port) : State :=
  if p.ended && !p.line.isEmpty then s.flushLine k j
  else (s.setPort k j (some { p with credits := p.credits + 1 })).wakeCredit k j

/-- STREAM_CREDIT_RETURN: the engine of furrow f pops an entry of its stream. A pop of a run without a
stream, or of one with every credit returned, violates the engine port's protocol; one of an older generation is dropped
(R290).
Log 14 (DEDUCED, unsafe). -/
def execStreamCreditReturn (p : PortReport) (s : State) : Host.Outcome State Fault Refusal :=
  let f := p.furrow
  ok (isFurrow f) <| s.when s.working fun s =>
    s.reportFor f p.stamp fun run => match s.runNode run with
      | none => s
      | some d => match d.child with
        | none => s.portViolation f
        | some (call, i) => match s.portOf call i with
          | none => s.portViolation f
          | some (j, p) =>
            if p.started = true ∧ p.credits < 256 then s.returnCredit (s.callCore call) j p
            else s.portViolation f

/-! ## Children (R231-R235) -/

/-- Opcodes of children (R232). -/
def childOp (o : Nat) : Bool :=
  [opNop, opStart, opCfgstart, opWait, opSignal, opStile, opFanout, opMasked, opCombine, opMeasure].contains o

/-- What a child breaks, as the position that DETAIL names (R231, R232): FMT and the opcode first, as the
steps of R63 come, then the lowest of the others. -/
def State.childErrors (s : State) (r : Run) (seq : Word) (ls : List Line) : Option Nat :=
  if hFmt ls ≠ 1 then some 0
  else if !childOp (hOp ls) then some 4
  else lowestPos (named 0 0 12 (hLen ls + 1 != ls.length) ++ named 0 1 16 (fChain ls) ++
    named 0 1 18 (fCommitwait ls) ++ formatErrors s r.queue r.ctx seq ls)

/-- A handle field of RA or RB: live, or for RB zero. -/
def Run.pred (r : Run) (rb : Nat) : Option (Option Handle) :=
  if r.reg rb = 0 then some none
  else match r.handle (r.reg rb).toNat with
    | some h => some (some h)
    | none => none

/-- The edge to the latest issue of a predecessor (R231). -/
def predEdge (h : Handle) : Edge where
  target := .issue h.issue
  st := match h.res with
    | some res => .done (res.2 == 0)
    | none => .open

/-- The child of an issue (R233). -/
def State.childNode (s : State) (r : Run) (d : Node) (ls cfg : List Line) (pred : Option Handle) : Node :=
  { queue := r.queue, seq := d.seq, child := some (r.call, s.nextIssue), half := d.half, ctx := r.ctx
    gen := r.gen, prio := r.prio, fmt := 1, tag := hTag ls, lines := ls, cfg := cfg, phase := .held
    edges := s.edgesOf d.half r.queue d.seq.toNat ls ++ (match pred with
      | some h => [predEdge h]
      | none => [])
    chained := false, chainEarly := false, order := s.stamp, relOrder := 0
    timer := s.newTimer r.queue, started := false, tokenTaken := false, iter := 0, furrow := none
    acc32 := false, satRecorded := false, outexp := none, scaled := false, fold := {}
    preempted := 0, aborted := false, plan := [], members := [], reading := 0, coreNo := 0
    runsDone := 0, final := none }

/-- Issuing a descriptor under a handle: the child takes a node slot with its lines, those of the handle's issue before
are freed, and the run goes on. -/
def State.issue (s : State) (k fr rd : Nat) (r : Run) (d : Node) (n num : Nat) (ls cfg : List Line)
    (pred : Option Handle) : State :=
  let c := s.childNode r d ls cfg pred
  let h : Handle := { num := num, slot := n, lines := ls, cfg := cfg, issue := s.nextIssue, res := none }
  let old := r.handles.filter fun x => x.num == num
  let r' : Run := { r with handles := (r.handles.filter fun x => x.num != num) ++ [h] }
  let s := ({ s with nextIssue := s.nextIssue + 1 }.setNode n (some c)).tickStamp
  let s := (s.allocLines n ls.length).restartTimer r.call
  old.foldl State.letGo (s.doneRun k fr (r'.setReg rd (BitVec.ofNat 64 num)))

/-- The lowest handle that is free, 1-255.
Log 18 (DESIGN CHOICE, unsafe). -/
def Run.freeHandle (r : Run) : Option Nat :=
  ((List.range 255).map (· + 1)).find? fun i => !r.handles.any fun h => h.num == i

/-- Lines of a sheaf image in the frame, or why reading it traps. -/
def Run.imageAt (r : Run) (a : Nat) : Nat × List Line :=
  if 0x7E00 ≤ a then (trDmem, [])
  else if a % 64 ≠ 0 then (trMisalign, [])
  else
    let n := fld (wd (Memory.line r.mem a) 0) 16 12 + 1
    if 0x7E00 < a + 64 * n then (trDmem, []) else (0, Memory.lines r.mem a n)

/-- EMIT (R231, R232, R234). A run that must wait executes it again when it can have what it waits for.
Log 107 (DESIGN CHOICE, unsafe). -/
def execEmit (k rd ra rb : Nat) (s : State) : Host.Outcome State Fault Refusal :=
  ok (isCore k ∧ areRegs rd ra rb) <| s.when (s.coreOn k) fun s =>
    let w := encReg 0x12 rd ra rb 0
    s.coreInstr k w fun s fr r =>
      match s.node r.call, r.pred rb, r.imageAt (r.reg ra).toNat with
      | none, _, _ => s
      | some _, none, _ => s.trap k fr r { cause := trHandle, word := w }
      | some d, some pred, (0, ls) =>
        match s.childErrors r d.seq ls with
        | some p =>
          s.trap k fr r { cause := trEmit, word := w, detail := formatDetail (p / 512) (p % 512) }
        | none =>
          match s.mayIssue r ls.length, r.freeHandle, s.freeSlot (halfOfQueue r.queue) with
          | true, some h, some n =>
            let cfg := if hOp ls = opStart then (s.queue r.queue).config else []
            s.issue k fr rd (s.acted r w) d n h ls cfg pred
          | _, _, _ => s.blockRun k fr r (.nodeSlot ls.length)
      | some _, some _, (c, _) => s.trap k fr r { cause := c, word := w }

/-- REEMIT: waits for the latest issue, then issues the descriptor as it now stands (R228, R231).
Log 43 (DEDUCED, unsafe). -/
def execReemit (k rd ra rb : Nat) (s : State) : Host.Outcome State Fault Refusal :=
  ok (isCore k ∧ areRegs rd ra rb) <| s.when (s.coreOn k) fun s =>
    let w := encReg 0x12 rd ra rb 1
    s.coreInstr k w fun s fr r =>
      match s.node r.call, r.handle (r.reg ra).toNat, r.pred rb with
      | some d, some h, some pred =>
        if h.res.isNone then s.blockRun k fr r (.reissue h.num)
        else match s.childErrors r d.seq h.lines with
          | some p =>
            s.trap k fr r { cause := trEmit, word := w, detail := formatDetail (p / 512) (p % 512) }
          | none =>
            match s.mayIssue r h.lines.length, s.freeSlot (halfOfQueue r.queue) with
            | true, some n => s.issue k fr rd (s.acted r w) d n h.num h.lines h.cfg pred
            | _, _ => s.blockRun k fr r (.nodeSlot h.lines.length)
      | none, _, _ => s
      | _, _, _ => s.trap k fr r { cause := trHandle, word := w }

/-- An instruction on a live handle in RA; any other traps. -/
def State.handleStep (s : State) (k rd ra rb fn : Nat) (f : State → Nat → Run → Handle → State) : State :=
  let w := encReg 0x12 rd ra rb fn
  s.coreInstr k w fun s fr r =>
    match r.handle (r.reg ra).toNat with
    | some h => f s fr r h
    | none => s.trap k fr r { cause := trHandle, word := w }

/-- CWAIT: STATUS and EXECUTED of the latest issue, once it has retired. -/
def execCwait (k rd ra rb : Nat) (s : State) : Host.Outcome State Fault Refusal :=
  ok (isCore k ∧ areRegs rd ra rb) <| s.when (s.coreOn k) fun s =>
    s.handleStep k rd ra rb 2 fun s fr r h => match h.res with
      | some res => s.doneRun k fr (r.setReg rd (issueWord res))
      | none => s.blockRun k fr r.next (.cwait h.num rd)

/-- DROP: the handle is freed, and its issue continues. -/
def execDrop (k rd ra rb : Nat) (s : State) : Host.Outcome State Fault Refusal :=
  ok (isCore k ∧ areRegs rd ra rb) <| s.when (s.coreOn k) fun s =>
    s.handleStep k rd ra rb 3 fun s fr r h =>
      (s.doneRun k fr { r with handles := r.handles.filter fun x => x.num != h.num }).letGo h

/-- CPOLL: as CWAIT without blocking; an issue that has not retired gives 0x8000_0000_0000_0000. -/
def execCpoll (k rd ra rb : Nat) (s : State) : Host.Outcome State Fault Refusal :=
  ok (isCore k ∧ areRegs rd ra rb) <| s.when (s.coreOn k) fun s =>
    s.handleStep k rd ra rb 4 fun s fr r h =>
      s.doneRun k fr (r.setReg rd (match h.res with
        | some res => issueWord res
        | none => 0x8000000000000000))

/-! ## Hive instructions (R236) -/

/-- The run as an actor. -/
def runActor (k fr rd : Nat) (r : Run) (d : Node) : Actor where
  owner := .run k fr rd
  ctx := r.ctx
  gen := r.gen
  queue := r.queue
  tag := d.tag
  src := 0x300 + k
  half := d.half

/-- A HIVE instruction that the hive has answered. -/
def State.hiveAnswer (s : State) (k fr rd : Nat) (r : Run) (n : Nat) (d : Node) (src obj : Nat)
    (e : HiveEnd) : State :=
  match e with
  | .done => s.doneRun k fr (r.setReg rd 0)
  | .waits => s.blockRun k fr r.next .hive
  | .blocked =>
    (s.raise (callBlocked src d)).doneRun k fr (r.setReg rd 0x17)
  | .misuse why => (s.endRun k fr).misuseEnd n d src obj why
  | .peerLost => (s.endRun k fr).peerLostEnd n d src (peerDetail 0x3FFF 0 1)

/-- A HIVE instruction: OBJREF in RA bits 31:0, operand or round in RB. The result of an operation on an
object of a lost half is an open value, and nothing else happens.
Log 42 (DESIGN CHOICE, safe), 106 (DESIGN CHOICE, unsafe). -/
def State.hiveStep (s : State) (c : Instr) (k rd ra rb fn : Nat) (op : HiveOp) : State :=
  let w := encReg 0x13 rd ra rb fn
  s.coreInstr k w fun s fr r =>
    match s.node r.call with
    | none => s
    | some d =>
      let a := r.reg ra
      if fld a 63 32 ≠ 0 then s.trap k fr r { cause := trOperand, word := w }
      else
        let ref := fld a 31 0
        let obj := refObj ref
        if s.chipLocal r.ctx (refChip ref) && !s.inService (halfOfObj obj) then
          s.useFree.doneRun k fr (r.setReg rd s.freeNow)
        else
          let v := r.reg rb
          let act := runActor k fr rd r d
          let r := s.acted r w
          s.withLines (s.opNeeds act op ref) (·.park c) fun s =>
            let t := s.hiveOp act op ref (fld v 15 0) v
            let u := t.1.hiveAnswer k fr rd r r.call d (s.hiveSource act ref) obj t.2.1
            if t.2.2 then u.wakeWaiters obj else u

def execHadd (k rd ra rb : Nat) (s : State) : Host.Outcome State Fault Refusal :=
  ok (isCore k ∧ areRegs rd ra rb) <| s.when (s.coreOn k) fun s =>
    s.hiveStep (.hadd k rd ra rb) k rd ra rb 0 (.signal 0)

def execHset (k rd ra rb : Nat) (s : State) : Host.Outcome State Fault Refusal :=
  ok (isCore k ∧ areRegs rd ra rb) <| s.when (s.coreOn k) fun s =>
    s.hiveStep (.hset k rd ra rb) k rd ra rb 1 (.signal 1)

def execHor (k rd ra rb : Nat) (s : State) : Host.Outcome State Fault Refusal :=
  ok (isCore k ∧ areRegs rd ra rb) <| s.when (s.coreOn k) fun s =>
    s.hiveStep (.hor k rd ra rb) k rd ra rb 2 (.signal 2)

/-- HWAIT with comparison FN − 8. -/
def execHwait (k cmp rd ra rb : Nat) (s : State) : Host.Outcome State Fault Refusal :=
  ok (isCore k ∧ areRegs rd ra rb ∧ cmp < 6) <| s.when (s.coreOn k) fun s =>
    s.hiveStep (.hwait k cmp rd ra rb) k rd ra rb (8 + cmp) (.wait cmp)

def execHarrive (k rd ra rb : Nat) (s : State) : Host.Outcome State Fault Refusal :=
  ok (isCore k ∧ areRegs rd ra rb) <| s.when (s.coreOn k) fun s =>
    s.hiveStep (.harrive k rd ra rb) k rd ra rb 16 .arrive

def execHarrivenw (k rd ra rb : Nat) (s : State) : Host.Outcome State Fault Refusal :=
  ok (isCore k ∧ areRegs rd ra rb) <| s.when (s.coreOn k) fun s =>
    s.hiveStep (.harrivenw k rd ra rb) k rd ra rb 17 .nowait

/-! ## SYS (R219, R238) -/

/-- A SYS function. -/
def State.sysStep (s : State) (k rd ra rb fn : Nat) (f : State → Nat → Run → State) : State :=
  s.coreInstr k (encReg 0x3F rd ra rb fn) f

/-- EXIT (R216). -/
def execExit (k rd ra rb : Nat) (s : State) : Host.Outcome State Fault Refusal :=
  ok (isCore k ∧ areRegs rd ra rb) <| s.when (s.coreOn k) fun s =>
    s.sysStep k rd ra rb 0 fun s fr r => s.exitRun k fr r

/-- SYS TRAP: cause ROUTINE, code in RA. -/
def execSysTrap (k rd ra rb : Nat) (s : State) : Host.Outcome State Fault Refusal :=
  ok (isCore k ∧ areRegs rd ra rb) <| s.when (s.coreOn k) fun s =>
    s.sysStep k rd ra rb 1 fun s fr r =>
      s.trap k fr r { cause := trRoutine, word := encReg 0x3F rd ra rb 1, ra := fld (r.reg ra) 31 0 }

/-- YIELD: the core switches to the next other ready run, and this one is ready behind it; with no other
it goes on. -/
def execYield (k rd ra rb : Nat) (s : State) : Host.Outcome State Fault Refusal :=
  ok (isCore k ∧ areRegs rd ra rb) <| s.when (s.coreOn k) fun s =>
    s.sysStep k rd ra rb 2 fun s fr r =>
      let s := (s.setRun k fr { r.next with readyAt := s.stamp }).tickStamp.leaveCore k
      match s.nextRun k fun x => decide (x.st = .ready) && decide (x.call ≠ r.call) with
      | some g => s.makeCurrent k g
      | none => s.makeCurrent k fr

/-- A heartbeat (R352, R362): it arms the monitor, clears MISSES, starts a period and ends the recovery
window. -/
def State.heartbeat (s : State) : State :=
  let r := { s.recov with window := false }
  let beat := { r with
    armed := true, misses := 0, lastBeat := s.usec, beatDue := s.dueIn r.period.toNat }
  { s with recov := if r.mode then beat else r }

/-- SYS HEARTBEAT: the CALL's timer restarts; on a PF kernel queue it counts as a heartbeat. -/
def execSysHeartbeat (k rd ra rb : Nat) (s : State) : Host.Outcome State Fault Refusal :=
  ok (isCore k ∧ areRegs rd ra rb) <| s.when (s.coreOn k) fun s =>
    s.sysStep k rd ra rb 3 fun s fr r =>
      let s := (s.doneRun k fr (s.acted r (encReg 0x3F rd ra rb 3))).restartTimer r.call
      if (s.queue r.queue).kind = .pf then s.heartbeat else s

/-- RUNINFO (R219). -/
def Run.info (r : Run) : Word :=
  word [(52, r.queue), (42, r.ctx), (30, r.gen.toNat), (23, r.slot), (0, r.iter % 2 ^ 16)]

/-- A special register. CYCLE counts control clocks, an open value at the model's grain (log 3).
Log 3 (DESIGN CHOICE, unsafe), 42 (DESIGN CHOICE, safe). -/
def State.special (s : State) (k : Nat) (r : Run) (i : Nat) : Word :=
  match i with
  | 0 => match r.loops with
    | l :: _ => l.left
    | [] => r.lc
  | 1 => BitVec.ofNat 64 r.loops.length
  | 2 => s.freeNow
  | 3 => s.usec
  | 4 => r.info
  | _ => BitVec.ofNat 64 k

/-- MFS: RD = special register RB. -/
def execMfs (k rd ra rb : Nat) (s : State) : Host.Outcome State Fault Refusal :=
  ok (isCore k ∧ areRegs rd ra rb) <| s.when (s.coreOn k) fun s =>
    s.sysStep k rd ra rb 4 fun s fr r =>
      (if rb = 2 then s.useFree else s).doneRun k fr (r.setReg rd (s.special k r rb))

/-- MTS: the LC shadow takes RA. -/
def execMts (k rd ra rb : Nat) (s : State) : Host.Outcome State Fault Refusal :=
  ok (isCore k ∧ areRegs rd ra rb) <| s.when (s.coreOn k) fun s =>
    s.sysStep k rd ra rb 5 fun s fr r => s.doneRun k fr { r with lc := r.reg ra }

/-- SYNC: the run blocks until its earlier pushes have been performed (R236); local updates and table stores are
performed in their own steps.
Log 85 (DEDUCED, unsafe). -/
def execSync (k rd ra rb : Nat) (s : State) : Host.Outcome State Fault Refusal :=
  ok (isCore k ∧ areRegs rd ra rb) <| s.when (s.coreOn k) fun s =>
    s.sysStep k rd ra rb 6 fun s fr r =>
      if s.pushesWait k r.call then s.blockRun k fr r .sync else s.doneRun k fr r

/-- SYS TRACE: a routine mark with RA bits 31:0 and the CALL's TAG (R439). -/
def execSysTrace (k rd ra rb : Nat) (s : State) : Host.Outcome State Fault Refusal :=
  ok (isCore k ∧ areRegs rd ra rb) <| s.when (s.coreOn k) fun s =>
    s.sysStep k rd ra rb 7 fun s fr r =>
      let tag : BitVec 32 := match s.node r.call with
        | some d => d.tag
        | none => 0
      (s.traceRec 5 r.queue (some r.ctx) (traceW1 tag (fld (r.reg ra) 31 0))).doneRun k fr
        (s.acted r (encReg 0x3F rd ra rb 7))

end Sys2Proof.Machine
end

