-- ==== Sys2Proof/Machine/Held.lean ====
section
/-! DEFINITION. The ends of a compute reset, of the power-up and of a wake, and the accesses, deliveries and steps
that were held until then, or until a coherent line is granted (R317, R355 step 7, R362, R417, R420, R454). -/

namespace Sys2Proof.Machine

/-- The meaning of an access, of a delivery, or of a step that waits for a coherent line (R317). Only the listed
commands are ever held. -/
def State.redo (s : State) (c : Instr) : Host.Outcome State Fault Refusal :=
  match c with
  | .doorbellWrite fn q w v => execDoorbellWrite fn q w v s
  | .recackWrite fn q w v => execRecackWrite fn q w v s
  | .retiredRead fn q w => execRetiredRead fn q w s
  | .lowHalfRead fn r p => execLowHalfRead fn r p s
  | .latchedDataRead fn r => execLatchedDataRead fn r s
  | .registerWrite o p v => execRegisterWrite o p v s
  | .hiveDebugSelWrite p v => execHiveDebugSelWrite p v s
  | .abortqWrite p v => execAbortqWrite p v s
  | .resetRequest p v => execResetRequest p v s
  | .faultsrcWrite p v => execFaultsrcWrite p v s
  | .groupWrite i p v => execGroupWrite i p v s
  | .fencectlWrite p v => execFencectlWrite p v s
  | .fenceseqWrite p v => execFenceseqWrite p v s
  | .hivepartWrite i p v => execHivepartWrite i p v s
  | .reserveWrite p v => execReserveWrite p v s
  | .hangmodeWrite p v => execHangmodeWrite p v s
  | .vernegOfferWrite p v => execVernegOfferWrite p v s
  | .bootqEnable h p v => execBootqEnable h p v s
  | .clkenWrite p v => execClkenWrite p v s
  | .trimWrite p v => execTrimWrite p v s
  | .breakctlWrite u p v => execBreakctlWrite u p v s
  | .breakResume u => execBreakResume u s
  | .traceClear p v => execTraceClear p v s
  | .flush p v => execFlush p v s
  | .tokenDelivery f x g v r => execTokenDelivery f x g v r s
  | .signalReport f a b d => execSignalReport f a b d s
  | .signalMessage m => execSignalMessage m s
  | .hiveAck m => execHiveAck m s
  | .waitreg m => execWaitreg m s
  | .wake m => execWake m s
  | .cancel m => execCancel m s
  | .tierarrive m => execTierarrive m s
  | .tierrelease m => execTierrelease m s
  | .peerlost m => execPeerlost m s
  | .chipFault m => execChipFault m s
  | .withdraw m => execWithdraw m s
  | .fenceReady m => execFenceReady m s
  | .fenceFall m => execFenceFall m s
  | .fenceAbandon m => execFenceAbandon m s
  | .remoteWriteDrop f x a => execRemoteWriteDrop f x a s
  | .writeAck a => execWriteAck a s
  | .sheafRelease n => execSheafRelease n s
  | .stewardStep n => execStewardStep n s
  | .measureChoice n => execMeasureChoice n s
  | .memberCreate n => execMemberCreate n s
  | .preloadComplete f e => execPreloadComplete f e s
  | .start n => execStart n s
  | .cfgstart n => execCfgstart n s
  | .combine n => execCombine n s
  | .measure n => execMeasure n s
  | .branchObject n => execBranchObject n s
  | .partctlRelease n => execPartctlRelease n s
  | .wait n => execWait n s
  | .signalAdd n => execSignalAdd n s
  | .signalSet n => execSignalSet n s
  | .signalOr n => execSignalOr n s
  | .stileArrive n => execStileArrive n s
  | .stileArriveNowait n => execStileArriveNowait n s
  | .stileInit n => execStileInit n s
  | .stileReset n => execStileReset n s
  | .hadd k d a b => execHadd k d a b s
  | .hset k d a b => execHset k d a b s
  | .hor k d a b => execHor k d a b s
  | .hwait k c d a b => execHwait k c d a b s
  | .harrive k d a b => execHarrive k d a b s
  | .harrivenw k d a b => execHarrivenw k d a b s
  | _ => .next s

/-- A held access or delivery is performed; what counts from its arrival counts from the time given (R379, R454). -/
def State.perform (s : State) (h : Nat × Instr) : State :=
  match State.redo { s with heldFrom := some h.1 } h.2 with
  | .next t => { t with heldFrom := none }
  | _ => s

/-- Everything held is performed in arrival order; what must still wait is held again.
Log 56 (DEDUCED, unsafe). -/
def State.performHeld (s : State) : State :=
  s.heldCmds.foldl State.perform { s with heldCmds := [] }

/-- POWER_UP_COMPLETE: step 5 of R420. A failure that the test of step 3 found is recorded, with its source
(R421); a single-bit error that it found was corrected and raises CORRECTED (R358).
Log 1 (DESIGN CHOICE, safe), 54 (DEDUCED, unsafe). -/
def execPowerUpComplete (x : PowerFindings) (s : State) : Host.Outcome State Fault Refusal :=
  ok ((∀ p ∈ x.failing, sourceListed p = true) ∧ ∀ p ∈ x.corrected, sourceListed p = true) <|
    s.when (decide (s.power = .init)) fun s =>
      let s := { s with
        power := .run
        clocks := { s.clocks with pendfail := x.failing.isSome, failing := x.failing.getD 0 }
        plaliveOn := !s.recov.safe
        aliveDue := s.now + 50
        recov := { s.recov with scanDue := s.now + 20 } }
      (s.testCorrected x.corrected).performHeld

/-- WAKE_COMPLETE, when the wake time has passed (R415, R417). What was held is then performed as a compute
reset or the safe state, which can begin in an idle state (R418), let it.
Log 3 (DESIGN CHOICE, unsafe), 56 (DEDUCED, unsafe). -/
def execWakeComplete (s : State) : Host.Outcome State Fault Refusal :=
  ok True <| s.when (s.clocks.waking && decide (s.clocks.wakeDue ≤ s.now)) fun s =>
    { s with clocks := { s.clocks with idle := .none, waking := false, planned := none } }.performHeld

/-- COMPUTE_RESET_COMPLETE: step 7 of R355. The records of the faults handled close (R339), and the recovery
window begins (R362). Steps that are still to come keep the reset from completing.
Log 16 (DESIGN CHOICE, safe). -/
def execComputeResetComplete (s : State) : Host.Outcome State Fault Refusal :=
  ok True <| s.when (s.recov.inprogress && s.recov.request.isNone && !s.recov.dumping && !s.recov.safe) fun s =>
    (({ s with recov := { s.recov with
        inprogress := false, window := true, windowDue := s.dueIn 50000
        scanDue := s.now + 20 } }.closeRecords fun _ => true).performHeld).sendMsix 0

end Sys2Proof.Machine
end

