-- ==== Sys2Proof/Machine/Lines.lean ====
section
/-! DEFINITION. What arrives at an agent with a line, and completes the access that waits for it (R228, R229, R317,
R326), the messages that carry a line, and those after which a freed descriptor line can be given out again (R234,
R320). -/

namespace Sys2Proof.Machine

/-! ## The access that waits for a line -/

/-- The run that stalls on a line in the cache of an agent: core, frame, run and access. -/
def State.stalledOn (s : State) (a : Nat) (l : CohLine) : Option (Nat × Nat × Run × LineAccess) :=
  (List.range 24).findSome? fun k =>
    if s.coreAgent k = a then match s.currentRun k with
      | some (fr, r) => match r.stall with
        | some x => if x.line = l then some (k, fr, r, x) else none
        | none => none
      | none => none
    else none

/-- The access completes with the grant, before anything that was kept for the line is acted on (R316, R317). What the
address no longer names traps (R228).
Log 11 (DEDUCED, safe). -/
def State.finishAccess (s : State) (a : Nat) (l : CohLine) : State :=
  match s.stalledOn a l with
  | none => s
  | some (k, fr, r, x) =>
    let r := { r with stall := none }
    match x with
    | .read _ rd addr => match s.tableRead r addr with
      | some t => s.doneRun k fr (r.setReg rd t.value)
      | none => s.trap k fr r { cause := trTable, word := (s.fetched r).getD 0 }
    | .write _ h j i v => match r.handle h with
      | some _ => s.doneRun k fr (r.putWord h j i v)
      | none => s.trap k fr r { cause := trTable, word := (s.fetched r).getD 0 }

/-! ## What waits for a line of Pliat's own caches -/

/-- A hive does what it has to of its own accord, or asks for the line again. -/
def State.doWork (s : State) (w : LineWork) : State :=
  match w with
  | .clear n => s.clearHeld n
  | .broken n x g => s.breakHeld x g n

/-- What waits for lines of the hive caches and descriptor caches is tried again, in order.
Log 83 (DESIGN CHOICE, safe). -/
def State.resume (s : State) : State :=
  (s.lineWork.foldl State.doWork { s.askReads with lineWork := [] }).performHeld

/-- What an agent does with a line that it has been granted, before anything that was kept for the line is acted on: a
control core completes its access, another cache the reads and what waited for the line (R316, R317). -/
def State.atGrant (s : State) (a : Nat) (l : CohLine) : State :=
  if a < 2 then (s.lineRead l).resume else if a < 4 then s.resume else s.finishAccess a l

/-! ## Grants -/

/-- The storage word that a word of a line belongs to. Which slot of a SCALE line it is is open.
Log 17 (DESIGN CHOICE, safe). -/
def State.lineStorage (s : State) (l : CohLine) : Storage :=
  match l.table with
  | .desc => .descriptor (l.index / 32) (l.index % 32)
  | .hive => .hiveLine l.index
  | .scale => .scaleSlot (4 * l.index + s.freeNow.toNat % 4)
  | .queue => .queueContext (l.index / 8)

/-- DATA reaches the agent; a storage access for it has then ended. A single-bit error in the line is corrected and
reported; with an uncorrectable one the access is not performed, and the error is attributed to the owners of the line
(R39, R40, R326). -/
def execData (a : Nat) (x : LineData) (s : State) : Host.Outcome State Fault Refusal :=
  let l := x.line
  ok (isAgent a ∧ isLine l) <| s.when (s.coherent a l) fun s =>
    (s.finishFetch l).deliver (fun m => m.dst == a && m.line == l && m.kind.grant.isSome) fun s m =>
      match m.kind with
      | .data g => match x.bad with
        | none => s.dataArrives a l g fun s => s.atGrant a l
        | some x =>
          let w := s.lineStorage l
          if x.unc then
            let t := ((s.useFree.dataArrives a l g id).useFree).uncorrectable w (foundInfo x) s.useFree.freeNow
            if a < 4 then t.resume else t
          else (s.useFree.dataArrives a l g fun s => s.atGrant a l).corrected (storageSource w) x
      | _ => s

/-- GNT reaches the agent. -/
def execGnt (a : Nat) (l : CohLine) (s : State) : Host.Outcome State Fault Refusal :=
  ok (isAgent a ∧ isLine l) <| s.when (s.coherent a l) fun s =>
    s.deliver (fun m => m.dst == a && m.line == l && m.kind == .gnt) fun s _ =>
      if (s.aline a l).st = .sm then s.granted a l .m fun s => s.atGrant a l else s

/-! ## The ends of transactions -/

/-- ACK reaches the home. -/
def execCoherenceAck (a : Nat) (l : CohLine) (s : State) : Host.Outcome State Fault Refusal :=
  ok (isAgent a ∧ isLine l) <| s.when (s.coherent a l) fun s =>
    s.deliver (fun m => m.src == a && m.line == l && m.kind == .ack) fun s m => (s.ackArrives m).wakeIssuers

/-- A FACK at the home: the directory follows the forward and the transaction ends (R318). -/
def State.fackArrives (s : State) (a : Nat) (l : CohLine) : State :=
  match (s.dir l).txn with
  | some (.forward r true _) => (s.setDir l ((s.dir l).drop r)).endTxn l (.x r)
  | some (.forward r false _) => (s.setDir l ((s.dir l).drop r)).endTxn l (.s (insertSharer [a] r))
  | _ => s

/-- A WBACK at the agent, which drops its retained line. -/
def State.wbackArrives (s : State) (a : Nat) (l : CohLine) : State :=
  match (s.aline a l).st with
  | .ei | .mi => s.setAline a l { s.aline a l with st := .i }
  | _ => s

/-- The line that a message carries to its home: a single-bit error in it is corrected and reported, an uncorrectable
one is attributed to the owners of the line (R39, R40, R326). -/
def State.carried (s : State) (l : CohLine) (bad : Option Found) : State :=
  match bad with
  | none => s
  | some x =>
    let w := s.lineStorage l
    if x.unc then s.useFree.useFree.uncorrectable w (foundInfo x) s.useFree.freeNow
    else s.useFree.corrected (storageSource w) x

/-- WBD reaches the home. -/
def execWbd (a : Nat) (h : LineBack) (s : State) : Host.Outcome State Fault Refusal :=
  ok (isAgent a ∧ isLine h.line) <|
    s.when (s.coherent a h.line && s.takesIn (lineHome h.line) (intakeRank a true) h.same) fun s =>
      s.deliver (fun m => m.src == a && m.line == h.line && m.kind == .wbd) fun s m =>
        s.lookup h.line h.bad fun s => (s.writeBack m).carried h.line h.data

/-- FACK reaches the home, with the line where the owner held it in M (R311, R318). -/
def execFack (a : Nat) (x : LineData) (s : State) : Host.Outcome State Fault Refusal :=
  let l := x.line
  ok (isAgent a ∧ isLine l) <| s.when (s.coherent a l) fun s =>
    s.deliver (fun m => m.src == a && m.line == l && (m.kind == .fack true || m.kind == .fack false))
      fun s m => ((s.fackArrives a l).carried l (if m.kind = .fack true then x.bad else none)).wakeIssuers

/-- WBACK reaches the agent; the storage write before it has ended. -/
def execWback (a : Nat) (l : CohLine) (s : State) : Host.Outcome State Fault Refusal :=
  ok (isAgent a ∧ isLine l) <| s.when (s.coherent a l) fun s =>
    (s.finishStore l).wakeIssuers.deliver (fun m => m.dst == a && m.line == l && m.kind == .wback) fun s _ =>
      let t := (s.wbackArrives a l).wakeIssuers
      if a < 4 then t.resume else t

end Sys2Proof.Machine
end

