-- ==== Sys2Proof/Machine/Dispatch.lean ====
section
/-! DEFINITION. The dispatch of commands to their meanings: one arm per row of the table. -/

namespace Sys2Proof.Machine

def exec (i : Instr) (s : State) : Host.Outcome State Fault Refusal :=
  match i with
  | .doorbellWrite fn q wide v => Sys2Proof.Machine.execDoorbellWrite fn q wide v s
  | .recackWrite fn q wide v => Sys2Proof.Machine.execRecackWrite fn q wide v s
  | .retiredRead fn q wide => Sys2Proof.Machine.execRetiredRead fn q wide s
  | .lowHalfRead fn r part => Sys2Proof.Machine.execLowHalfRead fn r part s
  | .tailRead q => Sys2Proof.Machine.execTailRead q s
  | .fetchGrant h => Sys2Proof.Machine.execFetchGrant h s
  | .ringFetchComplete q a => Sys2Proof.Machine.execRingFetchComplete q a s
  | .edgeRegistration n idx => Sys2Proof.Machine.execEdgeRegistration n idx s
  | .retireNotice q seq => Sys2Proof.Machine.execRetireNotice q seq s
  | .sheafRelease n => Sys2Proof.Machine.execSheafRelease n s
  | .stewardStep n => Sys2Proof.Machine.execStewardStep n s
  | .scaleRecord => Sys2Proof.Machine.execScaleRecord s
  | .measureChoice n => Sys2Proof.Machine.execMeasureChoice n s
  | .tableReadComplete n a => Sys2Proof.Machine.execTableReadComplete n a s
  | .memberCreate n => Sys2Proof.Machine.execMemberCreate n s
  | .furrowAdmit f => Sys2Proof.Machine.execFurrowAdmit f s
  | .arbiterGrant f => Sys2Proof.Machine.execArbiterGrant f s
  | .preloadComplete f err => Sys2Proof.Machine.execPreloadComplete f err s
  | .engineStart f => Sys2Proof.Machine.execEngineStart f s
  | .commitHandshake f rep => Sys2Proof.Machine.execCommitHandshake f rep s
  | .commitReport n => Sys2Proof.Machine.execCommitReport n s
  | .progressReport p => Sys2Proof.Machine.execProgressReport p s
  | .saturationHandshake p => Sys2Proof.Machine.execSaturationHandshake p s
  | .abortHandshake f rep => Sys2Proof.Machine.execAbortHandshake f rep s
  | .tokenDelivery f c g v remote => Sys2Proof.Machine.execTokenDelivery f c g v remote s
  | .cycleBudgetExpiry q => Sys2Proof.Machine.execCycleBudgetExpiry q s
  | .preempt f => Sys2Proof.Machine.execPreempt f s
  | .lendMark core => Sys2Proof.Machine.execLendMark core s
  | .queueTimeout n => Sys2Proof.Machine.execQueueTimeout n s
  | .nop n => Sys2Proof.Machine.execNop n s
  | .config q => Sys2Proof.Machine.execConfig q s
  | .start n => Sys2Proof.Machine.execStart n s
  | .cfgstart n => Sys2Proof.Machine.execCfgstart n s
  | .call n => Sys2Proof.Machine.execCall n s
  | .wait n => Sys2Proof.Machine.execWait n s
  | .signalAdd n => Sys2Proof.Machine.execSignalAdd n s
  | .signalSet n => Sys2Proof.Machine.execSignalSet n s
  | .signalOr n => Sys2Proof.Machine.execSignalOr n s
  | .stileArrive n => Sys2Proof.Machine.execStileArrive n s
  | .stileArriveNowait n => Sys2Proof.Machine.execStileArriveNowait n s
  | .stileInit n => Sys2Proof.Machine.execStileInit n s
  | .stileReset n => Sys2Proof.Machine.execStileReset n s
  | .fanout n => Sys2Proof.Machine.execFanout n s
  | .masked n => Sys2Proof.Machine.execMasked n s
  | .branchDeadline n => Sys2Proof.Machine.execBranchDeadline n s
  | .deadlineEvaluation n => Sys2Proof.Machine.execDeadlineEvaluation n s
  | .branchObject n => Sys2Proof.Machine.execBranchObject n s
  | .combine n => Sys2Proof.Machine.execCombine n s
  | .measure n => Sys2Proof.Machine.execMeasure n s
  | .fenceQueue n => Sys2Proof.Machine.execFenceQueue n s
  | .fenceStep n => Sys2Proof.Machine.execFenceStep n s
  | .qctlCreate n => Sys2Proof.Machine.execQctlCreate n s
  | .qctlDestroy n => Sys2Proof.Machine.execQctlDestroy n s
  | .qctlRestart n => Sys2Proof.Machine.execQctlRestart n s
  | .ctxctlCreate n => Sys2Proof.Machine.execCtxctlCreate n s
  | .ctxctlTeardown n => Sys2Proof.Machine.execCtxctlTeardown n s
  | .ctxctlSetwindows n => Sys2Proof.Machine.execCtxctlSetwindows n s
  | .ctxctlReadacct n => Sys2Proof.Machine.execCtxctlReadacct n s
  | .windowCheckersLoaded n => Sys2Proof.Machine.execWindowCheckersLoaded n s
  | .loadroutine n => Sys2Proof.Machine.execLoadroutine n s
  | .routineImageRead n a => Sys2Proof.Machine.execRoutineImageRead n a s
  | .tallyWrite n => Sys2Proof.Machine.execTallyWrite n s
  | .tallyWriteNotify n => Sys2Proof.Machine.execTallyWriteNotify n s
  | .tallyReadCompletion n a => Sys2Proof.Machine.execTallyReadCompletion n a s
  | .partctlDefine n => Sys2Proof.Machine.execPartctlDefine n s
  | .partctlRelease n => Sys2Proof.Machine.execPartctlRelease n s
  | .faultctlThreshold n => Sys2Proof.Machine.execFaultctlThreshold n s
  | .faultctlAcklog n => Sys2Proof.Machine.execFaultctlAcklog n s
  | .runStart k => Sys2Proof.Machine.execRunStart k s
  | .frameClearComplete k fr => Sys2Proof.Machine.execFrameClearComplete k fr s
  | .quantumExpiry k => Sys2Proof.Machine.execQuantumExpiry k s
  | .add k rd ra rb => Sys2Proof.Machine.execAdd k rd ra rb s
  | .sub k rd ra rb => Sys2Proof.Machine.execSub k rd ra rb s
  | .and k rd ra rb => Sys2Proof.Machine.execAnd k rd ra rb s
  | .or k rd ra rb => Sys2Proof.Machine.execOr k rd ra rb s
  | .xor k rd ra rb => Sys2Proof.Machine.execXor k rd ra rb s
  | .sll k rd ra rb => Sys2Proof.Machine.execSll k rd ra rb s
  | .srl k rd ra rb => Sys2Proof.Machine.execSrl k rd ra rb s
  | .sra k rd ra rb => Sys2Proof.Machine.execSra k rd ra rb s
  | .mul k rd ra rb => Sys2Proof.Machine.execMul k rd ra rb s
  | .mulhu k rd ra rb => Sys2Proof.Machine.execMulhu k rd ra rb s
  | .slt k rd ra rb => Sys2Proof.Machine.execSlt k rd ra rb s
  | .sltu k rd ra rb => Sys2Proof.Machine.execSltu k rd ra rb s
  | .min k rd ra rb => Sys2Proof.Machine.execMin k rd ra rb s
  | .max k rd ra rb => Sys2Proof.Machine.execMax k rd ra rb s
  | .minu k rd ra rb => Sys2Proof.Machine.execMinu k rd ra rb s
  | .maxu k rd ra rb => Sys2Proof.Machine.execMaxu k rd ra rb s
  | .clz k rd ra rb => Sys2Proof.Machine.execClz k rd ra rb s
  | .popc k rd ra rb => Sys2Proof.Machine.execPopc k rd ra rb s
  | .addi k rd ra imm => Sys2Proof.Machine.execAddi k rd ra imm s
  | .andi k rd ra imm => Sys2Proof.Machine.execAndi k rd ra imm s
  | .ori k rd ra imm => Sys2Proof.Machine.execOri k rd ra imm s
  | .xori k rd ra imm => Sys2Proof.Machine.execXori k rd ra imm s
  | .shifti k rd ra imm => Sys2Proof.Machine.execShifti k rd ra imm s
  | .lui k rd ra imm => Sys2Proof.Machine.execLui k rd ra imm s
  | .shori k rd ra imm => Sys2Proof.Machine.execShori k rd ra imm s
  | .ld k rd ra imm => Sys2Proof.Machine.execLd k rd ra imm s
  | .lw k rd ra imm => Sys2Proof.Machine.execLw k rd ra imm s
  | .lb k rd ra imm => Sys2Proof.Machine.execLb k rd ra imm s
  | .st k rd ra imm => Sys2Proof.Machine.execSt k rd ra imm s
  | .sw k rd ra imm => Sys2Proof.Machine.execSw k rd ra imm s
  | .sb k rd ra imm => Sys2Proof.Machine.execSb k rd ra imm s
  | .mfill k rd ra rb lines => Sys2Proof.Machine.execMfill k rd ra rb lines s
  | .mdrain k rd ra rb lines => Sys2Proof.Machine.execMdrain k rd ra rb lines s
  | .blockTransferComplete k fr a => Sys2Proof.Machine.execBlockTransferComplete k fr a s
  | .tld k rd ra rb => Sys2Proof.Machine.execTld k rd ra rb s
  | .tst k rd ra rb => Sys2Proof.Machine.execTst k rd ra rb s
  | .sbind k rd ra rb => Sys2Proof.Machine.execSbind k rd ra rb s
  | .spush k rd ra rb => Sys2Proof.Machine.execSpush k rd ra rb s
  | .send k rd ra rb => Sys2Proof.Machine.execSend k rd ra rb s
  | .scred k rd ra rb => Sys2Proof.Machine.execScred k rd ra rb s
  | .streamLineTimeout k fr port => Sys2Proof.Machine.execStreamLineTimeout k fr port s
  | .streamCreditReturn p => Sys2Proof.Machine.execStreamCreditReturn p s
  | .emit k rd ra rb => Sys2Proof.Machine.execEmit k rd ra rb s
  | .reemit k rd ra rb => Sys2Proof.Machine.execReemit k rd ra rb s
  | .cwait k rd ra rb => Sys2Proof.Machine.execCwait k rd ra rb s
  | .drop k rd ra rb => Sys2Proof.Machine.execDrop k rd ra rb s
  | .cpoll k rd ra rb => Sys2Proof.Machine.execCpoll k rd ra rb s
  | .hadd k rd ra rb => Sys2Proof.Machine.execHadd k rd ra rb s
  | .hset k rd ra rb => Sys2Proof.Machine.execHset k rd ra rb s
  | .hor k rd ra rb => Sys2Proof.Machine.execHor k rd ra rb s
  | .hwait k cmp rd ra rb => Sys2Proof.Machine.execHwait k cmp rd ra rb s
  | .harrive k rd ra rb => Sys2Proof.Machine.execHarrive k rd ra rb s
  | .harrivenw k rd ra rb => Sys2Proof.Machine.execHarrivenw k rd ra rb s
  | .loop k ra rb off => Sys2Proof.Machine.execLoop k ra rb off s
  | .beq k ra rb off => Sys2Proof.Machine.execBeq k ra rb off s
  | .bne k ra rb off => Sys2Proof.Machine.execBne k ra rb off s
  | .blt k ra rb off => Sys2Proof.Machine.execBlt k ra rb off s
  | .bge k ra rb off => Sys2Proof.Machine.execBge k ra rb off s
  | .bltu k ra rb off => Sys2Proof.Machine.execBltu k ra rb off s
  | .bgeu k ra rb off => Sys2Proof.Machine.execBgeu k ra rb off s
  | .jal k off => Sys2Proof.Machine.execJal k off s
  | .j k off => Sys2Proof.Machine.execJ k off s
  | .jalr k rd ra rb => Sys2Proof.Machine.execJalr k rd ra rb s
  | .exit k rd ra rb => Sys2Proof.Machine.execExit k rd ra rb s
  | .sysTrap k rd ra rb => Sys2Proof.Machine.execSysTrap k rd ra rb s
  | .yield k rd ra rb => Sys2Proof.Machine.execYield k rd ra rb s
  | .sysHeartbeat k rd ra rb => Sys2Proof.Machine.execSysHeartbeat k rd ra rb s
  | .mfs k rd ra rb => Sys2Proof.Machine.execMfs k rd ra rb s
  | .mts k rd ra rb => Sys2Proof.Machine.execMts k rd ra rb s
  | .sync k rd ra rb => Sys2Proof.Machine.execSync k rd ra rb s
  | .sysTrace k rd ra rb => Sys2Proof.Machine.execSysTrace k rd ra rb s
  | .signalReport f w0 w1 w2 => Sys2Proof.Machine.execSignalReport f w0 w1 w2 s
  | .signalMessage m => Sys2Proof.Machine.execSignalMessage m s
  | .hiveAck m => Sys2Proof.Machine.execHiveAck m s
  | .waitreg m => Sys2Proof.Machine.execWaitreg m s
  | .wake m => Sys2Proof.Machine.execWake m s
  | .waitregRetry msgid => Sys2Proof.Machine.execWaitregRetry msgid s
  | .cancel m => Sys2Proof.Machine.execCancel m s
  | .tierarrive m => Sys2Proof.Machine.execTierarrive m s
  | .tierrelease m => Sys2Proof.Machine.execTierrelease m s
  | .hiveDebugSelWrite part v => Sys2Proof.Machine.execHiveDebugSelWrite part v s
  | .teardown c => Sys2Proof.Machine.execTeardown c s
  | .teardownAck scope port => Sys2Proof.Machine.execTeardownAck scope port s
  | .writeAck a => Sys2Proof.Machine.execWriteAck a s
  | .quarantine c => Sys2Proof.Machine.execQuarantine c s
  | .windowViolation p addr write => Sys2Proof.Machine.execWindowViolation p addr write s
  | .remoteWriteDrop f c addr => Sys2Proof.Machine.execRemoteWriteDrop f c addr s
  | .abortqWrite part v => Sys2Proof.Machine.execAbortqWrite part v s
  | .rds a m => Sys2Proof.Machine.execRds a m s
  | .rdx a m => Sys2Proof.Machine.execRdx a m s
  | .upg a m => Sys2Proof.Machine.execUpg a m s
  | .wbd a m => Sys2Proof.Machine.execWbd a m s
  | .wbc a m => Sys2Proof.Machine.execWbc a m s
  | .retry a l => Sys2Proof.Machine.execRetry a l s
  | .data a m => Sys2Proof.Machine.execData a m s
  | .gnt a l => Sys2Proof.Machine.execGnt a l s
  | .fwdS a l => Sys2Proof.Machine.execFwdS a l s
  | .fwdX a l => Sys2Proof.Machine.execFwdX a l s
  | .inv a l => Sys2Proof.Machine.execInv a l s
  | .coherenceAck a l => Sys2Proof.Machine.execCoherenceAck a l s
  | .fack a l => Sys2Proof.Machine.execFack a l s
  | .wback a l => Sys2Proof.Machine.execWback a l s
  | .holdEnd a l => Sys2Proof.Machine.execHoldEnd a l s
  | .agentEviction a l => Sys2Proof.Machine.execAgentEviction a l s
  | .homeSideWrite m => Sys2Proof.Machine.execHomeSideWrite m s
  | .coherenceTimeout l => Sys2Proof.Machine.execCoherenceTimeout l s
  | .patrolScrub w bad => Sys2Proof.Machine.execPatrolScrub w bad s
  | .brokenWire src ones => Sys2Proof.Machine.execBrokenWire src ones s
  | .chargeCheck h out0 out1 => Sys2Proof.Machine.execChargeCheck h out0 out1 s
  | .hangSnapshot => Sys2Proof.Machine.execHangSnapshot s
  | .hangScanComplete => Sys2Proof.Machine.execHangScanComplete s
  | .heartbeatPeriodEnd => Sys2Proof.Machine.execHeartbeatPeriodEnd s
  | .computeReset fd => Sys2Proof.Machine.execComputeReset fd s
  | .dumpTimeout => Sys2Proof.Machine.execDumpTimeout s
  | .resetOverrun => Sys2Proof.Machine.execResetOverrun s
  | .recoveryWindowExpiry => Sys2Proof.Machine.execRecoveryWindowExpiry s
  | .resetRequest part v => Sys2Proof.Machine.execResetRequest part v s
  | .faultsrcWrite part v => Sys2Proof.Machine.execFaultsrcWrite part v s
  | .injectFire v => Sys2Proof.Machine.execInjectFire v s
  | .injectWire v => Sys2Proof.Machine.execInjectWire v s
  | .peerlost m => Sys2Proof.Machine.execPeerlost m s
  | .chipFault m => Sys2Proof.Machine.execChipFault m s
  | .withdraw m => Sys2Proof.Machine.execWithdraw m s
  | .fenceReady m => Sys2Proof.Machine.execFenceReady m s
  | .fenceFall m => Sys2Proof.Machine.execFenceFall m s
  | .fenceAbandon m => Sys2Proof.Machine.execFenceAbandon m s
  | .stepsyncEdge => Sys2Proof.Machine.execStepsyncEdge s
  | .stepsyncWindowExpiry => Sys2Proof.Machine.execStepsyncWindowExpiry s
  | .staleEntryExpiry idx => Sys2Proof.Machine.execStaleEntryExpiry idx s
  | .groupWrite p part v => Sys2Proof.Machine.execGroupWrite p part v s
  | .fencectlWrite part v => Sys2Proof.Machine.execFencectlWrite part v s
  | .fenceseqWrite part v => Sys2Proof.Machine.execFenceseqWrite part v s
  | .hivepartWrite p part v => Sys2Proof.Machine.execHivepartWrite p part v s
  | .reserveWrite part v => Sys2Proof.Machine.execReserveWrite part v s
  | .hangmodeWrite part v => Sys2Proof.Machine.execHangmodeWrite part v s
  | .vernegOfferWrite part v => Sys2Proof.Machine.execVernegOfferWrite part v s
  | .bootqEnable h part v => Sys2Proof.Machine.execBootqEnable h part v s
  | .clkenWrite part v => Sys2Proof.Machine.execClkenWrite part v s
  | .trimWrite part v => Sys2Proof.Machine.execTrimWrite part v s
  | .breakctlWrite u part v => Sys2Proof.Machine.execBreakctlWrite u part v s
  | .breakResume u => Sys2Proof.Machine.execBreakResume u s
  | .traceClear part v => Sys2Proof.Machine.execTraceClear part v s
  | .latchedDataRead fn r => Sys2Proof.Machine.execLatchedDataRead fn r s
  | .placcessUpdate addr v => Sys2Proof.Machine.execPlaccessUpdate addr v s
  | .placcessRead addr => Sys2Proof.Machine.execPlaccessRead addr s
  | .registerWrite offset part v => Sys2Proof.Machine.execRegisterWrite offset part v s
  | .powerUp factory => Sys2Proof.Machine.execPowerUp factory s
  | .stabilityWindow count => Sys2Proof.Machine.execStabilityWindow count s
  | .stabilityTimeout => Sys2Proof.Machine.execStabilityTimeout s
  | .powerUpComplete t => Sys2Proof.Machine.execPowerUpComplete t s
  | .trimGate count => Sys2Proof.Machine.execTrimGate count s
  | .referenceLoss => Sys2Proof.Machine.execReferenceLoss s
  | .holdoverExpiry => Sys2Proof.Machine.execHoldoverExpiry s
  | .linkClockLoss => Sys2Proof.Machine.execLinkClockLoss s
  | .linkClockReturn => Sys2Proof.Machine.execLinkClockReturn s
  | .idleEntry => Sys2Proof.Machine.execIdleEntry s
  | .idleWake => Sys2Proof.Machine.execIdleWake s
  | .wakeComplete => Sys2Proof.Machine.execWakeComplete s
  | .plaliveToggle => Sys2Proof.Machine.execPlaliveToggle s
  | .energyCalibrated f => Sys2Proof.Machine.execEnergyCalibrated f s
  | .temperatureReport celsius => Sys2Proof.Machine.execTemperatureReport celsius s
  | .transferEnd f tag dest packets => Sys2Proof.Machine.execTransferEnd f tag dest packets s
  | .flush part v => Sys2Proof.Machine.execFlush part v s
  | .flushreq m => Sys2Proof.Machine.execFlushreq m s
  | .flushTimer => Sys2Proof.Machine.execFlushTimer s
  | .dataFrame m => Sys2Proof.Machine.execDataFrame m s
  | .ackFrame m => Sys2Proof.Machine.execAckFrame m s
  | .nak m => Sys2Proof.Machine.execNak m s
  | .sidebandTimeout => Sys2Proof.Machine.execSidebandTimeout s
  | .computeResetComplete => Sys2Proof.Machine.execComputeResetComplete s
  | .referenceReturn => Sys2Proof.Machine.execReferenceReturn s
  | .powerRemoval => Sys2Proof.Machine.execPowerRemoval s

end Sys2Proof.Machine
end

