-- ==== Sys2Proof/Safety.lean ====
section
/-! DEFINITION. What a safe run is: every step answers a next state; and the canonical form of the state's sparse
tables, which makes equal contents equal data. -/

open Sys2Proof.Machine

namespace Sys2Proof

/-- A run of `k` steps from `s` answers a next state each time. -/
def Safe (k : Nat) (s : Machine.State) : Prop := ∃ t, Host.Core.run core k s = .next t

/-- A command names units that exist: the ranges of `Sys2Proof/WellFormed.lean` for its operands. Every other command
stops with `noSuchUnit`.
Log 5 (DESIGN CHOICE, safe). -/
def Machine.WellFormed (c : Instr) : Prop :=
  match c with
  | .doorbellWrite fn q _ _ | .recackWrite fn q _ _ | .retiredRead fn q _ => isFn fn ∧ isQueue q
  | .lowHalfRead fn r _ => isFn fn ∧ countRegOk r = true
  | .tailRead q | .ringFetchComplete q _ | .retireNotice q _ | .cycleBudgetExpiry q | .config q => isQueue q
  | .fetchGrant h | .bootqEnable h _ _ => isHalf h
  | .edgeRegistration n i => isNode n ∧ i < 64
  | .sheafRelease n | .stewardStep n | .measureChoice n | .tableReadComplete n _ | .memberCreate n
  | .commitReport n | .queueTimeout n | .nop n | .start n | .cfgstart n | .call n | .wait n | .signalAdd n
  | .signalSet n | .signalOr n | .stileArrive n | .stileArriveNowait n | .stileInit n | .stileReset n
  | .fanout n | .masked n | .branchDeadline n | .deadlineEvaluation n | .branchObject n | .combine n
  | .measure n | .fenceQueue n | .fenceStep n | .qctlCreate n | .qctlDestroy n | .qctlRestart n
  | .ctxctlCreate n | .ctxctlTeardown n | .ctxctlSetwindows n | .ctxctlReadacct n | .windowCheckersLoaded n
  | .loadroutine n | .routineImageRead n _ | .tallyWrite n | .tallyWriteNotify n | .tallyReadCompletion n _
  | .partctlDefine n | .partctlRelease n | .faultctlThreshold n | .faultctlAcklog n => isNode n
  | .furrowAdmit f | .arbiterGrant f | .preloadComplete f _ | .engineStart f | .commitHandshake f _
  | .progressReport ⟨f, _⟩ | .saturationHandshake ⟨f, _⟩ | .abortHandshake f _ | .preempt f
  | .streamCreditReturn ⟨f, _⟩
  | .signalReport f _ _ _ | .windowViolation ⟨f, _⟩ _ _ | .energyCalibrated f => isFurrow f
  | .tokenDelivery f c _ _ _ | .remoteWriteDrop f c _ => isFurrow f ∧ isCtx c
  | .lendMark core => core < 192
  | .runStart k | .quantumExpiry k | .jal k _ | .j k _ => isCore k
  | .frameClearComplete k fr | .blockTransferComplete k fr _ => isCore k ∧ isFrame fr
  | .add k rd ra rb | .sub k rd ra rb | .and k rd ra rb | .or k rd ra rb | .xor k rd ra rb | .sll k rd ra rb
  | .srl k rd ra rb | .sra k rd ra rb | .mul k rd ra rb | .mulhu k rd ra rb | .slt k rd ra rb
  | .sltu k rd ra rb | .min k rd ra rb | .max k rd ra rb | .minu k rd ra rb | .maxu k rd ra rb
  | .clz k rd ra rb | .popc k rd ra rb | .tld ⟨k, _⟩ rd ra rb | .tst k rd ra rb | .sbind k rd ra rb
  | .spush k rd ra rb | .send k rd ra rb | .scred k rd ra rb | .emit k rd ra rb | .reemit k rd ra rb
  | .cwait k rd ra rb | .drop k rd ra rb | .cpoll k rd ra rb | .hadd k rd ra rb | .hset k rd ra rb
  | .hor k rd ra rb | .harrive k rd ra rb | .harrivenw k rd ra rb | .jalr k rd ra rb | .exit k rd ra rb
  | .sysTrap k rd ra rb | .yield k rd ra rb | .sysHeartbeat k rd ra rb | .mfs k rd ra rb | .mts k rd ra rb
  | .sync k rd ra rb | .sysTrace k rd ra rb => isCore k ∧ areRegs rd ra rb
  | .addi k rd ra _ | .andi k rd ra _ | .ori k rd ra _ | .xori k rd ra _ | .shifti k rd ra _ | .lui k rd ra _
  | .shori k rd ra _ | .ld k rd ra _ | .lw k rd ra _ | .lb k rd ra _ | .st k rd ra _ | .sw k rd ra _
  | .sb k rd ra _ => isCore k ∧ isReg rd ∧ isReg ra
  | .mfill k rd ra rb lines | .mdrain k rd ra rb lines => isCore k ∧ areRegs rd ra rb ∧ 1 ≤ lines ∧ lines ≤ 64
  | .streamLineTimeout k fr port => isCore k ∧ isFrame fr ∧ port < 4
  | .hwait k cmp rd ra rb => isCore k ∧ areRegs rd ra rb ∧ cmp < 6
  | .loop k ra rb _ | .beq k ra rb _ | .bne k ra rb _ | .blt k ra rb _ | .bge k ra rb _ | .bltu k ra rb _
  | .bgeu k ra rb _ => isCore k ∧ isReg ra ∧ isReg rb
  | .teardown c | .writeAck ⟨c, _⟩ | .quarantine c => isCtx c
  | .teardownAck scope port => isPort port ∧ (match scope with | .context c => c | .queue q => q / 4) < 1024
  | .rds a ⟨l, _, _⟩ | .rdx a ⟨l, _, _⟩ | .upg a ⟨l, _, _⟩ | .wbd a ⟨l, _, _, _⟩ | .wbc a ⟨l, _, _⟩ | .data a ⟨l, _⟩
  | .retry a l | .gnt a l
  | .fwdS a l | .fwdX a l | .inv a l | .coherenceAck a l | .fack a ⟨l, _⟩ | .wback a l | .holdEnd a l
  | .agentEviction a l => isAgent a ∧ isLine l
  | .homeSideWrite ⟨l, _, _⟩ | .coherenceTimeout l => isLine l
  | .brokenWire src _ => sourceListed src = true
  | .chargeCheck h out0 out1 => isHalf h ∧ out0 < 2 ∧ out1 < 2
  | .computeReset fd => ∀ p ∈ fd.corrected, sourceListed p = true
  | .staleEntryExpiry i => i < 512
  | .groupWrite p _ _ | .hivepartWrite p _ _ => isPart p
  | .breakctlWrite u _ _ | .breakResume u => isBreak u
  | .latchedDataRead fn _ => isFn fn
  | .placcessUpdate addr _ | .placcessRead addr => addr < 131072
  | .registerWrite offset _ _ => offset < 67108880
  | .powerUpComplete ⟨failing, corrected⟩ =>
    (∀ p ∈ failing, sourceListed p = true) ∧ ∀ p ∈ corrected, sourceListed p = true
  | .transferEnd f _ _ _ => isFurrow f ∧ 2 ≤ kindOfFurrow f
  | .dataFrame m => ∀ l ∈ m.payload, l.length = 8
  | .scaleRecord | .signalMessage _ | .hiveAck _ | .waitreg _ | .wake _ | .waitregRetry _ | .cancel _
  | .tierarrive _ | .tierrelease _ | .hiveDebugSelWrite _ _ | .abortqWrite _ _ | .patrolScrub _ _
  | .hangSnapshot | .hangScanComplete | .heartbeatPeriodEnd | .dumpTimeout | .resetOverrun
  | .recoveryWindowExpiry | .resetRequest _ _ | .faultsrcWrite _ _ | .injectFire _ | .injectWire _
  | .peerlost _ | .chipFault _ | .withdraw _ | .fenceReady _ | .fenceFall _ | .fenceAbandon _ | .stepsyncEdge
  | .stepsyncWindowExpiry | .fencectlWrite _ _ | .fenceseqWrite _ _ | .reserveWrite _ _ | .hangmodeWrite _ _
  | .vernegOfferWrite _ _ | .clkenWrite _ _ | .trimWrite _ _ | .traceClear _ _ | .powerUp _
  | .stabilityWindow _ | .stabilityTimeout | .trimGate _ | .referenceLoss | .holdoverExpiry | .linkClockLoss
  | .linkClockReturn | .idleEntry | .idleWake | .wakeComplete | .plaliveToggle | .temperatureReport _
  | .flush _ _ | .flushreq _ | .flushTimer | .ackFrame _ | .nak _ | .sidebandTimeout | .computeResetComplete
  | .referenceReturn | .powerRemoval => True

/-- Every sparse table of the state is in its canonical form: numbers strictly rising, and no entry listed that
equals what an unlisted number reads as. -/
def Machine.State.Canonical (s : Machine.State) : Prop :=
  Machine.Tbl.wf {} s.queues = true ∧ Machine.Tbl.wf 0 s.fetchLast = true ∧
  Machine.Tbl.wf none s.nodes = true ∧ Machine.Tbl.wf {} s.furrows = true ∧
  Machine.Tbl.wf {} s.slots = true ∧ Machine.Tbl.wf {} s.objects = true ∧
  Machine.Tbl.wf [] s.waiters = true ∧ Machine.Tbl.wf {} s.ctxs = true ∧
  Machine.Tbl.wf {} s.parts = true ∧ Machine.Tbl.wf {} s.cores = true ∧
  Machine.Tbl.wf {} s.routines = true ∧ Machine.Tbl.wf {} s.agents = true ∧
  Machine.Tbl.wf {} s.dirs = true ∧ Machine.Tbl.wf {} s.groups = true ∧
  Machine.Tbl.wf {} s.breaks = true

end Sys2Proof
end

