-- ==== Sys2Proof/Certificates/Slice0/Obligations.lean ====
section
/-! DEFINITION. The statements for the provers. `Sys2Proof.Claim` holds the terms they share and the parts of those
that say several things; each statement names the rules it formalises. -/

open Sys2Proof Sys2Proof.Machine

namespace Sys2Proof.Claim

/-- `s` with the command `c` waiting in front of every other one. -/
def front (s : State) (c : Instr) : State := { s with pending := c :: s.pending }

/-- The page of queue q is open to a function: Pliat works, no clock gate closes the page, and the page is live for the
function. -/
def PageOpen (s : State) (fn : Fn) (q : Nat) : Prop :=
  isFn fn ∧ isQueue q ∧ s.working = true ∧ s.pageGated q = false ∧ s.pageLive fn q = true

/-- Node slot n holds the released sheaf d of an opcode, whose own step comes next (R120). -/
def Released (s : State) (n : Nat) (d : Node) (op : Nat) : Prop :=
  isNode n ∧ s.working = true ∧ s.node n = some d ∧ d.phase = .ready ∧ s.frozen d = false ∧ hOp d.lines = op

/-- The run of furrow f is r, of the sheaf d in node slot r.entry.node, itself and not a member or a pass of it; the
sheaf still stands, and the engine ports are enabled (R411). -/
def RunsSheaf (s : State) (f : Nat) (r : EngineRun) (d : Node) : Prop :=
  isFurrow f ∧ s.working = true ∧ s.engineOn = true ∧ s.Canonical ∧ (s.furrow f).run = some r ∧ r.held = false ∧
  r.entry.member = none ∧ r.entry.measure = false ∧ s.node r.entry.node = some d ∧ d.gen = r.entry.gen ∧
  d.ctx = r.entry.ctx ∧ d.phase = .running ∧ d.child = none ∧ r.abort ≠ some .teardown ∧ r.abort ≠ some .destroy

/-- The hive caches and descriptor caches hold every line of an access as it needs it (R308, R317). -/
abbrev Holds (s : State) (xs : List LineNeed) : Prop := xs.all s.lineHeld = true

/-- Where such an access acts: its writes have made M of E (R317). -/
def claims (s : State) (xs : List LineNeed) : State := xs.foldl State.askLine s

/-- An access that lacks a line: its command c is held, and what it lacks has been asked for (R317; that the command
waits as a whole is the model's choice, log 83). -/
def asks (s : State) (xs : List LineNeed) (c : Instr) : State :=
  ((xs.filter fun x => !s.lineHeld x).foldl State.askLine s).park c

/-- What the reads for command `key` still need: each line is read once, with its own grant (R317). -/
def unread (s : State) (key : Instr) (xs : List LineNeed) : List LineNeed :=
  match s.reads.find? fun e => e.1 == key with
  | some e => xs.filter fun x => e.2.contains x.line
  | none => xs

/-- Where the work of such reads is done: none of them is left. -/
def hasRead (s : State) (key : Instr) : State := { s with reads := s.reads.filter fun e => e.1 != key }

/-- Such reads while a line is lacking: the lines held have been read, the others are asked for and stay to be read, and
the command c is held (R317; that it is held as a whole is the model's choice, log 83). -/
def asksReads (s : State) (key c : Instr) (xs : List LineNeed) : State :=
  let left := (unread s key xs).filter fun x => !s.lineHeld x
  (left.foldl State.askLine { s with
    reads := (s.reads.filter fun e => e.1 != key) ++ [(key, left.map (·.line))] }).park c

/-- Node slot n holds a released sheaf of the opcode and SUB whose object o lies in a half in service of this chip and
may be used by its context (R249, R263). -/
def AtOwnObject (s : State) (n : Nat) (d : Node) (op sub o : Nat) : Prop :=
  Released s n d op ∧ aSub d.lines = sub ∧ s.chipLocal d.ctx (refChip (aObjref d.lines)) = true ∧
  refObj (aObjref d.lines) = o ∧ s.objAllowed d.ctx o = true ∧ s.inService (halfOfObj o) = true

/-- The same, with the object's line writable in the hive cache of its half (R321). -/
def OnObject (s : State) (n : Nat) (d : Node) (op sub o : Nat) : Prop :=
  AtOwnObject s n d op sub o ∧ Holds s [hiveNeed o true]

/-- A hive operation on object o, whose line the hive cache takes writable (R317, R321). -/
def onto (s : State) (o : Nat) : State := claims s [hiveNeed o true]

/-- W1 of an object that the sheaf d signalled last (R245): the kind, the context, Pliat's own source number and TAG. -/
def signedBy (kind : Nat) (d : Node) : Word :=
  word [(62, kind), (52, d.ctx), (42, 0x3FD), (0, d.tag.toNat)]

/-- A hive operation writes x into object o (R321). -/
def rewrite (s : State) (o : Nat) (x : Obj) : State := (onto s o).setObj o x

/-- Node slot n holds a released kernel command of the opcode and SUB. -/
def Kernel (s : State) (n : Nat) (d : Node) (op sub : Nat) : Prop :=
  Released s n d op ∧ aSub d.lines = sub

/-- Core k takes part, its current run r in frame fr does not wait to write a result, and the legal instruction w is
what it fetches there: of slots 64 to 127 the image's word, of the library ROM the word that it holds there or, as its
words are open, one that keeps the routine's contract (R244, the model's choice, log 12). -/
def Executes (s : State) (k fr : Nat) (r : Run) (w : BitVec 32) : Prop :=
  isCore k ∧ s.coreOn k = true ∧ s.currentRun k = some (fr, r) ∧ r.stall = none ∧
  (if r.slot < 64 then s.romHolds r w = true else s.fetched r = some w) ∧ s.keeps r w = true ∧ legalWord w = true

/-- The state after an instruction of run r that writes RD and does not transfer control. -/
def wrote (s : State) (k fr : Nat) (r : Run) (rd : Nat) (v : Word) : State := s.setRun k fr (r.setReg rd v).next

/-- Pliat takes the message m, and no check of R378 and R380 drops it: it is of this type, comes from a chip of its
group and is not stale. -/
def HiveArrives (s : State) (m : HiveFrame) (typ : Nat) : Prop :=
  s.working = true ∧ s.linkOn = true ∧ s.hiveOn (halfOfObj (msgObj m)) = true ∧ s.badFrameHead m.port 0 = false ∧
  msgType m = typ ∧ badResult m = false ∧
  (if typ = 1 ∨ typ = 3 then s.staleReply m else s.staleMsg m) = false

/-- The object o of a request message lies in a half in service and in the range of the message's partition (R260; that
the port word of the frame decides is the model's choice, log 94), with its line writable in the hive cache of its half
(R321). -/
def AtObject (s : State) (m : HiveFrame) (o : Nat) : Prop :=
  msgObj m = o ∧ s.inService (halfOfObj o) = true ∧ s.objPart o = some (portPart m.port) ∧ Holds s [hiveNeed o true]

/-- Pliat takes the notice m, and no check of R378 and R380 drops it. -/
def NoticeArrives (s : State) (m : Notice) (typ : Nat) : Prop :=
  s.working = true ∧ s.linkOn = true ∧ s.badFrameHead m.port 1 = false ∧ noticeType m = typ ∧
  (2 ≤ typ → s.staleChip (portPart m.port) (portSrc m.port) (portGen m.port) = false)

/-- Cache a and the line's home take part. -/
def Coherent (s : State) (a : Nat) (l : CohLine) : Prop := isAgent a ∧ isLine l ∧ s.coherent a l = true

/-- The first message for a command is m, and the network without it is `rest`. -/
def Arrives (s : State) (p : Msg → Bool) (m : Msg) (rest : List Msg) : Prop := takeMsg p [] s.net = some (m, rest)

/-- A sound answer of the board controller to the outstanding request (R445). -/
def Answers (s : State) (m : SidebandFrame) (typ : Nat) : Prop :=
  s.power ≠ .off ∧ sbSound m = true ∧ sbType m = typ ∧ sbSeq m = s.life.seq ∧ s.life.sideband ≠ .idle ∧
  ∀ l ∈ m.payload, l.length = 8

/-- Every command that waits names units that exist. -/
def Sound (s : State) : Prop := ∀ c ∈ s.pending, WellFormed c

/-- What the trim state says of itself (R402, R404, R409): locked crossings only on a T-12 that is LOCKED or in
HOLDOVER, and LINK, in effect or waiting, names a link port that is present. -/
def TrimSound (s : State) : Prop :=
  (s.trim.lockedXing = true → s.fuses.t6 = false ∧ (s.trim.state = .locked ∨ s.trim.state = .holdover)) ∧
  s.trim.link.toNat < s.linkPorts ∧ ∀ link ref, s.trim.waiting = some (link, ref) → link.toNat < s.linkPorts

/-- A 64-bit DOORBELL write to an open page (R58, R62): an IDLE queue takes the TAIL and becomes ACTIVE, an ACTIVE or
STOPPED one records TAIL and PENDING, and a FREE, BUSY or OFFLINE one absorbs the write and counts it. Nothing
else changes. The origin time of ORIGIN 0 is R300's. -/
def DoorbellWriteByQueueState : Prop :=
  ∀ (fn : Fn) (q : Nat) (v : Word) (s : State), PageOpen s fn q →
    exec (.doorbellWrite fn q true v) s = .next (match s.qstate q with
      | .idle => s.setQueue q { s.queue q with
          tail := v, pending := true, state := .active
          origin := if (s.queue q).deadline ≠ 0 ∧ fld (s.queue q).deadline 33 32 = 0 then some s.usec
            else (s.queue q).origin }
      | .active | .stopped => s.setQueue q { s.queue q with tail := v, pending := true }
      | .free | .busy | .offline => s.absorb q)

/-- Pliat acts on a DOORBELL or RECACK write only if it is 64 bits wide (R54). -/
def NarrowPageWritesAreIgnored : Prop :=
  ∀ (fn : Fn) (q : Nat) (v : Word) (s : State), isFn fn → isQueue q → s.working = true →
    exec (.doorbellWrite fn q false v) s = .next s ∧ exec (.recackWrite fn q false v) s = .next s

/-- A VF cannot reach a queue of another partition (R55): its write is absorbed and counted, its read answers zero, and
neither changes anything else. -/
def ForeignPagesAreClosed : Prop :=
  ∀ (p q : Nat) (v : Word) (s : State), p < 12 → isQueue q → s.working = true → s.pageGated q = false →
    s.pageLive (.vf p) q = false →
    exec (.doorbellWrite (.vf p) q true v) s = .next (s.absorb q) ∧
    exec (.recackWrite (.vf p) q true v) s = .next (s.absorb q) ∧
    (∀ wide, exec (.retiredRead (.vf p) q wide) s = .next (s.drive (.readData (.vf p) (some 0)))) ∧
    ∀ part, exec (.lowHalfRead (.vf p) (.head q) part) s = .next (s.drive (.readData (.vf p) (some 0)))

/-- RECACK in a page that is open (R74, R467): a value between the current one and the records written is taken,
and frees the ring up to it; any other value is ignored, and a FREE or OFFLINE queue absorbs the write. The other
queues are unchanged. -/
def RecackFollowsTheRing : Prop :=
  ∀ (fn : Fn) (q : Nat) (v : Word) (s : State), PageOpen s fn q →
    (s.qstate q ≠ .free → s.qstate q ≠ .offline → (s.queue q).recAck.toNat ≤ v.toNat →
      v.toNat ≤ (s.queue q).recWritten.toNat → s.Canonical →
      ∃ t : State, exec (.recackWrite fn q true v) s = .next t ∧ (t.queue q).recAck = v ∧
        ∀ q', q' ≠ q → t.queue q' = s.queue q') ∧
    (s.qstate q ≠ .free → s.qstate q ≠ .offline →
      (v.toNat < (s.queue q).recAck.toNat ∨ (s.queue q).recWritten.toNat < v.toNat) →
      exec (.recackWrite fn q true v) s = .next s) ∧
    ((s.qstate q = .free ∨ s.qstate q = .offline) →
      exec (.recackWrite fn q true v) s = .next (s.absorb q))

/-- A read of RETIRED on an open page (R69, R453): it answers the count, or its low half, and latches the TAG and the
status of the sheaf before it; a read of the low half also latches the high half. Nothing else changes. -/
def RetiredReadLatchesLastTag : Prop :=
  ∀ (fn : Fn) (q : Nat) (s : State), PageOpen s fn q →
    let last := s.setLatch fn (latchLast q)
      [BitVec.setWidth 64 (s.queue q).lastTag, BitVec.setWidth 64 (s.queue q).lastStatus]
    exec (.retiredRead fn q true) s =
      .next ((last.dropLatch fn (countLatch (.retired q))).drive (.readData fn (some (s.queue q).retired))) ∧
    exec (.retiredRead fn q false) s =
      .next ((last.setLatch fn (countLatch (.retired q)) [(s.queue q).retired >>> 32]).drive
        (.readData fn (some ((s.queue q).retired &&& 0xFFFFFFFF))))

/-- The two halves of a 64-bit count agree (R453): after a read of bits 31:0 the next read of bits 63:32 of the same
register by the same function answers the half latched then, whatever the count has become in between, and releases
the latch. Said for PL_USEC, which counts on between the two reads. -/
def HalvesOfACountAgree : Prop :=
  ∀ (s : State) (later : Word), s.working = true →
    ∃ t u : State, exec (.lowHalfRead .pf .usec .low) s = .next t ∧
      t.out = .readData .pf (some (s.usec &&& 0xFFFFFFFF)) :: s.out ∧
      exec (.lowHalfRead .pf .usec .high) { t with usec := later } = .next u ∧
      u.out = .readData .pf (some (s.usec >>> 32)) :: t.out ∧
      u.latched .pf (countLatch .usec) = none ∧ u.queues = s.queues

/-- What TAIL_READ does with the TAIL it reads (R58, R60): a TAIL too far ahead or behind the last one is a queue
error, the same TAIL lets the queue become IDLE, and any other one is fetched up to. PENDING is taken up in every
case. -/
def TailReadComparesWithHeadAndTail : Prop :=
  ∀ (q : Nat) (s : State), isQueue q → s.working = true → s.qstate q = .active → (s.queue q).caughtUp = true →
    let x := s.queue q
    let taken := s.setQueue q { x with pending := false }
    exec (.tailRead q) s = .next (
      if 2 ^ x.logSize + x.head.toNat < x.tail.toNat then taken.queueError q 0x01
      else if x.tail.toNat < x.tailSeen.toNat then taken.queueError q 0x02
      else if x.tail.toNat = x.tailSeen.toNat then taken.modQueue q fun y => { y with state := .idle }
      else taken.modQueue q fun y => { y with tailSeen := y.tail, partialAtTail := false })

/-- A queue error stops fetch and sets STATE and ERR (R61): the lines fetched are dropped, what was accepted stays,
and every other queue is unchanged. -/
def QueueErrorStopsFetch : Prop :=
  ∀ (q : Nat) (err : BitVec 8) (s : State), s.Canonical →
    let t := s.queueError q err
    (t.queue q).state = .stopped ∧ (t.queue q).err = err ∧ (t.queue q).fetched = [] ∧ (t.queue q).reading = 0 ∧
    (t.queue q).head = (s.queue q).head ∧ (t.queue q).nextSeq = (s.queue q).nextSeq ∧
    (t.queue q).inflight = (s.queue q).inflight ∧ t.nodes = s.nodes ∧ t.ctxs = s.ctxs ∧
    ∀ q', q' ≠ q → t.queue q' = s.queue q'

/-- A grant reads up to 32 lines, or up to TAIL if that is nearer, from the two ends of the ring where it wraps (R50,
R58); nothing else changes but which queue was served last. The lines that have arrived are added to those fetched and
checked in ring order (R63); a failed read is FETCH_ERROR (R61); a reply of another generation is dropped (R290,
R357). That a read may arrive in pieces and that lines wait in the queue until they can be checked is the model's
choice (log 23). -/
def GrantReadsRingLines : Prop :=
  (∀ (h q : Nat) (s : State), isHalf h → s.working = true → s.inService h = true → s.grantChoice h = some q →
    s.sheafWaits q = false → s.Canonical →
    let x := s.queue q
    let n := min 32 (x.tailSeen.toNat - x.fetchedTo)
    let slot := x.fetchedTo % 2 ^ x.logSize
    let first := min n (2 ^ x.logSize - slot)
    let st := s.stampOf x.ctx (s.ctx x.ctx).gen
    ∃ t : State, exec (.fetchGrant h) s = .next t ∧ t.queue q = { x with reading := n } ∧
      t.out = (if first < n then [.memRead st x.ringHost x.ringBase (n - first)] else []) ++
        .memRead st x.ringHost (x.ringBase + BitVec.ofNat 64 (64 * slot)) first :: s.out ∧
      t = { s with queues := t.queues, fetchLast := t.fetchLast, out := t.out } ∧
      ∀ q', q' ≠ q → t.queue q' = s.queue q') ∧
  (∀ (q : Nat) (ls : List Line) (s : State), isQueue q → s.working = true → s.qstate q = .active →
    0 < ls.length → ls.length ≤ (s.queue q).reading →
    exec (.ringFetchComplete q ⟨s.stampOf (s.queue q).ctx (s.ctx (s.queue q).ctx).gen, .lines ls, none⟩) s = .next
      ((s.setQueue q { s.queue q with
        reading := (s.queue q).reading - ls.length, fetched := (s.queue q).fetched ++ ls }).drain q 1024)) ∧
  (∀ (q line : Nat) (s : State), isQueue q → s.working = true → s.qstate q = .active → (s.queue q).reading ≠ 0 →
    exec (.ringFetchComplete q ⟨s.stampOf (s.queue q).ctx (s.ctx (s.queue q).ctx).gen, .error line, none⟩) s =
      .next (s.queueError q 0x03)) ∧
  ∀ (q : Nat) (st : Stamp) (r : ReadResult) (fix : Option Found) (s : State), isQueue q →
    st ≠ s.stampOf (s.queue q).ctx (s.ctx (s.queue q).ctx).gen → exec (.ringFetchComplete q ⟨st, r, fix⟩) s = .next s

/-- A source that the destruction of its queue withdrew after the sheaf d was accepted: until the queue is FREE it
satisfies no edge of d (R119). -/
def WithdrawnSince (s : State) (q m : Nat) (d : Node) : Prop :=
  (s.queue q).state = .busy ∧
  ∃ r : Retired, Tbl.get none (s.queue q).record m = some r ∧ r.status = stWithdrawn ∧ d.order < r.stamp

/-- An edge after the retire notice of a sequence number. -/
def notice (q m : Nat) (e : Edge) : Edge :=
  match e.st, e.target with
  | .noticed z, .seq q' m' => if q' = q ∧ m' = m then { e with st := .done z } else e
  | _, _ => e

/-- The two crossings of the half bridge (R116, R117, R119): a registration that reaches the source's half is
satisfied at once if the source has retired or its queue is FREE, and is recorded otherwise, or where the destruction
of the queue withdrew the source since; a retire notice satisfies the edges that wait for it, and no other. Nothing
else of any sheaf, and nothing else of the state, changes. -/
def EdgesCrossTheBridge : Prop :=
  (∀ (n i q m : Nat) (d : Node) (s : State), isNode n → i < 64 → s.up = true → s.node n = some d →
    d.edges[i]? = some { target := .seq q m, st := .unregistered } →
    ((s.queue q).state = .free →
      exec (.edgeRegistration n i) s = .next (s.setNode n (some (d.setEdge i (.done false))))) ∧
    (WithdrawnSince s q m d →
      exec (.edgeRegistration n i) s = .next (s.setNode n (some (d.setEdge i .registered)))) ∧
    ((s.queue q).state ≠ .free → ¬ WithdrawnSince s q m d →
      exec (.edgeRegistration n i) s = .next (s.setNode n (some (d.setEdge i
        (match (s.queue q).source m with
          | some z => .done z
          | none => .registered)))))) ∧
  ∀ (q : Nat) (seq : Word) (s : State), isQueue q → s.up = true → s.Canonical →
    ∃ t : State, exec (.retireNotice q seq) s = .next t ∧ t = { s with nodes := t.nodes } ∧
      ∀ n, t.node n = (s.node n).map fun d => { d with edges := d.edges.map (notice q seq.toNat) }

/-- A held sheaf whose conditions of R115 hold is released (R120): where no break unit matches its TAG, no path excludes
it, its predicate holds and it is not skipped, it goes to the steward if its slot asks for a step, otherwise to its
opcode's own step, and its queue timer restarts. The hive cache holds the line of a predicate that is evaluated
(R317). No queue and no other sheaf changes, and nothing is driven. -/
def ReleaseSendsASheafOn : Prop :=
  ∀ (n : Nat) (d : Node) (s : State), isNode n → s.working = true → s.Canonical → s.node n = some d →
    s.releasable d = true → s.tagBreaks d.queue d.tag = [] →
    (s.queue d.queue).onAborted d.seq.toNat = false → (s.queue d.queue).notTaken d.seq.toNat = false →
    s.predicate d = some true → hRepeat d.lines ≠ 0 → (fSkipok d.lines && d.allZero) = false →
    Holds s (s.releaseNeeds d) → d.chainEarly = false →
    ∃ t : State, exec (.sheafRelease n) s = .next t ∧
      t.node n = some { d with
        relOrder := s.stamp
        releasedAt := s.now
        timer := some (s.dueIn (s.queue d.queue).timeout)
        phase := if d.stewarded then .steward else .ready } ∧
      t.queues = s.queues ∧ (∀ n', n' ≠ n → t.node n' = s.node n') ∧ t.out = s.out

/-- START, CFGSTART, COMBINE and MEASURE (R96, R147, R167, R174, R120, R130): the sheaf asks for admission to the furrow
that TARGET names, or that R133 chooses, and waits in ADMIT. A metadata check that fails ends it instead (R205). The
image build reads its lines in its half's descriptor cache, each with its own grant; while one is still to be read, the
step waits for it (R317, and log 83 for the wait). -/
def EngineSheavesAskForAdmission : Prop :=
  ∀ (n : Nat) (d : Node) (s : State),
    let needs := sheafNeeds n d.lines.length
    let launched (t : State) : State := match s.sheafMeta d with
      | none => { t.setNode n (some { d with phase := .admission, furrow := some (s.targetFurrow d) }) with
          admits := s.admits ++ [{ furrow := s.targetFurrow d, entry := d.entry n none false d.relOrder
                                   front := d.chainEarly }] }
      | some reg => t.metaFail n d (d.image none false d.acc32) reg 0 none
    let asked (c : Instr) : Prop :=
      (Holds s (unread s c needs) → exec c s = .next (launched (hasRead s c))) ∧
      (¬ Holds s (unread s c needs) → exec c s = .next (asksReads s c c needs))
    (Released s n d opStart → asked (.start n)) ∧ (Released s n d opCfgstart → asked (.cfgstart n)) ∧
    (Released s n d opCombine → asked (.combine n)) ∧ (Released s n d opMeasure → asked (.measure n))

/-- FENCE QUEUE retires DONE, which is the origin event of a deadline with ORIGIN 1 (R98, R300). -/
def FenceQueueRetiresDone : Prop :=
  ∀ (n : Nat) (d : Node) (s : State), Released s n d opFence → aSub d.lines = 0 →
    exec (.fenceQueue n) s = .next ((s.setQueue d.queue (
      if (s.queue d.queue).deadline ≠ 0 ∧ fld (s.queue d.queue).deadline 33 32 = 1
      then { s.queue d.queue with origin := some s.usec } else s.queue d.queue)).retireWith n stDone 1 0)

/-- CALL of a slot that holds a routine (R213): its first run goes into the run queue of its control core. -/
def CallQueuesItsFirstRun : Prop :=
  ∀ (n : Nat) (d : Node) (s : State), Released s n d opCall → s.slotLength (aSub d.lines) ≠ 0 →
    let k := if tAny d.lines = true then s.chooseCore d.half else tUnit d.lines
    let d' := { d with phase := .core, coreNo := k }
    exec (.call n) s = .next ((s.setNode n (some d')).queueRun n d')

/-- FENCE STEP of a context outside the step fence's group retires DONE as a FENCE QUEUE does, but is no origin event
(log 45: R300 asks for SUB QUEUE); inside the group it is counted as one arrival by the half that holds charge and
stands (R29, R385, R386), once the committed writes of its context have drained (R395, the model's choice, log 82).
That it waits while no half acts as the holder of charge is the model's choice too (log 48). -/
def FenceStepArrives : Prop :=
  ∀ (n : Nat) (d : Node) (s : State), Kernel s n d opFence 1 →
    let counts := s.fence.en = true ∧ (isSystem d.ctx = true ∨ (s.ctx d.ctx).part = s.fence.part.toNat)
    (counts → s.holderActs = true → (s.ctx d.ctx).drain = 0 → exec (.fenceStep n) s =
      .next (((s.setNode n (some { d with phase := .hive })).countFence n).fenceFollow)) ∧
    (counts → (s.holderActs = false ∨ (s.ctx d.ctx).drain ≠ 0) → exec (.fenceStep n) s = .next s) ∧
    (¬ counts → exec (.fenceStep n) s = .next (s.retireWith n stDone 1 0))

/-- A BRANCH OBJECT decides at its release by comparing its object (R99, R303): the primary path and EXECUTED 0 where
the comparison holds, the fallback path and EXECUTED 1 where it does not. The hive cache holds the object's line
(R317). -/
def BranchObjectDecides : Prop :=
  ∀ (n : Nat) (d : Node) (s : State), Released s n d opBranch → aSub d.lines = 1 →
    let o := refObj (fld (aw d.lines 2) 31 0)
    s.objAllowed d.ctx o = true → Holds s [hiveNeed o false] →
    exec (.branchObject n) s = .next (
      if compareCode (fld (aw d.lines 2) 34 32) (s.obj o).w0 (aw d.lines 3) = true
      then (s.decideBranch d.queue d.seq.toNat .primary).retireWith n stDone 0 0
      else (s.decideBranch d.queue d.seq.toNat .fallback).retireWith n stDone 1 0)

/-- A BRANCH DEADLINE waits in PREPARE from its release (R301), and is evaluated once every sheaf of its primary path
has its sequence number (R301, R302), but stays where it stands while a pause holds it (R435): without a deadline or
an origin time, or with a projection that does not pass the limit, the primary path is taken; otherwise the fallback
path, by the excess. The projection's nanoseconds are a free value (log 3). -/
def BranchDeadlineIsEvaluated : Prop :=
  (∀ (n : Nat) (d : Node) (s : State), Released s n d opBranch → aSub d.lines = 0 →
    exec (.branchDeadline n) s = .next (s.setNode n (some { d with phase := .branch }))) ∧
  (∀ (n : Nat) (d : Node) (s : State), isNode n → s.node n = some d → s.frozen d = true →
    exec (.deadlineEvaluation n) s = .next s) ∧
  ∀ (n : Nat) (d : Node) (s : State), isNode n → s.working = true → s.node n = some d → d.phase = .branch →
    s.frozen d = false → d.seq.toNat + fld (aw d.lines 0) 31 16 < (s.queue d.queue).nextSeq.toNat →
    (s.deadlineLimit d = none →
      exec (.deadlineEvaluation n) s =
        .next ((s.decideBranch d.queue d.seq.toNat .primary).retireWith n stDone 0 0)) ∧
    ∀ l : Int, s.deadlineLimit d = some l →
      exec (.deadlineEvaluation n) s = .next (
        if l < s.projection d then
          s.useFree.takeFallback n d ((s.projection d : Int) - l).toNat
        else (s.useFree.decideBranch d.queue d.seq.toNat .primary).retireWith n stDone 0 0)

/-- What the steward takes the exponent of a sheaf from (R160, R162, R165): REF where the slot has a history, else
the pending maximum of ACC32 partials, which a COMBINE raises by the bits of its PARTS, and else SEEDEXP where it is
given; the first two with MARGIN and less the format's range, kept within ±127. -/
def exponent (x : Slot) (d : Node) : Option Int :=
  let fit (m : Int) : Int := max (-127) (min 127 (m + x.margin - d.rangeBits))
  if x.count ≠ 0 then some (fit x.ref)
  else match x.pendmax with
    | some m => some (fit (if hOp d.lines = opCombine then m + clog2 (fld (aw d.lines 0) 20 16) else m))
    | none => if hSeedexp d.lines = 0x80 then none else some (hSeedexp d.lines).toInt

/-- A steward step (R152, R155, R160): the slot is bound and SLOTCTL acts on it. Where there is an exponent to take, the
sheaf has it as its OUTEXP and its own step comes next; where there is none, the sheaf asks for a MEASURE pass on its
furrow (R165); a MEASURE sheaf itself needs none, and its own step comes next (R167). The choice patches the line of the
sheaf's register load (R42, R317; which line that is is the model's choice, log 83) and a pass reads its lines; while
the descriptor cache lacks one, the step waits. The other slots and every queue are unchanged. -/
def StewardChoosesTheExponent : Prop :=
  ∀ (n : Nat) (d : Node) (s : State), isNode n → s.working = true → s.Canonical → s.node n = some d →
    d.phase = .steward → s.frozen d = false → s.slotBlocked d.ctx (hScaleslot d.lines) = false →
    let i := hScaleslot d.lines
    let x := ((s.slot i).bindTo d.ctx).control (regOf d.loaded rSlotctl)
    let c : Instr := .stewardStep n
    let needs := sheafNeeds n d.lines.length
    (hOp d.lines ≠ opMeasure → (exponent x d).isSome = true → ¬ Holds s [patchNeed n d] →
      exec c s = .next (asks s [patchNeed n d] c)) ∧
    (hOp d.lines ≠ opMeasure → exponent x d = none → ¬ Holds s (unread s c needs) →
      exec c s = .next (asksReads s c c needs)) ∧
    (∀ e : Int, hOp d.lines ≠ opMeasure → exponent x d = some e → Holds s [patchNeed n d] →
      ∃ t : State, exec (.stewardStep n) s = .next t ∧ t.slot i = { x with lastexp := some e } ∧
        t.node n = some { d with phase := .ready, scaled := true, outexp := some (BitVec.ofInt 8 e) } ∧
        (∀ j, j ≠ i → t.slot j = s.slot j) ∧ t.queues = s.queues) ∧
    (hOp d.lines ≠ opMeasure → opTemplate (hOp d.lines) = false → exponent x d = none →
      Holds s (unread s c needs) → s.sheafMeta d = none →
      ∃ t : State, exec (.stewardStep n) s = .next t ∧ t.slot i = x ∧
        t.node n = some { d with phase := .measuring, scaled := true, furrow := some (s.targetFurrow d) } ∧
        t.admits = s.admits ++ [{ furrow := s.targetFurrow d, front := false
                                  entry := d.entry n none true d.relOrder }] ∧
        (∀ j, j ≠ i → t.slot j = s.slot j) ∧ t.queues = s.queues) ∧
    (hOp d.lines = opMeasure → ∃ t : State, exec (.stewardStep n) s = .next t ∧ t.slot i = x ∧
      t.node n = some { d with phase := .ready, scaled := true } ∧ t.admits = s.admits ∧
      (∀ j, j ≠ i → t.slot j = s.slot j) ∧ t.queues = s.queues)

/-- The choice after a MEASURE pass (R165, R160) is made from the pass's own report, 0 for a pass that reported ZERO;
the sheaf's image behind the pass may start; one that stands in the shadow bank gets the patch of its OUTEXP, and the
register load of any other is patched in the descriptor cache, which the choice waits for (R317, log 83). A template's
own step comes next. -/
def MeasurePassDecidesTheExponent : Prop :=
  ∀ (n f : Nat) (d : Node) (s : State), isNode n → s.working = true → s.Canonical → s.node n = some d →
    d.phase = .choice → s.slotBlocked d.ctx (hScaleslot d.lines) = false →
    (opTemplate (hOp d.lines) = false → d.furrow = some f) →
    let i := hScaleslot d.lines
    let x := (s.slot i).bindTo d.ctx
    let e : Int := (d.pass.maxexp.map fun m : Int =>
      max (-127) (min 127 (m + (x.margin : Int) - (d.rangeBits : Int)))).getD 0
    let banked : Prop := opTemplate (hOp d.lines) = false ∧ s.imageHeld f n = true
    (banked ∨ Holds s [patchNeed n d] → ∃ t : State, exec (.measureChoice n) s = .next t ∧
      t.slot i = { x with lastexp := some e } ∧
      t.node n = some { d with
        phase := if opTemplate (hOp d.lines) = true then .ready else .furrow
        scaled := true, pass := {}, outexp := some (BitVec.ofInt 8 e) } ∧
      (banked → t.out = .patch f (BitVec.ofInt 8 e) :: s.out) ∧ (¬ banked → t.out = s.out)) ∧
    (¬ (banked ∨ Holds s [patchNeed n d]) →
      exec (.measureChoice n) s = .next (asks s [patchNeed n d] (.measureChoice n)))

/-- The oldest report that waits is recorded (R162, R163): in ACC32 it raises the slot's pending maximum; otherwise it
enters the history. A report of a context that has changed since, of a slot that is unbound or bound by another tenant
(R155), or without a non-zero run leaves every slot as it is. -/
def ScaleReportsAreRecorded : Prop :=
  ∀ (r : ScaleRec) (rest : List ScaleRec) (s : State), s.working = true → s.stewardQ = r :: rest →
    (∀ v : Int, r.fold.any = true → r.fold.maxexp = some v → (s.ctx r.ctx).gen = r.gen →
      s.slotOwned r.ctx r.slot = true →
      exec .scaleRecord s = .next ({ s with stewardQ := rest }.writeSlot r.slot
        (if r.acc32fmt = true then { s.slot r.slot with pendmax := some (max v ((s.slot r.slot).pendmax.getD v)) }
         else if r.combine = true then { (s.slot r.slot).insert v with pendmax := none }
         else (s.slot r.slot).insert v))) ∧
    ((r.fold.any = false ∨ r.fold.maxexp = none ∨ (s.ctx r.ctx).gen ≠ r.gen ∨
        s.slotOwned r.ctx r.slot = false) →
      exec .scaleRecord s = .next { s with stewardQ := rest })

/-- The request that enters a furrow first is admitted (R130): lowest priority number, then release order, among those
the furrow has room for and no pause holds. Its entry goes to the end of the furrow's list, or to its head after a
pre-emption or for a chained successor, and the sheaf itself, if it is the sheaf's own, is in its furrow. -/
def FurrowAdmitsTheFirstRequest : Prop :=
  ∀ (f : Nat) (a : Admit) (d : Node) (s : State), isFurrow f → s.working = true → s.Canonical →
    firstAdmit (s.admits.filter fun b => b.furrow == f && s.enterable b) = some a → a.furrow = f →
    s.node a.entry.node = some d → a.entry.member = none → a.entry.measure = false →
    ∃ t : State, exec (.furrowAdmit f) s = .next t ∧ t.admits = s.admits.erase a ∧
      t.node a.entry.node = some { d with phase := .furrow } ∧
      (let e : Entry := { a.entry with entered := s.stamp }
       (t.furrow f).entries = (if a.front = true then e :: (s.furrow f).entries else (s.furrow f).entries ++ [e])) ∧
      t.queues = s.queues ∧ ∀ f', f' ≠ f → t.furrow f' = s.furrow f'

/-- A grant puts one eligible head into the empty shadow bank (R131, R135): with a single eligible head whose context
has the deficit for its charge, that head, whose charge is taken from its context's deficit. Its lines wait at the
furrow's port (R35), and those that the descriptor cache does not hold are still to be read there (R317). That the
granted entry stays in the furrow's list until it starts is the model's choice (log 72). -/
def GrantPreloadsTheHead : Prop :=
  ∀ (f : Nat) (e : Entry) (s : State), isFurrow f → s.working = true → s.Canonical →
    (s.furrow f).shadow = none → (s.furrow f).chainFrom = none →
    (s.furrow f).heads.filter (fun e => s.grantable (s.furrow f) e) = [e] → (s.furrow f).eligible e = true →
    e.prio ≤ 3 → (e.charge : Int) ≤ Tbl.get 0 (s.furrow f).deficits e.ctx →
    ∃ t : State, exec (.arbiterGrant f) s = .next t ∧
      (∃ k, (t.furrow f).shadow =
        some { entry := e, loaded := false, parked := false, left := s.fabricLines e, since := k }) ∧
      (t.furrow f).entries = (s.furrow f).entries ∧
      (t.furrow f).deficits = Tbl.set 0 (s.furrow f).deficits e.ctx
        (Tbl.get 0 (s.furrow f).deficits e.ctx - (e.charge : Int)) ∧
      t.out = .preload f e.node e.member :: s.out ∧ t.nodes = s.nodes ∧
      ∀ d, s.node e.node = some d → (.preloadComplete f none,
        ((sheafNeeds e.node d.lines.length).filter fun x => !s.lineHeld x).map (·.line)) ∈ t.reads

/-- A preload whose lines the descriptor cache has read, each with its own grant, and the port has carried fills the
shadow bank (R135, R317), and waits for a line that is still to be read (log 83); before that the port carries one
line after another in the order of R35, and none completes out of turn (how many lines it has carried is the model's
choice, log 78; failing bit and syndrome of a corrected error are open, log 17). One that meets an uncorrectable error
is discarded and ends its sheaf with ECC (R41, R338); with a corrected one the bank is filled and the error reported
(R39). The half bridge carries nothing for a furrow that the sheaf's own half serves, or with one half alone (R24,
R25). -/
def PreloadFillsTheShadowBank : Prop :=
  ∀ (f : Nat) (sh : Shadow) (d : Node) (s : State), isFurrow f → s.working = true → (s.furrow f).shadow = some sh →
    sh.loaded = false → s.node sh.entry.node = some d →
    let key : Instr := .preloadComplete f none
    let needs := sheafNeeds sh.entry.node d.lines.length
    let held := Holds s (unread s key needs)
    let t := hasRead s key
    (held → sh.left = 0 → exec (.preloadComplete f none) s =
      .next (t.setFurrow f { s.furrow f with shadow := some { sh with loaded := true, left := 0 } })) ∧
    (∀ u : State, held → t.carryTo f 20000 = some u → exec (.preloadComplete f none) s = .next (u.loadBank f)) ∧
    (¬ held → exec (.preloadComplete f none) s = .next (asksReads s key (.preloadComplete f none) needs) ∧
      ∀ e : PreloadError, s.errorFits f sh.entry d e = true → exec (.preloadComplete f (some (false, e))) s =
        .next (asksReads s key (.preloadComplete f (some (false, e))) needs)) ∧
    (held → sh.left ≠ 0 → Tbl.wf {} s.furrows = true →
      (∃ (f' : Nat) (other : Shadow), (s.furrow f').shadow = some other ∧ fabricPort f' = fabricPort f ∧
        other.loaded = false ∧ other.left = 0) →
      exec (.preloadComplete f none) s = .next t) ∧
    (∀ e : PreloadError, s.errorFits f sh.entry d e = true →
      exec (.preloadComplete f (some (true, e))) s = .next ((s.discard f).sheafEcc sh.entry.node d
        (preloadCode d f e).2.2 (eccDetail (preloadCode d f e).1 (preloadCode d f e).2.1 sh.entry.member)
        (BitVec.ofNat 10 f))) ∧
    (∀ e : PreloadError, s.errorFits f sh.entry d e = true → held → sh.left = 0 →
      ∃ x : Found, x.unc = false ∧ exec (.preloadComplete f (some (false, e))) s =
        .next ((t.loadBank f).useFree.corrected (preloadCode d f e).2.2 x)) ∧
    ∀ (unc : Bool) (l : Nat), (s.server f = d.half ∨ s.inService 0 = false ∨ s.inService 1 = false) →
      exec (.preloadComplete f (some (unc, .bridge l))) s = .next s

/-- The engine port swaps banks and starts the sheaf in the shadow bank (R126, R136): it is running, its entry has
left the furrow's list, at the start as the model chooses (log 72), the shadow bank is empty, and the start goes out
with the sheaf's register image (R147). -/
def EngineStartRunsTheShadowBank : Prop :=
  ∀ (f : Nat) (sh : Shadow) (d : Node) (s : State), isFurrow f → s.working = true → s.Canonical →
    (s.furrow f).run = none → (s.furrow f).shadow = some sh → s.node sh.entry.node = some d →
    s.canStart (s.furrow f) sh d = true → sh.entry.member = none → sh.entry.measure = false → d.child = none →
    ∃ t : State, exec (.engineStart f) s = .next t ∧ (t.furrow f).shadow = none ∧
      (t.furrow f).run.map (fun r => (r.entry, r.abort, r.iter, r.held)) = some (sh.entry, none, d.iter, false) ∧
      (t.furrow f).entries = (s.furrow f).entries.erase sh.entry ∧
      (t.node sh.entry.node).map (·.phase) = some .running ∧
      .start (s.stampOf sh.entry.ctx sh.entry.gen) f sh.entry.node none (d.measures sh.entry)
        (imageOut (d.image none (d.measures sh.entry) d.wide)) ∈ t.out

/-- Cycle budgets (R141, R142): a start of FMT 0 begins the budget of its CYC, 0 for none, which its queue's next
start waits for unless CHAIN on the same furrow makes it void for the successor: neither the sheaf in the shadow bank
nor the next iteration of the run starts while it holds (that CHAIN does not void it between the iterations of one sheaf
is the model's reading of R142, log 88). When it expires they may, and it expires no earlier than the whole microseconds
of its CYC cycles of 0.625 ns (the grain is the model's, log 3). -/
def CycleBudgetHoldsAndReleases : Prop :=
  (∀ (f : Nat) (sh : Shadow) (d : Node) (s : State), isFurrow f → s.working = true → s.Canonical →
    (s.furrow f).run = none → (s.furrow f).shadow = some sh → s.node sh.entry.node = some d → d.fmt = 0 →
    (s.canStart (s.furrow f) sh d = true → sh.entry.member = none → sh.entry.measure = false → d.child = none →
      ∃ t : State, exec (.engineStart f) s = .next t ∧ (t.furrow f).run.isSome = true ∧
        (t.queue d.queue).cycHold = decide (hCyc d.lines ≠ 0) ∧
        (t.queue d.queue).cycDue = s.now + hCyc d.lines / 1600) ∧
    ((s.queue d.queue).cycHold = true → s.cycVoid d = false → exec (.engineStart f) s = .next s)) ∧
  (∀ (f : Nat) (r : EngineRun) (d : Node) (s : State), isFurrow f → s.working = true → s.Canonical →
    (s.furrow f).run = some r → r.held = true → r.abort = none → s.node r.entry.node = some d → d.fmt = 0 →
    ((s.queue d.queue).cycHold = true → exec (.engineStart f) s = .next s) ∧
    ((s.queue d.queue).cycHold = false → ∃ t : State, exec (.engineStart f) s = .next t ∧
      (t.furrow f).run = some { r with held := false, since := s.now, early := !s.clocks.evalid } ∧
      .rerun (s.runStamp r) f ∈ t.out ∧ (t.queue d.queue).cycHold = decide (hCyc d.lines ≠ 0))) ∧
  ∀ (q : Nat) (s : State), isQueue q → s.working = true →
    exec (.cycleBudgetExpiry q) s = .next (
      if (s.queue q).cycDue ≤ s.now then s.setQueue q { s.queue q with cycHold := false } else s)

/-- A token lands in the token store of its furrow, one more of its value (R126), from this chip or from another; one
of a generation that has passed is dropped (R129, R290), as is one of an older chip reset generation (R357); one for a
furrow that is absent is dropped with a NOTE (R124); one that the store cannot take is an overflow, CONTAIN (R128). -/
def TokensLandInTheirStore : Prop :=
  ∀ (f c : Nat) (gen : BitVec 12) (cg : BitVec 8) (v : BitVec 16) (s : State), isFurrow f → isCtx c →
    s.working = true → s.Canonical →
    let token : Flying := { furrow := f, ctx := c, gen := gen, value := v }
    let here (kind : BitVec 8) (cls : Machine.Class) (cause : BitVec 8) : Event :=
      { source := srcFurrow f, kind := kind, cls := cls, ctx := some (c, gen)
        furrow := BitVec.ofNat 10 f, cause := cause }
    ((s.ctx c).gen = gen → s.furrowPresent f = true →
      (∀ x : Furrow, (s.furrow f).addTok c gen v = some x →
        (s.engineOn = true → ∃ t : State, exec (.tokenDelivery f c ⟨gen, cg⟩ v true) s = .next t ∧
          (t.furrow f).tokens = x.tokens ∧ (t.furrow f).entries = (s.furrow f).entries ∧
          t.flying = s.flying ∧ t.queues = s.queues) ∧
        (token ∈ s.flying → cg = s.recov.chipgen → ∃ t : State,
          exec (.tokenDelivery f c ⟨gen, cg⟩ v false) s = .next t ∧ (t.furrow f).tokens = x.tokens ∧
          (t.furrow f).entries = (s.furrow f).entries ∧ t.flying = s.flying.erase token ∧ t.queues = s.queues)) ∧
      ((s.furrow f).addTok c gen v = none → s.engineOn = true →
        exec (.tokenDelivery f c ⟨gen, cg⟩ v true) s = .next (s.raise (here kTokenOverflow .contain 0xE1)))) ∧
    ((s.ctx c).gen = gen → s.furrowPresent f = false → s.engineOn = true →
      exec (.tokenDelivery f c ⟨gen, cg⟩ v true) s = .next (s.raise (here kTokenDrop .note 0))) ∧
    ((s.ctx c).gen ≠ gen → exec (.tokenDelivery f c ⟨gen, cg⟩ v true) s = .next s) ∧
    (cg ≠ s.recov.chipgen → exec (.tokenDelivery f c ⟨gen, cg⟩ v false) s = .next s)

/-- The commit of a sheaf's last iteration (R45, R88, R161, R293): the engine is free, the iteration counts, the sheaf
is committed, its report is on its way to the resolver with DONE and every iteration executed, and the context awaits
the acknowledgement of the writes the commit released. -/
def LastCommitReportsDone : Prop :=
  ∀ (f : Nat) (r : EngineRun) (d : Node) (rep : EngineReport) (s : State), RunsSheaf s f r d → rep.ecc = false →
    rep.stamp = s.runStamp r → hRepeat d.lines ≤ d.iter + 1 → hSigtok d.lines = 0 → fChain d.lines = false →
    opTemplate (hOp d.lines) = false → hOp d.lines ≠ opCall →
    ∃ (t : State) (d' : Node), exec (.commitHandshake f rep) s = .next t ∧ (t.furrow f).run = none ∧
      t.node r.entry.node = some d' ∧ d'.phase = .committed ∧ d'.iter = d.iter + 1 ∧ d'.fold = d.fold.add rep ∧
      t.reports = s.reports ++ [{ node := r.entry.node, gen := d.gen, order := d.order, final :=
        { status := stDone, executed := d.iter + 1, detail := d'.doneDetail, furrow := BitVec.ofNat 10 f } }] ∧
      (t.ctx d.ctx).drain = (s.ctx d.ctx).drain + rep.writes ∧ t.queues = s.queues

/-- The commit of an earlier iteration (R88, R136): the engine starts the next one at once, and nothing is reported. -/
def EarlierCommitStartsTheNextIteration : Prop :=
  ∀ (f : Nat) (r : EngineRun) (d : Node) (rep : EngineReport) (s : State), RunsSheaf s f r d → rep.ecc = false →
    rep.stamp = s.runStamp r → d.iter + 1 < hRepeat d.lines → r.abort = none → fChain d.lines = false → d.fmt ≠ 0 →
    ∃ t : State, exec (.commitHandshake f rep) s = .next t ∧
      (t.furrow f).run = some { r with
        iter := d.iter + 1, held := false, since := s.now, early := !s.clocks.evalid } ∧
      (t.node r.entry.node).map (·.iter) = some (d.iter + 1) ∧ (t.node r.entry.node).map (·.phase) = some .running ∧
      .rerun (s.runStamp r) f ∈ t.out ∧ t.reports = s.reports ∧ t.queues = s.queues

/-- SIGTOK and CHAIN at a commit (R45, R124, R138). With the last commit the token of a sheaf with SIGTOK goes to the
furrow that TOKDEST names: through the resolver on this chip, out to another chip, or nowhere where R124 drops it. With
the first of several commits CHAIN releases the successor on the same furrow that R115 lets go, ahead of the others in
its list, and leaves one that it does not let go as it is. -/
def CommitsSendTokensAndChain : Prop :=
  (∀ (f : Nat) (r : EngineRun) (d : Node) (rep : EngineReport) (s : State), RunsSheaf s f r d → rep.ecc = false →
    rep.stamp = s.runStamp r → hRepeat d.lines ≤ d.iter + 1 → hSigtok d.lines ≠ 0 → fChain d.lines = false →
    opTemplate (hOp d.lines) = false → hOp d.lines ≠ opCall →
    let td := regOf d.loaded rTokdest
    let chip : BitVec 14 := BitVec.ofNat 14 (fld td 31 18)
    let dest := if fld td 9 0 = 0x3FF then f else fld td 9 0
    let lost := s.furrowPresent dest = false ∨ 600 ≤ dest ∨
      (dest < 576 ∧ bit (s.clustersOf d.ctx) (dest / 48) = false) ∨
      (s.chipLocal d.ctx chip = false ∧ (d.kind ≤ 1 ∨ s.unreachable d.ctx chip = true))
    ∃ t : State, exec (.commitHandshake f rep) s = .next t ∧
      (t.node r.entry.node).map (·.phase) = some .committed ∧
      (¬ lost → s.chipLocal d.ctx chip = true → t.flying = s.flying ++
        [{ furrow := dest, ctx := d.ctx, gen := d.gen, value := hSigtok d.lines }]) ∧
      (¬ lost → s.chipLocal d.ctx chip = false → t.flying = s.flying ∧
        .remoteToken (s.stampOf d.ctx d.gen) (hSigtok d.lines) chip dest ∈ t.out) ∧
      (lost → t.flying = s.flying ∧ ∀ st v c g, .remoteToken st v c g ∈ t.out → .remoteToken st v c g ∈ s.out)) ∧
  ∀ (f m : Nat) (r : EngineRun) (d b : Node) (rep : EngineReport) (s : State), RunsSheaf s f r d → rep.ecc = false →
    rep.stamp = s.runStamp r → d.iter = 0 → 1 < hRepeat d.lines → r.abort = none → fChain d.lines = true →
    d.fmt ≠ 0 → s.nodeAt d.queue (d.seq.toNat + 1) = some m → m ≠ r.entry.node → s.node m = some b →
    (hOp b.lines = opStart ∨ hOp b.lines = opCfgstart) → tAny b.lines = false → tUnit b.lines = f →
    s.needsPass b = false → s.tagBreaks b.queue b.tag = [] → fPred b.lines = false →
    (s.queue b.queue).onAborted b.seq.toNat = false → (s.queue b.queue).notTaken b.seq.toNat = false →
    hRepeat b.lines ≠ 0 → fSkipok b.lines = false →
    ∃ t : State, exec (.commitHandshake f rep) s = .next t ∧
      (s.releasable { b with chainEarly := true } = true →
        (t.node m).map (fun c => (c.phase, c.chainEarly)) =
          some (if b.stewarded = true then .steward else .ready, true) ∧
        (t.furrow f).chainFrom = (t.node m).map (·.relOrder)) ∧
      (s.releasable { b with chainEarly := true } = false → t.node m = some b ∧
        (t.furrow f).chainFrom = (s.furrow f).chainFrom)

/-- The oldest report of a node slot reaches the resolver, and its sheaf retires with the report's status (R45); one of
another generation of its context, or of another sheaf than the slot now holds, is dropped (R290, R305). -/
def CommitReportRetiresTheSheaf : Prop :=
  ∀ (n : Nat) (r : Report) (s : State), isNode n → s.working = true →
    s.reports.find? (fun r => r.node == n) = some r →
    let t : State := { s with reports := s.reports.erase r }
    (∀ d : Node, s.node n = some d → (s.ctx d.ctx).gen = r.gen → d.order = r.order → d.phase = .committed →
      exec (.commitReport n) s = .next (t.retire n r.final)) ∧
    ((s.node n = none ∨ ∃ d : Node, s.node n = some d ∧
        ((s.ctx d.ctx).gen ≠ r.gen ∨ d.order ≠ r.order ∨ d.phase ≠ .committed)) →
      exec (.commitReport n) s = .next t)

/-- A progress report restarts the queue timer of the running sheaf (R76) and changes nothing else. -/
def ProgressRestartsTheTimer : Prop :=
  ∀ (f : Nat) (r : EngineRun) (d : Node) (s : State), RunsSheaf s f r d →
    exec (.progressReport ⟨f, s.runStamp r⟩) s = .next (s.setNode r.entry.node (some { d with
      timer := if s.qPaused d.queue = true then none else some (s.dueIn (s.queue d.queue).timeout) }))

/-- An informational record of the sheaf d (R72), of the status, EXECUTED and DETAIL given, on furrow f. -/
def informs (d : Node) (status : BitVec 8) (executed : Nat) (detail : BitVec 32) (f : Nat) : Record :=
  { seq := d.seq, tag := d.tag, status := status, gen := d.gen, queue := d.queue, executed := BitVec.ofNat 16 executed
    count := 1, detail := detail, furrow := BitVec.ofNat 10 f, retire := false, node := none }

/-- The record rec of a sheaf of queue q has been produced between s and t: written to its slot of the ring, with its
context's current generation, or, with the ring full, held behind those held already (R70, R74, R290). -/
def Produced (s t : State) (q : Nat) (rec : Record) : Prop :=
  let x := s.queue q
  (x.recFull = false → (t.queue q).recWritten = x.recWritten + 1 ∧
    .memWrite (s.stampOf x.ctx (s.ctx x.ctx).gen) x.recHost
      (x.recBase + BitVec.ofNat 64 (32 * (x.recWritten.toNat % 64)))
      (recordWords rec x.recWritten.toNat s.now) ∈ t.out) ∧
  (x.recFull = true → (t.queue q).recWritten = x.recWritten ∧ (t.queue q).held = x.held ++ [rec])

/-- A saturation restarts the iteration with 32-bit accumulation (R170, R171): the engine runs again, and the sheaf's
later iterations run in 32-bit mode. The first one writes its informational record, SATURATED_RERUN with the
iterations committed so far and, in DETAIL, OUTEXP and the iteration that saturated, and counts in SATRERUNS; a later
one leaves every queue as it is. -/
def SaturationRestartsWide : Prop :=
  ∀ (f : Nat) (r : EngineRun) (d : Node) (s : State), RunsSheaf s f r d → r.acc16 = true →
    opTemplate (hOp d.lines) = false → hOp d.lines ≠ opCall →
    ∃ (t : State) (d' : Node), exec (.saturationHandshake ⟨f, s.runStamp r⟩) s = .next t ∧
      (t.furrow f).run = some { r with acc16 := false } ∧ t.node r.entry.node = some d' ∧
      d'.acc32 = true ∧ d'.satRecorded = true ∧ d'.phase = .running ∧ d'.iter = d.iter ∧
      .rerun (s.runStamp r) f ∈ t.out ∧
      (d.satRecorded = true → t.queues = s.queues ∧ t.ctxs = s.ctxs) ∧
      (d.satRecorded = false →
        Produced s t d.queue (informs d stSaturatedRerun d.iter
          (BitVec.ofNat 32 (d.shownExp.toNat * 2 ^ 24 + min d.iter 0xFFFF)) f) ∧
        (t.ctx d.ctx).acct.satreruns = (s.ctx d.ctx).acct.satreruns + 1 ∧
        ∀ q, q ≠ d.queue → t.queue q = s.queue q)

/-- A handshake or report of the present generations from an engine that runs nothing is a violation of the port's
protocol, SEVERE (R331; that such a handshake is one that R331 means, and its source, is the model's reading, log 14);
one of an older generation of its context or of the chip is dropped (R290, R357), and while the engine ports are not
enabled no handshake takes place (R411, the model's reading, log 81). -/
def HandshakeWithoutARunIsAPortFault : Prop :=
  ∀ (f : Nat) (rep : EngineReport) (s : State), isFurrow f → s.working = true → (s.furrow f).run = none →
    let answer := Host.Outcome.next (if s.engineOn = true ∧ s.fresh rep.stamp = true then
      s.raise { source := srcFurrow f, kind := kPort, cls := .severe, furrow := BitVec.ofNat 10 f } else s)
    exec (.commitHandshake f rep) s = answer ∧ exec (.abortHandshake f rep) s = answer ∧
    exec (.saturationHandshake ⟨f, rep.stamp⟩) s = answer ∧ exec (.progressReport ⟨f, rep.stamp⟩) s = answer

/-- An abort that PL_ABORTQ asked for ends the run without a commit and retires the sheaf ABORTED; EXECUTED of its
record is the number of the iterations that committed (R88, R296, R297). -/
def AbortRetiresTheSheaf : Prop :=
  ∀ (f : Nat) (r : EngineRun) (d : Node) (rep : EngineReport) (s : State), RunsSheaf s f r d →
    rep.stamp = s.runStamp r → r.abort = some .request → (s.queue d.queue).recFull = false →
    opTemplate (hOp d.lines) = false →
    hOp d.lines ≠ opCall →
    ∃ t : State, exec (.abortHandshake f rep) s = .next t ∧ (t.furrow f).run = none ∧
      t.node r.entry.node = none ∧
      (Tbl.get none (t.queue d.queue).record d.seq.toNat).map (fun x => (x.zero, x.tag, x.status)) =
        some (d.iter == 0, d.tag, stAborted) ∧
      Produced s t d.queue (retireRecord d.queue d.seq d.tag d.gen
        { status := stAborted, executed := d.iter, detail := 0, furrow := BitVec.ofNat 10 f } (some r.entry.node))

/-- Pre-emption (R298, R299): the abort goes out to the run and the furrow waits for its handshake; nothing has ended
yet. -/
def PreemptionAbortsTheRun : Prop :=
  ∀ (f : Nat) (r : EngineRun) (d : Node) (sh : Shadow) (s : State), RunsSheaf s f r d →
    s.mayPreempt (s.furrow f) r d = true → (s.furrow f).shadow = some sh → sh.entry.prio = 0 →
    (s.furrow f).eligible sh.entry = true →
    exec (.preempt f) s = .next ((s.setFurrow f { s.furrow f with
      run := some { r with abort := some .preempt } }).drive (.abort f r.entry.gen))

/-- A queue timer that fires (R77, R109): a sheaf that waits for release, its steward or its own step ends with
TIMEOUT and DETAIL 1, one that waits for admission with DETAIL 4 and its furrow, and one at a hive object with DETAIL
3 and the object; its context's teardown is asked for unless one covers it already. A running sheaf is a hung command
buffer, SEVERE, and stands. -/
def QueueTimeoutEndsOrReports : Prop :=
  ∀ (n t0 : Nat) (d : Node) (s : State), isNode n → s.working = true → s.Canonical → s.node n = some d →
    d.timer = some t0 → t0 ≤ s.now → d.child = none →
    ((d.phase = .held ∨ d.phase = .steward ∨ d.phase = .ready) →
      exec (.queueTimeout n) s = .next
        ((s.setNode n (some { d with timer := none })).timeout n { d with timer := none } 1 noFurrow)) ∧
    (∀ f : Nat, d.phase = .admission → d.furrow = some f → exec (.queueTimeout n) s = .next
      ((s.setNode n (some { d with timer := none })).timeout n { d with timer := none } 4 (BitVec.ofNat 10 f))) ∧
    (d.phase = .hive → hOp d.lines ≠ opFence → exec (.queueTimeout n) s = .next
      ((s.setNode n (some { d with timer := none })).timeout n { d with timer := none }
        (objDetail (refObj (aObjref d.lines)) 3) noFurrow)) ∧
    ∀ f : Nat, d.phase = .running → s.runningOn n = some f →
      exec (.queueTimeout n) s = .next ((s.setNode n (some { d with timer := none })).raise
        (d.event (srcFurrow f) kHung .severe 0 0 (BitVec.ofNat 10 f)))

/-- SIGNAL ADD, SET and OR on a plain object of this chip (R249): the value changes by the operation, the last signaller
is the sheaf, the sheaf retires DONE, and the object's waiters are tested (R250). On a stile, a tier object or a BROKEN
one they are misuse of reason 1 (R254). While the hive cache does not hold the object's line writable, they wait for it
(R317, R321; that the command is held is the model's choice, log 83). -/
def SignalsChangeTheObject : Prop :=
  ∀ (n o : Nat) (d : Node) (s : State),
    ((s.obj o).kind ≠ 0 →
      let misuse : State := (onto s o).misuseEnd n d (srcHive (halfOfObj o)) o 1
      (OnObject s n d opSignal 0 o → exec (.signalAdd n) s = .next misuse) ∧
      (OnObject s n d opSignal 1 o → exec (.signalSet n) s = .next misuse) ∧
      (OnObject s n d opSignal 2 o → exec (.signalOr n) s = .next misuse)) ∧
    (¬ Holds s [hiveNeed o true] →
      (AtOwnObject s n d opSignal 0 o → exec (.signalAdd n) s = .next (asks s [hiveNeed o true] (.signalAdd n))) ∧
      (AtOwnObject s n d opSignal 1 o → exec (.signalSet n) s = .next (asks s [hiveNeed o true] (.signalSet n))) ∧
      (AtOwnObject s n d opSignal 2 o → exec (.signalOr n) s = .next (asks s [hiveNeed o true] (.signalOr n)))) ∧
    ((s.obj o).kind = 0 →
    let after := fun v : Word =>
      ((rewrite s o { w0 := v, w1 := signedBy 0 d }).retireWith n stDone 1 0).wakeWaiters o
    (OnObject s n d opSignal 0 o → exec (.signalAdd n) s = .next (after ((s.obj o).w0 + aw d.lines 1))) ∧
    (OnObject s n d opSignal 1 o → exec (.signalSet n) s = .next (after (aw d.lines 1))) ∧
    (OnObject s n d opSignal 2 o → exec (.signalOr n) s = .next (after ((s.obj o).w0 ||| aw d.lines 1))))

/-- WAIT on an object of this chip (R249, R250): where the comparison that SUB names holds the sheaf retires DONE,
otherwise it stands behind the object's waiters, in state HIVE; on a BROKEN object it ends PEER_LOST (R267, R384). -/
def WaitComparesOrStands : Prop :=
  ∀ (n o : Nat) (d : Node) (s : State), OnObject s n d opWait (aSub d.lines) o →
    exec (.wait n) s = .next (
      if (s.obj o).kind = 3 then (onto s o).peerLostEnd n d (srcHive (halfOfObj o)) (peerDetail 0x3FFF 0 1)
      else if compareCode (aSub d.lines) (s.obj o).w0 (aw d.lines 1) = true then (onto s o).retireWith n stDone 1 0
      else ((onto s o).setWaiters o (s.waitersOf o ++ [
          { test := .cmp (aSub d.lines) (aw d.lines 1), owner := .node n, ctx := d.ctx, gen := d.gen
            queue := d.queue, chip := 0x3FFF, chipgen := 0 }])).setNode n (some { d with phase := .hive }))

/-- ARRIVE and ARRIVE_NOWAIT end at object o of this chip as given. -/
def ArrivalEnds (s : State) (n : Nat) (d : Node) (o : Nat) (t : State) : Prop :=
  (OnObject s n d opStile 0 o → exec (.stileArrive n) s = .next t) ∧
  (OnObject s n d opStile 1 o → exec (.stileArriveNowait n) s = .next t)

/-- Arrivals that do not fill the present round (R253, R254, R267): one at a plain object is misuse of reason 1, one at
a BROKEN object ends PEER_LOST; one for the next round of a stile is counted in NEXT, and ARRIVE stands for that round,
until NEXT would reach P, which is misuse of reason 2; one for any other round is misuse of reason 3. -/
def OtherArrivals : Prop :=
  ∀ (n o : Nat) (d : Node) (s : State),
    let x := s.obj o
    let ahead := (fld (aw d.lines 0) 63 48 + 65536 - x.round) % 65536
    let misuse (why : Nat) : State := (onto s o).misuseEnd n d (srcHive (halfOfObj o)) o why
    (x.kind = 0 → ArrivalEnds s n d o (misuse 1)) ∧
    (x.kind = 3 → ArrivalEnds s n d o ((onto s o).peerLostEnd n d (srcHive (halfOfObj o)) (peerDetail 0x3FFF 0 1))) ∧
    (x.kind = 1 → ahead = 1 → x.pminus1 ≤ x.next → ArrivalEnds s n d o (misuse 2)) ∧
    (x.kind = 1 → 1 < ahead → ArrivalEnds s n d o (misuse 3)) ∧
    (x.kind = 1 → ahead = 1 → x.next < x.pminus1 →
      let counted : State := rewrite s o
        { w0 := stileWord x.round x.pminus1 x.arrived (x.next + 1), w1 := signedBy 1 d }
      (OnObject s n d opStile 0 o → exec (.stileArrive n) s =
        .next (((counted.setWaiters o (s.waitersOf o ++ [
          { test := .round (BitVec.ofNat 16 (fld (aw d.lines 0) 63 48)), owner := .node n, ctx := d.ctx, gen := d.gen
            queue := d.queue, chip := 0x3FFF, chipgen := 0 }])).setNode n
              (some { d with phase := .hive })).wakeWaiters o)) ∧
      (OnObject s n d opStile 1 o → exec (.stileArriveNowait n) s =
        .next ((counted.retireWith n stDone 1 0).wakeWaiters o)))

/-- Tier objects (R253, R254, R264, R265): on a worker the arrival that makes ARRIVED P sends a TIERARRIVE of the round
to the manager and completes nothing, so that ARRIVE stands, and a further one for that round is misuse of reason 6; on
the manager the last arrival completes the round and sends a TIERRELEASE to the workers. An arrival for the next round
is counted in NEXT, which reaches P on a worker alone, and is misuse of reason 2 beyond that; one for any other round is
misuse of reason 3. Every other is counted as at a stile. -/
def TierArrivals : Prop :=
  ∀ (n o : Nat) (d : Node) (s : State), (s.obj o).kind = 2 →
    let x := s.obj o
    let round := fld (aw d.lines 0) 63 48
    let ahead := (round + 65536 - x.round) % 65536
    let worker := s.objWorker o = true
    let put (w0 : Word) : State := rewrite s o { w0 := w0, w1 := signedBy 2 d }
    let filled := stileWord x.round x.pminus1 (x.arrived + 1) x.next
    let misuse (why : Nat) : State := (onto s o).misuseEnd n d (srcHive (halfOfObj o)) o why
    let done (t : State) : State := (t.retireWith n stDone 1 0).wakeWaiters o
    let stands (t : State) : State := ((t.setWaiters o (s.waitersOf o ++ [
      { test := .round (BitVec.ofNat 16 round), owner := .node n, ctx := d.ctx, gen := d.gen
        queue := d.queue, chip := 0x3FFF, chipgen := 0 }])).setNode n (some { d with phase := .hive })).wakeWaiters o
    let counts (t : State) : Prop := (OnObject s n d opStile 0 o → exec (.stileArrive n) s = .next (stands t)) ∧
      (OnObject s n d opStile 1 o → exec (.stileArriveNowait n) s = .next (done t))
    (ahead = 0 → worker → x.arrived = x.pminus1 + 1 → ArrivalEnds s n d o (misuse 6)) ∧
    (ahead = 0 → ¬ (worker ∧ x.arrived = x.pminus1 + 1) → x.arrived ≠ x.pminus1 → counts (put filled)) ∧
    (ahead = 0 → x.arrived = x.pminus1 →
      (worker → counts ((put filled).sendTierarrive o x.round)) ∧
      (¬ worker → ArrivalEnds s n d o
        (done ((put (stileWord (x.round + 1) x.pminus1 x.next 0)).sendTierrelease o x.round)))) ∧
    (ahead = 1 →
      let full := if worker then x.pminus1 + 1 ≤ x.next else x.pminus1 ≤ x.next
      (full → ArrivalEnds s n d o (misuse 2)) ∧
      (¬ full → counts (put (stileWord x.round x.pminus1 x.arrived (x.next + 1))))) ∧
    (1 < ahead → ArrivalEnds s n d o (misuse 3))

/-- ARRIVE and ARRIVE_NOWAIT at a stile of this chip for its present round (R251, R253, R255): an arrival that is
not the last is counted, and ARRIVE then stands as a waiter for the end of the round; the last one opens the next
round with the early arrivals and tests the waiters. Either way NOWAIT retires DONE at once. -/
def ArrivalsFillTheRound : Prop :=
  ∀ (n o : Nat) (d : Node) (s : State), (s.obj o).kind = 1 → fld (aw d.lines 0) 63 48 = (s.obj o).round →
    let x := s.obj o
    let counted : State := rewrite s o
      { w0 := stileWord x.round x.pminus1 (x.arrived + 1) x.next, w1 := signedBy 1 d }
    let complete : State := rewrite s o
      { w0 := stileWord (x.round + 1) x.pminus1 x.next 0, w1 := signedBy 1 d }
    (OnObject s n d opStile 0 o →
      (x.arrived ≠ x.pminus1 → exec (.stileArrive n) s =
        .next (((counted.setWaiters o (s.waitersOf o ++ [
          { test := .round (BitVec.ofNat 16 x.round), owner := .node n, ctx := d.ctx, gen := d.gen
            queue := d.queue, chip := 0x3FFF, chipgen := 0 }])).setNode n
              (some { d with phase := .hive })).wakeWaiters o)) ∧
      (x.arrived = x.pminus1 → exec (.stileArrive n) s =
        .next ((complete.retireWith n stDone 1 0).wakeWaiters o))) ∧
    (OnObject s n d opStile 1 o →
      (x.arrived ≠ x.pminus1 → exec (.stileArriveNowait n) s =
        .next ((counted.retireWith n stDone 1 0).wakeWaiters o)) ∧
      (x.arrived = x.pminus1 → exec (.stileArriveNowait n) s =
        .next ((complete.retireWith n stDone 1 0).wakeWaiters o)))

/-- INIT and RESET of an object with waiters that is not BROKEN are misuse of reason 4, and INIT of a tier object with
65,536 participants of reason 5 (R254, R256; that 4 comes first is the model's choice, log 96). -/
def InitAndResetRefuse : Prop :=
  ∀ (n o : Nat) (d : Node) (s : State),
    let misuse (why : Nat) : State := (onto s o).misuseEnd n d (srcHive (halfOfObj o)) o why
    (s.waitersOf o ≠ [] → (s.obj o).kind ≠ 3 →
      (OnObject s n d opStile 2 o → exec (.stileInit n) s = .next (misuse 4)) ∧
      (OnObject s n d opStile 3 o → exec (.stileReset n) s = .next (misuse 4))) ∧
    ((s.waitersOf o = [] ∨ (s.obj o).kind = 3) → s.inTier o = true → (aw d.lines 1).toNat = 65536 →
      OnObject s n d opStile 2 o → exec (.stileInit n) s = .next (misuse 5))

/-- INIT and RESET of an object without waiters (R249, R254, R256): INIT makes it a stile, or a tier object inside the
tier range, in round 0 with no arrival and P - 1 in its word; RESET makes it a plain object of value 0. That INIT alone
does so to a BROKEN object is the model's reading (log 92). -/
def InitAndResetSetTheObject : Prop :=
  ∀ (n o : Nat) (d : Node) (s : State), s.waitersOf o = [] →
    (OnObject s n d opStile 2 o → (s.inTier o = true → (aw d.lines 1).toNat ≠ 65536) →
      exec (.stileInit n) s = .next (((rewrite s o
        { w0 := stileWord 0 ((aw d.lines 1).toNat - 1) 0 0
          w1 := signedBy (if s.inTier o = true then 2 else 1) d }).retireWith n stDone 1 0).wakeWaiters o)) ∧
    (OnObject s n d opStile 3 o →
      exec (.stileReset n) s = .next (((rewrite s o
        { w0 := 0, w1 := signedBy 0 d }).retireWith n stDone 1 0).wakeWaiters o))

/-- An operation on an object of another chip of the group (R262, R266, R373): a SIGNAL or a WAIT, whose own object of
that number does not stand BROKEN, goes out as a message under the next MSGID, and the sheaf stands in HIVE until the
answer. A direct arrival at a tier object is sent as a TIERARRIVE, and ARRIVE then stands at this chip's own tier object
until it completes the round; where the own object is no tier object it is misuse of reason 7 (R254), and where it is
BROKEN the arrival ends PEER_LOST (the model's reading of R249, R266 and R267, log 91). A chip that the context cannot
reach is a tenant block (R263). -/
def RemoteOperationsAreSent : Prop :=
  ∀ (n : Nat) (d : Node) (s : State),
    let ref := aObjref d.lines
    let chip := refChip ref
    let sent (typ op : Nat) (wait : Bool) : State :=
      (s.sendOp (d.actor n) chip (refObj ref) typ op (aw d.lines 1) wait).setNode n (some { d with phase := .hive })
    s.chipLocal d.ctx chip = false →
    (s.unreachable d.ctx chip = false →
      (Kernel s n d opSignal 0 → exec (.signalAdd n) s = .next (sent 0 0 false)) ∧
      (Kernel s n d opSignal 1 → exec (.signalSet n) s = .next (sent 0 1 false)) ∧
      (Kernel s n d opSignal 2 → exec (.signalOr n) s = .next (sent 0 2 false)) ∧
      (Released s n d opWait → (s.obj (refObj ref)).kind ≠ 3 →
        exec (.wait n) s = .next (sent 2 (aSub d.lines) true)) ∧
      (s.objAllowed d.ctx (refObj ref) = true → Holds s [hiveNeed (refObj ref) false] →
        s.inService (halfOfObj (refObj ref)) = true →
        let o := refObj ref
        let round := fld (aw d.lines 0) 63 48
        let out : State := s.sendOp (d.actor n) chip o 4 3 (BitVec.ofNat 64 round) false
        let ends (t : State) : Prop := (Kernel s n d opStile 0 → exec (.stileArrive n) s = .next t) ∧
          (Kernel s n d opStile 1 → exec (.stileArriveNowait n) s = .next t)
        ((s.obj o).kind = 3 → ends (s.peerLostEnd n d (srcHive d.half) (peerDetail 0x3FFF 0 1))) ∧
        ((s.obj o).kind ≠ 3 → (s.obj o).kind ≠ 2 → ends (s.misuseEnd n d (srcHive d.half) o 7)) ∧
        ((s.obj o).kind = 2 →
          (Kernel s n d opStile 0 → exec (.stileArrive n) s = .next ((out.setWaiters o (s.waitersOf o ++ [
            { test := .direct (BitVec.ofNat 16 round) ((s.obj o).past (BitVec.ofNat 16 round)), owner := .node n
              ctx := d.ctx, gen := d.gen, queue := d.queue, chip := 0x3FFF, chipgen := 0 }])).setNode n
                (some { d with phase := .hive }))) ∧
          (Kernel s n d opStile 1 → exec (.stileArriveNowait n) s =
            .next (out.setNode n (some { d with phase := .hive })))))) ∧
    (s.unreachable d.ctx chip = true →
      let blocked : State := s.tenantBlock n d (srcHive d.half) (refObj ref)
      (Kernel s n d opSignal 0 → exec (.signalAdd n) s = .next blocked) ∧
      (Kernel s n d opSignal 1 → exec (.signalSet n) s = .next blocked) ∧
      (Kernel s n d opSignal 2 → exec (.signalOr n) s = .next blocked) ∧
      (Released s n d opWait → exec (.wait n) s = .next blocked) ∧
      (Kernel s n d opStile 0 → exec (.stileArrive n) s = .next blocked) ∧
      (Kernel s n d opStile 1 → exec (.stileArriveNowait n) s = .next blocked))

/-- CTXCTL CREATE makes a FREE context LIVE with its partition and windows and waits until the checkers hold them
(R281, R282, R283); SETWINDOWS pauses its context until none of it runs (R284); TEARDOWN of a LIVE context performs the
teardown with cause 0 (R283, R291); READACCT writes the accounting record and retires DONE (R285, R304). A context that
R103 does not let the command name refuses it at that field, and a window that R282 does not allow refuses it; a
TEARDOWN of a context that has been torn down retires DONE (R283), and READACCT to an address outside the windows ends
its sheaf WINDOW (R285). Which field a refusal names where several would do, and the space that READACCT of a queue of
the PF must lie in, are the model's reading (log 19). -/
def CtxctlActsOnItsContextParts : Prop :=
  ∀ (n : Nat) (d : Node) (s : State),
    let c := fld (aw d.lines 0) 25 16
    let p := fld (aw d.lines 0) 29 26
    let waiting (t : State) : State := t.setNode n (some { d with phase := .kernel })
    (Kernel s n d opCtxctl 0 → isSystem c = false → (s.ctx c).state = .free → s.ctxNamed c = false →
      s.inService (halfOfCtx c) = true → (s.part p).defined = true → s.badWindow c p d.lines = none →
      exec (.ctxctlCreate n) s = .next ((waiting (s.setCtx c { s.ctx c with
        state := .live, part := p, windows := setWindows [] d.lines, acct := {}, drain := 0 })).loadCheckers c)) ∧
    (Kernel s n d opCtxctl 1 → c ≠ d.ctx → s.inService (halfOfCtx c) = true → (s.ctx c).state = .live →
      s.tears.any (fun t => t.ctx == c) = false →
      exec (.ctxctlTeardown n) s = .next ((waiting s).teardown c 0x00)) ∧
    (Kernel s n d opCtxctl 2 → (s.ctx c).state = .live → s.inService (halfOfCtx c) = true →
      s.badWindow c (s.ctx c).part d.lines = none → (s.ctx c).setwin = none →
      exec (.ctxctlSetwindows n) s = .next ((waiting (s.setCtx c { s.ctx c with setwin := some n })).discardWhere
        fun e => e.ctx == c)) ∧
    (Kernel s n d opCtxctl 0 → (isSystem c = true ∨ (s.ctx c).state ≠ .free ∨ s.ctxNamed c = true ∨
        s.inService (halfOfCtx c) = false) → exec (.ctxctlCreate n) s = .next (s.refuse n d 0 16)) ∧
    (Kernel s n d opCtxctl 0 → isSystem c = false → (s.ctx c).state = .free → s.ctxNamed c = false →
      s.inService (halfOfCtx c) = true →
      ((s.part p).defined = false → exec (.ctxctlCreate n) s = .next (s.refuse n d 0 26)) ∧
      ∀ detail : BitVec 32, (s.part p).defined = true → s.badWindow c p d.lines = some detail →
        exec (.ctxctlCreate n) s = .next (s.retireWith n stFormat 0 detail)) ∧
    (Kernel s n d opCtxctl 1 → (c = d.ctx ∨ s.inService (halfOfCtx c) = false ∨ (s.ctx c).state = .free) →
      exec (.ctxctlTeardown n) s = .next (s.refuse n d 0 16)) ∧
    (Kernel s n d opCtxctl 1 → c ≠ d.ctx → s.inService (halfOfCtx c) = true →
      ((s.ctx c).state = .draining ∨ (s.ctx c).state = .quarantined) →
      exec (.ctxctlTeardown n) s = .next (s.retireWith n stDone 1 0)) ∧
    (Kernel s n d opCtxctl 2 → ((s.ctx c).state ≠ .live ∨ s.inService (halfOfCtx c) = false) →
      exec (.ctxctlSetwindows n) s = .next (s.refuse n d 0 16)) ∧
    (Kernel s n d opCtxctl 2 → (s.ctx c).state = .live → s.inService (halfOfCtx c) = true →
      ∀ detail : BitVec 32, s.badWindow c (s.ctx c).part d.lines = some detail →
        exec (.ctxctlSetwindows n) s = .next (s.retireWith n stFormat 0 detail)) ∧
    (Kernel s n d opCtxctl 3 → s.inService (halfOfCtx c) = false →
      exec (.ctxctlReadacct n) s = .next (s.refuse n d 0 16)) ∧
    (Kernel s n d opCtxctl 3 → s.inService (halfOfCtx c) = true →
      (if (s.queue d.queue).kind = .pf then s.inDevice (aw d.lines 1).toNat 128
        else s.insideCtx d.ctx (aw d.lines 1).toNat 128 true) = false →
      exec (.ctxctlReadacct n) s = .next (s.doom n d
        { status := stWindow, executed := 0, detail := 0xFFD0FFFF, furrow := noFurrow }
        { d.event (srcFrontEnd d.half) kWindow .contain stWindow 0xFFD0FFFF noFurrow with
          address := aw d.lines 1 })) ∧
    (Kernel s n d opCtxctl 3 → s.inService (halfOfCtx c) = true →
      (if (s.queue d.queue).kind = .pf then s.inDevice (aw d.lines 1).toNat 128
        else s.insideCtx d.ctx (aw d.lines 1).toNat 128 true) = true →
      exec (.ctxctlReadacct n) s = .next
        ((s.drive (.memWrite (s.stampOf d.ctx d.gen) false (aw d.lines 1) (s.acctWords c))).retireWith n stDone 1 0))

/-- Once the checkers hold the windows, a CREATE retires DONE, and a SETWINDOWS whose context no longer runs puts its
windows into force, ends the pause and retires DONE (R283, R284). -/
def CheckersLoadedEndsTheCommand : Prop :=
  ∀ (n : Nat) (d : Node) (s : State), isNode n → s.working = true → s.node n = some d → d.phase = .kernel →
    hOp d.lines = opCtxctl →
    let c := fld (aw d.lines 0) 25 16
    (aSub d.lines = 0 → exec (.windowCheckersLoaded n) s = .next (s.retireWith n stDone 1 0)) ∧
    (aSub d.lines = 2 → (s.ctx c).setwin = some n → s.runsWhere (fun e => e.ctx == c) = [] →
      exec (.windowCheckersLoaded n) s = .next (((s.setCtx c { s.ctx c with
        setwin := none, windows := setWindows (s.ctx c).windows d.lines }).loadCheckers c).retireWith n stDone 1 0))

/-- LOADROUTINE with the installer's consent (R101, R102, R241, R242): a length of 0 empties the slot; for another
length that fits, pages are reserved and the image is read from device memory; the image that arrives is the slot's,
whole or, after an uncorrectable error, not at all. -/
def LoadroutineFillsTheSlot : Prop :=
  ∀ (n : Nat) (d : Node) (s : State),
    let i := aSub d.lines
    let len := fld (aw d.lines 0) 31 16
    let t := s.auditCmd d false
    (Released s n d opLoadroutine → s.holderActs = true → bit s.regs.kcmden 0 = true → len ≤ 8192 →
      pagesFor len ≤ (s.loadPages i).length →
      exec (.loadroutine n) s = .next (
        if len = 0 then (t.loadSlot n i 0 []).retireWith n stDone 1 0
        else ((t.setRslot i { t.rslot i with
            loading := (t.rslot i).loading ++ [(n, (t.loadPages i).take (pagesFor len))] }).setNode n
          (some { d with phase := .kernel, reading := (len + 15) / 16 })).drive
            (.memRead (s.stampOf d.ctx d.gen) false (aw d.lines 1) ((len + 15) / 16)))) ∧
    (isNode n → s.working = true → s.node n = some d → d.phase = .kernel → hOp d.lines = opLoadroutine →
      (s.ctx d.ctx).gen = d.gen → (s.rslot i).loading.any (fun e => e.1 == n) = true →
      (∀ ls : List Line, ls.length = d.reading →
        exec (.routineImageRead n ⟨s.stampOf d.ctx d.gen, .lines ls⟩) s =
          .next ((s.loadSlot n i len (instrsOf ls)).retireWith n stDone 1 0)) ∧
      ∀ line : Nat, line < d.reading → s.Canonical → ∃ t : State,
        exec (.routineImageRead n ⟨s.stampOf d.ctx d.gen, .error line⟩) s = .next t ∧
        (t.rslot i).image = [] ∧ (t.rslot i).pages = [] ∧ (t.node n).map (·.phase) = some .doomed)

/-- TALLY writes the tally to its buffer, which a restart keeps, header last, and waits for the read that orders the
writes (R366-R369); once it completes the command retires DONE and the recovery window is over (R362). WRITE_NOTIFY
raises MSI-X vector 1 when it has retired, also where the command is refused for want of a buffer (that R367 means
every retirement is the model's reading, log 41). -/
def TallyWritesThenCompletes : Prop :=
  ∀ (n : Nat) (d : Node) (s : State),
    let d' := { d with phase := .kernel, buffer := s.tallyBuffer d }
    let begun := ((s.auditCmd d false).setNode n (some d')).writeTally d'
    let refused := (s.auditCmd d true).refuse n d 1 0
    ((aw d.lines 1 ≠ 0 ∨ s.recov.tallyValid = true) → s.holderActs = true →
      (Kernel s n d opTally 0 → exec (.tallyWrite n) s = .next begun) ∧
      (Kernel s n d opTally 1 → exec (.tallyWriteNotify n) s = .next begun)) ∧
    (aw d.lines 1 = 0 → s.recov.tallyValid = false → s.holderActs = true →
      (Kernel s n d opTally 0 → exec (.tallyWrite n) s = .next refused) ∧
      (Kernel s n d opTally 1 → exec (.tallyWriteNotify n) s = .next refused)) ∧
    (isNode n → s.working = true → s.node n = some d → d.phase = .kernel → hOp d.lines = opTally →
      (s.ctx d.ctx).gen = d.gen →
      exec (.tallyReadCompletion n ⟨s.stampOf d.ctx d.gen, true⟩) s =
        .next ({ s with recov := { s.recov with window := false } }.retireWith n stDone 1 0)) ∧
    (d.child = none → hOp d.lines = opTally → aSub d.lines = 1 → s.node n = some d → s.regs.msixEnable = true →
      s.msixMasked 1 = false → ∀ fin : Final, s.msixOut 1 ∈ (s.retire n fin).out)

/-- PARTCTL and FAULTCTL (R287, R334, R342), audited first (R429): DEFINE gives a partition without contexts its
clusters, RELEASE takes them and clears its objects, each once the hive cache holds its line (R317, R321; said of
objects that nobody waits at), THRESHOLD sets a source's N and window and forgets the errors counted, ACKLOG
acknowledges records that were written. Each retires DONE; a RELEASE whose objects are not all clear yet waits, and is
not audited again (that it waits so is the model's choice, log 83). -/
def PartctlAndFaultctlRetireDone : Prop :=
  ∀ (n : Nat) (d : Node) (s : State), s.holderActs = true →
    let p := fld (aw d.lines 0) 19 16
    let cl : BitVec 12 := BitVec.ofNat 12 (fld (aw d.lines 0) 43 32)
    let i := fld (aw d.lines 0) 31 16
    let k := fld (aw d.lines 1) 31 0
    let t := s.auditCmd d false
    let releases (u : State) : Prop := exec (.partctlRelease n) s = .next (
      if (u.clearRange p).rangeObjects p = [] then (u.clearRange p).retireWith n stDone 1 0
      else (u.clearRange p).park (.partctlRelease n))
    (Kernel s n d opPartctl 0 → bit s.regs.kcmden 1 = true → s.partCtxs p = [] → cl ≠ 0 →
      s.parts.any (fun e => e.1 != p && e.2.defined && e.2.clusters &&& cl != 0) = false →
      exec (.partctlDefine n) s =
        .next ((t.setPart p { defined := true, clusters := cl }).retireWith n stDone 1 0)) ∧
    (Kernel s n d opPartctl 1 → d.begun = false → bit s.regs.kcmden 1 = true → s.partCtxs p = [] →
      releases ((t.setPart p {}).setNode n (some { d with begun := true }))) ∧
    (Kernel s n d opPartctl 1 → d.begun = true → releases s) ∧
    (s.Canonical → (∀ k ∈ s.rangeObjects p, s.waitersOf k = []) →
      ((∀ k ∈ s.rangeObjects p, s.lineHeld (hiveNeed k true) = true) → (s.clearRange p).rangeObjects p = []) ∧
      (∀ k, (k ∉ s.rangeObjects p ∨ s.lineHeld (hiveNeed k true) = false) → (s.clearRange p).obj k = s.obj k) ∧
      (s.clearRange p).audit = s.audit ∧ (s.clearRange p).queues = s.queues) ∧
    (Kernel s n d opFaultctl 0 → bit s.regs.kcmden 2 = true → sourceListed i = true →
      exec (.faultctlThreshold n) s = .next ((t.setSource i { t.source i with
        n := BitVec.ofNat 8 (fld (aw d.lines 0) 39 32)
        window := BitVec.ofNat 22 (fld (aw d.lines 1) 31 0), subs := [] }).retireWith n stDone 1 0)) ∧
    (Kernel s n d opFaultctl 1 → k ≤ (s.faults.written - s.faults.acked).toNat →
      exec (.faultctlAcklog n) s = .next
        ({ t with faults := { t.faults with acked := t.faults.acked + BitVec.ofNat 16 k } }.retireWith
          n stDone 1 0))

/-- The commands of R102 that need the installer's consent retire PRIV without it, with the opcode in DETAIL, and are
audited as ignored (R101, R429). While no half may hold charge, a chip-wide command waits (R29, R365; that it waits is
the model's reading, log 48). -/
def ConsentIsNeeded : Prop :=
  ∀ (n : Nat) (d : Node) (s : State),
    let denied := Host.Outcome.next ((s.auditCmd d true).retireWith n stPriv 0 (BitVec.ofNat 32 (hOp d.lines)))
    (s.holderActs = true →
      (Released s n d opLoadroutine → bit s.regs.kcmden 0 = false → exec (.loadroutine n) s = denied) ∧
      (Kernel s n d opPartctl 0 → bit s.regs.kcmden 1 = false → exec (.partctlDefine n) s = denied) ∧
      (Kernel s n d opPartctl 1 → d.begun = false → bit s.regs.kcmden 1 = false →
        exec (.partctlRelease n) s = denied) ∧
      (Kernel s n d opFaultctl 0 → bit s.regs.kcmden 2 = false → exec (.faultctlThreshold n) s = denied)) ∧
    (s.holderActs = false →
      (Released s n d opLoadroutine → exec (.loadroutine n) s = .next s) ∧
      (Kernel s n d opPartctl 0 → exec (.partctlDefine n) s = .next s) ∧
      (Kernel s n d opPartctl 1 → exec (.partctlRelease n) s = .next s) ∧
      (Kernel s n d opFaultctl 0 → exec (.faultctlThreshold n) s = .next s) ∧
      (Kernel s n d opFaultctl 1 → exec (.faultctlAcklog n) s = .next s) ∧
      (Kernel s n d opTally 0 → exec (.tallyWrite n) s = .next s) ∧
      (Kernel s n d opTally 1 → exec (.tallyWriteNotify n) s = .next s))

/-- Acknowledgements of a teardown, of a queue's destruction, of memory and of the drain limit (R291, R293-R295): one
that is not the last is counted, the last completes the teardown, or makes the queue FREE; the last write of a
DRAINING context frees it, any other is counted, one of an older chip reset generation is dropped (R289), and one that
nothing awaits is a fault of the port (R331 as the model reads it, log 14); a context that is still DRAINING at its
limit is QUARANTINED, with a NOTE. -/
def ContextsDrainToFreeParts : Prop :=
  (∀ (c port : Nat) (s : State), isCtx c → isPort port → s.working = true → (s.ctx c).state = .teardown →
    (s.ctx c).acks.contains port = true → (s.furrow port).run = none →
    exec (.teardownAck (.context c) port) s = .next (
      if (s.ctx c).acks.filter (· != port) = [] then s.tearDone c
      else s.setCtx c { s.ctx c with acks := (s.ctx c).acks.filter (· != port) })) ∧
  (∀ (q port : Nat) (s : State), isQueue q → isPort port → s.working = true → (s.queue q).state = .busy →
    (s.queue q).acks.contains port = true → (s.furrow port).run = none →
    exec (.teardownAck (.queue q) port) s = .next (
      if (s.queue q).acks.filter (· != port) = [] then s.queueFree q
      else s.setQueue q { s.queue q with acks := (s.queue q).acks.filter (· != port) })) ∧
  (∀ (c : Nat) (chipgen : BitVec 8) (s : State), isCtx c → s.working = true → s.memOn = true →
    (chipgen = s.recov.chipgen → (s.ctx c).drain ≠ 0 → exec (.writeAck ⟨c, chipgen⟩) s = .next (s.setCtx c (
      if (s.ctx c).drain = 1 ∧ (s.ctx c).state = .draining
      then { s.ctx c with drain := 0, state := .free, windows := [] }
      else { s.ctx c with drain := (s.ctx c).drain - 1 }))) ∧
    (chipgen = s.recov.chipgen → (s.ctx c).drain = 0 → exec (.writeAck ⟨c, chipgen⟩) s =
      .next (s.raise { source := srcMemPort, kind := kPort, cls := .severe })) ∧
    (chipgen ≠ s.recov.chipgen → exec (.writeAck ⟨c, chipgen⟩) s = .next s)) ∧
  ∀ (c : Nat) (s : State), isCtx c → s.working = true → (s.ctx c).state = .draining → (s.ctx c).drainDue ≤ s.now →
    exec (.quarantine c) s = .next ((s.setCtx c { s.ctx c with state := .quarantined }).raise
      { source := srcFrontEnd (halfOfCtx c), kind := kQuarantine, cls := .note
        ctx := some (c, (s.ctx c).gen) })

/-- An access outside the windows ends the engine's run (R281); its sheaf is doomed with WINDOW, the furrow and the
committed iterations, unless a teardown of its context for another cause is asked for already (R305). Of a run whose
sheaf the destruction of its queue has withdrawn since, the context is torn down all the same, and the record names how
the sheaf ended, and the address (R281, R295, R336). A remote write
that was dropped is a NOTE that names the context and the address (R281, R335). -/
def WindowViolationEndsTheRun : Prop :=
  (∀ (f : Nat) (addr : Word) (write : Bool) (r : EngineRun) (d : Node) (s : State), RunsSheaf s f r d →
    ∃ t : State, exec (.windowViolation ⟨f, s.runStamp r⟩ addr write) s = .next t ∧ (t.furrow f).run = none ∧
      t.node r.entry.node = some { d with
        phase := .doomed
        endedIn := 6
        final := if s.tearCovered d.ctx = true then none else
          some { status := stWindow, executed := d.executed, detail := s.accessDetail addr write none
                 furrow := BitVec.ofNat 10 f } } ∧ t.queues = s.queues) ∧
  (∀ (f : Nat) (addr : Word) (write : Bool) (r : EngineRun) (d : Node) (s : State), isFurrow f → s.working = true →
    s.engineOn = true → s.Canonical → (s.furrow f).run = some r → s.runNode r = none → r.orphan = some d →
    (s.ctx d.ctx).gen = d.gen → d.phase ≠ .doomed →
    let none1 : EngineReport := { stamp := s.runStamp r, maxexp := none, clipped := 0, memread := 0, memwrite := 0
                                  linksent := 0, energy := 0, writes := 0, ecc := false }
    exec (.windowViolation ⟨f, s.runStamp r⟩ addr write) s =
      .next ((((s.account f r none1 true).traceEnd f r true).clearRun f).raise
        { d.event (srcFurrow f) kWindow .contain stWindow 0x200 (BitVec.ofNat 10 f) with
          status := stWithdrawn, address := addr })) ∧
  ∀ (f c : Nat) (addr : Word) (s : State), isFurrow f → isCtx c → s.working = true → s.engineOn = true →
    exec (.remoteWriteDrop f c addr) s = .next (s.raise
      { source := srcFurrow f, kind := kRemoteWriteDrop, cls := .note, ctx := some (c, (s.ctx c).gen)
        furrow := BitVec.ofNat 10 f, address := addr })

/-- The register operations (R209, R222): RD takes the result of RA and RB, and the run goes on. -/
def RegisterOperations : Prop :=
  ∀ (k fr rd ra rb : Nat) (r : Run) (s : State), areRegs rd ra rb →
    let a := r.reg ra
    let b := r.reg rb
    let n := b.toNat % 64
    let run := fun fn => Executes s k fr r (encReg 0x00 rd ra rb fn)
    let is := fun v => Host.Outcome.next (wrote s k fr r rd v)
    (run 0 → exec (.add k rd ra rb) s = is (a + b)) ∧
    (run 1 → exec (.sub k rd ra rb) s = is (a - b)) ∧
    (run 2 → exec (.and k rd ra rb) s = is (a &&& b)) ∧
    (run 3 → exec (.or k rd ra rb) s = is (a ||| b)) ∧
    (run 4 → exec (.xor k rd ra rb) s = is (a ^^^ b)) ∧
    (run 5 → exec (.sll k rd ra rb) s = is (a <<< n)) ∧
    (run 6 → exec (.srl k rd ra rb) s = is (a >>> n)) ∧
    (run 7 → exec (.sra k rd ra rb) s = is (a.sshiftRight n)) ∧
    (run 8 → exec (.mul k rd ra rb) s = is (a * b)) ∧
    (run 9 → exec (.mulhu k rd ra rb) s = is (BitVec.ofNat 64 (a.toNat * b.toNat / 2 ^ 64))) ∧
    (run 10 → exec (.slt k rd ra rb) s = is (if a.toInt < b.toInt then 1 else 0)) ∧
    (run 11 → exec (.sltu k rd ra rb) s = is (if a.toNat < b.toNat then 1 else 0)) ∧
    (run 12 → exec (.min k rd ra rb) s = is (if a.toInt < b.toInt then a else b)) ∧
    (run 13 → exec (.max k rd ra rb) s = is (if a.toInt < b.toInt then b else a)) ∧
    (run 14 → exec (.minu k rd ra rb) s = is (if a.toNat < b.toNat then a else b)) ∧
    (run 15 → exec (.maxu k rd ra rb) s = is (if a.toNat < b.toNat then b else a)) ∧
    (run 16 → exec (.clz k rd ra rb) s = is (BitVec.ofNat 64 (if a = 0 then 64 else 63 - a.toNat.log2))) ∧
    (run 17 → exec (.popc k rd ra rb) s =
      is (BitVec.ofNat 64 ((List.range 64).countP fun i => a.getLsbD i)))

/-- The immediates (R222): ADDI sign-extends, the logic ones zero-extend, SHIFTI shifts by IMM bits 5:0 in the
direction of bits 7:6, LUI writes sext(IMM) << 16 and SHORI shifts RA by 16 and adds IMM. -/
def ImmediateOperations : Prop :=
  ∀ (k fr rd ra : Nat) (imm : BitVec 16) (r : Run) (s : State), isReg rd → isReg ra →
    let a := r.reg ra
    let n := imm.toNat % 64
    let run := fun maj => Executes s k fr r (encImm maj rd ra imm)
    let is := fun v => Host.Outcome.next (wrote s k fr r rd v)
    (run 0x01 → exec (.addi k rd ra imm) s = is (a + imm.signExtend 64)) ∧
    (run 0x02 → exec (.andi k rd ra imm) s = is (a &&& imm.setWidth 64)) ∧
    (run 0x03 → exec (.ori k rd ra imm) s = is (a ||| imm.setWidth 64)) ∧
    (run 0x04 → exec (.xori k rd ra imm) s = is (a ^^^ imm.setWidth 64)) ∧
    (run 0x05 → (imm.extractLsb' 6 2 = 0 → exec (.shifti k rd ra imm) s = is (a <<< n)) ∧
      (imm.extractLsb' 6 2 = 1 → exec (.shifti k rd ra imm) s = is (a >>> n)) ∧
      (imm.extractLsb' 6 2 = 2 → exec (.shifti k rd ra imm) s = is (a.sshiftRight n))) ∧
    (run 0x06 → exec (.lui k rd ra imm) s = is (imm.signExtend 64 <<< 16)) ∧
    (run 0x07 → exec (.shori k rd ra imm) s = is (a <<< 16 ||| imm.setWidth 64))

/-- g0 reads zero and discards what is written to it (R209); another register holds what was written, and the others
what they held. -/
def RegisterZeroIsZero : Prop :=
  ∀ (r : Run) (i j : Nat) (v : Word), Tbl.wf (0 : Word) r.regs = true →
    r.reg 0 = 0 ∧ (r.setReg 0 v).reg 0 = 0 ∧ (r.setReg 0 v).reg j = r.reg j ∧
    (i ≠ 0 → (r.setReg i v).reg i = v) ∧ (j ≠ i → (r.setReg i v).reg j = r.reg j) ∧
    Tbl.wf (0 : Word) (r.setReg i v).regs = true

/-- MFILL and MDRAIN inside frame and windows (R230): the run blocks with its transfer; MFILL reads the lines and MDRAIN
writes them out of the frame. When the transfer completes, MFILL's lines stand in the frame, and the run is ready; a
reply of an older generation is dropped (R290). Outside the frame or misaligned they trap (R239; that DMEM comes first
where both hold is the model's reading, log 43). -/
def BlockTransfersMoveLines : Prop :=
  ∀ (k fr : Nat) (r : Run) (s : State),
    (∀ rd ra rb lines : Nat, areRegs rd ra rb → 1 ≤ lines → lines ≤ 64 →
      blockCause (r.reg ra).toNat (r.reg rb).toNat lines = none →
      (Executes s k fr r (encReg 0x0F rd ra rb (32 * (lines - 1))) →
        s.insideMem r.ctx (r.reg ra).toNat (64 * lines) false = true →
        exec (.mfill k rd ra rb lines) s = .next ((s.blockRun k fr
          { r.next with xfer := some { fill := true, frame := (r.reg rb).toNat, lines := lines, addr := r.reg ra } }
            .block).drive (.memRead (s.stampOf r.ctx r.gen) false (r.reg ra) lines))) ∧
      (Executes s k fr r (encReg 0x0F rd ra rb (1 + 32 * (lines - 1))) →
        s.insideMem r.ctx (r.reg ra).toNat (64 * lines) true = true →
        exec (.mdrain k rd ra rb lines) s = .next (((s.blockRun k fr
          { r.next with xfer := some { fill := false, frame := (r.reg rb).toNat, lines := lines, addr := r.reg ra } }
            .block).modCtx r.ctx fun x => { x with drain := x.drain + lines }).drive
              (.memWrite (s.stampOf r.ctx r.gen) false (r.reg ra)
                (Memory.lines r.mem (r.reg rb).toNat lines).flatten)))) ∧
    (∀ rd ra rb lines : Nat, areRegs rd ra rb → 1 ≤ lines → lines ≤ 64 →
      let m := (r.reg ra).toNat
      let f := (r.reg rb).toNat
      let traps (w : BitVec 32) := Host.Outcome.next (s.trap k fr r
        { cause := if 0x7E00 < f + 64 * lines then 0x03 else 0x04, word := w })
      (0x7E00 < f + 64 * lines ∨ m % 64 ≠ 0 ∨ f % 64 ≠ 0) →
      (Executes s k fr r (encReg 0x0F rd ra rb (32 * (lines - 1))) →
        exec (.mfill k rd ra rb lines) s = traps (encReg 0x0F rd ra rb (32 * (lines - 1)))) ∧
      (Executes s k fr r (encReg 0x0F rd ra rb (1 + 32 * (lines - 1))) →
        exec (.mdrain k rd ra rb lines) s = traps (encReg 0x0F rd ra rb (1 + 32 * (lines - 1))))) ∧
    ∀ x : Transfer, isCore k → isFrame fr → s.coreOn k = true → s.runAt k fr = some r →
      s.callLive r = true → r.xfer = some x →
      (∀ ls : List Line, x.fill = true → ls.length = x.lines → ls.all (fun l => l.length == 8) = true →
        exec (.blockTransferComplete k fr ⟨s.stampOf r.ctx r.gen, .lines ls⟩) s = .next ((s.setRun k fr { r with
          xfer := none, mem := Memory.writeWords r.mem x.frame ls.flatten }).readyRun k fr)) ∧
      (∀ rr : ReadResult, x.fill = false → exec (.blockTransferComplete k fr ⟨s.stampOf r.ctx r.gen, rr⟩) s =
        .next ((s.setRun k fr { r with xfer := none }).readyRun k fr)) ∧
      ∀ (st : Stamp) (rr : ReadResult), st ≠ s.stampOf r.ctx r.gen →
        exec (.blockTransferComplete k fr ⟨st, rr⟩) s = .next s

/-- TLD and TST (R227-R229): with its line in the core's cache TLD writes the table's word to RD, and TST, with the line
writable, writes the handle's descriptor, which the next issue takes, while the handle lives (R228; that its lines stay
where its latest issue stood is the model's reading, log 84); without the line the cache asks for it, and the run stalls
until it is held. An address that names nothing traps with TABLE. -/
def TableAccesses : Prop :=
  ∀ (k fr rd ra rb : Nat) (r : Run) (s : State), areRegs rd ra rb →
    let agent := s.coreAgent k
    (Executes s k fr r (encReg 0x10 rd ra rb 0) →
      (∀ t : TableRef, s.tableRead r (r.reg ra) = some t →
        (s.readable agent t.line = true → exec (.tld ⟨k, none⟩ rd ra rb) s = .next (wrote s k fr r rd t.value)) ∧
        (s.readable agent t.line = false → exec (.tld ⟨k, none⟩ rd ra rb) s =
          .next ((s.localRead agent t.line).stallRun k fr r (.read t.line rd (r.reg ra))))) ∧
      (s.tableRead r (r.reg ra) = none → ∀ bad : Option Found, exec (.tld ⟨k, bad⟩ rd ra rb) s =
        .next (s.trap k fr r { cause := 0x05, word := encReg 0x10 rd ra rb 0 }))) ∧
    (Executes s k fr r (encReg 0x10 rd ra rb 1) →
      let traps := Host.Outcome.next (s.trap k fr r { cause := 0x05, word := encReg 0x10 rd ra rb 1 })
      (∀ (h : Handle) (j i : Nat), State.tableTarget r (r.reg ra) = some (h, j, i) →
        (s.writable agent (descLine h.slot j) = true → exec (.tst k rd ra rb) s =
          .next ((s.localWrite agent (descLine h.slot j)).setRun k fr (Run.next { r with
            handles := r.handles.map fun (x : Handle) =>
              if x.num = h.num then { x with lines := setWord x.lines j i (r.reg rb) } else x }))) ∧
        (s.writable agent (descLine h.slot j) = false → exec (.tst k rd ra rb) s =
          .next ((s.localWrite agent (descLine h.slot j)).stallRun k fr r
            (.write (descLine h.slot j) h.num j i (r.reg rb))))) ∧
      (State.tableTarget r (r.reg ra) = none → exec (.tst k rd ra rb) s = traps))

/-- Address streams (R237): SBIND binds a free port to an issue that may have one, with 256 credits; SPUSH and SEND
put an entry or the end marker into the port, from the prefill before the start and for a credit after it, and send a
line that is full or ended; without room or credit they block the run until a credit returns; SCRED reads the room
left, 0 once the stream has ended, and a push after that traps with STREAM. That the port operand is what RA holds is
the model's choice (log 12), and that a port which the run has not bound, or a handle that is not live, traps with
STREAM too (log 103); a routine of slots 1 to 9 notes what it has pushed or bound (R244). -/
def StreamsCarryEntriesParts : Prop :=
  ∀ (k fr rd ra rb : Nat) (r : Run) (s : State), areRegs rd ra rb →
    let i := (r.reg ra).toNat
    let acts (fn : Nat) : Run := s.acted r (encReg 0x11 rd ra rb fn)
    (∀ (h : Handle) (n : Nat) (d : Node), Executes s k fr r (encReg 0x11 rd ra rb 0) → i < 4 →
      (∀ p : Port, Tbl.get none (s.core k).ports i = some p → p.dead = true) → r.handle (r.reg rb).toNat = some h →
      s.issueNode r.call h.issue = some (n, d) → bindable d = true →
      exec (.sbind k rd ra rb) s = .next ((s.setPort k i (some
        { call := r.call, bound := some h.issue, started := false, prefill := [], credits := 256, line := []
          ended := false, dead := false })).doneRun k fr (acts 0))) ∧
    (let traps (fn : Nat) := Host.Outcome.next (s.trap k fr r { cause := 0x09, word := encReg 0x11 rd ra rb fn })
     (Executes s k fr r (encReg 0x11 rd ra rb 0) → (4 ≤ i ∨ r.handle (r.reg rb).toNat = none) →
       exec (.sbind k rd ra rb) s = traps 0) ∧
     (s.runPort k r ra = none →
       (Executes s k fr r (encReg 0x11 rd ra rb 1) → exec (.spush k rd ra rb) s = traps 1) ∧
       (Executes s k fr r (encReg 0x11 rd ra rb 2) → exec (.send k rd ra rb) s = traps 2) ∧
       (Executes s k fr r (encReg 0x11 rd ra rb 3) → exec (.scred k rd ra rb) s = traps 3))) ∧
    (∀ p : Port, s.runPort k r ra = some (i, p) → p.ended = true →
      (Executes s k fr r (encReg 0x11 rd ra rb 1) → exec (.spush k rd ra rb) s =
        .next (s.trap k fr r { cause := 0x09, word := encReg 0x11 rd ra rb 1 })) ∧
      (Executes s k fr r (encReg 0x11 rd ra rb 2) → exec (.send k rd ra rb) s =
        .next (s.trap k fr r { cause := 0x09, word := encReg 0x11 rd ra rb 2 })) ∧
      (Executes s k fr r (encReg 0x11 rd ra rb 3) → exec (.scred k rd ra rb) s = .next (wrote s k fr r rd 0))) ∧
    ∀ p : Port, s.runPort k r ra = some (i, p) → p.dead = false → p.ended = false →
      ((if p.started = true then p.credits = 0 else 32 ≤ p.prefill.length) →
        (Executes s k fr r (encReg 0x11 rd ra rb 1) →
          exec (.spush k rd ra rb) s = .next (s.blockRun k fr r (.credit i))) ∧
        (Executes s k fr r (encReg 0x11 rd ra rb 2) →
          exec (.send k rd ra rb) s = .next (s.blockRun k fr r (.credit i)))) ∧
      (p.started = false → p.prefill.length < 32 →
        (Executes s k fr r (encReg 0x11 rd ra rb 1) → p.line.length < 8 → exec (.spush k rd ra rb) s = .next
          ((s.setPort k i (some { p with prefill := p.prefill ++ [some (r.reg rb)] })).doneRun k fr (acts 1))) ∧
        (Executes s k fr r (encReg 0x11 rd ra rb 2) → exec (.send k rd ra rb) s = .next
          (((s.setPort k i (some { p with prefill := p.prefill ++ [none], ended := true })).flushLine k i).doneRun
            k fr (acts 2))) ∧
        (Executes s k fr r (encReg 0x11 rd ra rb 3) → exec (.scred k rd ra rb) s =
          .next (wrote s k fr r rd (BitVec.ofNat 64 (32 - p.prefill.length))))) ∧
      (p.started = true → p.credits ≠ 0 →
        (Executes s k fr r (encReg 0x11 rd ra rb 1) → p.line.length < 7 → exec (.spush k rd ra rb) s = .next
          ((s.setPort k i (some { p with
            credits := p.credits - 1, line := p.line ++ [some (r.reg rb)] })).doneRun k fr (acts 1))) ∧
        (Executes s k fr r (encReg 0x11 rd ra rb 1) → p.line.length = 7 → exec (.spush k rd ra rb) s = .next
          (((s.setPort k i (some { p with
            credits := p.credits - 1, line := p.line ++ [some (r.reg rb)] })).flushLine k i).doneRun k fr (acts 1))) ∧
        (Executes s k fr r (encReg 0x11 rd ra rb 2) → exec (.send k rd ra rb) s = .next
          (((s.setPort k i (some { p with
            credits := p.credits - 1, line := p.line ++ [none], ended := true })).flushLine
            k i).doneRun k fr (acts 2))) ∧
        (Executes s k fr r (encReg 0x11 rd ra rb 3) → exec (.scred k rd ra rb) s =
          .next (wrote s k fr r rd (BitVec.ofNat 64 p.credits))))

/-- A partial line that has waited is sent (R237), and an entry that the engine takes returns its credit, with which
an end marker that waited for one leaves; a return beyond 256 violates the port's protocol (R331 as the model reads it,
log 14). -/
def StreamLinesAndCredits : Prop :=
  (∀ (k fr port : Nat) (r : Run) (p : Port) (s : State), isCore k → isFrame fr → port < 4 → s.coreOn k = true →
    s.runAt k fr = some r → Tbl.get none (s.core k).ports port = some p → p.call = r.call → p.ended = false →
    exec (.streamLineTimeout k fr port) s = .next (s.flushLine k port)) ∧
  ∀ (f call i j : Nat) (run : EngineRun) (d : Node) (p : Port) (s : State), isFurrow f → s.working = true →
    s.engineOn = true → (s.furrow f).run = some run → s.runNode run = some d → d.child = some (call, i) →
    s.portOf call i = some (j, p) →
    exec (.streamCreditReturn ⟨f, s.runStamp run⟩) s = .next (
      if p.started = true ∧ p.credits < 256 then
        if p.ended = true ∧ p.line ≠ [] then s.flushLine (s.callCore call) j
        else (s.setPort (s.callCore call) j (some { p with credits := p.credits + 1 })).wakeCredit (s.callCore call) j
      else s.portViolation f)

/-- The SYS functions (R216, R219, R238, R239, R352): EXIT ends the run and queues the next one, or ends the CALL DONE;
TRAP traps with cause ROUTINE; YIELD gives the core to another ready run; HEARTBEAT restarts the CALL's timer and, on a
queue of the PF, counts as a heartbeat; MFS reads a special register, MTS writes the LC shadow, SYNC goes on if
no stream line of the run gathers and no push of it waits for the start of its issue, and blocks the run otherwise
(that a push has been performed when it is sent is the model's reading, log 85), and TRACE leaves a routine mark. A
routine of slots 1 to 9 notes its heartbeats and marks (R244). -/
def SysFunctionsParts : Prop :=
  ∀ (k fr rd ra rb : Nat) (r : Run) (d : Node) (s : State), areRegs rd ra rb → s.node r.call = some d →
    let run := fun fn => Executes s k fr r (encReg 0x3F rd ra rb fn)
    let ended : Node := { d with runsDone := d.runsDone + 1 }
    (run 0 → exec (.exit k rd ra rb) s = .next (
      if d.runsDone + 1 < hRepeat d.lines then
        ((s.endRun k fr).setNode r.call (some ended)).queueRun r.call ended
      else ((s.endRun k fr).setNode r.call (some { ended with
        final := some { status := stDone, executed := d.runsDone + 1, detail := 0, furrow := noFurrow } })).endCall
          r.call)) ∧
    (run 1 → exec (.sysTrap k rd ra rb) s = .next (s.trap k fr r
      { cause := 0x0B, word := encReg 0x3F rd ra rb 1, ra := fld (r.reg ra) 31 0 })) ∧
    (run 2 →
      let left := (s.setRun k fr { r.next with readyAt := s.stamp }).tickStamp.leaveCore k
      exec (.yield k rd ra rb) s = .next (left.makeCurrent k
        ((left.nextRun k fun x => decide (x.st = .ready) && decide (x.call ≠ r.call)).getD fr))) ∧
    (run 3 →
      let went := (s.setRun k fr (s.acted r (encReg 0x3F rd ra rb 3)).next).restartTimer r.call
      exec (.sysHeartbeat k rd ra rb) s =
        .next (if (went.queue r.queue).kind = .pf then went.heartbeat else went)) ∧
    (run 4 → rb ≠ 2 → exec (.mfs k rd ra rb) s = .next (wrote s k fr r rd (s.special k r rb))) ∧
    (run 5 → exec (.mts k rd ra rb) s = .next (s.setRun k fr { r with lc := r.reg ra }.next)) ∧
    (let waits (p : Port) : List (Option Word) := if p.started = true then p.line else p.prefill
     run 6 →
      ((∀ e ∈ (s.core k).ports, ∀ p : Port, e.2 = some p → p.call = r.call → p.dead = false → waits p = []) →
        exec (.sync k rd ra rb) s = .next (s.setRun k fr r.next)) ∧
      ((∃ e ∈ (s.core k).ports, ∃ p : Port, e.2 = some p ∧ p.call = r.call ∧ p.dead = false ∧ waits p ≠ []) →
        exec (.sync k rd ra rb) s = .next (s.blockRun k fr r .sync))) ∧
    (run 7 → exec (.sysTrace k rd ra rb) s = .next (((s.traceRec 5 r.queue (some r.ctx)
      (traceW1 d.tag (fld (r.reg ra) 31 0))).setRun k fr (s.acted r (encReg 0x3F rd ra rb 7)).next)))

/-- A run that SYNC has blocked is ready once the last of its pushes has been performed (R236): with the port that held
it written, and no other of its CALL, the run can be current again, and its SYNC then goes on. -/
def PushesEndASync : Prop :=
  ∀ (k fr i : Nat) (r : Run) (p : Port) (s : State), isCore k → isFrame fr → s.Canonical → s.runAt k fr = some r →
    r.st = .sync → (∀ fr' r', s.runAt k fr' = some r' → r'.st = .sync → fr' = fr) → p.call = r.call →
    (∀ e ∈ (s.core k).ports, e.1 ≠ i → ∀ q : Port, e.2 = some q → q.call ≠ r.call) →
    let waits : List (Option Word) := if p.started = true then p.line else p.prefill
    let t := s.setPort k i (some p)
    (p.dead = false → waits ≠ [] → t.runAt k fr = some r) ∧
    ((p.dead = true ∨ waits = []) → (t.runAt k fr).map (fun x => (x.pc, x.call)) = some (r.pc, r.call) ∧
      (t.runAt k fr).map (fun x => x.st) ≠ some .sync)

/-- The routines of the library ROM at their run's turn (R244), whatever the instruction: one whose CALL gives another
number of arguments than its contract has, or one out of its range, takes SYS TRAP with code 1 or 2 in RA; NULL, and any
other whose contract has been met, ends its run. Where the ROM has its SYS TRAP is open, and so is that the end comes at
once (log 12). -/
def ShippedRoutinesKeepTheirContract : Prop :=
  ∀ (k fr rd ra rb : Nat) (r : Run) (d : Node) (c : Instr) (s : State), areRegs rd ra rb →
    c ∈ [Instr.exit k rd ra rb, .add k rd ra rb, .spush k rd ra rb, .emit k rd ra rb, .hadd k rd ra rb,
      .sysHeartbeat k rd ra rb, .sysTrace k rd ra rb, .sysTrap k rd ra rb] →
    isCore k → s.coreOn k = true → s.currentRun k = some (fr, r) → r.stall = none → r.slot < 64 →
    s.node r.call = some d →
    let argc := fld (aw d.lines 0) 18 16
    let a (i : Nat) : Nat := (aw d.lines (i + 1)).toNat
    let traps (code : Nat) : Prop := ∃ (pc : Nat) (w : BitVec 32), exec c s =
      .next (s.useFree.useFree.trap k fr { r with pc := pc } { cause := 0x0B, word := w, ra := code })
    (r.slot = 7 → argc ≠ 6 → traps 1) ∧
    (r.slot = 7 → argc = 6 → (a 3 % 64 ≠ 0 ∨ a 4 % 64 ≠ 0 ∨ a 4 < 64 ∨ 0x3EF < a 5) → traps 2) ∧
    (r.slot = 8 → argc ≠ 4 → traps 1) ∧ (r.slot = 8 → argc = 4 → (16 < a 1 ∨ a 2 = 0) → traps 2) ∧
    (r.slot = 9 → argc ≠ 2 → traps 1) ∧ (r.slot = 9 → argc = 2 → (a 0 < 100 ∨ 100000 < a 0) → traps 2) ∧
    (r.slot = 10 → argc ≠ 1 → traps 1) ∧
    let ended : Node := { d with runsDone := d.runsDone + 1 }
    let ends : Prop := exec c s = .next (if d.runsDone + 1 < hRepeat d.lines then
        ((s.endRun k fr).setNode r.call (some ended)).queueRun r.call ended
      else ((s.endRun k fr).setNode r.call (some { ended with
        final := some { status := stDone, executed := d.runsDone + 1, detail := 0, furrow := noFurrow } })).endCall
          r.call)
    (r.slot = 0 → argc = 0 → ends) ∧
    (r.slot = 10 → argc = 1 → r.track.n = 1 → ends) ∧
    (r.slot = 8 → argc = 4 → a 1 ≤ 16 → 0 < a 2 → a 2 ≤ r.track.row → ends) ∧
    (r.slot = 9 → argc = 2 → 100 ≤ a 0 → a 0 ≤ 100000 → refChip (fld (aw d.lines 2) 31 0) = 0x3FFF →
      (s.obj (refObj (fld (aw d.lines 2) 31 0))).w0 ≠ 0 → ends)

/-- An engine's signal report that passes the four checks of R260 changes its plain object, or with OP 3 counts as an
ARRIVE_NOWAIT at its stile or tier object, names its signaller and tests the waiters (R249, R253, R257), once the hive
cache holds the object's line writable; until then it is held (R321; that it is held as a whole is the model's choice,
log 83). A stale one is counted and dropped; one for a lost half, of another tenant or whose object's kind or round it
misuses is dropped with a NOTE, the last two counted (R260, R263, R274). -/
def SignalReportsReachTheObject : Prop :=
  ∀ (f : Nat) (w0 w1 w2 : Word) (s : State), isFurrow f → s.working = true → s.engineOn = true →
    s.hiveOn (halfOfObj (fld w0 17 0)) = true →
    let o := fld w0 17 0
    let op := fld w0 21 19
    let x := s.obj o
    let gives (t : State) : Prop := exec (.signalReport f w0 w1 w2) s = .next t
    let drop (t : State) : State := t.raise { source := srcHive (halfOfObj o), kind := kHiveDrop, cls := .note
                                              ctx := if w2Chip w2 = 0x3FFF then some (w2Ctx w2, w2Gen w2) else none
                                              tag := BitVec.ofNat 32 (fld w0 63 32) }
    let misused : State := drop { onto s o with hivestat := { s.hivestat with misuse := satInc s.hivestat.misuse } }
    (op < 4 → s.reportStale w2 = true →
      gives { s with hivestat := { s.hivestat with stale := satInc s.hivestat.stale } }) ∧
    (op < 4 → s.reportStale w2 = false → s.inService (halfOfObj o) = false → gives (drop s)) ∧
    (op < 4 → s.reportStale w2 = false → s.inService (halfOfObj o) = true → s.reportTenant o w2 = false →
      gives (drop { s with hivestat := { s.hivestat with blocked := satInc s.hivestat.blocked } })) ∧
    (op < 4 → s.reportStale w2 = false → s.inService (halfOfObj o) = true → s.reportTenant o w2 = true →
      (¬ Holds s [hiveNeed o true] → gives ((s.askLine (hiveNeed o true)).hold (.signalReport f w0 w1 w2))) ∧
      (Holds s [hiveNeed o true] →
        let put (kind : Nat) (v : Word) : State := rewrite s o { w0 := v, w1 := signed kind (reportSigner w0 w2) }
        let ahead := (fld w1 15 0 + 65536 - x.round) % 65536
        (op < 3 → x.kind = 0 → gives ((put 0
          (if op = 0 then x.w0 + w1 else if op = 1 then w1 else x.w0 ||| w1)).wakeWaiters o)) ∧
        (op < 3 → x.kind ≠ 0 → gives misused) ∧
        (op = 3 → x.kind ≠ 1 → x.kind ≠ 2 → gives misused) ∧
        (op = 3 → x.kind = 1 →
          (ahead = 0 → x.arrived ≠ x.pminus1 →
            gives ((put 1 (stileWord x.round x.pminus1 (x.arrived + 1) x.next)).wakeWaiters o)) ∧
          (ahead = 0 → x.arrived = x.pminus1 →
            gives ((put 1 (stileWord (x.round + 1) x.pminus1 x.next 0)).wakeWaiters o)) ∧
          (ahead = 1 → x.next < x.pminus1 →
            gives ((put 1 (stileWord x.round x.pminus1 x.arrived (x.next + 1))).wakeWaiters o)) ∧
          ((ahead = 1 ∧ x.pminus1 ≤ x.next ∨ 1 < ahead) → gives misused)) ∧
        (op = 3 → x.kind = 2 →
          (ahead = 0 → s.objWorker o = true →
            (x.arrived = x.pminus1 + 1 → gives misused) ∧
            (x.arrived = x.pminus1 → gives (((put 2
              (stileWord x.round x.pminus1 (x.arrived + 1) x.next)).sendTierarrive o x.round).wakeWaiters o))) ∧
          (ahead = 0 → s.objWorker o = false → x.arrived = x.pminus1 →
            gives (((put 2 (stileWord (x.round + 1) x.pminus1 x.next 0)).sendTierrelease o x.round).wakeWaiters o)) ∧
          (ahead = 0 → x.arrived < x.pminus1 →
            gives ((put 2 (stileWord x.round x.pminus1 (x.arrived + 1) x.next)).wakeWaiters o)) ∧
          (ahead = 1 →
            let full := if s.objWorker o = true then x.pminus1 + 1 ≤ x.next else x.pminus1 ≤ x.next
            (full → gives misused) ∧
            (¬ full → gives ((put 2 (stileWord x.round x.pminus1 x.arrived (x.next + 1))).wakeWaiters o))) ∧
          (1 < ahead → gives misused))))

/-- Messages of other chips (R260-R266): a SIGNAL changes a plain object and is answered with ACK, a WAITREG
that holds is answered with WAKE and one that does not is a waiter, CANCEL removes its waiter, TIERARRIVE counts and
is answered, and TIERRELEASE ends the worker's round. A SIGNAL or TIERARRIVE of another tenant is answered with RESULT
0x17 (R263), and a SIGNAL that its object's kind makes a misuse with 0x16. That every TIERARRIVE is answered, and which
RESULT a blocked one gets, is the model's reading (log 35). -/
def HiveMessagesAct : Prop :=
  ∀ (m : HiveFrame) (o : Nat) (s : State),
    let x := s.obj o
    (HiveArrives s m 0 → AtObject s m o → msgOp m < 3 → x.kind = 0 →
      exec (.signalMessage m) s = .next (((rewrite s o
        { w0 := if msgOp m = 0 then x.w0 + m.w1 else if msgOp m = 1 then m.w1 else x.w0 ||| m.w1
          w1 := signed 0 (msgSigner m) }).answerMsg m 1 0).wakeWaiters o)) ∧
    (HiveArrives s m 0 → AtObject s m o → msgOp m < 3 → x.kind ≠ 0 →
      exec (.signalMessage m) s = .next ((onto s o).answerMsg m 1 0x16)) ∧
    (msgObj m = o → s.inService (halfOfObj o) = true → s.objPart o ≠ some (portPart m.port) →
      (HiveArrives s m 0 → exec (.signalMessage m) s = .next (s.answerMsg m 1 0x17)) ∧
      (HiveArrives s m 4 → exec (.tierarrive m) s = .next ((s.blockMsg o).answerMsg m 1 0x17)) ∧
      (HiveArrives s m 2 → exec (.waitreg m) s = .next (s.answerMsg m 3 0x17))) ∧
    (HiveArrives s m 2 → AtObject s m o → msgOp m < 6 → x.kind ≠ 3 →
      let t := onto s o
      exec (.waitreg m) s = .next (
        if compareCode (msgOp m) x.w0 m.w1 = true then t.answerMsg m 3 0
        else if 4096 ≤ t.remoteWaits (halfOfObj o) then t.answerMsg m 3 0xFF
        else t.useFree.addWaiter o (t.remoteWaiter m))) ∧
    (HiveArrives s m 6 → exec (.cancel m) s = .next (s.dropWaiters fun w =>
      decide (w.owner = .remote (portPart m.port) (msgId m)) && w.chip == portSrc m.port)) ∧
    (∀ (y : Obj) (completes report : Bool), HiveArrives s m 4 → AtObject s m o → x.kind = 2 →
      classifyArrival x (fld m.w1 15 0) (s.objWorker o) = .counted y completes report →
      exec (.tierarrive m) s = .next
        ((((onto s o).countArrival o y (msgSigner m) completes report).answerMsg m 1 0).wakeWaiters o)) ∧
    (HiveArrives s m 5 → AtObject s m o → x.kind = 2 → x.round = fld m.w1 15 0 → s.objWorker o = true →
      x.complete.arrived ≠ x.complete.pminus1 + 1 →
      exec (.tierrelease m) s = .next ((rewrite s o { x.complete with w1 := signed 2 (msgSigner m) }).wakeWaiters o))

/-- A run's HIVE instruction names object o of this chip, whose half is in service and which its context may use (R236,
R249). -/
def HiveRun (s : State) (r : Run) (ra o : Nat) (d : Node) : Prop :=
  s.node r.call = some d ∧ r.reg ra = BitVec.ofNat 64 (fld (r.reg ra) 31 0) ∧
  s.chipLocal r.ctx (refChip (fld (r.reg ra) 31 0)) = true ∧ refObj (fld (r.reg ra) 31 0) = o ∧
  s.inService (halfOfObj o) = true ∧ s.objAllowed r.ctx o = true

/-- W1 of an object that the run r on core k signalled last (R245). -/
def signedByRun (kind k : Nat) (r : Run) (d : Node) : Word :=
  word [(62, kind), (52, r.ctx), (42, 0x300 + k), (0, d.tag.toNat)]

/-- A run's wait at an object (R250). -/
def runWaiter (k fr rd : Nat) (r : Run) (t : Test) : Waiter :=
  { test := t, owner := .run k fr rd, ctx := r.ctx, gen := r.gen, queue := r.queue, chip := 0x3FFF, chipgen := 0 }

/-- The HIVE instructions on an object of this chip (R236, R249-R253): HADD, HSET and HOR change a plain object and RD
is 0; HWAIT goes on with RD 0 if its comparison holds and waits otherwise; HARRIVE waits for the end of the stile's
round unless it completes it, HARRIVENW goes on. The object's waiters are tested after a change. A routine of slots 1 to
9 notes what it did (R244). -/
def HiveInstructionsAct : Prop :=
  ∀ (k fr rd ra rb o : Nat) (r : Run) (d : Node) (s : State), areRegs rd ra rb → HiveRun s r ra o d →
    Holds s [hiveNeed o true] →
    let w := encReg 0x13 rd ra rb
    let b := r.reg rb
    let x := s.obj o
    let did (fn : Nat) : Run := s.acted r (w fn)
    let changed (fn : Nat) (y : Obj) : State := wrote (rewrite s o y) k fr (did fn) rd 0
    (x.kind = 0 →
      (Executes s k fr r (w 0) → exec (.hadd k rd ra rb) s =
        .next ((changed 0 { w0 := x.w0 + b, w1 := signedByRun 0 k r d }).wakeWaiters o)) ∧
      (Executes s k fr r (w 1) → exec (.hset k rd ra rb) s =
        .next ((changed 1 { w0 := b, w1 := signedByRun 0 k r d }).wakeWaiters o)) ∧
      (Executes s k fr r (w 2) → exec (.hor k rd ra rb) s =
        .next ((changed 2 { w0 := x.w0 ||| b, w1 := signedByRun 0 k r d }).wakeWaiters o))) ∧
    (∀ cmp, cmp < 6 → x.kind ≠ 3 → Executes s k fr r (w (8 + cmp)) → exec (.hwait k cmp rd ra rb) s = .next (
      if compareCode cmp x.w0 b = true then wrote (onto s o) k fr (did (8 + cmp)) rd 0
      else ((onto s o).setWaiters o (s.waitersOf o ++ [runWaiter k fr rd r (.cmp cmp b)])).blockRun k fr
        (did (8 + cmp)).next .hive)) ∧
    (x.kind = 1 → fld b 15 0 = x.round → x.arrived = x.pminus1 →
      let complete (fn : Nat) : State := (changed fn
        { w0 := stileWord (x.round + 1) x.pminus1 x.next 0, w1 := signedByRun 1 k r d }).wakeWaiters o
      (Executes s k fr r (w 16) → exec (.harrive k rd ra rb) s = .next (complete 16)) ∧
      (Executes s k fr r (w 17) → exec (.harrivenw k rd ra rb) s = .next (complete 17))) ∧
    (x.kind = 1 → fld b 15 0 = x.round → x.arrived ≠ x.pminus1 →
      let counted : State := rewrite s o
        { w0 := stileWord x.round x.pminus1 (x.arrived + 1) x.next, w1 := signedByRun 1 k r d }
      (Executes s k fr r (w 16) → exec (.harrive k rd ra rb) s = .next
        (((counted.setWaiters o (s.waitersOf o ++ [runWaiter k fr rd r (.round (BitVec.ofNat 16 x.round))])).blockRun
          k fr (did 16).next .hive).wakeWaiters o)) ∧
      (Executes s k fr r (w 17) → exec (.harrivenw k rd ra rb) s =
        .next ((wrote counted k fr (did 17) rd 0).wakeWaiters o)))

/-- Where a HIVE instruction does not act on a plain object or on the present round of a stile (R236, R249, R253, R254,
R264, R265, R267). Misuse ends the run and its CALL with STILE_MISUSE, a BROKEN object with PEER_LOST; an early arrival
is counted for the next round; a tier object counts as a stile does, and its last arrival goes to the manager, or from
it to the workers. An object of another tenant gives RD 0x17, and a non-zero RA bit above 31 traps with OPERAND. Without
the object's line the instruction waits for it (R317, log 83). That RB bits 63:16 of an arrival are ignored is the
model's choice (log 106). -/
def HiveInstructionsEnd : Prop :=
  ∀ (k fr rd ra rb o : Nat) (r : Run) (d : Node) (s : State), areRegs rd ra rb →
    let w := encReg 0x13 rd ra rb
    let runs := fun fn => Executes s k fr r (w fn)
    let b := r.reg rb
    let x := s.obj o
    let did (fn : Nat) : Run := s.acted r (w fn)
    let arrives (t : Nat → State) : Prop := (runs 16 → exec (.harrive k rd ra rb) s = .next (t 16)) ∧
      (runs 17 → exec (.harrivenw k rd ra rb) s = .next (t 17))
    let signals (t : Nat → State) : Prop := (runs 0 → exec (.hadd k rd ra rb) s = .next (t 0)) ∧
      (runs 1 → exec (.hset k rd ra rb) s = .next (t 1)) ∧ (runs 2 → exec (.hor k rd ra rb) s = .next (t 2))
    let all (t : Nat → State) : Prop := arrives t ∧ signals t ∧
      ∀ cmp, cmp < 6 → runs (8 + cmp) → exec (.hwait k cmp rd ra rb) s = .next (t (8 + cmp))
    (HiveRun s r ra o d → Holds s [hiveNeed o true] →
      let misuse (why : Nat) : State := ((onto s o).endRun k fr).misuseEnd r.call d (srcHive (halfOfObj o)) o why
      let lost : State := ((onto s o).endRun k fr).peerLostEnd r.call d (srcHive (halfOfObj o)) (peerDetail 0x3FFF 0 1)
      let round := fld b 15 0
      let ahead := (round + 65536 - x.round) % 65536
      let put (w0 : Word) : State := rewrite s o { w0 := w0, w1 := signedByRun x.kind k r d }
      let done (t : State) (fn : Nat) : State := (wrote t k fr (did fn) rd 0).wakeWaiters o
      let counted (t : State) (fn : Nat) : State :=
        if fn = 17 then done t 17
        else ((t.setWaiters o (s.waitersOf o ++ [runWaiter k fr rd r (.round (BitVec.ofNat 16 round))])).blockRun
          k fr (did 16).next .hive).wakeWaiters o
      (x.kind ≠ 0 → signals fun _ => misuse 1) ∧
      (x.kind = 0 → arrives fun _ => misuse 1) ∧
      (x.kind = 3 → (arrives fun _ => lost) ∧
        ∀ cmp, cmp < 6 → runs (8 + cmp) → exec (.hwait k cmp rd ra rb) s = .next lost) ∧
      ((x.kind = 1 ∨ x.kind = 2) → 1 < ahead → arrives fun _ => misuse 3) ∧
      (x.kind = 2 → ahead = 1 →
        let full := if s.objWorker o = true then x.pminus1 + 1 ≤ x.next else x.pminus1 ≤ x.next
        (full → arrives fun _ => misuse 2) ∧
        (¬ full → arrives (counted (put (stileWord x.round x.pminus1 x.arrived (x.next + 1)))))) ∧
      (x.kind = 1 → ahead = 1 → x.pminus1 ≤ x.next → arrives fun _ => misuse 2) ∧
      (x.kind = 1 → ahead = 1 → x.next < x.pminus1 →
        arrives (counted (put (stileWord x.round x.pminus1 x.arrived (x.next + 1))))) ∧
      (x.kind = 2 → ahead = 0 → s.objWorker o = true → x.arrived = x.pminus1 + 1 → arrives fun _ => misuse 6) ∧
      (x.kind = 2 → ahead = 0 → x.arrived < x.pminus1 →
        arrives (counted (put (stileWord x.round x.pminus1 (x.arrived + 1) x.next)))) ∧
      (x.kind = 2 → ahead = 0 → x.arrived = x.pminus1 →
        (s.objWorker o = true → arrives (counted
          ((put (stileWord x.round x.pminus1 (x.arrived + 1) x.next)).sendTierarrive o x.round))) ∧
        (s.objWorker o = false → arrives (done
          ((put (stileWord (x.round + 1) x.pminus1 x.next 0)).sendTierrelease o x.round))))) ∧
    (HiveRun s r ra o d → ¬ Holds s [hiveNeed o true] →
      (runs 0 → exec (.hadd k rd ra rb) s = .next (asks s [hiveNeed o true] (.hadd k rd ra rb))) ∧
      (runs 1 → exec (.hset k rd ra rb) s = .next (asks s [hiveNeed o true] (.hset k rd ra rb))) ∧
      (runs 2 → exec (.hor k rd ra rb) s = .next (asks s [hiveNeed o true] (.hor k rd ra rb))) ∧
      (runs 16 → exec (.harrive k rd ra rb) s = .next (asks s [hiveNeed o true] (.harrive k rd ra rb))) ∧
      (runs 17 → exec (.harrivenw k rd ra rb) s = .next (asks s [hiveNeed o true] (.harrivenw k rd ra rb))) ∧
      ∀ cmp, cmp < 6 → runs (8 + cmp) →
        exec (.hwait k cmp rd ra rb) s = .next (asks s [hiveNeed o true] (.hwait k cmp rd ra rb))) ∧
    (s.node r.call = some d → r.reg ra = BitVec.ofNat 64 (fld (r.reg ra) 31 0) →
      s.chipLocal r.ctx (refChip (fld (r.reg ra) 31 0)) = true → refObj (fld (r.reg ra) 31 0) = o →
      s.inService (halfOfObj o) = true → s.objAllowed r.ctx o = false →
      all fun fn => wrote (s.raise (callBlocked (srcHive (halfOfObj o)) d)) k fr (did fn) rd 0x17) ∧
    (s.node r.call = some d → fld (r.reg ra) 63 32 ≠ 0 →
      all fun fn => s.trap k fr r { cause := 0x0A, word := w fn })

/-- HIVE instructions whose RA names another chip of the group (R236, R262, R263, R266, R373): a signal, a wait or a
direct arrival goes out as a message under the next MSGID, and the run blocks until the answer; HARRIVE stands at this
chip's own tier object as well, as a wait for its round. A chip that the context cannot reach, or an own object of
another tenant, blocks it, with RD 0x17; where the own object of that number is BROKEN a wait or an arrival ends the
CALL with PEER_LOST, and where it is no tier object an arrival is misuse of reason 7 (the model's reading of R249, R266
and R267, logs 80 and 91). -/
def HiveInstructionsOfOtherChips : Prop :=
  ∀ (k fr rd ra rb : Nat) (r : Run) (d : Node) (s : State), areRegs rd ra rb → s.node r.call = some d →
    fld (r.reg ra) 63 32 = 0 →
    let chip := refChip (fld (r.reg ra) 31 0)
    let o := refObj (fld (r.reg ra) 31 0)
    s.chipLocal r.ctx chip = false →
    let runs := fun fn => Executes s k fr r (encReg 0x13 rd ra rb fn)
    let b := r.reg rb
    let round := fld b 15 0
    let did (fn : Nat) : Run := s.acted r (encReg 0x13 rd ra rb fn)
    let out (typ op : Nat) (v : Word) (wait : Bool) : State := s.sendOp (runActor k fr rd r d) chip o typ op v wait
    let blocks (t : State) (fn : Nat) : State := t.blockRun k fr (did fn).next .hive
    let refused (fn : Nat) : State := wrote (s.raise (callBlocked (srcHive d.half) d)) k fr (did fn) rd 0x17
    let lost : State := (s.endRun k fr).peerLostEnd r.call d (srcHive d.half) (peerDetail 0x3FFF 0 1)
    let arrives (t : Nat → State) : Prop := (runs 16 → exec (.harrive k rd ra rb) s = .next (t 16)) ∧
      (runs 17 → exec (.harrivenw k rd ra rb) s = .next (t 17))
    let signals (t : Nat → State) : Prop := (runs 0 → exec (.hadd k rd ra rb) s = .next (t 0)) ∧
      (runs 1 → exec (.hset k rd ra rb) s = .next (t 1)) ∧ (runs 2 → exec (.hor k rd ra rb) s = .next (t 2))
    let waits (t : Nat → State) : Prop :=
      ∀ cmp, cmp < 6 → runs (8 + cmp) → exec (.hwait k cmp rd ra rb) s = .next (t cmp)
    (s.unreachable r.ctx chip = true → signals refused ∧ arrives refused ∧ waits fun cmp => refused (8 + cmp)) ∧
    (s.unreachable r.ctx chip = false →
      (signals fun fn => blocks (out 0 fn b false) fn) ∧
      (¬ (s.objAllowed r.ctx o = true ∧ (s.obj o).kind = 3) → waits fun cmp => blocks (out 2 cmp b true) (8 + cmp)) ∧
      (s.objAllowed r.ctx o = true → (s.obj o).kind = 3 → waits fun _ => lost) ∧
      (s.objAllowed r.ctx o = false → arrives refused) ∧
      (s.objAllowed r.ctx o = true → s.inService (halfOfObj o) = true → Holds s [hiveNeed o false] →
        ((s.obj o).kind = 3 → arrives fun _ => lost) ∧
        ((s.obj o).kind ≠ 3 → (s.obj o).kind ≠ 2 →
          arrives fun _ => (s.endRun k fr).misuseEnd r.call d (srcHive d.half) o 7) ∧
        ((s.obj o).kind = 2 →
          let sent := out 4 3 (BitVec.ofNat 64 round) false
          arrives fun fn => blocks (if fn = 17 then sent else sent.setWaiters o (s.waitersOf o ++
            [runWaiter k fr rd r (.direct (BitVec.ofNat 16 round) ((s.obj o).past (BitVec.ofNat 16 round)))])) fn)) ∧
      (s.objAllowed r.ctx o = true → s.inService (halfOfObj o) = true → ¬ Holds s [hiveNeed o false] →
        (runs 16 → exec (.harrive k rd ra rb) s = .next (asks s [hiveNeed o false] (.harrive k rd ra rb))) ∧
        (runs 17 → exec (.harrivenw k rd ra rb) s = .next (asks s [hiveNeed o false] (.harrivenw k rd ra rb)))))

/-- Answers (R236, R262, R263): an ACK or WAKE with RESULT 0 ends the operation that waits for it and retires its sheaf
DONE, or lets its run go on with RD 0; RESULT 0x17 ends the sheaf TENANT_BLOCK, or lets the run go on with RD 0x17, and
RESULT 0x16 ends the sheaf, or the run and its CALL, with STILE_MISUSE, of reason 8, or 7 or 8 for a direct arrival,
which is open (log 79); either removes what waits here for a direct arrival. A WAKE with RESULT 0xFF schedules the
WAITREG again, which goes out once 10 µs have passed. -/
def AnswersEndTheOperation : Prop :=
  (∀ (m : HiveFrame) (r : RemoteOp) (n : Nat) (d : Node) (s : State), r.owner = .node n → s.node n = some d →
    d.phase = .hive → msgResult m = 0 →
    (s.waitersOf r.obj).any (fun w => decide (w.owner = r.owner)) = false →
    let ended := Host.Outcome.next ({ s with
      remoteOps := s.remoteOps.filter fun x => !decide (x.msgid = r.msgid) }.retireWith n stDone 1 0)
    (HiveArrives s m 1 → s.pendingOp m false = some r → exec (.hiveAck m) s = ended) ∧
    (HiveArrives s m 3 → s.pendingOp m true = some r → exec (.wake m) s = ended)) ∧
  (∀ (m : HiveFrame) (r : RemoteOp) (s : State),
    let answered (t : State) : Prop :=
      (HiveArrives s m 1 → s.pendingOp m false = some r → exec (.hiveAck m) s = .next t) ∧
      (HiveArrives s m 3 → s.pendingOp m true = some r → exec (.wake m) s = .next t)
    let rest : State := { s with remoteOps := s.remoteOps.filter fun x => !decide (x.msgid = r.msgid) }
    let alone := rest.dropWaiters fun w => decide (w.owner = r.owner)
    (∀ (n : Nat) (d : Node), r.owner = .node n → s.node n = some d → d.phase = .hive →
      (msgResult m = 0x17 → answered (alone.tenantBlock n d (srcHive d.half) r.obj)) ∧
      (msgResult m = 0x16 → ∃ why, (why = 8 ∨ (why = 7 ∧ fld r.frame.header 63 60 = 4)) ∧
        answered (alone.useFree.misuseEnd n d (srcHive d.half) r.obj why))) ∧
    ∀ (k fr rd : Nat) (run : Run) (d : Node), r.owner = .run k fr rd → s.runAt k fr = some run →
      s.node run.call = some d → d.phase = .core →
      (msgResult m = 0 → (s.waitersOf r.obj).any (fun w => decide (w.owner = r.owner)) = false →
        answered ((rest.setRun k fr (run.setReg rd 0)).readyRun k fr)) ∧
      (msgResult m = 0x17 → answered ((alone.raise (callBlocked (srcHive d.half) d)).finishRun k fr rd 0x17)) ∧
      (msgResult m = 0x16 → ∃ why, (why = 8 ∨ (why = 7 ∧ fld r.frame.header 63 60 = 4)) ∧
        answered ((alone.useFree.endRun k fr).misuseEnd run.call d (srcHive d.half) r.obj why))) ∧
  (∀ (m : HiveFrame) (r : RemoteOp) (s : State), HiveArrives s m 3 → s.pendingOp m true = some r →
    msgResult m = 0xFF → exec (.wake m) s = .next { s with remoteOps := s.remoteOps.map fun x =>
      if x.msgid = r.msgid then { x with retryDue := some (s.now + 10) } else x }) ∧
  ∀ (msgid : BitVec 32) (r : RemoteOp) (t : Nat) (s : State), s.working = true →
    s.remoteOps.find? (fun r => r.msgid == msgid) = some r → r.retryDue = some t → t ≤ s.now →
    exec (.waitregRetry msgid) s = .next (({ s with remoteOps := s.remoteOps.map fun (x : RemoteOp) =>
      if x.msgid = msgid then { x with retryDue := none } else x }).drive (.hiveMsg r.part r.frame))

/-- The step fence (R386-R391): READY counts its chip on the manager, FALL makes the worker's open fence fall, ABANDON
ends its arrivals with PEER_LOST, cause 3 and the chip that the stale table names (R384; that this table names it, and
free values where it does not, is the model's reading, log 45); a READY or FALL of another fence is dropped and
counted. -/
def FenceNoticesAct : Prop :=
  ∀ (m : Notice) (s : State), NoticeArrives s m 3 → portPart m.port = s.fence.part.toNat →
    let mismatch : State := { s with fence := { s.fence with mismatch := satInc s.fence.mismatch } }
    (noticeFtype m = 0 → s.fenceManager = true → exec (.fenceReady m) s = .next (
      if noticeSeq m = s.fence.seq then (s.countReady (portSrc m.port).toNat).fenceFollow else mismatch)) ∧
    (noticeFtype m = 1 → s.fenceManager = false → exec (.fenceFall m) s = .next (
      if noticeSeq m = s.fence.seq then s.fenceFalls.fenceFollow
      else if noticeSeq m = s.fence.seq - 1 then s else mismatch)) ∧
    (noticeFtype m = 2 → s.fenceManager = false → noticeSeq m = s.fence.seq →
      exec (.fenceAbandon m) s = .next (s.useFree.abandonFence
        (peerDetail (s.lostChip s.fence.part.toNat).1 (s.lostChip s.fence.part.toNat).2 3)))

/-- The step fence as a fall leaves it (R386, R389): SEQ is one higher, and the next fence is open with the arrivals
counted for it; held arrivals are counted then, in order, towards it, and, once it has ARRIVALS, towards the one after
it. -/
def nextFence (s : State) : Fence :=
  let f := s.fence
  let room := s.fenceNeed - f.next
  let rest := f.held.drop room
  { f with
    seq := f.seq + 1, arrived := f.next + (f.held.take room).length, openNodes := f.nextNodes ++ f.held.take room
    next := (rest.take s.fenceNeed).length, nextNodes := rest.take s.fenceNeed, held := rest.drop s.fenceNeed
    ready := [], sent := false, due := none, fallen := some f.seq }

/-- A fence that falls (R389) raises SEQ by one and opens the next fence; its arrivals retire DONE, a trace record of
kind 6 names it, and the manager sends FALL with its SEQ to every chip of the group. -/
def AFallOpensTheNextFence : Prop :=
  (∀ s : State, let t := s.fenceFalls
    t.fence = nextFence s ∧ t.objects = s.objects ∧ t.stale = s.stale ∧
    (s.fenceManager = true → (s.group s.fence.part.toNat).en = true → s.recov.safe = false →
      .notice s.fence.part.toNat
        { port := s.portWord s.fence.part.toNat 1 0x3FFF
          n0 := word [(60, 3), (58, 1)], n1 := s.fence.seq.setWidth 64 } ∈ t.out)) ∧
  ∀ (n : Nat) (d : Node) (s : State), s.fence.openNodes = [n] → s.fence.held = [] → s.node n = some d →
    d.phase = .hive →
    let opened : State := { s with fence := nextFence s }
    let marked := (opened.retireWith n stDone 1 0).traceRec 6 0 none (s.fence.seq.setWidth 64)
    s.fenceFalls = if s.fenceManager = true then marked.sendFall s.fence.seq else marked

/-- STEPSYNC on the manager (R388, R390): an edge before the due fence's window ends makes it fall; one without a due
fence is recorded, and one less than 10 µs after the one before is ignored. Without an edge the fence falls at the end
of its window, which is counted. -/
def StepsyncFiresTheFence : Prop :=
  ∀ s : State, s.working = true →
    (s.fenceManager = true →
      (∀ e, s.fence.lastEdge = some e → s.now < e + 10 → exec .stepsyncEdge s = .next s) ∧
      ((∀ e, s.fence.lastEdge = some e → e + 10 ≤ s.now) → s.fence.due = none →
        exec .stepsyncEdge s = .next { s with fence := { s.fence with
          lastEdge := some s.now, edges := s.now :: s.fence.edges.filter fun e => decide (s.now ≤ e + 4000) } }) ∧
      ∀ t, (∀ e, s.fence.lastEdge = some e → e + 10 ≤ s.now) → s.fence.due = some t → s.now ≤ t →
        exec .stepsyncEdge s = .next
          (({ s with fence := { s.fence with lastEdge := some s.now } }.fenceFalls).fenceFollow).wakeUp) ∧
    ∀ t, s.fence.due = some t → t ≤ s.now → exec .stepsyncWindowExpiry s =
      .next ({ s with fence := { s.fence with misses := satInc s.fence.misses } }.fenceFalls).fenceFollow

/-- A first request finds the line's home (R313-R315, R317, R318): an agent in I that asks for a copy, with the line
in no cache and free of requests, waits while the home reads storage for it, and the line is BUSY until the grant
goes; the only sharer that asks to write is granted at once. Where other agents hold the line the home sends INV to
every other sharer, or FWD_S or FWD_X to the owner, and the line is BUSY with what it then waits for. A request on a
busy line, or with no shared entry free, is kept in a reserved entry and answered with RETRY. An agent that two
requests to the home may leave without a third reserved entry there sends none (R313; that it is the agent that waits
is the model's reading, log 11). -/
def RequestsReachTheHome : Prop :=
  (∀ (a : Nat) (l : CohLine) (s : State), Coherent s a l → s.Canonical → s.net = [] →
    s.reservedUsed a (lineHome l) < 2 → s.sharedUsed (lineHome l) < 68 →
    let fetch := fun (st : DState) (k : MsgKind) (next : DState) =>
      ({ st := st, txn := some (.fetch a k next true s.now), arrived := [(a, s.now)], began := s.now } : Dir)
    let g := firstGrant l
    ((s.aline a l).st = .i → mayHold a l = true →
      (s.dir l = {} → ∃ t : State, exec (.rds a ⟨l, false, none⟩) s = .next t ∧ (t.aline a l).st = .is ∧ t.net = [] ∧
        t.dir l = fetch .u (.data g) (if g = .e then .x a else .s [a])) ∧
      ∀ v, s.dir l = { st := .s v } → ∃ t : State, exec (.rds a ⟨l, false, none⟩) s = .next t ∧
        (t.aline a l).st = .is ∧ t.net = [] ∧ t.dir l = fetch (.s v) (.data .s) (.s (insertSharer v a))) ∧
    ((s.aline a l).st = .i → mayWrite a l = true → s.dir l = {} →
      ∃ t : State, exec (.rdx a ⟨l, false, none⟩) s = .next t ∧ (t.aline a l).st = .im ∧ t.net = [] ∧
        t.dir l = fetch .u (.data .m) (.x a)) ∧
    ((s.aline a l).st = .s → mayWrite a l = true → s.dir l = { st := .s [a] } →
      ∃ t : State, exec (.upg a ⟨l, false, none⟩) s = .next t ∧ (t.aline a l).st = .sm ∧ t.dir l = { st := .x a } ∧
        t.net = [{ src := homeEnd l, dst := a, line := l, kind := .gnt }]) ∧
    let busy := fun (st : DState) (x : Txn) =>
      ({ st := st, txn := some x, arrived := [(a, s.now)], began := s.now } : Dir)
    let sent := fun (b : Nat) (k : MsgKind) => ({ src := homeEnd l, dst := b, line := l, kind := k } : Msg)
    (∀ v, s.dir l = { st := .s v } → v.filter (· ≠ a) ≠ [] → mayWrite a l = true →
      let others := v.filter (· ≠ a)
      let asked := fun (gnt : Bool) (st : AState) (t : State) => (t.aline a l).st = st ∧
        t.dir l = busy (.s v) (.inval a gnt others true) ∧ t.net = others.map fun b => sent b .inv
      ((s.aline a l).st = .i → ∃ t : State, exec (.rdx a ⟨l, false, none⟩) s = .next t ∧ asked false .im t) ∧
      ((s.aline a l).st = .s → ∃ t : State, exec (.upg a ⟨l, false, none⟩) s = .next t ∧ asked (v.contains a) .sm t)) ∧
    ∀ o, s.dir l = { st := .x o } → (s.aline a l).st = .i →
      (mayHold a l = true → ∃ t : State, exec (.rds a ⟨l, false, none⟩) s = .next t ∧ (t.aline a l).st = .is ∧
        t.dir l = busy (.x o) (.forward a false true) ∧ t.net = [sent o (.fwdS a)]) ∧
      (mayWrite a l = true → ∃ t : State, exec (.rdx a ⟨l, false, none⟩) s = .next t ∧ (t.aline a l).st = .im ∧
        t.dir l = busy (.x o) (.forward a true true) ∧ t.net = [sent o (.fwdX a)])) ∧
  (∀ (m : Msg) (q : Req) (s : State),
    ((s.dir m.line).txn.isSome = true ∨ (s.dir m.line).retry ≠ [] ∨ 68 ≤ s.sharedUsed (lineHome m.line)) →
    s.firstRequest m q = (s.setDir m.line { (s.dir m.line).note m.src s.now with
      retry := (s.dir m.line).retry ++ [(m.src, q, false)] }).send (homeEnd m.line) m.src m.line .retry) ∧
  ∀ (a : Nat) (l : CohLine) (s : State), Coherent s a l → (s.aline a l).st = .i → s.canAsk a (lineHome l) = false →
    (∀ m ∈ s.net, m.src = a → m.line ≠ l) →
    exec (.rds a ⟨l, false, none⟩) s = .next s ∧ exec (.rdx a ⟨l, false, none⟩) s = .next s

/-- An uncorrectable error in the directory entry that a request, a writeback, a release or a home-side write looks up
is SEVERE, and what looked it up is not served (R326). -/
def LookupErrorsAreSevere : Prop :=
  (∀ (l : CohLine) (x : Found) (s : State), isLine l → s.homeUp l = true → (l.table = .queue ∨ l.table = .scale) →
    x.unc = true → exec (.homeSideWrite ⟨l, false, some x⟩) s =
      .next ((s.tookIn (lineHome l) (homeRank l)).severeError (srcHome (lineHome l)) x)) ∧
  ∀ (a : Nat) (l : CohLine) (x : Found) (m : Msg) (rest : List Msg) (s : State), Coherent s a l → x.unc = true →
    (∀ q : Req, Arrives s (fun m => m.src == a && m.line == l && (m.kind == .req q true || m.kind == .req q false))
        m rest →
      let met := Host.Outcome.next (({ s with net := rest }.tookIn (lineHome l) (intakeRank a false)).severeError
        (srcHome (lineHome l)) x)
      (q = .rds → (s.aline a l).st ≠ .i → exec (.rds a ⟨l, false, some x⟩) s = met) ∧
      (q = .rdx → (s.aline a l).st ≠ .i → exec (.rdx a ⟨l, false, some x⟩) s = met) ∧
      (q = .upg → (s.aline a l).st ≠ .s → exec (.upg a ⟨l, false, some x⟩) s = met)) ∧
    (Arrives s (fun m => m.src == a && m.line == l && m.kind == .wbd) m rest → ∀ y : Option Found,
      exec (.wbd a ⟨l, false, some x, y⟩) s = .next ({ s with net := rest }.severeError (srcHome (lineHome l)) x)) ∧
    (Arrives s (fun m => m.src == a && m.line == l && m.kind == .wbc) m rest →
      exec (.wbc a ⟨l, false, some x⟩) s = .next ({ s with net := rest }.severeError (srcHome (lineHome l)) x))

/-- Writebacks and releases (R37, R313, R315, R317, R318): an eviction of E or M retains the line and sends WBC or
WBD, one of S is silent, and a line that is held, or that a furrow entry's sheaf needs, stays; the home accepts the
message, and while it writes storage for the owner the line is BUSY; then the line is in no cache, and WBACK drops
what was retained. At a hive cache or descriptor cache what waited for a line is then tried again (log 83). -/
def EvictionsGiveTheLineBack : Prop :=
  (∀ (a : Nat) (l : CohLine) (s : State), Coherent s a l →
    let x := s.aline a l
    (x.hold = false → ¬ (l.table = .desc ∧ a = lineHome l ∧ s.linesPinned (l.index / 32) = true) →
      (x.st = .s → exec (.agentEviction a l) s = .next (s.setAline a l { x with st := .i })) ∧
      (x.st = .e → exec (.agentEviction a l) s =
        .next ((s.setAline a l { x with st := .ei }).send a (homeEnd l) l .wbc)) ∧
      (x.st = .m → exec (.agentEviction a l) s =
        .next ((s.setAline a l { x with st := .mi }).send a (homeEnd l) l .wbd))) ∧
    ((x.hold = true ∨ (l.table = .desc ∧ a = lineHome l ∧ s.linesPinned (l.index / 32) = true)) →
      exec (.agentEviction a l) s = .next s)) ∧
  (∀ (a : Nat) (l : CohLine) (rest : List Msg) (s : State), Coherent s a l → s.Canonical → s.dir l = { st := .x a } →
    ∀ kind : MsgKind, Arrives s (fun m => m.src == a && m.line == l && m.kind == kind)
        { src := a, dst := homeEnd l, line := l, kind := kind } rest →
      let stored : State → Prop := fun t =>
        t.dir l = { st := .x a, txn := some (.store a s.now), began := s.now } ∧ t.net = rest ∧ t.agents = s.agents
      (kind = .wbd → ∃ t : State, exec (.wbd a ⟨l, false, none, none⟩) s = .next t ∧ stored t) ∧
      (kind = .wbc → ∃ t : State, exec (.wbc a ⟨l, false, none⟩) s = .next t ∧ stored t)) ∧
  ∀ (a : Nat) (l : CohLine) (s : State), Coherent s a l → s.Canonical →
    ((s.aline a l).st = .ei ∨ (s.aline a l).st = .mi) →
    let after (t : State) : State := if a < 4 then t.resume else t
    (∀ b g, s.dir l = { st := .x a, txn := some (.store a b), began := g } → s.net = [] →
      ∃ t : State, exec (.wback a l) s = .next (after t) ∧ t.dir l = {} ∧ t.net = [] ∧
        t.aline a l = { s.aline a l with st := .i }) ∧
    ∀ (m : Msg) (rest : List Msg), s.dir l = {} →
      Arrives s (fun m => m.dst == a && m.line == l && m.kind == .wback) m rest →
      ∃ t : State, exec (.wback a l) s = .next (after t) ∧ t.dirs = s.dirs ∧ t.net = rest ∧
        t.aline a l = { s.aline a l with st := .i }

/-- Grants (R314-R317): a storage read ends with its DATA. DATA and GNT move the state that waits to S, E or M,
complete the access that waits, and only then act on what was kept; a hive cache or descriptor cache tries again what
waited for a line (log 83); E and M start the hold, whose end acts on what was kept. RETRY makes the agent send its
request again into its reserved entry. -/
def GrantsReachTheAgent : Prop :=
  (∀ (a : Nat) (l : CohLine) (k : MsgKind) (next : DState) (b : Bool) (e : Nat) (s : State), s.Canonical →
    (s.dir l).txn = some (.fetch a k next b e) → (s.dir l).retry = [] → (s.dir l).freed = false →
    let t := s.finishFetch l
    (t.dir l).txn = none ∧ (t.dir l).st = next ∧ t.agents = s.agents ∧
      t.net = s.net ++ [{ src := homeEnd l, dst := a, line := l, kind := k }]) ∧
  ∀ (a : Nat) (l : CohLine) (m : Msg) (rest : List Msg) (s : State), Coherent s a l →
    let x := s.aline a l
    (∀ g : Grant, Arrives (s.finishFetch l) (fun m => m.dst == a && m.line == l && m.kind.grant.isSome) m rest →
      m.kind = .data g →
      let t : State := { s.finishFetch l with net := rest }
      (x.st = .is → g = .e →
        exec (.data a ⟨l, none⟩) s = .next ((t.setAline a l { x with st := .e, hold := true }).atGrant a l)) ∧
      ((x.st = .im ∨ x.st = .sm) → g = .m →
        exec (.data a ⟨l, none⟩) s = .next ((t.setAline a l { x with st := .m, hold := true }).atGrant a l)) ∧
      (x.st = .is → g = .s →
        exec (.data a ⟨l, none⟩) s = .next (((t.setAline a l { x with st := .s }).atGrant a l).release a l))) ∧
    (Arrives s (fun m => m.dst == a && m.line == l && m.kind == .gnt) m rest → x.st = .sm →
      exec (.gnt a l) s = .next (({ s with net := rest }.setAline a l
        { x with st := .m, hold := true }).atGrant a l)) ∧
    (∀ q : Req, Arrives s (fun m => m.dst == a && m.line == l && m.kind == .retry) m rest → x.st.request = some q →
      exec (.retry a l) s = .next ({ s with net := rest }.send a (homeEnd l) l (.req q true))) ∧
    (x.hold = true → exec (.holdEnd a l) s = .next (s.release a l))

/-- Forwards and invalidations (R316-R319): an owner past its hold answers FWD_S with DATA S and keeps S, FWD_X with
DATA M and keeps nothing, and tells the home; a sharer answers INV with ACK; a forward during a hold, and what arrives
while a copy is awaited, is kept. The home that has its FACK, or its last ACK, ends the transaction with the new owner
or sharers in its directory. -/
def ProbesAreAnswered : Prop :=
  (∀ (a r : Nat) (l : CohLine) (m : Msg) (rest : List Msg) (s : State), Coherent s a l →
    let x := s.aline a l
    let t : State := { s with net := rest }
    (Arrives s (fun m => m.dst == a && m.line == l && m.kind.isFwdS) m rest → m.kind = .fwdS r →
      ((x.st = .e ∨ x.st = .m) →
        exec (.fwdS a l) s = .next (if x.hold = true then t.setAline a l { x with kept := x.kept ++ [.fwdS r] }
          else ((t.setAline a l { x with st := .s }).send a r l (.data .s)).send a (homeEnd l) l
            (.fack (decide (x.st = .m))))) ∧
      ((x.st = .is ∨ x.st = .im ∨ x.st = .sm) →
        exec (.fwdS a l) s = .next (t.setAline a l { x with kept := x.kept ++ [.fwdS r] }))) ∧
    (Arrives s (fun m => m.dst == a && m.line == l && m.kind.isFwdX) m rest → m.kind = .fwdX r →
      ((x.st = .e ∨ x.st = .m) →
        exec (.fwdX a l) s = .next (if x.hold = true then t.setAline a l { x with kept := x.kept ++ [.fwdX r] }
          else ((t.setAline a l { x with st := .i }).send a r l (.data .m)).send a (homeEnd l) l (.fack false))) ∧
      ((x.st = .is ∨ x.st = .im ∨ x.st = .sm) →
        exec (.fwdX a l) s = .next (t.setAline a l { x with kept := x.kept ++ [.fwdX r] }))) ∧
    (Arrives s (fun m => m.dst == a && m.line == l && m.kind == .inv) m rest →
      (x.st = .s → exec (.inv a l) s =
        .next ((t.setAline a l { x with st := .i, hold := false }).send a (homeEnd l) l .ack)) ∧
      (x.st = .sm → exec (.inv a l) s =
        .next ((t.setAline a l { x with st := .im, hold := false }).send a (homeEnd l) l .ack)) ∧
      ((x.st = .is ∨ x.st = .im) → exec (.inv a l) s =
        .next (t.setAline a l { x with kept := x.kept ++ [.inv] })))) ∧
  ∀ (a r : Nat) (l : CohLine) (m : Msg) (rest : List Msg) (sh : Bool) (s : State), Coherent s a l →
    (s.dir l).retry = [] → (s.dir l).freed = false → s.Canonical →
    (∀ b : Bool, Arrives s (fun m => m.src == a && m.line == l && (m.kind == .fack true || m.kind == .fack false))
        m rest → (s.dir l).txn = some (.forward r b sh) →
      ∃ t : State, exec (.fack a ⟨l, none⟩) s = .next t ∧ (t.dir l).txn = none ∧ t.net = rest ∧
        (t.dir l).st = (if b = true then .x r else .s (insertSharer [a] r))) ∧
    ∀ (gnt : Bool) (left : List Nat), Arrives s (fun m => m.src == a && m.line == l && m.kind == .ack) m rest →
      m.src = a → m.line = l → (s.dir l).txn = some (.inval r gnt left sh) →
      ∃ t : State, exec (.coherenceAck a l) s = .next t ∧
        (if left.filter (· ≠ a) = [] then (t.dir l).txn = none ∧ (t.dir l).st = .x r ∧
            t.net = rest ++ [{ src := homeEnd l, dst := r, line := l, kind := if gnt then .gnt else .data .m }]
          else (t.dir l).txn = some (.inval r gnt (left.filter (· ≠ a)) sh) ∧ t.net = rest)

/-- A write at the home of a QUEUE or SCALE line invalidates the sharers first (R319) and reaches storage with the
last ACK, or at once without a sharer: nothing reads the line's old value after that, RETIRED of queue q in line 8q
for one (R227). A home that is lost serves none (R327). A request that has not been
served, or a transaction that has not ended, 10,000 clocks later is a COHERENCE error, SEVERE (R325, R331); 10,000
clocks are 7 µs of local time in the model (its reading, log 11). -/
def HomesWriteAndWatch : Prop :=
  (∀ (l : CohLine) (s : State), isLine l → s.homeUp l = true → (l.table = .queue ∨ l.table = .scale) → s.Canonical →
    let written : State → Prop := fun t => t.dir l = {} ∧
      (l.table = .queue → ∀ e, e ∈ t.oldRetired ↔ e ∈ s.oldRetired ∧ 8 * e.1 ≠ l.index) ∧
      (l.table = .scale → ∀ e, e ∈ t.oldSlots ↔ e ∈ s.oldSlots ∧ e.1 / 4 ≠ l.index)
    (∀ v, v ≠ [] → s.dir l = { st := .s v } → ∃ t : State, exec (.homeSideWrite ⟨l, false, none⟩) s = .next t ∧
      (t.dir l).txn = some (.homeWrite v) ∧ t.oldRetired = s.oldRetired ∧ t.oldSlots = s.oldSlots ∧
      t.net = s.net ++ v.map fun a => { src := homeEnd l, dst := a, line := l, kind := .inv }) ∧
    (s.dir l = {} → ∃ t : State, exec (.homeSideWrite ⟨l, false, none⟩) s = .next t ∧ written t ∧ t.net = s.net) ∧
    ∀ (a e g : Nat) (v : List Nat) (rest : List Msg), Coherent s a l →
      s.dir l = { st := .s v, txn := some (.homeWrite [a]), arrived := [(30, e)], began := g } →
      Arrives s (fun m => m.src == a && m.line == l && m.kind == .ack)
        { src := a, dst := homeEnd l, line := l, kind := .ack } rest →
      ∃ t : State, exec (.coherenceAck a l) s = .next t ∧ written t ∧ t.net = rest) ∧
  (∀ (h : HomeArrival) (s : State), isLine h.line → s.homeUp h.line = false →
    exec (.homeSideWrite h) s = .next s ∧ exec (.coherenceTimeout h.line) s = .next s) ∧
  ∀ (l : CohLine) (s : State), isLine l → s.homeUp l = true →
    (((∃ e ∈ (s.dir l).arrived, e.2 + 7 ≤ s.now) ∨ ((s.dir l).txn.isSome = true ∧ (s.dir l).began + 7 ≤ s.now)) →
      exec (.coherenceTimeout l) s = .next (s.raise
        { source := srcHome (lineHome l), kind := kCoherence, cls := .severe })) ∧
    ((∀ e ∈ (s.dir l).arrived, s.now < e.2 + 7) → ((s.dir l).txn = none ∨ s.now < (s.dir l).began + 7) →
      exec (.coherenceTimeout l) s = .next s)

/-- What an event's class does (R330): the class after counting, with its source's N, and unless the safe state or the
source's mask discards it. A GRAVE event enters the safe state; a SEVERE one asks for the compute reset; a
CONTAIN one asks for the teardown of a LIVE context; a NOTE asks for nothing. That the teardown and the reset are asked
for, and performed by a command of their own, is the model's choice (logs 15 and 16). -/
def ClassesAct : Prop :=
  ∀ (e : Event) (s : State), s.recov.safe = false → (s.source e.source).masked = false →
    (s.source e.source).count s.now < (s.source e.source).n.toNat → s.recov.window = false →
    s.recov.inprogress = false →
    s.recov.request = none → s.tears = [] →
    (e.cls = .grave → (s.raise e).recov.safe = true ∧ (s.raise e).plfault = true ∧ (s.raise e).plaliveOn = false) ∧
    (e.cls = .severe → e.kind ≠ kCharge → (s.raise e).recov.safe = false ∧
      (s.raise e).recov.request.isSome = true ∧ (s.raise e).recov.inprogress = true ∧
      (s.raise e).recov.chipgen = s.recov.chipgen + 1 ∧ (s.raise e).recov.resetDue = s.dueIn 12000 ∧
      (s.raise e).tears = []) ∧
    (∀ (c : Nat) (g : BitVec 12), e.cls = .contain → e.ctx = some (c, g) → (s.ctx c).state = .live →
      (s.raise e).recov.safe = false ∧ (s.raise e).recov.request = none ∧
      (s.raise e).tears.map (·.ctx) = [c]) ∧
    (e.cls = .note → (s.raise e).recov.safe = false ∧ (s.raise e).recov.request = none ∧ (s.raise e).tears = [])

/-- In the safe state a further event has no effect (R345), and raising an event writes no queue, sheaf, object or
context: the teardown of R291 and the reset of R355 that it asks for come after it, which is the model's choice (logs 15
and 16). -/
def EventsLeaveWorkAlone : Prop :=
  ∀ (e : Event) (s : State), (s.recov.safe = true → s.raise e = s) ∧
    (s.raise e).queues = s.queues ∧ (s.raise e).nodes = s.nodes ∧ (s.raise e).objects = s.objects ∧
    (s.raise e).ctxs = s.ctxs ∧ (s.raise e).cores = s.cores ∧ (s.raise e).usec = s.usec

/-- A half that may hold charge compares its belief with the arbiter (R28, R365): agreement changes nothing;
disagreement makes it yield, and charge moves to the other half if it held it or is named, which from then on believes
that it holds it; without another half that may hold charge a compute reset is triggered; outputs that differ are
ARBITER, GRAVE. When charge moves, and the answer bit of a differing pair, a free value, are the model's choice
(log 48). -/
def ChargeFollowsTheArbiter : Prop :=
  ∀ (h o0 o1 : Nat) (s : State), isHalf h → o0 < 2 → o1 < 2 → s.power = .run → s.recov.safe = false →
    s.chargeable h = true →
    (o0 = o1 → s.belief h = decide (o0 = h) → exec (.chargeCheck h o0 o1) s = .next s) ∧
    (o0 = o1 → s.belief h ≠ decide (o0 = h) → s.recov.window = false →
      (s.source srcArbiter).count s.now < (s.source srcArbiter).n.toNat →
      ∃ t : State, exec (.chargeCheck h o0 o1) s = .next t ∧ t.chargeable h = false ∧ t.belief h = false ∧
        t.recov.safe = false ∧
        (s.chargeable (1 - h) = true →
          ((o0 = h ∨ s.holder = h) → t.holder = 1 - h ∧ t.belief (1 - h) = true ∧ t.holderActs = true) ∧
          (o0 ≠ h → s.holder ≠ h → t.holder = s.holder) ∧ t.recov.inprogress = s.recov.inprogress) ∧
        (s.chargeable (1 - h) = false → t.recov.inprogress = true)) ∧
    (o0 ≠ o1 → exec (.chargeCheck h o0 o1) s = .next (s.useFree.raise
      { source := srcArbiter, kind := kArbiter, cls := .grave
        info0 := chargeInfo s.freeNow.toNat (s.belief h) h }))

/-- The wait-for graph (R348-R351): a snapshot takes every wait and the next is due 20 µs later; a scan keeps the
sheaves on a closed chain as suspects and kills nothing that was no suspect before; a chain whose sheaves all were is
counted, and each of its sheaves ends, with WAIT_CYCLE unless a teardown decides its end. That the same cycle is a
closed chain among former suspects is the model's reading (log 47). -/
def HangScansConfirmTwice : Prop :=
  ∀ s : State, s.working = true → s.recov.mode = false →
    (s.recov.scanDue ≤ s.now → exec .hangSnapshot s = .next { s with
      recov := { s.recov with snapshot := some s.waitGraph, scanDue := s.now + 20 } }) ∧
    (∀ es, s.recov.snapshot = some es → s.recov.suspects = [] →
      ∃ t : State, exec .hangScanComplete s = .next t ∧ t.recov.suspects = onCycle es ∧ t.recov.snapshot = none ∧
        t.nodes = s.nodes ∧ t.tears = s.tears ∧ t.recov.cycles = s.recov.cycles) ∧
    ∀ es, s.Canonical → s.recov.snapshot = some es →
      let former := es.filter fun e => s.recov.suspects.contains e.1 && s.recov.suspects.contains e.2
      let cyc := onCycle former
      cyc ≠ [] → ∃ t : State, exec .hangScanComplete s = .next t ∧
        t.recov.cycles = satVal 8 (s.recov.cycles.toNat + (cyclesOf former cyc cyc.length).length) ∧
        ∀ (a : HangId) (d : Node), a ∈ cyc → s.node a.node = some d → d.gen = a.gen → d.order = a.order →
          d.phase ≠ .doomed → d.phase ≠ .heldRecord →
          ∃ e : Node, t.node a.node = some e ∧ e.phase = .doomed ∧ ∀ f, e.final = some f → f.status = stWaitCycle

/-- The heartbeat monitor (R352): a period without a heartbeat counts one miss, the third disarms the monitor and is
HEARTBEAT, SEVERE. -/
def ThirdMissIsAHeartbeatFault : Prop :=
  ∀ s : State, s.working = true → s.recov.mode = true → s.recov.armed = true → s.recov.beatDue ≤ s.now →
    exec .heartbeatPeriodEnd s = .next (
      if s.recov.misses + 1 = 3 then
        { s with recov := { s.recov with misses := 3, armed := false } }.raise
          { source := srcHeartbeat, kind := kHeartbeat, cls := .severe
            info0 := s.recov.lastBeat, info1 := BitVec.setWidth 64 s.recov.period }
      else { s with recov := { s.recov with
        misses := s.recov.misses + 1, beatDue := s.dueIn s.recov.period.toNat } })

/-- COMPUTE_RESET finds the reset that a trigger has begun, and fd is what its steps find. -/
def ResetBegun (s : State) (fd : ResetFindings) : Prop :=
  s.power = .run ∧ s.recov.safe = false ∧ s.recov.inprogress = true ∧ s.recov.request.isSome = true ∧
  s.recov.dumping = false ∧ s.recov.window = false ∧ s.clocks.idle = .none ∧
  s.inService 0 = true ∧ s.inService 1 = true ∧ s.Canonical ∧
  ∀ p ∈ fd.corrected, sourceListed p = true

/-- The steps of a compute reset (R355, R356, R359): every queue, sheaf, object, context, run and token is gone once the
dump has been taken, has failed, or was not asked for, and nothing of them while it is late; partitions, groups and the
audit trail stay, and the reset goes on until its end (taken whole, as the model chooses, log 16). -/
def ResetsClearTheWork : Prop :=
  ∀ (fd : ResetFindings) (s : State), ResetBegun s fd →
    ∃ t : State, exec (.computeReset fd) s = .next t ∧ t.recov.request = none ∧ t.recov.inprogress = true ∧
      t.recov.chipgen = s.recov.chipgen ∧ t.parts = s.parts ∧ t.groups = s.groups ∧ t.audit = s.audit ∧
      t.pending = s.pending ∧
      ((s.recov.dumpEn = false ∨ fd.dump ≠ .late) →
        t.queues = [] ∧ t.nodes = [] ∧ t.objects = [] ∧ t.waiters = [] ∧ t.ctxs = [] ∧ t.cores = [] ∧
        t.flying = [] ∧ t.slots = [] ∧ t.dirs = [] ∧ t.agents = [] ∧ t.fence.held = []) ∧
      (s.recov.dumpEn = true →
        (fd.dump = .written → t.recov.dumpfail = false) ∧ (fd.dump = .failed → t.recov.dumpfail = true) ∧
        (fd.dump = .late → t.recov.dumping = true ∧ t.recov.findings = some fd ∧ t.queues = s.queues ∧
          t.objects = s.objects ∧ t.ctxs = s.ctxs) ∧
        t.recov.sampled.length = 32 * 16 * s.clusters)

/-- A compute reset without a dump that finds nothing broken (R38, R211, R356, R358): the routine images stay and
their loads have ended, and the fault log and its counters are untouched. -/
def ResetsKeepTheRecords : Prop :=
  ∀ (fd : ResetFindings) (s : State), ResetBegun s fd → s.recov.dumpEn = false → fd.badCores = [] →
    fd.badImem = [] → fd.badHalves = [] → fd.badPairs = [] → fd.corrected = [] →
    (s.faults.sources.keys fun _ x => x.masked) = [] →
    ∃ t : State, exec (.computeReset fd) s = .next t ∧ t.faults = s.faults ∧
      (∀ i, (t.rslot i).image = (s.rslot i).image ∧ (t.rslot i).pages = (s.rslot i).pages ∧
        (t.rslot i).loads = (s.rslot i).loads ∧ (t.rslot i).loading = []) ∧
      t.inService 0 = true ∧ t.inService 1 = true ∧
      -- charge returns to the preferred half, if RETURN asks for it (R28)
      t.charge.holder = (if s.charge.ret = true then s.charge.prefer else s.charge.holder)

/-- What the tests of a compute reset find (R25, R27, R28, R329, R358): a half whose arrays fail is lost, its queues are
OFFLINE, and charge moves to the other; both halves lost, and a broken pair of a source that belongs to no half, are
GRAVE; a masked pair that is sound again is unmasked, and a core that fails is replaced by the spare of its half. -/
def ResetTestsDecide : Prop :=
  ∀ (fd : ResetFindings) (s : State), ResetBegun s fd → s.recov.dumpEn = false → fd.corrected = [] →
    ∃ t : State, exec (.computeReset fd) s = .next t ∧
      (fd.badCores = [] → fd.badPairs = [] → (s.faults.sources.keys fun _ x => x.masked) = [] →
        (∀ h, isHalf h → fd.badHalves = [h] → t.inService h = false ∧ t.inService (1 - h) = true ∧
          t.holder = 1 - h ∧ t.recov.safe = false ∧ ∀ q, isQueue q → halfOfQueue q = h → t.qstate q = .offline) ∧
        ((∀ h, isHalf h → h ∈ fd.badHalves) → t.recov.safe = true)) ∧
      (∀ p, (s.source p).masked = true → (s.source p).forced = false → p ∉ fd.badPairs → (t.source p).masked = false) ∧
      ((∃ p, (s.source p).masked = true ∧ p ∈ fd.badPairs ∧ sourceHalf p = none) → t.recov.safe = true) ∧
      ∀ k, k < 24 → (s.faults.sources.keys fun _ x => x.masked) = [] → fd.badHalves = [] → fd.badPairs = [] →
        fd.badCores = [(halfOfCore k, s.physOf k)] → (∀ j, j < 24 → s.physOf j = j % 12) →
        t.physOf k = 12 ∧ (∀ j, j < 24 → j ≠ k → t.physOf j = s.physOf j) ∧ t.inService (halfOfCore k) = true

/-- The ends of a reset (R355, R359, R362): a dump that is late is DUMP_FAILED, a NOTE, and the steps after it follow;
a reset that is late is RESET_OVERRUN, GRAVE; a complete one opens the recovery window, closes the open records,
performs what was held, a register write for one, and raises MSI-X vector 0; a window that ends without a heartbeat or
a tally is RECOVERY, GRAVE. The sources of DUMP_FAILED and RESET_OVERRUN are the model's reading (log 38); that the
steps of a reset are taken whole is its choice (log 16). -/
def ResetsEndInTime : Prop :=
  ∀ s : State, s.recov.safe = false →
    (s.recov.inprogress = true → s.recov.dumping = true → s.recov.dumpDue ≤ s.now →
      let u := { s with recov := { s.recov with dumping := false, dumpfail := true } }.raise
        { source := srcHostPort, kind := kDumpFailed, cls := .note }
      exec .dumpTimeout s = .next (match s.recov.findings with
        | some fd => u.resetStep6 fd
        | none => u)) ∧
    (s.recov.inprogress = true → s.recov.resetDue ≤ s.now → exec .resetOverrun s = .next (s.raise
      { source := srcCollector, kind := kResetOverrun, cls := .grave })) ∧
    (let ended : State := { s with
        recov := { s.recov with inprogress := false, window := true, windowDue := s.dueIn 50000
                                scanDue := s.now + 20 }
        faults := { s.faults with opened := [] } }
     s.recov.inprogress = true → s.recov.request = none → s.recov.dumping = false →
      exec .computeResetComplete s = .next (ended.performHeld.sendMsix 0) ∧
      (s.heldCmds = [] → ended.performHeld = ended) ∧
      ∀ (at' off : Nat) (part : Part) (v : Word), s.power = .run → s.clocks.idle = .none → 0x10000 ≤ off →
        off < 0x200000 → off ≠ 0x20018 → s.heldCmds = [(at', .registerWrite off part v)] →
        ended.performHeld =
          { { ended with heldCmds := [], heldFrom := some at' }.performWrite off part v with heldFrom := none }) ∧
    (s.working = true → s.recov.window = true → s.recov.windowDue ≤ s.now →
      exec .recoveryWindowExpiry s = .next ({ s with recov := { s.recov with window := false } }.raise
        { source := srcCollector, kind := kRecovery, cls := .grave }))

/-- Every write of a privileged register is performed by its register's rule while Pliat works (R448, R454), is held
during a compute reset and for a wake, and has no effect in the safe state. A reset request during a reset, a write
that covers REQ, is ignored, and audited (R363, R429). -/
def PrivilegedWritesAreServed : Prop :=
  ∀ (c : Instr) (off : Nat) (part : Part) (v : Word) (s : State),
    ((c, off) = (.hiveDebugSelWrite part v, 0x100000) ∨ (c, off) = (.abortqWrite part v, 0x20020) ∨
      (c, off) = (.faultsrcWrite part v, 0x10068) ∨ (c, off) = (.fencectlWrite part v, 0x10058) ∨
      (c, off) = (.fenceseqWrite part v, 0x20058) ∨ (c, off) = (.reserveWrite part v, 0x10010) ∨
      (c, off) = (.hangmodeWrite part v, 0x10018) ∨ (c, off) = (.vernegOfferWrite part v, 0x20000) ∨
      (c, off) = (.clkenWrite part v, 0x10030) ∨ (c, off) = (.trimWrite part v, 0x10020) ∨
      (c, off) = (.traceClear part v, 0x20180) ∨ (c, off) = (.flush part v, 0x201C0) ∨
      (c, off) = (.resetRequest part v, 0x20018) ∨
      (∃ p, p < 12 ∧ ((c, off) = (.groupWrite p part v, 0x10200 + 8 * p) ∨
        (c, off) = (.hivepartWrite p part v, 0x10180 + 8 * p))) ∨
      (∃ h, h < 2 ∧ (c, off) = (.bootqEnable h part v, 0x20008 + 8 * h)) ∨
      (∃ u, u < 8 ∧ (c, off) = (.breakctlWrite u part v, 0x20200 + 16 * u)) ∨
      (0x10000 ≤ off ∧ off < 0x200000 ∧ c = .registerWrite off part v)) →
    (s.working = true → exec c s = .next (s.performWrite off part v)) ∧
    (s.power = .run → s.recov.safe = false → s.clocks.idle = .none → s.recov.inprogress = true →
      exec c s = .next (
        if off = 0x20018 ∧ (part = .whole ∨ part = .low) then s.auditedWrite 0x20018 { s := s, ignored := true }
        else { s with heldCmds := s.heldCmds ++ [(s.heldFrom.getD s.now, c)] })) ∧
    (s.power = .run → s.recov.safe = false → s.clocks.idle ≠ .none → s.recov.inprogress = false →
      exec c s = .next { s with heldCmds := s.heldCmds ++ [(s.heldFrom.getD s.now, c)] }.wakeUp) ∧
    (s.power = .run → s.recov.safe = true → exec c s = .next s)

/-- The bootstrap queue (R67, R276): an enable that its conditions let through makes the queue IDLE in the system
context of its half, which is LIVE from then on; BREAK_RESUME writes HIT with 1, which ends the pause (R435). -/
def BootstrapAndResume : Prop :=
  (∀ (h : Nat) (v : Word) (s : State), isHalf h → s.working = true → s.Canonical →
    s.regGated (0x20008 + 8 * h) = false →
    bit v 11 = true → s.clocks.pendfail = false → s.bootOk h (v &&& 0xFFFFFFFFFFFFF41F) = true →
    ∃ t : State, exec (.bootqEnable h .whole v) s = .next t ∧
      t.queue (2048 * h) = bootQueue h (v &&& 0xFFFFFFFFFFFFF41F) ∧ (t.ctx (512 * h)).state = .live ∧
      (t.queue (2048 * h)).state = .idle ∧ ∀ q, q ≠ 2048 * h → t.queue q = s.queue q) ∧
  ∀ (u : Nat) (s : State), isBreak u → s.working = true →
    exec (.breakResume u) s = .next (s.performWrite (0x20200 + 16 * u) .whole (s.resumeValue u))

/-- A read of a register with further words (R461) answers the first, or the half of it that the access covers, and
latches the others; a VF reads zero (R450), a narrow or misaligned read returns zero (R451), and a read of a gated
block is aborted and counted (R412), a narrow one too (the model's choice, log 109). -/
def LatchedReadsKeepTheirWords : Prop :=
  ∀ (r : LatchReg) (s : State), s.working = true →
    (s.regGated (latchOffset r) = false →
      (∀ part, part ≠ .odd → exec (.latchedDataRead .pf ⟨r, part⟩) s = .next
        ((s.setLatch .pf (latchNo r) ((s.latchWords r).drop 1)).drive
          (.readData .pf (some (partOf part ((s.latchWords r).headD 0)))))) ∧
      exec (.latchedDataRead .pf ⟨r, .odd⟩) s = .next (s.drive (.readData .pf (some 0)))) ∧
    (s.regGated (latchOffset r) = true → ∀ part, exec (.latchedDataRead .pf ⟨r, part⟩) s = .next
      ({ s with clocks := { s.clocks with buserr := satInc s.clocks.buserr } }.drive (.readData .pf none))) ∧
    ∀ p part, p < 12 → exec (.latchedDataRead (.vf p) ⟨r, part⟩) s = .next (s.drive (.readData (.vf p) (some 0)))

/-- A register without a row of its own is read through its offset (R412, R448, R450-R454): the PF reads the
register's word, or the half that the access covers; a gated block aborts the read and counts it, a narrow one too
(the model's choice, log 109); a VF reads zero there, and of the pages of its own queues it reads what the page holds.
-/
def RegistersAreRead : Prop :=
  (∀ (off : Nat) (part : Part) (s : State), off < 0x1000000 → s.working = true →
    (s.regGated (off - off % 8) = true → exec (.lowHalfRead .pf (.plain off) part) s = .next
      ({ s with clocks := { s.clocks with buserr := satInc s.clocks.buserr } }.drive (.readData .pf none))) ∧
    (s.regGated off = false → off % 8 = 0 → off ≠ 0x00008 → off ≠ 0x20058 → off ≠ 0x201D0 → latchAt off = none →
      exec (.lowHalfRead .pf (.plain off) part) s =
        .next (s.drive (.readData .pf (some (partOf part (s.regWord off)))))) ∧
    ∀ p, p < 12 → exec (.lowHalfRead (.vf p) (.plain off) part) s =
      .next (s.drive (.readData (.vf p) (some 0)))) ∧
  ∀ (fn : Fn) (q : Nat) (part : Part) (s : State), PageOpen s fn q →
    exec (.lowHalfRead fn (.qstatus q) part) s = .next (s.drive (.readData fn (some (partOf part (s.qstatus fn q))))) ∧
    exec (.lowHalfRead fn (.lasttag q) part) s =
      .next (s.drive (.readData fn (some (partOf part (s.pageWord fn q 0x018)))))

/-- A write of the register at offset off, with the state u that it leaves, has one audit entry, of the role of its
page, with what the register shows before and after (R429, R430). -/
def audited (s u : State) (off : Nat) (ignored : Bool) : State :=
  u.auditRec (if off < 0x20000 then 1 else 2) ignored 0 off (s.regWord off) (u.regWord off)

/-- What some registers' rules write (R31, R112, R113, R247, R248, R371, R372, R385, R412, R429): a legal 64-bit write
of PL_CHARGE, PL_GROUPp, PL_HIVEPARTp, PL_RESERVE or PL_FENCECTL changes its register, is audited once and leaves every
queue and sheaf alone, but that a fence whose conditions a new group or PL_FENCECTL meets while arrivals wait falls
(R387, R389); of a refused one only REFUSED is new, and its entry; a write of a gated block is counted and discarded, a
narrow one is ignored (R451), and both are audited as ignored (that a discarded write is audited is the model's reading,
log 52). That a refused change of FENCEPART or ARRIVALS leaves WINDOW, SYNC and EN of the same access unwritten is the
model's reading (log 45). -/
def RegisterRulesWriteParts : Prop :=
  ∀ (v : Word) (s : State),
    (∀ p, p < 12 → Tbl.wf (0 : Word) s.regs.hivepart = true →
      let base := fld v 17 0
      let count := fld v 40 22
      let t := s.performWrite (0x10180 + 8 * p) .whole v
      t = { s with regs := { s.regs with hivepart := t.regs.hivepart }, audit := t.audit } ∧
      t.audit.count = s.audit.count + 1 ∧
      (∀ p', p' ≠ p → t.hiveRange p' = s.hiveRange p') ∧
      (base + count ≤ 262144 → s.hiveClash p base count = false → s.partCtxs p = [] → t.hiveRange p = (base, count)) ∧
      ((base, count) ≠ s.hiveRange p → (262144 < base + count ∨ s.hiveClash p base count = true ∨ s.partCtxs p ≠ []) →
        t.hiveRange p = s.hiveRange p ∧ bit (Tbl.get 0 t.regs.hivepart p) 63 = true)) ∧
    s.performWrite 0x10000 .whole v = audited s { s with charge := { s.charge with
      yielded0 := s.charge.yielded0 && !bit v 8, yielded1 := s.charge.yielded1 && !bit v 9
      ret := bit v 5, prefer := bit v 4 } } 0x10000 false ∧
    (∀ p, p < 12 → Tbl.wf {} s.groups = true →
      let g := s.group p
      let size := fld v 55 42
      let t := s.performWrite (0x10200 + 8 * p) .whole v
      (∀ p', p' ≠ p → t.group p' = s.group p') ∧
      (s.partCtxs p = [] → 1 ≤ size → size ≤ 16383 → fld v 27 14 < size → fld v 41 28 < size →
        t.group p = { g with
          refused := g.refused && !bit v 63, en := bit v 62, size := BitVec.ofNat 14 size
          mgr := BitVec.ofNat 14 (fld v 41 28), num := BitVec.ofNat 14 (fld v 27 14) } ∧
        (s.fence.part.toNat ≠ p ∨ s.fenceWaits = false →
          t.audit.count = s.audit.count + 1 ∧ t.queues = s.queues ∧ t.nodes = s.nodes)) ∧
      ((s.partCtxs p ≠ [] ∨ size < 1 ∨ 16383 < size ∨ size ≤ fld v 27 14 ∨ size ≤ fld v 41 28) →
        (g.en, g.size.toNat, g.mgr.toNat, g.num.toNat) ≠ (bit v 62, size, fld v 41 28, fld v 27 14) →
        t.group p = { g with refused := true } ∧ t.audit.count = s.audit.count + 1 ∧
        t = { s with groups := t.groups, audit := t.audit })) ∧
    (let put := s.performWrite 0x10010 .whole v
     let g : BitVec 16 := BitVec.ofNat 16 (fld v 15 0)
     let kept := s.regs.reserveRefused && !bit v 16
     let clears : State := { s with regs := { s.regs with reserveRefused := kept } }
     (g = s.regs.groupchips → put = audited s clears 0x10010 false) ∧
     (g ≠ s.regs.groupchips → s.onlyBoot = true → g ≠ 0 → put = (audited s { s with regs := { s.regs with
        reserveRefused := kept, groupchips := g } } 0x10010 false).wakeIssuers ∧ put.queues = s.queues ∧
        put.nodes = s.nodes ∧ put.audit.count = s.audit.count + 1) ∧
     (g ≠ s.regs.groupchips → (s.onlyBoot = false ∨ g = 0) →
        put = { audited s clears 0x10010 true with regs := { s.regs with reserveRefused := true } })) ∧
    (let part : BitVec 4 := BitVec.ofNat 4 (fld v 51 48)
     let arr : BitVec 12 := BitVec.ofNat 12 (fld v 43 32)
     let put := s.performWrite 0x10058 .whole v
     let kept := s.fence.refused && !bit v 63
     let written : State := { s with fence := { s.fence with
        refused := kept, part := part, arrivals := arr, window := BitVec.ofNat 13 (fld v 28 16)
        sync := bit v 1, en := bit v 0 } }
     (s.fenceWaits = false ∨ (part = s.fence.part ∧ arr = s.fence.arrivals) →
       put = (audited s written 0x10058 false).fenceFollow ∧
       (s.fenceWaits = false → put.queues = s.queues ∧ put.nodes = s.nodes ∧ put.audit.count = s.audit.count + 1 ∧
         put.fence.part = part ∧ put.fence.arrivals = arr ∧ put.fence.window = written.fence.window ∧
         put.fence.sync = bit v 1 ∧ put.fence.en = bit v 0 ∧ put.fence.refused = kept)) ∧
     (s.fenceWaits = true → (part ≠ s.fence.part ∨ arr ≠ s.fence.arrivals) →
       put = { audited s { s with fence := { s.fence with refused := kept } } 0x10058 true with
         fence := { s.fence with refused := true } })) ∧
    (s.inService 0 = true → s.enabled 0 = false →
      let u : State := { s with clocks := { s.clocks with buserr := satInc s.clocks.buserr } }
      s.performWrite 0x20008 .whole v = u.auditedWrite 0x20008 { s := u, ignored := true }) ∧
    s.performWrite 0x10060 .odd v = s.auditedWrite 0x10060 { s := s, ignored := true }

/-- What 64-bit writes of further special registers leave, legal or ignored (R66, R297, R334, R348, R392, R404, R411,
R413, R432, R433, R440, R465). An ignored change leaves the register but for its REFUSED, W1C and selector fields; a
write of selectors alone is not audited (R429). The bits of PL_CLKEN are said with both halves in service. -/
def SpecialRegistersWrite : Prop :=
  ∀ (v : Word) (s : State),
    let put (off : Nat) : State := s.performWrite off .whole v
    (let mode := bit v 24
     let period : BitVec 17 := BitVec.ofNat 17 (fld v 16 0)
     let r := { s.recov with hangRefused := s.recov.hangRefused && !bit v 28 }
     let same : Prop := mode = r.mode ∧ period = r.period
     let allowed : Prop := s.onlyBoot = true ∧ 100 ≤ period.toNat ∧ period.toNat ≤ 100000
     (same → put 0x10018 = audited s { s with recov := r } 0x10018 false) ∧
     (¬ same → allowed → put 0x10018 = audited s { s with recov :=
        if mode = r.mode then { r with period := period } else { r with
          period := period, mode := mode, armed := false, snapshot := none, suspects := [], lastGraph := []
          scans := 0 } } 0x10018 false) ∧
     (¬ same → ¬ allowed → put 0x10018 =
        { audited s { s with recov := r } 0x10018 true with recov := { r with hangRefused := true } })) ∧
    (let offer : BitVec 4 := BitVec.ofNat 4 (fld v 27 24)
     let regs := { s.regs with qsel := BitVec.ofNat 12 (fld v 55 44) }
     let inUse := s.queueExists fun _ x => decide (1 ≤ x.fmt.toNat)
     (offer = s.regs.offer → put 0x20000 = { s with regs := regs }) ∧
     (offer ≠ s.regs.offer → inUse = true → put 0x20000 = audited s { s with regs := regs } 0x20000 true) ∧
     (offer ≠ s.regs.offer → inUse = false → put 0x20000 = audited s { s with regs := { regs with
        offer := offer, agreed := BitVec.ofNat 4 (min offer.toNat 1) } } 0x20000 false)) ∧
    (let link : BitVec 5 := BitVec.ofNat 5 (fld v 12 8)
     let ref : BitVec 2 := BitVec.ofNat 2 (fld v 1 0)
     let t := { s.trim with lostref := s.trim.lostref && !bit v 16 }
     let same : Prop := link = t.link ∧ ref = t.ref
     (same → put 0x10020 = audited s { s with trim := { t with waiting := none } } 0x10020 false) ∧
     (¬ same → link.toNat < s.linkPorts →
        put 0x10020 = audited s { s with trim := { t with waiting := some (link, ref) } } 0x10020 false) ∧
     (¬ same → s.linkPorts ≤ link.toNat → put 0x10020 = audited s { s with trim := t } 0x10020 true)) ∧
    (s.inService 0 = true → s.inService 1 = true →
     let new : BitVec 17 := BitVec.ofNat 17 (fld v 16 0)
     let c := { s.clocks with clkRefused := s.clocks.clkRefused && !bit v 55 }
     let stops : Prop := s.clocks.enables &&& ~~~new &&& 0x1DFFF ≠ 0 ∧ s.queueExists (fun _ _ => true) = true
     (¬ stops → put 0x10030 = audited s { s with clocks := { c with enables := new } } 0x10030 false) ∧
     (stops → put 0x10030 =
        { audited s { s with clocks := c } 0x10030 true with clocks := { c with clkRefused := true } })) ∧
    (let seq : BitVec 48 := BitVec.ofNat 48 (fld v 47 0)
     let waits : Prop := s.fenceWaits = true ∨ (s.fenceManager = true ∧ s.fence.ready ≠ [])
     (seq = s.fence.seq → put 0x20058 = audited s s 0x20058 false) ∧
     (seq ≠ s.fence.seq → waits → put 0x20058 = audited s s 0x20058 true) ∧
     (seq ≠ s.fence.seq → ¬ waits →
        put 0x20058 = audited s { s with fence := { s.fence with seq := seq, fallen := none } } 0x20058 false)) ∧
    (let t := { s.trace with
        stop := bit v 23, filten := bit v 21
        filtctx := BitVec.ofNat 10 (fld v 20 11), kindmask := BitVec.ofNat 8 (fld v 7 0) }
     put 0x20180 = audited s { s with trace := if bit v 22 = true then { t with written := 0, dropped := 0 } else t }
        0x20180 false) ∧
    (let i := fld v 15 0
     let n := fld v 55 48
     let w := fld v 47 26
     let newN : Prop := n ≠ fld s.plFaultsrc 55 48
     let newW : Prop := w ≠ fld s.plFaultsrc 47 26
     let u : State := { s with faults := { s.faults with srcSel := BitVec.ofNat 16 i } }
     let bad : Prop := (newN ∧ n = 0) ∨ (newW ∧ (w = 0 ∨ 3600000 < w)) ∨ sourceListed i = false
     (¬ newN → ¬ newW → put 0x10068 = u) ∧
     ((newN ∨ newW) → bad → put 0x10068 = audited s u 0x10068 true) ∧
     ((newN ∨ newW) → ¬ bad → put 0x10068 = audited s (u.setSource i { s.source i with
        n := if newN then BitVec.ofNat 8 n else (s.source i).n
        window := if newW then BitVec.ofNat 22 w else (s.source i).window, subs := [] }) 0x10068 false)) ∧
    (s.halvesOn 0 = true →
     let q := fld v 11 0
     ((s.regs.abortBusy = true ∨ (s.queue q).state = .free) → put 0x20020 = audited s s 0x20020 true) ∧
     (s.regs.abortBusy = false → (s.queue q).state ≠ .free →
        put 0x20020 = audited s (s.abortQueue q) 0x20020 false)) ∧
    ∀ u, u < 8 → Tbl.wf ({} : Break) s.breaks = true →
     let off := 0x20200 + 16 * u
     let old := s.brk u
     let mode : BitVec 2 := BitVec.ofNat 2 (fld v 57 56)
     let ctx : BitVec 10 := BitVec.ofNat 10 (fld v 55 46)
     let on : Bool := mode == 1 || mode == 2
     let b := { old with hit := old.hit && !bit v 63, refused := old.refused && !bit v 62 }
     let ends (t : State) (hit : Bool) : State := if old.hit = true ∧ hit = false then t.endPause old.ctx.toNat else t
     let bad : Prop := on = true ∧ (mode ≠ old.mode ∨ ctx ≠ old.ctx) ∧
       (isSystem ctx.toNat = true ∨ (s.ctx ctx.toNat).state ≠ .live ∨ old.hit = true)
     (bad → put off = ends ((audited s (s.setBrk u b) off true).setBrk u { b with refused := true }) b.hit) ∧
     (¬ bad → put off = ends (audited s (s.setBrk u { b with
        mode := mode, ctx := ctx, hit := b.hit && on
        counted := if on = true ∧ old.mode ≠ 1 ∧ old.mode ≠ 2 then 0 else b.counted }) off false) (b.hit && on))

/-- The trim loop (R401-R404, R409): the fourth good gate in a row locks, which locks the T-12 crossings; a lost
reference puts LOCKED into HOLDOVER for 60 s and ACQUIRE into UNTRIMMED, which unlocks them; the reference's return
starts the count of good gates again, from UNTRIMMED in ACQUIRE (that it starts again then is the model's choice, log
55); a HOLDOVER that lasts 60 s is UNTRIMMED. -/
def TrimLoopStates : Prop :=
  ∀ s : State, (s.power = .init ∨ s.power = .run) →
    (∀ count : Nat, s.trim.refLost = false → s.trim.ref ≠ 2 → s.trim.waiting = none →
      ((count : Int) - 1600000).natAbs ≤ 800 →
      ∃ t : State, exec (.trimGate count) s = .next t ∧
        (s.trim.good < 3 → s.trim.state = .acquire → t.trim.good = s.trim.good + 1 ∧ t.trim.state = .acquire) ∧
        (3 ≤ s.trim.good → s.trim.state = .acquire → t.trim.state = .locked ∧ t.trim.lockedXing = !s.fuses.t6) ∧
        t.queues = s.queues ∧ t.nodes = s.nodes ∧ t.clocks = s.clocks) ∧
    (s.trim.refLost = false → s.trim.ref ≠ 2 → ∃ t : State, exec .referenceLoss s = .next t ∧
      t.trim.refLost = true ∧ t.trim.lostref = true ∧ t.trim.losses = satInc s.trim.losses ∧
      (s.trim.state = .locked → t.trim.state = .holdover ∧ t.trim.holdDue = s.now + 60000000 ∧
        t.trim.lockedXing = s.trim.lockedXing) ∧
      (s.trim.state = .acquire → t.trim.state = .untrimmed ∧ t.trim.lockedXing = false)) ∧
    (s.trim.refLost = true → ∃ t : State, exec .referenceReturn s = .next t ∧ t.trim.refLost = false ∧
      t.trim.good = 0 ∧ t.trim.state = (if s.trim.state = .untrimmed then .acquire else s.trim.state)) ∧
    (s.trim.state = .holdover → s.trim.holdDue ≤ s.now → ∃ t : State, exec .holdoverExpiry s = .next t ∧
      t.trim.state = .untrimmed ∧ t.trim.lockedXing = false)

/-- The link-notice port's clock (R406, R407): without an edge it runs on the local oscillator, and once the recovered
clock has been back for 64 µs it runs on what SEL says; each switch is counted. -/
def LinkClockFallsBack : Prop :=
  ∀ s : State, s.power ≠ .off →
    (∃ t : State, exec .linkClockLoss s = .next t ∧ t.clocks.curLocal = true ∧ t.clocks.linkLost = true ∧
      t.clocks.returnDue = s.now + 64 ∧
      t.clocks.switches = (if s.clocks.curLocal = true then s.clocks.switches else satInc s.clocks.switches)) ∧
    (s.now < s.clocks.returnDue → exec .linkClockReturn s = .next s) ∧
    (s.clocks.returnDue ≤ s.now → ∃ t : State, exec .linkClockReturn s = .next t ∧
      t.clocks.curLocal = s.clocks.selLocal ∧ t.clocks.linkLost = false ∧
      t.clocks.switches = (if s.clocks.curLocal = s.clocks.selLocal then s.clocks.switches
        else satInc s.clocks.switches))

/-- The command c is held, with the time of its arrival (R417, R454). -/
def heldBack (s : State) (c : Instr) : State := { s with heldCmds := s.heldCmds ++ [(s.heldFrom.getD s.now, c)] }

/-- Idle states (R414-R419): when the conditions hold, Pliat enters the deepest state that is permitted and plans the
wake for the next known event; the planned wake begins early enough for that, and a host access, a report of the data
path or a fault event begins the wake at once: an access or report is held, but a doorbell write sets PENDING when it
arrives. A wake ends after its state's time, 1, 20 or 400 µs, with the idle state, and performs what was held, such as
a read of RETIRED. Without a held access nothing else of Pliat changes. The conditions that R414 does not list, the
events that R416 leaves to be read, and what is held where are the model's reading (log 56); idle time does not count
as running time in the lifetime image (log 57). -/
def IdleAndWake : Prop :=
  (∀ s : State, s.mayIdle = true → s.idleChoice ≠ .none → exec .idleEntry s = .next { s with
    clocks := { s.clocks with idle := s.idleChoice, waking := false, entries := s.clocks.entries + 1
                              lastidle := BitVec.ofNat 2 s.idleChoice.code
                              planned := s.nextEvent.map fun d => s.now + d } }) ∧
  (∀ (s : State) (t : Nat), s.clocks.idle ≠ .none → s.clocks.waking = false → s.clocks.planned = some t →
    exec .idleWake s = .next (
      if t ≤ s.now + s.clocks.idle.wakeTime then
        { s with clocks := { s.clocks with waking := true, wakeDue := s.now + s.clocks.idle.wakeTime } }
      else s)) ∧
  (Idle.nap.wakeTime = 1 ∧ Idle.doze.wakeTime = 20 ∧ Idle.deep.wakeTime = 400) ∧
  (∀ s : State, s.power = .run → s.recov.safe = false → s.clocks.idle ≠ .none → s.clocks.waking = false →
    let woken (t : State) : State := { t with clocks := { t.clocks with
      waking := true, wakeDue := s.now + s.clocks.idle.wakeTime } }
    (∀ (fn : Fn) (q : Nat) (wide : Bool), isFn fn → isQueue q → exec (.retiredRead fn q wide) s =
      .next (woken (heldBack s (.retiredRead fn q wide)))) ∧
    (∀ (off : Nat) (part : Part) (v : Word), 0x10000 ≤ off → off < 0x200000 → off ≠ 0x20018 →
      exec (.registerWrite off part v) s = .next (woken (heldBack s (.registerWrite off part v)))) ∧
    (∀ (f : Nat) (w0 w1 w2 : Word), isFurrow f → s.engineOn = true → s.hiveOn (halfOfObj (fld w0 17 0)) = true →
      exec (.signalReport f w0 w1 w2) s = .next (woken (heldBack s (.signalReport f w0 w1 w2)))) ∧
    (∀ (fn : Fn) (q : Nat) (v : Word), isFn fn → isQueue q → s.recov.inprogress = false → s.pageGated q = false →
      s.pageLive fn q = true → (s.qstate q = .idle ∨ s.qstate q = .active ∨ s.qstate q = .stopped) → s.Canonical →
      ∃ t : State, exec (.doorbellWrite fn q true v) s = .next (woken t) ∧ t = { s with queues := t.queues } ∧
        (t.queue q).tail = v ∧ (t.queue q).pending = true ∧ ∀ q', q' ≠ q → t.queue q' = s.queue q') ∧
    ∀ e : Event, (s.source e.source).masked = false → (s.raise e).clocks.waking = true) ∧
  ∀ s : State, s.clocks.waking = true →
    let awake : State := { s with clocks := { s.clocks with idle := .none, waking := false, planned := none } }
    (s.now < s.clocks.wakeDue → exec .wakeComplete s = .next s) ∧
    (s.clocks.wakeDue ≤ s.now → exec .wakeComplete s = .next awake.performHeld) ∧
    (s.heldCmds = [] → awake.performHeld = awake) ∧
    ∀ (at' q : Nat) (fn : Fn), s.heldCmds = [(at', .retiredRead fn q true)] → s.recov.safe = false →
      s.recov.inprogress = false → s.power = .run → isFn fn → isQueue q → s.pageGated q = false →
      s.pageLive fn q = true →
      awake.performHeld.heldCmds = [] ∧ awake.performHeld.queues = s.queues ∧
      awake.performHeld.out = .readData fn (some (s.queue q).retired) :: s.out

/-- A core that has had no work for 50 µs is marked lendable (R270). -/
def IdleCoresAreLent : Prop :=
  ∀ (core : Nat) (s : State), core < 192 → s.working = true → s.lendableNow core = true →
    exec (.lendMark core) s = .next ({ s with lent := core :: s.lent }.drive (.lendable core true))

/-- An engine port's first calibration report is remembered, and EVALID is 1 once every one has come (R423); a
temperature is counted in its bin (R441, R442); a transfer's end leaves a trace record of its queue (R439). -/
def MonitorsReport : Prop :=
  (∀ (f : Nat) (s : State), f < 576 → s.power ≠ .off → s.engineOn = true →
    s.furrowPresent f = true → ∃ t : State, exec (.energyCalibrated f) s = .next t ∧
      t.clocks.calibrated.contains f = true ∧
      t.clocks.evalid = (s.clocks.evalid || (List.range (48 * s.clusters)).all
        fun g => g == f || s.clocks.calibrated.contains g) ∧ t.ctxs = s.ctxs) ∧
  (∀ (celsius : Int) (s : State), s.power ≠ .off → Tbl.wf (0 : Word) s.life.image = true →
    ∃ t : State, exec (.temperatureReport celsius) s = .next t ∧
      Tbl.get 0 t.life.image (40 + tempBin celsius) = Tbl.get 0 s.life.image (40 + tempBin celsius) + 1 ∧
      t.queues = s.queues) ∧
  ∀ (f packets : Nat) (tag : BitVec 32) (dest : BitVec 14) (s : State), isFurrow f → 2 ≤ kindOfFurrow f →
    s.power = .run → s.recov.safe = false → s.engineOn = true →
    exec (.transferEnd f tag dest packets) s = .next (s.traceRec 4 (s.transferOf f tag).1 (some (s.transferOf f tag).2)
      (traceW1 tag (f * 2 ^ 22 + dest.toNat * 2 ^ 8 + min packets 255))) ∧
    ∀ r, (s.furrow f).run = some r → r.tag = tag → s.transferOf f tag = (r.entry.queue, r.entry.ctx)

/-- Flushes begin on request of the controller, the timer, or the host, which writes FLUSH of PL_LIFECTL (R444, R446):
one in progress goes on and the new one waits, for a new load if the image is not loaded yet (R447); with a loaded
image the flush begins at once, and line 1 goes out first. The write is audited as every write of the operator page,
with NEW read before the flush that it asks for begins (the model's choice, log 108); without FLUSH it begins nothing.
DATA goes on with the load and ACK with the flush; a NAK, or no answer for 200 µs, sends the request again, at most
three times (R443-R445). That an answer of another type counts as wrong is the model's reading (log 54), and so are
the counts of the image and the first flush 3,600 s after power-up (log 57). -/
def LifetimeImageTravelsParts : Prop :=
  (∀ s : State, s.power ≠ .off →
    let asked (s : State) : State := if s.life.sideband ≠ .idle then
        { s with life := { s.life with waiting := true, reload := !s.life.loaded } }
      else if s.life.loaded = false then { s with life := { s.life with waiting := true } }.startLoad
      else s.startFlush
    (∀ m, sbSound m = true → sbType m = 5 → exec (.flushreq m) s = .next (asked s)) ∧
    (s.life.flushDue ≤ s.now → exec .flushTimer s = .next (asked s)) ∧
    (∀ (part : Part) (v : Word), s.working = true → part = .whole ∨ part = .low →
      let written := s.auditRec 2 false 0 0x201C0 (s.regWord 0x201C0) (s.regWord 0x201C0)
      exec (.flush part v) s = .next (if bit v 0 = true then asked written else written)) ∧
    (s.life.sideband = .idle → s.life.loaded = true → (asked s).life.sideband = .flush 1 ∧
      (asked s).life.waiting = false ∧ (asked s).life.flushDue = s.now + 3600000000 ∧ (asked s).queues = s.queues)) ∧
  (∀ (m : SidebandFrame) (s : State), Answers s m 2 → exec (.dataFrame m) s = .next (s.loadNext m.payload)) ∧
  (∀ (m : SidebandFrame) (s : State), Answers s m 3 → exec (.ackFrame m) s = .next s.flushNext) ∧
  ∀ s : State, s.power ≠ .off → ∀ f : SidebandFrame, s.life.request = some f →
    let again := Host.Outcome.next (if s.life.retries < 3 then
        { s with life := { s.life with retries := s.life.retries + 1, answerDue := s.now + 200 } }.drive (.sideband f)
      else { s with life := { s.life with fails := satInc s.life.fails } }.sbFree)
    (s.life.answerDue ≤ s.now → exec .sidebandTimeout s = again) ∧
    (s.now < s.life.answerDue → exec .sidebandTimeout s = .next s) ∧
    ∀ m, Answers s m 4 → exec (.nak m) s = again

/-- A flush writes the lines in order and the header last (R444): the request after lines 1 to 267 is for line 0, and
after line 0 the flush has ended, the other slot holds the newest image, and the count has risen. -/
def TheHeaderIsFlushedLast : Prop :=
  ∀ s : State,
    (∀ line, s.life.sideband = .flush line → line ≠ 0 → line ≤ 267 → s.flushNext.life.sideband =
      .flush (if line + flushCount line < 268 then line + flushCount line else 0) ∧
      s.flushNext.life.seq = s.life.seq + 1 ∧ s.flushNext.life.buffer = s.life.buffer) ∧
    (s.life.sideband = .flush 0 → s.life.waiting = false → s.flushNext.life.sideband = .idle ∧
      s.flushNext.life.flushes = satInc s.life.flushes ∧ s.flushNext.life.newest = 1 - s.life.newest)

/-- A command that names units that exist answers a next state in every state: no ordinary command ends a run with a
refusal; the only fault is a unit that does not exist, of a command that names one (log 5). -/
def CommandsCompleteParts : Prop :=
  ∀ (c : Instr) (s : State),
    (WellFormed c → ∃ t : State, exec c s = .next t) ∧ (¬ WellFormed c → exec c s = .fault .noSuchUnit)

/-- A machine whose waiting commands all name units that exist runs for ever: every step answers a next state, and the
next state's waiting commands name units that exist. -/
def SoundMachinesRun : Prop :=
  (∀ s : State, Sound s → ∃ t : State, step s = .next t ∧ Sound t) ∧ ∀ (k : Nat) (s : State), Sound s → Safe k s

/-- The tables are in canonical form after reset, when nothing is listed. -/
def ResetIsCanonical : Prop := State.reset.Canonical ∧ State.reset.pending = []

/-- The trim state of reset is sound: what `TrimSound` says holds of it. -/
def ResetIsTrimSound : Prop := TrimSound State.reset

end Sys2Proof.Claim

open Sys2Proof.Claim

/-- A step takes the command at the front of the queue and performs it with the queue's rest (the model's own
rule of order, log 2). -/
def Obligations.StepPerformsFrontCommand : Prop :=
  ∀ (c : Instr) (s : State), step (front s c) = exec c s

/-- With no command waiting, a step is one microsecond of local time (log 3): PL_USEC and the seconds of the part's life
advance and nothing else changes; without a supply nothing changes. -/
def Obligations.EmptyQueueIsOneMicrosecond : Prop :=
  (∀ s : State, s.pending = [] → s.power ≠ .off →
    step s = .next { s with
      usec := s.usec + 1
      life := { s.life with secs := s.life.secs.tick s.recov.safe s.clocks.idle } }) ∧
  ∀ s : State, s.pending = [] → s.power = .off → step s = .next s

/-- Writes and reads of doorbell pages: DOORBELL by queue state, RECACK by the ring, narrow and foreign accesses: what
its parts say, together. -/
def Obligations.DoorbellPagesAct : Prop :=
  DoorbellWriteByQueueState ∧ NarrowPageWritesAreIgnored ∧ ForeignPagesAreClosed ∧ RecackFollowsTheRing

/-- Reads of counts latch the other half, and RETIRED latches the last TAG and status: what its parts say, together. -/
def Obligations.CountReadsLatch : Prop :=
  RetiredReadLatchesLastTag ∧ HalvesOfACountAgree

/-- TAIL_READ, ring fetch and queue errors: what its parts say, together. -/
def Obligations.FetchFollowsTheTail : Prop :=
  TailReadComparesWithHeadAndTail ∧ QueueErrorStopsFetch ∧ GrantReadsRingLines

/-- CONFIG takes effect at acceptance (R96): before the sheaves behind it are checked, the queue's recorded
configuration is its REGLOAD lines (unless REPEAT is 0), its lines are consumed, and it has a sequence number. -/
def Obligations.ConfigReplacesRecordedConfiguration : Prop :=
  ∀ (q : Nat) (ls : List Line) (s : State), isQueue q → s.working = true → s.qstate q = .active →
    s.mayFetch q = true → (s.queue q).nextSheaf = .sheaf ls → hOp ls = opConfig →
    checkSheaf s q ls = .accept → s.Canonical →
    ∃ t : State, exec (.config q) s = .next (t.drain q 1024) ∧
      (t.queue q).config = (if hRepeat ls = 0 then (s.queue q).config else regloads ls) ∧
      (t.queue q).head = (s.queue q).head + BitVec.ofNat 64 ls.length ∧
      (t.queue q).nextSeq = (s.queue q).nextSeq + 1 ∧ (t.queue q).inflight = (s.queue q).inflight

/-- A sheaf with a sequence number retires (R68, R71, R108, R110): its queue remembers the sequence number with TAG and
status, INFLIGHT falls by one, and the other queues are unchanged. With room in the record ring, or without a record to
write in the present RECMODE, its node slot is free, and a record was written if RECMODE asks for one. With a full ring
the record is held, the sheaf keeps its node slot in HELDRECORD, and RETIRED does not pass it (R74, R109). -/
def RetirementEndsASheaf : Prop :=
  ∀ (n : Nat) (d : Node) (fin : Final) (s : State), s.Canonical → s.node n = some d → d.child = none →
    let t := s.retire n fin
    let x := s.queue d.queue
    let y := t.queue d.queue
    Tbl.get none y.record d.seq.toNat =
      some { zero := fin.executed == 0, tag := d.tag, status := fin.status, stamp := s.stamp } ∧
    y.inflight = x.inflight - 1 ∧ y.head = x.head ∧ (∀ q', q' ≠ d.queue → t.queue q' = s.queue q') ∧
    ((x.recFull = false ∨ x.records fin.status = false) → t.node n = none ∧ y.held = x.held ∧
      y.recWritten = x.recWritten + (if x.records fin.status = true then 1 else 0)) ∧
    (x.recFull = true → x.records fin.status = true →
      (t.node n).map (fun e => (e.phase, e.final)) = some (.heldRecord, some fin) ∧ y.recWritten = x.recWritten ∧
      y.held = x.held ++ [retireRecord d.queue d.seq d.tag d.gen fin (some n)] ∧
      (x.retired.toNat ≤ d.seq.toNat → y.retired.toNat ≤ d.seq.toNat))

/-- RECACK that makes room writes the records that were held (R74): with one of them, that is written to its slot of the
ring with its context's current generation (R290), and its sheaf's node slot is free. -/
def RoomWritesTheHeldRecord : Prop :=
  ∀ (fn : Fn) (q n : Nat) (r : Record) (d : Node) (v : Word) (s : State), PageOpen s fn q → s.Canonical →
    let x := s.queue q
    s.qstate q ≠ .free → s.qstate q ≠ .offline → x.recFull = true → x.recAck.toNat < v.toNat →
    v.toNat ≤ x.recWritten.toNat → x.held = [r] → r.node = some n → s.node n = some d →
    ∃ t : State, exec (.recackWrite fn q true v) s = .next t ∧ (t.queue q).held = [] ∧
      (t.queue q).recWritten = x.recWritten + 1 ∧ (t.queue q).recAck = v ∧ t.node n = none ∧
      .memWrite (s.stampOf x.ctx (s.ctx x.ctx).gen) x.recHost
        (x.recBase + BitVec.ofNat 64 (32 * (x.recWritten.toNat % 64)))
        (recordWords { r with queue := q, node := none } x.recWritten.toNat s.now) ∈ t.out

/-- Retirement and its record, written or held: what its parts say, together. -/
def Obligations.RetirementFreesTheNodeSlot : Prop :=
  RetirementEndsASheaf ∧ RoomWritesTheHeldRecord

/-- Edges cross the half bridge, and a sheaf whose conditions hold is released: what its parts say, together. -/
def Obligations.SheavesAreReleased : Prop :=
  EdgesCrossTheBridge ∧ ReleaseSendsASheafOn

/-- A released NOP retires DONE, with one iteration executed, and does nothing else (R97): the state is that of the
retirement alone, which leaves every hive object and its waiters, every scale slot, partition, group, routine and the
step fence as they are. -/
def Obligations.NopRetiresDone : Prop :=
  ∀ (n : Nat) (d : Node) (s : State), Released s n d opNop →
    let t := s.retireWith n stDone 1 0
    exec (.nop n) s = .next t ∧ t.objects = s.objects ∧ t.waiters = s.waiters ∧ t.remoteOps = s.remoteOps ∧
      t.slots = s.slots ∧ t.parts = s.parts ∧ t.groups = s.groups ∧ t.routines = s.routines ∧ t.fence = s.fence ∧
      t.pending = s.pending

/-- Own steps: engine opcodes ask for admission, FENCE QUEUE retires, FENCE STEP arrives, CALL queues its run: what
its parts say, together. -/
def Obligations.OwnStepsReachTheirUnits : Prop :=
  EngineSheavesAskForAdmission ∧ FenceQueueRetiresDone ∧ CallQueuesItsFirstRun ∧ FenceStepArrives

/-- BRANCH OBJECT and BRANCH DEADLINE decide their path: what its parts say, together. -/
def Obligations.BranchesDecide : Prop :=
  BranchObjectDecides ∧ BranchDeadlineIsEvaluated

/-- FANOUT and MASKED read their table after release (R180-R182; that the read goes out before a window is checked is
the model's choice, log 76); its members are the experts with work, or the occupied tiles, in order (R181, R197), and
a table without one skips the sheaf, after a pause that holds it (R435, log 76). One member is created at a time, with
the next ordinal, its own patch arguments and its own furrow (R185, R191), once the image build has read the template's
lines in its half's descriptor cache (R317; that the command waits is the model's choice, log 83). -/
def Obligations.TemplatesExpandTheirTable : Prop :=
  (∀ (n : Nat) (d : Node) (s : State),
    let read := (s.setNode n (some { d with phase := .table, reading := d.tableArea.2 })).drive
      (.memRead (s.stampOf d.ctx d.gen) false (BitVec.ofNat 64 d.tableArea.1) d.tableArea.2)
    (Released s n d opFanout → exec (.fanout n) s = .next read) ∧
    (Released s n d opMasked → exec (.masked n) s = .next read)) ∧
  (∀ (n : Nat) (d : Node) (ls : List Line) (s : State), isNode n → s.working = true → s.node n = some d →
    d.phase = .table → 0 < d.reading → ls.length = d.reading →
    s.insideMem d.ctx d.tableArea.1 (64 * d.tableArea.2) false = true →
    exec (.tableReadComplete n ⟨s.stampOf d.ctx d.gen, .lines ls⟩) s = .next (
      if d.planOf ls ≠ [] then s.setNode n (some { d with phase := .expand, plan := d.planOf ls })
      else if s.frozen d = true then s.setNode n (some { d with reading := 0 }) else s.skip n d)) ∧
  ∀ (n id : Nat) (a0 a1 : Word) (rest : List (Nat × Word × Word)) (d : Node) (s : State), isNode n →
    s.working = true → s.node n = some d → d.phase = .expand → s.frozen d = false →
    d.plan = (id, a0, a1) :: rest →
    let f := if tAny d.lines = true then s.chooseFurrow d.half d.ctx d.kind else tUnit d.lines
    let d' : Node := { d with
      plan := rest
      members := d.members ++ [{ ordinal := d.members.length, id := id, arg0 := a0, arg1 := a1, furrow := f
                                 st := .waiting, acc32 := d.acc32 }] }
    let c : Instr := .memberCreate n
    let needs := sheafNeeds n d.lines.length
    (Holds s (unread s c needs) →
      (d.kind = 0 → s.metaCheck d.ctx (d'.image (some d.members.length) false d.acc32) = none) →
      exec c s = .next { (hasRead s c).setNode n (some d') with
        admits := s.admits ++ [{ furrow := f, entry := d.entry n (some d.members.length) false d.relOrder
                                 front := false }] }) ∧
    (¬ Holds s (unread s c needs) → exec c s = .next (asksReads s c c needs))

/-- The scale steward chooses exponents and records reports: what its parts say, together. -/
def Obligations.ScaleExponents : Prop :=
  StewardChoosesTheExponent ∧ MeasurePassDecidesTheExponent ∧ ScaleReportsAreRecorded

/-- Admission, grant, preload and engine start: what its parts say, together. -/
def Obligations.FurrowsFeedTheirEngines : Prop :=
  FurrowAdmitsTheFirstRequest ∧ GrantPreloadsTheHead ∧ PreloadFillsTheShadowBank ∧
  EngineStartRunsTheShadowBank

/-- Tokens land in their store, and a cycle budget holds back and releases starts: what its parts say, together. -/
def Obligations.TokensAndBudgets : Prop :=
  CycleBudgetHoldsAndReleases ∧ TokensLandInTheirStore

/-- Commits count iterations, send tokens and release chained successors, and the report of the last one retires the
sheaf: what its parts say, together. -/
def Obligations.CommitsCount : Prop :=
  LastCommitReportsDone ∧ EarlierCommitStartsTheNextIteration ∧ CommitsSendTokensAndChain ∧
  CommitReportRetiresTheSheaf

/-- Progress, saturation, and a handshake of an engine that runs nothing: what its parts say, together. -/
def Obligations.RunsReportInBetween : Prop :=
  ProgressRestartsTheTimer ∧ SaturationRestartsWide ∧ HandshakeWithoutARunIsAPortFault

/-- Aborts, pre-emption and queue timeouts: what its parts say, together. -/
def Obligations.RunsAreAborted : Prop :=
  AbortRetiresTheSheaf ∧ PreemptionAbortsTheRun ∧ QueueTimeoutEndsOrReports

/-- SIGNAL, WAIT and STILE act on their hive object, of any kind, here or on another chip: what its parts say,
together. -/
def Obligations.HiveSheavesActOnObjects : Prop :=
  SignalsChangeTheObject ∧ WaitComparesOrStands ∧ ArrivalsFillTheRound ∧ OtherArrivals ∧ TierArrivals ∧
  InitAndResetSetTheObject ∧ InitAndResetRefuse ∧ RemoteOperationsAreSent

/-- Of the waiters of an object exactly those whose test the present value satisfies are released (R250, R252); the
others keep their order, and releasing a waiter changes no object. -/
def Obligations.WakeReleasesExactly : Prop :=
  ∀ (o : Nat) (s : State), s.Canonical →
    (s.wakeWaiters o).waitersOf o = (s.waitersOf o).filter (fun w => !w.released (s.obj o)) ∧
    ∀ o', (s.wakeWaiters o).obj o' = s.obj o'

/-- QCTL CREATE that no field refuses creates its queue with the attributes given, IDLE and empty (R48, R49); otherwise
it retires FORMAT with the first field that R103 refuses, or WINDOW for a ring outside the windows. RESTART of a stopped
queue, outside a teardown, takes HEAD and TAIL and makes it ACTIVE (R62), and is refused at QUEUE, h or t otherwise.
DESTROY withdraws its queue (R295), with its queue BUSY already waits (R104), and is refused for a FREE queue, for its
own and for one of a lost half. Each but DESTROY retires DONE; DESTROY waits until the queue is FREE. A queue created
reads as a new one through its page (R462). Which field a refusal names is the model's reading (logs 19, 71 and 99). -/
def Obligations.QctlActsOnItsQueue : Prop :=
  ∀ (n : Nat) (d : Node) (s : State),
    let q := fld (aw d.lines 0) 27 16
    let x := createdQueue d
    let w := aw d.lines
    let c := fld (w 0) 37 28
    let kind := fld (w 0) 39 38
    let fmt := fld (w 0) 43 40
    let mine := (s.queue d.queue).kind
    let refused : Option (Nat × Nat) :=
      if (s.queue q).state ≠ .free ∨ s.inService (halfOfQueue q) = false ∨
        (s.isRecovery q = true ∧ mine ≠ .pf) then some (0, 16)
      else if (s.ctx c).state ≠ .live ∨ halfOfCtx c ≠ halfOfQueue q then some (0, 28)
      else if kind = 3 ∨ (kind < 2 ∧ mine = .partition) then some (0, 38)
      else if 1 < fmt ∨ (kind < 2 ∧ fmt = 0) ∨ (1 ≤ fmt ∧ s.regs.agreed.toNat < fmt) then some (0, 40)
      else if fld (w 0) 48 44 < 6 ∨ 20 < fld (w 0) 48 44 then some (0, 44)
      else if fld (w 1) 11 0 ≠ 0 then some (1, 0)
      else if fld (w 2) 10 0 ≠ 0 then some (2, 0)
      else if fld (w 3) 31 0 < 100 ∨ 1000000000 < fld (w 3) 31 0 then some (3, 0)
      else if fld (w 3) 44 32 = 0 ∨ 4096 < fld (w 3) 44 32 then some (3, 32)
      else if w 4 ≠ 0 ∧ (fld (w 4) 63 34 ≠ 0 ∨ 2 ≤ fld (w 4) 33 32 ∨ fld (w 4) 31 0 = 0) then some (4, 0)
      else none
    (Kernel s n d opQctl 0 → exec (.qctlCreate n) s = .next (
      match refused with
      | some p => s.refuse n d p.1 p.2
      | none =>
        if s.ringOk x x.ringHost x.ringBase (64 * 2 ^ x.logSize) = false then s.retireWith n stWindow 0 0xFFC0FFFF
        else if s.ringOk x x.recHost x.recBase 2048 = false then s.retireWith n stWindow 0 0xFFB0FFFF
        else ((s.setQueue q x).freshPage q).retireWith n stDone 1 0)) ∧
    (x.state = .idle ∧ x.head = 0 ∧ x.tail = 0 ∧ x.nextSeq = 0 ∧ x.retired = 0 ∧ x.inflight = 0 ∧
      x.recWritten = 0 ∧ x.recAck = 0 ∧ x.pending = false ∧ x.err = 0) ∧
    (Kernel s n d opQctl 2 → exec (.qctlRestart n) s = .next (
      if s.qstate q ≠ .stopped ∨ (s.queue q).err = 0x06 then s.refuse n d 0 16
      else if (w 1).toNat < (s.queue q).head.toNat ∨ (w 2).toNat < (w 1).toNat then s.refuse n d 1 0
      else if 2 ^ (s.queue q).logSize + (w 1).toNat < (w 2).toNat then s.refuse n d 2 0
      else (s.setQueue q { s.queue q with
        err := 0, head := w 1, tail := w 2, tailSeen := w 2, pending := false
        state := .active, reading := 0, fetched := [], partialAtTail := false }).retireWith n stDone 1 0)) ∧
    (Kernel s n d opQctl 1 → (s.qstate q = .free ∨ s.qstate q = .offline ∨ (q = d.queue ∧ s.qstate q ≠ .busy)) →
      exec (.qctlDestroy n) s = .next (s.refuse n d 0 16)) ∧
    (Kernel s n d opQctl 1 → s.qstate q ≠ .free → s.qstate q ≠ .offline → s.qstate q ≠ .busy → q ≠ d.queue →
      exec (.qctlDestroy n) s = .next ((s.setNode n (some { d with phase := .kernel })).destroyQueue q)) ∧
    (Kernel s n d opQctl 1 → s.qstate q = .busy →
      exec (.qctlDestroy n) s = .next (s.setNode n (some { d with phase := .kernel })))

/-- CTXCTL CREATE, TEARDOWN, SETWINDOWS and READACCT, and the end of their checker load: what its parts say, together.
-/
def Obligations.CtxctlActsOnItsContext : Prop :=
  CtxctlActsOnItsContextParts ∧ CheckersLoadedEndsTheCommand

/-- LOADROUTINE, TALLY, PARTCTL and FAULTCTL, with the installer's consent and without: what its parts say, together. -/
def Obligations.InstallersCommandsAct : Prop :=
  LoadroutineFillsTheSlot ∧ TallyWritesThenCompletes ∧ PartctlAndFaultctlRetireDone ∧ ConsentIsNeeded

/-- The collector's request of a context's teardown is performed once (R291): the context leaves LIVE with a new
generation, its queues stop with ERR 6, and the request is gone; every other context keeps its generation. For a context
that is not LIVE the request is dropped. That its steps are one step of the model, so that the context may be FREE or
DRAINING behind it already, is the model's choice (log 15). -/
def Obligations.TeardownStopsTheContext : Prop :=
  ∀ (c : Nat) (r : TearReq) (s : State), isCtx c → s.working = true →
    s.tears.find? (fun t => t.ctx == c) = some r →
    let t : State := { s with tears := s.tears.filter fun t => t.ctx != c }
    exec (.teardown c) s = .next (if (s.ctx c).state = .live then t.teardown c r.cause else t) ∧
    (s.Canonical → (s.ctx c).state = .live →
      let u := t.teardown c r.cause
      (u.ctx c).state ∈ [.teardown, .draining, .free] ∧ (u.ctx c).gen = (s.ctx c).gen + 1 ∧
      (∀ q, (s.queue q).ctx = c → (s.queue q).state ≠ .free → (s.queue q).state ≠ .busy →
        (u.queue q).state = .stopped ∧ (u.queue q).err = 0x06) ∧
      ∀ c', c' ≠ c → (u.ctx c').gen = (s.ctx c').gen)

/-- Acknowledgements end a teardown and a drain, and window violations end their run: what its parts say, together. -/
def Obligations.ContextsDrainToFree : Prop :=
  ContextsDrainToFreeParts ∧ WindowViolationEndsTheRun

/-- Runs and frames (R212-R215): the first queued run whose context is not paused starts at PC 0 in the first free
frame (the model's choice, log 110) with the CALL's arguments in g1 to g6 as far as ARGC goes, ARGC in g7 and every
other register 0; a frame that has cleared is free; a quantum that ends, after 20 µs of the 20.48 µs on the model's
grain (log 44), gives the core to another ready run of the same or a lower priority number, and otherwise leaves it
where it is for a whole new quantum (the model's choice, log 105), counted (R304). -/
def Obligations.RunsShareTheCore : Prop :=
  (∀ (k fr : Nat) (q : RunReq) (d : Node) (s : State), isCore k → s.coreOn k = true →
    (s.core k).runq.find? (fun r => match s.node r.call with
      | some d => !s.qPaused d.queue
      | none => false) = some q →
    Tbl.firstFree (s.core k).frames 0 8 = some fr → s.node q.call = some d →
    exec (.runStart k) s = .next ((((s.modCore k fun c =>
      { c with runq := c.runq.filter fun r => r.call != q.call }).setRun k fr
        (startRun q.call d s.stamp)).readyRun k fr).restartTimer q.call) ∧
    (startRun q.call d s.stamp).pc = 0 ∧ (startRun q.call d s.stamp).mem = [] ∧
    (startRun q.call d s.stamp).loops = [] ∧ (startRun q.call d s.stamp).handles = [] ∧
    (let argc := fld (aw d.lines 0) 18 16
     ∀ i, (startRun q.call d s.stamp).reg i =
       if 1 ≤ i ∧ i ≤ 6 ∧ i ≤ argc then aw d.lines i else if i = 7 then BitVec.ofNat 64 argc else 0)) ∧
  (∀ (k fr : Nat) (s : State), isCore k → isFrame fr → s.up = true → (s.core k).frame fr = .clearing →
    exec (.frameClearComplete k fr) s = .next (s.modCore k fun c => c.setFrame fr .free)) ∧
  ∀ (k fr : Nat) (r : Run) (s : State), isCore k → s.working = true → (s.core k).current = some fr →
    s.runAt k fr = some r → (s.core k).currentAt + 20 ≤ s.now → r.stall = none →
    exec (.quantumExpiry k) s = .next (
      match s.nextRun k (fun x => decide (x.st = .ready) && decide (x.prio ≤ r.prio) &&
        decide (x.call ≠ r.call)) with
      | none => (s.leaveCore k).makeCurrent k fr
      | some g => (((s.leaveCore k).setRun k fr { r with readyAt := s.stamp }).tickStamp).makeCurrent k g)

/-- Register and immediate operations of a control core, and register zero: what its parts say, together. -/
def Obligations.CoreOperationsWriteTheirResult : Prop :=
  RegisterOperations ∧ ImmediateOperations ∧ RegisterZeroIsZero

/-- Loads and stores of the frame (R212, R222): an access below 0x7E00 that is naturally aligned is performed, the
loads zero extended; any other traps with DMEM or MISALIGN and has no effect of its own (R239; that DMEM comes first
where both hold is the model's reading, log 43). -/
def Obligations.FrameAccesses : Prop :=
  ∀ (k fr rd ra : Nat) (imm : BitVec 16) (r : Run) (s : State), isReg rd → isReg ra →
    let a := (r.reg ra + imm.signExtend 64).toNat
    let run := fun maj => Executes s k fr r (encImm maj rd ra imm)
    let good := fun n => a < 0x7E00 ∧ a % n = 0
    let loaded := fun n => Host.Outcome.next (wrote s k fr r rd (BitVec.ofNat 64 (Memory.readNat r.mem a n)))
    let stored := fun n => Host.Outcome.next (s.setRun k fr
      { r with mem := Memory.writeNat r.mem a (r.reg rd).toNat n }.next)
    let traps := fun maj => Host.Outcome.next (s.trap k fr r
      { cause := if 0x7E00 ≤ a then 0x03 else 0x04, word := encImm maj rd ra imm })
    (run 0x08 → exec (.ld k rd ra imm) s = if good 8 then loaded 8 else traps 0x08) ∧
    (run 0x09 → exec (.lw k rd ra imm) s = if good 4 then loaded 4 else traps 0x09) ∧
    (run 0x0A → exec (.lb k rd ra imm) s = if good 1 then loaded 1 else traps 0x0A) ∧
    (run 0x0C → exec (.st k rd ra imm) s = if good 8 then stored 8 else traps 0x0C) ∧
    (run 0x0D → exec (.sw k rd ra imm) s = if good 4 then stored 4 else traps 0x0D) ∧
    (run 0x0E → exec (.sb k rd ra imm) s = if good 1 then stored 1 else traps 0x0E)

/-- A store of n bytes at an address (R16, R212): the bytes read back as the value, least significant first, every
other byte is unchanged, and the frame's bytes keep their canonical form. -/
def Obligations.StoredBytesReadBack : Prop :=
  ∀ (m : Memory) (a v n : Nat), m.wf = true →
    Memory.readNat (Memory.writeNat m a v n) a n = v % 256 ^ n ∧
    (∀ b, b < a ∨ a + n ≤ b → Memory.read (Memory.writeNat m a v n) b = Memory.read m b) ∧
    Memory.wf (Memory.writeNat m a v n) = true

/-- LOOP, branches and jumps (R222, R224-R226): LOOP with a count opens a loop on the instructions up to PC + 4 * OFF,
with count 0 it skips them, and it traps with LOOP on a fifth level, an empty body or a body that leaves the image; a
branch goes to PC + 4 * OFF if its comparison holds and on if not; J and JALR leave the loops whose body they leave,
and so does a JAL that does not return into the innermost body (that PC + 4 decides it is the model's reading, log
20). That a LOOP of count 0 goes on behind its body, also where that is the end of the body around it, is the model's
choice (log 89), and so is that a LOOP that ends the body around it starts its own loop beyond that (log 104). JAL and
JALR write PC + 4, JALR to RD, and a JALR to
an address that is not a multiple of 4 traps. -/
def Obligations.ControlTransfers : Prop :=
  ∀ (k fr : Nat) (r : Run) (s : State),
    let trap := fun (cause : Nat) w => Host.Outcome.next (s.trap k fr r { cause := cause, word := w })
    (∀ (ra rb : Nat) (off : BitVec 16), isReg ra → isReg rb →
      let a := r.reg ra
      let b := r.reg rb
      let run := fun maj => Executes s k fr r (encBrn maj ra rb off)
      let last := (BitVec.ofNat 64 r.pc + 4 * off.signExtend 64).toNat
      let count := if ra = 0 then r.lc else a
      let goes := fun (c : Prop) [Decidable c] =>
        Host.Outcome.next (s.setRun k fr (if c then r.jump last else r.next))
      (run 0x18 → exec (.loop k ra rb off) s =
        if 4 ≤ r.loops.length ∨ off.toInt < 1 ∨ s.slotLength r.slot ≤ last / 4 then
          trap 0x06 (encBrn 0x18 ra rb off)
        else .next (s.setRun k fr (if count = 0 then { r with pc := last + 4 } else { r with
          pc := r.pc + 4, loops := { first := r.pc + 4, last := last, left := count } :: r.loops }))) ∧
      (run 0x20 → exec (.beq k ra rb off) s = goes (a = b)) ∧
      (run 0x21 → exec (.bne k ra rb off) s = goes (a ≠ b)) ∧
      (run 0x22 → exec (.blt k ra rb off) s = goes (a.toInt < b.toInt)) ∧
      (run 0x23 → exec (.bge k ra rb off) s = goes (b.toInt ≤ a.toInt)) ∧
      (run 0x24 → exec (.bltu k ra rb off) s = goes (a.toNat < b.toNat)) ∧
      (run 0x25 → exec (.bgeu k ra rb off) s = goes (b.toNat ≤ a.toNat))) ∧
    (∀ off : BitVec 26,
      let target := (BitVec.ofNat 64 r.pc + 4 * off.signExtend 64).toNat
      (Executes s k fr r (encLng 0x28 off) →
        ((∃ (l : Loop) (ls : List Loop), r.loops = l :: ls ∧ l.first ≤ r.pc + 4 ∧ r.pc + 4 ≤ l.last) →
          exec (.jal k off) s = .next (s.setRun k fr
            { r.setReg 31 (BitVec.ofNat 64 (r.pc + 4)) with pc := target })) ∧
        ((∀ (l : Loop) (ls : List Loop), r.loops = l :: ls → r.pc + 4 < l.first ∨ l.last < r.pc + 4) →
          exec (.jal k off) s = .next (s.setRun k fr
            ((r.jump target).setReg 31 (BitVec.ofNat 64 (r.pc + 4)))))) ∧
      (Executes s k fr r (encLng 0x29 off) → exec (.j k off) s = .next (s.setRun k fr (r.jump target)))) ∧
    ∀ rd ra rb : Nat, areRegs rd ra rb → Executes s k fr r (encReg 0x2A rd ra rb 0) →
      exec (.jalr k rd ra rb) s =
        if (r.reg ra).toNat % 4 ≠ 0 then trap 0x04 (encReg 0x2A rd ra rb 0)
        else .next (s.setRun k fr
          ((r.jump (r.reg ra).toNat).setReg rd (BitVec.ofNat 64 (r.pc + 4))))

/-- A hardware loop runs its body as often as it counts (R225): after an instruction that does not transfer control, and
that is the last of the innermost loop's body, the back-edge is taken while more than one pass is left, and a loop whose
count reaches 0 is popped, so that the loop around it is looked at next; elsewhere the run goes on. A write of LC sets
the shadow and no loop, and the next LOOP that takes its count from the shadow takes that value. In iteration i of a
loop of count n, LC reads n - i. -/
def Obligations.LoopsCountDown : Prop :=
  (∀ (pc : Nat) (l : Loop) (ls : List Loop),
    (pc ≠ l.last → stepLoops pc (l :: ls) = (pc + 4, l :: ls)) ∧
    (pc = l.last → 1 < l.left.toNat → stepLoops pc (l :: ls) = (l.first, { l with left := l.left - 1 } :: ls)) ∧
    (pc = l.last → l.left.toNat ≤ 1 → stepLoops pc (l :: ls) = stepLoops pc ls) ∧ stepLoops pc [] = (pc + 4, []) ∧
    ∀ i : Nat, i < l.left.toNat → Nat.repeat (fun x => (stepLoops l.last x).2) i (l :: ls) =
      { l with left := l.left - BitVec.ofNat 64 i } :: ls) ∧
  ∀ (k fr : Nat) (r : Run) (s : State),
    (∀ rd ra rb : Nat, areRegs rd ra rb → Executes s k fr r (encReg 0x3F rd ra rb 5) →
      exec (.mts k rd ra rb) s = .next (s.setRun k fr { r.next with lc := r.reg ra })) ∧
    (∀ (l : Loop) (ls : List Loop), r.loops = l :: ls → s.special k r 0 = l.left) ∧
    (r.loops = [] → s.special k r 0 = r.lc) ∧
    ∀ (rb : Nat) (off : BitVec 16), isReg rb → Executes s k fr r (encBrn 0x18 0 rb off) → r.loops.length < 4 →
      1 ≤ off.toInt → r.lc ≠ 0 →
      let last := (BitVec.ofNat 64 r.pc + 4 * off.signExtend 64).toNat
      last / 4 < s.slotLength r.slot →
      exec (.loop k 0 rb off) s = .next (s.setRun k fr { r with
        pc := r.pc + 4, loops := { first := r.pc + 4, last := last, left := r.lc } :: r.loops })

/-- MFILL, MDRAIN, TLD and TST: what its parts say, together. -/
def Obligations.BlocksAndTablesMove : Prop :=
  BlockTransfersMoveLines ∧ TableAccesses

/-- Address streams carry entries, lines and credits: what its parts say, together. -/
def Obligations.StreamsCarryEntries : Prop :=
  StreamsCarryEntriesParts ∧ StreamLinesAndCredits

/-- Children (R231-R235): EMIT of a good image gives the child a free node slot and a free handle, which RD receives;
REEMIT issues a handle's descriptor again once its latest issue has retired, and blocks until then; a run that can
have no slot, handle or cache lines for it blocks. CWAIT and CPOLL read the retirement of the latest issue, CWAIT
blocking for it; DROP frees the handle, and with it the lines of an issue that has retired (log 84). A handle that is
not live, in RA, or in an RB that is not zero, traps with cause HANDLE (R231, R239), for EMIT before the image is
looked at (the model's choice, log 107), and a sheaf image, or a
descriptor that REEMIT would issue, that breaks a rule with EMIT, DMEM or MISALIGN (for REEMIT the model's reading,
log 43). -/
def Obligations.ChildrenOfACall : Prop :=
  ∀ (k fr rd ra rb : Nat) (r : Run) (d : Node) (s : State), areRegs rd ra rb → s.node r.call = some d →
    let w := encReg 0x12 rd ra rb
    let traps (cause fn : Nat) (detail : BitVec 32) :=
      Host.Outcome.next (s.trap k fr r { cause := cause, word := w fn, detail := detail })
    (∀ (pred : Option Handle) (ls : List Line), Executes s k fr r (w 0) → r.pred rb = some pred →
      r.imageAt (r.reg ra).toNat = (0, ls) →
      (s.childErrors r d.seq ls = none →
        (∀ h n : Nat, r.freeHandle = some h → s.mayIssue r ls.length = true →
          s.freeSlot (halfOfQueue r.queue) = some n → exec (.emit k rd ra rb) s = .next
            (s.issue k fr rd (s.acted r (w 0)) d n h ls (if hOp ls = opStart then (s.queue r.queue).config else [])
              pred)) ∧
        ((s.mayIssue r ls.length = false ∨ r.freeHandle = none ∨ s.freeSlot (halfOfQueue r.queue) = none) →
          exec (.emit k rd ra rb) s = .next (s.blockRun k fr r (.nodeSlot ls.length)))) ∧
      ∀ p : Nat, s.childErrors r d.seq ls = some p →
        exec (.emit k rd ra rb) s = traps 0x07 0 (formatDetail (p / 512) (p % 512))) ∧
    (∀ (pred : Option Handle), Executes s k fr r (w 0) → r.pred rb = some pred → (r.imageAt (r.reg ra).toNat).1 ≠ 0 →
      exec (.emit k rd ra rb) s = traps (r.imageAt (r.reg ra).toNat).1 0 0) ∧
    (r.reg rb ≠ 0 → r.handle (r.reg rb).toNat = none →
      (Executes s k fr r (w 0) → exec (.emit k rd ra rb) s = traps 0x08 0 0) ∧
      (Executes s k fr r (w 1) → exec (.reemit k rd ra rb) s = traps 0x08 1 0)) ∧
    (r.handle (r.reg ra).toNat = none →
      (Executes s k fr r (w 1) → exec (.reemit k rd ra rb) s = traps 0x08 1 0) ∧
      (Executes s k fr r (w 2) → exec (.cwait k rd ra rb) s = traps 0x08 2 0) ∧
      (Executes s k fr r (w 3) → exec (.drop k rd ra rb) s = traps 0x08 3 0) ∧
      (Executes s k fr r (w 4) → exec (.cpoll k rd ra rb) s = traps 0x08 4 0)) ∧
    ∀ h : Handle, r.handle (r.reg ra).toNat = some h →
      (∀ (pred : Option Handle) (n : Nat), Executes s k fr r (w 1) → r.pred rb = some pred → h.res.isSome = true →
        s.childErrors r d.seq h.lines = none → s.mayIssue r h.lines.length = true →
        s.freeSlot (halfOfQueue r.queue) = some n →
        exec (.reemit k rd ra rb) s =
          .next (s.issue k fr rd (s.acted r (w 1)) d n h.num h.lines h.cfg pred)) ∧
      (∀ pred : Option Handle, Executes s k fr r (w 1) → r.pred rb = some pred →
        (h.res = none → exec (.reemit k rd ra rb) s = .next (s.blockRun k fr r (.reissue h.num))) ∧
        (h.res.isSome = true → s.childErrors r d.seq h.lines = none →
          (s.mayIssue r h.lines.length = false ∨ s.freeSlot (halfOfQueue r.queue) = none) →
          exec (.reemit k rd ra rb) s = .next (s.blockRun k fr r (.nodeSlot h.lines.length))) ∧
        ∀ p : Nat, h.res.isSome = true → s.childErrors r d.seq h.lines = some p →
          exec (.reemit k rd ra rb) s = traps 0x07 1 (formatDetail (p / 512) (p % 512))) ∧
      (Executes s k fr r (w 2) → exec (.cwait k rd ra rb) s = .next (match h.res with
        | some res => wrote s k fr r rd (issueWord res)
        | none => s.blockRun k fr r.next (.cwait h.num rd))) ∧
      (Executes s k fr r (w 3) → exec (.drop k rd ra rb) s = .next ((s.setRun k fr
        { r with handles := r.handles.filter fun x => x.num != h.num }.next).letGo h)) ∧
      (Executes s k fr r (w 4) → exec (.cpoll k rd ra rb) s = .next (wrote s k fr r rd (match h.res with
        | some res => issueWord res
        | none => 0x8000000000000000)))

/-- The HIVE instructions act on objects of this chip of every kind, or end as their object says, and go out to other
chips: what its parts say, together. -/
def Obligations.HiveInstructions : Prop :=
  HiveInstructionsAct ∧ HiveInstructionsEnd ∧ HiveInstructionsOfOtherChips

/-- The SYS functions, a run that waits at SYNC, and the shipped routines: what its parts say, together. -/
def Obligations.SysFunctions : Prop :=
  SysFunctionsParts ∧ PushesEndASync ∧ ShippedRoutinesKeepTheirContract

/-- Signal reports, hive messages and their answers: what its parts say, together. -/
def Obligations.ReportsAndMessagesAct : Prop :=
  SignalReportsReachTheObject ∧ HiveMessagesAct ∧ AnswersEndTheOperation

/-- Notices of other chips (R376-R382): PEERLOST and CHIP_FAULT enter their stale entry and take the peer's loss,
WITHDRAW enters a CONTEXT entry and removes that context's remote waiters and no others; an entry whose time has
passed leaves the table, and with it the cores of its partition's clusters and the link ports that hold it (R381). A
duplicate PEERLOST changes nothing (R380). -/
def Obligations.NoticesEnterTheStaleTable : Prop :=
  (∀ (m : Notice) (s : State),
    let p := portPart m.port
    let x := portSrc m.port
    let g := portGen m.port
    (NoticeArrives s m 0 → s.stale.any (fun e => e.part == p && e.chip == x && e.kind == .chip g) = false →
      exec (.peerlost m) s = .next ((s.replaceStale p x (.chip g) (s.dueArrived 4000)).losePeer p x g)) ∧
    (NoticeArrives s m 0 → s.stale.any (fun e => e.part == p && e.chip == x && e.kind == .chip g) = true →
      exec (.peerlost m) s = .next s) ∧
    (NoticeArrives s m 1 → exec (.chipFault m) s = .next ((s.replaceStale p x .failed 0).losePeer p x 0)) ∧
    (NoticeArrives s m 2 → s.stale.length < 512 → s.Canonical →
      let c : BitVec 10 := BitVec.ofNat 10 (fld m.n0 21 12)
      let gen : BitVec 12 := BitVec.ofNat 12 (fld m.n0 11 0)
      s.staleCtx p x g c gen = false →
      ∃ t : State, exec (.withdraw m) s = .next t ∧
        t.stale = s.stale ++ [{ part := p, chip := x, kind := .context g c gen, due := s.dueArrived 4000 }] ∧
        (∀ o, t.waitersOf o = (s.waitersOf o).filter fun w =>
          !((match w.owner with
            | .remote p' _ => p' == p
            | _ => false) && w.chip == x && w.chipgen == g && w.ctx == c.toNat && w.gen == gen)) ∧
        t.objects = s.objects ∧ t.queues = s.queues ∧ t.nodes = s.nodes)) ∧
  ∀ (i : Nat) (e : Stale) (s : State), i < 512 → s.working = true → s.stale[i]? = some e → e.isFailed = false →
    e.due ≤ s.now → exec (.staleEntryExpiry i) s = .next ({ s with stale := s.stale.erase e }.drive
      (.staleRemove e (s.coresOf (s.part e.part).clusters) (List.range s.linkPorts)))

/-- The step fence counts, falls and opens again: what its parts say, together. -/
def Obligations.StepFenceFalls : Prop :=
  FenceNoticesAct ∧ AFallOpensTheNextFence ∧ StepsyncFiresTheFence

/-- Coherence requests reach their home, errors in the entry they look up are severe, and evictions give lines back:
what its parts say, together. -/
def Obligations.CoherenceRequests : Prop :=
  RequestsReachTheHome ∧ LookupErrorsAreSevere ∧ EvictionsGiveTheLineBack

/-- Coherence grants, probes and home transactions: what its parts say, together. -/
def Obligations.CoherenceAnswers : Prop :=
  GrantsReachTheAgent ∧ ProbesAreAnswered ∧ HomesWriteAndWatch

/-- What the scrubber reads (R39-R42): a sound word changes nothing, a corrected error is a NOTE of the word's source,
and an uncorrectable one has the word's effect. The address of the word is a free value (log 17). -/
def Obligations.ScrubReportsErrors : Prop :=
  ∀ (w : Storage) (pos syn : BitVec 8) (s : State), s.working = true → s.allocated w = true →
    exec (.patrolScrub w none) s = .next s ∧
    exec (.patrolScrub w (some { unc := false, pos := pos, syn := syn })) s = .next (s.useFree.raise
      { source := storageSource w, kind := kCorrected, cls := .note, address := s.freeNow
        info0 := word [(8, pos.toNat), (0, syn.toNat)], cause := 0xE2 }) ∧
    exec (.patrolScrub w (some { unc := true, pos := pos, syn := syn })) s =
      .next (s.useFree.uncorrectable w (word [(8, pos.toNat), (0, syn.toNat)]) s.freeNow)

/-- A source's pair that reads invalid is BROKEN_WIRE of that source (R329): GRAVE for the arbiter, the audit store
and the collector itself, SEVERE otherwise (R331). From then on the pair is masked and no other event of the source
has an effect, until a compute reset tests the pair. -/
def Obligations.BrokenWireMasksThePair : Prop :=
  (∀ (p : Nat) (ones : Bool) (s : State), sourceListed p = true → s.power ≠ .off → (s.source p).masked = false →
    exec (.brokenWire p ones) s = .next ((s.setSource p { s.source p with masked := true }).raise
      { source := p, kind := kBrokenWire
        cls := if p = srcAudit ∨ p = srcArbiter ∨ p = srcCollector then .grave else .severe
        info0 := if ones = true then 3 else 0, injected := (s.source p).forced })) ∧
  ∀ (e : Event) (s : State), (s.source e.source).masked = true →
    (e.kind ≠ kBrokenWire → s.raise e = s) ∧
    ∀ ones : Bool, sourceListed e.source = true → exec (.brokenWire e.source ones) s = .next s

/-- An event asks for the action of its class and leaves work alone: what its parts say, together. -/
def Obligations.EventsAskForTheirAction : Prop :=
  ClassesAct ∧ EventsLeaveWorkAlone

/-- The charge check, the wait-for graph and the heartbeat: what its parts say, together. -/
def Obligations.MonitorsOfHangAndCharge : Prop :=
  ChargeFollowsTheArbiter ∧ HangScansConfirmTwice ∧ ThirdMissIsAHeartbeatFault

/-- A compute reset clears the work, keeps the records, decides by its tests, and ends in time: what its parts say,
together. -/
def Obligations.ComputeResetClears : Prop :=
  ResetsClearTheWork ∧ ResetsKeepTheRecords ∧ ResetTestsDecide ∧ ResetsEndInTime

/-- PL_INJECT and the fuses (R347, R428): outside factory test mode neither FIRE nor WIRE nor a fuse write has an
effect, and a read through PLACCESS captures zero; in it the fields are written and audited with the maker's role,
FIRE raises one injected event, and a fuse write sets bits of its word and clears none. That an injected CHARGE record
closes at once is the model's choice (log 48), that WIRE alone forces a pair without an event its reading (log 49),
and so is that the maker may write during a compute reset (log 53). -/
def Obligations.FactoryTestModeGates : Prop :=
  ∀ (v : Word) (a : Nat) (s : State), a < 131072 →
    (s.fuses.factory = false → exec (.injectFire v) s = .next s ∧ exec (.injectWire v) s = .next s ∧
      exec (.placcessUpdate a v) s = .next s ∧
      (s.power ≠ .off → exec (.placcessRead a) s = .next { s with fuses := { s.fuses with capture := 0 } })) ∧
    (s.power ≠ .off → s.fuses.factory = true → s.recov.safe = false →
      (∀ written : State, written = ({ s with
          faults := { s.faults with inject := v &&& injectMask } }.forceWire s.faults.inject
            (v &&& injectMask)).auditRec 0 false 0 0 s.faults.inject (v &&& injectMask) →
        let fired := Host.Outcome.next (if bit v 0 = true ∧ sourceListed (fld v 63 48) = true then
          (written.raise (written.injectEvent v)).closeRecords fun o => o.charge else written)
        exec (.injectFire v) s = fired ∧ exec (.injectWire v) s = fired) ∧
      (0x100 ≤ a → a ≤ 0x1FF → ∃ t : State, exec (.placcessUpdate a v) s = .next t ∧
        t.audit.count = s.audit.count + 1 ∧
        (Tbl.wf (0 : Word) s.fuses.words = true → Tbl.get 0 t.fuses.words a = Tbl.get 0 s.fuses.words a ||| v ∧
          ∀ b, b ≠ a → Tbl.get 0 t.fuses.words b = Tbl.get 0 s.fuses.words b)) ∧
      exec (.placcessRead a) s = .next { s with fuses := { s.fuses with
        capture := if a = 0 then s.faults.inject else if 0x100 ≤ a ∧ a ≤ 0x1FF then Tbl.get 0 s.fuses.words a
          else 0 } })

/-- Privileged writes, the bootstrap queue, BREAK_RESUME, latched reads and register reads: what its parts say,
together. -/
def Obligations.HostAccessesAreServed : Prop :=
  PrivilegedWritesAreServed ∧ BootstrapAndResume ∧ LatchedReadsKeepTheirWords ∧ RegistersAreRead

/-- What the registers' rules write, and what an ignored write leaves: what its parts say, together. -/
def Obligations.RegisterRulesWrite : Prop :=
  RegisterRulesWriteParts ∧ SpecialRegistersWrite

/-- Power (R28, R400, R420, R426, R447): POWER_UP starts the stability test with everything but the fuses at its reset
value and charge with the fused half; 64 good windows in a row start the trim loop and, unless a FLUSHREQ has begun it
before, the load of the lifetime image (R443, R445), a bad one starts the count again, and 10 ms without them stall
the power-up and assert PLFAULT; step 5 records the failure that the tests found, reports what they corrected (R358),
and lets Pliat act. Removal leaves the fuses. That the last good window starts ACQUIRE, that the 10 ms count on the
local counter, and what removal takes are the model's reading (log 54); the address and syndrome of a corrected error
are free values (log 17). -/
def Obligations.PowerUpSequence : Prop :=
  (∀ (factory : Bool) (s : State), s.power = .off → s.fuses.blown = false →
    ∃ t : State, exec (.powerUp factory) s = .next t ∧ t.power = .stability 0 ∧ t.fuses.factory = factory ∧
      t.fuses.words = s.fuses.words ∧ t.charge.holder = s.fuses.prefer ∧ t.queues = [] ∧ t.nodes = [] ∧
      t.ctxs = [] ∧ t.pending = s.pending ∧ t.out = s.out ∧ t.trim = State.reset.trim ∧ t.clocks.stableDue = 10000) ∧
  (∀ (count good : Nat) (s : State), s.power = .stability good →
    ((count < 1568 ∨ 1632 < count) → exec (.stabilityWindow count) s = .next { s with power := .stability 0 }) ∧
    (1568 ≤ count → count ≤ 1632 → good < 63 →
      exec (.stabilityWindow count) s = .next { s with power := .stability (good + 1) }) ∧
    (1568 ≤ count → count ≤ 1632 → 63 ≤ good → ∃ t : State, exec (.stabilityWindow count) s = .next t ∧
      t.power = .init ∧ t.trim = { s.trim with state := .acquire, lockedXing := false } ∧ t.queues = s.queues ∧
      (s.life.loaded = false → s.life.sideband = .idle → t.life.sideband = .header 0) ∧
      ((s.life.loaded = true ∨ s.life.sideband ≠ .idle) → t.life = s.life)) ∧
    exec .stabilityTimeout s = .next (
      if s.clocks.stableDue ≤ s.now then { s with power := .stalled, plfault := true } else s)) ∧
  (∀ (failing : Option Nat) (ps : List Nat) (s : State), s.power = .init → (∀ p ∈ failing, sourceListed p = true) →
    (∀ p ∈ ps, sourceListed p = true) → s.heldCmds = [] →
    let started : State := { s with
      power := .run
      clocks := { s.clocks with pendfail := failing.isSome, failing := failing.getD 0 }
      plaliveOn := !s.recov.safe, aliveDue := s.now + 50
      recov := { s.recov with scanDue := s.now + 20 } }
    (ps = [] → exec (.powerUpComplete ⟨failing, ps⟩) s = .next started) ∧
    (∀ p, ps = [p] → exec (.powerUpComplete ⟨failing, ps⟩) s = .next (started.useFree.useFree.raise
      { source := p, kind := kCorrected, cls := .note, address := s.useFree.freeNow, cause := 0xE2
        info0 := word [(8, 0xFF), (0, s.freeNow.toNat % 256)] }))) ∧
  ∀ s : State, exec .powerRemoval s = .next { State.reset with
    pending := s.pending, out := s.out, free := s.free, stamp := s.stamp
    fuses := { s.fuses with factory := false, capture := 0 } }

/-- The trim loop and the link clock: what its parts say, together. -/
def Obligations.ClocksFollowTheirReference : Prop :=
  TrimLoopStates ∧ LinkClockFallsBack

/-- Idle states, lendable cores and the monitors: what its parts say, together. -/
def Obligations.IdleStatesAndMonitors : Prop :=
  IdleAndWake ∧ IdleCoresAreLent ∧ MonitorsReport

/-- The lifetime image is loaded and flushed over the sideband: what its parts say, together. -/
def Obligations.LifetimeImageTravels : Prop :=
  LifetimeImageTravelsParts ∧ TheHeaderIsFlushedLast

/-- PLALIVE and PLFAULT (R346): PLFAULT is deasserted at power-up; PLALIVE begins toggling at the end of the power-up
sequence, toggles every 50 µs of local time, and no step but one that enters the safe state or removes power stops it,
so that a compute reset does not; in the safe state PLALIVE holds and PLFAULT is asserted, whatever follows. -/
def Obligations.PlaliveStopsOnlyInTheSafeState : Prop :=
  let held : State → Prop := fun s => s.recov.safe = true → s.plaliveOn = false ∧ s.plfault = true
  (∀ (factory : Bool) (s : State), s.power = .off → ∃ t : State, exec (.powerUp factory) s = .next t ∧
    t.plfault = false ∧ t.plaliveOn = false) ∧
  (∀ (failing : Option Nat) (s : State), s.power = .init → (∀ p ∈ failing, sourceListed p = true) → s.heldCmds = [] →
    s.recov.safe = false → ∃ t : State, exec (.powerUpComplete ⟨failing, []⟩) s = .next t ∧ t.plaliveOn = true ∧
      t.aliveDue = s.now + 50 ∧ t.plfault = s.plfault) ∧
  (∀ s : State, s.power = .run → s.plaliveOn = true → s.aliveDue ≤ s.now →
    exec .plaliveToggle s = .next { s with plalive := !s.plalive, aliveDue := s.now + 50 }) ∧
  (∀ s t : State, s.power = .run → s.plaliveOn = true → step s = .next t →
    t.plaliveOn = true ∨ t.recov.safe = true ∨ t.power = .off) ∧
  held State.reset ∧ ∀ s t : State, held s → step s = .next t → held t

/-- Every step keeps the canonical form of the state's tables. -/
def Obligations.StepKeepsTablesCanonical : Prop :=
  ∀ s t : State, s.Canonical → step s = .next t → t.Canonical

/-- Every command completes, and a machine whose commands name units that exist runs for ever: what its parts say,
together. -/
def Obligations.CommandsComplete : Prop :=
  CommandsCompleteParts ∧ SoundMachinesRun

/-- Every step keeps what the trim state says of itself. -/
def Obligations.StepKeepsTrimSound : Prop := ∀ s t : State, TrimSound s → step s = .next t → TrimSound t

/-- The reset state is canonical, has no command waiting and has a sound trim state: what its parts say, together. -/
def Obligations.ResetIsSound : Prop :=
  ResetIsCanonical ∧ ResetIsTrimSound

/-- In the safe state (R345) no command but the removal of power changes a queue, a sheaf, an object, a context, a
core's frames or a partition. -/
def Obligations.SafeStateKeepsTheWork : Prop :=
  ∀ (c : Instr) (s t : State), s.power = .run → s.recov.safe = true → c ≠ .powerRemoval → exec c s = .next t →
    t.queues = s.queues ∧ t.nodes = s.nodes ∧ t.objects = s.objects ∧ t.ctxs = s.ctxs ∧ t.cores = s.cores ∧
    t.parts = s.parts ∧ t.recov.safe = true

/-- Without power, when clocks and recovery stand as they do before it is applied, no command but POWER_UP and the
removal has an effect (R398, R420, as the model reads them for an access before POWER_UP, log 54). -/
def Obligations.WithoutPowerNothingHappens : Prop :=
  ∀ (c : Instr) (s t : State), s.power = .off → s.clocks = State.reset.clocks → s.recov = State.reset.recov →
    (∀ b, c ≠ .powerUp b) → c ≠ .powerRemoval → exec c s = .next t → t = s
end

