-- ==== Sys2Proof/Laws/Tables.lean ====
section
/-! SUPPORT. The sparse tables of State: reading what was written, and that every table operation keeps the
canonical form (numbers strictly rising, no entry equal to the default). -/

namespace Sys2Proof.Machine

section Reading
variable {α : Type} {d : α}

theorem Tbl.get_of_wfFrom [DecidableEq α] {t : Tbl α} {lo k : Nat} (h : Tbl.wfFrom d lo t = true) (hk : k < lo) :
    Tbl.get d t k = d := by
  induction t generalizing lo with
  | nil => rfl
  | cons e t ih =>
    obtain ⟨j, x⟩ := e
    simp only [Tbl.wfFrom, Bool.and_eq_true, decide_eq_true_eq] at h
    have : j ≠ k := by omega
    simp only [Tbl.get, this, ↓reduceIte]
    exact ih h.2 (by omega)

@[simp] theorem Tbl.get_ins_same (t : Tbl α) (k : Nat) (x : α) : Tbl.get d (Tbl.ins t k x) k = x := by
  induction t with
  | nil => simp [Tbl.ins, Tbl.get]
  | cons e t ih =>
    obtain ⟨j, y⟩ := e
    by_cases h1 : j = k
    · simp [Tbl.ins, Tbl.get, h1]
    · by_cases h2 : k < j
      · simp [Tbl.ins, Tbl.get, h1, h2]
      · simp [Tbl.ins, Tbl.get, h1, h2, ih]

theorem Tbl.get_ins_other (t : Tbl α) {k i : Nat} (x : α) (h : i ≠ k) :
    Tbl.get d (Tbl.ins t k x) i = Tbl.get d t i := by
  induction t with
  | nil => simp [Tbl.ins, Tbl.get, Ne.symm h]
  | cons e t ih =>
    obtain ⟨j, y⟩ := e
    by_cases h1 : j = k
    · subst h1
      simp [Tbl.ins, Tbl.get, Ne.symm h]
    · by_cases h2 : k < j
      · simp [Tbl.ins, Tbl.get, h1, h2, Ne.symm h]
      · by_cases h3 : j = i
        · subst h3; simp [Tbl.ins, Tbl.get, h1, h2]
        · simp [Tbl.ins, Tbl.get, h1, h2, h3, ih]

theorem Tbl.get_del_other (t : Tbl α) {k i : Nat} (h : i ≠ k) :
    Tbl.get d (Tbl.del t k) i = Tbl.get d t i := by
  induction t with
  | nil => rfl
  | cons e t ih =>
    obtain ⟨j, y⟩ := e
    by_cases h1 : j = k
    · subst h1
      simp [Tbl.del, Tbl.get, Ne.symm h]
    · by_cases h3 : j = i
      · subst h3; simp [Tbl.del, Tbl.get, h1]
      · simp [Tbl.del, Tbl.get, h1, h3, ih]

variable [DecidableEq α]

theorem Tbl.get_del_same {t : Tbl α} {lo : Nat} (k : Nat) (h : Tbl.wfFrom d lo t = true) :
    Tbl.get d (Tbl.del t k) k = d := by
  induction t generalizing lo with
  | nil => rfl
  | cons e t ih =>
    obtain ⟨j, y⟩ := e
    simp only [Tbl.wfFrom, Bool.and_eq_true, decide_eq_true_eq] at h
    by_cases h1 : j = k
    · simp only [Tbl.del, h1, ↓reduceIte]
      exact Tbl.get_of_wfFrom h.2 (by omega)
    · simp only [Tbl.del, h1, ↓reduceIte, Tbl.get]
      exact ih h.2

/-- Writing an entry leaves every other one alone. -/
theorem Tbl.get_set_other (t : Tbl α) {k i : Nat} (x : α) (h : i ≠ k) :
    Tbl.get d (Tbl.set d t k x) i = Tbl.get d t i := by
  unfold Tbl.set
  split
  · exact Tbl.get_del_other t h
  · exact Tbl.get_ins_other t x h

/-- A table in canonical form reads back what was written. -/
theorem Tbl.get_set_same {t : Tbl α} (k : Nat) (x : α) (h : Tbl.wf d t = true) :
    Tbl.get d (Tbl.set d t k x) k = x := by
  unfold Tbl.set
  split
  · next hx => rw [hx]; exact Tbl.get_del_same k h
  · exact Tbl.get_ins_same t k x

end Reading

section Canonical
variable {α : Type} [DecidableEq α] {d : α}

theorem Tbl.wfFrom_mono {t : Tbl α} {lo lo' : Nat} (hl : lo' ≤ lo) (h : Tbl.wfFrom d lo t = true) :
    Tbl.wfFrom d lo' t = true := by
  cases t with
  | nil => rfl
  | cons e t =>
    simp only [Tbl.wfFrom, Bool.and_eq_true, decide_eq_true_eq] at h ⊢
    exact ⟨⟨by omega, h.1.2⟩, h.2⟩

theorem Tbl.wfFrom_del {t : Tbl α} {lo : Nat} (k : Nat) (h : Tbl.wfFrom d lo t = true) :
    Tbl.wfFrom d lo (Tbl.del t k) = true := by
  induction t generalizing lo with
  | nil => rfl
  | cons e t ih =>
    obtain ⟨j, y⟩ := e
    simp only [Tbl.wfFrom, Bool.and_eq_true, decide_eq_true_eq] at h
    unfold Tbl.del
    split
    · exact Tbl.wfFrom_mono (by omega) h.2
    · simp only [Tbl.wfFrom, Bool.and_eq_true, decide_eq_true_eq]
      exact ⟨h.1, ih h.2⟩

theorem Tbl.wfFrom_ins {t : Tbl α} {lo k : Nat} {x : α} (hk : lo ≤ k) (hx : x ≠ d)
    (h : Tbl.wfFrom d lo t = true) : Tbl.wfFrom d lo (Tbl.ins t k x) = true := by
  induction t generalizing lo with
  | nil => simp [Tbl.ins, Tbl.wfFrom, hk, hx]
  | cons e t ih =>
    obtain ⟨j, y⟩ := e
    simp only [Tbl.wfFrom, Bool.and_eq_true, decide_eq_true_eq] at h
    unfold Tbl.ins
    split
    · next hj => subst hj; simp [Tbl.wfFrom, hk, hx, h.2]
    · split
      · next hj hlt =>
        simp only [Tbl.wfFrom, Bool.and_eq_true, decide_eq_true_eq]
        exact ⟨⟨hk, hx⟩, ⟨by omega, h.1.2⟩, h.2⟩
      · next hj hlt =>
        simp only [Tbl.wfFrom, Bool.and_eq_true, decide_eq_true_eq]
        exact ⟨h.1, ih (by omega) h.2⟩

/-- Writing an entry keeps the canonical form. -/
theorem Tbl.wf_set {t : Tbl α} (k : Nat) (x : α) (h : Tbl.wf d t = true) : Tbl.wf d (Tbl.set d t k x) = true := by
  unfold Tbl.set
  split
  · exact Tbl.wfFrom_del k h
  · next hx => exact Tbl.wfFrom_ins (by omega) hx h

theorem Tbl.wfFrom_mapAll {t : Tbl α} {lo : Nat} (f : Nat → α → α) (h : Tbl.wfFrom d lo t = true) :
    Tbl.wfFrom d lo (Tbl.mapAll d f t) = true := by
  induction t generalizing lo with
  | nil => rfl
  | cons e t ih =>
    obtain ⟨j, y⟩ := e
    simp only [Tbl.wfFrom, Bool.and_eq_true, decide_eq_true_eq] at h
    have ht : Tbl.wfFrom d (j + 1) (Tbl.mapAll d f t) = true := ih h.2
    by_cases hy : f j y = d
    · have : Tbl.mapAll d f ((j, y) :: t) = Tbl.mapAll d f t := by simp [Tbl.mapAll, hy]
      rw [this]
      exact Tbl.wfFrom_mono (by omega) ht
    · have : Tbl.mapAll d f ((j, y) :: t) = (j, f j y) :: Tbl.mapAll d f t := by simp [Tbl.mapAll, hy]
      rw [this]
      simp only [Tbl.wfFrom, Bool.and_eq_true, decide_eq_true_eq]
      exact ⟨⟨h.1.1, hy⟩, ht⟩

/-- Changing every listed entry keeps the canonical form. -/
theorem Tbl.wf_mapAll {t : Tbl α} (f : Nat → α → α) (h : Tbl.wf d t = true) :
    Tbl.wf d (Tbl.mapAll d f t) = true := Tbl.wfFrom_mapAll f h

/-- The empty table is in canonical form. -/
@[simp] theorem Tbl.wf_nil : Tbl.wf d ([] : Tbl α) = true := rfl

end Canonical

end Sys2Proof.Machine
end

