-- ==== Sys2Proof/Laws/State.lean ====
section
/-! SUPPORT. One lemma for each field and each named update of State: what the update leaves alone, and what it
writes. Every update and every reading is named in Machine/Ops.lean, and no later proof unfolds one. -/

namespace Sys2Proof.Machine

variable (s : State)

/-! ### State.setQueue -/

@[simp] theorem State.setQueue_pending (q : Nat) (x : Queue) : (s.setQueue q x).pending = s.pending := (rfl)
@[simp] theorem State.setQueue_heldCmds (q : Nat) (x : Queue) : (s.setQueue q x).heldCmds = s.heldCmds := (rfl)
@[simp] theorem State.setQueue_heldFrom (q : Nat) (x : Queue) : (s.setQueue q x).heldFrom = s.heldFrom := (rfl)
@[simp] theorem State.setQueue_out (q : Nat) (x : Queue) : (s.setQueue q x).out = s.out := (rfl)
@[simp] theorem State.setQueue_free (q : Nat) (x : Queue) : (s.setQueue q x).free = s.free := (rfl)
@[simp] theorem State.setQueue_stamp (q : Nat) (x : Queue) : (s.setQueue q x).stamp = s.stamp := (rfl)
@[simp] theorem State.setQueue_power (q : Nat) (x : Queue) : (s.setQueue q x).power = s.power := (rfl)
@[simp] theorem State.setQueue_usec (q : Nat) (x : Queue) : (s.setQueue q x).usec = s.usec := (rfl)
@[simp] theorem State.setQueue_fuses (q : Nat) (x : Queue) : (s.setQueue q x).fuses = s.fuses := (rfl)
@[simp] theorem State.setQueue_trim (q : Nat) (x : Queue) : (s.setQueue q x).trim = s.trim := (rfl)
@[simp] theorem State.setQueue_clocks (q : Nat) (x : Queue) : (s.setQueue q x).clocks = s.clocks := (rfl)
@[simp] theorem State.setQueue_charge (q : Nat) (x : Queue) : (s.setQueue q x).charge = s.charge := (rfl)
@[simp] theorem State.setQueue_regs (q : Nat) (x : Queue) : (s.setQueue q x).regs = s.regs := (rfl)
@[simp] theorem State.setQueue_latches (q : Nat) (x : Queue) : (s.setQueue q x).latches = s.latches := (rfl)
@[simp] theorem State.setQueue_fetchLast (q : Nat) (x : Queue) : (s.setQueue q x).fetchLast = s.fetchLast := (rfl)
@[simp] theorem State.setQueue_fabric (q : Nat) (x : Queue) : (s.setQueue q x).fabric = s.fabric := (rfl)
@[simp] theorem State.setQueue_nodes (q : Nat) (x : Queue) : (s.setQueue q x).nodes = s.nodes := (rfl)
@[simp] theorem State.setQueue_furrows (q : Nat) (x : Queue) : (s.setQueue q x).furrows = s.furrows := (rfl)
@[simp] theorem State.setQueue_admits (q : Nat) (x : Queue) : (s.setQueue q x).admits = s.admits := (rfl)
@[simp] theorem State.setQueue_flying (q : Nat) (x : Queue) : (s.setQueue q x).flying = s.flying := (rfl)
@[simp] theorem State.setQueue_reports (q : Nat) (x : Queue) : (s.setQueue q x).reports = s.reports := (rfl)
@[simp] theorem State.setQueue_nextIssue (q : Nat) (x : Queue) : (s.setQueue q x).nextIssue = s.nextIssue := (rfl)
@[simp] theorem State.setQueue_slots (q : Nat) (x : Queue) : (s.setQueue q x).slots = s.slots := (rfl)
@[simp] theorem State.setQueue_oldSlots (q : Nat) (x : Queue) : (s.setQueue q x).oldSlots = s.oldSlots := (rfl)
@[simp] theorem State.setQueue_oldRetired (q : Nat) (x : Queue) : (s.setQueue q x).oldRetired = s.oldRetired := (rfl)
@[simp] theorem State.setQueue_stewardQ (q : Nat) (x : Queue) : (s.setQueue q x).stewardQ = s.stewardQ := (rfl)
@[simp] theorem State.setQueue_objects (q : Nat) (x : Queue) : (s.setQueue q x).objects = s.objects := (rfl)
@[simp] theorem State.setQueue_waiters (q : Nat) (x : Queue) : (s.setQueue q x).waiters = s.waiters := (rfl)
@[simp] theorem State.setQueue_remoteOps (q : Nat) (x : Queue) : (s.setQueue q x).remoteOps = s.remoteOps := (rfl)
@[simp] theorem State.setQueue_nextMsg (q : Nat) (x : Queue) : (s.setQueue q x).nextMsg = s.nextMsg := (rfl)
@[simp] theorem State.setQueue_hivestat (q : Nat) (x : Queue) : (s.setQueue q x).hivestat = s.hivestat := (rfl)
@[simp] theorem State.setQueue_debug (q : Nat) (x : Queue) : (s.setQueue q x).debug = s.debug := (rfl)
@[simp] theorem State.setQueue_lent (q : Nat) (x : Queue) : (s.setQueue q x).lent = s.lent := (rfl)
@[simp] theorem State.setQueue_ctxs (q : Nat) (x : Queue) : (s.setQueue q x).ctxs = s.ctxs := (rfl)
@[simp] theorem State.setQueue_parts (q : Nat) (x : Queue) : (s.setQueue q x).parts = s.parts := (rfl)
@[simp] theorem State.setQueue_tears (q : Nat) (x : Queue) : (s.setQueue q x).tears = s.tears := (rfl)
@[simp] theorem State.setQueue_cores (q : Nat) (x : Queue) : (s.setQueue q x).cores = s.cores := (rfl)
@[simp] theorem State.setQueue_phys (q : Nat) (x : Queue) : (s.setQueue q x).phys = s.phys := (rfl)
@[simp] theorem State.setQueue_routines (q : Nat) (x : Queue) : (s.setQueue q x).routines = s.routines := (rfl)
@[simp] theorem State.setQueue_agents (q : Nat) (x : Queue) : (s.setQueue q x).agents = s.agents := (rfl)
@[simp] theorem State.setQueue_dirs (q : Nat) (x : Queue) : (s.setQueue q x).dirs = s.dirs := (rfl)
@[simp] theorem State.setQueue_net (q : Nat) (x : Queue) : (s.setQueue q x).net = s.net := (rfl)
@[simp] theorem State.setQueue_intake (q : Nat) (x : Queue) : (s.setQueue q x).intake = s.intake := (rfl)
@[simp] theorem State.setQueue_lineWork (q : Nat) (x : Queue) : (s.setQueue q x).lineWork = s.lineWork := (rfl)
@[simp] theorem State.setQueue_reads (q : Nat) (x : Queue) : (s.setQueue q x).reads = s.reads := (rfl)
@[simp] theorem State.setQueue_faults (q : Nat) (x : Queue) : (s.setQueue q x).faults = s.faults := (rfl)
@[simp] theorem State.setQueue_recov (q : Nat) (x : Queue) : (s.setQueue q x).recov = s.recov := (rfl)
@[simp] theorem State.setQueue_groups (q : Nat) (x : Queue) : (s.setQueue q x).groups = s.groups := (rfl)
@[simp] theorem State.setQueue_stale (q : Nat) (x : Queue) : (s.setQueue q x).stale = s.stale := (rfl)
@[simp] theorem State.setQueue_fence (q : Nat) (x : Queue) : (s.setQueue q x).fence = s.fence := (rfl)
@[simp] theorem State.setQueue_audit (q : Nat) (x : Queue) : (s.setQueue q x).audit = s.audit := (rfl)
@[simp] theorem State.setQueue_trace (q : Nat) (x : Queue) : (s.setQueue q x).trace = s.trace := (rfl)
@[simp] theorem State.setQueue_breaks (q : Nat) (x : Queue) : (s.setQueue q x).breaks = s.breaks := (rfl)
@[simp] theorem State.setQueue_life (q : Nat) (x : Queue) : (s.setQueue q x).life = s.life := (rfl)
@[simp] theorem State.setQueue_plaliveOn (q : Nat) (x : Queue) : (s.setQueue q x).plaliveOn = s.plaliveOn := (rfl)
@[simp] theorem State.setQueue_plalive (q : Nat) (x : Queue) : (s.setQueue q x).plalive = s.plalive := (rfl)
@[simp] theorem State.setQueue_aliveDue (q : Nat) (x : Queue) : (s.setQueue q x).aliveDue = s.aliveDue := (rfl)
@[simp] theorem State.setQueue_plfault (q : Nat) (x : Queue) : (s.setQueue q x).plfault = s.plfault := (rfl)
@[simp] theorem State.setQueue_node (q : Nat) (x : Queue) (j : Nat) : (s.setQueue q x).node j = s.node j := (rfl)
@[simp] theorem State.setQueue_furrow (q : Nat) (x : Queue) (j : Nat) : (s.setQueue q x).furrow j = s.furrow j := (rfl)
@[simp] theorem State.setQueue_slot (q : Nat) (x : Queue) (j : Nat) : (s.setQueue q x).slot j = s.slot j := (rfl)
@[simp] theorem State.setQueue_obj (q : Nat) (x : Queue) (j : Nat) : (s.setQueue q x).obj j = s.obj j := (rfl)
@[simp] theorem State.setQueue_waitersOf (q : Nat) (x : Queue) (j : Nat) : (s.setQueue q x).waitersOf j = s.waitersOf j := (rfl)
@[simp] theorem State.setQueue_ctx (q : Nat) (x : Queue) (j : Nat) : (s.setQueue q x).ctx j = s.ctx j := (rfl)
@[simp] theorem State.setQueue_part (q : Nat) (x : Queue) (j : Nat) : (s.setQueue q x).part j = s.part j := (rfl)
@[simp] theorem State.setQueue_core (q : Nat) (x : Queue) (j : Nat) : (s.setQueue q x).core j = s.core j := (rfl)
@[simp] theorem State.setQueue_rslot (q : Nat) (x : Queue) (j : Nat) : (s.setQueue q x).rslot j = s.rslot j := (rfl)
@[simp] theorem State.setQueue_group (q : Nat) (x : Queue) (j : Nat) : (s.setQueue q x).group j = s.group j := (rfl)
@[simp] theorem State.setQueue_source (q : Nat) (x : Queue) (j : Nat) : (s.setQueue q x).source j = s.source j := (rfl)
@[simp] theorem State.setQueue_brk (q : Nat) (x : Queue) (j : Nat) : (s.setQueue q x).brk j = s.brk j := (rfl)
@[simp] theorem State.setQueue_now (q : Nat) (x : Queue) : (s.setQueue q x).now = s.now := (rfl)
@[simp] theorem State.setQueue_up (q : Nat) (x : Queue) : (s.setQueue q x).up = s.up := (rfl)
@[simp] theorem State.setQueue_working (q : Nat) (x : Queue) : (s.setQueue q x).working = s.working := (rfl)
@[simp] theorem State.setQueue_trimmed (q : Nat) (x : Queue) : (s.setQueue q x).trimmed = s.trimmed := (rfl)
@[simp] theorem State.setQueue_powered (q : Nat) (x : Queue) : (s.setQueue q x).powered = s.powered := (rfl)

/-! ### State.modQueue -/

@[simp] theorem State.modQueue_pending (q : Nat) (f : Queue → Queue) : (s.modQueue q f).pending = s.pending := (rfl)
@[simp] theorem State.modQueue_heldCmds (q : Nat) (f : Queue → Queue) : (s.modQueue q f).heldCmds = s.heldCmds := (rfl)
@[simp] theorem State.modQueue_heldFrom (q : Nat) (f : Queue → Queue) : (s.modQueue q f).heldFrom = s.heldFrom := (rfl)
@[simp] theorem State.modQueue_out (q : Nat) (f : Queue → Queue) : (s.modQueue q f).out = s.out := (rfl)
@[simp] theorem State.modQueue_free (q : Nat) (f : Queue → Queue) : (s.modQueue q f).free = s.free := (rfl)
@[simp] theorem State.modQueue_stamp (q : Nat) (f : Queue → Queue) : (s.modQueue q f).stamp = s.stamp := (rfl)
@[simp] theorem State.modQueue_power (q : Nat) (f : Queue → Queue) : (s.modQueue q f).power = s.power := (rfl)
@[simp] theorem State.modQueue_usec (q : Nat) (f : Queue → Queue) : (s.modQueue q f).usec = s.usec := (rfl)
@[simp] theorem State.modQueue_fuses (q : Nat) (f : Queue → Queue) : (s.modQueue q f).fuses = s.fuses := (rfl)
@[simp] theorem State.modQueue_trim (q : Nat) (f : Queue → Queue) : (s.modQueue q f).trim = s.trim := (rfl)
@[simp] theorem State.modQueue_clocks (q : Nat) (f : Queue → Queue) : (s.modQueue q f).clocks = s.clocks := (rfl)
@[simp] theorem State.modQueue_charge (q : Nat) (f : Queue → Queue) : (s.modQueue q f).charge = s.charge := (rfl)
@[simp] theorem State.modQueue_regs (q : Nat) (f : Queue → Queue) : (s.modQueue q f).regs = s.regs := (rfl)
@[simp] theorem State.modQueue_latches (q : Nat) (f : Queue → Queue) : (s.modQueue q f).latches = s.latches := (rfl)
@[simp] theorem State.modQueue_fetchLast (q : Nat) (f : Queue → Queue) : (s.modQueue q f).fetchLast = s.fetchLast := (rfl)
@[simp] theorem State.modQueue_fabric (q : Nat) (f : Queue → Queue) : (s.modQueue q f).fabric = s.fabric := (rfl)
@[simp] theorem State.modQueue_nodes (q : Nat) (f : Queue → Queue) : (s.modQueue q f).nodes = s.nodes := (rfl)
@[simp] theorem State.modQueue_furrows (q : Nat) (f : Queue → Queue) : (s.modQueue q f).furrows = s.furrows := (rfl)
@[simp] theorem State.modQueue_admits (q : Nat) (f : Queue → Queue) : (s.modQueue q f).admits = s.admits := (rfl)
@[simp] theorem State.modQueue_flying (q : Nat) (f : Queue → Queue) : (s.modQueue q f).flying = s.flying := (rfl)
@[simp] theorem State.modQueue_reports (q : Nat) (f : Queue → Queue) : (s.modQueue q f).reports = s.reports := (rfl)
@[simp] theorem State.modQueue_nextIssue (q : Nat) (f : Queue → Queue) : (s.modQueue q f).nextIssue = s.nextIssue := (rfl)
@[simp] theorem State.modQueue_slots (q : Nat) (f : Queue → Queue) : (s.modQueue q f).slots = s.slots := (rfl)
@[simp] theorem State.modQueue_oldSlots (q : Nat) (f : Queue → Queue) : (s.modQueue q f).oldSlots = s.oldSlots := (rfl)
@[simp] theorem State.modQueue_oldRetired (q : Nat) (f : Queue → Queue) : (s.modQueue q f).oldRetired = s.oldRetired := (rfl)
@[simp] theorem State.modQueue_stewardQ (q : Nat) (f : Queue → Queue) : (s.modQueue q f).stewardQ = s.stewardQ := (rfl)
@[simp] theorem State.modQueue_objects (q : Nat) (f : Queue → Queue) : (s.modQueue q f).objects = s.objects := (rfl)
@[simp] theorem State.modQueue_waiters (q : Nat) (f : Queue → Queue) : (s.modQueue q f).waiters = s.waiters := (rfl)
@[simp] theorem State.modQueue_remoteOps (q : Nat) (f : Queue → Queue) : (s.modQueue q f).remoteOps = s.remoteOps := (rfl)
@[simp] theorem State.modQueue_nextMsg (q : Nat) (f : Queue → Queue) : (s.modQueue q f).nextMsg = s.nextMsg := (rfl)
@[simp] theorem State.modQueue_hivestat (q : Nat) (f : Queue → Queue) : (s.modQueue q f).hivestat = s.hivestat := (rfl)
@[simp] theorem State.modQueue_debug (q : Nat) (f : Queue → Queue) : (s.modQueue q f).debug = s.debug := (rfl)
@[simp] theorem State.modQueue_lent (q : Nat) (f : Queue → Queue) : (s.modQueue q f).lent = s.lent := (rfl)
@[simp] theorem State.modQueue_ctxs (q : Nat) (f : Queue → Queue) : (s.modQueue q f).ctxs = s.ctxs := (rfl)
@[simp] theorem State.modQueue_parts (q : Nat) (f : Queue → Queue) : (s.modQueue q f).parts = s.parts := (rfl)
@[simp] theorem State.modQueue_tears (q : Nat) (f : Queue → Queue) : (s.modQueue q f).tears = s.tears := (rfl)
@[simp] theorem State.modQueue_cores (q : Nat) (f : Queue → Queue) : (s.modQueue q f).cores = s.cores := (rfl)
@[simp] theorem State.modQueue_phys (q : Nat) (f : Queue → Queue) : (s.modQueue q f).phys = s.phys := (rfl)
@[simp] theorem State.modQueue_routines (q : Nat) (f : Queue → Queue) : (s.modQueue q f).routines = s.routines := (rfl)
@[simp] theorem State.modQueue_agents (q : Nat) (f : Queue → Queue) : (s.modQueue q f).agents = s.agents := (rfl)
@[simp] theorem State.modQueue_dirs (q : Nat) (f : Queue → Queue) : (s.modQueue q f).dirs = s.dirs := (rfl)
@[simp] theorem State.modQueue_net (q : Nat) (f : Queue → Queue) : (s.modQueue q f).net = s.net := (rfl)
@[simp] theorem State.modQueue_intake (q : Nat) (f : Queue → Queue) : (s.modQueue q f).intake = s.intake := (rfl)
@[simp] theorem State.modQueue_lineWork (q : Nat) (f : Queue → Queue) : (s.modQueue q f).lineWork = s.lineWork := (rfl)
@[simp] theorem State.modQueue_reads (q : Nat) (f : Queue → Queue) : (s.modQueue q f).reads = s.reads := (rfl)
@[simp] theorem State.modQueue_faults (q : Nat) (f : Queue → Queue) : (s.modQueue q f).faults = s.faults := (rfl)
@[simp] theorem State.modQueue_recov (q : Nat) (f : Queue → Queue) : (s.modQueue q f).recov = s.recov := (rfl)
@[simp] theorem State.modQueue_groups (q : Nat) (f : Queue → Queue) : (s.modQueue q f).groups = s.groups := (rfl)
@[simp] theorem State.modQueue_stale (q : Nat) (f : Queue → Queue) : (s.modQueue q f).stale = s.stale := (rfl)
@[simp] theorem State.modQueue_fence (q : Nat) (f : Queue → Queue) : (s.modQueue q f).fence = s.fence := (rfl)
@[simp] theorem State.modQueue_audit (q : Nat) (f : Queue → Queue) : (s.modQueue q f).audit = s.audit := (rfl)
@[simp] theorem State.modQueue_trace (q : Nat) (f : Queue → Queue) : (s.modQueue q f).trace = s.trace := (rfl)
@[simp] theorem State.modQueue_breaks (q : Nat) (f : Queue → Queue) : (s.modQueue q f).breaks = s.breaks := (rfl)
@[simp] theorem State.modQueue_life (q : Nat) (f : Queue → Queue) : (s.modQueue q f).life = s.life := (rfl)
@[simp] theorem State.modQueue_plaliveOn (q : Nat) (f : Queue → Queue) : (s.modQueue q f).plaliveOn = s.plaliveOn := (rfl)
@[simp] theorem State.modQueue_plalive (q : Nat) (f : Queue → Queue) : (s.modQueue q f).plalive = s.plalive := (rfl)
@[simp] theorem State.modQueue_aliveDue (q : Nat) (f : Queue → Queue) : (s.modQueue q f).aliveDue = s.aliveDue := (rfl)
@[simp] theorem State.modQueue_plfault (q : Nat) (f : Queue → Queue) : (s.modQueue q f).plfault = s.plfault := (rfl)
@[simp] theorem State.modQueue_node (q : Nat) (f : Queue → Queue) (j : Nat) : (s.modQueue q f).node j = s.node j := (rfl)
@[simp] theorem State.modQueue_furrow (q : Nat) (f : Queue → Queue) (j : Nat) : (s.modQueue q f).furrow j = s.furrow j := (rfl)
@[simp] theorem State.modQueue_slot (q : Nat) (f : Queue → Queue) (j : Nat) : (s.modQueue q f).slot j = s.slot j := (rfl)
@[simp] theorem State.modQueue_obj (q : Nat) (f : Queue → Queue) (j : Nat) : (s.modQueue q f).obj j = s.obj j := (rfl)
@[simp] theorem State.modQueue_waitersOf (q : Nat) (f : Queue → Queue) (j : Nat) : (s.modQueue q f).waitersOf j = s.waitersOf j := (rfl)
@[simp] theorem State.modQueue_ctx (q : Nat) (f : Queue → Queue) (j : Nat) : (s.modQueue q f).ctx j = s.ctx j := (rfl)
@[simp] theorem State.modQueue_part (q : Nat) (f : Queue → Queue) (j : Nat) : (s.modQueue q f).part j = s.part j := (rfl)
@[simp] theorem State.modQueue_core (q : Nat) (f : Queue → Queue) (j : Nat) : (s.modQueue q f).core j = s.core j := (rfl)
@[simp] theorem State.modQueue_rslot (q : Nat) (f : Queue → Queue) (j : Nat) : (s.modQueue q f).rslot j = s.rslot j := (rfl)
@[simp] theorem State.modQueue_group (q : Nat) (f : Queue → Queue) (j : Nat) : (s.modQueue q f).group j = s.group j := (rfl)
@[simp] theorem State.modQueue_source (q : Nat) (f : Queue → Queue) (j : Nat) : (s.modQueue q f).source j = s.source j := (rfl)
@[simp] theorem State.modQueue_brk (q : Nat) (f : Queue → Queue) (j : Nat) : (s.modQueue q f).brk j = s.brk j := (rfl)
@[simp] theorem State.modQueue_now (q : Nat) (f : Queue → Queue) : (s.modQueue q f).now = s.now := (rfl)
@[simp] theorem State.modQueue_up (q : Nat) (f : Queue → Queue) : (s.modQueue q f).up = s.up := (rfl)
@[simp] theorem State.modQueue_working (q : Nat) (f : Queue → Queue) : (s.modQueue q f).working = s.working := (rfl)
@[simp] theorem State.modQueue_trimmed (q : Nat) (f : Queue → Queue) : (s.modQueue q f).trimmed = s.trimmed := (rfl)
@[simp] theorem State.modQueue_powered (q : Nat) (f : Queue → Queue) : (s.modQueue q f).powered = s.powered := (rfl)

/-! ### State.setNode -/

@[simp] theorem State.setNode_pending (n : Nat) (x : Option Node) : (s.setNode n x).pending = s.pending := (rfl)
@[simp] theorem State.setNode_heldCmds (n : Nat) (x : Option Node) : (s.setNode n x).heldCmds = s.heldCmds := (rfl)
@[simp] theorem State.setNode_heldFrom (n : Nat) (x : Option Node) : (s.setNode n x).heldFrom = s.heldFrom := (rfl)
@[simp] theorem State.setNode_out (n : Nat) (x : Option Node) : (s.setNode n x).out = s.out := (rfl)
@[simp] theorem State.setNode_free (n : Nat) (x : Option Node) : (s.setNode n x).free = s.free := (rfl)
@[simp] theorem State.setNode_stamp (n : Nat) (x : Option Node) : (s.setNode n x).stamp = s.stamp := (rfl)
@[simp] theorem State.setNode_power (n : Nat) (x : Option Node) : (s.setNode n x).power = s.power := (rfl)
@[simp] theorem State.setNode_usec (n : Nat) (x : Option Node) : (s.setNode n x).usec = s.usec := (rfl)
@[simp] theorem State.setNode_fuses (n : Nat) (x : Option Node) : (s.setNode n x).fuses = s.fuses := (rfl)
@[simp] theorem State.setNode_trim (n : Nat) (x : Option Node) : (s.setNode n x).trim = s.trim := (rfl)
@[simp] theorem State.setNode_clocks (n : Nat) (x : Option Node) : (s.setNode n x).clocks = s.clocks := (rfl)
@[simp] theorem State.setNode_charge (n : Nat) (x : Option Node) : (s.setNode n x).charge = s.charge := (rfl)
@[simp] theorem State.setNode_regs (n : Nat) (x : Option Node) : (s.setNode n x).regs = s.regs := (rfl)
@[simp] theorem State.setNode_latches (n : Nat) (x : Option Node) : (s.setNode n x).latches = s.latches := (rfl)
@[simp] theorem State.setNode_queues (n : Nat) (x : Option Node) : (s.setNode n x).queues = s.queues := (rfl)
@[simp] theorem State.setNode_fetchLast (n : Nat) (x : Option Node) : (s.setNode n x).fetchLast = s.fetchLast := (rfl)
@[simp] theorem State.setNode_fabric (n : Nat) (x : Option Node) : (s.setNode n x).fabric = s.fabric := (rfl)
@[simp] theorem State.setNode_furrows (n : Nat) (x : Option Node) : (s.setNode n x).furrows = s.furrows := (rfl)
@[simp] theorem State.setNode_admits (n : Nat) (x : Option Node) : (s.setNode n x).admits = s.admits := (rfl)
@[simp] theorem State.setNode_flying (n : Nat) (x : Option Node) : (s.setNode n x).flying = s.flying := (rfl)
@[simp] theorem State.setNode_reports (n : Nat) (x : Option Node) : (s.setNode n x).reports = s.reports := (rfl)
@[simp] theorem State.setNode_nextIssue (n : Nat) (x : Option Node) : (s.setNode n x).nextIssue = s.nextIssue := (rfl)
@[simp] theorem State.setNode_slots (n : Nat) (x : Option Node) : (s.setNode n x).slots = s.slots := (rfl)
@[simp] theorem State.setNode_oldSlots (n : Nat) (x : Option Node) : (s.setNode n x).oldSlots = s.oldSlots := (rfl)
@[simp] theorem State.setNode_oldRetired (n : Nat) (x : Option Node) : (s.setNode n x).oldRetired = s.oldRetired := (rfl)
@[simp] theorem State.setNode_stewardQ (n : Nat) (x : Option Node) : (s.setNode n x).stewardQ = s.stewardQ := (rfl)
@[simp] theorem State.setNode_objects (n : Nat) (x : Option Node) : (s.setNode n x).objects = s.objects := (rfl)
@[simp] theorem State.setNode_waiters (n : Nat) (x : Option Node) : (s.setNode n x).waiters = s.waiters := (rfl)
@[simp] theorem State.setNode_remoteOps (n : Nat) (x : Option Node) : (s.setNode n x).remoteOps = s.remoteOps := (rfl)
@[simp] theorem State.setNode_nextMsg (n : Nat) (x : Option Node) : (s.setNode n x).nextMsg = s.nextMsg := (rfl)
@[simp] theorem State.setNode_hivestat (n : Nat) (x : Option Node) : (s.setNode n x).hivestat = s.hivestat := (rfl)
@[simp] theorem State.setNode_debug (n : Nat) (x : Option Node) : (s.setNode n x).debug = s.debug := (rfl)
@[simp] theorem State.setNode_lent (n : Nat) (x : Option Node) : (s.setNode n x).lent = s.lent := (rfl)
@[simp] theorem State.setNode_ctxs (n : Nat) (x : Option Node) : (s.setNode n x).ctxs = s.ctxs := (rfl)
@[simp] theorem State.setNode_parts (n : Nat) (x : Option Node) : (s.setNode n x).parts = s.parts := (rfl)
@[simp] theorem State.setNode_tears (n : Nat) (x : Option Node) : (s.setNode n x).tears = s.tears := (rfl)
@[simp] theorem State.setNode_cores (n : Nat) (x : Option Node) : (s.setNode n x).cores = s.cores := (rfl)
@[simp] theorem State.setNode_phys (n : Nat) (x : Option Node) : (s.setNode n x).phys = s.phys := (rfl)
@[simp] theorem State.setNode_routines (n : Nat) (x : Option Node) : (s.setNode n x).routines = s.routines := (rfl)
@[simp] theorem State.setNode_agents (n : Nat) (x : Option Node) : (s.setNode n x).agents = s.agents := (rfl)
@[simp] theorem State.setNode_dirs (n : Nat) (x : Option Node) : (s.setNode n x).dirs = s.dirs := (rfl)
@[simp] theorem State.setNode_net (n : Nat) (x : Option Node) : (s.setNode n x).net = s.net := (rfl)
@[simp] theorem State.setNode_intake (n : Nat) (x : Option Node) : (s.setNode n x).intake = s.intake := (rfl)
@[simp] theorem State.setNode_lineWork (n : Nat) (x : Option Node) : (s.setNode n x).lineWork = s.lineWork := (rfl)
@[simp] theorem State.setNode_reads (n : Nat) (x : Option Node) : (s.setNode n x).reads = s.reads := (rfl)
@[simp] theorem State.setNode_faults (n : Nat) (x : Option Node) : (s.setNode n x).faults = s.faults := (rfl)
@[simp] theorem State.setNode_recov (n : Nat) (x : Option Node) : (s.setNode n x).recov = s.recov := (rfl)
@[simp] theorem State.setNode_groups (n : Nat) (x : Option Node) : (s.setNode n x).groups = s.groups := (rfl)
@[simp] theorem State.setNode_stale (n : Nat) (x : Option Node) : (s.setNode n x).stale = s.stale := (rfl)
@[simp] theorem State.setNode_fence (n : Nat) (x : Option Node) : (s.setNode n x).fence = s.fence := (rfl)
@[simp] theorem State.setNode_audit (n : Nat) (x : Option Node) : (s.setNode n x).audit = s.audit := (rfl)
@[simp] theorem State.setNode_trace (n : Nat) (x : Option Node) : (s.setNode n x).trace = s.trace := (rfl)
@[simp] theorem State.setNode_breaks (n : Nat) (x : Option Node) : (s.setNode n x).breaks = s.breaks := (rfl)
@[simp] theorem State.setNode_life (n : Nat) (x : Option Node) : (s.setNode n x).life = s.life := (rfl)
@[simp] theorem State.setNode_plaliveOn (n : Nat) (x : Option Node) : (s.setNode n x).plaliveOn = s.plaliveOn := (rfl)
@[simp] theorem State.setNode_plalive (n : Nat) (x : Option Node) : (s.setNode n x).plalive = s.plalive := (rfl)
@[simp] theorem State.setNode_aliveDue (n : Nat) (x : Option Node) : (s.setNode n x).aliveDue = s.aliveDue := (rfl)
@[simp] theorem State.setNode_plfault (n : Nat) (x : Option Node) : (s.setNode n x).plfault = s.plfault := (rfl)
@[simp] theorem State.setNode_queue (n : Nat) (x : Option Node) (j : Nat) : (s.setNode n x).queue j = s.queue j := (rfl)
@[simp] theorem State.setNode_furrow (n : Nat) (x : Option Node) (j : Nat) : (s.setNode n x).furrow j = s.furrow j := (rfl)
@[simp] theorem State.setNode_slot (n : Nat) (x : Option Node) (j : Nat) : (s.setNode n x).slot j = s.slot j := (rfl)
@[simp] theorem State.setNode_obj (n : Nat) (x : Option Node) (j : Nat) : (s.setNode n x).obj j = s.obj j := (rfl)
@[simp] theorem State.setNode_waitersOf (n : Nat) (x : Option Node) (j : Nat) : (s.setNode n x).waitersOf j = s.waitersOf j := (rfl)
@[simp] theorem State.setNode_ctx (n : Nat) (x : Option Node) (j : Nat) : (s.setNode n x).ctx j = s.ctx j := (rfl)
@[simp] theorem State.setNode_part (n : Nat) (x : Option Node) (j : Nat) : (s.setNode n x).part j = s.part j := (rfl)
@[simp] theorem State.setNode_core (n : Nat) (x : Option Node) (j : Nat) : (s.setNode n x).core j = s.core j := (rfl)
@[simp] theorem State.setNode_rslot (n : Nat) (x : Option Node) (j : Nat) : (s.setNode n x).rslot j = s.rslot j := (rfl)
@[simp] theorem State.setNode_group (n : Nat) (x : Option Node) (j : Nat) : (s.setNode n x).group j = s.group j := (rfl)
@[simp] theorem State.setNode_source (n : Nat) (x : Option Node) (j : Nat) : (s.setNode n x).source j = s.source j := (rfl)
@[simp] theorem State.setNode_brk (n : Nat) (x : Option Node) (j : Nat) : (s.setNode n x).brk j = s.brk j := (rfl)
@[simp] theorem State.setNode_now (n : Nat) (x : Option Node) : (s.setNode n x).now = s.now := (rfl)
@[simp] theorem State.setNode_up (n : Nat) (x : Option Node) : (s.setNode n x).up = s.up := (rfl)
@[simp] theorem State.setNode_working (n : Nat) (x : Option Node) : (s.setNode n x).working = s.working := (rfl)
@[simp] theorem State.setNode_trimmed (n : Nat) (x : Option Node) : (s.setNode n x).trimmed = s.trimmed := (rfl)
@[simp] theorem State.setNode_powered (n : Nat) (x : Option Node) : (s.setNode n x).powered = s.powered := (rfl)

/-! ### State.modNode -/

@[simp] theorem State.modNode_pending (n : Nat) (f : Node → Node) : (s.modNode n f).pending = s.pending := (rfl)
@[simp] theorem State.modNode_heldCmds (n : Nat) (f : Node → Node) : (s.modNode n f).heldCmds = s.heldCmds := (rfl)
@[simp] theorem State.modNode_heldFrom (n : Nat) (f : Node → Node) : (s.modNode n f).heldFrom = s.heldFrom := (rfl)
@[simp] theorem State.modNode_out (n : Nat) (f : Node → Node) : (s.modNode n f).out = s.out := (rfl)
@[simp] theorem State.modNode_free (n : Nat) (f : Node → Node) : (s.modNode n f).free = s.free := (rfl)
@[simp] theorem State.modNode_stamp (n : Nat) (f : Node → Node) : (s.modNode n f).stamp = s.stamp := (rfl)
@[simp] theorem State.modNode_power (n : Nat) (f : Node → Node) : (s.modNode n f).power = s.power := (rfl)
@[simp] theorem State.modNode_usec (n : Nat) (f : Node → Node) : (s.modNode n f).usec = s.usec := (rfl)
@[simp] theorem State.modNode_fuses (n : Nat) (f : Node → Node) : (s.modNode n f).fuses = s.fuses := (rfl)
@[simp] theorem State.modNode_trim (n : Nat) (f : Node → Node) : (s.modNode n f).trim = s.trim := (rfl)
@[simp] theorem State.modNode_clocks (n : Nat) (f : Node → Node) : (s.modNode n f).clocks = s.clocks := (rfl)
@[simp] theorem State.modNode_charge (n : Nat) (f : Node → Node) : (s.modNode n f).charge = s.charge := (rfl)
@[simp] theorem State.modNode_regs (n : Nat) (f : Node → Node) : (s.modNode n f).regs = s.regs := (rfl)
@[simp] theorem State.modNode_latches (n : Nat) (f : Node → Node) : (s.modNode n f).latches = s.latches := (rfl)
@[simp] theorem State.modNode_queues (n : Nat) (f : Node → Node) : (s.modNode n f).queues = s.queues := (rfl)
@[simp] theorem State.modNode_fetchLast (n : Nat) (f : Node → Node) : (s.modNode n f).fetchLast = s.fetchLast := (rfl)
@[simp] theorem State.modNode_fabric (n : Nat) (f : Node → Node) : (s.modNode n f).fabric = s.fabric := (rfl)
@[simp] theorem State.modNode_furrows (n : Nat) (f : Node → Node) : (s.modNode n f).furrows = s.furrows := (rfl)
@[simp] theorem State.modNode_admits (n : Nat) (f : Node → Node) : (s.modNode n f).admits = s.admits := (rfl)
@[simp] theorem State.modNode_flying (n : Nat) (f : Node → Node) : (s.modNode n f).flying = s.flying := (rfl)
@[simp] theorem State.modNode_reports (n : Nat) (f : Node → Node) : (s.modNode n f).reports = s.reports := (rfl)
@[simp] theorem State.modNode_nextIssue (n : Nat) (f : Node → Node) : (s.modNode n f).nextIssue = s.nextIssue := (rfl)
@[simp] theorem State.modNode_slots (n : Nat) (f : Node → Node) : (s.modNode n f).slots = s.slots := (rfl)
@[simp] theorem State.modNode_oldSlots (n : Nat) (f : Node → Node) : (s.modNode n f).oldSlots = s.oldSlots := (rfl)
@[simp] theorem State.modNode_oldRetired (n : Nat) (f : Node → Node) : (s.modNode n f).oldRetired = s.oldRetired := (rfl)
@[simp] theorem State.modNode_stewardQ (n : Nat) (f : Node → Node) : (s.modNode n f).stewardQ = s.stewardQ := (rfl)
@[simp] theorem State.modNode_objects (n : Nat) (f : Node → Node) : (s.modNode n f).objects = s.objects := (rfl)
@[simp] theorem State.modNode_waiters (n : Nat) (f : Node → Node) : (s.modNode n f).waiters = s.waiters := (rfl)
@[simp] theorem State.modNode_remoteOps (n : Nat) (f : Node → Node) : (s.modNode n f).remoteOps = s.remoteOps := (rfl)
@[simp] theorem State.modNode_nextMsg (n : Nat) (f : Node → Node) : (s.modNode n f).nextMsg = s.nextMsg := (rfl)
@[simp] theorem State.modNode_hivestat (n : Nat) (f : Node → Node) : (s.modNode n f).hivestat = s.hivestat := (rfl)
@[simp] theorem State.modNode_debug (n : Nat) (f : Node → Node) : (s.modNode n f).debug = s.debug := (rfl)
@[simp] theorem State.modNode_lent (n : Nat) (f : Node → Node) : (s.modNode n f).lent = s.lent := (rfl)
@[simp] theorem State.modNode_ctxs (n : Nat) (f : Node → Node) : (s.modNode n f).ctxs = s.ctxs := (rfl)
@[simp] theorem State.modNode_parts (n : Nat) (f : Node → Node) : (s.modNode n f).parts = s.parts := (rfl)
@[simp] theorem State.modNode_tears (n : Nat) (f : Node → Node) : (s.modNode n f).tears = s.tears := (rfl)
@[simp] theorem State.modNode_cores (n : Nat) (f : Node → Node) : (s.modNode n f).cores = s.cores := (rfl)
@[simp] theorem State.modNode_phys (n : Nat) (f : Node → Node) : (s.modNode n f).phys = s.phys := (rfl)
@[simp] theorem State.modNode_routines (n : Nat) (f : Node → Node) : (s.modNode n f).routines = s.routines := (rfl)
@[simp] theorem State.modNode_agents (n : Nat) (f : Node → Node) : (s.modNode n f).agents = s.agents := (rfl)
@[simp] theorem State.modNode_dirs (n : Nat) (f : Node → Node) : (s.modNode n f).dirs = s.dirs := (rfl)
@[simp] theorem State.modNode_net (n : Nat) (f : Node → Node) : (s.modNode n f).net = s.net := (rfl)
@[simp] theorem State.modNode_intake (n : Nat) (f : Node → Node) : (s.modNode n f).intake = s.intake := (rfl)
@[simp] theorem State.modNode_lineWork (n : Nat) (f : Node → Node) : (s.modNode n f).lineWork = s.lineWork := (rfl)
@[simp] theorem State.modNode_reads (n : Nat) (f : Node → Node) : (s.modNode n f).reads = s.reads := (rfl)
@[simp] theorem State.modNode_faults (n : Nat) (f : Node → Node) : (s.modNode n f).faults = s.faults := (rfl)
@[simp] theorem State.modNode_recov (n : Nat) (f : Node → Node) : (s.modNode n f).recov = s.recov := (rfl)
@[simp] theorem State.modNode_groups (n : Nat) (f : Node → Node) : (s.modNode n f).groups = s.groups := (rfl)
@[simp] theorem State.modNode_stale (n : Nat) (f : Node → Node) : (s.modNode n f).stale = s.stale := (rfl)
@[simp] theorem State.modNode_fence (n : Nat) (f : Node → Node) : (s.modNode n f).fence = s.fence := (rfl)
@[simp] theorem State.modNode_audit (n : Nat) (f : Node → Node) : (s.modNode n f).audit = s.audit := (rfl)
@[simp] theorem State.modNode_trace (n : Nat) (f : Node → Node) : (s.modNode n f).trace = s.trace := (rfl)
@[simp] theorem State.modNode_breaks (n : Nat) (f : Node → Node) : (s.modNode n f).breaks = s.breaks := (rfl)
@[simp] theorem State.modNode_life (n : Nat) (f : Node → Node) : (s.modNode n f).life = s.life := (rfl)
@[simp] theorem State.modNode_plaliveOn (n : Nat) (f : Node → Node) : (s.modNode n f).plaliveOn = s.plaliveOn := (rfl)
@[simp] theorem State.modNode_plalive (n : Nat) (f : Node → Node) : (s.modNode n f).plalive = s.plalive := (rfl)
@[simp] theorem State.modNode_aliveDue (n : Nat) (f : Node → Node) : (s.modNode n f).aliveDue = s.aliveDue := (rfl)
@[simp] theorem State.modNode_plfault (n : Nat) (f : Node → Node) : (s.modNode n f).plfault = s.plfault := (rfl)
@[simp] theorem State.modNode_queue (n : Nat) (f : Node → Node) (j : Nat) : (s.modNode n f).queue j = s.queue j := (rfl)
@[simp] theorem State.modNode_furrow (n : Nat) (f : Node → Node) (j : Nat) : (s.modNode n f).furrow j = s.furrow j := (rfl)
@[simp] theorem State.modNode_slot (n : Nat) (f : Node → Node) (j : Nat) : (s.modNode n f).slot j = s.slot j := (rfl)
@[simp] theorem State.modNode_obj (n : Nat) (f : Node → Node) (j : Nat) : (s.modNode n f).obj j = s.obj j := (rfl)
@[simp] theorem State.modNode_waitersOf (n : Nat) (f : Node → Node) (j : Nat) : (s.modNode n f).waitersOf j = s.waitersOf j := (rfl)
@[simp] theorem State.modNode_ctx (n : Nat) (f : Node → Node) (j : Nat) : (s.modNode n f).ctx j = s.ctx j := (rfl)
@[simp] theorem State.modNode_part (n : Nat) (f : Node → Node) (j : Nat) : (s.modNode n f).part j = s.part j := (rfl)
@[simp] theorem State.modNode_core (n : Nat) (f : Node → Node) (j : Nat) : (s.modNode n f).core j = s.core j := (rfl)
@[simp] theorem State.modNode_rslot (n : Nat) (f : Node → Node) (j : Nat) : (s.modNode n f).rslot j = s.rslot j := (rfl)
@[simp] theorem State.modNode_group (n : Nat) (f : Node → Node) (j : Nat) : (s.modNode n f).group j = s.group j := (rfl)
@[simp] theorem State.modNode_source (n : Nat) (f : Node → Node) (j : Nat) : (s.modNode n f).source j = s.source j := (rfl)
@[simp] theorem State.modNode_brk (n : Nat) (f : Node → Node) (j : Nat) : (s.modNode n f).brk j = s.brk j := (rfl)
@[simp] theorem State.modNode_now (n : Nat) (f : Node → Node) : (s.modNode n f).now = s.now := (rfl)
@[simp] theorem State.modNode_up (n : Nat) (f : Node → Node) : (s.modNode n f).up = s.up := (rfl)
@[simp] theorem State.modNode_working (n : Nat) (f : Node → Node) : (s.modNode n f).working = s.working := (rfl)
@[simp] theorem State.modNode_trimmed (n : Nat) (f : Node → Node) : (s.modNode n f).trimmed = s.trimmed := (rfl)
@[simp] theorem State.modNode_powered (n : Nat) (f : Node → Node) : (s.modNode n f).powered = s.powered := (rfl)

/-! ### State.setFurrow -/

@[simp] theorem State.setFurrow_pending (i : Nat) (x : Furrow) : (s.setFurrow i x).pending = s.pending := (rfl)
@[simp] theorem State.setFurrow_heldCmds (i : Nat) (x : Furrow) : (s.setFurrow i x).heldCmds = s.heldCmds := (rfl)
@[simp] theorem State.setFurrow_heldFrom (i : Nat) (x : Furrow) : (s.setFurrow i x).heldFrom = s.heldFrom := (rfl)
@[simp] theorem State.setFurrow_out (i : Nat) (x : Furrow) : (s.setFurrow i x).out = s.out := (rfl)
@[simp] theorem State.setFurrow_free (i : Nat) (x : Furrow) : (s.setFurrow i x).free = s.free := (rfl)
@[simp] theorem State.setFurrow_stamp (i : Nat) (x : Furrow) : (s.setFurrow i x).stamp = s.stamp := (rfl)
@[simp] theorem State.setFurrow_power (i : Nat) (x : Furrow) : (s.setFurrow i x).power = s.power := (rfl)
@[simp] theorem State.setFurrow_usec (i : Nat) (x : Furrow) : (s.setFurrow i x).usec = s.usec := (rfl)
@[simp] theorem State.setFurrow_fuses (i : Nat) (x : Furrow) : (s.setFurrow i x).fuses = s.fuses := (rfl)
@[simp] theorem State.setFurrow_trim (i : Nat) (x : Furrow) : (s.setFurrow i x).trim = s.trim := (rfl)
@[simp] theorem State.setFurrow_clocks (i : Nat) (x : Furrow) : (s.setFurrow i x).clocks = s.clocks := (rfl)
@[simp] theorem State.setFurrow_charge (i : Nat) (x : Furrow) : (s.setFurrow i x).charge = s.charge := (rfl)
@[simp] theorem State.setFurrow_regs (i : Nat) (x : Furrow) : (s.setFurrow i x).regs = s.regs := (rfl)
@[simp] theorem State.setFurrow_latches (i : Nat) (x : Furrow) : (s.setFurrow i x).latches = s.latches := (rfl)
@[simp] theorem State.setFurrow_queues (i : Nat) (x : Furrow) : (s.setFurrow i x).queues = s.queues := (rfl)
@[simp] theorem State.setFurrow_fetchLast (i : Nat) (x : Furrow) : (s.setFurrow i x).fetchLast = s.fetchLast := (rfl)
@[simp] theorem State.setFurrow_fabric (i : Nat) (x : Furrow) : (s.setFurrow i x).fabric = s.fabric := (rfl)
@[simp] theorem State.setFurrow_nodes (i : Nat) (x : Furrow) : (s.setFurrow i x).nodes = s.nodes := (rfl)
@[simp] theorem State.setFurrow_admits (i : Nat) (x : Furrow) : (s.setFurrow i x).admits = s.admits := (rfl)
@[simp] theorem State.setFurrow_flying (i : Nat) (x : Furrow) : (s.setFurrow i x).flying = s.flying := (rfl)
@[simp] theorem State.setFurrow_reports (i : Nat) (x : Furrow) : (s.setFurrow i x).reports = s.reports := (rfl)
@[simp] theorem State.setFurrow_nextIssue (i : Nat) (x : Furrow) : (s.setFurrow i x).nextIssue = s.nextIssue := (rfl)
@[simp] theorem State.setFurrow_slots (i : Nat) (x : Furrow) : (s.setFurrow i x).slots = s.slots := (rfl)
@[simp] theorem State.setFurrow_oldSlots (i : Nat) (x : Furrow) : (s.setFurrow i x).oldSlots = s.oldSlots := (rfl)
@[simp] theorem State.setFurrow_oldRetired (i : Nat) (x : Furrow) : (s.setFurrow i x).oldRetired = s.oldRetired := (rfl)
@[simp] theorem State.setFurrow_stewardQ (i : Nat) (x : Furrow) : (s.setFurrow i x).stewardQ = s.stewardQ := (rfl)
@[simp] theorem State.setFurrow_objects (i : Nat) (x : Furrow) : (s.setFurrow i x).objects = s.objects := (rfl)
@[simp] theorem State.setFurrow_waiters (i : Nat) (x : Furrow) : (s.setFurrow i x).waiters = s.waiters := (rfl)
@[simp] theorem State.setFurrow_remoteOps (i : Nat) (x : Furrow) : (s.setFurrow i x).remoteOps = s.remoteOps := (rfl)
@[simp] theorem State.setFurrow_nextMsg (i : Nat) (x : Furrow) : (s.setFurrow i x).nextMsg = s.nextMsg := (rfl)
@[simp] theorem State.setFurrow_hivestat (i : Nat) (x : Furrow) : (s.setFurrow i x).hivestat = s.hivestat := (rfl)
@[simp] theorem State.setFurrow_debug (i : Nat) (x : Furrow) : (s.setFurrow i x).debug = s.debug := (rfl)
@[simp] theorem State.setFurrow_lent (i : Nat) (x : Furrow) : (s.setFurrow i x).lent = s.lent := (rfl)
@[simp] theorem State.setFurrow_ctxs (i : Nat) (x : Furrow) : (s.setFurrow i x).ctxs = s.ctxs := (rfl)
@[simp] theorem State.setFurrow_parts (i : Nat) (x : Furrow) : (s.setFurrow i x).parts = s.parts := (rfl)
@[simp] theorem State.setFurrow_tears (i : Nat) (x : Furrow) : (s.setFurrow i x).tears = s.tears := (rfl)
@[simp] theorem State.setFurrow_cores (i : Nat) (x : Furrow) : (s.setFurrow i x).cores = s.cores := (rfl)
@[simp] theorem State.setFurrow_phys (i : Nat) (x : Furrow) : (s.setFurrow i x).phys = s.phys := (rfl)
@[simp] theorem State.setFurrow_routines (i : Nat) (x : Furrow) : (s.setFurrow i x).routines = s.routines := (rfl)
@[simp] theorem State.setFurrow_agents (i : Nat) (x : Furrow) : (s.setFurrow i x).agents = s.agents := (rfl)
@[simp] theorem State.setFurrow_dirs (i : Nat) (x : Furrow) : (s.setFurrow i x).dirs = s.dirs := (rfl)
@[simp] theorem State.setFurrow_net (i : Nat) (x : Furrow) : (s.setFurrow i x).net = s.net := (rfl)
@[simp] theorem State.setFurrow_intake (i : Nat) (x : Furrow) : (s.setFurrow i x).intake = s.intake := (rfl)
@[simp] theorem State.setFurrow_lineWork (i : Nat) (x : Furrow) : (s.setFurrow i x).lineWork = s.lineWork := (rfl)
@[simp] theorem State.setFurrow_reads (i : Nat) (x : Furrow) : (s.setFurrow i x).reads = s.reads := (rfl)
@[simp] theorem State.setFurrow_faults (i : Nat) (x : Furrow) : (s.setFurrow i x).faults = s.faults := (rfl)
@[simp] theorem State.setFurrow_recov (i : Nat) (x : Furrow) : (s.setFurrow i x).recov = s.recov := (rfl)
@[simp] theorem State.setFurrow_groups (i : Nat) (x : Furrow) : (s.setFurrow i x).groups = s.groups := (rfl)
@[simp] theorem State.setFurrow_stale (i : Nat) (x : Furrow) : (s.setFurrow i x).stale = s.stale := (rfl)
@[simp] theorem State.setFurrow_fence (i : Nat) (x : Furrow) : (s.setFurrow i x).fence = s.fence := (rfl)
@[simp] theorem State.setFurrow_audit (i : Nat) (x : Furrow) : (s.setFurrow i x).audit = s.audit := (rfl)
@[simp] theorem State.setFurrow_trace (i : Nat) (x : Furrow) : (s.setFurrow i x).trace = s.trace := (rfl)
@[simp] theorem State.setFurrow_breaks (i : Nat) (x : Furrow) : (s.setFurrow i x).breaks = s.breaks := (rfl)
@[simp] theorem State.setFurrow_life (i : Nat) (x : Furrow) : (s.setFurrow i x).life = s.life := (rfl)
@[simp] theorem State.setFurrow_plaliveOn (i : Nat) (x : Furrow) : (s.setFurrow i x).plaliveOn = s.plaliveOn := (rfl)
@[simp] theorem State.setFurrow_plalive (i : Nat) (x : Furrow) : (s.setFurrow i x).plalive = s.plalive := (rfl)
@[simp] theorem State.setFurrow_aliveDue (i : Nat) (x : Furrow) : (s.setFurrow i x).aliveDue = s.aliveDue := (rfl)
@[simp] theorem State.setFurrow_plfault (i : Nat) (x : Furrow) : (s.setFurrow i x).plfault = s.plfault := (rfl)
@[simp] theorem State.setFurrow_queue (i : Nat) (x : Furrow) (j : Nat) : (s.setFurrow i x).queue j = s.queue j := (rfl)
@[simp] theorem State.setFurrow_node (i : Nat) (x : Furrow) (j : Nat) : (s.setFurrow i x).node j = s.node j := (rfl)
@[simp] theorem State.setFurrow_slot (i : Nat) (x : Furrow) (j : Nat) : (s.setFurrow i x).slot j = s.slot j := (rfl)
@[simp] theorem State.setFurrow_obj (i : Nat) (x : Furrow) (j : Nat) : (s.setFurrow i x).obj j = s.obj j := (rfl)
@[simp] theorem State.setFurrow_waitersOf (i : Nat) (x : Furrow) (j : Nat) : (s.setFurrow i x).waitersOf j = s.waitersOf j := (rfl)
@[simp] theorem State.setFurrow_ctx (i : Nat) (x : Furrow) (j : Nat) : (s.setFurrow i x).ctx j = s.ctx j := (rfl)
@[simp] theorem State.setFurrow_part (i : Nat) (x : Furrow) (j : Nat) : (s.setFurrow i x).part j = s.part j := (rfl)
@[simp] theorem State.setFurrow_core (i : Nat) (x : Furrow) (j : Nat) : (s.setFurrow i x).core j = s.core j := (rfl)
@[simp] theorem State.setFurrow_rslot (i : Nat) (x : Furrow) (j : Nat) : (s.setFurrow i x).rslot j = s.rslot j := (rfl)
@[simp] theorem State.setFurrow_group (i : Nat) (x : Furrow) (j : Nat) : (s.setFurrow i x).group j = s.group j := (rfl)
@[simp] theorem State.setFurrow_source (i : Nat) (x : Furrow) (j : Nat) : (s.setFurrow i x).source j = s.source j := (rfl)
@[simp] theorem State.setFurrow_brk (i : Nat) (x : Furrow) (j : Nat) : (s.setFurrow i x).brk j = s.brk j := (rfl)
@[simp] theorem State.setFurrow_now (i : Nat) (x : Furrow) : (s.setFurrow i x).now = s.now := (rfl)
@[simp] theorem State.setFurrow_up (i : Nat) (x : Furrow) : (s.setFurrow i x).up = s.up := (rfl)
@[simp] theorem State.setFurrow_working (i : Nat) (x : Furrow) : (s.setFurrow i x).working = s.working := (rfl)
@[simp] theorem State.setFurrow_trimmed (i : Nat) (x : Furrow) : (s.setFurrow i x).trimmed = s.trimmed := (rfl)
@[simp] theorem State.setFurrow_powered (i : Nat) (x : Furrow) : (s.setFurrow i x).powered = s.powered := (rfl)

/-! ### State.modFurrow -/

@[simp] theorem State.modFurrow_pending (i : Nat) (f : Furrow → Furrow) : (s.modFurrow i f).pending = s.pending := (rfl)
@[simp] theorem State.modFurrow_heldCmds (i : Nat) (f : Furrow → Furrow) : (s.modFurrow i f).heldCmds = s.heldCmds := (rfl)
@[simp] theorem State.modFurrow_heldFrom (i : Nat) (f : Furrow → Furrow) : (s.modFurrow i f).heldFrom = s.heldFrom := (rfl)
@[simp] theorem State.modFurrow_out (i : Nat) (f : Furrow → Furrow) : (s.modFurrow i f).out = s.out := (rfl)
@[simp] theorem State.modFurrow_free (i : Nat) (f : Furrow → Furrow) : (s.modFurrow i f).free = s.free := (rfl)
@[simp] theorem State.modFurrow_stamp (i : Nat) (f : Furrow → Furrow) : (s.modFurrow i f).stamp = s.stamp := (rfl)
@[simp] theorem State.modFurrow_power (i : Nat) (f : Furrow → Furrow) : (s.modFurrow i f).power = s.power := (rfl)
@[simp] theorem State.modFurrow_usec (i : Nat) (f : Furrow → Furrow) : (s.modFurrow i f).usec = s.usec := (rfl)
@[simp] theorem State.modFurrow_fuses (i : Nat) (f : Furrow → Furrow) : (s.modFurrow i f).fuses = s.fuses := (rfl)
@[simp] theorem State.modFurrow_trim (i : Nat) (f : Furrow → Furrow) : (s.modFurrow i f).trim = s.trim := (rfl)
@[simp] theorem State.modFurrow_clocks (i : Nat) (f : Furrow → Furrow) : (s.modFurrow i f).clocks = s.clocks := (rfl)
@[simp] theorem State.modFurrow_charge (i : Nat) (f : Furrow → Furrow) : (s.modFurrow i f).charge = s.charge := (rfl)
@[simp] theorem State.modFurrow_regs (i : Nat) (f : Furrow → Furrow) : (s.modFurrow i f).regs = s.regs := (rfl)
@[simp] theorem State.modFurrow_latches (i : Nat) (f : Furrow → Furrow) : (s.modFurrow i f).latches = s.latches := (rfl)
@[simp] theorem State.modFurrow_queues (i : Nat) (f : Furrow → Furrow) : (s.modFurrow i f).queues = s.queues := (rfl)
@[simp] theorem State.modFurrow_fetchLast (i : Nat) (f : Furrow → Furrow) : (s.modFurrow i f).fetchLast = s.fetchLast := (rfl)
@[simp] theorem State.modFurrow_fabric (i : Nat) (f : Furrow → Furrow) : (s.modFurrow i f).fabric = s.fabric := (rfl)
@[simp] theorem State.modFurrow_nodes (i : Nat) (f : Furrow → Furrow) : (s.modFurrow i f).nodes = s.nodes := (rfl)
@[simp] theorem State.modFurrow_admits (i : Nat) (f : Furrow → Furrow) : (s.modFurrow i f).admits = s.admits := (rfl)
@[simp] theorem State.modFurrow_flying (i : Nat) (f : Furrow → Furrow) : (s.modFurrow i f).flying = s.flying := (rfl)
@[simp] theorem State.modFurrow_reports (i : Nat) (f : Furrow → Furrow) : (s.modFurrow i f).reports = s.reports := (rfl)
@[simp] theorem State.modFurrow_nextIssue (i : Nat) (f : Furrow → Furrow) : (s.modFurrow i f).nextIssue = s.nextIssue := (rfl)
@[simp] theorem State.modFurrow_slots (i : Nat) (f : Furrow → Furrow) : (s.modFurrow i f).slots = s.slots := (rfl)
@[simp] theorem State.modFurrow_oldSlots (i : Nat) (f : Furrow → Furrow) : (s.modFurrow i f).oldSlots = s.oldSlots := (rfl)
@[simp] theorem State.modFurrow_oldRetired (i : Nat) (f : Furrow → Furrow) : (s.modFurrow i f).oldRetired = s.oldRetired := (rfl)
@[simp] theorem State.modFurrow_stewardQ (i : Nat) (f : Furrow → Furrow) : (s.modFurrow i f).stewardQ = s.stewardQ := (rfl)
@[simp] theorem State.modFurrow_objects (i : Nat) (f : Furrow → Furrow) : (s.modFurrow i f).objects = s.objects := (rfl)
@[simp] theorem State.modFurrow_waiters (i : Nat) (f : Furrow → Furrow) : (s.modFurrow i f).waiters = s.waiters := (rfl)
@[simp] theorem State.modFurrow_remoteOps (i : Nat) (f : Furrow → Furrow) : (s.modFurrow i f).remoteOps = s.remoteOps := (rfl)
@[simp] theorem State.modFurrow_nextMsg (i : Nat) (f : Furrow → Furrow) : (s.modFurrow i f).nextMsg = s.nextMsg := (rfl)
@[simp] theorem State.modFurrow_hivestat (i : Nat) (f : Furrow → Furrow) : (s.modFurrow i f).hivestat = s.hivestat := (rfl)
@[simp] theorem State.modFurrow_debug (i : Nat) (f : Furrow → Furrow) : (s.modFurrow i f).debug = s.debug := (rfl)
@[simp] theorem State.modFurrow_lent (i : Nat) (f : Furrow → Furrow) : (s.modFurrow i f).lent = s.lent := (rfl)
@[simp] theorem State.modFurrow_ctxs (i : Nat) (f : Furrow → Furrow) : (s.modFurrow i f).ctxs = s.ctxs := (rfl)
@[simp] theorem State.modFurrow_parts (i : Nat) (f : Furrow → Furrow) : (s.modFurrow i f).parts = s.parts := (rfl)
@[simp] theorem State.modFurrow_tears (i : Nat) (f : Furrow → Furrow) : (s.modFurrow i f).tears = s.tears := (rfl)
@[simp] theorem State.modFurrow_cores (i : Nat) (f : Furrow → Furrow) : (s.modFurrow i f).cores = s.cores := (rfl)
@[simp] theorem State.modFurrow_phys (i : Nat) (f : Furrow → Furrow) : (s.modFurrow i f).phys = s.phys := (rfl)
@[simp] theorem State.modFurrow_routines (i : Nat) (f : Furrow → Furrow) : (s.modFurrow i f).routines = s.routines := (rfl)
@[simp] theorem State.modFurrow_agents (i : Nat) (f : Furrow → Furrow) : (s.modFurrow i f).agents = s.agents := (rfl)
@[simp] theorem State.modFurrow_dirs (i : Nat) (f : Furrow → Furrow) : (s.modFurrow i f).dirs = s.dirs := (rfl)
@[simp] theorem State.modFurrow_net (i : Nat) (f : Furrow → Furrow) : (s.modFurrow i f).net = s.net := (rfl)
@[simp] theorem State.modFurrow_intake (i : Nat) (f : Furrow → Furrow) : (s.modFurrow i f).intake = s.intake := (rfl)
@[simp] theorem State.modFurrow_lineWork (i : Nat) (f : Furrow → Furrow) : (s.modFurrow i f).lineWork = s.lineWork := (rfl)
@[simp] theorem State.modFurrow_reads (i : Nat) (f : Furrow → Furrow) : (s.modFurrow i f).reads = s.reads := (rfl)
@[simp] theorem State.modFurrow_faults (i : Nat) (f : Furrow → Furrow) : (s.modFurrow i f).faults = s.faults := (rfl)
@[simp] theorem State.modFurrow_recov (i : Nat) (f : Furrow → Furrow) : (s.modFurrow i f).recov = s.recov := (rfl)
@[simp] theorem State.modFurrow_groups (i : Nat) (f : Furrow → Furrow) : (s.modFurrow i f).groups = s.groups := (rfl)
@[simp] theorem State.modFurrow_stale (i : Nat) (f : Furrow → Furrow) : (s.modFurrow i f).stale = s.stale := (rfl)
@[simp] theorem State.modFurrow_fence (i : Nat) (f : Furrow → Furrow) : (s.modFurrow i f).fence = s.fence := (rfl)
@[simp] theorem State.modFurrow_audit (i : Nat) (f : Furrow → Furrow) : (s.modFurrow i f).audit = s.audit := (rfl)
@[simp] theorem State.modFurrow_trace (i : Nat) (f : Furrow → Furrow) : (s.modFurrow i f).trace = s.trace := (rfl)
@[simp] theorem State.modFurrow_breaks (i : Nat) (f : Furrow → Furrow) : (s.modFurrow i f).breaks = s.breaks := (rfl)
@[simp] theorem State.modFurrow_life (i : Nat) (f : Furrow → Furrow) : (s.modFurrow i f).life = s.life := (rfl)
@[simp] theorem State.modFurrow_plaliveOn (i : Nat) (f : Furrow → Furrow) : (s.modFurrow i f).plaliveOn = s.plaliveOn := (rfl)
@[simp] theorem State.modFurrow_plalive (i : Nat) (f : Furrow → Furrow) : (s.modFurrow i f).plalive = s.plalive := (rfl)
@[simp] theorem State.modFurrow_aliveDue (i : Nat) (f : Furrow → Furrow) : (s.modFurrow i f).aliveDue = s.aliveDue := (rfl)
@[simp] theorem State.modFurrow_plfault (i : Nat) (f : Furrow → Furrow) : (s.modFurrow i f).plfault = s.plfault := (rfl)
@[simp] theorem State.modFurrow_queue (i : Nat) (f : Furrow → Furrow) (j : Nat) : (s.modFurrow i f).queue j = s.queue j := (rfl)
@[simp] theorem State.modFurrow_node (i : Nat) (f : Furrow → Furrow) (j : Nat) : (s.modFurrow i f).node j = s.node j := (rfl)
@[simp] theorem State.modFurrow_slot (i : Nat) (f : Furrow → Furrow) (j : Nat) : (s.modFurrow i f).slot j = s.slot j := (rfl)
@[simp] theorem State.modFurrow_obj (i : Nat) (f : Furrow → Furrow) (j : Nat) : (s.modFurrow i f).obj j = s.obj j := (rfl)
@[simp] theorem State.modFurrow_waitersOf (i : Nat) (f : Furrow → Furrow) (j : Nat) : (s.modFurrow i f).waitersOf j = s.waitersOf j := (rfl)
@[simp] theorem State.modFurrow_ctx (i : Nat) (f : Furrow → Furrow) (j : Nat) : (s.modFurrow i f).ctx j = s.ctx j := (rfl)
@[simp] theorem State.modFurrow_part (i : Nat) (f : Furrow → Furrow) (j : Nat) : (s.modFurrow i f).part j = s.part j := (rfl)
@[simp] theorem State.modFurrow_core (i : Nat) (f : Furrow → Furrow) (j : Nat) : (s.modFurrow i f).core j = s.core j := (rfl)
@[simp] theorem State.modFurrow_rslot (i : Nat) (f : Furrow → Furrow) (j : Nat) : (s.modFurrow i f).rslot j = s.rslot j := (rfl)
@[simp] theorem State.modFurrow_group (i : Nat) (f : Furrow → Furrow) (j : Nat) : (s.modFurrow i f).group j = s.group j := (rfl)
@[simp] theorem State.modFurrow_source (i : Nat) (f : Furrow → Furrow) (j : Nat) : (s.modFurrow i f).source j = s.source j := (rfl)
@[simp] theorem State.modFurrow_brk (i : Nat) (f : Furrow → Furrow) (j : Nat) : (s.modFurrow i f).brk j = s.brk j := (rfl)
@[simp] theorem State.modFurrow_now (i : Nat) (f : Furrow → Furrow) : (s.modFurrow i f).now = s.now := (rfl)
@[simp] theorem State.modFurrow_up (i : Nat) (f : Furrow → Furrow) : (s.modFurrow i f).up = s.up := (rfl)
@[simp] theorem State.modFurrow_working (i : Nat) (f : Furrow → Furrow) : (s.modFurrow i f).working = s.working := (rfl)
@[simp] theorem State.modFurrow_trimmed (i : Nat) (f : Furrow → Furrow) : (s.modFurrow i f).trimmed = s.trimmed := (rfl)
@[simp] theorem State.modFurrow_powered (i : Nat) (f : Furrow → Furrow) : (s.modFurrow i f).powered = s.powered := (rfl)

/-! ### State.setSlot -/

@[simp] theorem State.setSlot_pending (n : Nat) (x : Slot) : (s.setSlot n x).pending = s.pending := (rfl)
@[simp] theorem State.setSlot_heldCmds (n : Nat) (x : Slot) : (s.setSlot n x).heldCmds = s.heldCmds := (rfl)
@[simp] theorem State.setSlot_heldFrom (n : Nat) (x : Slot) : (s.setSlot n x).heldFrom = s.heldFrom := (rfl)
@[simp] theorem State.setSlot_out (n : Nat) (x : Slot) : (s.setSlot n x).out = s.out := (rfl)
@[simp] theorem State.setSlot_free (n : Nat) (x : Slot) : (s.setSlot n x).free = s.free := (rfl)
@[simp] theorem State.setSlot_stamp (n : Nat) (x : Slot) : (s.setSlot n x).stamp = s.stamp := (rfl)
@[simp] theorem State.setSlot_power (n : Nat) (x : Slot) : (s.setSlot n x).power = s.power := (rfl)
@[simp] theorem State.setSlot_usec (n : Nat) (x : Slot) : (s.setSlot n x).usec = s.usec := (rfl)
@[simp] theorem State.setSlot_fuses (n : Nat) (x : Slot) : (s.setSlot n x).fuses = s.fuses := (rfl)
@[simp] theorem State.setSlot_trim (n : Nat) (x : Slot) : (s.setSlot n x).trim = s.trim := (rfl)
@[simp] theorem State.setSlot_clocks (n : Nat) (x : Slot) : (s.setSlot n x).clocks = s.clocks := (rfl)
@[simp] theorem State.setSlot_charge (n : Nat) (x : Slot) : (s.setSlot n x).charge = s.charge := (rfl)
@[simp] theorem State.setSlot_regs (n : Nat) (x : Slot) : (s.setSlot n x).regs = s.regs := (rfl)
@[simp] theorem State.setSlot_latches (n : Nat) (x : Slot) : (s.setSlot n x).latches = s.latches := (rfl)
@[simp] theorem State.setSlot_queues (n : Nat) (x : Slot) : (s.setSlot n x).queues = s.queues := (rfl)
@[simp] theorem State.setSlot_fetchLast (n : Nat) (x : Slot) : (s.setSlot n x).fetchLast = s.fetchLast := (rfl)
@[simp] theorem State.setSlot_fabric (n : Nat) (x : Slot) : (s.setSlot n x).fabric = s.fabric := (rfl)
@[simp] theorem State.setSlot_nodes (n : Nat) (x : Slot) : (s.setSlot n x).nodes = s.nodes := (rfl)
@[simp] theorem State.setSlot_furrows (n : Nat) (x : Slot) : (s.setSlot n x).furrows = s.furrows := (rfl)
@[simp] theorem State.setSlot_admits (n : Nat) (x : Slot) : (s.setSlot n x).admits = s.admits := (rfl)
@[simp] theorem State.setSlot_flying (n : Nat) (x : Slot) : (s.setSlot n x).flying = s.flying := (rfl)
@[simp] theorem State.setSlot_reports (n : Nat) (x : Slot) : (s.setSlot n x).reports = s.reports := (rfl)
@[simp] theorem State.setSlot_nextIssue (n : Nat) (x : Slot) : (s.setSlot n x).nextIssue = s.nextIssue := (rfl)
@[simp] theorem State.setSlot_oldSlots (n : Nat) (x : Slot) : (s.setSlot n x).oldSlots = s.oldSlots := (rfl)
@[simp] theorem State.setSlot_oldRetired (n : Nat) (x : Slot) : (s.setSlot n x).oldRetired = s.oldRetired := (rfl)
@[simp] theorem State.setSlot_stewardQ (n : Nat) (x : Slot) : (s.setSlot n x).stewardQ = s.stewardQ := (rfl)
@[simp] theorem State.setSlot_objects (n : Nat) (x : Slot) : (s.setSlot n x).objects = s.objects := (rfl)
@[simp] theorem State.setSlot_waiters (n : Nat) (x : Slot) : (s.setSlot n x).waiters = s.waiters := (rfl)
@[simp] theorem State.setSlot_remoteOps (n : Nat) (x : Slot) : (s.setSlot n x).remoteOps = s.remoteOps := (rfl)
@[simp] theorem State.setSlot_nextMsg (n : Nat) (x : Slot) : (s.setSlot n x).nextMsg = s.nextMsg := (rfl)
@[simp] theorem State.setSlot_hivestat (n : Nat) (x : Slot) : (s.setSlot n x).hivestat = s.hivestat := (rfl)
@[simp] theorem State.setSlot_debug (n : Nat) (x : Slot) : (s.setSlot n x).debug = s.debug := (rfl)
@[simp] theorem State.setSlot_lent (n : Nat) (x : Slot) : (s.setSlot n x).lent = s.lent := (rfl)
@[simp] theorem State.setSlot_ctxs (n : Nat) (x : Slot) : (s.setSlot n x).ctxs = s.ctxs := (rfl)
@[simp] theorem State.setSlot_parts (n : Nat) (x : Slot) : (s.setSlot n x).parts = s.parts := (rfl)
@[simp] theorem State.setSlot_tears (n : Nat) (x : Slot) : (s.setSlot n x).tears = s.tears := (rfl)
@[simp] theorem State.setSlot_cores (n : Nat) (x : Slot) : (s.setSlot n x).cores = s.cores := (rfl)
@[simp] theorem State.setSlot_phys (n : Nat) (x : Slot) : (s.setSlot n x).phys = s.phys := (rfl)
@[simp] theorem State.setSlot_routines (n : Nat) (x : Slot) : (s.setSlot n x).routines = s.routines := (rfl)
@[simp] theorem State.setSlot_agents (n : Nat) (x : Slot) : (s.setSlot n x).agents = s.agents := (rfl)
@[simp] theorem State.setSlot_dirs (n : Nat) (x : Slot) : (s.setSlot n x).dirs = s.dirs := (rfl)
@[simp] theorem State.setSlot_net (n : Nat) (x : Slot) : (s.setSlot n x).net = s.net := (rfl)
@[simp] theorem State.setSlot_intake (n : Nat) (x : Slot) : (s.setSlot n x).intake = s.intake := (rfl)
@[simp] theorem State.setSlot_lineWork (n : Nat) (x : Slot) : (s.setSlot n x).lineWork = s.lineWork := (rfl)
@[simp] theorem State.setSlot_reads (n : Nat) (x : Slot) : (s.setSlot n x).reads = s.reads := (rfl)
@[simp] theorem State.setSlot_faults (n : Nat) (x : Slot) : (s.setSlot n x).faults = s.faults := (rfl)
@[simp] theorem State.setSlot_recov (n : Nat) (x : Slot) : (s.setSlot n x).recov = s.recov := (rfl)
@[simp] theorem State.setSlot_groups (n : Nat) (x : Slot) : (s.setSlot n x).groups = s.groups := (rfl)
@[simp] theorem State.setSlot_stale (n : Nat) (x : Slot) : (s.setSlot n x).stale = s.stale := (rfl)
@[simp] theorem State.setSlot_fence (n : Nat) (x : Slot) : (s.setSlot n x).fence = s.fence := (rfl)
@[simp] theorem State.setSlot_audit (n : Nat) (x : Slot) : (s.setSlot n x).audit = s.audit := (rfl)
@[simp] theorem State.setSlot_trace (n : Nat) (x : Slot) : (s.setSlot n x).trace = s.trace := (rfl)
@[simp] theorem State.setSlot_breaks (n : Nat) (x : Slot) : (s.setSlot n x).breaks = s.breaks := (rfl)
@[simp] theorem State.setSlot_life (n : Nat) (x : Slot) : (s.setSlot n x).life = s.life := (rfl)
@[simp] theorem State.setSlot_plaliveOn (n : Nat) (x : Slot) : (s.setSlot n x).plaliveOn = s.plaliveOn := (rfl)
@[simp] theorem State.setSlot_plalive (n : Nat) (x : Slot) : (s.setSlot n x).plalive = s.plalive := (rfl)
@[simp] theorem State.setSlot_aliveDue (n : Nat) (x : Slot) : (s.setSlot n x).aliveDue = s.aliveDue := (rfl)
@[simp] theorem State.setSlot_plfault (n : Nat) (x : Slot) : (s.setSlot n x).plfault = s.plfault := (rfl)
@[simp] theorem State.setSlot_queue (n : Nat) (x : Slot) (j : Nat) : (s.setSlot n x).queue j = s.queue j := (rfl)
@[simp] theorem State.setSlot_node (n : Nat) (x : Slot) (j : Nat) : (s.setSlot n x).node j = s.node j := (rfl)
@[simp] theorem State.setSlot_furrow (n : Nat) (x : Slot) (j : Nat) : (s.setSlot n x).furrow j = s.furrow j := (rfl)
@[simp] theorem State.setSlot_obj (n : Nat) (x : Slot) (j : Nat) : (s.setSlot n x).obj j = s.obj j := (rfl)
@[simp] theorem State.setSlot_waitersOf (n : Nat) (x : Slot) (j : Nat) : (s.setSlot n x).waitersOf j = s.waitersOf j := (rfl)
@[simp] theorem State.setSlot_ctx (n : Nat) (x : Slot) (j : Nat) : (s.setSlot n x).ctx j = s.ctx j := (rfl)
@[simp] theorem State.setSlot_part (n : Nat) (x : Slot) (j : Nat) : (s.setSlot n x).part j = s.part j := (rfl)
@[simp] theorem State.setSlot_core (n : Nat) (x : Slot) (j : Nat) : (s.setSlot n x).core j = s.core j := (rfl)
@[simp] theorem State.setSlot_rslot (n : Nat) (x : Slot) (j : Nat) : (s.setSlot n x).rslot j = s.rslot j := (rfl)
@[simp] theorem State.setSlot_group (n : Nat) (x : Slot) (j : Nat) : (s.setSlot n x).group j = s.group j := (rfl)
@[simp] theorem State.setSlot_source (n : Nat) (x : Slot) (j : Nat) : (s.setSlot n x).source j = s.source j := (rfl)
@[simp] theorem State.setSlot_brk (n : Nat) (x : Slot) (j : Nat) : (s.setSlot n x).brk j = s.brk j := (rfl)
@[simp] theorem State.setSlot_now (n : Nat) (x : Slot) : (s.setSlot n x).now = s.now := (rfl)
@[simp] theorem State.setSlot_up (n : Nat) (x : Slot) : (s.setSlot n x).up = s.up := (rfl)
@[simp] theorem State.setSlot_working (n : Nat) (x : Slot) : (s.setSlot n x).working = s.working := (rfl)
@[simp] theorem State.setSlot_trimmed (n : Nat) (x : Slot) : (s.setSlot n x).trimmed = s.trimmed := (rfl)
@[simp] theorem State.setSlot_powered (n : Nat) (x : Slot) : (s.setSlot n x).powered = s.powered := (rfl)

/-! ### State.setObj -/

@[simp] theorem State.setObj_pending (n : Nat) (x : Obj) : (s.setObj n x).pending = s.pending := (rfl)
@[simp] theorem State.setObj_heldCmds (n : Nat) (x : Obj) : (s.setObj n x).heldCmds = s.heldCmds := (rfl)
@[simp] theorem State.setObj_heldFrom (n : Nat) (x : Obj) : (s.setObj n x).heldFrom = s.heldFrom := (rfl)
@[simp] theorem State.setObj_out (n : Nat) (x : Obj) : (s.setObj n x).out = s.out := (rfl)
@[simp] theorem State.setObj_free (n : Nat) (x : Obj) : (s.setObj n x).free = s.free := (rfl)
@[simp] theorem State.setObj_stamp (n : Nat) (x : Obj) : (s.setObj n x).stamp = s.stamp := (rfl)
@[simp] theorem State.setObj_power (n : Nat) (x : Obj) : (s.setObj n x).power = s.power := (rfl)
@[simp] theorem State.setObj_usec (n : Nat) (x : Obj) : (s.setObj n x).usec = s.usec := (rfl)
@[simp] theorem State.setObj_fuses (n : Nat) (x : Obj) : (s.setObj n x).fuses = s.fuses := (rfl)
@[simp] theorem State.setObj_trim (n : Nat) (x : Obj) : (s.setObj n x).trim = s.trim := (rfl)
@[simp] theorem State.setObj_clocks (n : Nat) (x : Obj) : (s.setObj n x).clocks = s.clocks := (rfl)
@[simp] theorem State.setObj_charge (n : Nat) (x : Obj) : (s.setObj n x).charge = s.charge := (rfl)
@[simp] theorem State.setObj_regs (n : Nat) (x : Obj) : (s.setObj n x).regs = s.regs := (rfl)
@[simp] theorem State.setObj_latches (n : Nat) (x : Obj) : (s.setObj n x).latches = s.latches := (rfl)
@[simp] theorem State.setObj_queues (n : Nat) (x : Obj) : (s.setObj n x).queues = s.queues := (rfl)
@[simp] theorem State.setObj_fetchLast (n : Nat) (x : Obj) : (s.setObj n x).fetchLast = s.fetchLast := (rfl)
@[simp] theorem State.setObj_fabric (n : Nat) (x : Obj) : (s.setObj n x).fabric = s.fabric := (rfl)
@[simp] theorem State.setObj_nodes (n : Nat) (x : Obj) : (s.setObj n x).nodes = s.nodes := (rfl)
@[simp] theorem State.setObj_furrows (n : Nat) (x : Obj) : (s.setObj n x).furrows = s.furrows := (rfl)
@[simp] theorem State.setObj_admits (n : Nat) (x : Obj) : (s.setObj n x).admits = s.admits := (rfl)
@[simp] theorem State.setObj_flying (n : Nat) (x : Obj) : (s.setObj n x).flying = s.flying := (rfl)
@[simp] theorem State.setObj_reports (n : Nat) (x : Obj) : (s.setObj n x).reports = s.reports := (rfl)
@[simp] theorem State.setObj_nextIssue (n : Nat) (x : Obj) : (s.setObj n x).nextIssue = s.nextIssue := (rfl)
@[simp] theorem State.setObj_slots (n : Nat) (x : Obj) : (s.setObj n x).slots = s.slots := (rfl)
@[simp] theorem State.setObj_oldSlots (n : Nat) (x : Obj) : (s.setObj n x).oldSlots = s.oldSlots := (rfl)
@[simp] theorem State.setObj_oldRetired (n : Nat) (x : Obj) : (s.setObj n x).oldRetired = s.oldRetired := (rfl)
@[simp] theorem State.setObj_stewardQ (n : Nat) (x : Obj) : (s.setObj n x).stewardQ = s.stewardQ := (rfl)
@[simp] theorem State.setObj_waiters (n : Nat) (x : Obj) : (s.setObj n x).waiters = s.waiters := (rfl)
@[simp] theorem State.setObj_remoteOps (n : Nat) (x : Obj) : (s.setObj n x).remoteOps = s.remoteOps := (rfl)
@[simp] theorem State.setObj_nextMsg (n : Nat) (x : Obj) : (s.setObj n x).nextMsg = s.nextMsg := (rfl)
@[simp] theorem State.setObj_hivestat (n : Nat) (x : Obj) : (s.setObj n x).hivestat = s.hivestat := (rfl)
@[simp] theorem State.setObj_debug (n : Nat) (x : Obj) : (s.setObj n x).debug = s.debug := (rfl)
@[simp] theorem State.setObj_lent (n : Nat) (x : Obj) : (s.setObj n x).lent = s.lent := (rfl)
@[simp] theorem State.setObj_ctxs (n : Nat) (x : Obj) : (s.setObj n x).ctxs = s.ctxs := (rfl)
@[simp] theorem State.setObj_parts (n : Nat) (x : Obj) : (s.setObj n x).parts = s.parts := (rfl)
@[simp] theorem State.setObj_tears (n : Nat) (x : Obj) : (s.setObj n x).tears = s.tears := (rfl)
@[simp] theorem State.setObj_cores (n : Nat) (x : Obj) : (s.setObj n x).cores = s.cores := (rfl)
@[simp] theorem State.setObj_phys (n : Nat) (x : Obj) : (s.setObj n x).phys = s.phys := (rfl)
@[simp] theorem State.setObj_routines (n : Nat) (x : Obj) : (s.setObj n x).routines = s.routines := (rfl)
@[simp] theorem State.setObj_agents (n : Nat) (x : Obj) : (s.setObj n x).agents = s.agents := (rfl)
@[simp] theorem State.setObj_dirs (n : Nat) (x : Obj) : (s.setObj n x).dirs = s.dirs := (rfl)
@[simp] theorem State.setObj_net (n : Nat) (x : Obj) : (s.setObj n x).net = s.net := (rfl)
@[simp] theorem State.setObj_intake (n : Nat) (x : Obj) : (s.setObj n x).intake = s.intake := (rfl)
@[simp] theorem State.setObj_lineWork (n : Nat) (x : Obj) : (s.setObj n x).lineWork = s.lineWork := (rfl)
@[simp] theorem State.setObj_reads (n : Nat) (x : Obj) : (s.setObj n x).reads = s.reads := (rfl)
@[simp] theorem State.setObj_faults (n : Nat) (x : Obj) : (s.setObj n x).faults = s.faults := (rfl)
@[simp] theorem State.setObj_recov (n : Nat) (x : Obj) : (s.setObj n x).recov = s.recov := (rfl)
@[simp] theorem State.setObj_groups (n : Nat) (x : Obj) : (s.setObj n x).groups = s.groups := (rfl)
@[simp] theorem State.setObj_stale (n : Nat) (x : Obj) : (s.setObj n x).stale = s.stale := (rfl)
@[simp] theorem State.setObj_fence (n : Nat) (x : Obj) : (s.setObj n x).fence = s.fence := (rfl)
@[simp] theorem State.setObj_audit (n : Nat) (x : Obj) : (s.setObj n x).audit = s.audit := (rfl)
@[simp] theorem State.setObj_trace (n : Nat) (x : Obj) : (s.setObj n x).trace = s.trace := (rfl)
@[simp] theorem State.setObj_breaks (n : Nat) (x : Obj) : (s.setObj n x).breaks = s.breaks := (rfl)
@[simp] theorem State.setObj_life (n : Nat) (x : Obj) : (s.setObj n x).life = s.life := (rfl)
@[simp] theorem State.setObj_plaliveOn (n : Nat) (x : Obj) : (s.setObj n x).plaliveOn = s.plaliveOn := (rfl)
@[simp] theorem State.setObj_plalive (n : Nat) (x : Obj) : (s.setObj n x).plalive = s.plalive := (rfl)
@[simp] theorem State.setObj_aliveDue (n : Nat) (x : Obj) : (s.setObj n x).aliveDue = s.aliveDue := (rfl)
@[simp] theorem State.setObj_plfault (n : Nat) (x : Obj) : (s.setObj n x).plfault = s.plfault := (rfl)
@[simp] theorem State.setObj_queue (n : Nat) (x : Obj) (j : Nat) : (s.setObj n x).queue j = s.queue j := (rfl)
@[simp] theorem State.setObj_node (n : Nat) (x : Obj) (j : Nat) : (s.setObj n x).node j = s.node j := (rfl)
@[simp] theorem State.setObj_furrow (n : Nat) (x : Obj) (j : Nat) : (s.setObj n x).furrow j = s.furrow j := (rfl)
@[simp] theorem State.setObj_slot (n : Nat) (x : Obj) (j : Nat) : (s.setObj n x).slot j = s.slot j := (rfl)
@[simp] theorem State.setObj_waitersOf (n : Nat) (x : Obj) (j : Nat) : (s.setObj n x).waitersOf j = s.waitersOf j := (rfl)
@[simp] theorem State.setObj_ctx (n : Nat) (x : Obj) (j : Nat) : (s.setObj n x).ctx j = s.ctx j := (rfl)
@[simp] theorem State.setObj_part (n : Nat) (x : Obj) (j : Nat) : (s.setObj n x).part j = s.part j := (rfl)
@[simp] theorem State.setObj_core (n : Nat) (x : Obj) (j : Nat) : (s.setObj n x).core j = s.core j := (rfl)
@[simp] theorem State.setObj_rslot (n : Nat) (x : Obj) (j : Nat) : (s.setObj n x).rslot j = s.rslot j := (rfl)
@[simp] theorem State.setObj_group (n : Nat) (x : Obj) (j : Nat) : (s.setObj n x).group j = s.group j := (rfl)
@[simp] theorem State.setObj_source (n : Nat) (x : Obj) (j : Nat) : (s.setObj n x).source j = s.source j := (rfl)
@[simp] theorem State.setObj_brk (n : Nat) (x : Obj) (j : Nat) : (s.setObj n x).brk j = s.brk j := (rfl)
@[simp] theorem State.setObj_now (n : Nat) (x : Obj) : (s.setObj n x).now = s.now := (rfl)
@[simp] theorem State.setObj_up (n : Nat) (x : Obj) : (s.setObj n x).up = s.up := (rfl)
@[simp] theorem State.setObj_working (n : Nat) (x : Obj) : (s.setObj n x).working = s.working := (rfl)
@[simp] theorem State.setObj_trimmed (n : Nat) (x : Obj) : (s.setObj n x).trimmed = s.trimmed := (rfl)
@[simp] theorem State.setObj_powered (n : Nat) (x : Obj) : (s.setObj n x).powered = s.powered := (rfl)

/-! ### State.setWaiters -/

@[simp] theorem State.setWaiters_pending (n : Nat) (x : List Waiter) : (s.setWaiters n x).pending = s.pending := (rfl)
@[simp] theorem State.setWaiters_heldCmds (n : Nat) (x : List Waiter) : (s.setWaiters n x).heldCmds = s.heldCmds := (rfl)
@[simp] theorem State.setWaiters_heldFrom (n : Nat) (x : List Waiter) : (s.setWaiters n x).heldFrom = s.heldFrom := (rfl)
@[simp] theorem State.setWaiters_out (n : Nat) (x : List Waiter) : (s.setWaiters n x).out = s.out := (rfl)
@[simp] theorem State.setWaiters_free (n : Nat) (x : List Waiter) : (s.setWaiters n x).free = s.free := (rfl)
@[simp] theorem State.setWaiters_stamp (n : Nat) (x : List Waiter) : (s.setWaiters n x).stamp = s.stamp := (rfl)
@[simp] theorem State.setWaiters_power (n : Nat) (x : List Waiter) : (s.setWaiters n x).power = s.power := (rfl)
@[simp] theorem State.setWaiters_usec (n : Nat) (x : List Waiter) : (s.setWaiters n x).usec = s.usec := (rfl)
@[simp] theorem State.setWaiters_fuses (n : Nat) (x : List Waiter) : (s.setWaiters n x).fuses = s.fuses := (rfl)
@[simp] theorem State.setWaiters_trim (n : Nat) (x : List Waiter) : (s.setWaiters n x).trim = s.trim := (rfl)
@[simp] theorem State.setWaiters_clocks (n : Nat) (x : List Waiter) : (s.setWaiters n x).clocks = s.clocks := (rfl)
@[simp] theorem State.setWaiters_charge (n : Nat) (x : List Waiter) : (s.setWaiters n x).charge = s.charge := (rfl)
@[simp] theorem State.setWaiters_regs (n : Nat) (x : List Waiter) : (s.setWaiters n x).regs = s.regs := (rfl)
@[simp] theorem State.setWaiters_latches (n : Nat) (x : List Waiter) : (s.setWaiters n x).latches = s.latches := (rfl)
@[simp] theorem State.setWaiters_queues (n : Nat) (x : List Waiter) : (s.setWaiters n x).queues = s.queues := (rfl)
@[simp] theorem State.setWaiters_fetchLast (n : Nat) (x : List Waiter) : (s.setWaiters n x).fetchLast = s.fetchLast := (rfl)
@[simp] theorem State.setWaiters_fabric (n : Nat) (x : List Waiter) : (s.setWaiters n x).fabric = s.fabric := (rfl)
@[simp] theorem State.setWaiters_nodes (n : Nat) (x : List Waiter) : (s.setWaiters n x).nodes = s.nodes := (rfl)
@[simp] theorem State.setWaiters_furrows (n : Nat) (x : List Waiter) : (s.setWaiters n x).furrows = s.furrows := (rfl)
@[simp] theorem State.setWaiters_admits (n : Nat) (x : List Waiter) : (s.setWaiters n x).admits = s.admits := (rfl)
@[simp] theorem State.setWaiters_flying (n : Nat) (x : List Waiter) : (s.setWaiters n x).flying = s.flying := (rfl)
@[simp] theorem State.setWaiters_reports (n : Nat) (x : List Waiter) : (s.setWaiters n x).reports = s.reports := (rfl)
@[simp] theorem State.setWaiters_nextIssue (n : Nat) (x : List Waiter) : (s.setWaiters n x).nextIssue = s.nextIssue := (rfl)
@[simp] theorem State.setWaiters_slots (n : Nat) (x : List Waiter) : (s.setWaiters n x).slots = s.slots := (rfl)
@[simp] theorem State.setWaiters_oldSlots (n : Nat) (x : List Waiter) : (s.setWaiters n x).oldSlots = s.oldSlots := (rfl)
@[simp] theorem State.setWaiters_oldRetired (n : Nat) (x : List Waiter) : (s.setWaiters n x).oldRetired = s.oldRetired := (rfl)
@[simp] theorem State.setWaiters_stewardQ (n : Nat) (x : List Waiter) : (s.setWaiters n x).stewardQ = s.stewardQ := (rfl)
@[simp] theorem State.setWaiters_objects (n : Nat) (x : List Waiter) : (s.setWaiters n x).objects = s.objects := (rfl)
@[simp] theorem State.setWaiters_remoteOps (n : Nat) (x : List Waiter) : (s.setWaiters n x).remoteOps = s.remoteOps := (rfl)
@[simp] theorem State.setWaiters_nextMsg (n : Nat) (x : List Waiter) : (s.setWaiters n x).nextMsg = s.nextMsg := (rfl)
@[simp] theorem State.setWaiters_hivestat (n : Nat) (x : List Waiter) : (s.setWaiters n x).hivestat = s.hivestat := (rfl)
@[simp] theorem State.setWaiters_debug (n : Nat) (x : List Waiter) : (s.setWaiters n x).debug = s.debug := (rfl)
@[simp] theorem State.setWaiters_lent (n : Nat) (x : List Waiter) : (s.setWaiters n x).lent = s.lent := (rfl)
@[simp] theorem State.setWaiters_ctxs (n : Nat) (x : List Waiter) : (s.setWaiters n x).ctxs = s.ctxs := (rfl)
@[simp] theorem State.setWaiters_parts (n : Nat) (x : List Waiter) : (s.setWaiters n x).parts = s.parts := (rfl)
@[simp] theorem State.setWaiters_tears (n : Nat) (x : List Waiter) : (s.setWaiters n x).tears = s.tears := (rfl)
@[simp] theorem State.setWaiters_cores (n : Nat) (x : List Waiter) : (s.setWaiters n x).cores = s.cores := (rfl)
@[simp] theorem State.setWaiters_phys (n : Nat) (x : List Waiter) : (s.setWaiters n x).phys = s.phys := (rfl)
@[simp] theorem State.setWaiters_routines (n : Nat) (x : List Waiter) : (s.setWaiters n x).routines = s.routines := (rfl)
@[simp] theorem State.setWaiters_agents (n : Nat) (x : List Waiter) : (s.setWaiters n x).agents = s.agents := (rfl)
@[simp] theorem State.setWaiters_dirs (n : Nat) (x : List Waiter) : (s.setWaiters n x).dirs = s.dirs := (rfl)
@[simp] theorem State.setWaiters_net (n : Nat) (x : List Waiter) : (s.setWaiters n x).net = s.net := (rfl)
@[simp] theorem State.setWaiters_intake (n : Nat) (x : List Waiter) : (s.setWaiters n x).intake = s.intake := (rfl)
@[simp] theorem State.setWaiters_lineWork (n : Nat) (x : List Waiter) : (s.setWaiters n x).lineWork = s.lineWork := (rfl)
@[simp] theorem State.setWaiters_reads (n : Nat) (x : List Waiter) : (s.setWaiters n x).reads = s.reads := (rfl)
@[simp] theorem State.setWaiters_faults (n : Nat) (x : List Waiter) : (s.setWaiters n x).faults = s.faults := (rfl)
@[simp] theorem State.setWaiters_recov (n : Nat) (x : List Waiter) : (s.setWaiters n x).recov = s.recov := (rfl)
@[simp] theorem State.setWaiters_groups (n : Nat) (x : List Waiter) : (s.setWaiters n x).groups = s.groups := (rfl)
@[simp] theorem State.setWaiters_stale (n : Nat) (x : List Waiter) : (s.setWaiters n x).stale = s.stale := (rfl)
@[simp] theorem State.setWaiters_fence (n : Nat) (x : List Waiter) : (s.setWaiters n x).fence = s.fence := (rfl)
@[simp] theorem State.setWaiters_audit (n : Nat) (x : List Waiter) : (s.setWaiters n x).audit = s.audit := (rfl)
@[simp] theorem State.setWaiters_trace (n : Nat) (x : List Waiter) : (s.setWaiters n x).trace = s.trace := (rfl)
@[simp] theorem State.setWaiters_breaks (n : Nat) (x : List Waiter) : (s.setWaiters n x).breaks = s.breaks := (rfl)
@[simp] theorem State.setWaiters_life (n : Nat) (x : List Waiter) : (s.setWaiters n x).life = s.life := (rfl)
@[simp] theorem State.setWaiters_plaliveOn (n : Nat) (x : List Waiter) : (s.setWaiters n x).plaliveOn = s.plaliveOn := (rfl)
@[simp] theorem State.setWaiters_plalive (n : Nat) (x : List Waiter) : (s.setWaiters n x).plalive = s.plalive := (rfl)
@[simp] theorem State.setWaiters_aliveDue (n : Nat) (x : List Waiter) : (s.setWaiters n x).aliveDue = s.aliveDue := (rfl)
@[simp] theorem State.setWaiters_plfault (n : Nat) (x : List Waiter) : (s.setWaiters n x).plfault = s.plfault := (rfl)
@[simp] theorem State.setWaiters_queue (n : Nat) (x : List Waiter) (j : Nat) : (s.setWaiters n x).queue j = s.queue j := (rfl)
@[simp] theorem State.setWaiters_node (n : Nat) (x : List Waiter) (j : Nat) : (s.setWaiters n x).node j = s.node j := (rfl)
@[simp] theorem State.setWaiters_furrow (n : Nat) (x : List Waiter) (j : Nat) : (s.setWaiters n x).furrow j = s.furrow j := (rfl)
@[simp] theorem State.setWaiters_slot (n : Nat) (x : List Waiter) (j : Nat) : (s.setWaiters n x).slot j = s.slot j := (rfl)
@[simp] theorem State.setWaiters_obj (n : Nat) (x : List Waiter) (j : Nat) : (s.setWaiters n x).obj j = s.obj j := (rfl)
@[simp] theorem State.setWaiters_ctx (n : Nat) (x : List Waiter) (j : Nat) : (s.setWaiters n x).ctx j = s.ctx j := (rfl)
@[simp] theorem State.setWaiters_part (n : Nat) (x : List Waiter) (j : Nat) : (s.setWaiters n x).part j = s.part j := (rfl)
@[simp] theorem State.setWaiters_core (n : Nat) (x : List Waiter) (j : Nat) : (s.setWaiters n x).core j = s.core j := (rfl)
@[simp] theorem State.setWaiters_rslot (n : Nat) (x : List Waiter) (j : Nat) : (s.setWaiters n x).rslot j = s.rslot j := (rfl)
@[simp] theorem State.setWaiters_group (n : Nat) (x : List Waiter) (j : Nat) : (s.setWaiters n x).group j = s.group j := (rfl)
@[simp] theorem State.setWaiters_source (n : Nat) (x : List Waiter) (j : Nat) : (s.setWaiters n x).source j = s.source j := (rfl)
@[simp] theorem State.setWaiters_brk (n : Nat) (x : List Waiter) (j : Nat) : (s.setWaiters n x).brk j = s.brk j := (rfl)
@[simp] theorem State.setWaiters_now (n : Nat) (x : List Waiter) : (s.setWaiters n x).now = s.now := (rfl)
@[simp] theorem State.setWaiters_up (n : Nat) (x : List Waiter) : (s.setWaiters n x).up = s.up := (rfl)
@[simp] theorem State.setWaiters_working (n : Nat) (x : List Waiter) : (s.setWaiters n x).working = s.working := (rfl)
@[simp] theorem State.setWaiters_trimmed (n : Nat) (x : List Waiter) : (s.setWaiters n x).trimmed = s.trimmed := (rfl)
@[simp] theorem State.setWaiters_powered (n : Nat) (x : List Waiter) : (s.setWaiters n x).powered = s.powered := (rfl)

/-! ### State.setCtx -/

@[simp] theorem State.setCtx_pending (c : Nat) (x : Ctx) : (s.setCtx c x).pending = s.pending := (rfl)
@[simp] theorem State.setCtx_heldCmds (c : Nat) (x : Ctx) : (s.setCtx c x).heldCmds = s.heldCmds := (rfl)
@[simp] theorem State.setCtx_heldFrom (c : Nat) (x : Ctx) : (s.setCtx c x).heldFrom = s.heldFrom := (rfl)
@[simp] theorem State.setCtx_out (c : Nat) (x : Ctx) : (s.setCtx c x).out = s.out := (rfl)
@[simp] theorem State.setCtx_free (c : Nat) (x : Ctx) : (s.setCtx c x).free = s.free := (rfl)
@[simp] theorem State.setCtx_stamp (c : Nat) (x : Ctx) : (s.setCtx c x).stamp = s.stamp := (rfl)
@[simp] theorem State.setCtx_power (c : Nat) (x : Ctx) : (s.setCtx c x).power = s.power := (rfl)
@[simp] theorem State.setCtx_usec (c : Nat) (x : Ctx) : (s.setCtx c x).usec = s.usec := (rfl)
@[simp] theorem State.setCtx_fuses (c : Nat) (x : Ctx) : (s.setCtx c x).fuses = s.fuses := (rfl)
@[simp] theorem State.setCtx_trim (c : Nat) (x : Ctx) : (s.setCtx c x).trim = s.trim := (rfl)
@[simp] theorem State.setCtx_clocks (c : Nat) (x : Ctx) : (s.setCtx c x).clocks = s.clocks := (rfl)
@[simp] theorem State.setCtx_charge (c : Nat) (x : Ctx) : (s.setCtx c x).charge = s.charge := (rfl)
@[simp] theorem State.setCtx_regs (c : Nat) (x : Ctx) : (s.setCtx c x).regs = s.regs := (rfl)
@[simp] theorem State.setCtx_latches (c : Nat) (x : Ctx) : (s.setCtx c x).latches = s.latches := (rfl)
@[simp] theorem State.setCtx_queues (c : Nat) (x : Ctx) : (s.setCtx c x).queues = s.queues := (rfl)
@[simp] theorem State.setCtx_fetchLast (c : Nat) (x : Ctx) : (s.setCtx c x).fetchLast = s.fetchLast := (rfl)
@[simp] theorem State.setCtx_fabric (c : Nat) (x : Ctx) : (s.setCtx c x).fabric = s.fabric := (rfl)
@[simp] theorem State.setCtx_nodes (c : Nat) (x : Ctx) : (s.setCtx c x).nodes = s.nodes := (rfl)
@[simp] theorem State.setCtx_furrows (c : Nat) (x : Ctx) : (s.setCtx c x).furrows = s.furrows := (rfl)
@[simp] theorem State.setCtx_admits (c : Nat) (x : Ctx) : (s.setCtx c x).admits = s.admits := (rfl)
@[simp] theorem State.setCtx_flying (c : Nat) (x : Ctx) : (s.setCtx c x).flying = s.flying := (rfl)
@[simp] theorem State.setCtx_reports (c : Nat) (x : Ctx) : (s.setCtx c x).reports = s.reports := (rfl)
@[simp] theorem State.setCtx_nextIssue (c : Nat) (x : Ctx) : (s.setCtx c x).nextIssue = s.nextIssue := (rfl)
@[simp] theorem State.setCtx_slots (c : Nat) (x : Ctx) : (s.setCtx c x).slots = s.slots := (rfl)
@[simp] theorem State.setCtx_oldSlots (c : Nat) (x : Ctx) : (s.setCtx c x).oldSlots = s.oldSlots := (rfl)
@[simp] theorem State.setCtx_oldRetired (c : Nat) (x : Ctx) : (s.setCtx c x).oldRetired = s.oldRetired := (rfl)
@[simp] theorem State.setCtx_stewardQ (c : Nat) (x : Ctx) : (s.setCtx c x).stewardQ = s.stewardQ := (rfl)
@[simp] theorem State.setCtx_objects (c : Nat) (x : Ctx) : (s.setCtx c x).objects = s.objects := (rfl)
@[simp] theorem State.setCtx_waiters (c : Nat) (x : Ctx) : (s.setCtx c x).waiters = s.waiters := (rfl)
@[simp] theorem State.setCtx_remoteOps (c : Nat) (x : Ctx) : (s.setCtx c x).remoteOps = s.remoteOps := (rfl)
@[simp] theorem State.setCtx_nextMsg (c : Nat) (x : Ctx) : (s.setCtx c x).nextMsg = s.nextMsg := (rfl)
@[simp] theorem State.setCtx_hivestat (c : Nat) (x : Ctx) : (s.setCtx c x).hivestat = s.hivestat := (rfl)
@[simp] theorem State.setCtx_debug (c : Nat) (x : Ctx) : (s.setCtx c x).debug = s.debug := (rfl)
@[simp] theorem State.setCtx_lent (c : Nat) (x : Ctx) : (s.setCtx c x).lent = s.lent := (rfl)
@[simp] theorem State.setCtx_parts (c : Nat) (x : Ctx) : (s.setCtx c x).parts = s.parts := (rfl)
@[simp] theorem State.setCtx_tears (c : Nat) (x : Ctx) : (s.setCtx c x).tears = s.tears := (rfl)
@[simp] theorem State.setCtx_cores (c : Nat) (x : Ctx) : (s.setCtx c x).cores = s.cores := (rfl)
@[simp] theorem State.setCtx_phys (c : Nat) (x : Ctx) : (s.setCtx c x).phys = s.phys := (rfl)
@[simp] theorem State.setCtx_routines (c : Nat) (x : Ctx) : (s.setCtx c x).routines = s.routines := (rfl)
@[simp] theorem State.setCtx_agents (c : Nat) (x : Ctx) : (s.setCtx c x).agents = s.agents := (rfl)
@[simp] theorem State.setCtx_dirs (c : Nat) (x : Ctx) : (s.setCtx c x).dirs = s.dirs := (rfl)
@[simp] theorem State.setCtx_net (c : Nat) (x : Ctx) : (s.setCtx c x).net = s.net := (rfl)
@[simp] theorem State.setCtx_intake (c : Nat) (x : Ctx) : (s.setCtx c x).intake = s.intake := (rfl)
@[simp] theorem State.setCtx_lineWork (c : Nat) (x : Ctx) : (s.setCtx c x).lineWork = s.lineWork := (rfl)
@[simp] theorem State.setCtx_reads (c : Nat) (x : Ctx) : (s.setCtx c x).reads = s.reads := (rfl)
@[simp] theorem State.setCtx_faults (c : Nat) (x : Ctx) : (s.setCtx c x).faults = s.faults := (rfl)
@[simp] theorem State.setCtx_recov (c : Nat) (x : Ctx) : (s.setCtx c x).recov = s.recov := (rfl)
@[simp] theorem State.setCtx_groups (c : Nat) (x : Ctx) : (s.setCtx c x).groups = s.groups := (rfl)
@[simp] theorem State.setCtx_stale (c : Nat) (x : Ctx) : (s.setCtx c x).stale = s.stale := (rfl)
@[simp] theorem State.setCtx_fence (c : Nat) (x : Ctx) : (s.setCtx c x).fence = s.fence := (rfl)
@[simp] theorem State.setCtx_audit (c : Nat) (x : Ctx) : (s.setCtx c x).audit = s.audit := (rfl)
@[simp] theorem State.setCtx_trace (c : Nat) (x : Ctx) : (s.setCtx c x).trace = s.trace := (rfl)
@[simp] theorem State.setCtx_breaks (c : Nat) (x : Ctx) : (s.setCtx c x).breaks = s.breaks := (rfl)
@[simp] theorem State.setCtx_life (c : Nat) (x : Ctx) : (s.setCtx c x).life = s.life := (rfl)
@[simp] theorem State.setCtx_plaliveOn (c : Nat) (x : Ctx) : (s.setCtx c x).plaliveOn = s.plaliveOn := (rfl)
@[simp] theorem State.setCtx_plalive (c : Nat) (x : Ctx) : (s.setCtx c x).plalive = s.plalive := (rfl)
@[simp] theorem State.setCtx_aliveDue (c : Nat) (x : Ctx) : (s.setCtx c x).aliveDue = s.aliveDue := (rfl)
@[simp] theorem State.setCtx_plfault (c : Nat) (x : Ctx) : (s.setCtx c x).plfault = s.plfault := (rfl)
@[simp] theorem State.setCtx_queue (c : Nat) (x : Ctx) (j : Nat) : (s.setCtx c x).queue j = s.queue j := (rfl)
@[simp] theorem State.setCtx_node (c : Nat) (x : Ctx) (j : Nat) : (s.setCtx c x).node j = s.node j := (rfl)
@[simp] theorem State.setCtx_furrow (c : Nat) (x : Ctx) (j : Nat) : (s.setCtx c x).furrow j = s.furrow j := (rfl)
@[simp] theorem State.setCtx_slot (c : Nat) (x : Ctx) (j : Nat) : (s.setCtx c x).slot j = s.slot j := (rfl)
@[simp] theorem State.setCtx_obj (c : Nat) (x : Ctx) (j : Nat) : (s.setCtx c x).obj j = s.obj j := (rfl)
@[simp] theorem State.setCtx_waitersOf (c : Nat) (x : Ctx) (j : Nat) : (s.setCtx c x).waitersOf j = s.waitersOf j := (rfl)
@[simp] theorem State.setCtx_part (c : Nat) (x : Ctx) (j : Nat) : (s.setCtx c x).part j = s.part j := (rfl)
@[simp] theorem State.setCtx_core (c : Nat) (x : Ctx) (j : Nat) : (s.setCtx c x).core j = s.core j := (rfl)
@[simp] theorem State.setCtx_rslot (c : Nat) (x : Ctx) (j : Nat) : (s.setCtx c x).rslot j = s.rslot j := (rfl)
@[simp] theorem State.setCtx_group (c : Nat) (x : Ctx) (j : Nat) : (s.setCtx c x).group j = s.group j := (rfl)
@[simp] theorem State.setCtx_source (c : Nat) (x : Ctx) (j : Nat) : (s.setCtx c x).source j = s.source j := (rfl)
@[simp] theorem State.setCtx_brk (c : Nat) (x : Ctx) (j : Nat) : (s.setCtx c x).brk j = s.brk j := (rfl)
@[simp] theorem State.setCtx_now (c : Nat) (x : Ctx) : (s.setCtx c x).now = s.now := (rfl)
@[simp] theorem State.setCtx_up (c : Nat) (x : Ctx) : (s.setCtx c x).up = s.up := (rfl)
@[simp] theorem State.setCtx_working (c : Nat) (x : Ctx) : (s.setCtx c x).working = s.working := (rfl)
@[simp] theorem State.setCtx_trimmed (c : Nat) (x : Ctx) : (s.setCtx c x).trimmed = s.trimmed := (rfl)
@[simp] theorem State.setCtx_powered (c : Nat) (x : Ctx) : (s.setCtx c x).powered = s.powered := (rfl)

/-! ### State.modCtx -/

@[simp] theorem State.modCtx_pending (c : Nat) (f : Ctx → Ctx) : (s.modCtx c f).pending = s.pending := (rfl)
@[simp] theorem State.modCtx_heldCmds (c : Nat) (f : Ctx → Ctx) : (s.modCtx c f).heldCmds = s.heldCmds := (rfl)
@[simp] theorem State.modCtx_heldFrom (c : Nat) (f : Ctx → Ctx) : (s.modCtx c f).heldFrom = s.heldFrom := (rfl)
@[simp] theorem State.modCtx_out (c : Nat) (f : Ctx → Ctx) : (s.modCtx c f).out = s.out := (rfl)
@[simp] theorem State.modCtx_free (c : Nat) (f : Ctx → Ctx) : (s.modCtx c f).free = s.free := (rfl)
@[simp] theorem State.modCtx_stamp (c : Nat) (f : Ctx → Ctx) : (s.modCtx c f).stamp = s.stamp := (rfl)
@[simp] theorem State.modCtx_power (c : Nat) (f : Ctx → Ctx) : (s.modCtx c f).power = s.power := (rfl)
@[simp] theorem State.modCtx_usec (c : Nat) (f : Ctx → Ctx) : (s.modCtx c f).usec = s.usec := (rfl)
@[simp] theorem State.modCtx_fuses (c : Nat) (f : Ctx → Ctx) : (s.modCtx c f).fuses = s.fuses := (rfl)
@[simp] theorem State.modCtx_trim (c : Nat) (f : Ctx → Ctx) : (s.modCtx c f).trim = s.trim := (rfl)
@[simp] theorem State.modCtx_clocks (c : Nat) (f : Ctx → Ctx) : (s.modCtx c f).clocks = s.clocks := (rfl)
@[simp] theorem State.modCtx_charge (c : Nat) (f : Ctx → Ctx) : (s.modCtx c f).charge = s.charge := (rfl)
@[simp] theorem State.modCtx_regs (c : Nat) (f : Ctx → Ctx) : (s.modCtx c f).regs = s.regs := (rfl)
@[simp] theorem State.modCtx_latches (c : Nat) (f : Ctx → Ctx) : (s.modCtx c f).latches = s.latches := (rfl)
@[simp] theorem State.modCtx_queues (c : Nat) (f : Ctx → Ctx) : (s.modCtx c f).queues = s.queues := (rfl)
@[simp] theorem State.modCtx_fetchLast (c : Nat) (f : Ctx → Ctx) : (s.modCtx c f).fetchLast = s.fetchLast := (rfl)
@[simp] theorem State.modCtx_fabric (c : Nat) (f : Ctx → Ctx) : (s.modCtx c f).fabric = s.fabric := (rfl)
@[simp] theorem State.modCtx_nodes (c : Nat) (f : Ctx → Ctx) : (s.modCtx c f).nodes = s.nodes := (rfl)
@[simp] theorem State.modCtx_furrows (c : Nat) (f : Ctx → Ctx) : (s.modCtx c f).furrows = s.furrows := (rfl)
@[simp] theorem State.modCtx_admits (c : Nat) (f : Ctx → Ctx) : (s.modCtx c f).admits = s.admits := (rfl)
@[simp] theorem State.modCtx_flying (c : Nat) (f : Ctx → Ctx) : (s.modCtx c f).flying = s.flying := (rfl)
@[simp] theorem State.modCtx_reports (c : Nat) (f : Ctx → Ctx) : (s.modCtx c f).reports = s.reports := (rfl)
@[simp] theorem State.modCtx_nextIssue (c : Nat) (f : Ctx → Ctx) : (s.modCtx c f).nextIssue = s.nextIssue := (rfl)
@[simp] theorem State.modCtx_slots (c : Nat) (f : Ctx → Ctx) : (s.modCtx c f).slots = s.slots := (rfl)
@[simp] theorem State.modCtx_oldSlots (c : Nat) (f : Ctx → Ctx) : (s.modCtx c f).oldSlots = s.oldSlots := (rfl)
@[simp] theorem State.modCtx_oldRetired (c : Nat) (f : Ctx → Ctx) : (s.modCtx c f).oldRetired = s.oldRetired := (rfl)
@[simp] theorem State.modCtx_stewardQ (c : Nat) (f : Ctx → Ctx) : (s.modCtx c f).stewardQ = s.stewardQ := (rfl)
@[simp] theorem State.modCtx_objects (c : Nat) (f : Ctx → Ctx) : (s.modCtx c f).objects = s.objects := (rfl)
@[simp] theorem State.modCtx_waiters (c : Nat) (f : Ctx → Ctx) : (s.modCtx c f).waiters = s.waiters := (rfl)
@[simp] theorem State.modCtx_remoteOps (c : Nat) (f : Ctx → Ctx) : (s.modCtx c f).remoteOps = s.remoteOps := (rfl)
@[simp] theorem State.modCtx_nextMsg (c : Nat) (f : Ctx → Ctx) : (s.modCtx c f).nextMsg = s.nextMsg := (rfl)
@[simp] theorem State.modCtx_hivestat (c : Nat) (f : Ctx → Ctx) : (s.modCtx c f).hivestat = s.hivestat := (rfl)
@[simp] theorem State.modCtx_debug (c : Nat) (f : Ctx → Ctx) : (s.modCtx c f).debug = s.debug := (rfl)
@[simp] theorem State.modCtx_lent (c : Nat) (f : Ctx → Ctx) : (s.modCtx c f).lent = s.lent := (rfl)
@[simp] theorem State.modCtx_parts (c : Nat) (f : Ctx → Ctx) : (s.modCtx c f).parts = s.parts := (rfl)
@[simp] theorem State.modCtx_tears (c : Nat) (f : Ctx → Ctx) : (s.modCtx c f).tears = s.tears := (rfl)
@[simp] theorem State.modCtx_cores (c : Nat) (f : Ctx → Ctx) : (s.modCtx c f).cores = s.cores := (rfl)
@[simp] theorem State.modCtx_phys (c : Nat) (f : Ctx → Ctx) : (s.modCtx c f).phys = s.phys := (rfl)
@[simp] theorem State.modCtx_routines (c : Nat) (f : Ctx → Ctx) : (s.modCtx c f).routines = s.routines := (rfl)
@[simp] theorem State.modCtx_agents (c : Nat) (f : Ctx → Ctx) : (s.modCtx c f).agents = s.agents := (rfl)
@[simp] theorem State.modCtx_dirs (c : Nat) (f : Ctx → Ctx) : (s.modCtx c f).dirs = s.dirs := (rfl)
@[simp] theorem State.modCtx_net (c : Nat) (f : Ctx → Ctx) : (s.modCtx c f).net = s.net := (rfl)
@[simp] theorem State.modCtx_intake (c : Nat) (f : Ctx → Ctx) : (s.modCtx c f).intake = s.intake := (rfl)
@[simp] theorem State.modCtx_lineWork (c : Nat) (f : Ctx → Ctx) : (s.modCtx c f).lineWork = s.lineWork := (rfl)
@[simp] theorem State.modCtx_reads (c : Nat) (f : Ctx → Ctx) : (s.modCtx c f).reads = s.reads := (rfl)
@[simp] theorem State.modCtx_faults (c : Nat) (f : Ctx → Ctx) : (s.modCtx c f).faults = s.faults := (rfl)
@[simp] theorem State.modCtx_recov (c : Nat) (f : Ctx → Ctx) : (s.modCtx c f).recov = s.recov := (rfl)
@[simp] theorem State.modCtx_groups (c : Nat) (f : Ctx → Ctx) : (s.modCtx c f).groups = s.groups := (rfl)
@[simp] theorem State.modCtx_stale (c : Nat) (f : Ctx → Ctx) : (s.modCtx c f).stale = s.stale := (rfl)
@[simp] theorem State.modCtx_fence (c : Nat) (f : Ctx → Ctx) : (s.modCtx c f).fence = s.fence := (rfl)
@[simp] theorem State.modCtx_audit (c : Nat) (f : Ctx → Ctx) : (s.modCtx c f).audit = s.audit := (rfl)
@[simp] theorem State.modCtx_trace (c : Nat) (f : Ctx → Ctx) : (s.modCtx c f).trace = s.trace := (rfl)
@[simp] theorem State.modCtx_breaks (c : Nat) (f : Ctx → Ctx) : (s.modCtx c f).breaks = s.breaks := (rfl)
@[simp] theorem State.modCtx_life (c : Nat) (f : Ctx → Ctx) : (s.modCtx c f).life = s.life := (rfl)
@[simp] theorem State.modCtx_plaliveOn (c : Nat) (f : Ctx → Ctx) : (s.modCtx c f).plaliveOn = s.plaliveOn := (rfl)
@[simp] theorem State.modCtx_plalive (c : Nat) (f : Ctx → Ctx) : (s.modCtx c f).plalive = s.plalive := (rfl)
@[simp] theorem State.modCtx_aliveDue (c : Nat) (f : Ctx → Ctx) : (s.modCtx c f).aliveDue = s.aliveDue := (rfl)
@[simp] theorem State.modCtx_plfault (c : Nat) (f : Ctx → Ctx) : (s.modCtx c f).plfault = s.plfault := (rfl)
@[simp] theorem State.modCtx_queue (c : Nat) (f : Ctx → Ctx) (j : Nat) : (s.modCtx c f).queue j = s.queue j := (rfl)
@[simp] theorem State.modCtx_node (c : Nat) (f : Ctx → Ctx) (j : Nat) : (s.modCtx c f).node j = s.node j := (rfl)
@[simp] theorem State.modCtx_furrow (c : Nat) (f : Ctx → Ctx) (j : Nat) : (s.modCtx c f).furrow j = s.furrow j := (rfl)
@[simp] theorem State.modCtx_slot (c : Nat) (f : Ctx → Ctx) (j : Nat) : (s.modCtx c f).slot j = s.slot j := (rfl)
@[simp] theorem State.modCtx_obj (c : Nat) (f : Ctx → Ctx) (j : Nat) : (s.modCtx c f).obj j = s.obj j := (rfl)
@[simp] theorem State.modCtx_waitersOf (c : Nat) (f : Ctx → Ctx) (j : Nat) : (s.modCtx c f).waitersOf j = s.waitersOf j := (rfl)
@[simp] theorem State.modCtx_part (c : Nat) (f : Ctx → Ctx) (j : Nat) : (s.modCtx c f).part j = s.part j := (rfl)
@[simp] theorem State.modCtx_core (c : Nat) (f : Ctx → Ctx) (j : Nat) : (s.modCtx c f).core j = s.core j := (rfl)
@[simp] theorem State.modCtx_rslot (c : Nat) (f : Ctx → Ctx) (j : Nat) : (s.modCtx c f).rslot j = s.rslot j := (rfl)
@[simp] theorem State.modCtx_group (c : Nat) (f : Ctx → Ctx) (j : Nat) : (s.modCtx c f).group j = s.group j := (rfl)
@[simp] theorem State.modCtx_source (c : Nat) (f : Ctx → Ctx) (j : Nat) : (s.modCtx c f).source j = s.source j := (rfl)
@[simp] theorem State.modCtx_brk (c : Nat) (f : Ctx → Ctx) (j : Nat) : (s.modCtx c f).brk j = s.brk j := (rfl)
@[simp] theorem State.modCtx_now (c : Nat) (f : Ctx → Ctx) : (s.modCtx c f).now = s.now := (rfl)
@[simp] theorem State.modCtx_up (c : Nat) (f : Ctx → Ctx) : (s.modCtx c f).up = s.up := (rfl)
@[simp] theorem State.modCtx_working (c : Nat) (f : Ctx → Ctx) : (s.modCtx c f).working = s.working := (rfl)
@[simp] theorem State.modCtx_trimmed (c : Nat) (f : Ctx → Ctx) : (s.modCtx c f).trimmed = s.trimmed := (rfl)
@[simp] theorem State.modCtx_powered (c : Nat) (f : Ctx → Ctx) : (s.modCtx c f).powered = s.powered := (rfl)

/-! ### State.modAcct -/

@[simp] theorem State.modAcct_pending (c : Nat) (f : Acct → Acct) : (s.modAcct c f).pending = s.pending := (rfl)
@[simp] theorem State.modAcct_heldCmds (c : Nat) (f : Acct → Acct) : (s.modAcct c f).heldCmds = s.heldCmds := (rfl)
@[simp] theorem State.modAcct_heldFrom (c : Nat) (f : Acct → Acct) : (s.modAcct c f).heldFrom = s.heldFrom := (rfl)
@[simp] theorem State.modAcct_out (c : Nat) (f : Acct → Acct) : (s.modAcct c f).out = s.out := (rfl)
@[simp] theorem State.modAcct_free (c : Nat) (f : Acct → Acct) : (s.modAcct c f).free = s.free := (rfl)
@[simp] theorem State.modAcct_stamp (c : Nat) (f : Acct → Acct) : (s.modAcct c f).stamp = s.stamp := (rfl)
@[simp] theorem State.modAcct_power (c : Nat) (f : Acct → Acct) : (s.modAcct c f).power = s.power := (rfl)
@[simp] theorem State.modAcct_usec (c : Nat) (f : Acct → Acct) : (s.modAcct c f).usec = s.usec := (rfl)
@[simp] theorem State.modAcct_fuses (c : Nat) (f : Acct → Acct) : (s.modAcct c f).fuses = s.fuses := (rfl)
@[simp] theorem State.modAcct_trim (c : Nat) (f : Acct → Acct) : (s.modAcct c f).trim = s.trim := (rfl)
@[simp] theorem State.modAcct_clocks (c : Nat) (f : Acct → Acct) : (s.modAcct c f).clocks = s.clocks := (rfl)
@[simp] theorem State.modAcct_charge (c : Nat) (f : Acct → Acct) : (s.modAcct c f).charge = s.charge := (rfl)
@[simp] theorem State.modAcct_regs (c : Nat) (f : Acct → Acct) : (s.modAcct c f).regs = s.regs := (rfl)
@[simp] theorem State.modAcct_latches (c : Nat) (f : Acct → Acct) : (s.modAcct c f).latches = s.latches := (rfl)
@[simp] theorem State.modAcct_queues (c : Nat) (f : Acct → Acct) : (s.modAcct c f).queues = s.queues := (rfl)
@[simp] theorem State.modAcct_fetchLast (c : Nat) (f : Acct → Acct) : (s.modAcct c f).fetchLast = s.fetchLast := (rfl)
@[simp] theorem State.modAcct_fabric (c : Nat) (f : Acct → Acct) : (s.modAcct c f).fabric = s.fabric := (rfl)
@[simp] theorem State.modAcct_nodes (c : Nat) (f : Acct → Acct) : (s.modAcct c f).nodes = s.nodes := (rfl)
@[simp] theorem State.modAcct_furrows (c : Nat) (f : Acct → Acct) : (s.modAcct c f).furrows = s.furrows := (rfl)
@[simp] theorem State.modAcct_admits (c : Nat) (f : Acct → Acct) : (s.modAcct c f).admits = s.admits := (rfl)
@[simp] theorem State.modAcct_flying (c : Nat) (f : Acct → Acct) : (s.modAcct c f).flying = s.flying := (rfl)
@[simp] theorem State.modAcct_reports (c : Nat) (f : Acct → Acct) : (s.modAcct c f).reports = s.reports := (rfl)
@[simp] theorem State.modAcct_nextIssue (c : Nat) (f : Acct → Acct) : (s.modAcct c f).nextIssue = s.nextIssue := (rfl)
@[simp] theorem State.modAcct_slots (c : Nat) (f : Acct → Acct) : (s.modAcct c f).slots = s.slots := (rfl)
@[simp] theorem State.modAcct_oldSlots (c : Nat) (f : Acct → Acct) : (s.modAcct c f).oldSlots = s.oldSlots := (rfl)
@[simp] theorem State.modAcct_oldRetired (c : Nat) (f : Acct → Acct) : (s.modAcct c f).oldRetired = s.oldRetired := (rfl)
@[simp] theorem State.modAcct_stewardQ (c : Nat) (f : Acct → Acct) : (s.modAcct c f).stewardQ = s.stewardQ := (rfl)
@[simp] theorem State.modAcct_objects (c : Nat) (f : Acct → Acct) : (s.modAcct c f).objects = s.objects := (rfl)
@[simp] theorem State.modAcct_waiters (c : Nat) (f : Acct → Acct) : (s.modAcct c f).waiters = s.waiters := (rfl)
@[simp] theorem State.modAcct_remoteOps (c : Nat) (f : Acct → Acct) : (s.modAcct c f).remoteOps = s.remoteOps := (rfl)
@[simp] theorem State.modAcct_nextMsg (c : Nat) (f : Acct → Acct) : (s.modAcct c f).nextMsg = s.nextMsg := (rfl)
@[simp] theorem State.modAcct_hivestat (c : Nat) (f : Acct → Acct) : (s.modAcct c f).hivestat = s.hivestat := (rfl)
@[simp] theorem State.modAcct_debug (c : Nat) (f : Acct → Acct) : (s.modAcct c f).debug = s.debug := (rfl)
@[simp] theorem State.modAcct_lent (c : Nat) (f : Acct → Acct) : (s.modAcct c f).lent = s.lent := (rfl)
@[simp] theorem State.modAcct_parts (c : Nat) (f : Acct → Acct) : (s.modAcct c f).parts = s.parts := (rfl)
@[simp] theorem State.modAcct_tears (c : Nat) (f : Acct → Acct) : (s.modAcct c f).tears = s.tears := (rfl)
@[simp] theorem State.modAcct_cores (c : Nat) (f : Acct → Acct) : (s.modAcct c f).cores = s.cores := (rfl)
@[simp] theorem State.modAcct_phys (c : Nat) (f : Acct → Acct) : (s.modAcct c f).phys = s.phys := (rfl)
@[simp] theorem State.modAcct_routines (c : Nat) (f : Acct → Acct) : (s.modAcct c f).routines = s.routines := (rfl)
@[simp] theorem State.modAcct_agents (c : Nat) (f : Acct → Acct) : (s.modAcct c f).agents = s.agents := (rfl)
@[simp] theorem State.modAcct_dirs (c : Nat) (f : Acct → Acct) : (s.modAcct c f).dirs = s.dirs := (rfl)
@[simp] theorem State.modAcct_net (c : Nat) (f : Acct → Acct) : (s.modAcct c f).net = s.net := (rfl)
@[simp] theorem State.modAcct_intake (c : Nat) (f : Acct → Acct) : (s.modAcct c f).intake = s.intake := (rfl)
@[simp] theorem State.modAcct_lineWork (c : Nat) (f : Acct → Acct) : (s.modAcct c f).lineWork = s.lineWork := (rfl)
@[simp] theorem State.modAcct_reads (c : Nat) (f : Acct → Acct) : (s.modAcct c f).reads = s.reads := (rfl)
@[simp] theorem State.modAcct_faults (c : Nat) (f : Acct → Acct) : (s.modAcct c f).faults = s.faults := (rfl)
@[simp] theorem State.modAcct_recov (c : Nat) (f : Acct → Acct) : (s.modAcct c f).recov = s.recov := (rfl)
@[simp] theorem State.modAcct_groups (c : Nat) (f : Acct → Acct) : (s.modAcct c f).groups = s.groups := (rfl)
@[simp] theorem State.modAcct_stale (c : Nat) (f : Acct → Acct) : (s.modAcct c f).stale = s.stale := (rfl)
@[simp] theorem State.modAcct_fence (c : Nat) (f : Acct → Acct) : (s.modAcct c f).fence = s.fence := (rfl)
@[simp] theorem State.modAcct_audit (c : Nat) (f : Acct → Acct) : (s.modAcct c f).audit = s.audit := (rfl)
@[simp] theorem State.modAcct_trace (c : Nat) (f : Acct → Acct) : (s.modAcct c f).trace = s.trace := (rfl)
@[simp] theorem State.modAcct_breaks (c : Nat) (f : Acct → Acct) : (s.modAcct c f).breaks = s.breaks := (rfl)
@[simp] theorem State.modAcct_life (c : Nat) (f : Acct → Acct) : (s.modAcct c f).life = s.life := (rfl)
@[simp] theorem State.modAcct_plaliveOn (c : Nat) (f : Acct → Acct) : (s.modAcct c f).plaliveOn = s.plaliveOn := (rfl)
@[simp] theorem State.modAcct_plalive (c : Nat) (f : Acct → Acct) : (s.modAcct c f).plalive = s.plalive := (rfl)
@[simp] theorem State.modAcct_aliveDue (c : Nat) (f : Acct → Acct) : (s.modAcct c f).aliveDue = s.aliveDue := (rfl)
@[simp] theorem State.modAcct_plfault (c : Nat) (f : Acct → Acct) : (s.modAcct c f).plfault = s.plfault := (rfl)
@[simp] theorem State.modAcct_queue (c : Nat) (f : Acct → Acct) (j : Nat) : (s.modAcct c f).queue j = s.queue j := (rfl)
@[simp] theorem State.modAcct_node (c : Nat) (f : Acct → Acct) (j : Nat) : (s.modAcct c f).node j = s.node j := (rfl)
@[simp] theorem State.modAcct_furrow (c : Nat) (f : Acct → Acct) (j : Nat) : (s.modAcct c f).furrow j = s.furrow j := (rfl)
@[simp] theorem State.modAcct_slot (c : Nat) (f : Acct → Acct) (j : Nat) : (s.modAcct c f).slot j = s.slot j := (rfl)
@[simp] theorem State.modAcct_obj (c : Nat) (f : Acct → Acct) (j : Nat) : (s.modAcct c f).obj j = s.obj j := (rfl)
@[simp] theorem State.modAcct_waitersOf (c : Nat) (f : Acct → Acct) (j : Nat) : (s.modAcct c f).waitersOf j = s.waitersOf j := (rfl)
@[simp] theorem State.modAcct_part (c : Nat) (f : Acct → Acct) (j : Nat) : (s.modAcct c f).part j = s.part j := (rfl)
@[simp] theorem State.modAcct_core (c : Nat) (f : Acct → Acct) (j : Nat) : (s.modAcct c f).core j = s.core j := (rfl)
@[simp] theorem State.modAcct_rslot (c : Nat) (f : Acct → Acct) (j : Nat) : (s.modAcct c f).rslot j = s.rslot j := (rfl)
@[simp] theorem State.modAcct_group (c : Nat) (f : Acct → Acct) (j : Nat) : (s.modAcct c f).group j = s.group j := (rfl)
@[simp] theorem State.modAcct_source (c : Nat) (f : Acct → Acct) (j : Nat) : (s.modAcct c f).source j = s.source j := (rfl)
@[simp] theorem State.modAcct_brk (c : Nat) (f : Acct → Acct) (j : Nat) : (s.modAcct c f).brk j = s.brk j := (rfl)
@[simp] theorem State.modAcct_now (c : Nat) (f : Acct → Acct) : (s.modAcct c f).now = s.now := (rfl)
@[simp] theorem State.modAcct_up (c : Nat) (f : Acct → Acct) : (s.modAcct c f).up = s.up := (rfl)
@[simp] theorem State.modAcct_working (c : Nat) (f : Acct → Acct) : (s.modAcct c f).working = s.working := (rfl)
@[simp] theorem State.modAcct_trimmed (c : Nat) (f : Acct → Acct) : (s.modAcct c f).trimmed = s.trimmed := (rfl)
@[simp] theorem State.modAcct_powered (c : Nat) (f : Acct → Acct) : (s.modAcct c f).powered = s.powered := (rfl)

/-! ### State.setPart -/

@[simp] theorem State.setPart_pending (p : Nat) (x : Partition) : (s.setPart p x).pending = s.pending := (rfl)
@[simp] theorem State.setPart_heldCmds (p : Nat) (x : Partition) : (s.setPart p x).heldCmds = s.heldCmds := (rfl)
@[simp] theorem State.setPart_heldFrom (p : Nat) (x : Partition) : (s.setPart p x).heldFrom = s.heldFrom := (rfl)
@[simp] theorem State.setPart_out (p : Nat) (x : Partition) : (s.setPart p x).out = s.out := (rfl)
@[simp] theorem State.setPart_free (p : Nat) (x : Partition) : (s.setPart p x).free = s.free := (rfl)
@[simp] theorem State.setPart_stamp (p : Nat) (x : Partition) : (s.setPart p x).stamp = s.stamp := (rfl)
@[simp] theorem State.setPart_power (p : Nat) (x : Partition) : (s.setPart p x).power = s.power := (rfl)
@[simp] theorem State.setPart_usec (p : Nat) (x : Partition) : (s.setPart p x).usec = s.usec := (rfl)
@[simp] theorem State.setPart_fuses (p : Nat) (x : Partition) : (s.setPart p x).fuses = s.fuses := (rfl)
@[simp] theorem State.setPart_trim (p : Nat) (x : Partition) : (s.setPart p x).trim = s.trim := (rfl)
@[simp] theorem State.setPart_clocks (p : Nat) (x : Partition) : (s.setPart p x).clocks = s.clocks := (rfl)
@[simp] theorem State.setPart_charge (p : Nat) (x : Partition) : (s.setPart p x).charge = s.charge := (rfl)
@[simp] theorem State.setPart_regs (p : Nat) (x : Partition) : (s.setPart p x).regs = s.regs := (rfl)
@[simp] theorem State.setPart_latches (p : Nat) (x : Partition) : (s.setPart p x).latches = s.latches := (rfl)
@[simp] theorem State.setPart_queues (p : Nat) (x : Partition) : (s.setPart p x).queues = s.queues := (rfl)
@[simp] theorem State.setPart_fetchLast (p : Nat) (x : Partition) : (s.setPart p x).fetchLast = s.fetchLast := (rfl)
@[simp] theorem State.setPart_fabric (p : Nat) (x : Partition) : (s.setPart p x).fabric = s.fabric := (rfl)
@[simp] theorem State.setPart_nodes (p : Nat) (x : Partition) : (s.setPart p x).nodes = s.nodes := (rfl)
@[simp] theorem State.setPart_furrows (p : Nat) (x : Partition) : (s.setPart p x).furrows = s.furrows := (rfl)
@[simp] theorem State.setPart_admits (p : Nat) (x : Partition) : (s.setPart p x).admits = s.admits := (rfl)
@[simp] theorem State.setPart_flying (p : Nat) (x : Partition) : (s.setPart p x).flying = s.flying := (rfl)
@[simp] theorem State.setPart_reports (p : Nat) (x : Partition) : (s.setPart p x).reports = s.reports := (rfl)
@[simp] theorem State.setPart_nextIssue (p : Nat) (x : Partition) : (s.setPart p x).nextIssue = s.nextIssue := (rfl)
@[simp] theorem State.setPart_slots (p : Nat) (x : Partition) : (s.setPart p x).slots = s.slots := (rfl)
@[simp] theorem State.setPart_oldSlots (p : Nat) (x : Partition) : (s.setPart p x).oldSlots = s.oldSlots := (rfl)
@[simp] theorem State.setPart_oldRetired (p : Nat) (x : Partition) : (s.setPart p x).oldRetired = s.oldRetired := (rfl)
@[simp] theorem State.setPart_stewardQ (p : Nat) (x : Partition) : (s.setPart p x).stewardQ = s.stewardQ := (rfl)
@[simp] theorem State.setPart_objects (p : Nat) (x : Partition) : (s.setPart p x).objects = s.objects := (rfl)
@[simp] theorem State.setPart_waiters (p : Nat) (x : Partition) : (s.setPart p x).waiters = s.waiters := (rfl)
@[simp] theorem State.setPart_remoteOps (p : Nat) (x : Partition) : (s.setPart p x).remoteOps = s.remoteOps := (rfl)
@[simp] theorem State.setPart_nextMsg (p : Nat) (x : Partition) : (s.setPart p x).nextMsg = s.nextMsg := (rfl)
@[simp] theorem State.setPart_hivestat (p : Nat) (x : Partition) : (s.setPart p x).hivestat = s.hivestat := (rfl)
@[simp] theorem State.setPart_debug (p : Nat) (x : Partition) : (s.setPart p x).debug = s.debug := (rfl)
@[simp] theorem State.setPart_lent (p : Nat) (x : Partition) : (s.setPart p x).lent = s.lent := (rfl)
@[simp] theorem State.setPart_ctxs (p : Nat) (x : Partition) : (s.setPart p x).ctxs = s.ctxs := (rfl)
@[simp] theorem State.setPart_tears (p : Nat) (x : Partition) : (s.setPart p x).tears = s.tears := (rfl)
@[simp] theorem State.setPart_cores (p : Nat) (x : Partition) : (s.setPart p x).cores = s.cores := (rfl)
@[simp] theorem State.setPart_phys (p : Nat) (x : Partition) : (s.setPart p x).phys = s.phys := (rfl)
@[simp] theorem State.setPart_routines (p : Nat) (x : Partition) : (s.setPart p x).routines = s.routines := (rfl)
@[simp] theorem State.setPart_agents (p : Nat) (x : Partition) : (s.setPart p x).agents = s.agents := (rfl)
@[simp] theorem State.setPart_dirs (p : Nat) (x : Partition) : (s.setPart p x).dirs = s.dirs := (rfl)
@[simp] theorem State.setPart_net (p : Nat) (x : Partition) : (s.setPart p x).net = s.net := (rfl)
@[simp] theorem State.setPart_intake (p : Nat) (x : Partition) : (s.setPart p x).intake = s.intake := (rfl)
@[simp] theorem State.setPart_lineWork (p : Nat) (x : Partition) : (s.setPart p x).lineWork = s.lineWork := (rfl)
@[simp] theorem State.setPart_reads (p : Nat) (x : Partition) : (s.setPart p x).reads = s.reads := (rfl)
@[simp] theorem State.setPart_faults (p : Nat) (x : Partition) : (s.setPart p x).faults = s.faults := (rfl)
@[simp] theorem State.setPart_recov (p : Nat) (x : Partition) : (s.setPart p x).recov = s.recov := (rfl)
@[simp] theorem State.setPart_groups (p : Nat) (x : Partition) : (s.setPart p x).groups = s.groups := (rfl)
@[simp] theorem State.setPart_stale (p : Nat) (x : Partition) : (s.setPart p x).stale = s.stale := (rfl)
@[simp] theorem State.setPart_fence (p : Nat) (x : Partition) : (s.setPart p x).fence = s.fence := (rfl)
@[simp] theorem State.setPart_audit (p : Nat) (x : Partition) : (s.setPart p x).audit = s.audit := (rfl)
@[simp] theorem State.setPart_trace (p : Nat) (x : Partition) : (s.setPart p x).trace = s.trace := (rfl)
@[simp] theorem State.setPart_breaks (p : Nat) (x : Partition) : (s.setPart p x).breaks = s.breaks := (rfl)
@[simp] theorem State.setPart_life (p : Nat) (x : Partition) : (s.setPart p x).life = s.life := (rfl)
@[simp] theorem State.setPart_plaliveOn (p : Nat) (x : Partition) : (s.setPart p x).plaliveOn = s.plaliveOn := (rfl)
@[simp] theorem State.setPart_plalive (p : Nat) (x : Partition) : (s.setPart p x).plalive = s.plalive := (rfl)
@[simp] theorem State.setPart_aliveDue (p : Nat) (x : Partition) : (s.setPart p x).aliveDue = s.aliveDue := (rfl)
@[simp] theorem State.setPart_plfault (p : Nat) (x : Partition) : (s.setPart p x).plfault = s.plfault := (rfl)
@[simp] theorem State.setPart_queue (p : Nat) (x : Partition) (j : Nat) : (s.setPart p x).queue j = s.queue j := (rfl)
@[simp] theorem State.setPart_node (p : Nat) (x : Partition) (j : Nat) : (s.setPart p x).node j = s.node j := (rfl)
@[simp] theorem State.setPart_furrow (p : Nat) (x : Partition) (j : Nat) : (s.setPart p x).furrow j = s.furrow j := (rfl)
@[simp] theorem State.setPart_slot (p : Nat) (x : Partition) (j : Nat) : (s.setPart p x).slot j = s.slot j := (rfl)
@[simp] theorem State.setPart_obj (p : Nat) (x : Partition) (j : Nat) : (s.setPart p x).obj j = s.obj j := (rfl)
@[simp] theorem State.setPart_waitersOf (p : Nat) (x : Partition) (j : Nat) : (s.setPart p x).waitersOf j = s.waitersOf j := (rfl)
@[simp] theorem State.setPart_ctx (p : Nat) (x : Partition) (j : Nat) : (s.setPart p x).ctx j = s.ctx j := (rfl)
@[simp] theorem State.setPart_core (p : Nat) (x : Partition) (j : Nat) : (s.setPart p x).core j = s.core j := (rfl)
@[simp] theorem State.setPart_rslot (p : Nat) (x : Partition) (j : Nat) : (s.setPart p x).rslot j = s.rslot j := (rfl)
@[simp] theorem State.setPart_group (p : Nat) (x : Partition) (j : Nat) : (s.setPart p x).group j = s.group j := (rfl)
@[simp] theorem State.setPart_source (p : Nat) (x : Partition) (j : Nat) : (s.setPart p x).source j = s.source j := (rfl)
@[simp] theorem State.setPart_brk (p : Nat) (x : Partition) (j : Nat) : (s.setPart p x).brk j = s.brk j := (rfl)
@[simp] theorem State.setPart_now (p : Nat) (x : Partition) : (s.setPart p x).now = s.now := (rfl)
@[simp] theorem State.setPart_up (p : Nat) (x : Partition) : (s.setPart p x).up = s.up := (rfl)
@[simp] theorem State.setPart_working (p : Nat) (x : Partition) : (s.setPart p x).working = s.working := (rfl)
@[simp] theorem State.setPart_trimmed (p : Nat) (x : Partition) : (s.setPart p x).trimmed = s.trimmed := (rfl)
@[simp] theorem State.setPart_powered (p : Nat) (x : Partition) : (s.setPart p x).powered = s.powered := (rfl)

/-! ### State.setCore -/

@[simp] theorem State.setCore_pending (k : Nat) (x : Core) : (s.setCore k x).pending = s.pending := (rfl)
@[simp] theorem State.setCore_heldCmds (k : Nat) (x : Core) : (s.setCore k x).heldCmds = s.heldCmds := (rfl)
@[simp] theorem State.setCore_heldFrom (k : Nat) (x : Core) : (s.setCore k x).heldFrom = s.heldFrom := (rfl)
@[simp] theorem State.setCore_out (k : Nat) (x : Core) : (s.setCore k x).out = s.out := (rfl)
@[simp] theorem State.setCore_free (k : Nat) (x : Core) : (s.setCore k x).free = s.free := (rfl)
@[simp] theorem State.setCore_stamp (k : Nat) (x : Core) : (s.setCore k x).stamp = s.stamp := (rfl)
@[simp] theorem State.setCore_power (k : Nat) (x : Core) : (s.setCore k x).power = s.power := (rfl)
@[simp] theorem State.setCore_usec (k : Nat) (x : Core) : (s.setCore k x).usec = s.usec := (rfl)
@[simp] theorem State.setCore_fuses (k : Nat) (x : Core) : (s.setCore k x).fuses = s.fuses := (rfl)
@[simp] theorem State.setCore_trim (k : Nat) (x : Core) : (s.setCore k x).trim = s.trim := (rfl)
@[simp] theorem State.setCore_clocks (k : Nat) (x : Core) : (s.setCore k x).clocks = s.clocks := (rfl)
@[simp] theorem State.setCore_charge (k : Nat) (x : Core) : (s.setCore k x).charge = s.charge := (rfl)
@[simp] theorem State.setCore_regs (k : Nat) (x : Core) : (s.setCore k x).regs = s.regs := (rfl)
@[simp] theorem State.setCore_latches (k : Nat) (x : Core) : (s.setCore k x).latches = s.latches := (rfl)
@[simp] theorem State.setCore_queues (k : Nat) (x : Core) : (s.setCore k x).queues = s.queues := (rfl)
@[simp] theorem State.setCore_fetchLast (k : Nat) (x : Core) : (s.setCore k x).fetchLast = s.fetchLast := (rfl)
@[simp] theorem State.setCore_fabric (k : Nat) (x : Core) : (s.setCore k x).fabric = s.fabric := (rfl)
@[simp] theorem State.setCore_nodes (k : Nat) (x : Core) : (s.setCore k x).nodes = s.nodes := (rfl)
@[simp] theorem State.setCore_furrows (k : Nat) (x : Core) : (s.setCore k x).furrows = s.furrows := (rfl)
@[simp] theorem State.setCore_admits (k : Nat) (x : Core) : (s.setCore k x).admits = s.admits := (rfl)
@[simp] theorem State.setCore_flying (k : Nat) (x : Core) : (s.setCore k x).flying = s.flying := (rfl)
@[simp] theorem State.setCore_reports (k : Nat) (x : Core) : (s.setCore k x).reports = s.reports := (rfl)
@[simp] theorem State.setCore_nextIssue (k : Nat) (x : Core) : (s.setCore k x).nextIssue = s.nextIssue := (rfl)
@[simp] theorem State.setCore_slots (k : Nat) (x : Core) : (s.setCore k x).slots = s.slots := (rfl)
@[simp] theorem State.setCore_oldSlots (k : Nat) (x : Core) : (s.setCore k x).oldSlots = s.oldSlots := (rfl)
@[simp] theorem State.setCore_oldRetired (k : Nat) (x : Core) : (s.setCore k x).oldRetired = s.oldRetired := (rfl)
@[simp] theorem State.setCore_stewardQ (k : Nat) (x : Core) : (s.setCore k x).stewardQ = s.stewardQ := (rfl)
@[simp] theorem State.setCore_objects (k : Nat) (x : Core) : (s.setCore k x).objects = s.objects := (rfl)
@[simp] theorem State.setCore_waiters (k : Nat) (x : Core) : (s.setCore k x).waiters = s.waiters := (rfl)
@[simp] theorem State.setCore_remoteOps (k : Nat) (x : Core) : (s.setCore k x).remoteOps = s.remoteOps := (rfl)
@[simp] theorem State.setCore_nextMsg (k : Nat) (x : Core) : (s.setCore k x).nextMsg = s.nextMsg := (rfl)
@[simp] theorem State.setCore_hivestat (k : Nat) (x : Core) : (s.setCore k x).hivestat = s.hivestat := (rfl)
@[simp] theorem State.setCore_debug (k : Nat) (x : Core) : (s.setCore k x).debug = s.debug := (rfl)
@[simp] theorem State.setCore_lent (k : Nat) (x : Core) : (s.setCore k x).lent = s.lent := (rfl)
@[simp] theorem State.setCore_ctxs (k : Nat) (x : Core) : (s.setCore k x).ctxs = s.ctxs := (rfl)
@[simp] theorem State.setCore_parts (k : Nat) (x : Core) : (s.setCore k x).parts = s.parts := (rfl)
@[simp] theorem State.setCore_tears (k : Nat) (x : Core) : (s.setCore k x).tears = s.tears := (rfl)
@[simp] theorem State.setCore_phys (k : Nat) (x : Core) : (s.setCore k x).phys = s.phys := (rfl)
@[simp] theorem State.setCore_routines (k : Nat) (x : Core) : (s.setCore k x).routines = s.routines := (rfl)
@[simp] theorem State.setCore_agents (k : Nat) (x : Core) : (s.setCore k x).agents = s.agents := (rfl)
@[simp] theorem State.setCore_dirs (k : Nat) (x : Core) : (s.setCore k x).dirs = s.dirs := (rfl)
@[simp] theorem State.setCore_net (k : Nat) (x : Core) : (s.setCore k x).net = s.net := (rfl)
@[simp] theorem State.setCore_intake (k : Nat) (x : Core) : (s.setCore k x).intake = s.intake := (rfl)
@[simp] theorem State.setCore_lineWork (k : Nat) (x : Core) : (s.setCore k x).lineWork = s.lineWork := (rfl)
@[simp] theorem State.setCore_reads (k : Nat) (x : Core) : (s.setCore k x).reads = s.reads := (rfl)
@[simp] theorem State.setCore_faults (k : Nat) (x : Core) : (s.setCore k x).faults = s.faults := (rfl)
@[simp] theorem State.setCore_recov (k : Nat) (x : Core) : (s.setCore k x).recov = s.recov := (rfl)
@[simp] theorem State.setCore_groups (k : Nat) (x : Core) : (s.setCore k x).groups = s.groups := (rfl)
@[simp] theorem State.setCore_stale (k : Nat) (x : Core) : (s.setCore k x).stale = s.stale := (rfl)
@[simp] theorem State.setCore_fence (k : Nat) (x : Core) : (s.setCore k x).fence = s.fence := (rfl)
@[simp] theorem State.setCore_audit (k : Nat) (x : Core) : (s.setCore k x).audit = s.audit := (rfl)
@[simp] theorem State.setCore_trace (k : Nat) (x : Core) : (s.setCore k x).trace = s.trace := (rfl)
@[simp] theorem State.setCore_breaks (k : Nat) (x : Core) : (s.setCore k x).breaks = s.breaks := (rfl)
@[simp] theorem State.setCore_life (k : Nat) (x : Core) : (s.setCore k x).life = s.life := (rfl)
@[simp] theorem State.setCore_plaliveOn (k : Nat) (x : Core) : (s.setCore k x).plaliveOn = s.plaliveOn := (rfl)
@[simp] theorem State.setCore_plalive (k : Nat) (x : Core) : (s.setCore k x).plalive = s.plalive := (rfl)
@[simp] theorem State.setCore_aliveDue (k : Nat) (x : Core) : (s.setCore k x).aliveDue = s.aliveDue := (rfl)
@[simp] theorem State.setCore_plfault (k : Nat) (x : Core) : (s.setCore k x).plfault = s.plfault := (rfl)
@[simp] theorem State.setCore_queue (k : Nat) (x : Core) (j : Nat) : (s.setCore k x).queue j = s.queue j := (rfl)
@[simp] theorem State.setCore_node (k : Nat) (x : Core) (j : Nat) : (s.setCore k x).node j = s.node j := (rfl)
@[simp] theorem State.setCore_furrow (k : Nat) (x : Core) (j : Nat) : (s.setCore k x).furrow j = s.furrow j := (rfl)
@[simp] theorem State.setCore_slot (k : Nat) (x : Core) (j : Nat) : (s.setCore k x).slot j = s.slot j := (rfl)
@[simp] theorem State.setCore_obj (k : Nat) (x : Core) (j : Nat) : (s.setCore k x).obj j = s.obj j := (rfl)
@[simp] theorem State.setCore_waitersOf (k : Nat) (x : Core) (j : Nat) : (s.setCore k x).waitersOf j = s.waitersOf j := (rfl)
@[simp] theorem State.setCore_ctx (k : Nat) (x : Core) (j : Nat) : (s.setCore k x).ctx j = s.ctx j := (rfl)
@[simp] theorem State.setCore_part (k : Nat) (x : Core) (j : Nat) : (s.setCore k x).part j = s.part j := (rfl)
@[simp] theorem State.setCore_rslot (k : Nat) (x : Core) (j : Nat) : (s.setCore k x).rslot j = s.rslot j := (rfl)
@[simp] theorem State.setCore_group (k : Nat) (x : Core) (j : Nat) : (s.setCore k x).group j = s.group j := (rfl)
@[simp] theorem State.setCore_source (k : Nat) (x : Core) (j : Nat) : (s.setCore k x).source j = s.source j := (rfl)
@[simp] theorem State.setCore_brk (k : Nat) (x : Core) (j : Nat) : (s.setCore k x).brk j = s.brk j := (rfl)
@[simp] theorem State.setCore_now (k : Nat) (x : Core) : (s.setCore k x).now = s.now := (rfl)
@[simp] theorem State.setCore_up (k : Nat) (x : Core) : (s.setCore k x).up = s.up := (rfl)
@[simp] theorem State.setCore_working (k : Nat) (x : Core) : (s.setCore k x).working = s.working := (rfl)
@[simp] theorem State.setCore_trimmed (k : Nat) (x : Core) : (s.setCore k x).trimmed = s.trimmed := (rfl)
@[simp] theorem State.setCore_powered (k : Nat) (x : Core) : (s.setCore k x).powered = s.powered := (rfl)

/-! ### State.modCore -/

@[simp] theorem State.modCore_pending (k : Nat) (f : Core → Core) : (s.modCore k f).pending = s.pending := (rfl)
@[simp] theorem State.modCore_heldCmds (k : Nat) (f : Core → Core) : (s.modCore k f).heldCmds = s.heldCmds := (rfl)
@[simp] theorem State.modCore_heldFrom (k : Nat) (f : Core → Core) : (s.modCore k f).heldFrom = s.heldFrom := (rfl)
@[simp] theorem State.modCore_out (k : Nat) (f : Core → Core) : (s.modCore k f).out = s.out := (rfl)
@[simp] theorem State.modCore_free (k : Nat) (f : Core → Core) : (s.modCore k f).free = s.free := (rfl)
@[simp] theorem State.modCore_stamp (k : Nat) (f : Core → Core) : (s.modCore k f).stamp = s.stamp := (rfl)
@[simp] theorem State.modCore_power (k : Nat) (f : Core → Core) : (s.modCore k f).power = s.power := (rfl)
@[simp] theorem State.modCore_usec (k : Nat) (f : Core → Core) : (s.modCore k f).usec = s.usec := (rfl)
@[simp] theorem State.modCore_fuses (k : Nat) (f : Core → Core) : (s.modCore k f).fuses = s.fuses := (rfl)
@[simp] theorem State.modCore_trim (k : Nat) (f : Core → Core) : (s.modCore k f).trim = s.trim := (rfl)
@[simp] theorem State.modCore_clocks (k : Nat) (f : Core → Core) : (s.modCore k f).clocks = s.clocks := (rfl)
@[simp] theorem State.modCore_charge (k : Nat) (f : Core → Core) : (s.modCore k f).charge = s.charge := (rfl)
@[simp] theorem State.modCore_regs (k : Nat) (f : Core → Core) : (s.modCore k f).regs = s.regs := (rfl)
@[simp] theorem State.modCore_latches (k : Nat) (f : Core → Core) : (s.modCore k f).latches = s.latches := (rfl)
@[simp] theorem State.modCore_queues (k : Nat) (f : Core → Core) : (s.modCore k f).queues = s.queues := (rfl)
@[simp] theorem State.modCore_fetchLast (k : Nat) (f : Core → Core) : (s.modCore k f).fetchLast = s.fetchLast := (rfl)
@[simp] theorem State.modCore_fabric (k : Nat) (f : Core → Core) : (s.modCore k f).fabric = s.fabric := (rfl)
@[simp] theorem State.modCore_nodes (k : Nat) (f : Core → Core) : (s.modCore k f).nodes = s.nodes := (rfl)
@[simp] theorem State.modCore_furrows (k : Nat) (f : Core → Core) : (s.modCore k f).furrows = s.furrows := (rfl)
@[simp] theorem State.modCore_admits (k : Nat) (f : Core → Core) : (s.modCore k f).admits = s.admits := (rfl)
@[simp] theorem State.modCore_flying (k : Nat) (f : Core → Core) : (s.modCore k f).flying = s.flying := (rfl)
@[simp] theorem State.modCore_reports (k : Nat) (f : Core → Core) : (s.modCore k f).reports = s.reports := (rfl)
@[simp] theorem State.modCore_nextIssue (k : Nat) (f : Core → Core) : (s.modCore k f).nextIssue = s.nextIssue := (rfl)
@[simp] theorem State.modCore_slots (k : Nat) (f : Core → Core) : (s.modCore k f).slots = s.slots := (rfl)
@[simp] theorem State.modCore_oldSlots (k : Nat) (f : Core → Core) : (s.modCore k f).oldSlots = s.oldSlots := (rfl)
@[simp] theorem State.modCore_oldRetired (k : Nat) (f : Core → Core) : (s.modCore k f).oldRetired = s.oldRetired := (rfl)
@[simp] theorem State.modCore_stewardQ (k : Nat) (f : Core → Core) : (s.modCore k f).stewardQ = s.stewardQ := (rfl)
@[simp] theorem State.modCore_objects (k : Nat) (f : Core → Core) : (s.modCore k f).objects = s.objects := (rfl)
@[simp] theorem State.modCore_waiters (k : Nat) (f : Core → Core) : (s.modCore k f).waiters = s.waiters := (rfl)
@[simp] theorem State.modCore_remoteOps (k : Nat) (f : Core → Core) : (s.modCore k f).remoteOps = s.remoteOps := (rfl)
@[simp] theorem State.modCore_nextMsg (k : Nat) (f : Core → Core) : (s.modCore k f).nextMsg = s.nextMsg := (rfl)
@[simp] theorem State.modCore_hivestat (k : Nat) (f : Core → Core) : (s.modCore k f).hivestat = s.hivestat := (rfl)
@[simp] theorem State.modCore_debug (k : Nat) (f : Core → Core) : (s.modCore k f).debug = s.debug := (rfl)
@[simp] theorem State.modCore_lent (k : Nat) (f : Core → Core) : (s.modCore k f).lent = s.lent := (rfl)
@[simp] theorem State.modCore_ctxs (k : Nat) (f : Core → Core) : (s.modCore k f).ctxs = s.ctxs := (rfl)
@[simp] theorem State.modCore_parts (k : Nat) (f : Core → Core) : (s.modCore k f).parts = s.parts := (rfl)
@[simp] theorem State.modCore_tears (k : Nat) (f : Core → Core) : (s.modCore k f).tears = s.tears := (rfl)
@[simp] theorem State.modCore_phys (k : Nat) (f : Core → Core) : (s.modCore k f).phys = s.phys := (rfl)
@[simp] theorem State.modCore_routines (k : Nat) (f : Core → Core) : (s.modCore k f).routines = s.routines := (rfl)
@[simp] theorem State.modCore_agents (k : Nat) (f : Core → Core) : (s.modCore k f).agents = s.agents := (rfl)
@[simp] theorem State.modCore_dirs (k : Nat) (f : Core → Core) : (s.modCore k f).dirs = s.dirs := (rfl)
@[simp] theorem State.modCore_net (k : Nat) (f : Core → Core) : (s.modCore k f).net = s.net := (rfl)
@[simp] theorem State.modCore_intake (k : Nat) (f : Core → Core) : (s.modCore k f).intake = s.intake := (rfl)
@[simp] theorem State.modCore_lineWork (k : Nat) (f : Core → Core) : (s.modCore k f).lineWork = s.lineWork := (rfl)
@[simp] theorem State.modCore_reads (k : Nat) (f : Core → Core) : (s.modCore k f).reads = s.reads := (rfl)
@[simp] theorem State.modCore_faults (k : Nat) (f : Core → Core) : (s.modCore k f).faults = s.faults := (rfl)
@[simp] theorem State.modCore_recov (k : Nat) (f : Core → Core) : (s.modCore k f).recov = s.recov := (rfl)
@[simp] theorem State.modCore_groups (k : Nat) (f : Core → Core) : (s.modCore k f).groups = s.groups := (rfl)
@[simp] theorem State.modCore_stale (k : Nat) (f : Core → Core) : (s.modCore k f).stale = s.stale := (rfl)
@[simp] theorem State.modCore_fence (k : Nat) (f : Core → Core) : (s.modCore k f).fence = s.fence := (rfl)
@[simp] theorem State.modCore_audit (k : Nat) (f : Core → Core) : (s.modCore k f).audit = s.audit := (rfl)
@[simp] theorem State.modCore_trace (k : Nat) (f : Core → Core) : (s.modCore k f).trace = s.trace := (rfl)
@[simp] theorem State.modCore_breaks (k : Nat) (f : Core → Core) : (s.modCore k f).breaks = s.breaks := (rfl)
@[simp] theorem State.modCore_life (k : Nat) (f : Core → Core) : (s.modCore k f).life = s.life := (rfl)
@[simp] theorem State.modCore_plaliveOn (k : Nat) (f : Core → Core) : (s.modCore k f).plaliveOn = s.plaliveOn := (rfl)
@[simp] theorem State.modCore_plalive (k : Nat) (f : Core → Core) : (s.modCore k f).plalive = s.plalive := (rfl)
@[simp] theorem State.modCore_aliveDue (k : Nat) (f : Core → Core) : (s.modCore k f).aliveDue = s.aliveDue := (rfl)
@[simp] theorem State.modCore_plfault (k : Nat) (f : Core → Core) : (s.modCore k f).plfault = s.plfault := (rfl)
@[simp] theorem State.modCore_queue (k : Nat) (f : Core → Core) (j : Nat) : (s.modCore k f).queue j = s.queue j := (rfl)
@[simp] theorem State.modCore_node (k : Nat) (f : Core → Core) (j : Nat) : (s.modCore k f).node j = s.node j := (rfl)
@[simp] theorem State.modCore_furrow (k : Nat) (f : Core → Core) (j : Nat) : (s.modCore k f).furrow j = s.furrow j := (rfl)
@[simp] theorem State.modCore_slot (k : Nat) (f : Core → Core) (j : Nat) : (s.modCore k f).slot j = s.slot j := (rfl)
@[simp] theorem State.modCore_obj (k : Nat) (f : Core → Core) (j : Nat) : (s.modCore k f).obj j = s.obj j := (rfl)
@[simp] theorem State.modCore_waitersOf (k : Nat) (f : Core → Core) (j : Nat) : (s.modCore k f).waitersOf j = s.waitersOf j := (rfl)
@[simp] theorem State.modCore_ctx (k : Nat) (f : Core → Core) (j : Nat) : (s.modCore k f).ctx j = s.ctx j := (rfl)
@[simp] theorem State.modCore_part (k : Nat) (f : Core → Core) (j : Nat) : (s.modCore k f).part j = s.part j := (rfl)
@[simp] theorem State.modCore_rslot (k : Nat) (f : Core → Core) (j : Nat) : (s.modCore k f).rslot j = s.rslot j := (rfl)
@[simp] theorem State.modCore_group (k : Nat) (f : Core → Core) (j : Nat) : (s.modCore k f).group j = s.group j := (rfl)
@[simp] theorem State.modCore_source (k : Nat) (f : Core → Core) (j : Nat) : (s.modCore k f).source j = s.source j := (rfl)
@[simp] theorem State.modCore_brk (k : Nat) (f : Core → Core) (j : Nat) : (s.modCore k f).brk j = s.brk j := (rfl)
@[simp] theorem State.modCore_now (k : Nat) (f : Core → Core) : (s.modCore k f).now = s.now := (rfl)
@[simp] theorem State.modCore_up (k : Nat) (f : Core → Core) : (s.modCore k f).up = s.up := (rfl)
@[simp] theorem State.modCore_working (k : Nat) (f : Core → Core) : (s.modCore k f).working = s.working := (rfl)
@[simp] theorem State.modCore_trimmed (k : Nat) (f : Core → Core) : (s.modCore k f).trimmed = s.trimmed := (rfl)
@[simp] theorem State.modCore_powered (k : Nat) (f : Core → Core) : (s.modCore k f).powered = s.powered := (rfl)

/-! ### State.setRun -/

@[simp] theorem State.setRun_pending (k fr : Nat) (r : Run) : (s.setRun k fr r).pending = s.pending := (rfl)
@[simp] theorem State.setRun_heldCmds (k fr : Nat) (r : Run) : (s.setRun k fr r).heldCmds = s.heldCmds := (rfl)
@[simp] theorem State.setRun_heldFrom (k fr : Nat) (r : Run) : (s.setRun k fr r).heldFrom = s.heldFrom := (rfl)
@[simp] theorem State.setRun_out (k fr : Nat) (r : Run) : (s.setRun k fr r).out = s.out := (rfl)
@[simp] theorem State.setRun_free (k fr : Nat) (r : Run) : (s.setRun k fr r).free = s.free := (rfl)
@[simp] theorem State.setRun_stamp (k fr : Nat) (r : Run) : (s.setRun k fr r).stamp = s.stamp := (rfl)
@[simp] theorem State.setRun_power (k fr : Nat) (r : Run) : (s.setRun k fr r).power = s.power := (rfl)
@[simp] theorem State.setRun_usec (k fr : Nat) (r : Run) : (s.setRun k fr r).usec = s.usec := (rfl)
@[simp] theorem State.setRun_fuses (k fr : Nat) (r : Run) : (s.setRun k fr r).fuses = s.fuses := (rfl)
@[simp] theorem State.setRun_trim (k fr : Nat) (r : Run) : (s.setRun k fr r).trim = s.trim := (rfl)
@[simp] theorem State.setRun_clocks (k fr : Nat) (r : Run) : (s.setRun k fr r).clocks = s.clocks := (rfl)
@[simp] theorem State.setRun_charge (k fr : Nat) (r : Run) : (s.setRun k fr r).charge = s.charge := (rfl)
@[simp] theorem State.setRun_regs (k fr : Nat) (r : Run) : (s.setRun k fr r).regs = s.regs := (rfl)
@[simp] theorem State.setRun_latches (k fr : Nat) (r : Run) : (s.setRun k fr r).latches = s.latches := (rfl)
@[simp] theorem State.setRun_queues (k fr : Nat) (r : Run) : (s.setRun k fr r).queues = s.queues := (rfl)
@[simp] theorem State.setRun_fetchLast (k fr : Nat) (r : Run) : (s.setRun k fr r).fetchLast = s.fetchLast := (rfl)
@[simp] theorem State.setRun_fabric (k fr : Nat) (r : Run) : (s.setRun k fr r).fabric = s.fabric := (rfl)
@[simp] theorem State.setRun_nodes (k fr : Nat) (r : Run) : (s.setRun k fr r).nodes = s.nodes := (rfl)
@[simp] theorem State.setRun_furrows (k fr : Nat) (r : Run) : (s.setRun k fr r).furrows = s.furrows := (rfl)
@[simp] theorem State.setRun_admits (k fr : Nat) (r : Run) : (s.setRun k fr r).admits = s.admits := (rfl)
@[simp] theorem State.setRun_flying (k fr : Nat) (r : Run) : (s.setRun k fr r).flying = s.flying := (rfl)
@[simp] theorem State.setRun_reports (k fr : Nat) (r : Run) : (s.setRun k fr r).reports = s.reports := (rfl)
@[simp] theorem State.setRun_nextIssue (k fr : Nat) (r : Run) : (s.setRun k fr r).nextIssue = s.nextIssue := (rfl)
@[simp] theorem State.setRun_slots (k fr : Nat) (r : Run) : (s.setRun k fr r).slots = s.slots := (rfl)
@[simp] theorem State.setRun_oldSlots (k fr : Nat) (r : Run) : (s.setRun k fr r).oldSlots = s.oldSlots := (rfl)
@[simp] theorem State.setRun_oldRetired (k fr : Nat) (r : Run) : (s.setRun k fr r).oldRetired = s.oldRetired := (rfl)
@[simp] theorem State.setRun_stewardQ (k fr : Nat) (r : Run) : (s.setRun k fr r).stewardQ = s.stewardQ := (rfl)
@[simp] theorem State.setRun_objects (k fr : Nat) (r : Run) : (s.setRun k fr r).objects = s.objects := (rfl)
@[simp] theorem State.setRun_waiters (k fr : Nat) (r : Run) : (s.setRun k fr r).waiters = s.waiters := (rfl)
@[simp] theorem State.setRun_remoteOps (k fr : Nat) (r : Run) : (s.setRun k fr r).remoteOps = s.remoteOps := (rfl)
@[simp] theorem State.setRun_nextMsg (k fr : Nat) (r : Run) : (s.setRun k fr r).nextMsg = s.nextMsg := (rfl)
@[simp] theorem State.setRun_hivestat (k fr : Nat) (r : Run) : (s.setRun k fr r).hivestat = s.hivestat := (rfl)
@[simp] theorem State.setRun_debug (k fr : Nat) (r : Run) : (s.setRun k fr r).debug = s.debug := (rfl)
@[simp] theorem State.setRun_lent (k fr : Nat) (r : Run) : (s.setRun k fr r).lent = s.lent := (rfl)
@[simp] theorem State.setRun_ctxs (k fr : Nat) (r : Run) : (s.setRun k fr r).ctxs = s.ctxs := (rfl)
@[simp] theorem State.setRun_parts (k fr : Nat) (r : Run) : (s.setRun k fr r).parts = s.parts := (rfl)
@[simp] theorem State.setRun_tears (k fr : Nat) (r : Run) : (s.setRun k fr r).tears = s.tears := (rfl)
@[simp] theorem State.setRun_phys (k fr : Nat) (r : Run) : (s.setRun k fr r).phys = s.phys := (rfl)
@[simp] theorem State.setRun_routines (k fr : Nat) (r : Run) : (s.setRun k fr r).routines = s.routines := (rfl)
@[simp] theorem State.setRun_agents (k fr : Nat) (r : Run) : (s.setRun k fr r).agents = s.agents := (rfl)
@[simp] theorem State.setRun_dirs (k fr : Nat) (r : Run) : (s.setRun k fr r).dirs = s.dirs := (rfl)
@[simp] theorem State.setRun_net (k fr : Nat) (r : Run) : (s.setRun k fr r).net = s.net := (rfl)
@[simp] theorem State.setRun_intake (k fr : Nat) (r : Run) : (s.setRun k fr r).intake = s.intake := (rfl)
@[simp] theorem State.setRun_lineWork (k fr : Nat) (r : Run) : (s.setRun k fr r).lineWork = s.lineWork := (rfl)
@[simp] theorem State.setRun_reads (k fr : Nat) (r : Run) : (s.setRun k fr r).reads = s.reads := (rfl)
@[simp] theorem State.setRun_faults (k fr : Nat) (r : Run) : (s.setRun k fr r).faults = s.faults := (rfl)
@[simp] theorem State.setRun_recov (k fr : Nat) (r : Run) : (s.setRun k fr r).recov = s.recov := (rfl)
@[simp] theorem State.setRun_groups (k fr : Nat) (r : Run) : (s.setRun k fr r).groups = s.groups := (rfl)
@[simp] theorem State.setRun_stale (k fr : Nat) (r : Run) : (s.setRun k fr r).stale = s.stale := (rfl)
@[simp] theorem State.setRun_fence (k fr : Nat) (r : Run) : (s.setRun k fr r).fence = s.fence := (rfl)
@[simp] theorem State.setRun_audit (k fr : Nat) (r : Run) : (s.setRun k fr r).audit = s.audit := (rfl)
@[simp] theorem State.setRun_trace (k fr : Nat) (r : Run) : (s.setRun k fr r).trace = s.trace := (rfl)
@[simp] theorem State.setRun_breaks (k fr : Nat) (r : Run) : (s.setRun k fr r).breaks = s.breaks := (rfl)
@[simp] theorem State.setRun_life (k fr : Nat) (r : Run) : (s.setRun k fr r).life = s.life := (rfl)
@[simp] theorem State.setRun_plaliveOn (k fr : Nat) (r : Run) : (s.setRun k fr r).plaliveOn = s.plaliveOn := (rfl)
@[simp] theorem State.setRun_plalive (k fr : Nat) (r : Run) : (s.setRun k fr r).plalive = s.plalive := (rfl)
@[simp] theorem State.setRun_aliveDue (k fr : Nat) (r : Run) : (s.setRun k fr r).aliveDue = s.aliveDue := (rfl)
@[simp] theorem State.setRun_plfault (k fr : Nat) (r : Run) : (s.setRun k fr r).plfault = s.plfault := (rfl)
@[simp] theorem State.setRun_queue (k fr : Nat) (r : Run) (j : Nat) : (s.setRun k fr r).queue j = s.queue j := (rfl)
@[simp] theorem State.setRun_node (k fr : Nat) (r : Run) (j : Nat) : (s.setRun k fr r).node j = s.node j := (rfl)
@[simp] theorem State.setRun_furrow (k fr : Nat) (r : Run) (j : Nat) : (s.setRun k fr r).furrow j = s.furrow j := (rfl)
@[simp] theorem State.setRun_slot (k fr : Nat) (r : Run) (j : Nat) : (s.setRun k fr r).slot j = s.slot j := (rfl)
@[simp] theorem State.setRun_obj (k fr : Nat) (r : Run) (j : Nat) : (s.setRun k fr r).obj j = s.obj j := (rfl)
@[simp] theorem State.setRun_waitersOf (k fr : Nat) (r : Run) (j : Nat) : (s.setRun k fr r).waitersOf j = s.waitersOf j := (rfl)
@[simp] theorem State.setRun_ctx (k fr : Nat) (r : Run) (j : Nat) : (s.setRun k fr r).ctx j = s.ctx j := (rfl)
@[simp] theorem State.setRun_part (k fr : Nat) (r : Run) (j : Nat) : (s.setRun k fr r).part j = s.part j := (rfl)
@[simp] theorem State.setRun_rslot (k fr : Nat) (r : Run) (j : Nat) : (s.setRun k fr r).rslot j = s.rslot j := (rfl)
@[simp] theorem State.setRun_group (k fr : Nat) (r : Run) (j : Nat) : (s.setRun k fr r).group j = s.group j := (rfl)
@[simp] theorem State.setRun_source (k fr : Nat) (r : Run) (j : Nat) : (s.setRun k fr r).source j = s.source j := (rfl)
@[simp] theorem State.setRun_brk (k fr : Nat) (r : Run) (j : Nat) : (s.setRun k fr r).brk j = s.brk j := (rfl)
@[simp] theorem State.setRun_now (k fr : Nat) (r : Run) : (s.setRun k fr r).now = s.now := (rfl)
@[simp] theorem State.setRun_up (k fr : Nat) (r : Run) : (s.setRun k fr r).up = s.up := (rfl)
@[simp] theorem State.setRun_working (k fr : Nat) (r : Run) : (s.setRun k fr r).working = s.working := (rfl)
@[simp] theorem State.setRun_trimmed (k fr : Nat) (r : Run) : (s.setRun k fr r).trimmed = s.trimmed := (rfl)
@[simp] theorem State.setRun_powered (k fr : Nat) (r : Run) : (s.setRun k fr r).powered = s.powered := (rfl)

/-! ### State.setRslot -/

@[simp] theorem State.setRslot_pending (i : Nat) (x : RSlot) : (s.setRslot i x).pending = s.pending := (rfl)
@[simp] theorem State.setRslot_heldCmds (i : Nat) (x : RSlot) : (s.setRslot i x).heldCmds = s.heldCmds := (rfl)
@[simp] theorem State.setRslot_heldFrom (i : Nat) (x : RSlot) : (s.setRslot i x).heldFrom = s.heldFrom := (rfl)
@[simp] theorem State.setRslot_out (i : Nat) (x : RSlot) : (s.setRslot i x).out = s.out := (rfl)
@[simp] theorem State.setRslot_free (i : Nat) (x : RSlot) : (s.setRslot i x).free = s.free := (rfl)
@[simp] theorem State.setRslot_stamp (i : Nat) (x : RSlot) : (s.setRslot i x).stamp = s.stamp := (rfl)
@[simp] theorem State.setRslot_power (i : Nat) (x : RSlot) : (s.setRslot i x).power = s.power := (rfl)
@[simp] theorem State.setRslot_usec (i : Nat) (x : RSlot) : (s.setRslot i x).usec = s.usec := (rfl)
@[simp] theorem State.setRslot_fuses (i : Nat) (x : RSlot) : (s.setRslot i x).fuses = s.fuses := (rfl)
@[simp] theorem State.setRslot_trim (i : Nat) (x : RSlot) : (s.setRslot i x).trim = s.trim := (rfl)
@[simp] theorem State.setRslot_clocks (i : Nat) (x : RSlot) : (s.setRslot i x).clocks = s.clocks := (rfl)
@[simp] theorem State.setRslot_charge (i : Nat) (x : RSlot) : (s.setRslot i x).charge = s.charge := (rfl)
@[simp] theorem State.setRslot_regs (i : Nat) (x : RSlot) : (s.setRslot i x).regs = s.regs := (rfl)
@[simp] theorem State.setRslot_latches (i : Nat) (x : RSlot) : (s.setRslot i x).latches = s.latches := (rfl)
@[simp] theorem State.setRslot_queues (i : Nat) (x : RSlot) : (s.setRslot i x).queues = s.queues := (rfl)
@[simp] theorem State.setRslot_fetchLast (i : Nat) (x : RSlot) : (s.setRslot i x).fetchLast = s.fetchLast := (rfl)
@[simp] theorem State.setRslot_fabric (i : Nat) (x : RSlot) : (s.setRslot i x).fabric = s.fabric := (rfl)
@[simp] theorem State.setRslot_nodes (i : Nat) (x : RSlot) : (s.setRslot i x).nodes = s.nodes := (rfl)
@[simp] theorem State.setRslot_furrows (i : Nat) (x : RSlot) : (s.setRslot i x).furrows = s.furrows := (rfl)
@[simp] theorem State.setRslot_admits (i : Nat) (x : RSlot) : (s.setRslot i x).admits = s.admits := (rfl)
@[simp] theorem State.setRslot_flying (i : Nat) (x : RSlot) : (s.setRslot i x).flying = s.flying := (rfl)
@[simp] theorem State.setRslot_reports (i : Nat) (x : RSlot) : (s.setRslot i x).reports = s.reports := (rfl)
@[simp] theorem State.setRslot_nextIssue (i : Nat) (x : RSlot) : (s.setRslot i x).nextIssue = s.nextIssue := (rfl)
@[simp] theorem State.setRslot_slots (i : Nat) (x : RSlot) : (s.setRslot i x).slots = s.slots := (rfl)
@[simp] theorem State.setRslot_oldSlots (i : Nat) (x : RSlot) : (s.setRslot i x).oldSlots = s.oldSlots := (rfl)
@[simp] theorem State.setRslot_oldRetired (i : Nat) (x : RSlot) : (s.setRslot i x).oldRetired = s.oldRetired := (rfl)
@[simp] theorem State.setRslot_stewardQ (i : Nat) (x : RSlot) : (s.setRslot i x).stewardQ = s.stewardQ := (rfl)
@[simp] theorem State.setRslot_objects (i : Nat) (x : RSlot) : (s.setRslot i x).objects = s.objects := (rfl)
@[simp] theorem State.setRslot_waiters (i : Nat) (x : RSlot) : (s.setRslot i x).waiters = s.waiters := (rfl)
@[simp] theorem State.setRslot_remoteOps (i : Nat) (x : RSlot) : (s.setRslot i x).remoteOps = s.remoteOps := (rfl)
@[simp] theorem State.setRslot_nextMsg (i : Nat) (x : RSlot) : (s.setRslot i x).nextMsg = s.nextMsg := (rfl)
@[simp] theorem State.setRslot_hivestat (i : Nat) (x : RSlot) : (s.setRslot i x).hivestat = s.hivestat := (rfl)
@[simp] theorem State.setRslot_debug (i : Nat) (x : RSlot) : (s.setRslot i x).debug = s.debug := (rfl)
@[simp] theorem State.setRslot_lent (i : Nat) (x : RSlot) : (s.setRslot i x).lent = s.lent := (rfl)
@[simp] theorem State.setRslot_ctxs (i : Nat) (x : RSlot) : (s.setRslot i x).ctxs = s.ctxs := (rfl)
@[simp] theorem State.setRslot_parts (i : Nat) (x : RSlot) : (s.setRslot i x).parts = s.parts := (rfl)
@[simp] theorem State.setRslot_tears (i : Nat) (x : RSlot) : (s.setRslot i x).tears = s.tears := (rfl)
@[simp] theorem State.setRslot_cores (i : Nat) (x : RSlot) : (s.setRslot i x).cores = s.cores := (rfl)
@[simp] theorem State.setRslot_phys (i : Nat) (x : RSlot) : (s.setRslot i x).phys = s.phys := (rfl)
@[simp] theorem State.setRslot_agents (i : Nat) (x : RSlot) : (s.setRslot i x).agents = s.agents := (rfl)
@[simp] theorem State.setRslot_dirs (i : Nat) (x : RSlot) : (s.setRslot i x).dirs = s.dirs := (rfl)
@[simp] theorem State.setRslot_net (i : Nat) (x : RSlot) : (s.setRslot i x).net = s.net := (rfl)
@[simp] theorem State.setRslot_intake (i : Nat) (x : RSlot) : (s.setRslot i x).intake = s.intake := (rfl)
@[simp] theorem State.setRslot_lineWork (i : Nat) (x : RSlot) : (s.setRslot i x).lineWork = s.lineWork := (rfl)
@[simp] theorem State.setRslot_reads (i : Nat) (x : RSlot) : (s.setRslot i x).reads = s.reads := (rfl)
@[simp] theorem State.setRslot_faults (i : Nat) (x : RSlot) : (s.setRslot i x).faults = s.faults := (rfl)
@[simp] theorem State.setRslot_recov (i : Nat) (x : RSlot) : (s.setRslot i x).recov = s.recov := (rfl)
@[simp] theorem State.setRslot_groups (i : Nat) (x : RSlot) : (s.setRslot i x).groups = s.groups := (rfl)
@[simp] theorem State.setRslot_stale (i : Nat) (x : RSlot) : (s.setRslot i x).stale = s.stale := (rfl)
@[simp] theorem State.setRslot_fence (i : Nat) (x : RSlot) : (s.setRslot i x).fence = s.fence := (rfl)
@[simp] theorem State.setRslot_audit (i : Nat) (x : RSlot) : (s.setRslot i x).audit = s.audit := (rfl)
@[simp] theorem State.setRslot_trace (i : Nat) (x : RSlot) : (s.setRslot i x).trace = s.trace := (rfl)
@[simp] theorem State.setRslot_breaks (i : Nat) (x : RSlot) : (s.setRslot i x).breaks = s.breaks := (rfl)
@[simp] theorem State.setRslot_life (i : Nat) (x : RSlot) : (s.setRslot i x).life = s.life := (rfl)
@[simp] theorem State.setRslot_plaliveOn (i : Nat) (x : RSlot) : (s.setRslot i x).plaliveOn = s.plaliveOn := (rfl)
@[simp] theorem State.setRslot_plalive (i : Nat) (x : RSlot) : (s.setRslot i x).plalive = s.plalive := (rfl)
@[simp] theorem State.setRslot_aliveDue (i : Nat) (x : RSlot) : (s.setRslot i x).aliveDue = s.aliveDue := (rfl)
@[simp] theorem State.setRslot_plfault (i : Nat) (x : RSlot) : (s.setRslot i x).plfault = s.plfault := (rfl)
@[simp] theorem State.setRslot_queue (i : Nat) (x : RSlot) (j : Nat) : (s.setRslot i x).queue j = s.queue j := (rfl)
@[simp] theorem State.setRslot_node (i : Nat) (x : RSlot) (j : Nat) : (s.setRslot i x).node j = s.node j := (rfl)
@[simp] theorem State.setRslot_furrow (i : Nat) (x : RSlot) (j : Nat) : (s.setRslot i x).furrow j = s.furrow j := (rfl)
@[simp] theorem State.setRslot_slot (i : Nat) (x : RSlot) (j : Nat) : (s.setRslot i x).slot j = s.slot j := (rfl)
@[simp] theorem State.setRslot_obj (i : Nat) (x : RSlot) (j : Nat) : (s.setRslot i x).obj j = s.obj j := (rfl)
@[simp] theorem State.setRslot_waitersOf (i : Nat) (x : RSlot) (j : Nat) : (s.setRslot i x).waitersOf j = s.waitersOf j := (rfl)
@[simp] theorem State.setRslot_ctx (i : Nat) (x : RSlot) (j : Nat) : (s.setRslot i x).ctx j = s.ctx j := (rfl)
@[simp] theorem State.setRslot_part (i : Nat) (x : RSlot) (j : Nat) : (s.setRslot i x).part j = s.part j := (rfl)
@[simp] theorem State.setRslot_core (i : Nat) (x : RSlot) (j : Nat) : (s.setRslot i x).core j = s.core j := (rfl)
@[simp] theorem State.setRslot_group (i : Nat) (x : RSlot) (j : Nat) : (s.setRslot i x).group j = s.group j := (rfl)
@[simp] theorem State.setRslot_source (i : Nat) (x : RSlot) (j : Nat) : (s.setRslot i x).source j = s.source j := (rfl)
@[simp] theorem State.setRslot_brk (i : Nat) (x : RSlot) (j : Nat) : (s.setRslot i x).brk j = s.brk j := (rfl)
@[simp] theorem State.setRslot_now (i : Nat) (x : RSlot) : (s.setRslot i x).now = s.now := (rfl)
@[simp] theorem State.setRslot_up (i : Nat) (x : RSlot) : (s.setRslot i x).up = s.up := (rfl)
@[simp] theorem State.setRslot_working (i : Nat) (x : RSlot) : (s.setRslot i x).working = s.working := (rfl)
@[simp] theorem State.setRslot_trimmed (i : Nat) (x : RSlot) : (s.setRslot i x).trimmed = s.trimmed := (rfl)
@[simp] theorem State.setRslot_powered (i : Nat) (x : RSlot) : (s.setRslot i x).powered = s.powered := (rfl)

/-! ### State.setGroup -/

@[simp] theorem State.setGroup_pending (p : Nat) (x : Group) : (s.setGroup p x).pending = s.pending := (rfl)
@[simp] theorem State.setGroup_heldCmds (p : Nat) (x : Group) : (s.setGroup p x).heldCmds = s.heldCmds := (rfl)
@[simp] theorem State.setGroup_heldFrom (p : Nat) (x : Group) : (s.setGroup p x).heldFrom = s.heldFrom := (rfl)
@[simp] theorem State.setGroup_out (p : Nat) (x : Group) : (s.setGroup p x).out = s.out := (rfl)
@[simp] theorem State.setGroup_free (p : Nat) (x : Group) : (s.setGroup p x).free = s.free := (rfl)
@[simp] theorem State.setGroup_stamp (p : Nat) (x : Group) : (s.setGroup p x).stamp = s.stamp := (rfl)
@[simp] theorem State.setGroup_power (p : Nat) (x : Group) : (s.setGroup p x).power = s.power := (rfl)
@[simp] theorem State.setGroup_usec (p : Nat) (x : Group) : (s.setGroup p x).usec = s.usec := (rfl)
@[simp] theorem State.setGroup_fuses (p : Nat) (x : Group) : (s.setGroup p x).fuses = s.fuses := (rfl)
@[simp] theorem State.setGroup_trim (p : Nat) (x : Group) : (s.setGroup p x).trim = s.trim := (rfl)
@[simp] theorem State.setGroup_clocks (p : Nat) (x : Group) : (s.setGroup p x).clocks = s.clocks := (rfl)
@[simp] theorem State.setGroup_charge (p : Nat) (x : Group) : (s.setGroup p x).charge = s.charge := (rfl)
@[simp] theorem State.setGroup_regs (p : Nat) (x : Group) : (s.setGroup p x).regs = s.regs := (rfl)
@[simp] theorem State.setGroup_latches (p : Nat) (x : Group) : (s.setGroup p x).latches = s.latches := (rfl)
@[simp] theorem State.setGroup_queues (p : Nat) (x : Group) : (s.setGroup p x).queues = s.queues := (rfl)
@[simp] theorem State.setGroup_fetchLast (p : Nat) (x : Group) : (s.setGroup p x).fetchLast = s.fetchLast := (rfl)
@[simp] theorem State.setGroup_fabric (p : Nat) (x : Group) : (s.setGroup p x).fabric = s.fabric := (rfl)
@[simp] theorem State.setGroup_nodes (p : Nat) (x : Group) : (s.setGroup p x).nodes = s.nodes := (rfl)
@[simp] theorem State.setGroup_furrows (p : Nat) (x : Group) : (s.setGroup p x).furrows = s.furrows := (rfl)
@[simp] theorem State.setGroup_admits (p : Nat) (x : Group) : (s.setGroup p x).admits = s.admits := (rfl)
@[simp] theorem State.setGroup_flying (p : Nat) (x : Group) : (s.setGroup p x).flying = s.flying := (rfl)
@[simp] theorem State.setGroup_reports (p : Nat) (x : Group) : (s.setGroup p x).reports = s.reports := (rfl)
@[simp] theorem State.setGroup_nextIssue (p : Nat) (x : Group) : (s.setGroup p x).nextIssue = s.nextIssue := (rfl)
@[simp] theorem State.setGroup_slots (p : Nat) (x : Group) : (s.setGroup p x).slots = s.slots := (rfl)
@[simp] theorem State.setGroup_oldSlots (p : Nat) (x : Group) : (s.setGroup p x).oldSlots = s.oldSlots := (rfl)
@[simp] theorem State.setGroup_oldRetired (p : Nat) (x : Group) : (s.setGroup p x).oldRetired = s.oldRetired := (rfl)
@[simp] theorem State.setGroup_stewardQ (p : Nat) (x : Group) : (s.setGroup p x).stewardQ = s.stewardQ := (rfl)
@[simp] theorem State.setGroup_objects (p : Nat) (x : Group) : (s.setGroup p x).objects = s.objects := (rfl)
@[simp] theorem State.setGroup_waiters (p : Nat) (x : Group) : (s.setGroup p x).waiters = s.waiters := (rfl)
@[simp] theorem State.setGroup_remoteOps (p : Nat) (x : Group) : (s.setGroup p x).remoteOps = s.remoteOps := (rfl)
@[simp] theorem State.setGroup_nextMsg (p : Nat) (x : Group) : (s.setGroup p x).nextMsg = s.nextMsg := (rfl)
@[simp] theorem State.setGroup_hivestat (p : Nat) (x : Group) : (s.setGroup p x).hivestat = s.hivestat := (rfl)
@[simp] theorem State.setGroup_debug (p : Nat) (x : Group) : (s.setGroup p x).debug = s.debug := (rfl)
@[simp] theorem State.setGroup_lent (p : Nat) (x : Group) : (s.setGroup p x).lent = s.lent := (rfl)
@[simp] theorem State.setGroup_ctxs (p : Nat) (x : Group) : (s.setGroup p x).ctxs = s.ctxs := (rfl)
@[simp] theorem State.setGroup_parts (p : Nat) (x : Group) : (s.setGroup p x).parts = s.parts := (rfl)
@[simp] theorem State.setGroup_tears (p : Nat) (x : Group) : (s.setGroup p x).tears = s.tears := (rfl)
@[simp] theorem State.setGroup_cores (p : Nat) (x : Group) : (s.setGroup p x).cores = s.cores := (rfl)
@[simp] theorem State.setGroup_phys (p : Nat) (x : Group) : (s.setGroup p x).phys = s.phys := (rfl)
@[simp] theorem State.setGroup_routines (p : Nat) (x : Group) : (s.setGroup p x).routines = s.routines := (rfl)
@[simp] theorem State.setGroup_agents (p : Nat) (x : Group) : (s.setGroup p x).agents = s.agents := (rfl)
@[simp] theorem State.setGroup_dirs (p : Nat) (x : Group) : (s.setGroup p x).dirs = s.dirs := (rfl)
@[simp] theorem State.setGroup_net (p : Nat) (x : Group) : (s.setGroup p x).net = s.net := (rfl)
@[simp] theorem State.setGroup_intake (p : Nat) (x : Group) : (s.setGroup p x).intake = s.intake := (rfl)
@[simp] theorem State.setGroup_lineWork (p : Nat) (x : Group) : (s.setGroup p x).lineWork = s.lineWork := (rfl)
@[simp] theorem State.setGroup_reads (p : Nat) (x : Group) : (s.setGroup p x).reads = s.reads := (rfl)
@[simp] theorem State.setGroup_faults (p : Nat) (x : Group) : (s.setGroup p x).faults = s.faults := (rfl)
@[simp] theorem State.setGroup_recov (p : Nat) (x : Group) : (s.setGroup p x).recov = s.recov := (rfl)
@[simp] theorem State.setGroup_stale (p : Nat) (x : Group) : (s.setGroup p x).stale = s.stale := (rfl)
@[simp] theorem State.setGroup_fence (p : Nat) (x : Group) : (s.setGroup p x).fence = s.fence := (rfl)
@[simp] theorem State.setGroup_audit (p : Nat) (x : Group) : (s.setGroup p x).audit = s.audit := (rfl)
@[simp] theorem State.setGroup_trace (p : Nat) (x : Group) : (s.setGroup p x).trace = s.trace := (rfl)
@[simp] theorem State.setGroup_breaks (p : Nat) (x : Group) : (s.setGroup p x).breaks = s.breaks := (rfl)
@[simp] theorem State.setGroup_life (p : Nat) (x : Group) : (s.setGroup p x).life = s.life := (rfl)
@[simp] theorem State.setGroup_plaliveOn (p : Nat) (x : Group) : (s.setGroup p x).plaliveOn = s.plaliveOn := (rfl)
@[simp] theorem State.setGroup_plalive (p : Nat) (x : Group) : (s.setGroup p x).plalive = s.plalive := (rfl)
@[simp] theorem State.setGroup_aliveDue (p : Nat) (x : Group) : (s.setGroup p x).aliveDue = s.aliveDue := (rfl)
@[simp] theorem State.setGroup_plfault (p : Nat) (x : Group) : (s.setGroup p x).plfault = s.plfault := (rfl)
@[simp] theorem State.setGroup_queue (p : Nat) (x : Group) (j : Nat) : (s.setGroup p x).queue j = s.queue j := (rfl)
@[simp] theorem State.setGroup_node (p : Nat) (x : Group) (j : Nat) : (s.setGroup p x).node j = s.node j := (rfl)
@[simp] theorem State.setGroup_furrow (p : Nat) (x : Group) (j : Nat) : (s.setGroup p x).furrow j = s.furrow j := (rfl)
@[simp] theorem State.setGroup_slot (p : Nat) (x : Group) (j : Nat) : (s.setGroup p x).slot j = s.slot j := (rfl)
@[simp] theorem State.setGroup_obj (p : Nat) (x : Group) (j : Nat) : (s.setGroup p x).obj j = s.obj j := (rfl)
@[simp] theorem State.setGroup_waitersOf (p : Nat) (x : Group) (j : Nat) : (s.setGroup p x).waitersOf j = s.waitersOf j := (rfl)
@[simp] theorem State.setGroup_ctx (p : Nat) (x : Group) (j : Nat) : (s.setGroup p x).ctx j = s.ctx j := (rfl)
@[simp] theorem State.setGroup_part (p : Nat) (x : Group) (j : Nat) : (s.setGroup p x).part j = s.part j := (rfl)
@[simp] theorem State.setGroup_core (p : Nat) (x : Group) (j : Nat) : (s.setGroup p x).core j = s.core j := (rfl)
@[simp] theorem State.setGroup_rslot (p : Nat) (x : Group) (j : Nat) : (s.setGroup p x).rslot j = s.rslot j := (rfl)
@[simp] theorem State.setGroup_source (p : Nat) (x : Group) (j : Nat) : (s.setGroup p x).source j = s.source j := (rfl)
@[simp] theorem State.setGroup_brk (p : Nat) (x : Group) (j : Nat) : (s.setGroup p x).brk j = s.brk j := (rfl)
@[simp] theorem State.setGroup_now (p : Nat) (x : Group) : (s.setGroup p x).now = s.now := (rfl)
@[simp] theorem State.setGroup_up (p : Nat) (x : Group) : (s.setGroup p x).up = s.up := (rfl)
@[simp] theorem State.setGroup_working (p : Nat) (x : Group) : (s.setGroup p x).working = s.working := (rfl)
@[simp] theorem State.setGroup_trimmed (p : Nat) (x : Group) : (s.setGroup p x).trimmed = s.trimmed := (rfl)
@[simp] theorem State.setGroup_powered (p : Nat) (x : Group) : (s.setGroup p x).powered = s.powered := (rfl)

/-! ### State.setSource -/

@[simp] theorem State.setSource_pending (i : Nat) (x : Source) : (s.setSource i x).pending = s.pending := (rfl)
@[simp] theorem State.setSource_heldCmds (i : Nat) (x : Source) : (s.setSource i x).heldCmds = s.heldCmds := (rfl)
@[simp] theorem State.setSource_heldFrom (i : Nat) (x : Source) : (s.setSource i x).heldFrom = s.heldFrom := (rfl)
@[simp] theorem State.setSource_out (i : Nat) (x : Source) : (s.setSource i x).out = s.out := (rfl)
@[simp] theorem State.setSource_free (i : Nat) (x : Source) : (s.setSource i x).free = s.free := (rfl)
@[simp] theorem State.setSource_stamp (i : Nat) (x : Source) : (s.setSource i x).stamp = s.stamp := (rfl)
@[simp] theorem State.setSource_power (i : Nat) (x : Source) : (s.setSource i x).power = s.power := (rfl)
@[simp] theorem State.setSource_usec (i : Nat) (x : Source) : (s.setSource i x).usec = s.usec := (rfl)
@[simp] theorem State.setSource_fuses (i : Nat) (x : Source) : (s.setSource i x).fuses = s.fuses := (rfl)
@[simp] theorem State.setSource_trim (i : Nat) (x : Source) : (s.setSource i x).trim = s.trim := (rfl)
@[simp] theorem State.setSource_clocks (i : Nat) (x : Source) : (s.setSource i x).clocks = s.clocks := (rfl)
@[simp] theorem State.setSource_charge (i : Nat) (x : Source) : (s.setSource i x).charge = s.charge := (rfl)
@[simp] theorem State.setSource_regs (i : Nat) (x : Source) : (s.setSource i x).regs = s.regs := (rfl)
@[simp] theorem State.setSource_latches (i : Nat) (x : Source) : (s.setSource i x).latches = s.latches := (rfl)
@[simp] theorem State.setSource_queues (i : Nat) (x : Source) : (s.setSource i x).queues = s.queues := (rfl)
@[simp] theorem State.setSource_fetchLast (i : Nat) (x : Source) : (s.setSource i x).fetchLast = s.fetchLast := (rfl)
@[simp] theorem State.setSource_fabric (i : Nat) (x : Source) : (s.setSource i x).fabric = s.fabric := (rfl)
@[simp] theorem State.setSource_nodes (i : Nat) (x : Source) : (s.setSource i x).nodes = s.nodes := (rfl)
@[simp] theorem State.setSource_furrows (i : Nat) (x : Source) : (s.setSource i x).furrows = s.furrows := (rfl)
@[simp] theorem State.setSource_admits (i : Nat) (x : Source) : (s.setSource i x).admits = s.admits := (rfl)
@[simp] theorem State.setSource_flying (i : Nat) (x : Source) : (s.setSource i x).flying = s.flying := (rfl)
@[simp] theorem State.setSource_reports (i : Nat) (x : Source) : (s.setSource i x).reports = s.reports := (rfl)
@[simp] theorem State.setSource_nextIssue (i : Nat) (x : Source) : (s.setSource i x).nextIssue = s.nextIssue := (rfl)
@[simp] theorem State.setSource_slots (i : Nat) (x : Source) : (s.setSource i x).slots = s.slots := (rfl)
@[simp] theorem State.setSource_oldSlots (i : Nat) (x : Source) : (s.setSource i x).oldSlots = s.oldSlots := (rfl)
@[simp] theorem State.setSource_oldRetired (i : Nat) (x : Source) : (s.setSource i x).oldRetired = s.oldRetired := (rfl)
@[simp] theorem State.setSource_stewardQ (i : Nat) (x : Source) : (s.setSource i x).stewardQ = s.stewardQ := (rfl)
@[simp] theorem State.setSource_objects (i : Nat) (x : Source) : (s.setSource i x).objects = s.objects := (rfl)
@[simp] theorem State.setSource_waiters (i : Nat) (x : Source) : (s.setSource i x).waiters = s.waiters := (rfl)
@[simp] theorem State.setSource_remoteOps (i : Nat) (x : Source) : (s.setSource i x).remoteOps = s.remoteOps := (rfl)
@[simp] theorem State.setSource_nextMsg (i : Nat) (x : Source) : (s.setSource i x).nextMsg = s.nextMsg := (rfl)
@[simp] theorem State.setSource_hivestat (i : Nat) (x : Source) : (s.setSource i x).hivestat = s.hivestat := (rfl)
@[simp] theorem State.setSource_debug (i : Nat) (x : Source) : (s.setSource i x).debug = s.debug := (rfl)
@[simp] theorem State.setSource_lent (i : Nat) (x : Source) : (s.setSource i x).lent = s.lent := (rfl)
@[simp] theorem State.setSource_ctxs (i : Nat) (x : Source) : (s.setSource i x).ctxs = s.ctxs := (rfl)
@[simp] theorem State.setSource_parts (i : Nat) (x : Source) : (s.setSource i x).parts = s.parts := (rfl)
@[simp] theorem State.setSource_tears (i : Nat) (x : Source) : (s.setSource i x).tears = s.tears := (rfl)
@[simp] theorem State.setSource_cores (i : Nat) (x : Source) : (s.setSource i x).cores = s.cores := (rfl)
@[simp] theorem State.setSource_phys (i : Nat) (x : Source) : (s.setSource i x).phys = s.phys := (rfl)
@[simp] theorem State.setSource_routines (i : Nat) (x : Source) : (s.setSource i x).routines = s.routines := (rfl)
@[simp] theorem State.setSource_agents (i : Nat) (x : Source) : (s.setSource i x).agents = s.agents := (rfl)
@[simp] theorem State.setSource_dirs (i : Nat) (x : Source) : (s.setSource i x).dirs = s.dirs := (rfl)
@[simp] theorem State.setSource_net (i : Nat) (x : Source) : (s.setSource i x).net = s.net := (rfl)
@[simp] theorem State.setSource_intake (i : Nat) (x : Source) : (s.setSource i x).intake = s.intake := (rfl)
@[simp] theorem State.setSource_lineWork (i : Nat) (x : Source) : (s.setSource i x).lineWork = s.lineWork := (rfl)
@[simp] theorem State.setSource_reads (i : Nat) (x : Source) : (s.setSource i x).reads = s.reads := (rfl)
@[simp] theorem State.setSource_recov (i : Nat) (x : Source) : (s.setSource i x).recov = s.recov := (rfl)
@[simp] theorem State.setSource_groups (i : Nat) (x : Source) : (s.setSource i x).groups = s.groups := (rfl)
@[simp] theorem State.setSource_stale (i : Nat) (x : Source) : (s.setSource i x).stale = s.stale := (rfl)
@[simp] theorem State.setSource_fence (i : Nat) (x : Source) : (s.setSource i x).fence = s.fence := (rfl)
@[simp] theorem State.setSource_audit (i : Nat) (x : Source) : (s.setSource i x).audit = s.audit := (rfl)
@[simp] theorem State.setSource_trace (i : Nat) (x : Source) : (s.setSource i x).trace = s.trace := (rfl)
@[simp] theorem State.setSource_breaks (i : Nat) (x : Source) : (s.setSource i x).breaks = s.breaks := (rfl)
@[simp] theorem State.setSource_life (i : Nat) (x : Source) : (s.setSource i x).life = s.life := (rfl)
@[simp] theorem State.setSource_plaliveOn (i : Nat) (x : Source) : (s.setSource i x).plaliveOn = s.plaliveOn := (rfl)
@[simp] theorem State.setSource_plalive (i : Nat) (x : Source) : (s.setSource i x).plalive = s.plalive := (rfl)
@[simp] theorem State.setSource_aliveDue (i : Nat) (x : Source) : (s.setSource i x).aliveDue = s.aliveDue := (rfl)
@[simp] theorem State.setSource_plfault (i : Nat) (x : Source) : (s.setSource i x).plfault = s.plfault := (rfl)
@[simp] theorem State.setSource_queue (i : Nat) (x : Source) (j : Nat) : (s.setSource i x).queue j = s.queue j := (rfl)
@[simp] theorem State.setSource_node (i : Nat) (x : Source) (j : Nat) : (s.setSource i x).node j = s.node j := (rfl)
@[simp] theorem State.setSource_furrow (i : Nat) (x : Source) (j : Nat) : (s.setSource i x).furrow j = s.furrow j := (rfl)
@[simp] theorem State.setSource_slot (i : Nat) (x : Source) (j : Nat) : (s.setSource i x).slot j = s.slot j := (rfl)
@[simp] theorem State.setSource_obj (i : Nat) (x : Source) (j : Nat) : (s.setSource i x).obj j = s.obj j := (rfl)
@[simp] theorem State.setSource_waitersOf (i : Nat) (x : Source) (j : Nat) : (s.setSource i x).waitersOf j = s.waitersOf j := (rfl)
@[simp] theorem State.setSource_ctx (i : Nat) (x : Source) (j : Nat) : (s.setSource i x).ctx j = s.ctx j := (rfl)
@[simp] theorem State.setSource_part (i : Nat) (x : Source) (j : Nat) : (s.setSource i x).part j = s.part j := (rfl)
@[simp] theorem State.setSource_core (i : Nat) (x : Source) (j : Nat) : (s.setSource i x).core j = s.core j := (rfl)
@[simp] theorem State.setSource_rslot (i : Nat) (x : Source) (j : Nat) : (s.setSource i x).rslot j = s.rslot j := (rfl)
@[simp] theorem State.setSource_group (i : Nat) (x : Source) (j : Nat) : (s.setSource i x).group j = s.group j := (rfl)
@[simp] theorem State.setSource_brk (i : Nat) (x : Source) (j : Nat) : (s.setSource i x).brk j = s.brk j := (rfl)
@[simp] theorem State.setSource_now (i : Nat) (x : Source) : (s.setSource i x).now = s.now := (rfl)
@[simp] theorem State.setSource_up (i : Nat) (x : Source) : (s.setSource i x).up = s.up := (rfl)
@[simp] theorem State.setSource_working (i : Nat) (x : Source) : (s.setSource i x).working = s.working := (rfl)
@[simp] theorem State.setSource_trimmed (i : Nat) (x : Source) : (s.setSource i x).trimmed = s.trimmed := (rfl)
@[simp] theorem State.setSource_powered (i : Nat) (x : Source) : (s.setSource i x).powered = s.powered := (rfl)

/-! ### State.setBrk -/

@[simp] theorem State.setBrk_pending (u : Nat) (x : Break) : (s.setBrk u x).pending = s.pending := (rfl)
@[simp] theorem State.setBrk_heldCmds (u : Nat) (x : Break) : (s.setBrk u x).heldCmds = s.heldCmds := (rfl)
@[simp] theorem State.setBrk_heldFrom (u : Nat) (x : Break) : (s.setBrk u x).heldFrom = s.heldFrom := (rfl)
@[simp] theorem State.setBrk_out (u : Nat) (x : Break) : (s.setBrk u x).out = s.out := (rfl)
@[simp] theorem State.setBrk_free (u : Nat) (x : Break) : (s.setBrk u x).free = s.free := (rfl)
@[simp] theorem State.setBrk_stamp (u : Nat) (x : Break) : (s.setBrk u x).stamp = s.stamp := (rfl)
@[simp] theorem State.setBrk_power (u : Nat) (x : Break) : (s.setBrk u x).power = s.power := (rfl)
@[simp] theorem State.setBrk_usec (u : Nat) (x : Break) : (s.setBrk u x).usec = s.usec := (rfl)
@[simp] theorem State.setBrk_fuses (u : Nat) (x : Break) : (s.setBrk u x).fuses = s.fuses := (rfl)
@[simp] theorem State.setBrk_trim (u : Nat) (x : Break) : (s.setBrk u x).trim = s.trim := (rfl)
@[simp] theorem State.setBrk_clocks (u : Nat) (x : Break) : (s.setBrk u x).clocks = s.clocks := (rfl)
@[simp] theorem State.setBrk_charge (u : Nat) (x : Break) : (s.setBrk u x).charge = s.charge := (rfl)
@[simp] theorem State.setBrk_regs (u : Nat) (x : Break) : (s.setBrk u x).regs = s.regs := (rfl)
@[simp] theorem State.setBrk_latches (u : Nat) (x : Break) : (s.setBrk u x).latches = s.latches := (rfl)
@[simp] theorem State.setBrk_queues (u : Nat) (x : Break) : (s.setBrk u x).queues = s.queues := (rfl)
@[simp] theorem State.setBrk_fetchLast (u : Nat) (x : Break) : (s.setBrk u x).fetchLast = s.fetchLast := (rfl)
@[simp] theorem State.setBrk_fabric (u : Nat) (x : Break) : (s.setBrk u x).fabric = s.fabric := (rfl)
@[simp] theorem State.setBrk_nodes (u : Nat) (x : Break) : (s.setBrk u x).nodes = s.nodes := (rfl)
@[simp] theorem State.setBrk_furrows (u : Nat) (x : Break) : (s.setBrk u x).furrows = s.furrows := (rfl)
@[simp] theorem State.setBrk_admits (u : Nat) (x : Break) : (s.setBrk u x).admits = s.admits := (rfl)
@[simp] theorem State.setBrk_flying (u : Nat) (x : Break) : (s.setBrk u x).flying = s.flying := (rfl)
@[simp] theorem State.setBrk_reports (u : Nat) (x : Break) : (s.setBrk u x).reports = s.reports := (rfl)
@[simp] theorem State.setBrk_nextIssue (u : Nat) (x : Break) : (s.setBrk u x).nextIssue = s.nextIssue := (rfl)
@[simp] theorem State.setBrk_slots (u : Nat) (x : Break) : (s.setBrk u x).slots = s.slots := (rfl)
@[simp] theorem State.setBrk_oldSlots (u : Nat) (x : Break) : (s.setBrk u x).oldSlots = s.oldSlots := (rfl)
@[simp] theorem State.setBrk_oldRetired (u : Nat) (x : Break) : (s.setBrk u x).oldRetired = s.oldRetired := (rfl)
@[simp] theorem State.setBrk_stewardQ (u : Nat) (x : Break) : (s.setBrk u x).stewardQ = s.stewardQ := (rfl)
@[simp] theorem State.setBrk_objects (u : Nat) (x : Break) : (s.setBrk u x).objects = s.objects := (rfl)
@[simp] theorem State.setBrk_waiters (u : Nat) (x : Break) : (s.setBrk u x).waiters = s.waiters := (rfl)
@[simp] theorem State.setBrk_remoteOps (u : Nat) (x : Break) : (s.setBrk u x).remoteOps = s.remoteOps := (rfl)
@[simp] theorem State.setBrk_nextMsg (u : Nat) (x : Break) : (s.setBrk u x).nextMsg = s.nextMsg := (rfl)
@[simp] theorem State.setBrk_hivestat (u : Nat) (x : Break) : (s.setBrk u x).hivestat = s.hivestat := (rfl)
@[simp] theorem State.setBrk_debug (u : Nat) (x : Break) : (s.setBrk u x).debug = s.debug := (rfl)
@[simp] theorem State.setBrk_lent (u : Nat) (x : Break) : (s.setBrk u x).lent = s.lent := (rfl)
@[simp] theorem State.setBrk_ctxs (u : Nat) (x : Break) : (s.setBrk u x).ctxs = s.ctxs := (rfl)
@[simp] theorem State.setBrk_parts (u : Nat) (x : Break) : (s.setBrk u x).parts = s.parts := (rfl)
@[simp] theorem State.setBrk_tears (u : Nat) (x : Break) : (s.setBrk u x).tears = s.tears := (rfl)
@[simp] theorem State.setBrk_cores (u : Nat) (x : Break) : (s.setBrk u x).cores = s.cores := (rfl)
@[simp] theorem State.setBrk_phys (u : Nat) (x : Break) : (s.setBrk u x).phys = s.phys := (rfl)
@[simp] theorem State.setBrk_routines (u : Nat) (x : Break) : (s.setBrk u x).routines = s.routines := (rfl)
@[simp] theorem State.setBrk_agents (u : Nat) (x : Break) : (s.setBrk u x).agents = s.agents := (rfl)
@[simp] theorem State.setBrk_dirs (u : Nat) (x : Break) : (s.setBrk u x).dirs = s.dirs := (rfl)
@[simp] theorem State.setBrk_net (u : Nat) (x : Break) : (s.setBrk u x).net = s.net := (rfl)
@[simp] theorem State.setBrk_intake (u : Nat) (x : Break) : (s.setBrk u x).intake = s.intake := (rfl)
@[simp] theorem State.setBrk_lineWork (u : Nat) (x : Break) : (s.setBrk u x).lineWork = s.lineWork := (rfl)
@[simp] theorem State.setBrk_reads (u : Nat) (x : Break) : (s.setBrk u x).reads = s.reads := (rfl)
@[simp] theorem State.setBrk_faults (u : Nat) (x : Break) : (s.setBrk u x).faults = s.faults := (rfl)
@[simp] theorem State.setBrk_recov (u : Nat) (x : Break) : (s.setBrk u x).recov = s.recov := (rfl)
@[simp] theorem State.setBrk_groups (u : Nat) (x : Break) : (s.setBrk u x).groups = s.groups := (rfl)
@[simp] theorem State.setBrk_stale (u : Nat) (x : Break) : (s.setBrk u x).stale = s.stale := (rfl)
@[simp] theorem State.setBrk_fence (u : Nat) (x : Break) : (s.setBrk u x).fence = s.fence := (rfl)
@[simp] theorem State.setBrk_audit (u : Nat) (x : Break) : (s.setBrk u x).audit = s.audit := (rfl)
@[simp] theorem State.setBrk_trace (u : Nat) (x : Break) : (s.setBrk u x).trace = s.trace := (rfl)
@[simp] theorem State.setBrk_life (u : Nat) (x : Break) : (s.setBrk u x).life = s.life := (rfl)
@[simp] theorem State.setBrk_plaliveOn (u : Nat) (x : Break) : (s.setBrk u x).plaliveOn = s.plaliveOn := (rfl)
@[simp] theorem State.setBrk_plalive (u : Nat) (x : Break) : (s.setBrk u x).plalive = s.plalive := (rfl)
@[simp] theorem State.setBrk_aliveDue (u : Nat) (x : Break) : (s.setBrk u x).aliveDue = s.aliveDue := (rfl)
@[simp] theorem State.setBrk_plfault (u : Nat) (x : Break) : (s.setBrk u x).plfault = s.plfault := (rfl)
@[simp] theorem State.setBrk_queue (u : Nat) (x : Break) (j : Nat) : (s.setBrk u x).queue j = s.queue j := (rfl)
@[simp] theorem State.setBrk_node (u : Nat) (x : Break) (j : Nat) : (s.setBrk u x).node j = s.node j := (rfl)
@[simp] theorem State.setBrk_furrow (u : Nat) (x : Break) (j : Nat) : (s.setBrk u x).furrow j = s.furrow j := (rfl)
@[simp] theorem State.setBrk_slot (u : Nat) (x : Break) (j : Nat) : (s.setBrk u x).slot j = s.slot j := (rfl)
@[simp] theorem State.setBrk_obj (u : Nat) (x : Break) (j : Nat) : (s.setBrk u x).obj j = s.obj j := (rfl)
@[simp] theorem State.setBrk_waitersOf (u : Nat) (x : Break) (j : Nat) : (s.setBrk u x).waitersOf j = s.waitersOf j := (rfl)
@[simp] theorem State.setBrk_ctx (u : Nat) (x : Break) (j : Nat) : (s.setBrk u x).ctx j = s.ctx j := (rfl)
@[simp] theorem State.setBrk_part (u : Nat) (x : Break) (j : Nat) : (s.setBrk u x).part j = s.part j := (rfl)
@[simp] theorem State.setBrk_core (u : Nat) (x : Break) (j : Nat) : (s.setBrk u x).core j = s.core j := (rfl)
@[simp] theorem State.setBrk_rslot (u : Nat) (x : Break) (j : Nat) : (s.setBrk u x).rslot j = s.rslot j := (rfl)
@[simp] theorem State.setBrk_group (u : Nat) (x : Break) (j : Nat) : (s.setBrk u x).group j = s.group j := (rfl)
@[simp] theorem State.setBrk_source (u : Nat) (x : Break) (j : Nat) : (s.setBrk u x).source j = s.source j := (rfl)
@[simp] theorem State.setBrk_now (u : Nat) (x : Break) : (s.setBrk u x).now = s.now := (rfl)
@[simp] theorem State.setBrk_up (u : Nat) (x : Break) : (s.setBrk u x).up = s.up := (rfl)
@[simp] theorem State.setBrk_working (u : Nat) (x : Break) : (s.setBrk u x).working = s.working := (rfl)
@[simp] theorem State.setBrk_trimmed (u : Nat) (x : Break) : (s.setBrk u x).trimmed = s.trimmed := (rfl)
@[simp] theorem State.setBrk_powered (u : Nat) (x : Break) : (s.setBrk u x).powered = s.powered := (rfl)

/-! ### State.drive -/

@[simp] theorem State.drive_pending (o : Out) : (s.drive o).pending = s.pending := (rfl)
@[simp] theorem State.drive_heldCmds (o : Out) : (s.drive o).heldCmds = s.heldCmds := (rfl)
@[simp] theorem State.drive_heldFrom (o : Out) : (s.drive o).heldFrom = s.heldFrom := (rfl)
@[simp] theorem State.drive_free (o : Out) : (s.drive o).free = s.free := (rfl)
@[simp] theorem State.drive_stamp (o : Out) : (s.drive o).stamp = s.stamp := (rfl)
@[simp] theorem State.drive_power (o : Out) : (s.drive o).power = s.power := (rfl)
@[simp] theorem State.drive_usec (o : Out) : (s.drive o).usec = s.usec := (rfl)
@[simp] theorem State.drive_fuses (o : Out) : (s.drive o).fuses = s.fuses := (rfl)
@[simp] theorem State.drive_trim (o : Out) : (s.drive o).trim = s.trim := (rfl)
@[simp] theorem State.drive_clocks (o : Out) : (s.drive o).clocks = s.clocks := (rfl)
@[simp] theorem State.drive_charge (o : Out) : (s.drive o).charge = s.charge := (rfl)
@[simp] theorem State.drive_regs (o : Out) : (s.drive o).regs = s.regs := (rfl)
@[simp] theorem State.drive_latches (o : Out) : (s.drive o).latches = s.latches := (rfl)
@[simp] theorem State.drive_queues (o : Out) : (s.drive o).queues = s.queues := (rfl)
@[simp] theorem State.drive_fetchLast (o : Out) : (s.drive o).fetchLast = s.fetchLast := (rfl)
@[simp] theorem State.drive_fabric (o : Out) : (s.drive o).fabric = s.fabric := (rfl)
@[simp] theorem State.drive_nodes (o : Out) : (s.drive o).nodes = s.nodes := (rfl)
@[simp] theorem State.drive_furrows (o : Out) : (s.drive o).furrows = s.furrows := (rfl)
@[simp] theorem State.drive_admits (o : Out) : (s.drive o).admits = s.admits := (rfl)
@[simp] theorem State.drive_flying (o : Out) : (s.drive o).flying = s.flying := (rfl)
@[simp] theorem State.drive_reports (o : Out) : (s.drive o).reports = s.reports := (rfl)
@[simp] theorem State.drive_nextIssue (o : Out) : (s.drive o).nextIssue = s.nextIssue := (rfl)
@[simp] theorem State.drive_slots (o : Out) : (s.drive o).slots = s.slots := (rfl)
@[simp] theorem State.drive_oldSlots (o : Out) : (s.drive o).oldSlots = s.oldSlots := (rfl)
@[simp] theorem State.drive_oldRetired (o : Out) : (s.drive o).oldRetired = s.oldRetired := (rfl)
@[simp] theorem State.drive_stewardQ (o : Out) : (s.drive o).stewardQ = s.stewardQ := (rfl)
@[simp] theorem State.drive_objects (o : Out) : (s.drive o).objects = s.objects := (rfl)
@[simp] theorem State.drive_waiters (o : Out) : (s.drive o).waiters = s.waiters := (rfl)
@[simp] theorem State.drive_remoteOps (o : Out) : (s.drive o).remoteOps = s.remoteOps := (rfl)
@[simp] theorem State.drive_nextMsg (o : Out) : (s.drive o).nextMsg = s.nextMsg := (rfl)
@[simp] theorem State.drive_hivestat (o : Out) : (s.drive o).hivestat = s.hivestat := (rfl)
@[simp] theorem State.drive_debug (o : Out) : (s.drive o).debug = s.debug := (rfl)
@[simp] theorem State.drive_lent (o : Out) : (s.drive o).lent = s.lent := (rfl)
@[simp] theorem State.drive_ctxs (o : Out) : (s.drive o).ctxs = s.ctxs := (rfl)
@[simp] theorem State.drive_parts (o : Out) : (s.drive o).parts = s.parts := (rfl)
@[simp] theorem State.drive_tears (o : Out) : (s.drive o).tears = s.tears := (rfl)
@[simp] theorem State.drive_cores (o : Out) : (s.drive o).cores = s.cores := (rfl)
@[simp] theorem State.drive_phys (o : Out) : (s.drive o).phys = s.phys := (rfl)
@[simp] theorem State.drive_routines (o : Out) : (s.drive o).routines = s.routines := (rfl)
@[simp] theorem State.drive_agents (o : Out) : (s.drive o).agents = s.agents := (rfl)
@[simp] theorem State.drive_dirs (o : Out) : (s.drive o).dirs = s.dirs := (rfl)
@[simp] theorem State.drive_net (o : Out) : (s.drive o).net = s.net := (rfl)
@[simp] theorem State.drive_intake (o : Out) : (s.drive o).intake = s.intake := (rfl)
@[simp] theorem State.drive_lineWork (o : Out) : (s.drive o).lineWork = s.lineWork := (rfl)
@[simp] theorem State.drive_reads (o : Out) : (s.drive o).reads = s.reads := (rfl)
@[simp] theorem State.drive_faults (o : Out) : (s.drive o).faults = s.faults := (rfl)
@[simp] theorem State.drive_recov (o : Out) : (s.drive o).recov = s.recov := (rfl)
@[simp] theorem State.drive_groups (o : Out) : (s.drive o).groups = s.groups := (rfl)
@[simp] theorem State.drive_stale (o : Out) : (s.drive o).stale = s.stale := (rfl)
@[simp] theorem State.drive_fence (o : Out) : (s.drive o).fence = s.fence := (rfl)
@[simp] theorem State.drive_audit (o : Out) : (s.drive o).audit = s.audit := (rfl)
@[simp] theorem State.drive_trace (o : Out) : (s.drive o).trace = s.trace := (rfl)
@[simp] theorem State.drive_breaks (o : Out) : (s.drive o).breaks = s.breaks := (rfl)
@[simp] theorem State.drive_life (o : Out) : (s.drive o).life = s.life := (rfl)
@[simp] theorem State.drive_plaliveOn (o : Out) : (s.drive o).plaliveOn = s.plaliveOn := (rfl)
@[simp] theorem State.drive_plalive (o : Out) : (s.drive o).plalive = s.plalive := (rfl)
@[simp] theorem State.drive_aliveDue (o : Out) : (s.drive o).aliveDue = s.aliveDue := (rfl)
@[simp] theorem State.drive_plfault (o : Out) : (s.drive o).plfault = s.plfault := (rfl)
@[simp] theorem State.drive_queue (o : Out) (j : Nat) : (s.drive o).queue j = s.queue j := (rfl)
@[simp] theorem State.drive_node (o : Out) (j : Nat) : (s.drive o).node j = s.node j := (rfl)
@[simp] theorem State.drive_furrow (o : Out) (j : Nat) : (s.drive o).furrow j = s.furrow j := (rfl)
@[simp] theorem State.drive_slot (o : Out) (j : Nat) : (s.drive o).slot j = s.slot j := (rfl)
@[simp] theorem State.drive_obj (o : Out) (j : Nat) : (s.drive o).obj j = s.obj j := (rfl)
@[simp] theorem State.drive_waitersOf (o : Out) (j : Nat) : (s.drive o).waitersOf j = s.waitersOf j := (rfl)
@[simp] theorem State.drive_ctx (o : Out) (j : Nat) : (s.drive o).ctx j = s.ctx j := (rfl)
@[simp] theorem State.drive_part (o : Out) (j : Nat) : (s.drive o).part j = s.part j := (rfl)
@[simp] theorem State.drive_core (o : Out) (j : Nat) : (s.drive o).core j = s.core j := (rfl)
@[simp] theorem State.drive_rslot (o : Out) (j : Nat) : (s.drive o).rslot j = s.rslot j := (rfl)
@[simp] theorem State.drive_group (o : Out) (j : Nat) : (s.drive o).group j = s.group j := (rfl)
@[simp] theorem State.drive_source (o : Out) (j : Nat) : (s.drive o).source j = s.source j := (rfl)
@[simp] theorem State.drive_brk (o : Out) (j : Nat) : (s.drive o).brk j = s.brk j := (rfl)
@[simp] theorem State.drive_now (o : Out) : (s.drive o).now = s.now := (rfl)
@[simp] theorem State.drive_up (o : Out) : (s.drive o).up = s.up := (rfl)
@[simp] theorem State.drive_working (o : Out) : (s.drive o).working = s.working := (rfl)
@[simp] theorem State.drive_trimmed (o : Out) : (s.drive o).trimmed = s.trimmed := (rfl)
@[simp] theorem State.drive_powered (o : Out) : (s.drive o).powered = s.powered := (rfl)

/-! ### State.tickStamp -/

@[simp] theorem State.tickStamp_pending : (s.tickStamp).pending = s.pending := (rfl)
@[simp] theorem State.tickStamp_heldCmds : (s.tickStamp).heldCmds = s.heldCmds := (rfl)
@[simp] theorem State.tickStamp_heldFrom : (s.tickStamp).heldFrom = s.heldFrom := (rfl)
@[simp] theorem State.tickStamp_out : (s.tickStamp).out = s.out := (rfl)
@[simp] theorem State.tickStamp_free : (s.tickStamp).free = s.free := (rfl)
@[simp] theorem State.tickStamp_power : (s.tickStamp).power = s.power := (rfl)
@[simp] theorem State.tickStamp_usec : (s.tickStamp).usec = s.usec := (rfl)
@[simp] theorem State.tickStamp_fuses : (s.tickStamp).fuses = s.fuses := (rfl)
@[simp] theorem State.tickStamp_trim : (s.tickStamp).trim = s.trim := (rfl)
@[simp] theorem State.tickStamp_clocks : (s.tickStamp).clocks = s.clocks := (rfl)
@[simp] theorem State.tickStamp_charge : (s.tickStamp).charge = s.charge := (rfl)
@[simp] theorem State.tickStamp_regs : (s.tickStamp).regs = s.regs := (rfl)
@[simp] theorem State.tickStamp_latches : (s.tickStamp).latches = s.latches := (rfl)
@[simp] theorem State.tickStamp_queues : (s.tickStamp).queues = s.queues := (rfl)
@[simp] theorem State.tickStamp_fetchLast : (s.tickStamp).fetchLast = s.fetchLast := (rfl)
@[simp] theorem State.tickStamp_fabric : (s.tickStamp).fabric = s.fabric := (rfl)
@[simp] theorem State.tickStamp_nodes : (s.tickStamp).nodes = s.nodes := (rfl)
@[simp] theorem State.tickStamp_furrows : (s.tickStamp).furrows = s.furrows := (rfl)
@[simp] theorem State.tickStamp_admits : (s.tickStamp).admits = s.admits := (rfl)
@[simp] theorem State.tickStamp_flying : (s.tickStamp).flying = s.flying := (rfl)
@[simp] theorem State.tickStamp_reports : (s.tickStamp).reports = s.reports := (rfl)
@[simp] theorem State.tickStamp_nextIssue : (s.tickStamp).nextIssue = s.nextIssue := (rfl)
@[simp] theorem State.tickStamp_slots : (s.tickStamp).slots = s.slots := (rfl)
@[simp] theorem State.tickStamp_oldSlots : (s.tickStamp).oldSlots = s.oldSlots := (rfl)
@[simp] theorem State.tickStamp_oldRetired : (s.tickStamp).oldRetired = s.oldRetired := (rfl)
@[simp] theorem State.tickStamp_stewardQ : (s.tickStamp).stewardQ = s.stewardQ := (rfl)
@[simp] theorem State.tickStamp_objects : (s.tickStamp).objects = s.objects := (rfl)
@[simp] theorem State.tickStamp_waiters : (s.tickStamp).waiters = s.waiters := (rfl)
@[simp] theorem State.tickStamp_remoteOps : (s.tickStamp).remoteOps = s.remoteOps := (rfl)
@[simp] theorem State.tickStamp_nextMsg : (s.tickStamp).nextMsg = s.nextMsg := (rfl)
@[simp] theorem State.tickStamp_hivestat : (s.tickStamp).hivestat = s.hivestat := (rfl)
@[simp] theorem State.tickStamp_debug : (s.tickStamp).debug = s.debug := (rfl)
@[simp] theorem State.tickStamp_lent : (s.tickStamp).lent = s.lent := (rfl)
@[simp] theorem State.tickStamp_ctxs : (s.tickStamp).ctxs = s.ctxs := (rfl)
@[simp] theorem State.tickStamp_parts : (s.tickStamp).parts = s.parts := (rfl)
@[simp] theorem State.tickStamp_tears : (s.tickStamp).tears = s.tears := (rfl)
@[simp] theorem State.tickStamp_cores : (s.tickStamp).cores = s.cores := (rfl)
@[simp] theorem State.tickStamp_phys : (s.tickStamp).phys = s.phys := (rfl)
@[simp] theorem State.tickStamp_routines : (s.tickStamp).routines = s.routines := (rfl)
@[simp] theorem State.tickStamp_agents : (s.tickStamp).agents = s.agents := (rfl)
@[simp] theorem State.tickStamp_dirs : (s.tickStamp).dirs = s.dirs := (rfl)
@[simp] theorem State.tickStamp_net : (s.tickStamp).net = s.net := (rfl)
@[simp] theorem State.tickStamp_intake : (s.tickStamp).intake = s.intake := (rfl)
@[simp] theorem State.tickStamp_lineWork : (s.tickStamp).lineWork = s.lineWork := (rfl)
@[simp] theorem State.tickStamp_reads : (s.tickStamp).reads = s.reads := (rfl)
@[simp] theorem State.tickStamp_faults : (s.tickStamp).faults = s.faults := (rfl)
@[simp] theorem State.tickStamp_recov : (s.tickStamp).recov = s.recov := (rfl)
@[simp] theorem State.tickStamp_groups : (s.tickStamp).groups = s.groups := (rfl)
@[simp] theorem State.tickStamp_stale : (s.tickStamp).stale = s.stale := (rfl)
@[simp] theorem State.tickStamp_fence : (s.tickStamp).fence = s.fence := (rfl)
@[simp] theorem State.tickStamp_audit : (s.tickStamp).audit = s.audit := (rfl)
@[simp] theorem State.tickStamp_trace : (s.tickStamp).trace = s.trace := (rfl)
@[simp] theorem State.tickStamp_breaks : (s.tickStamp).breaks = s.breaks := (rfl)
@[simp] theorem State.tickStamp_life : (s.tickStamp).life = s.life := (rfl)
@[simp] theorem State.tickStamp_plaliveOn : (s.tickStamp).plaliveOn = s.plaliveOn := (rfl)
@[simp] theorem State.tickStamp_plalive : (s.tickStamp).plalive = s.plalive := (rfl)
@[simp] theorem State.tickStamp_aliveDue : (s.tickStamp).aliveDue = s.aliveDue := (rfl)
@[simp] theorem State.tickStamp_plfault : (s.tickStamp).plfault = s.plfault := (rfl)
@[simp] theorem State.tickStamp_queue (j : Nat) : (s.tickStamp).queue j = s.queue j := (rfl)
@[simp] theorem State.tickStamp_node (j : Nat) : (s.tickStamp).node j = s.node j := (rfl)
@[simp] theorem State.tickStamp_furrow (j : Nat) : (s.tickStamp).furrow j = s.furrow j := (rfl)
@[simp] theorem State.tickStamp_slot (j : Nat) : (s.tickStamp).slot j = s.slot j := (rfl)
@[simp] theorem State.tickStamp_obj (j : Nat) : (s.tickStamp).obj j = s.obj j := (rfl)
@[simp] theorem State.tickStamp_waitersOf (j : Nat) : (s.tickStamp).waitersOf j = s.waitersOf j := (rfl)
@[simp] theorem State.tickStamp_ctx (j : Nat) : (s.tickStamp).ctx j = s.ctx j := (rfl)
@[simp] theorem State.tickStamp_part (j : Nat) : (s.tickStamp).part j = s.part j := (rfl)
@[simp] theorem State.tickStamp_core (j : Nat) : (s.tickStamp).core j = s.core j := (rfl)
@[simp] theorem State.tickStamp_rslot (j : Nat) : (s.tickStamp).rslot j = s.rslot j := (rfl)
@[simp] theorem State.tickStamp_group (j : Nat) : (s.tickStamp).group j = s.group j := (rfl)
@[simp] theorem State.tickStamp_source (j : Nat) : (s.tickStamp).source j = s.source j := (rfl)
@[simp] theorem State.tickStamp_brk (j : Nat) : (s.tickStamp).brk j = s.brk j := (rfl)
@[simp] theorem State.tickStamp_now : (s.tickStamp).now = s.now := (rfl)
@[simp] theorem State.tickStamp_up : (s.tickStamp).up = s.up := (rfl)
@[simp] theorem State.tickStamp_working : (s.tickStamp).working = s.working := (rfl)
@[simp] theorem State.tickStamp_trimmed : (s.tickStamp).trimmed = s.trimmed := (rfl)
@[simp] theorem State.tickStamp_powered : (s.tickStamp).powered = s.powered := (rfl)

/-! ### State.useFree -/

@[simp] theorem State.useFree_pending : (s.useFree).pending = s.pending := (rfl)
@[simp] theorem State.useFree_heldCmds : (s.useFree).heldCmds = s.heldCmds := (rfl)
@[simp] theorem State.useFree_heldFrom : (s.useFree).heldFrom = s.heldFrom := (rfl)
@[simp] theorem State.useFree_out : (s.useFree).out = s.out := (rfl)
@[simp] theorem State.useFree_stamp : (s.useFree).stamp = s.stamp := (rfl)
@[simp] theorem State.useFree_power : (s.useFree).power = s.power := (rfl)
@[simp] theorem State.useFree_usec : (s.useFree).usec = s.usec := (rfl)
@[simp] theorem State.useFree_fuses : (s.useFree).fuses = s.fuses := (rfl)
@[simp] theorem State.useFree_trim : (s.useFree).trim = s.trim := (rfl)
@[simp] theorem State.useFree_clocks : (s.useFree).clocks = s.clocks := (rfl)
@[simp] theorem State.useFree_charge : (s.useFree).charge = s.charge := (rfl)
@[simp] theorem State.useFree_regs : (s.useFree).regs = s.regs := (rfl)
@[simp] theorem State.useFree_latches : (s.useFree).latches = s.latches := (rfl)
@[simp] theorem State.useFree_queues : (s.useFree).queues = s.queues := (rfl)
@[simp] theorem State.useFree_fetchLast : (s.useFree).fetchLast = s.fetchLast := (rfl)
@[simp] theorem State.useFree_fabric : (s.useFree).fabric = s.fabric := (rfl)
@[simp] theorem State.useFree_nodes : (s.useFree).nodes = s.nodes := (rfl)
@[simp] theorem State.useFree_furrows : (s.useFree).furrows = s.furrows := (rfl)
@[simp] theorem State.useFree_admits : (s.useFree).admits = s.admits := (rfl)
@[simp] theorem State.useFree_flying : (s.useFree).flying = s.flying := (rfl)
@[simp] theorem State.useFree_reports : (s.useFree).reports = s.reports := (rfl)
@[simp] theorem State.useFree_nextIssue : (s.useFree).nextIssue = s.nextIssue := (rfl)
@[simp] theorem State.useFree_slots : (s.useFree).slots = s.slots := (rfl)
@[simp] theorem State.useFree_oldSlots : (s.useFree).oldSlots = s.oldSlots := (rfl)
@[simp] theorem State.useFree_oldRetired : (s.useFree).oldRetired = s.oldRetired := (rfl)
@[simp] theorem State.useFree_stewardQ : (s.useFree).stewardQ = s.stewardQ := (rfl)
@[simp] theorem State.useFree_objects : (s.useFree).objects = s.objects := (rfl)
@[simp] theorem State.useFree_waiters : (s.useFree).waiters = s.waiters := (rfl)
@[simp] theorem State.useFree_remoteOps : (s.useFree).remoteOps = s.remoteOps := (rfl)
@[simp] theorem State.useFree_nextMsg : (s.useFree).nextMsg = s.nextMsg := (rfl)
@[simp] theorem State.useFree_hivestat : (s.useFree).hivestat = s.hivestat := (rfl)
@[simp] theorem State.useFree_debug : (s.useFree).debug = s.debug := (rfl)
@[simp] theorem State.useFree_lent : (s.useFree).lent = s.lent := (rfl)
@[simp] theorem State.useFree_ctxs : (s.useFree).ctxs = s.ctxs := (rfl)
@[simp] theorem State.useFree_parts : (s.useFree).parts = s.parts := (rfl)
@[simp] theorem State.useFree_tears : (s.useFree).tears = s.tears := (rfl)
@[simp] theorem State.useFree_cores : (s.useFree).cores = s.cores := (rfl)
@[simp] theorem State.useFree_phys : (s.useFree).phys = s.phys := (rfl)
@[simp] theorem State.useFree_routines : (s.useFree).routines = s.routines := (rfl)
@[simp] theorem State.useFree_agents : (s.useFree).agents = s.agents := (rfl)
@[simp] theorem State.useFree_dirs : (s.useFree).dirs = s.dirs := (rfl)
@[simp] theorem State.useFree_net : (s.useFree).net = s.net := (rfl)
@[simp] theorem State.useFree_intake : (s.useFree).intake = s.intake := (rfl)
@[simp] theorem State.useFree_lineWork : (s.useFree).lineWork = s.lineWork := (rfl)
@[simp] theorem State.useFree_reads : (s.useFree).reads = s.reads := (rfl)
@[simp] theorem State.useFree_faults : (s.useFree).faults = s.faults := (rfl)
@[simp] theorem State.useFree_recov : (s.useFree).recov = s.recov := (rfl)
@[simp] theorem State.useFree_groups : (s.useFree).groups = s.groups := (rfl)
@[simp] theorem State.useFree_stale : (s.useFree).stale = s.stale := (rfl)
@[simp] theorem State.useFree_fence : (s.useFree).fence = s.fence := (rfl)
@[simp] theorem State.useFree_audit : (s.useFree).audit = s.audit := (rfl)
@[simp] theorem State.useFree_trace : (s.useFree).trace = s.trace := (rfl)
@[simp] theorem State.useFree_breaks : (s.useFree).breaks = s.breaks := (rfl)
@[simp] theorem State.useFree_life : (s.useFree).life = s.life := (rfl)
@[simp] theorem State.useFree_plaliveOn : (s.useFree).plaliveOn = s.plaliveOn := (rfl)
@[simp] theorem State.useFree_plalive : (s.useFree).plalive = s.plalive := (rfl)
@[simp] theorem State.useFree_aliveDue : (s.useFree).aliveDue = s.aliveDue := (rfl)
@[simp] theorem State.useFree_plfault : (s.useFree).plfault = s.plfault := (rfl)
@[simp] theorem State.useFree_queue (j : Nat) : (s.useFree).queue j = s.queue j := (rfl)
@[simp] theorem State.useFree_node (j : Nat) : (s.useFree).node j = s.node j := (rfl)
@[simp] theorem State.useFree_furrow (j : Nat) : (s.useFree).furrow j = s.furrow j := (rfl)
@[simp] theorem State.useFree_slot (j : Nat) : (s.useFree).slot j = s.slot j := (rfl)
@[simp] theorem State.useFree_obj (j : Nat) : (s.useFree).obj j = s.obj j := (rfl)
@[simp] theorem State.useFree_waitersOf (j : Nat) : (s.useFree).waitersOf j = s.waitersOf j := (rfl)
@[simp] theorem State.useFree_ctx (j : Nat) : (s.useFree).ctx j = s.ctx j := (rfl)
@[simp] theorem State.useFree_part (j : Nat) : (s.useFree).part j = s.part j := (rfl)
@[simp] theorem State.useFree_core (j : Nat) : (s.useFree).core j = s.core j := (rfl)
@[simp] theorem State.useFree_rslot (j : Nat) : (s.useFree).rslot j = s.rslot j := (rfl)
@[simp] theorem State.useFree_group (j : Nat) : (s.useFree).group j = s.group j := (rfl)
@[simp] theorem State.useFree_source (j : Nat) : (s.useFree).source j = s.source j := (rfl)
@[simp] theorem State.useFree_brk (j : Nat) : (s.useFree).brk j = s.brk j := (rfl)
@[simp] theorem State.useFree_now : (s.useFree).now = s.now := (rfl)
@[simp] theorem State.useFree_up : (s.useFree).up = s.up := (rfl)
@[simp] theorem State.useFree_working : (s.useFree).working = s.working := (rfl)
@[simp] theorem State.useFree_trimmed : (s.useFree).trimmed = s.trimmed := (rfl)
@[simp] theorem State.useFree_powered : (s.useFree).powered = s.powered := (rfl)

/-! ### What the updates write -/

theorem State.setQueue_queue_same (q : Nat) (x : Queue) (h : Tbl.wf ({} : Queue) s.queues = true) :
    (s.setQueue q x).queue q = x := Tbl.get_set_same q x h
theorem State.setQueue_queue_other {q j : Nat} (x : Queue) (h : j ≠ q) : (s.setQueue q x).queue j = s.queue j :=
  Tbl.get_set_other _ x h
theorem State.setQueue_queues_wf (q : Nat) (x : Queue) (h : Tbl.wf ({} : Queue) s.queues = true) :
    Tbl.wf ({} : Queue) (s.setQueue q x).queues = true := Tbl.wf_set q x h
theorem State.setNode_node_same (n : Nat) (x : Option Node) (h : Tbl.wf (none : Option Node) s.nodes = true) :
    (s.setNode n x).node n = x := Tbl.get_set_same n x h
theorem State.setNode_node_other {n j : Nat} (x : Option Node) (h : j ≠ n) : (s.setNode n x).node j = s.node j :=
  Tbl.get_set_other _ x h
theorem State.setNode_nodes_wf (n : Nat) (x : Option Node) (h : Tbl.wf (none : Option Node) s.nodes = true) :
    Tbl.wf (none : Option Node) (s.setNode n x).nodes = true := Tbl.wf_set n x h
theorem State.setFurrow_furrow_same (i : Nat) (x : Furrow) (h : Tbl.wf ({} : Furrow) s.furrows = true) :
    (s.setFurrow i x).furrow i = x := Tbl.get_set_same i x h
theorem State.setFurrow_furrow_other {i j : Nat} (x : Furrow) (h : j ≠ i) : (s.setFurrow i x).furrow j = s.furrow j :=
  Tbl.get_set_other _ x h
theorem State.setFurrow_furrows_wf (i : Nat) (x : Furrow) (h : Tbl.wf ({} : Furrow) s.furrows = true) :
    Tbl.wf ({} : Furrow) (s.setFurrow i x).furrows = true := Tbl.wf_set i x h
theorem State.setSlot_slot_same (n : Nat) (x : Slot) (h : Tbl.wf ({} : Slot) s.slots = true) :
    (s.setSlot n x).slot n = x := Tbl.get_set_same n x h
theorem State.setSlot_slot_other {n j : Nat} (x : Slot) (h : j ≠ n) : (s.setSlot n x).slot j = s.slot j :=
  Tbl.get_set_other _ x h
theorem State.setSlot_slots_wf (n : Nat) (x : Slot) (h : Tbl.wf ({} : Slot) s.slots = true) :
    Tbl.wf ({} : Slot) (s.setSlot n x).slots = true := Tbl.wf_set n x h
theorem State.setObj_obj_same (n : Nat) (x : Obj) (h : Tbl.wf ({} : Obj) s.objects = true) :
    (s.setObj n x).obj n = x := Tbl.get_set_same n x h
theorem State.setObj_obj_other {n j : Nat} (x : Obj) (h : j ≠ n) : (s.setObj n x).obj j = s.obj j :=
  Tbl.get_set_other _ x h
theorem State.setObj_objects_wf (n : Nat) (x : Obj) (h : Tbl.wf ({} : Obj) s.objects = true) :
    Tbl.wf ({} : Obj) (s.setObj n x).objects = true := Tbl.wf_set n x h
theorem State.setWaiters_waitersOf_same (n : Nat) (x : List Waiter) (h : Tbl.wf ([] : List Waiter) s.waiters = true) :
    (s.setWaiters n x).waitersOf n = x := Tbl.get_set_same n x h
theorem State.setWaiters_waitersOf_other {n j : Nat} (x : List Waiter) (h : j ≠ n) : (s.setWaiters n x).waitersOf j = s.waitersOf j :=
  Tbl.get_set_other _ x h
theorem State.setWaiters_waiters_wf (n : Nat) (x : List Waiter) (h : Tbl.wf ([] : List Waiter) s.waiters = true) :
    Tbl.wf ([] : List Waiter) (s.setWaiters n x).waiters = true := Tbl.wf_set n x h
theorem State.setCtx_ctx_same (c : Nat) (x : Ctx) (h : Tbl.wf ({} : Ctx) s.ctxs = true) :
    (s.setCtx c x).ctx c = x := Tbl.get_set_same c x h
theorem State.setCtx_ctx_other {c j : Nat} (x : Ctx) (h : j ≠ c) : (s.setCtx c x).ctx j = s.ctx j :=
  Tbl.get_set_other _ x h
theorem State.setCtx_ctxs_wf (c : Nat) (x : Ctx) (h : Tbl.wf ({} : Ctx) s.ctxs = true) :
    Tbl.wf ({} : Ctx) (s.setCtx c x).ctxs = true := Tbl.wf_set c x h
theorem State.setPart_part_same (p : Nat) (x : Partition) (h : Tbl.wf ({} : Partition) s.parts = true) :
    (s.setPart p x).part p = x := Tbl.get_set_same p x h
theorem State.setPart_part_other {p j : Nat} (x : Partition) (h : j ≠ p) : (s.setPart p x).part j = s.part j :=
  Tbl.get_set_other _ x h
theorem State.setPart_parts_wf (p : Nat) (x : Partition) (h : Tbl.wf ({} : Partition) s.parts = true) :
    Tbl.wf ({} : Partition) (s.setPart p x).parts = true := Tbl.wf_set p x h
theorem State.setCore_core_same (k : Nat) (x : Core) (h : Tbl.wf ({} : Core) s.cores = true) :
    (s.setCore k x).core k = x := Tbl.get_set_same k x h
theorem State.setCore_core_other {k j : Nat} (x : Core) (h : j ≠ k) : (s.setCore k x).core j = s.core j :=
  Tbl.get_set_other _ x h
theorem State.setCore_cores_wf (k : Nat) (x : Core) (h : Tbl.wf ({} : Core) s.cores = true) :
    Tbl.wf ({} : Core) (s.setCore k x).cores = true := Tbl.wf_set k x h
theorem State.setRslot_rslot_same (i : Nat) (x : RSlot) (h : Tbl.wf ({} : RSlot) s.routines = true) :
    (s.setRslot i x).rslot i = x := Tbl.get_set_same i x h
theorem State.setRslot_rslot_other {i j : Nat} (x : RSlot) (h : j ≠ i) : (s.setRslot i x).rslot j = s.rslot j :=
  Tbl.get_set_other _ x h
theorem State.setRslot_routines_wf (i : Nat) (x : RSlot) (h : Tbl.wf ({} : RSlot) s.routines = true) :
    Tbl.wf ({} : RSlot) (s.setRslot i x).routines = true := Tbl.wf_set i x h
theorem State.setGroup_group_same (p : Nat) (x : Group) (h : Tbl.wf ({} : Group) s.groups = true) :
    (s.setGroup p x).group p = x := Tbl.get_set_same p x h
theorem State.setGroup_group_other {p j : Nat} (x : Group) (h : j ≠ p) : (s.setGroup p x).group j = s.group j :=
  Tbl.get_set_other _ x h
theorem State.setGroup_groups_wf (p : Nat) (x : Group) (h : Tbl.wf ({} : Group) s.groups = true) :
    Tbl.wf ({} : Group) (s.setGroup p x).groups = true := Tbl.wf_set p x h
theorem State.setBrk_brk_same (u : Nat) (x : Break) (h : Tbl.wf ({} : Break) s.breaks = true) :
    (s.setBrk u x).brk u = x := Tbl.get_set_same u x h
theorem State.setBrk_brk_other {u j : Nat} (x : Break) (h : j ≠ u) : (s.setBrk u x).brk j = s.brk j :=
  Tbl.get_set_other _ x h
theorem State.setBrk_breaks_wf (u : Nat) (x : Break) (h : Tbl.wf ({} : Break) s.breaks = true) :
    Tbl.wf ({} : Break) (s.setBrk u x).breaks = true := Tbl.wf_set u x h

@[simp] theorem State.drive_out (o : Out) : (s.drive o).out = o :: s.out := (rfl)
@[simp] theorem State.tickStamp_stamp : s.tickStamp.stamp = s.stamp + 1 := (rfl)
@[simp] theorem State.useFree_free : s.useFree.free = s.free + 1 := (rfl)
theorem State.driveAll_out (os : List Out) : (s.driveAll os).out = os.reverse ++ s.out := by
  induction os generalizing s with
  | nil => rfl
  | cons o os ih =>
    show (State.driveAll (s.drive o) os).out = _
    rw [ih]; simp

/-! ### Conditions and outcomes -/

@[simp] theorem ok_pos {p : Prop} [Decidable p] (h : p) (t : State) : ok p t = .next t := by simp [ok, h]
theorem ok_neg {p : Prop} [Decidable p] (h : ¬p) (t : State) : ok p t = .fault .noSuchUnit := by simp [ok, h]
theorem ok_next {p : Prop} [Decidable p] {t u : State} (h : ok p t = .next u) : p ∧ t = u := by
  by_cases hp : p
  · rw [ok_pos hp] at h; exact ⟨hp, by injection h⟩
  · rw [ok_neg hp] at h; cases h
@[simp] theorem State.when_true (f : State → State) : s.when true f = f s := (rfl)
@[simp] theorem State.when_false (f : State → State) : s.when false f = s := (rfl)

end Sys2Proof.Machine
end

