-- ==== Sys2Proof/Laws/Canonical.lean ====
section
/-! SUPPORT. Every operation and every meaning keeps the canonical form of the state's tables
(Sys2Proof/Safety.lean): one lemma each, `<name>_canonical`. -/

set_option linter.all false
namespace Sys2Proof.Machine

/-- The canonical form of `queues`. -/
def wf_queues (t : Tbl (Queue)) : Prop := Tbl.wf ({} : Queue) t = true
/-- The canonical form of `fetchLast`. -/
def wf_fetchLast (t : Tbl (Nat)) : Prop := Tbl.wf (0 : Nat) t = true
/-- The canonical form of `nodes`. -/
def wf_nodes (t : Tbl (Option Node)) : Prop := Tbl.wf (none : Option Node) t = true
/-- The canonical form of `furrows`. -/
def wf_furrows (t : Tbl (Furrow)) : Prop := Tbl.wf ({} : Furrow) t = true
/-- The canonical form of `slots`. -/
def wf_slots (t : Tbl (Slot)) : Prop := Tbl.wf ({} : Slot) t = true
/-- The canonical form of `objects`. -/
def wf_objects (t : Tbl (Obj)) : Prop := Tbl.wf ({} : Obj) t = true
/-- The canonical form of `waiters`. -/
def wf_waiters (t : Tbl (List Waiter)) : Prop := Tbl.wf ([] : List Waiter) t = true
/-- The canonical form of `ctxs`. -/
def wf_ctxs (t : Tbl (Ctx)) : Prop := Tbl.wf ({} : Ctx) t = true
/-- The canonical form of `parts`. -/
def wf_parts (t : Tbl (Partition)) : Prop := Tbl.wf ({} : Partition) t = true
/-- The canonical form of `cores`. -/
def wf_cores (t : Tbl (Core)) : Prop := Tbl.wf ({} : Core) t = true
/-- The canonical form of `routines`. -/
def wf_routines (t : Tbl (RSlot)) : Prop := Tbl.wf ({} : RSlot) t = true
/-- The canonical form of `agents`. -/
def wf_agents (t : Tbl (ALine)) : Prop := Tbl.wf ({} : ALine) t = true
/-- The canonical form of `dirs`. -/
def wf_dirs (t : Tbl (Dir)) : Prop := Tbl.wf ({} : Dir) t = true
/-- The canonical form of `groups`. -/
def wf_groups (t : Tbl (Group)) : Prop := Tbl.wf ({} : Group) t = true
/-- The canonical form of `breaks`. -/
def wf_breaks (t : Tbl (Break)) : Prop := Tbl.wf ({} : Break) t = true
@[simp] theorem State.canonical_mk (a_pending a_heldCmds a_heldFrom a_out a_free a_stamp a_power a_usec a_fuses a_trim a_clocks a_charge a_regs a_latches a_queues a_fetchLast a_fabric a_nodes a_furrows a_admits a_flying a_reports a_nextIssue a_slots a_oldSlots a_oldRetired a_stewardQ a_objects a_waiters a_remoteOps a_nextMsg a_hivestat a_debug a_lent a_ctxs a_parts a_tears a_cores a_phys a_routines a_agents a_dirs a_net a_intake a_lineWork a_reads a_faults a_recov a_groups a_stale a_fence a_audit a_trace a_breaks a_life a_plaliveOn a_plalive a_aliveDue a_plfault) :
    (State.mk a_pending a_heldCmds a_heldFrom a_out a_free a_stamp a_power a_usec a_fuses a_trim a_clocks a_charge a_regs a_latches a_queues a_fetchLast a_fabric a_nodes a_furrows a_admits a_flying a_reports a_nextIssue a_slots a_oldSlots a_oldRetired a_stewardQ a_objects a_waiters a_remoteOps a_nextMsg a_hivestat a_debug a_lent a_ctxs a_parts a_tears a_cores a_phys a_routines a_agents a_dirs a_net a_intake a_lineWork a_reads a_faults a_recov a_groups a_stale a_fence a_audit a_trace a_breaks a_life a_plaliveOn a_plalive a_aliveDue a_plfault).Canonical ↔
    wf_queues a_queues ∧ wf_fetchLast a_fetchLast ∧ wf_nodes a_nodes ∧ wf_furrows a_furrows ∧ wf_slots a_slots ∧ wf_objects a_objects ∧ wf_waiters a_waiters ∧ wf_ctxs a_ctxs ∧ wf_parts a_parts ∧ wf_cores a_cores ∧ wf_routines a_routines ∧ wf_agents a_agents ∧ wf_dirs a_dirs ∧ wf_groups a_groups ∧ wf_breaks a_breaks := Iff.rfl
@[simp] theorem State.canonical_queues {s : State} (h : s.Canonical) : wf_queues s.queues := h.1
@[simp] theorem State.canonical_fetchLast {s : State} (h : s.Canonical) : wf_fetchLast s.fetchLast := h.2.1
@[simp] theorem State.canonical_nodes {s : State} (h : s.Canonical) : wf_nodes s.nodes := h.2.2.1
@[simp] theorem State.canonical_furrows {s : State} (h : s.Canonical) : wf_furrows s.furrows := h.2.2.2.1
@[simp] theorem State.canonical_slots {s : State} (h : s.Canonical) : wf_slots s.slots := h.2.2.2.2.1
@[simp] theorem State.canonical_objects {s : State} (h : s.Canonical) : wf_objects s.objects := h.2.2.2.2.2.1
@[simp] theorem State.canonical_waiters {s : State} (h : s.Canonical) : wf_waiters s.waiters := h.2.2.2.2.2.2.1
@[simp] theorem State.canonical_ctxs {s : State} (h : s.Canonical) : wf_ctxs s.ctxs := h.2.2.2.2.2.2.2.1
@[simp] theorem State.canonical_parts {s : State} (h : s.Canonical) : wf_parts s.parts := h.2.2.2.2.2.2.2.2.1
@[simp] theorem State.canonical_cores {s : State} (h : s.Canonical) : wf_cores s.cores := h.2.2.2.2.2.2.2.2.2.1
@[simp] theorem State.canonical_routines {s : State} (h : s.Canonical) : wf_routines s.routines := h.2.2.2.2.2.2.2.2.2.2.1
@[simp] theorem State.canonical_agents {s : State} (h : s.Canonical) : wf_agents s.agents := h.2.2.2.2.2.2.2.2.2.2.2.1
@[simp] theorem State.canonical_dirs {s : State} (h : s.Canonical) : wf_dirs s.dirs := h.2.2.2.2.2.2.2.2.2.2.2.2.1
@[simp] theorem State.canonical_groups {s : State} (h : s.Canonical) : wf_groups s.groups := h.2.2.2.2.2.2.2.2.2.2.2.2.2.1
@[simp] theorem State.canonical_breaks {s : State} (h : s.Canonical) : wf_breaks s.breaks := h.2.2.2.2.2.2.2.2.2.2.2.2.2.2
theorem Tbl.wfFrom_filter {α : Type} [DecidableEq α] {d : α} {t : Tbl α} {lo : Nat} (p : Nat × α → Bool) (h : Tbl.wfFrom d lo t = true) :
    Tbl.wfFrom d lo (t.filter p) = true := by
  induction t generalizing lo with
  | nil => rfl
  | cons e t ih =>
    obtain ⟨j, x⟩ := e
    simp only [Tbl.wfFrom, Bool.and_eq_true, decide_eq_true_eq] at h
    rw [List.filter_cons]
    split
    · simp only [Tbl.wfFrom, Bool.and_eq_true, decide_eq_true_eq]
      exact ⟨h.1, ih h.2⟩
    · exact Tbl.wfFrom_mono (by omega) (ih h.2)
theorem Tbl.wf_filter {α : Type} [DecidableEq α] {d : α} {t : Tbl α} (p : Nat × α → Bool) (h : Tbl.wf d t = true) :
    Tbl.wf d (t.filter p) = true := Tbl.wfFrom_filter p h
@[simp] theorem wf_queues_nil : wf_queues [] := (rfl)
@[simp] theorem wf_queues_set {d : Queue} {t : Tbl (Queue)} (k : Nat) (x : Queue) (hd : d = ({} : Queue)) (h : wf_queues t) :
    wf_queues (Tbl.set d t k x) := by
  subst hd; exact Tbl.wf_set k x h
@[simp] theorem wf_queues_mapAll {d : Queue} {t : Tbl (Queue)} (g : Nat → Queue → Queue) (hd : d = ({} : Queue)) (h : wf_queues t) :
    wf_queues (Tbl.mapAll d g t) := by
  subst hd; exact Tbl.wf_mapAll g h
@[simp] theorem wf_queues_filter {t : Tbl (Queue)} (p : Nat × (Queue) → Bool) (h : wf_queues t) :
    wf_queues (t.filter p) := Tbl.wf_filter p h
@[simp] theorem wf_fetchLast_nil : wf_fetchLast [] := (rfl)
@[simp] theorem wf_fetchLast_set {d : Nat} {t : Tbl (Nat)} (k : Nat) (x : Nat) (hd : d = (0 : Nat)) (h : wf_fetchLast t) :
    wf_fetchLast (Tbl.set d t k x) := by
  subst hd; exact Tbl.wf_set k x h
@[simp] theorem wf_fetchLast_mapAll {d : Nat} {t : Tbl (Nat)} (g : Nat → Nat → Nat) (hd : d = (0 : Nat)) (h : wf_fetchLast t) :
    wf_fetchLast (Tbl.mapAll d g t) := by
  subst hd; exact Tbl.wf_mapAll g h
@[simp] theorem wf_fetchLast_filter {t : Tbl (Nat)} (p : Nat × (Nat) → Bool) (h : wf_fetchLast t) :
    wf_fetchLast (t.filter p) := Tbl.wf_filter p h
@[simp] theorem wf_nodes_nil : wf_nodes [] := (rfl)
@[simp] theorem wf_nodes_set {d : Option Node} {t : Tbl (Option Node)} (k : Nat) (x : Option Node) (hd : d = (none : Option Node)) (h : wf_nodes t) :
    wf_nodes (Tbl.set d t k x) := by
  subst hd; exact Tbl.wf_set k x h
@[simp] theorem wf_nodes_mapAll {d : Option Node} {t : Tbl (Option Node)} (g : Nat → Option Node → Option Node) (hd : d = (none : Option Node)) (h : wf_nodes t) :
    wf_nodes (Tbl.mapAll d g t) := by
  subst hd; exact Tbl.wf_mapAll g h
@[simp] theorem wf_nodes_filter {t : Tbl (Option Node)} (p : Nat × (Option Node) → Bool) (h : wf_nodes t) :
    wf_nodes (t.filter p) := Tbl.wf_filter p h
@[simp] theorem wf_furrows_nil : wf_furrows [] := (rfl)
@[simp] theorem wf_furrows_set {d : Furrow} {t : Tbl (Furrow)} (k : Nat) (x : Furrow) (hd : d = ({} : Furrow)) (h : wf_furrows t) :
    wf_furrows (Tbl.set d t k x) := by
  subst hd; exact Tbl.wf_set k x h
@[simp] theorem wf_furrows_mapAll {d : Furrow} {t : Tbl (Furrow)} (g : Nat → Furrow → Furrow) (hd : d = ({} : Furrow)) (h : wf_furrows t) :
    wf_furrows (Tbl.mapAll d g t) := by
  subst hd; exact Tbl.wf_mapAll g h
@[simp] theorem wf_furrows_filter {t : Tbl (Furrow)} (p : Nat × (Furrow) → Bool) (h : wf_furrows t) :
    wf_furrows (t.filter p) := Tbl.wf_filter p h
@[simp] theorem wf_slots_nil : wf_slots [] := (rfl)
@[simp] theorem wf_slots_set {d : Slot} {t : Tbl (Slot)} (k : Nat) (x : Slot) (hd : d = ({} : Slot)) (h : wf_slots t) :
    wf_slots (Tbl.set d t k x) := by
  subst hd; exact Tbl.wf_set k x h
@[simp] theorem wf_slots_mapAll {d : Slot} {t : Tbl (Slot)} (g : Nat → Slot → Slot) (hd : d = ({} : Slot)) (h : wf_slots t) :
    wf_slots (Tbl.mapAll d g t) := by
  subst hd; exact Tbl.wf_mapAll g h
@[simp] theorem wf_slots_filter {t : Tbl (Slot)} (p : Nat × (Slot) → Bool) (h : wf_slots t) :
    wf_slots (t.filter p) := Tbl.wf_filter p h
@[simp] theorem wf_objects_nil : wf_objects [] := (rfl)
@[simp] theorem wf_objects_set {d : Obj} {t : Tbl (Obj)} (k : Nat) (x : Obj) (hd : d = ({} : Obj)) (h : wf_objects t) :
    wf_objects (Tbl.set d t k x) := by
  subst hd; exact Tbl.wf_set k x h
@[simp] theorem wf_objects_mapAll {d : Obj} {t : Tbl (Obj)} (g : Nat → Obj → Obj) (hd : d = ({} : Obj)) (h : wf_objects t) :
    wf_objects (Tbl.mapAll d g t) := by
  subst hd; exact Tbl.wf_mapAll g h
@[simp] theorem wf_objects_filter {t : Tbl (Obj)} (p : Nat × (Obj) → Bool) (h : wf_objects t) :
    wf_objects (t.filter p) := Tbl.wf_filter p h
@[simp] theorem wf_waiters_nil : wf_waiters [] := (rfl)
@[simp] theorem wf_waiters_set {d : List Waiter} {t : Tbl (List Waiter)} (k : Nat) (x : List Waiter) (hd : d = ([] : List Waiter)) (h : wf_waiters t) :
    wf_waiters (Tbl.set d t k x) := by
  subst hd; exact Tbl.wf_set k x h
@[simp] theorem wf_waiters_mapAll {d : List Waiter} {t : Tbl (List Waiter)} (g : Nat → List Waiter → List Waiter) (hd : d = ([] : List Waiter)) (h : wf_waiters t) :
    wf_waiters (Tbl.mapAll d g t) := by
  subst hd; exact Tbl.wf_mapAll g h
@[simp] theorem wf_waiters_filter {t : Tbl (List Waiter)} (p : Nat × (List Waiter) → Bool) (h : wf_waiters t) :
    wf_waiters (t.filter p) := Tbl.wf_filter p h
@[simp] theorem wf_ctxs_nil : wf_ctxs [] := (rfl)
@[simp] theorem wf_ctxs_set {d : Ctx} {t : Tbl (Ctx)} (k : Nat) (x : Ctx) (hd : d = ({} : Ctx)) (h : wf_ctxs t) :
    wf_ctxs (Tbl.set d t k x) := by
  subst hd; exact Tbl.wf_set k x h
@[simp] theorem wf_ctxs_mapAll {d : Ctx} {t : Tbl (Ctx)} (g : Nat → Ctx → Ctx) (hd : d = ({} : Ctx)) (h : wf_ctxs t) :
    wf_ctxs (Tbl.mapAll d g t) := by
  subst hd; exact Tbl.wf_mapAll g h
@[simp] theorem wf_ctxs_filter {t : Tbl (Ctx)} (p : Nat × (Ctx) → Bool) (h : wf_ctxs t) :
    wf_ctxs (t.filter p) := Tbl.wf_filter p h
@[simp] theorem wf_parts_nil : wf_parts [] := (rfl)
@[simp] theorem wf_parts_set {d : Partition} {t : Tbl (Partition)} (k : Nat) (x : Partition) (hd : d = ({} : Partition)) (h : wf_parts t) :
    wf_parts (Tbl.set d t k x) := by
  subst hd; exact Tbl.wf_set k x h
@[simp] theorem wf_parts_mapAll {d : Partition} {t : Tbl (Partition)} (g : Nat → Partition → Partition) (hd : d = ({} : Partition)) (h : wf_parts t) :
    wf_parts (Tbl.mapAll d g t) := by
  subst hd; exact Tbl.wf_mapAll g h
@[simp] theorem wf_parts_filter {t : Tbl (Partition)} (p : Nat × (Partition) → Bool) (h : wf_parts t) :
    wf_parts (t.filter p) := Tbl.wf_filter p h
@[simp] theorem wf_cores_nil : wf_cores [] := (rfl)
@[simp] theorem wf_cores_set {d : Core} {t : Tbl (Core)} (k : Nat) (x : Core) (hd : d = ({} : Core)) (h : wf_cores t) :
    wf_cores (Tbl.set d t k x) := by
  subst hd; exact Tbl.wf_set k x h
@[simp] theorem wf_cores_mapAll {d : Core} {t : Tbl (Core)} (g : Nat → Core → Core) (hd : d = ({} : Core)) (h : wf_cores t) :
    wf_cores (Tbl.mapAll d g t) := by
  subst hd; exact Tbl.wf_mapAll g h
@[simp] theorem wf_cores_filter {t : Tbl (Core)} (p : Nat × (Core) → Bool) (h : wf_cores t) :
    wf_cores (t.filter p) := Tbl.wf_filter p h
@[simp] theorem wf_routines_nil : wf_routines [] := (rfl)
@[simp] theorem wf_routines_set {d : RSlot} {t : Tbl (RSlot)} (k : Nat) (x : RSlot) (hd : d = ({} : RSlot)) (h : wf_routines t) :
    wf_routines (Tbl.set d t k x) := by
  subst hd; exact Tbl.wf_set k x h
@[simp] theorem wf_routines_mapAll {d : RSlot} {t : Tbl (RSlot)} (g : Nat → RSlot → RSlot) (hd : d = ({} : RSlot)) (h : wf_routines t) :
    wf_routines (Tbl.mapAll d g t) := by
  subst hd; exact Tbl.wf_mapAll g h
@[simp] theorem wf_routines_filter {t : Tbl (RSlot)} (p : Nat × (RSlot) → Bool) (h : wf_routines t) :
    wf_routines (t.filter p) := Tbl.wf_filter p h
@[simp] theorem wf_agents_nil : wf_agents [] := (rfl)
@[simp] theorem wf_agents_set {d : ALine} {t : Tbl (ALine)} (k : Nat) (x : ALine) (hd : d = ({} : ALine)) (h : wf_agents t) :
    wf_agents (Tbl.set d t k x) := by
  subst hd; exact Tbl.wf_set k x h
@[simp] theorem wf_agents_mapAll {d : ALine} {t : Tbl (ALine)} (g : Nat → ALine → ALine) (hd : d = ({} : ALine)) (h : wf_agents t) :
    wf_agents (Tbl.mapAll d g t) := by
  subst hd; exact Tbl.wf_mapAll g h
@[simp] theorem wf_agents_filter {t : Tbl (ALine)} (p : Nat × (ALine) → Bool) (h : wf_agents t) :
    wf_agents (t.filter p) := Tbl.wf_filter p h
@[simp] theorem wf_dirs_nil : wf_dirs [] := (rfl)
@[simp] theorem wf_dirs_set {d : Dir} {t : Tbl (Dir)} (k : Nat) (x : Dir) (hd : d = ({} : Dir)) (h : wf_dirs t) :
    wf_dirs (Tbl.set d t k x) := by
  subst hd; exact Tbl.wf_set k x h
@[simp] theorem wf_dirs_mapAll {d : Dir} {t : Tbl (Dir)} (g : Nat → Dir → Dir) (hd : d = ({} : Dir)) (h : wf_dirs t) :
    wf_dirs (Tbl.mapAll d g t) := by
  subst hd; exact Tbl.wf_mapAll g h
@[simp] theorem wf_dirs_filter {t : Tbl (Dir)} (p : Nat × (Dir) → Bool) (h : wf_dirs t) :
    wf_dirs (t.filter p) := Tbl.wf_filter p h
@[simp] theorem wf_groups_nil : wf_groups [] := (rfl)
@[simp] theorem wf_groups_set {d : Group} {t : Tbl (Group)} (k : Nat) (x : Group) (hd : d = ({} : Group)) (h : wf_groups t) :
    wf_groups (Tbl.set d t k x) := by
  subst hd; exact Tbl.wf_set k x h
@[simp] theorem wf_groups_mapAll {d : Group} {t : Tbl (Group)} (g : Nat → Group → Group) (hd : d = ({} : Group)) (h : wf_groups t) :
    wf_groups (Tbl.mapAll d g t) := by
  subst hd; exact Tbl.wf_mapAll g h
@[simp] theorem wf_groups_filter {t : Tbl (Group)} (p : Nat × (Group) → Bool) (h : wf_groups t) :
    wf_groups (t.filter p) := Tbl.wf_filter p h
@[simp] theorem wf_breaks_nil : wf_breaks [] := (rfl)
@[simp] theorem wf_breaks_set {d : Break} {t : Tbl (Break)} (k : Nat) (x : Break) (hd : d = ({} : Break)) (h : wf_breaks t) :
    wf_breaks (Tbl.set d t k x) := by
  subst hd; exact Tbl.wf_set k x h
@[simp] theorem wf_breaks_mapAll {d : Break} {t : Tbl (Break)} (g : Nat → Break → Break) (hd : d = ({} : Break)) (h : wf_breaks t) :
    wf_breaks (Tbl.mapAll d g t) := by
  subst hd; exact Tbl.wf_mapAll g h
@[simp] theorem wf_breaks_filter {t : Tbl (Break)} (p : Nat × (Break) → Bool) (h : wf_breaks t) :
    wf_breaks (t.filter p) := Tbl.wf_filter p h
@[simp] theorem State.setQueue_canonical (s : State) (q : Nat) (x : Queue) (h : s.Canonical) : (s.setQueue q x).Canonical := by
  simp [State.setQueue, h]
@[simp] theorem State.setNode_canonical (s : State) (n : Nat) (x : Option Node) (h : s.Canonical) : (s.setNode n x).Canonical := by
  simp [State.setNode, h]
@[simp] theorem State.setFurrow_canonical (s : State) (f : Nat) (x : Furrow) (h : s.Canonical) : (s.setFurrow f x).Canonical := by
  simp [State.setFurrow, h]
@[simp] theorem State.setSlot_canonical (s : State) (n : Nat) (x : Slot) (h : s.Canonical) : (s.setSlot n x).Canonical := by
  simp [State.setSlot, h]
@[simp] theorem State.setObj_canonical (s : State) (n : Nat) (x : Obj) (h : s.Canonical) : (s.setObj n x).Canonical := by
  simp [State.setObj, h]
@[simp] theorem State.setWaiters_canonical (s : State) (n : Nat) (x : List Waiter) (h : s.Canonical) : (s.setWaiters n x).Canonical := by
  simp [State.setWaiters, h]
@[simp] theorem State.setCtx_canonical (s : State) (c : Nat) (x : Ctx) (h : s.Canonical) : (s.setCtx c x).Canonical := by
  simp [State.setCtx, h]
@[simp] theorem State.setPart_canonical (s : State) (p : Nat) (x : Partition) (h : s.Canonical) : (s.setPart p x).Canonical := by
  simp [State.setPart, h]
@[simp] theorem State.setCore_canonical (s : State) (k : Nat) (x : Core) (h : s.Canonical) : (s.setCore k x).Canonical := by
  simp [State.setCore, h]
@[simp] theorem State.setRslot_canonical (s : State) (i : Nat) (x : RSlot) (h : s.Canonical) : (s.setRslot i x).Canonical := by
  simp [State.setRslot, h]
@[simp] theorem State.setGroup_canonical (s : State) (p : Nat) (x : Group) (h : s.Canonical) : (s.setGroup p x).Canonical := by
  simp [State.setGroup, h]
@[simp] theorem State.setBrk_canonical (s : State) (u : Nat) (x : Break) (h : s.Canonical) : (s.setBrk u x).Canonical := by
  simp [State.setBrk, h]
@[simp] theorem State.forAll_canonical (s : State) (ns : List Nat) (f : State → Nat → State) (hs : s.Canonical)
    (h : ∀ (x0 : State) (x1 : Nat), x0.Canonical → (f x0 x1).Canonical) : (s.forAll ns f).Canonical := by
  induction ns generalizing s with
  | nil => exact hs
  | cons n ns ih => exact ih (f s n) (h s n hs)
@[simp] theorem foldl_canonical {α : Type} (s : State) (ns : List α) (f : State → α → State) (hs : s.Canonical)
    (h : ∀ (x0 : State) (x1 : α), x0.Canonical → (f x0 x1).Canonical) : (ns.foldl f s).Canonical := by
  induction ns generalizing s with
  | nil => exact hs
  | cons n ns ih => exact ih (f s n) (h s n hs)
theorem ok_canonical (p : Prop) [Decidable p] (t : State) (hs : t.Canonical) (t0 : State) (h0 : ok p t = .next t0) : t0.Canonical := by
  obtain ⟨_, rfl⟩ := ok_next h0
  clear h0
  simp +contextual (maxDischargeDepth := 20) [*]
@[simp] theorem State.modQueue_canonical (s : State) (q : Nat) (f : Queue → Queue) (hs : s.Canonical) :
    (State.modQueue s q f).Canonical := by
  unfold State.modQueue
  simp +contextual (maxDischargeDepth := 20) [*]
@[simp] theorem State.modNode_canonical (s : State) (n : Nat) (f : Node → Node) (hs : s.Canonical) :
    (State.modNode s n f).Canonical := by
  unfold State.modNode
  simp +contextual (maxDischargeDepth := 20) [*]
@[simp] theorem State.modFurrow_canonical (s : State) (f : Nat) (g : Furrow → Furrow) (hs : s.Canonical) :
    (State.modFurrow s f g).Canonical := by
  unfold State.modFurrow
  simp +contextual (maxDischargeDepth := 20) [*]
@[simp] theorem State.modCtx_canonical (s : State) (c : Nat) (f : Ctx → Ctx) (hs : s.Canonical) :
    (State.modCtx s c f).Canonical := by
  unfold State.modCtx
  simp +contextual (maxDischargeDepth := 20) [*]
@[simp] theorem State.modAcct_canonical (s : State) (c : Nat) (f : Acct → Acct) (hs : s.Canonical) :
    (State.modAcct s c f).Canonical := by
  unfold State.modAcct
  simp +contextual (maxDischargeDepth := 20) [*]
@[simp] theorem State.modCore_canonical (s : State) (k : Nat) (f : Core → Core) (hs : s.Canonical) :
    (State.modCore s k f).Canonical := by
  unfold State.modCore
  simp +contextual (maxDischargeDepth := 20) [*]
@[simp] theorem State.setRun_canonical (s : State) (k fr : Nat) (r : Run) (hs : s.Canonical) :
    (State.setRun s k fr r).Canonical := by
  unfold State.setRun
  simp +contextual (maxDischargeDepth := 20) [*]
@[simp] theorem State.setSource_canonical (s : State) (i : Nat) (x : Source) (hs : s.Canonical) :
    (State.setSource s i x).Canonical := by
  unfold State.setSource
  simp +contextual (maxDischargeDepth := 20) [*]
@[simp] theorem State.drive_canonical (s : State) (o : Out) (hs : s.Canonical) :
    (State.drive s o).Canonical := by
  unfold State.drive
  simp +contextual (maxDischargeDepth := 20) [*]
@[simp] theorem State.driveAll_canonical (s : State) (os : List Out) (hs : s.Canonical) :
    (State.driveAll s os).Canonical := by
  unfold State.driveAll
  simp +contextual (maxDischargeDepth := 20) [*]
@[simp] theorem State.tickStamp_canonical (s : State) (hs : s.Canonical) :
    (State.tickStamp s).Canonical := by
  unfold State.tickStamp
  simp +contextual (maxDischargeDepth := 20) [*]
@[simp] theorem State.useFree_canonical (s : State) (hs : s.Canonical) :
    (State.useFree s).Canonical := by
  unfold State.useFree
  simp +contextual (maxDischargeDepth := 20) [*]
@[simp] theorem State.idleTick_canonical (s : State) (hs : s.Canonical) :
    (State.idleTick s).Canonical := by
  unfold State.idleTick
  (repeat' split) <;> simp +contextual (maxDischargeDepth := 20) [*]
@[simp] theorem State.wakeUp_canonical (s : State) (hs : s.Canonical) :
    (State.wakeUp s).Canonical := by
  unfold State.wakeUp
  (repeat' split) <;> simp +contextual (maxDischargeDepth := 20) [*]
@[simp] theorem State.when_canonical (s : State) (b : Bool) (f : State → State) (hs : s.Canonical) (h2 : ∀ (x0 : State), x0.Canonical → (f x0).Canonical) :
    (State.when s b f).Canonical := by
  unfold State.when
  (repeat' split) <;> simp +contextual (maxDischargeDepth := 20) [*]
@[simp] theorem State.absorbIn_canonical (s : State) (h : Nat) (hs : s.Canonical) :
    (State.absorbIn s h).Canonical := by
  unfold State.absorbIn
  (repeat' split) <;> simp +contextual (maxDischargeDepth := 20) [*]
@[simp] theorem State.absorb_canonical (s : State) (q : Nat) (hs : s.Canonical) :
    (State.absorb s q).Canonical := by
  unfold State.absorb
  simp +contextual (maxDischargeDepth := 20) [*]
@[simp] theorem State.traceRec_canonical (s : State) (kind queue : Nat) (c : Option Nat) (w1 : Word) (hs : s.Canonical) :
    (State.traceRec s kind queue c w1).Canonical := by
  unfold State.traceRec
  try dsimp only
  (repeat' split) <;> simp +contextual (maxDischargeDepth := 20) [*]
@[simp] theorem State.traceEnd_canonical (s : State) (f : Nat) (r : EngineRun) (noCommit : Bool) (hs : s.Canonical) :
    (State.traceEnd s f r noCommit).Canonical := by
  unfold State.traceEnd
  simp +contextual (maxDischargeDepth := 20) [*]
@[simp] theorem State.lifeAdd_canonical (s : State) (i n : Nat) (hs : s.Canonical) :
    (State.lifeAdd s i n).Canonical := by
  unfold State.lifeAdd
  simp +contextual (maxDischargeDepth := 20) [*]
@[simp] theorem State.lifeFault_canonical (s : State) (source : Nat) (c : Class) (hs : s.Canonical) :
    (State.lifeFault s source c).Canonical := by
  unfold State.lifeFault
  simp +contextual (maxDischargeDepth := 20) [*]
@[simp] theorem State.sendMsix_canonical (s : State) (v : Nat) (hs : s.Canonical) :
    (State.sendMsix s v).Canonical := by
  unfold State.sendMsix
  try dsimp only
  (repeat' split) <;> simp +contextual (maxDischargeDepth := 20) [*]
@[simp] theorem State.auditRec_canonical (s : State) (role : Nat) (ignored : Bool) (opcode offset : Nat) (old new : Word) (hs : s.Canonical) :
    (State.auditRec s role ignored opcode offset old new).Canonical := by
  unfold State.auditRec
  simp +contextual (maxDischargeDepth := 20) [*]
@[simp] theorem State.sbSend_canonical (s : State) (st : Sideband) (hs : s.Canonical) :
    (State.sbSend s st).Canonical := by
  unfold State.sbSend
  try dsimp only
  (repeat' split) <;> simp +contextual (maxDischargeDepth := 20) [*]
@[simp] theorem State.startLoad_canonical (s : State) (hs : s.Canonical) :
    (State.startLoad s).Canonical := by
  unfold State.startLoad
  simp +contextual (maxDischargeDepth := 20) [*]
@[simp] theorem State.countSeconds_canonical (s : State) (hs : s.Canonical) :
    (State.countSeconds s).Canonical := by
  unfold State.countSeconds
  simp +contextual (maxDischargeDepth := 20) [*]
@[simp] theorem State.stampImage_canonical (s : State) (hs : s.Canonical) :
    (State.stampImage s).Canonical := by
  unfold State.stampImage
  simp +contextual (maxDischargeDepth := 20) [*]
@[simp] theorem State.startFlush_canonical (s : State) (hs : s.Canonical) :
    (State.startFlush s).Canonical := by
  unfold State.startFlush
  simp +contextual (maxDischargeDepth := 20) [*]
@[simp] theorem State.requestFlush_canonical (s : State) (hs : s.Canonical) :
    (State.requestFlush s).Canonical := by
  unfold State.requestFlush
  (repeat' split) <;> simp +contextual (maxDischargeDepth := 20) [*]
@[simp] theorem State.sbFree_canonical (s : State) (hs : s.Canonical) :
    (State.sbFree s).Canonical := by
  unfold State.sbFree
  try dsimp only
  (repeat' split) <;> simp +contextual (maxDischargeDepth := 20) [*]
@[simp] theorem State.loadFresh_canonical (s : State) (hs : s.Canonical) :
    (State.loadFresh s).Canonical := by
  unfold State.loadFresh
  simp +contextual (maxDischargeDepth := 20) [*]
@[simp] theorem State.pickSlot_canonical (s : State) (hs : s.Canonical) :
    (State.pickSlot s).Canonical := by
  unfold State.pickSlot
  (repeat' split) <;> simp +contextual (maxDischargeDepth := 20) [*]
@[simp] theorem State.finishLoad_canonical (s : State) (slot : Nat) (hs : s.Canonical) :
    (State.finishLoad s slot).Canonical := by
  unfold State.finishLoad
  try dsimp only
  (repeat' split) <;> simp +contextual (maxDischargeDepth := 20) [*]
@[simp] theorem State.sbRetry_canonical (s : State) (hs : s.Canonical) :
    (State.sbRetry s).Canonical := by
  unfold State.sbRetry
  (repeat' split) <;> simp +contextual (maxDischargeDepth := 20) [*]
@[simp] theorem State.badFrame_canonical (s : State) (hs : s.Canonical) :
    (State.badFrame s).Canonical := by
  unfold State.badFrame
  simp +contextual (maxDischargeDepth := 20) [*]
@[simp] theorem State.sbAnswer_canonical (s : State) (m : SidebandFrame) (typ : Nat) (k : State → State) (hs : s.Canonical) (h3 : ∀ (x0 : State), x0.Canonical → (k x0).Canonical) :
    (State.sbAnswer s m typ k).Canonical := by
  unfold State.sbAnswer
  (repeat' split) <;> simp +contextual (maxDischargeDepth := 20) [*]
@[simp] theorem State.flushNext_canonical (s : State) (hs : s.Canonical) :
    (State.flushNext s).Canonical := by
  unfold State.flushNext
  (repeat' split) <;> simp +contextual (maxDischargeDepth := 20) [*]
@[simp] theorem State.loadNext_canonical (s : State) (payload : List Line) (hs : s.Canonical) :
    (State.loadNext s payload).Canonical := by
  unfold State.loadNext
  (repeat' split) <;> simp +contextual (maxDischargeDepth := 20) [*]
@[simp] theorem State.flushBit_canonical (s : State) (part : Part) (v : Word) (hs : s.Canonical) :
    (State.flushBit s part v).Canonical := by
  unfold State.flushBit
  (repeat' split) <;> simp +contextual (maxDischargeDepth := 20) [*]
theorem execFlushreq_canonical (m : SidebandFrame) (s : State) (hs : s.Canonical) (t0 : State) (h0 : execFlushreq m s = .next t0) : t0.Canonical := by
  obtain ⟨_, rfl⟩ := ok_next h0
  clear h0
  (repeat' split) <;> simp +contextual (maxDischargeDepth := 20) [*]
theorem execFlushTimer_canonical (s : State) (hs : s.Canonical) (t0 : State) (h0 : execFlushTimer s = .next t0) : t0.Canonical := by
  obtain ⟨_, rfl⟩ := ok_next h0
  clear h0
  simp +contextual (maxDischargeDepth := 20) [*]
theorem execDataFrame_canonical (m : SidebandFrame) (s : State) (hs : s.Canonical) (t0 : State) (h0 : execDataFrame m s = .next t0) : t0.Canonical := by
  obtain ⟨_, rfl⟩ := ok_next h0
  clear h0
  simp +contextual (maxDischargeDepth := 20) [*]
theorem execAckFrame_canonical (m : SidebandFrame) (s : State) (hs : s.Canonical) (t0 : State) (h0 : execAckFrame m s = .next t0) : t0.Canonical := by
  obtain ⟨_, rfl⟩ := ok_next h0
  clear h0
  simp +contextual (maxDischargeDepth := 20) [*]
theorem execNak_canonical (m : SidebandFrame) (s : State) (hs : s.Canonical) (t0 : State) (h0 : execNak m s = .next t0) : t0.Canonical := by
  obtain ⟨_, rfl⟩ := ok_next h0
  clear h0
  simp +contextual (maxDischargeDepth := 20) [*]
theorem execSidebandTimeout_canonical (s : State) (hs : s.Canonical) (t0 : State) (h0 : execSidebandTimeout s = .next t0) : t0.Canonical := by
  obtain ⟨_, rfl⟩ := ok_next h0
  clear h0
  simp +contextual (maxDischargeDepth := 20) [*]
@[simp] theorem State.sendNotice_canonical (s : State) (p : Nat) (dest : BitVec 14) (n0 n1 : Word) (hs : s.Canonical) :
    (State.sendNotice s p dest n0 n1).Canonical := by
  unfold State.sendNotice
  (repeat' split) <;> simp +contextual (maxDischargeDepth := 20) [*]
@[simp] theorem State.noticeAll_canonical (s : State) (n0 : Word) (hs : s.Canonical) :
    (State.noticeAll s n0).Canonical := by
  unfold State.noticeAll
  simp +contextual (maxDischargeDepth := 20) [*]
@[simp] theorem State.openRecord_canonical (s : State) (e : Event) (c : Class) (esc : Bool) (hs : s.Canonical) :
    (State.openRecord s e c esc).Canonical := by
  unfold State.openRecord
  try dsimp only
  (repeat' split) <;> simp +contextual (maxDischargeDepth := 20) [*]
@[simp] theorem State.askTeardown_canonical (s : State) (c : Nat) (cause : BitVec 8) (node : Option Nat) (hs : s.Canonical) :
    (State.askTeardown s c cause node).Canonical := by
  unfold State.askTeardown
  (repeat' split) <;> simp +contextual (maxDischargeDepth := 20) [*]
@[simp] theorem State.askReset_canonical (s : State) (r : ResetReq) (hs : s.Canonical) :
    (State.askReset s r).Canonical := by
  unfold State.askReset
  (repeat' split) <;> simp +contextual (maxDischargeDepth := 20) [*]
@[simp] theorem State.abortAll_canonical (s : State) (ended : Nat → Bool) (hs : s.Canonical) :
    (State.abortAll s ended).Canonical := by
  unfold State.abortAll
  try dsimp only
  repeat' first | (with_reducible assumption) | split | (with_reducible apply State.when_canonical <;> intros) | (with_reducible apply State.sbAnswer_canonical <;> intros) | (with_reducible apply State.deliver_canonical <;> intros) | (with_reducible apply State.granted_canonical <;> intros) | (with_reducible apply State.dataArrives_canonical <;> intros) | (with_reducible apply State.withLines_canonical <;> intros) | (with_reducible apply State.withReads_canonical <;> intros) | (with_reducible apply State.whenHeld_canonical <;> intros) | (with_reducible apply State.lookup_canonical <;> intros) | (with_reducible apply State.hostRead_canonical <;> intros) | (with_reducible apply State.hostWrite_canonical <;> intros) | (with_reducible apply State.delivery_canonical <;> intros) | (with_reducible apply State.pageRead_canonical <;> intros) | (with_reducible apply State.pageWrite_canonical <;> intros) | (with_reducible apply State.stewardLines_canonical <;> intros) | (with_reducible apply State.choiceLines_canonical <;> intros) | (with_reducible apply State.preloadRead_canonical <;> intros) | (with_reducible apply State.opStep_canonical <;> intros) | (with_reducible apply State.receive_canonical <;> intros) | (with_reducible apply State.onObject_canonical <;> intros) | (with_reducible apply State.endOwner_canonical <;> intros) | (with_reducible apply State.chipWide_canonical <;> intros) | (with_reducible apply State.kernelStep_canonical <;> intros) | (with_reducible apply State.coreInstr_canonical <;> intros) | (with_reducible apply State.endArrival_canonical <;> intros) | (with_reducible apply State.notice_canonical <;> intros) | (with_reducible apply State.fenceNotice_canonical <;> intros) | (with_reducible apply State.handleStep_canonical <;> intros) | (with_reducible apply State.sysStep_canonical <;> intros) | (with_reducible apply State.forAll_canonical <;> intros) | (with_reducible apply foldl_canonical <;> intros)
  all_goals simp +contextual (maxDischargeDepth := 20) [*]
@[simp] theorem State.enterSafe_canonical (s : State) (hs : s.Canonical) :
    (State.enterSafe s).Canonical := by
  unfold State.enterSafe
  (repeat' split) <;> simp +contextual (maxDischargeDepth := 20) [*]
@[simp] theorem State.act_canonical (s : State) (e : Event) (c : Class) (rec : Nat) (full : Bool) (hs : s.Canonical) :
    (State.act s e c rec full).Canonical := by
  unfold State.act
  (repeat' split) <;> simp +contextual (maxDischargeDepth := 20) [*]
@[simp] theorem State.lifeEvent_canonical (s : State) (e : Event) (c : Class) (hs : s.Canonical) :
    (State.lifeEvent s e c).Canonical := by
  unfold State.lifeEvent
  (repeat' split) <;> simp +contextual (maxDischargeDepth := 20) [*]
@[simp] theorem State.windowAfter_canonical (s : State) (e : Event) (hs : s.Canonical) :
    (State.windowAfter s e).Canonical := by
  unfold State.windowAfter
  simp +contextual (maxDischargeDepth := 20) [*]
@[simp] theorem State.countEvent_canonical (s : State) (e : Event) (esc : Bool) (hs : s.Canonical) :
    (State.countEvent s e esc).Canonical := by
  unfold State.countEvent
  simp +contextual (maxDischargeDepth := 20) [*]
@[simp] theorem State.raise_canonical (s : State) (e : Event) (hs : s.Canonical) :
    (State.raise s e).Canonical := by
  unfold State.raise
  try dsimp only
  (repeat' split) <;> simp +contextual (maxDischargeDepth := 20) [*]
@[simp] theorem State.closeRecords_canonical (s : State) (p : OpenRec → Bool) (hs : s.Canonical) :
    (State.closeRecords s p).Canonical := by
  unfold State.closeRecords
  simp +contextual (maxDischargeDepth := 20) [*]
@[simp] theorem State.corrected_canonical (s : State) (source : Nat) (x : Found) (hs : s.Canonical) :
    (State.corrected s source x).Canonical := by
  unfold State.corrected
  simp +contextual (maxDischargeDepth := 20) [*]
@[simp] theorem State.fixed_canonical (s : State) (source : Nat) (fix : Option Found) (hs : s.Canonical) :
    (State.fixed s source fix).Canonical := by
  unfold State.fixed
  (repeat' split) <;> simp +contextual (maxDischargeDepth := 20) [*]
@[simp] theorem State.severeError_canonical (s : State) (source : Nat) (x : Found) (hs : s.Canonical) :
    (State.severeError s source x).Canonical := by
  unfold State.severeError
  simp +contextual (maxDischargeDepth := 20) [*]
theorem execBrokenWire_canonical (src : Nat) (ones : Bool) (s : State) (hs : s.Canonical) (t0 : State) (h0 : execBrokenWire src ones s = .next t0) : t0.Canonical := by
  obtain ⟨_, rfl⟩ := ok_next h0
  clear h0
  simp +contextual (maxDischargeDepth := 20) [*]
@[simp] theorem State.setAline_canonical (s : State) (a : Nat) (l : CohLine) (x : ALine) (hs : s.Canonical) :
    (State.setAline s a l x).Canonical := by
  unfold State.setAline
  simp +contextual (maxDischargeDepth := 20) [*]
@[simp] theorem State.setDir_canonical (s : State) (l : CohLine) (x : Dir) (hs : s.Canonical) :
    (State.setDir s l x).Canonical := by
  unfold State.setDir
  simp +contextual (maxDischargeDepth := 20) [*]
@[simp] theorem State.send_canonical (s : State) (src dst : Nat) (l : CohLine) (k : MsgKind) (hs : s.Canonical) :
    (State.send s src dst l k).Canonical := by
  unfold State.send
  simp +contextual (maxDischargeDepth := 20) [*]
@[simp] theorem State.deliver_canonical (s : State) (p : Msg → Bool) (f : State → Msg → State) (hs : s.Canonical) (h2 : ∀ (x0 : State) (x1 : Msg), x0.Canonical → (f x0 x1).Canonical) :
    (State.deliver s p f).Canonical := by
  unfold State.deliver
  (repeat' split) <;> simp +contextual (maxDischargeDepth := 20) [*]
@[simp] theorem State.writeHome_canonical (s : State) (l : CohLine) (hs : s.Canonical) :
    (State.writeHome s l).Canonical := by
  unfold State.writeHome
  (repeat' split) <;> simp +contextual (maxDischargeDepth := 20) [*]
@[simp] theorem State.invAll_canonical (s : State) (l : CohLine) (v : List Nat) (hs : s.Canonical) :
    (State.invAll s l v).Canonical := by
  unfold State.invAll
  simp +contextual (maxDischargeDepth := 20) [*]
@[simp] theorem State.serve_canonical (s : State) (l : CohLine) (r : Nat) (q : Req) (shared : Bool) (hs : s.Canonical) :
    (State.serve s l r q shared).Canonical := by
  unfold State.serve
  try dsimp only
  (repeat' split) <;> simp +contextual (maxDischargeDepth := 20) [*]
@[simp] theorem State.takeBack_canonical (s : State) (l : CohLine) (hs : s.Canonical) :
    (State.takeBack s l).Canonical := by
  unfold State.takeBack
  try dsimp only
  (repeat' split) <;> simp +contextual (maxDischargeDepth := 20) [*]
@[simp] theorem State.serveNext_canonical (s : State) (l : CohLine) (k : Nat) (hs : s.Canonical) :
    (s.serveNext l k).Canonical := by
  induction k generalizing s with
  | zero => exact hs
  | succ k ih =>
    unfold State.serveNext
    dsimp only
    (repeat' split) <;> simp (maxDischargeDepth := 20) [*]
@[simp] theorem State.endTxn_canonical (s : State) (l : CohLine) (st : DState) (hs : s.Canonical) :
    (State.endTxn s l st).Canonical := by
  unfold State.endTxn
  simp +contextual (maxDischargeDepth := 20) [*]
@[simp] theorem State.finishFetch_canonical (s : State) (l : CohLine) (hs : s.Canonical) :
    (State.finishFetch s l).Canonical := by
  unfold State.finishFetch
  (repeat' split) <;> simp +contextual (maxDischargeDepth := 20) [*]
@[simp] theorem State.finishStore_canonical (s : State) (l : CohLine) (hs : s.Canonical) :
    (State.finishStore s l).Canonical := by
  unfold State.finishStore
  (repeat' split) <;> simp +contextual (maxDischargeDepth := 20) [*]
@[simp] theorem State.settleDir_canonical (s : State) (l : CohLine) (hs : s.Canonical) :
    (State.settleDir s l).Canonical := by
  unfold State.settleDir
  (repeat' split) <;> simp +contextual (maxDischargeDepth := 20) [*]
@[simp] theorem State.firstRequest_canonical (s : State) (m : Msg) (q : Req) (hs : s.Canonical) :
    (State.firstRequest s m q).Canonical := by
  unfold State.firstRequest
  try dsimp only
  (repeat' split) <;> simp +contextual (maxDischargeDepth := 20) [*]
@[simp] theorem State.reissue_canonical (s : State) (l : CohLine) (r : Nat) (q : Req) (hs : s.Canonical) :
    (State.reissue s l r q).Canonical := by
  unfold State.reissue
  simp +contextual (maxDischargeDepth := 20) [*]
@[simp] theorem State.requestArrives_canonical (s : State) (m : Msg) (hs : s.Canonical) :
    (State.requestArrives s m).Canonical := by
  unfold State.requestArrives
  (repeat' split) <;> simp +contextual (maxDischargeDepth := 20) [*]
@[simp] theorem State.tookIn_canonical (s : State) (home rank : Nat) (hs : s.Canonical) :
    (State.tookIn s home rank).Canonical := by
  unfold State.tookIn
  simp +contextual (maxDischargeDepth := 20) [*]
@[simp] theorem State.localRead_canonical (s : State) (a : Nat) (l : CohLine) (hs : s.Canonical) :
    (State.localRead s a l).Canonical := by
  unfold State.localRead
  try dsimp only
  (repeat' split) <;> simp +contextual (maxDischargeDepth := 20) [*]
@[simp] theorem State.localWrite_canonical (s : State) (a : Nat) (l : CohLine) (hs : s.Canonical) :
    (State.localWrite s a l).Canonical := by
  unfold State.localWrite
  try dsimp only
  (repeat' split) <;> simp +contextual (maxDischargeDepth := 20) [*]
@[simp] theorem State.answer_canonical (s : State) (a : Nat) (l : CohLine) (k : MsgKind) (hs : s.Canonical) :
    (State.answer s a l k).Canonical := by
  unfold State.answer
  (repeat' split) <;> simp +contextual (maxDischargeDepth := 20) [*]
@[simp] theorem State.probe_canonical (s : State) (a : Nat) (l : CohLine) (k : MsgKind) (hs : s.Canonical) :
    (State.probe s a l k).Canonical := by
  unfold State.probe
  try dsimp only
  (repeat' split) <;> simp +contextual (maxDischargeDepth := 20) [*]
@[simp] theorem State.release_canonical (s : State) (a : Nat) (l : CohLine) (hs : s.Canonical) :
    (State.release s a l).Canonical := by
  unfold State.release
  simp +contextual (maxDischargeDepth := 20) [*]
@[simp] theorem State.granted_canonical (s : State) (a : Nat) (l : CohLine) (st : AState) (f : State → State) (hs : s.Canonical) (h4 : ∀ (x0 : State), x0.Canonical → (f x0).Canonical) :
    (State.granted s a l st f).Canonical := by
  unfold State.granted
  (repeat' split) <;> simp +contextual (maxDischargeDepth := 20) [*]
@[simp] theorem State.dataArrives_canonical (s : State) (a : Nat) (l : CohLine) (g : Grant) (f : State → State) (hs : s.Canonical) (h4 : ∀ (x0 : State), x0.Canonical → (f x0).Canonical) :
    (State.dataArrives s a l g f).Canonical := by
  unfold State.dataArrives
  (repeat' split) <;> simp +contextual (maxDischargeDepth := 20) [*]
@[simp] theorem State.askLine_canonical (s : State) (x : LineNeed) (hs : s.Canonical) :
    (State.askLine s x).Canonical := by
  unfold State.askLine
  (repeat' split) <;> simp +contextual (maxDischargeDepth := 20) [*]
@[simp] theorem State.withLines_canonical (s : State) (xs : List LineNeed) (wait f : State → State) (hs : s.Canonical) (h2 : ∀ (x0 : State), x0.Canonical → (wait x0).Canonical) (h3 : ∀ (x0 : State), x0.Canonical → (f x0).Canonical) :
    (State.withLines s xs wait f).Canonical := by
  unfold State.withLines
  (repeat' split) <;> simp +contextual (maxDischargeDepth := 20) [*]
@[simp] theorem State.lineRead_canonical (s : State) (l : CohLine) (hs : s.Canonical) :
    (State.lineRead s l).Canonical := by
  unfold State.lineRead
  simp +contextual (maxDischargeDepth := 20) [*]
@[simp] theorem State.beginReads_canonical (s : State) (c : Instr) (xs : List LineNeed) (hs : s.Canonical) :
    (State.beginReads s c xs).Canonical := by
  unfold State.beginReads
  simp +contextual (maxDischargeDepth := 20) [*]
@[simp] theorem State.withReads_canonical (s : State) (c : Instr) (xs : List LineNeed) (wait f : State → State) (hs : s.Canonical) (h3 : ∀ (x0 : State), x0.Canonical → (wait x0).Canonical) (h4 : ∀ (x0 : State), x0.Canonical → (f x0).Canonical) :
    (State.withReads s c xs wait f).Canonical := by
  unfold State.withReads
  try dsimp only
  (repeat' split) <;> simp +contextual (maxDischargeDepth := 20) [*]
@[simp] theorem State.whenHeld_canonical (s : State) (n : Nat) (w : LineWork) (f : State → State) (hs : s.Canonical) (h3 : ∀ (x0 : State), x0.Canonical → (f x0).Canonical) :
    (State.whenHeld s n w f).Canonical := by
  unfold State.whenHeld
  simp +contextual (maxDischargeDepth := 20) [*]
@[simp] theorem State.askReads_canonical (s : State) (hs : s.Canonical) :
    (State.askReads s).Canonical := by
  unfold State.askReads
  simp +contextual (maxDischargeDepth := 20) [*]
@[simp] theorem State.allocLines_canonical (s : State) (n len : Nat) (hs : s.Canonical) :
    (State.allocLines s n len).Canonical := by
  unfold State.allocLines
  simp +contextual (maxDischargeDepth := 20) [*]
@[simp] theorem State.freeLines_canonical (s : State) (n len : Nat) (hs : s.Canonical) :
    (State.freeLines s n len).Canonical := by
  unfold State.freeLines
  simp +contextual (maxDischargeDepth := 20) [*]
@[simp] theorem State.lookup_canonical (s : State) (l : CohLine) (bad : Option Found) (f : State → State) (hs : s.Canonical) (h3 : ∀ (x0 : State), x0.Canonical → (f x0).Canonical) :
    (State.lookup s l bad f).Canonical := by
  unfold State.lookup
  (repeat' split) <;> simp +contextual (maxDischargeDepth := 20) [*]
@[simp] theorem State.request_canonical (s : State) (a : Nat) (l : CohLine) (q : Req) (same : Bool) (bad : Option Found) (hs : s.Canonical) :
    (State.request s a l q same bad).Canonical := by
  unfold State.request
  simp +contextual (maxDischargeDepth := 20) [*]
theorem execRds_canonical (a : Nat) (h : HomeRequest) (s : State) (hs : s.Canonical) (t0 : State) (h0 : execRds a h s = .next t0) : t0.Canonical := by
  obtain ⟨_, rfl⟩ := ok_next h0
  clear h0
  simp +contextual (maxDischargeDepth := 20) [*]
theorem execRdx_canonical (a : Nat) (h : HomeRequest) (s : State) (hs : s.Canonical) (t0 : State) (h0 : execRdx a h s = .next t0) : t0.Canonical := by
  obtain ⟨_, rfl⟩ := ok_next h0
  clear h0
  try dsimp only
  repeat' first | (with_reducible assumption) | split | (with_reducible apply State.when_canonical <;> intros) | (with_reducible apply State.sbAnswer_canonical <;> intros) | (with_reducible apply State.deliver_canonical <;> intros) | (with_reducible apply State.granted_canonical <;> intros) | (with_reducible apply State.dataArrives_canonical <;> intros) | (with_reducible apply State.withLines_canonical <;> intros) | (with_reducible apply State.withReads_canonical <;> intros) | (with_reducible apply State.whenHeld_canonical <;> intros) | (with_reducible apply State.lookup_canonical <;> intros) | (with_reducible apply State.hostRead_canonical <;> intros) | (with_reducible apply State.hostWrite_canonical <;> intros) | (with_reducible apply State.delivery_canonical <;> intros) | (with_reducible apply State.pageRead_canonical <;> intros) | (with_reducible apply State.pageWrite_canonical <;> intros) | (with_reducible apply State.stewardLines_canonical <;> intros) | (with_reducible apply State.choiceLines_canonical <;> intros) | (with_reducible apply State.preloadRead_canonical <;> intros) | (with_reducible apply State.opStep_canonical <;> intros) | (with_reducible apply State.receive_canonical <;> intros) | (with_reducible apply State.onObject_canonical <;> intros) | (with_reducible apply State.endOwner_canonical <;> intros) | (with_reducible apply State.chipWide_canonical <;> intros) | (with_reducible apply State.kernelStep_canonical <;> intros) | (with_reducible apply State.coreInstr_canonical <;> intros) | (with_reducible apply State.endArrival_canonical <;> intros) | (with_reducible apply State.notice_canonical <;> intros) | (with_reducible apply State.fenceNotice_canonical <;> intros) | (with_reducible apply State.handleStep_canonical <;> intros) | (with_reducible apply State.sysStep_canonical <;> intros) | (with_reducible apply State.forAll_canonical <;> intros) | (with_reducible apply foldl_canonical <;> intros)
  all_goals simp +contextual (maxDischargeDepth := 20) [*]
theorem execUpg_canonical (a : Nat) (h : HomeRequest) (s : State) (hs : s.Canonical) (t0 : State) (h0 : execUpg a h s = .next t0) : t0.Canonical := by
  obtain ⟨_, rfl⟩ := ok_next h0
  clear h0
  try dsimp only
  repeat' first | (with_reducible assumption) | split | (with_reducible apply State.when_canonical <;> intros) | (with_reducible apply State.sbAnswer_canonical <;> intros) | (with_reducible apply State.deliver_canonical <;> intros) | (with_reducible apply State.granted_canonical <;> intros) | (with_reducible apply State.dataArrives_canonical <;> intros) | (with_reducible apply State.withLines_canonical <;> intros) | (with_reducible apply State.withReads_canonical <;> intros) | (with_reducible apply State.whenHeld_canonical <;> intros) | (with_reducible apply State.lookup_canonical <;> intros) | (with_reducible apply State.hostRead_canonical <;> intros) | (with_reducible apply State.hostWrite_canonical <;> intros) | (with_reducible apply State.delivery_canonical <;> intros) | (with_reducible apply State.pageRead_canonical <;> intros) | (with_reducible apply State.pageWrite_canonical <;> intros) | (with_reducible apply State.stewardLines_canonical <;> intros) | (with_reducible apply State.choiceLines_canonical <;> intros) | (with_reducible apply State.preloadRead_canonical <;> intros) | (with_reducible apply State.opStep_canonical <;> intros) | (with_reducible apply State.receive_canonical <;> intros) | (with_reducible apply State.onObject_canonical <;> intros) | (with_reducible apply State.endOwner_canonical <;> intros) | (with_reducible apply State.chipWide_canonical <;> intros) | (with_reducible apply State.kernelStep_canonical <;> intros) | (with_reducible apply State.coreInstr_canonical <;> intros) | (with_reducible apply State.endArrival_canonical <;> intros) | (with_reducible apply State.notice_canonical <;> intros) | (with_reducible apply State.fenceNotice_canonical <;> intros) | (with_reducible apply State.handleStep_canonical <;> intros) | (with_reducible apply State.sysStep_canonical <;> intros) | (with_reducible apply State.forAll_canonical <;> intros) | (with_reducible apply foldl_canonical <;> intros)
  all_goals simp +contextual (maxDischargeDepth := 20) [*]
@[simp] theorem State.writeBack_canonical (s : State) (m : Msg) (hs : s.Canonical) :
    (State.writeBack s m).Canonical := by
  unfold State.writeBack
  try dsimp only
  (repeat' split) <;> simp +contextual (maxDischargeDepth := 20) [*]
theorem execWbc_canonical (a : Nat) (h : HomeArrival) (s : State) (hs : s.Canonical) (t0 : State) (h0 : execWbc a h s = .next t0) : t0.Canonical := by
  obtain ⟨_, rfl⟩ := ok_next h0
  clear h0
  simp +contextual (maxDischargeDepth := 20) [*]
theorem execRetry_canonical (a : Nat) (l : CohLine) (s : State) (hs : s.Canonical) (t0 : State) (h0 : execRetry a l s = .next t0) : t0.Canonical := by
  obtain ⟨_, rfl⟩ := ok_next h0
  clear h0
  try dsimp only
  repeat' first | (with_reducible assumption) | split | (with_reducible apply State.when_canonical <;> intros) | (with_reducible apply State.sbAnswer_canonical <;> intros) | (with_reducible apply State.deliver_canonical <;> intros) | (with_reducible apply State.granted_canonical <;> intros) | (with_reducible apply State.dataArrives_canonical <;> intros) | (with_reducible apply State.withLines_canonical <;> intros) | (with_reducible apply State.withReads_canonical <;> intros) | (with_reducible apply State.whenHeld_canonical <;> intros) | (with_reducible apply State.lookup_canonical <;> intros) | (with_reducible apply State.hostRead_canonical <;> intros) | (with_reducible apply State.hostWrite_canonical <;> intros) | (with_reducible apply State.delivery_canonical <;> intros) | (with_reducible apply State.pageRead_canonical <;> intros) | (with_reducible apply State.pageWrite_canonical <;> intros) | (with_reducible apply State.stewardLines_canonical <;> intros) | (with_reducible apply State.choiceLines_canonical <;> intros) | (with_reducible apply State.preloadRead_canonical <;> intros) | (with_reducible apply State.opStep_canonical <;> intros) | (with_reducible apply State.receive_canonical <;> intros) | (with_reducible apply State.onObject_canonical <;> intros) | (with_reducible apply State.endOwner_canonical <;> intros) | (with_reducible apply State.chipWide_canonical <;> intros) | (with_reducible apply State.kernelStep_canonical <;> intros) | (with_reducible apply State.coreInstr_canonical <;> intros) | (with_reducible apply State.endArrival_canonical <;> intros) | (with_reducible apply State.notice_canonical <;> intros) | (with_reducible apply State.fenceNotice_canonical <;> intros) | (with_reducible apply State.handleStep_canonical <;> intros) | (with_reducible apply State.sysStep_canonical <;> intros) | (with_reducible apply State.forAll_canonical <;> intros) | (with_reducible apply foldl_canonical <;> intros)
  all_goals simp +contextual (maxDischargeDepth := 20) [*]
theorem execFwdS_canonical (a : Nat) (l : CohLine) (s : State) (hs : s.Canonical) (t0 : State) (h0 : execFwdS a l s = .next t0) : t0.Canonical := by
  obtain ⟨_, rfl⟩ := ok_next h0
  clear h0
  simp +contextual (maxDischargeDepth := 20) [*]
theorem execFwdX_canonical (a : Nat) (l : CohLine) (s : State) (hs : s.Canonical) (t0 : State) (h0 : execFwdX a l s = .next t0) : t0.Canonical := by
  obtain ⟨_, rfl⟩ := ok_next h0
  clear h0
  simp +contextual (maxDischargeDepth := 20) [*]
theorem execInv_canonical (a : Nat) (l : CohLine) (s : State) (hs : s.Canonical) (t0 : State) (h0 : execInv a l s = .next t0) : t0.Canonical := by
  obtain ⟨_, rfl⟩ := ok_next h0
  clear h0
  simp +contextual (maxDischargeDepth := 20) [*]
@[simp] theorem State.ackArrives_canonical (s : State) (m : Msg) (hs : s.Canonical) :
    (State.ackArrives s m).Canonical := by
  unfold State.ackArrives
  try dsimp only
  (repeat' split) <;> simp +contextual (maxDischargeDepth := 20) [*]
theorem execHoldEnd_canonical (a : Nat) (l : CohLine) (s : State) (hs : s.Canonical) (t0 : State) (h0 : execHoldEnd a l s = .next t0) : t0.Canonical := by
  obtain ⟨_, rfl⟩ := ok_next h0
  clear h0
  simp +contextual (maxDischargeDepth := 20) [*]
theorem execAgentEviction_canonical (a : Nat) (l : CohLine) (s : State) (hs : s.Canonical) (t0 : State) (h0 : execAgentEviction a l s = .next t0) : t0.Canonical := by
  obtain ⟨_, rfl⟩ := ok_next h0
  clear h0
  try dsimp only
  repeat' first | (with_reducible assumption) | split | (with_reducible apply State.when_canonical <;> intros) | (with_reducible apply State.sbAnswer_canonical <;> intros) | (with_reducible apply State.deliver_canonical <;> intros) | (with_reducible apply State.granted_canonical <;> intros) | (with_reducible apply State.dataArrives_canonical <;> intros) | (with_reducible apply State.withLines_canonical <;> intros) | (with_reducible apply State.withReads_canonical <;> intros) | (with_reducible apply State.whenHeld_canonical <;> intros) | (with_reducible apply State.lookup_canonical <;> intros) | (with_reducible apply State.hostRead_canonical <;> intros) | (with_reducible apply State.hostWrite_canonical <;> intros) | (with_reducible apply State.delivery_canonical <;> intros) | (with_reducible apply State.pageRead_canonical <;> intros) | (with_reducible apply State.pageWrite_canonical <;> intros) | (with_reducible apply State.stewardLines_canonical <;> intros) | (with_reducible apply State.choiceLines_canonical <;> intros) | (with_reducible apply State.preloadRead_canonical <;> intros) | (with_reducible apply State.opStep_canonical <;> intros) | (with_reducible apply State.receive_canonical <;> intros) | (with_reducible apply State.onObject_canonical <;> intros) | (with_reducible apply State.endOwner_canonical <;> intros) | (with_reducible apply State.chipWide_canonical <;> intros) | (with_reducible apply State.kernelStep_canonical <;> intros) | (with_reducible apply State.coreInstr_canonical <;> intros) | (with_reducible apply State.endArrival_canonical <;> intros) | (with_reducible apply State.notice_canonical <;> intros) | (with_reducible apply State.fenceNotice_canonical <;> intros) | (with_reducible apply State.handleStep_canonical <;> intros) | (with_reducible apply State.sysStep_canonical <;> intros) | (with_reducible apply State.forAll_canonical <;> intros) | (with_reducible apply foldl_canonical <;> intros)
  all_goals simp +contextual (maxDischargeDepth := 20) [*]
theorem execHomeSideWrite_canonical (h : HomeArrival) (s : State) (hs : s.Canonical) (t0 : State) (h0 : execHomeSideWrite h s = .next t0) : t0.Canonical := by
  obtain ⟨_, rfl⟩ := ok_next h0
  clear h0
  simp +contextual (maxDischargeDepth := 20) [*]
theorem execCoherenceTimeout_canonical (l : CohLine) (s : State) (hs : s.Canonical) (t0 : State) (h0 : execCoherenceTimeout l s = .next t0) : t0.Canonical := by
  obtain ⟨_, rfl⟩ := ok_next h0
  clear h0
  simp +contextual (maxDischargeDepth := 20) [*]
@[simp] theorem State.onFurrow_canonical (s : State) (f : Nat) (g : Furrow → Furrow) (hs : s.Canonical) :
    (State.onFurrow s f g).Canonical := by
  unfold State.onFurrow
  simp +contextual (maxDischargeDepth := 20) [*]
@[simp] theorem State.wakeLent_canonical (s : State) (hs : s.Canonical) :
    (State.wakeLent s).Canonical := by
  unfold State.wakeLent
  simp +contextual (maxDischargeDepth := 20) [*]
@[simp] theorem State.writeRecord_canonical (s : State) (r : Record) (hs : s.Canonical) :
    (State.writeRecord s r).Canonical := by
  unfold State.writeRecord
  simp +contextual (maxDischargeDepth := 20) [*]
@[simp] theorem State.putRecord_canonical (s : State) (r : Record) (hs : s.Canonical) :
    (State.putRecord s r).Canonical := by
  unfold State.putRecord
  try dsimp only
  (repeat' split) <;> simp +contextual (maxDischargeDepth := 20) [*]
@[simp] theorem State.restartTimer_canonical (s : State) (n : Nat) (hs : s.Canonical) :
    (State.restartTimer s n).Canonical := by
  unfold State.restartTimer
  simp +contextual (maxDischargeDepth := 20) [*]
@[simp] theorem State.discard_canonical (s : State) (f : Nat) (hs : s.Canonical) :
    (State.discard s f).Canonical := by
  unfold State.discard
  (repeat' split) <;> simp +contextual (maxDischargeDepth := 20) [*]
@[simp] theorem State.discardWhere_canonical (s : State) (p : Entry → Bool) (hs : s.Canonical) :
    (State.discardWhere s p).Canonical := by
  unfold State.discardWhere
  simp +contextual (maxDischargeDepth := 20) [*]
@[simp] theorem State.beginPause_canonical (s : State) (c : Nat) (hs : s.Canonical) :
    (State.beginPause s c).Canonical := by
  unfold State.beginPause
  simp +contextual (maxDischargeDepth := 20) [*]
@[simp] theorem State.fireBreak_canonical (s : State) (u : Nat) (hs : s.Canonical) :
    (State.fireBreak s u).Canonical := by
  unfold State.fireBreak
  simp +contextual (maxDischargeDepth := 20) [*]
@[simp] theorem State.countBreaks_canonical (s : State) (q n : Nat) (hs : s.Canonical) :
    (State.countBreaks s q n).Canonical := by
  unfold State.countBreaks
  try dsimp only
  repeat' first | (with_reducible assumption) | split | (with_reducible apply State.when_canonical <;> intros) | (with_reducible apply State.sbAnswer_canonical <;> intros) | (with_reducible apply State.deliver_canonical <;> intros) | (with_reducible apply State.granted_canonical <;> intros) | (with_reducible apply State.dataArrives_canonical <;> intros) | (with_reducible apply State.withLines_canonical <;> intros) | (with_reducible apply State.withReads_canonical <;> intros) | (with_reducible apply State.whenHeld_canonical <;> intros) | (with_reducible apply State.lookup_canonical <;> intros) | (with_reducible apply State.hostRead_canonical <;> intros) | (with_reducible apply State.hostWrite_canonical <;> intros) | (with_reducible apply State.delivery_canonical <;> intros) | (with_reducible apply State.pageRead_canonical <;> intros) | (with_reducible apply State.pageWrite_canonical <;> intros) | (with_reducible apply State.stewardLines_canonical <;> intros) | (with_reducible apply State.choiceLines_canonical <;> intros) | (with_reducible apply State.preloadRead_canonical <;> intros) | (with_reducible apply State.opStep_canonical <;> intros) | (with_reducible apply State.receive_canonical <;> intros) | (with_reducible apply State.onObject_canonical <;> intros) | (with_reducible apply State.endOwner_canonical <;> intros) | (with_reducible apply State.chipWide_canonical <;> intros) | (with_reducible apply State.kernelStep_canonical <;> intros) | (with_reducible apply State.coreInstr_canonical <;> intros) | (with_reducible apply State.endArrival_canonical <;> intros) | (with_reducible apply State.notice_canonical <;> intros) | (with_reducible apply State.fenceNotice_canonical <;> intros) | (with_reducible apply State.handleStep_canonical <;> intros) | (with_reducible apply State.sysStep_canonical <;> intros) | (with_reducible apply State.forAll_canonical <;> intros) | (with_reducible apply foldl_canonical <;> intros)
  all_goals (try simp only [])
  all_goals (repeat' first | (with_reducible assumption) | split | (with_reducible apply State.when_canonical <;> intros) | (with_reducible apply State.sbAnswer_canonical <;> intros) | (with_reducible apply State.deliver_canonical <;> intros) | (with_reducible apply State.granted_canonical <;> intros) | (with_reducible apply State.dataArrives_canonical <;> intros) | (with_reducible apply State.withLines_canonical <;> intros) | (with_reducible apply State.withReads_canonical <;> intros) | (with_reducible apply State.whenHeld_canonical <;> intros) | (with_reducible apply State.lookup_canonical <;> intros) | (with_reducible apply State.hostRead_canonical <;> intros) | (with_reducible apply State.hostWrite_canonical <;> intros) | (with_reducible apply State.delivery_canonical <;> intros) | (with_reducible apply State.pageRead_canonical <;> intros) | (with_reducible apply State.pageWrite_canonical <;> intros) | (with_reducible apply State.stewardLines_canonical <;> intros) | (with_reducible apply State.choiceLines_canonical <;> intros) | (with_reducible apply State.preloadRead_canonical <;> intros) | (with_reducible apply State.opStep_canonical <;> intros) | (with_reducible apply State.receive_canonical <;> intros) | (with_reducible apply State.onObject_canonical <;> intros) | (with_reducible apply State.endOwner_canonical <;> intros) | (with_reducible apply State.chipWide_canonical <;> intros) | (with_reducible apply State.kernelStep_canonical <;> intros) | (with_reducible apply State.coreInstr_canonical <;> intros) | (with_reducible apply State.endArrival_canonical <;> intros) | (with_reducible apply State.notice_canonical <;> intros) | (with_reducible apply State.fenceNotice_canonical <;> intros) | (with_reducible apply State.handleStep_canonical <;> intros) | (with_reducible apply State.sysStep_canonical <;> intros) | (with_reducible apply State.forAll_canonical <;> intros) | (with_reducible apply foldl_canonical <;> intros))
  all_goals simp_all +contextual (maxDischargeDepth := 20)
@[simp] theorem State.settleEdges_canonical (s : State) (hit : EdgeTarget → Bool) (zero : Bool) (hs : s.Canonical) :
    (State.settleEdges s hit zero).Canonical := by
  unfold State.settleEdges
  simp +contextual (maxDischargeDepth := 20) [*]
@[simp] theorem State.makeCurrent_canonical (s : State) (k fr : Nat) (hs : s.Canonical) :
    (State.makeCurrent s k fr).Canonical := by
  unfold State.makeCurrent
  simp +contextual (maxDischargeDepth := 20) [*]
@[simp] theorem State.pickRun_canonical (s : State) (k : Nat) (hs : s.Canonical) :
    (State.pickRun s k).Canonical := by
  unfold State.pickRun
  (repeat' split) <;> simp +contextual (maxDischargeDepth := 20) [*]
@[simp] theorem State.leaveCore_canonical (s : State) (k : Nat) (hs : s.Canonical) :
    (State.leaveCore s k).Canonical := by
  unfold State.leaveCore
  (repeat' split) <;> simp +contextual (maxDischargeDepth := 20) [*]
@[simp] theorem State.readyRun_canonical (s : State) (k fr : Nat) (hs : s.Canonical) :
    (State.readyRun s k fr).Canonical := by
  unfold State.readyRun
  (repeat' split) <;> simp +contextual (maxDischargeDepth := 20) [*]
@[simp] theorem State.wakeIssuers_canonical (s : State) (hs : s.Canonical) :
    (State.wakeIssuers s).Canonical := by
  unfold State.wakeIssuers
  try dsimp only
  repeat' first | (with_reducible assumption) | split | (with_reducible apply State.when_canonical <;> intros) | (with_reducible apply State.sbAnswer_canonical <;> intros) | (with_reducible apply State.deliver_canonical <;> intros) | (with_reducible apply State.granted_canonical <;> intros) | (with_reducible apply State.dataArrives_canonical <;> intros) | (with_reducible apply State.withLines_canonical <;> intros) | (with_reducible apply State.withReads_canonical <;> intros) | (with_reducible apply State.whenHeld_canonical <;> intros) | (with_reducible apply State.lookup_canonical <;> intros) | (with_reducible apply State.hostRead_canonical <;> intros) | (with_reducible apply State.hostWrite_canonical <;> intros) | (with_reducible apply State.delivery_canonical <;> intros) | (with_reducible apply State.pageRead_canonical <;> intros) | (with_reducible apply State.pageWrite_canonical <;> intros) | (with_reducible apply State.stewardLines_canonical <;> intros) | (with_reducible apply State.choiceLines_canonical <;> intros) | (with_reducible apply State.preloadRead_canonical <;> intros) | (with_reducible apply State.opStep_canonical <;> intros) | (with_reducible apply State.receive_canonical <;> intros) | (with_reducible apply State.onObject_canonical <;> intros) | (with_reducible apply State.endOwner_canonical <;> intros) | (with_reducible apply State.chipWide_canonical <;> intros) | (with_reducible apply State.kernelStep_canonical <;> intros) | (with_reducible apply State.coreInstr_canonical <;> intros) | (with_reducible apply State.endArrival_canonical <;> intros) | (with_reducible apply State.notice_canonical <;> intros) | (with_reducible apply State.fenceNotice_canonical <;> intros) | (with_reducible apply State.handleStep_canonical <;> intros) | (with_reducible apply State.sysStep_canonical <;> intros) | (with_reducible apply State.forAll_canonical <;> intros) | (with_reducible apply foldl_canonical <;> intros)
  all_goals simp +contextual (maxDischargeDepth := 20) [*]
@[simp] theorem State.freeNode_canonical (s : State) (n : Nat) (hs : s.Canonical) :
    (State.freeNode s n).Canonical := by
  unfold State.freeNode
  try dsimp only
  (repeat' split) <;> simp +contextual (maxDischargeDepth := 20) [*]
@[simp] theorem State.letGo_canonical (s : State) (h : Handle) (hs : s.Canonical) :
    (State.letGo s h).Canonical := by
  unfold State.letGo
  (repeat' split) <;> simp +contextual (maxDischargeDepth := 20) [*]
@[simp] theorem State.checkAbortBusy_canonical (s : State) (hs : s.Canonical) :
    (State.checkAbortBusy s).Canonical := by
  unfold State.checkAbortBusy
  (repeat' split) <;> simp +contextual (maxDischargeDepth := 20) [*]
@[simp] theorem State.markRetired_canonical (s : State) (q : Nat) (seq : Word) (tag : BitVec 32) (status : BitVec 8) (executed : Nat) (accepted : Bool) (hs : s.Canonical) :
    (State.markRetired s q seq tag status executed accepted).Canonical := by
  unfold State.markRetired
  simp +contextual (maxDischargeDepth := 20) [*]
@[simp] theorem State.writeQueue_canonical (s : State) (q : Nat) (y : Queue) (hs : s.Canonical) :
    (State.writeQueue s q y).Canonical := by
  unfold State.writeQueue
  try dsimp only
  (repeat' split) <;> simp +contextual (maxDischargeDepth := 20) [*]
@[simp] theorem State.advanceQueue_canonical (s : State) (q : Nat) (hs : s.Canonical) :
    (State.advanceQueue s q).Canonical := by
  unfold State.advanceQueue
  try dsimp only
  (repeat' split) <;> simp +contextual (maxDischargeDepth := 20) [*]
@[simp] theorem State.retireSeq_canonical (s : State) (q : Nat) (seq : Word) (tag : BitVec 32) (gen : BitVec 12) (fin : Final) (node : Option Nat) (hs : s.Canonical) :
    (State.retireSeq s q seq tag gen fin node).Canonical := by
  unfold State.retireSeq
  try dsimp only
  (repeat' split) <;> simp +contextual (maxDischargeDepth := 20) [*]
@[simp] theorem State.queueScale_canonical (s : State) (d : Node) (hs : s.Canonical) :
    (State.queueScale s d).Canonical := by
  unfold State.queueScale
  (repeat' split) <;> simp +contextual (maxDischargeDepth := 20) [*]
@[simp] theorem State.removeEntries_canonical (s : State) (p : Entry → Bool) (hs : s.Canonical) :
    (State.removeEntries s p).Canonical := by
  unfold State.removeEntries
  simp +contextual (maxDischargeDepth := 20) [*]
@[simp] theorem State.tallyEnd_canonical (s : State) (d : Node) (hs : s.Canonical) :
    (State.tallyEnd s d).Canonical := by
  unfold State.tallyEnd
  (repeat' split) <;> simp +contextual (maxDischargeDepth := 20) [*]
@[simp] theorem State.retireQueued_canonical (s : State) (n : Nat) (d : Node) (fin : Final) (hs : s.Canonical) :
    (State.retireQueued s n d fin).Canonical := by
  unfold State.retireQueued
  simp +contextual (maxDischargeDepth := 20) [*]
@[simp] theorem State.putPort_canonical (s : State) (k i : Nat) (p : Option Port) (hs : s.Canonical) :
    (State.putPort s k i p).Canonical := by
  unfold State.putPort
  simp +contextual (maxDischargeDepth := 20) [*]
@[simp] theorem State.wakeSync_canonical (s : State) (k : Nat) (hs : s.Canonical) :
    (State.wakeSync s k).Canonical := by
  unfold State.wakeSync
  try dsimp only
  repeat' first | (with_reducible assumption) | split | (with_reducible apply State.when_canonical <;> intros) | (with_reducible apply State.sbAnswer_canonical <;> intros) | (with_reducible apply State.deliver_canonical <;> intros) | (with_reducible apply State.granted_canonical <;> intros) | (with_reducible apply State.dataArrives_canonical <;> intros) | (with_reducible apply State.withLines_canonical <;> intros) | (with_reducible apply State.withReads_canonical <;> intros) | (with_reducible apply State.whenHeld_canonical <;> intros) | (with_reducible apply State.lookup_canonical <;> intros) | (with_reducible apply State.hostRead_canonical <;> intros) | (with_reducible apply State.hostWrite_canonical <;> intros) | (with_reducible apply State.delivery_canonical <;> intros) | (with_reducible apply State.pageRead_canonical <;> intros) | (with_reducible apply State.pageWrite_canonical <;> intros) | (with_reducible apply State.stewardLines_canonical <;> intros) | (with_reducible apply State.choiceLines_canonical <;> intros) | (with_reducible apply State.preloadRead_canonical <;> intros) | (with_reducible apply State.opStep_canonical <;> intros) | (with_reducible apply State.receive_canonical <;> intros) | (with_reducible apply State.onObject_canonical <;> intros) | (with_reducible apply State.endOwner_canonical <;> intros) | (with_reducible apply State.chipWide_canonical <;> intros) | (with_reducible apply State.kernelStep_canonical <;> intros) | (with_reducible apply State.coreInstr_canonical <;> intros) | (with_reducible apply State.endArrival_canonical <;> intros) | (with_reducible apply State.notice_canonical <;> intros) | (with_reducible apply State.fenceNotice_canonical <;> intros) | (with_reducible apply State.handleStep_canonical <;> intros) | (with_reducible apply State.sysStep_canonical <;> intros) | (with_reducible apply State.forAll_canonical <;> intros) | (with_reducible apply foldl_canonical <;> intros)
  all_goals simp +contextual (maxDischargeDepth := 20) [*]
@[simp] theorem State.setPort_canonical (s : State) (k i : Nat) (p : Option Port) (hs : s.Canonical) :
    (State.setPort s k i p).Canonical := by
  unfold State.setPort
  simp +contextual (maxDischargeDepth := 20) [*]
@[simp] theorem State.wakeCredit_canonical (s : State) (k i : Nat) (hs : s.Canonical) :
    (State.wakeCredit s k i).Canonical := by
  unfold State.wakeCredit
  (repeat' split) <;> simp +contextual (maxDischargeDepth := 20) [*]
@[simp] theorem State.streamEnd_canonical (s : State) (d : Node) (committed : Bool) (hs : s.Canonical) :
    (State.streamEnd s d committed).Canonical := by
  unfold State.streamEnd
  (repeat' split) <;> simp +contextual (maxDischargeDepth := 20) [*]
@[simp] theorem State.issueDone_canonical (s : State) (k call i : Nat) (res : BitVec 8 × BitVec 16) (hs : s.Canonical) :
    (State.issueDone s k call i res).Canonical := by
  unfold State.issueDone
  try dsimp only
  (repeat' split) <;> simp +contextual (maxDischargeDepth := 20) [*]
@[simp] theorem State.endCall_canonical (s : State) (call : Nat) (hs : s.Canonical) :
    (State.endCall s call).Canonical := by
  unfold State.endCall
  (repeat' split) <;> simp +contextual (maxDischargeDepth := 20) [*]
@[simp] theorem State.retireChild_canonical (s : State) (n : Nat) (d : Node) (call i : Nat) (fin : Final) (hs : s.Canonical) :
    (State.retireChild s n d call i fin).Canonical := by
  unfold State.retireChild
  simp +contextual (maxDischargeDepth := 20) [*]
@[simp] theorem State.retire_canonical (s : State) (n : Nat) (fin : Final) (hs : s.Canonical) :
    (State.retire s n fin).Canonical := by
  unfold State.retire
  (repeat' split) <;> simp +contextual (maxDischargeDepth := 20) [*]
@[simp] theorem State.retireWith_canonical (s : State) (n : Nat) (status : BitVec 8) (executed : Nat) (detail : BitVec 32) (hs : s.Canonical) :
    (State.retireWith s n status executed detail).Canonical := by
  unfold State.retireWith
  simp +contextual (maxDischargeDepth := 20) [*]
@[simp] theorem State.refuse_canonical (s : State) (n : Nat) (d : Node) (w b : Nat) (hs : s.Canonical) :
    (State.refuse s n d w b).Canonical := by
  unfold State.refuse
  simp +contextual (maxDischargeDepth := 20) [*]
@[simp] theorem State.doom_canonical (s : State) (n : Nat) (d : Node) (fin : Final) (e : Event) (hs : s.Canonical) :
    (State.doom s n d fin e).Canonical := by
  unfold State.doom
  simp +contextual (maxDischargeDepth := 20) [*]
@[simp] theorem State.inform_canonical (s : State) (n : Nat) (d : Node) (status : BitVec 8) (executed : Nat) (detail : BitVec 32) (furrow : BitVec 10) (hs : s.Canonical) :
    (State.inform s n d status executed detail furrow).Canonical := by
  unfold State.inform
  simp +contextual (maxDischargeDepth := 20) [*]
@[simp] theorem State.drainHeld_canonical (s : State) (q k : Nat) (hs : s.Canonical) :
    (s.drainHeld q k).Canonical := by
  induction k generalizing s with
  | zero => exact hs
  | succ k ih =>
    unfold State.drainHeld
    dsimp only
    (repeat' split) <;> simp (maxDischargeDepth := 20) [*]
@[simp] theorem State.recack_canonical (s : State) (q : Nat) (v : Word) (hs : s.Canonical) :
    (State.recack s q v).Canonical := by
  unfold State.recack
  try dsimp only
  (repeat' split) <;> simp +contextual (maxDischargeDepth := 20) [*]
theorem execEdgeRegistration_canonical (n i : Nat) (s : State) (hs : s.Canonical) (t0 : State) (h0 : execEdgeRegistration n i s = .next t0) : t0.Canonical := by
  obtain ⟨_, rfl⟩ := ok_next h0
  clear h0
  try dsimp only
  repeat' first | (with_reducible assumption) | split | (with_reducible apply State.when_canonical <;> intros) | (with_reducible apply State.sbAnswer_canonical <;> intros) | (with_reducible apply State.deliver_canonical <;> intros) | (with_reducible apply State.granted_canonical <;> intros) | (with_reducible apply State.dataArrives_canonical <;> intros) | (with_reducible apply State.withLines_canonical <;> intros) | (with_reducible apply State.withReads_canonical <;> intros) | (with_reducible apply State.whenHeld_canonical <;> intros) | (with_reducible apply State.lookup_canonical <;> intros) | (with_reducible apply State.hostRead_canonical <;> intros) | (with_reducible apply State.hostWrite_canonical <;> intros) | (with_reducible apply State.delivery_canonical <;> intros) | (with_reducible apply State.pageRead_canonical <;> intros) | (with_reducible apply State.pageWrite_canonical <;> intros) | (with_reducible apply State.stewardLines_canonical <;> intros) | (with_reducible apply State.choiceLines_canonical <;> intros) | (with_reducible apply State.preloadRead_canonical <;> intros) | (with_reducible apply State.opStep_canonical <;> intros) | (with_reducible apply State.receive_canonical <;> intros) | (with_reducible apply State.onObject_canonical <;> intros) | (with_reducible apply State.endOwner_canonical <;> intros) | (with_reducible apply State.chipWide_canonical <;> intros) | (with_reducible apply State.kernelStep_canonical <;> intros) | (with_reducible apply State.coreInstr_canonical <;> intros) | (with_reducible apply State.endArrival_canonical <;> intros) | (with_reducible apply State.notice_canonical <;> intros) | (with_reducible apply State.fenceNotice_canonical <;> intros) | (with_reducible apply State.handleStep_canonical <;> intros) | (with_reducible apply State.sysStep_canonical <;> intros) | (with_reducible apply State.forAll_canonical <;> intros) | (with_reducible apply foldl_canonical <;> intros)
  all_goals (try simp only [])
  all_goals (repeat' first | (with_reducible assumption) | split | (with_reducible apply State.when_canonical <;> intros) | (with_reducible apply State.sbAnswer_canonical <;> intros) | (with_reducible apply State.deliver_canonical <;> intros) | (with_reducible apply State.granted_canonical <;> intros) | (with_reducible apply State.dataArrives_canonical <;> intros) | (with_reducible apply State.withLines_canonical <;> intros) | (with_reducible apply State.withReads_canonical <;> intros) | (with_reducible apply State.whenHeld_canonical <;> intros) | (with_reducible apply State.lookup_canonical <;> intros) | (with_reducible apply State.hostRead_canonical <;> intros) | (with_reducible apply State.hostWrite_canonical <;> intros) | (with_reducible apply State.delivery_canonical <;> intros) | (with_reducible apply State.pageRead_canonical <;> intros) | (with_reducible apply State.pageWrite_canonical <;> intros) | (with_reducible apply State.stewardLines_canonical <;> intros) | (with_reducible apply State.choiceLines_canonical <;> intros) | (with_reducible apply State.preloadRead_canonical <;> intros) | (with_reducible apply State.opStep_canonical <;> intros) | (with_reducible apply State.receive_canonical <;> intros) | (with_reducible apply State.onObject_canonical <;> intros) | (with_reducible apply State.endOwner_canonical <;> intros) | (with_reducible apply State.chipWide_canonical <;> intros) | (with_reducible apply State.kernelStep_canonical <;> intros) | (with_reducible apply State.coreInstr_canonical <;> intros) | (with_reducible apply State.endArrival_canonical <;> intros) | (with_reducible apply State.notice_canonical <;> intros) | (with_reducible apply State.fenceNotice_canonical <;> intros) | (with_reducible apply State.handleStep_canonical <;> intros) | (with_reducible apply State.sysStep_canonical <;> intros) | (with_reducible apply State.forAll_canonical <;> intros) | (with_reducible apply foldl_canonical <;> intros))
  all_goals simp_all +contextual (maxDischargeDepth := 20)
theorem execRetireNotice_canonical (q : Nat) (seq : Word) (s : State) (hs : s.Canonical) (t0 : State) (h0 : execRetireNotice q seq s = .next t0) : t0.Canonical := by
  obtain ⟨_, rfl⟩ := ok_next h0
  clear h0
  simp +contextual (maxDischargeDepth := 20) [*]
@[simp] theorem State.hold_canonical (s : State) (c : Instr) (hs : s.Canonical) :
    (State.hold s c).Canonical := by
  unfold State.hold
  simp +contextual (maxDischargeDepth := 20) [*]
@[simp] theorem State.hostRead_canonical (s : State) (c : Instr) (f : State → State) (hs : s.Canonical) (h2 : ∀ (x0 : State), x0.Canonical → (f x0).Canonical) :
    (State.hostRead s c f).Canonical := by
  unfold State.hostRead
  (repeat' split) <;> simp +contextual (maxDischargeDepth := 20) [*]
@[simp] theorem State.hostWrite_canonical (s : State) (c : Instr) (f : State → State) (hs : s.Canonical) (h2 : ∀ (x0 : State), x0.Canonical → (f x0).Canonical) :
    (State.hostWrite s c f).Canonical := by
  unfold State.hostWrite
  (repeat' split) <;> simp +contextual (maxDischargeDepth := 20) [*]
@[simp] theorem State.park_canonical (s : State) (c : Instr) (hs : s.Canonical) :
    (State.park s c).Canonical := by
  unfold State.park
  (repeat' split) <;> simp +contextual (maxDischargeDepth := 20) [*]
@[simp] theorem State.delivery_canonical (s : State) (c : Instr) (f : State → State) (hs : s.Canonical) (h2 : ∀ (x0 : State), x0.Canonical → (f x0).Canonical) :
    (State.delivery s c f).Canonical := by
  unfold State.delivery
  (repeat' split) <;> simp +contextual (maxDischargeDepth := 20) [*]
@[simp] theorem State.busErr_canonical (s : State) (hs : s.Canonical) :
    (State.busErr s).Canonical := by
  unfold State.busErr
  simp +contextual (maxDischargeDepth := 20) [*]
@[simp] theorem State.answerRead_canonical (s : State) (fn : Fn) (v : Word) (hs : s.Canonical) :
    (State.answerRead s fn v).Canonical := by
  unfold State.answerRead
  simp +contextual (maxDischargeDepth := 20) [*]
@[simp] theorem State.abortRead_canonical (s : State) (fn : Fn) (hs : s.Canonical) :
    (State.abortRead s fn).Canonical := by
  unfold State.abortRead
  simp +contextual (maxDischargeDepth := 20) [*]
@[simp] theorem State.dropLatch_canonical (s : State) (fn : Fn) (r : Nat) (hs : s.Canonical) :
    (State.dropLatch s fn r).Canonical := by
  unfold State.dropLatch
  simp +contextual (maxDischargeDepth := 20) [*]
@[simp] theorem State.setLatch_canonical (s : State) (fn : Fn) (r : Nat) (ws : List Word) (hs : s.Canonical) :
    (State.setLatch s fn r ws).Canonical := by
  unfold State.setLatch
  simp +contextual (maxDischargeDepth := 20) [*]
@[simp] theorem State.freshPage_canonical (s : State) (q : Nat) (hs : s.Canonical) :
    (State.freshPage s q).Canonical := by
  unfold State.freshPage
  simp +contextual (maxDischargeDepth := 20) [*]
@[simp] theorem State.readPart_canonical (s : State) (fn : Fn) (v : Word) (part : Part) (hs : s.Canonical) :
    (State.readPart s fn v part).Canonical := by
  unfold State.readPart
  simp +contextual (maxDischargeDepth := 20) [*]
@[simp] theorem State.readCounter_canonical (s : State) (fn : Fn) (r : CountReg) (part : Part) (hs : s.Canonical) :
    (State.readCounter s fn r part).Canonical := by
  unfold State.readCounter
  (repeat' split) <;> simp +contextual (maxDischargeDepth := 20) [*]
@[simp] theorem State.pageRead_canonical (s : State) (fn : Fn) (q : Nat) (f : State → State) (hs : s.Canonical) (h3 : ∀ (x0 : State), x0.Canonical → (f x0).Canonical) :
    (State.pageRead s fn q f).Canonical := by
  unfold State.pageRead
  (repeat' split) <;> simp +contextual (maxDischargeDepth := 20) [*]
@[simp] theorem State.pageWrite_canonical (s : State) (fn : Fn) (q : Nat) (wide : Bool) (f : State → State) (hs : s.Canonical) (h4 : ∀ (x0 : State), x0.Canonical → (f x0).Canonical) :
    (State.pageWrite s fn q wide f).Canonical := by
  unfold State.pageWrite
  (repeat' split) <;> simp +contextual (maxDischargeDepth := 20) [*]
@[simp] theorem State.doorbell_canonical (s : State) (q : Nat) (v : Word) (hs : s.Canonical) :
    (State.doorbell s q v).Canonical := by
  unfold State.doorbell
  (repeat' split) <;> simp +contextual (maxDischargeDepth := 20) [*]
@[simp] theorem State.recackWrite_canonical (s : State) (q : Nat) (v : Word) (hs : s.Canonical) :
    (State.recackWrite s q v).Canonical := by
  unfold State.recackWrite
  (repeat' split) <;> simp +contextual (maxDischargeDepth := 20) [*]
@[simp] theorem State.doDoorbell_canonical (s : State) (fn : Fn) (q : Nat) (wide : Bool) (v : Word) (hs : s.Canonical) :
    (State.doDoorbell s fn q wide v).Canonical := by
  unfold State.doDoorbell
  simp +contextual (maxDischargeDepth := 20) [*]
@[simp] theorem State.doRecack_canonical (s : State) (fn : Fn) (q : Nat) (wide : Bool) (v : Word) (hs : s.Canonical) :
    (State.doRecack s fn q wide v).Canonical := by
  unfold State.doRecack
  simp +contextual (maxDischargeDepth := 20) [*]
theorem execDoorbellWrite_canonical (fn : Fn) (q : Nat) (wide : Bool) (v : Word) (s : State) (hs : s.Canonical) (t0 : State) (h0 : execDoorbellWrite fn q wide v s = .next t0) : t0.Canonical := by
  obtain ⟨_, rfl⟩ := ok_next h0
  clear h0
  (repeat' split) <;> simp +contextual (maxDischargeDepth := 20) [*]
theorem execRecackWrite_canonical (fn : Fn) (q : Nat) (wide : Bool) (v : Word) (s : State) (hs : s.Canonical) (t0 : State) (h0 : execRecackWrite fn q wide v s = .next t0) : t0.Canonical := by
  obtain ⟨_, rfl⟩ := ok_next h0
  clear h0
  simp +contextual (maxDischargeDepth := 20) [*]
theorem execRetiredRead_canonical (fn : Fn) (q : Nat) (wide : Bool) (s : State) (hs : s.Canonical) (t0 : State) (h0 : execRetiredRead fn q wide s = .next t0) : t0.Canonical := by
  obtain ⟨_, rfl⟩ := ok_next h0
  clear h0
  simp +contextual (maxDischargeDepth := 20) [*]
@[simp] theorem State.queueErrorOf_canonical (s : State) (q : Nat) (err : BitVec 8) (tag : BitVec 32) (status : BitVec 8) (detail : BitVec 32) (hs : s.Canonical) :
    (State.queueErrorOf s q err tag status detail).Canonical := by
  unfold State.queueErrorOf
  simp +contextual (maxDischargeDepth := 20) [*]
@[simp] theorem State.queueError_canonical (s : State) (q : Nat) (err : BitVec 8) (hs : s.Canonical) :
    (State.queueError s q err).Canonical := by
  unfold State.queueError
  simp +contextual (maxDischargeDepth := 20) [*]
@[simp] theorem State.tailRead_canonical (s : State) (q : Nat) (hs : s.Canonical) :
    (State.tailRead s q).Canonical := by
  unfold State.tailRead
  try dsimp only
  (repeat' split) <;> simp +contextual (maxDischargeDepth := 20) [*]
theorem execTailRead_canonical (q : Nat) (s : State) (hs : s.Canonical) (t0 : State) (h0 : execTailRead q s = .next t0) : t0.Canonical := by
  obtain ⟨_, rfl⟩ := ok_next h0
  clear h0
  simp +contextual (maxDischargeDepth := 20) [*]
@[simp] theorem State.traceAccept_canonical (s : State) (q : Nat) (ls : List Line) (n : Nat) (hs : s.Canonical) :
    (State.traceAccept s q ls n).Canonical := by
  unfold State.traceAccept
  simp +contextual (maxDischargeDepth := 20) [*]
@[simp] theorem State.consume_canonical (s : State) (q n : Nat) (hs : s.Canonical) :
    (State.consume s q n).Canonical := by
  unfold State.consume
  simp +contextual (maxDischargeDepth := 20) [*]
@[simp] theorem State.retireAtAcceptance_canonical (s : State) (q : Nat) (ls : List Line) (fin : Final) (hs : s.Canonical) :
    (State.retireAtAcceptance s q ls fin).Canonical := by
  unfold State.retireAtAcceptance
  simp +contextual (maxDischargeDepth := 20) [*]
@[simp] theorem State.accept_canonical (s : State) (q n : Nat) (ls : List Line) (hs : s.Canonical) :
    (State.accept s q n ls).Canonical := by
  unfold State.accept
  simp +contextual (maxDischargeDepth := 20) [*]
@[simp] theorem State.acceptConfig_canonical (s : State) (q : Nat) (ls : List Line) (hs : s.Canonical) :
    (State.acceptConfig s q ls).Canonical := by
  unfold State.acceptConfig
  (repeat' split) <;> simp +contextual (maxDischargeDepth := 20) [*]
@[simp] theorem State.drain_canonical (s : State) (q k : Nat) (hs : s.Canonical) :
    (s.drain q k).Canonical := by
  induction k generalizing s with
  | zero => exact hs
  | succ k ih =>
    unfold State.drain
    dsimp only
    (repeat' split) <;> simp (maxDischargeDepth := 20) [*]
@[simp] theorem State.issueFetch_canonical (s : State) (q : Nat) (hs : s.Canonical) :
    (State.issueFetch s q).Canonical := by
  unfold State.issueFetch
  try dsimp only
  (repeat' split) <;> simp +contextual (maxDischargeDepth := 20) [*]
theorem execFetchGrant_canonical (h : Nat) (s : State) (hs : s.Canonical) (t0 : State) (h0 : execFetchGrant h s = .next t0) : t0.Canonical := by
  obtain ⟨_, rfl⟩ := ok_next h0
  clear h0
  try dsimp only
  repeat' first | (with_reducible assumption) | split | (with_reducible apply State.when_canonical <;> intros) | (with_reducible apply State.sbAnswer_canonical <;> intros) | (with_reducible apply State.deliver_canonical <;> intros) | (with_reducible apply State.granted_canonical <;> intros) | (with_reducible apply State.dataArrives_canonical <;> intros) | (with_reducible apply State.withLines_canonical <;> intros) | (with_reducible apply State.withReads_canonical <;> intros) | (with_reducible apply State.whenHeld_canonical <;> intros) | (with_reducible apply State.lookup_canonical <;> intros) | (with_reducible apply State.hostRead_canonical <;> intros) | (with_reducible apply State.hostWrite_canonical <;> intros) | (with_reducible apply State.delivery_canonical <;> intros) | (with_reducible apply State.pageRead_canonical <;> intros) | (with_reducible apply State.pageWrite_canonical <;> intros) | (with_reducible apply State.stewardLines_canonical <;> intros) | (with_reducible apply State.choiceLines_canonical <;> intros) | (with_reducible apply State.preloadRead_canonical <;> intros) | (with_reducible apply State.opStep_canonical <;> intros) | (with_reducible apply State.receive_canonical <;> intros) | (with_reducible apply State.onObject_canonical <;> intros) | (with_reducible apply State.endOwner_canonical <;> intros) | (with_reducible apply State.chipWide_canonical <;> intros) | (with_reducible apply State.kernelStep_canonical <;> intros) | (with_reducible apply State.coreInstr_canonical <;> intros) | (with_reducible apply State.endArrival_canonical <;> intros) | (with_reducible apply State.notice_canonical <;> intros) | (with_reducible apply State.fenceNotice_canonical <;> intros) | (with_reducible apply State.handleStep_canonical <;> intros) | (with_reducible apply State.sysStep_canonical <;> intros) | (with_reducible apply State.forAll_canonical <;> intros) | (with_reducible apply foldl_canonical <;> intros)
  all_goals simp +contextual (maxDischargeDepth := 20) [*]
theorem execRingFetchComplete_canonical (q : Nat) (a : RingReply) (s : State) (hs : s.Canonical) (t0 : State) (h0 : execRingFetchComplete q a s = .next t0) : t0.Canonical := by
  obtain ⟨_, rfl⟩ := ok_next h0
  clear h0
  try dsimp only
  repeat' first | (with_reducible assumption) | split | (with_reducible apply State.when_canonical <;> intros) | (with_reducible apply State.sbAnswer_canonical <;> intros) | (with_reducible apply State.deliver_canonical <;> intros) | (with_reducible apply State.granted_canonical <;> intros) | (with_reducible apply State.dataArrives_canonical <;> intros) | (with_reducible apply State.withLines_canonical <;> intros) | (with_reducible apply State.withReads_canonical <;> intros) | (with_reducible apply State.whenHeld_canonical <;> intros) | (with_reducible apply State.lookup_canonical <;> intros) | (with_reducible apply State.hostRead_canonical <;> intros) | (with_reducible apply State.hostWrite_canonical <;> intros) | (with_reducible apply State.delivery_canonical <;> intros) | (with_reducible apply State.pageRead_canonical <;> intros) | (with_reducible apply State.pageWrite_canonical <;> intros) | (with_reducible apply State.stewardLines_canonical <;> intros) | (with_reducible apply State.choiceLines_canonical <;> intros) | (with_reducible apply State.preloadRead_canonical <;> intros) | (with_reducible apply State.opStep_canonical <;> intros) | (with_reducible apply State.receive_canonical <;> intros) | (with_reducible apply State.onObject_canonical <;> intros) | (with_reducible apply State.endOwner_canonical <;> intros) | (with_reducible apply State.chipWide_canonical <;> intros) | (with_reducible apply State.kernelStep_canonical <;> intros) | (with_reducible apply State.coreInstr_canonical <;> intros) | (with_reducible apply State.endArrival_canonical <;> intros) | (with_reducible apply State.notice_canonical <;> intros) | (with_reducible apply State.fenceNotice_canonical <;> intros) | (with_reducible apply State.handleStep_canonical <;> intros) | (with_reducible apply State.sysStep_canonical <;> intros) | (with_reducible apply State.forAll_canonical <;> intros) | (with_reducible apply foldl_canonical <;> intros)
  all_goals simp +contextual (maxDischargeDepth := 20) [*]
theorem execConfig_canonical (q : Nat) (s : State) (hs : s.Canonical) (t0 : State) (h0 : execConfig q s = .next t0) : t0.Canonical := by
  obtain ⟨_, rfl⟩ := ok_next h0
  clear h0
  try dsimp only
  repeat' first | (with_reducible assumption) | split | (with_reducible apply State.when_canonical <;> intros) | (with_reducible apply State.sbAnswer_canonical <;> intros) | (with_reducible apply State.deliver_canonical <;> intros) | (with_reducible apply State.granted_canonical <;> intros) | (with_reducible apply State.dataArrives_canonical <;> intros) | (with_reducible apply State.withLines_canonical <;> intros) | (with_reducible apply State.withReads_canonical <;> intros) | (with_reducible apply State.whenHeld_canonical <;> intros) | (with_reducible apply State.lookup_canonical <;> intros) | (with_reducible apply State.hostRead_canonical <;> intros) | (with_reducible apply State.hostWrite_canonical <;> intros) | (with_reducible apply State.delivery_canonical <;> intros) | (with_reducible apply State.pageRead_canonical <;> intros) | (with_reducible apply State.pageWrite_canonical <;> intros) | (with_reducible apply State.stewardLines_canonical <;> intros) | (with_reducible apply State.choiceLines_canonical <;> intros) | (with_reducible apply State.preloadRead_canonical <;> intros) | (with_reducible apply State.opStep_canonical <;> intros) | (with_reducible apply State.receive_canonical <;> intros) | (with_reducible apply State.onObject_canonical <;> intros) | (with_reducible apply State.endOwner_canonical <;> intros) | (with_reducible apply State.chipWide_canonical <;> intros) | (with_reducible apply State.kernelStep_canonical <;> intros) | (with_reducible apply State.coreInstr_canonical <;> intros) | (with_reducible apply State.endArrival_canonical <;> intros) | (with_reducible apply State.notice_canonical <;> intros) | (with_reducible apply State.fenceNotice_canonical <;> intros) | (with_reducible apply State.handleStep_canonical <;> intros) | (with_reducible apply State.sysStep_canonical <;> intros) | (with_reducible apply State.forAll_canonical <;> intros) | (with_reducible apply foldl_canonical <;> intros)
  all_goals simp +contextual (maxDischargeDepth := 20) [*]
@[simp] theorem State.tenantBlock_canonical (s : State) (n : Nat) (d : Node) (source obj : Nat) (hs : s.Canonical) :
    (State.tenantBlock s n d source obj).Canonical := by
  unfold State.tenantBlock
  simp +contextual (maxDischargeDepth := 20) [*]
@[simp] theorem State.emitToken_canonical (s : State) (d : Node) (own : Nat) (hs : s.Canonical) :
    (State.emitToken s d own).Canonical := by
  unfold State.emitToken
  try dsimp only
  (repeat' split) <;> simp +contextual (maxDischargeDepth := 20) [*]
@[simp] theorem State.decideBranch_canonical (s : State) (q seq : Nat) (r : Decision) (hs : s.Canonical) :
    (State.decideBranch s q seq r).Canonical := by
  unfold State.decideBranch
  simp +contextual (maxDischargeDepth := 20) [*]
@[simp] theorem State.skip_canonical (s : State) (n : Nat) (d : Node) (hs : s.Canonical) :
    (State.skip s n d).Canonical := by
  unfold State.skip
  (repeat' split) <;> simp +contextual (maxDischargeDepth := 20) [*]
@[simp] theorem State.branchEnds_canonical (s : State) (d : Node) (r : Decision) (hs : s.Canonical) :
    (State.branchEnds s d r).Canonical := by
  unfold State.branchEnds
  (repeat' split) <;> simp +contextual (maxDischargeDepth := 20) [*]
@[simp] theorem State.afterRelease_canonical (s : State) (n : Nat) (d : Node) (hs : s.Canonical) :
    (State.afterRelease s n d).Canonical := by
  unfold State.afterRelease
  try dsimp only
  (repeat' split) <;> simp +contextual (maxDischargeDepth := 20) [*]
@[simp] theorem State.release1_canonical (s : State) (n : Nat) (d : Node) (hs : s.Canonical) :
    (State.release1 s n d).Canonical := by
  unfold State.release1
  try dsimp only
  (repeat' split) <;> simp +contextual (maxDischargeDepth := 20) [*]
@[simp] theorem State.releaseSheaf_canonical (s : State) (n : Nat) (d : Node) (hs : s.Canonical) :
    (State.releaseSheaf s n d).Canonical := by
  unfold State.releaseSheaf
  try dsimp only
  (repeat' split) <;> simp +contextual (maxDischargeDepth := 20) [*]
theorem execSheafRelease_canonical (n : Nat) (s : State) (hs : s.Canonical) (t0 : State) (h0 : execSheafRelease n s = .next t0) : t0.Canonical := by
  obtain ⟨_, rfl⟩ := ok_next h0
  clear h0
  try dsimp only
  repeat' first | (with_reducible assumption) | split | (with_reducible apply State.when_canonical <;> intros) | (with_reducible apply State.sbAnswer_canonical <;> intros) | (with_reducible apply State.deliver_canonical <;> intros) | (with_reducible apply State.granted_canonical <;> intros) | (with_reducible apply State.dataArrives_canonical <;> intros) | (with_reducible apply State.withLines_canonical <;> intros) | (with_reducible apply State.withReads_canonical <;> intros) | (with_reducible apply State.whenHeld_canonical <;> intros) | (with_reducible apply State.lookup_canonical <;> intros) | (with_reducible apply State.hostRead_canonical <;> intros) | (with_reducible apply State.hostWrite_canonical <;> intros) | (with_reducible apply State.delivery_canonical <;> intros) | (with_reducible apply State.pageRead_canonical <;> intros) | (with_reducible apply State.pageWrite_canonical <;> intros) | (with_reducible apply State.stewardLines_canonical <;> intros) | (with_reducible apply State.choiceLines_canonical <;> intros) | (with_reducible apply State.preloadRead_canonical <;> intros) | (with_reducible apply State.opStep_canonical <;> intros) | (with_reducible apply State.receive_canonical <;> intros) | (with_reducible apply State.onObject_canonical <;> intros) | (with_reducible apply State.endOwner_canonical <;> intros) | (with_reducible apply State.chipWide_canonical <;> intros) | (with_reducible apply State.kernelStep_canonical <;> intros) | (with_reducible apply State.coreInstr_canonical <;> intros) | (with_reducible apply State.endArrival_canonical <;> intros) | (with_reducible apply State.notice_canonical <;> intros) | (with_reducible apply State.fenceNotice_canonical <;> intros) | (with_reducible apply State.handleStep_canonical <;> intros) | (with_reducible apply State.sysStep_canonical <;> intros) | (with_reducible apply State.forAll_canonical <;> intros) | (with_reducible apply foldl_canonical <;> intros)
  all_goals simp +contextual (maxDischargeDepth := 20) [*]
@[simp] theorem State.askAdmit_canonical (s : State) (f : Nat) (e : Entry) (front : Bool) (hs : s.Canonical) :
    (State.askAdmit s f e front).Canonical := by
  unfold State.askAdmit
  simp +contextual (maxDischargeDepth := 20) [*]
@[simp] theorem State.metaFail_canonical (s : State) (n : Nat) (d : Node) (img : Tbl Word) (reg executed : Nat) (ordinal : Option Nat) (hs : s.Canonical) :
    (State.metaFail s n d img reg executed ordinal).Canonical := by
  unfold State.metaFail
  simp +contextual (maxDischargeDepth := 20) [*]
@[simp] theorem State.launch_canonical (s : State) (n : Nat) (d : Node) (hs : s.Canonical) :
    (State.launch s n d).Canonical := by
  unfold State.launch
  try dsimp only
  (repeat' split) <;> simp +contextual (maxDischargeDepth := 20) [*]
@[simp] theorem State.launchOf_canonical (s : State) (c : Instr) (n : Nat) (d : Node) (hs : s.Canonical) :
    (State.launchOf s c n d).Canonical := by
  unfold State.launchOf
  simp +contextual (maxDischargeDepth := 20) [*]
@[simp] theorem State.writeSlot_canonical (s : State) (i : Nat) (x : Slot) (hs : s.Canonical) :
    (State.writeSlot s i x).Canonical := by
  unfold State.writeSlot
  try dsimp only
  (repeat' split) <;> simp +contextual (maxDischargeDepth := 20) [*]
@[simp] theorem State.scaleBlock_canonical (s : State) (n : Nat) (d : Node) (hs : s.Canonical) :
    (State.scaleBlock s n d).Canonical := by
  unfold State.scaleBlock
  simp +contextual (maxDischargeDepth := 20) [*]
@[simp] theorem State.writeExp_canonical (s : State) (d : Node) (x : Slot) (e : Int) (hs : s.Canonical) :
    ((State.writeExp s d x e).1).Canonical := by
  unfold State.writeExp
  simp +contextual (maxDischargeDepth := 20) [*]
@[simp] theorem State.askPass_canonical (s : State) (n : Nat) (d : Node) (hs : s.Canonical) :
    (State.askPass s n d).Canonical := by
  unfold State.askPass
  try dsimp only
  (repeat' split) <;> simp +contextual (maxDischargeDepth := 20) [*]
@[simp] theorem State.steward_canonical (s : State) (n : Nat) (d : Node) (hs : s.Canonical) :
    (State.steward s n d).Canonical := by
  unfold State.steward
  try dsimp only
  (repeat' split) <;> simp +contextual (maxDischargeDepth := 20) [*]
@[simp] theorem State.stewardLines_canonical (s : State) (n : Nat) (d : Node) (f : State → State) (hs : s.Canonical) (h3 : ∀ (x0 : State), x0.Canonical → (f x0).Canonical) :
    (State.stewardLines s n d f).Canonical := by
  unfold State.stewardLines
  try dsimp only
  (repeat' split) <;> simp +contextual (maxDischargeDepth := 20) [*]
theorem execStewardStep_canonical (n : Nat) (s : State) (hs : s.Canonical) (t0 : State) (h0 : execStewardStep n s = .next t0) : t0.Canonical := by
  obtain ⟨_, rfl⟩ := ok_next h0
  clear h0
  try dsimp only
  repeat' first | (with_reducible assumption) | split | (with_reducible apply State.when_canonical <;> intros) | (with_reducible apply State.sbAnswer_canonical <;> intros) | (with_reducible apply State.deliver_canonical <;> intros) | (with_reducible apply State.granted_canonical <;> intros) | (with_reducible apply State.dataArrives_canonical <;> intros) | (with_reducible apply State.withLines_canonical <;> intros) | (with_reducible apply State.withReads_canonical <;> intros) | (with_reducible apply State.whenHeld_canonical <;> intros) | (with_reducible apply State.lookup_canonical <;> intros) | (with_reducible apply State.hostRead_canonical <;> intros) | (with_reducible apply State.hostWrite_canonical <;> intros) | (with_reducible apply State.delivery_canonical <;> intros) | (with_reducible apply State.pageRead_canonical <;> intros) | (with_reducible apply State.pageWrite_canonical <;> intros) | (with_reducible apply State.stewardLines_canonical <;> intros) | (with_reducible apply State.choiceLines_canonical <;> intros) | (with_reducible apply State.preloadRead_canonical <;> intros) | (with_reducible apply State.opStep_canonical <;> intros) | (with_reducible apply State.receive_canonical <;> intros) | (with_reducible apply State.onObject_canonical <;> intros) | (with_reducible apply State.endOwner_canonical <;> intros) | (with_reducible apply State.chipWide_canonical <;> intros) | (with_reducible apply State.kernelStep_canonical <;> intros) | (with_reducible apply State.coreInstr_canonical <;> intros) | (with_reducible apply State.endArrival_canonical <;> intros) | (with_reducible apply State.notice_canonical <;> intros) | (with_reducible apply State.fenceNotice_canonical <;> intros) | (with_reducible apply State.handleStep_canonical <;> intros) | (with_reducible apply State.sysStep_canonical <;> intros) | (with_reducible apply State.forAll_canonical <;> intros) | (with_reducible apply foldl_canonical <;> intros)
  all_goals simp +contextual (maxDischargeDepth := 20) [*]
@[simp] theorem State.completeChoice_canonical (s : State) (n : Nat) (d : Node) (hs : s.Canonical) :
    (State.completeChoice s n d).Canonical := by
  unfold State.completeChoice
  try dsimp only
  (repeat' split) <;> simp +contextual (maxDischargeDepth := 20) [*]
@[simp] theorem State.choiceLines_canonical (s : State) (n : Nat) (d : Node) (f : State → State) (hs : s.Canonical) (h3 : ∀ (x0 : State), x0.Canonical → (f x0).Canonical) :
    (State.choiceLines s n d f).Canonical := by
  unfold State.choiceLines
  (repeat' split) <;> simp +contextual (maxDischargeDepth := 20) [*]
theorem execMeasureChoice_canonical (n : Nat) (s : State) (hs : s.Canonical) (t0 : State) (h0 : execMeasureChoice n s = .next t0) : t0.Canonical := by
  obtain ⟨_, rfl⟩ := ok_next h0
  clear h0
  try dsimp only
  repeat' first | (with_reducible assumption) | split | (with_reducible apply State.when_canonical <;> intros) | (with_reducible apply State.sbAnswer_canonical <;> intros) | (with_reducible apply State.deliver_canonical <;> intros) | (with_reducible apply State.granted_canonical <;> intros) | (with_reducible apply State.dataArrives_canonical <;> intros) | (with_reducible apply State.withLines_canonical <;> intros) | (with_reducible apply State.withReads_canonical <;> intros) | (with_reducible apply State.whenHeld_canonical <;> intros) | (with_reducible apply State.lookup_canonical <;> intros) | (with_reducible apply State.hostRead_canonical <;> intros) | (with_reducible apply State.hostWrite_canonical <;> intros) | (with_reducible apply State.delivery_canonical <;> intros) | (with_reducible apply State.pageRead_canonical <;> intros) | (with_reducible apply State.pageWrite_canonical <;> intros) | (with_reducible apply State.stewardLines_canonical <;> intros) | (with_reducible apply State.choiceLines_canonical <;> intros) | (with_reducible apply State.preloadRead_canonical <;> intros) | (with_reducible apply State.opStep_canonical <;> intros) | (with_reducible apply State.receive_canonical <;> intros) | (with_reducible apply State.onObject_canonical <;> intros) | (with_reducible apply State.endOwner_canonical <;> intros) | (with_reducible apply State.chipWide_canonical <;> intros) | (with_reducible apply State.kernelStep_canonical <;> intros) | (with_reducible apply State.coreInstr_canonical <;> intros) | (with_reducible apply State.endArrival_canonical <;> intros) | (with_reducible apply State.notice_canonical <;> intros) | (with_reducible apply State.fenceNotice_canonical <;> intros) | (with_reducible apply State.handleStep_canonical <;> intros) | (with_reducible apply State.sysStep_canonical <;> intros) | (with_reducible apply State.forAll_canonical <;> intros) | (with_reducible apply foldl_canonical <;> intros)
  all_goals simp +contextual (maxDischargeDepth := 20) [*]
@[simp] theorem State.scaleRecord_canonical (s : State) (r : ScaleRec) (hs : s.Canonical) :
    (State.scaleRecord s r).Canonical := by
  unfold State.scaleRecord
  (repeat' split) <;> simp +contextual (maxDischargeDepth := 20) [*]
theorem execScaleRecord_canonical (s : State) (hs : s.Canonical) (t0 : State) (h0 : execScaleRecord s = .next t0) : t0.Canonical := by
  obtain ⟨_, rfl⟩ := ok_next h0
  clear h0
  try dsimp only
  repeat' first | (with_reducible assumption) | split | (with_reducible apply State.when_canonical <;> intros) | (with_reducible apply State.sbAnswer_canonical <;> intros) | (with_reducible apply State.deliver_canonical <;> intros) | (with_reducible apply State.granted_canonical <;> intros) | (with_reducible apply State.dataArrives_canonical <;> intros) | (with_reducible apply State.withLines_canonical <;> intros) | (with_reducible apply State.withReads_canonical <;> intros) | (with_reducible apply State.whenHeld_canonical <;> intros) | (with_reducible apply State.lookup_canonical <;> intros) | (with_reducible apply State.hostRead_canonical <;> intros) | (with_reducible apply State.hostWrite_canonical <;> intros) | (with_reducible apply State.delivery_canonical <;> intros) | (with_reducible apply State.pageRead_canonical <;> intros) | (with_reducible apply State.pageWrite_canonical <;> intros) | (with_reducible apply State.stewardLines_canonical <;> intros) | (with_reducible apply State.choiceLines_canonical <;> intros) | (with_reducible apply State.preloadRead_canonical <;> intros) | (with_reducible apply State.opStep_canonical <;> intros) | (with_reducible apply State.receive_canonical <;> intros) | (with_reducible apply State.onObject_canonical <;> intros) | (with_reducible apply State.endOwner_canonical <;> intros) | (with_reducible apply State.chipWide_canonical <;> intros) | (with_reducible apply State.kernelStep_canonical <;> intros) | (with_reducible apply State.coreInstr_canonical <;> intros) | (with_reducible apply State.endArrival_canonical <;> intros) | (with_reducible apply State.notice_canonical <;> intros) | (with_reducible apply State.fenceNotice_canonical <;> intros) | (with_reducible apply State.handleStep_canonical <;> intros) | (with_reducible apply State.sysStep_canonical <;> intros) | (with_reducible apply State.forAll_canonical <;> intros) | (with_reducible apply foldl_canonical <;> intros)
  all_goals simp +contextual (maxDischargeDepth := 20) [*]
@[simp] theorem State.enterFurrow_canonical (s : State) (f : Nat) (e : Entry) (front : Bool) (hs : s.Canonical) :
    (State.enterFurrow s f e front).Canonical := by
  unfold State.enterFurrow
  simp +contextual (maxDischargeDepth := 20) [*]
@[simp] theorem State.admit1_canonical (s : State) (a : Admit) (hs : s.Canonical) :
    (State.admit1 s a).Canonical := by
  unfold State.admit1
  simp +contextual (maxDischargeDepth := 20) [*]
theorem execFurrowAdmit_canonical (f : Nat) (s : State) (hs : s.Canonical) (t0 : State) (h0 : execFurrowAdmit f s = .next t0) : t0.Canonical := by
  obtain ⟨_, rfl⟩ := ok_next h0
  clear h0
  try dsimp only
  repeat' first | (with_reducible assumption) | split | (with_reducible apply State.when_canonical <;> intros) | (with_reducible apply State.sbAnswer_canonical <;> intros) | (with_reducible apply State.deliver_canonical <;> intros) | (with_reducible apply State.granted_canonical <;> intros) | (with_reducible apply State.dataArrives_canonical <;> intros) | (with_reducible apply State.withLines_canonical <;> intros) | (with_reducible apply State.withReads_canonical <;> intros) | (with_reducible apply State.whenHeld_canonical <;> intros) | (with_reducible apply State.lookup_canonical <;> intros) | (with_reducible apply State.hostRead_canonical <;> intros) | (with_reducible apply State.hostWrite_canonical <;> intros) | (with_reducible apply State.delivery_canonical <;> intros) | (with_reducible apply State.pageRead_canonical <;> intros) | (with_reducible apply State.pageWrite_canonical <;> intros) | (with_reducible apply State.stewardLines_canonical <;> intros) | (with_reducible apply State.choiceLines_canonical <;> intros) | (with_reducible apply State.preloadRead_canonical <;> intros) | (with_reducible apply State.opStep_canonical <;> intros) | (with_reducible apply State.receive_canonical <;> intros) | (with_reducible apply State.onObject_canonical <;> intros) | (with_reducible apply State.endOwner_canonical <;> intros) | (with_reducible apply State.chipWide_canonical <;> intros) | (with_reducible apply State.kernelStep_canonical <;> intros) | (with_reducible apply State.coreInstr_canonical <;> intros) | (with_reducible apply State.endArrival_canonical <;> intros) | (with_reducible apply State.notice_canonical <;> intros) | (with_reducible apply State.fenceNotice_canonical <;> intros) | (with_reducible apply State.handleStep_canonical <;> intros) | (with_reducible apply State.sysStep_canonical <;> intros) | (with_reducible apply State.forAll_canonical <;> intros) | (with_reducible apply foldl_canonical <;> intros)
  all_goals simp +contextual (maxDischargeDepth := 20) [*]
@[simp] theorem State.carryLine_canonical (s : State) (port : Nat) (hs : s.Canonical) :
    (State.carryLine s port).Canonical := by
  unfold State.carryLine
  (repeat' split) <;> simp +contextual (maxDischargeDepth := 20) [*]
@[simp] theorem State.carryLines_canonical (s : State) (port k : Nat) (hs : s.Canonical) :
    (s.carryLines port k).Canonical := by
  induction k generalizing s with
  | zero => exact hs
  | succ k ih => exact ih _ (State.carryLine_canonical s port hs)
theorem State.carryTo_canonical (s : State) (f k : Nat) (hs : s.Canonical) {t : State} (h : s.carryTo f k = some t) :
    t.Canonical := by
  induction k generalizing s with
  | zero => cases h
  | succ k ih =>
    unfold State.carryTo at h
    dsimp only at h
    split at h
    · exact Option.some.inj h ▸ hs
    · split at h
      · cases h
      · exact ih _ (State.carryLine_canonical _ _ hs) h
@[simp] theorem State.carrySome_canonical (s : State) (port : Nat) (hs : s.Canonical) :
    (State.carrySome s port).Canonical := by
  unfold State.carrySome
  try dsimp only
  (repeat' split) <;> simp +contextual (maxDischargeDepth := 20) [*]
@[simp] theorem State.preload_canonical (s : State) (f : Nat) (x : Furrow) (e : Entry) (parked : Bool) (hs : s.Canonical) :
    (State.preload s f x e parked).Canonical := by
  unfold State.preload
  try dsimp only
  (repeat' split) <;> simp +contextual (maxDischargeDepth := 20) [*]
@[simp] theorem State.grantWith_canonical (s : State) (f : Nat) (chain : Bool) (hs : s.Canonical) :
    (State.grantWith s f chain).Canonical := by
  unfold State.grantWith
  try dsimp only
  (repeat' split) <;> simp +contextual (maxDischargeDepth := 20) [*]
@[simp] theorem State.grant_canonical (s : State) (f : Nat) (hs : s.Canonical) :
    (State.grant s f).Canonical := by
  unfold State.grant
  try dsimp only
  (repeat' split) <;> simp +contextual (maxDischargeDepth := 20) [*]
theorem execArbiterGrant_canonical (f : Nat) (s : State) (hs : s.Canonical) (t0 : State) (h0 : execArbiterGrant f s = .next t0) : t0.Canonical := by
  obtain ⟨_, rfl⟩ := ok_next h0
  clear h0
  simp +contextual (maxDischargeDepth := 20) [*]
@[simp] theorem State.sheafEcc_canonical (s : State) (n : Nat) (d : Node) (source : Nat) (detail : BitVec 32) (furrow : BitVec 10) (hs : s.Canonical) :
    (State.sheafEcc s n d source detail furrow).Canonical := by
  unfold State.sheafEcc
  simp +contextual (maxDischargeDepth := 20) [*]
@[simp] theorem State.eccEvent_canonical (s : State) (d : Node) (source : Nat) (furrow : BitVec 10) (fin : Option Final) (hs : s.Canonical) :
    (State.eccEvent s d source furrow fin).Canonical := by
  unfold State.eccEvent
  simp +contextual (maxDischargeDepth := 20) [*]
@[simp] theorem State.loadBank_canonical (s : State) (f : Nat) (hs : s.Canonical) :
    (State.loadBank s f).Canonical := by
  unfold State.loadBank
  simp +contextual (maxDischargeDepth := 20) [*]
@[simp] theorem State.preloadRead_canonical (s : State) (f : Nat) (err : Option (Bool × PreloadError)) (n : Nat) (d : Node) (g : State → State) (hs : s.Canonical) (h5 : ∀ (x0 : State), x0.Canonical → (g x0).Canonical) :
    (State.preloadRead s f err n d g).Canonical := by
  unfold State.preloadRead
  simp +contextual (maxDischargeDepth := 20) [*]
theorem execPreloadComplete_canonical (f : Nat) (err : Option (Bool × PreloadError)) (s : State) (hs : s.Canonical) (t0 : State) (h0 : execPreloadComplete f err s = .next t0) : t0.Canonical := by
  obtain ⟨_, rfl⟩ := ok_next h0
  clear h0
  apply State.when_canonical _ _ _ hs
  intro u hu
  repeat' first | (with_reducible assumption) | split | (with_reducible apply State.preloadRead_canonical <;> intros)
  all_goals first
    | (rename_i h; have := State.carryTo_canonical _ _ _ (by assumption) h; simp +contextual (maxDischargeDepth := 20) [this]; done)
    | simp +contextual (maxDischargeDepth := 20) [*]
@[simp] theorem State.streamStart_canonical (s : State) (f : Nat) (d : Node) (hs : s.Canonical) :
    (State.streamStart s f d).Canonical := by
  unfold State.streamStart
  (repeat' split) <;> simp +contextual (maxDischargeDepth := 20) [*]
@[simp] theorem State.startBudget_canonical (s : State) (d : Node) (hs : s.Canonical) :
    (State.startBudget s d).Canonical := by
  unfold State.startBudget
  (repeat' split) <;> simp +contextual (maxDischargeDepth := 20) [*]
@[simp] theorem State.traceStart_canonical (s : State) (f : Nat) (d : Node) (member : Option Nat) (hs : s.Canonical) :
    (State.traceStart s f d member).Canonical := by
  unfold State.traceStart
  simp +contextual (maxDischargeDepth := 20) [*]
@[simp] theorem State.startTimers_canonical (s : State) (n : Nat) (d : Node) (hs : s.Canonical) :
    (State.startTimers s n d).Canonical := by
  unfold State.startTimers
  (repeat' split) <;> simp +contextual (maxDischargeDepth := 20) [*]
@[simp] theorem State.countLatency_canonical (s : State) (d : Node) (e : Entry) (hs : s.Canonical) :
    (State.countLatency s d e).Canonical := by
  unfold State.countLatency
  (repeat' split) <;> simp +contextual (maxDischargeDepth := 20) [*]
@[simp] theorem State.start1_canonical (s : State) (f : Nat) (sh : Shadow) (d : Node) (hs : s.Canonical) :
    (State.start1 s f sh d).Canonical := by
  unfold State.start1
  try dsimp only
  (repeat' split) <;> simp +contextual (maxDischargeDepth := 20) [*]
@[simp] theorem State.nextHeld_canonical (s : State) (f : Nat) (r : EngineRun) (d : Node) (hs : s.Canonical) :
    (State.nextHeld s f r d).Canonical := by
  unfold State.nextHeld
  simp +contextual (maxDischargeDepth := 20) [*]
theorem execEngineStart_canonical (f : Nat) (s : State) (hs : s.Canonical) (t0 : State) (h0 : execEngineStart f s = .next t0) : t0.Canonical := by
  obtain ⟨_, rfl⟩ := ok_next h0
  clear h0
  try dsimp only
  repeat' first | (with_reducible assumption) | split | (with_reducible apply State.when_canonical <;> intros) | (with_reducible apply State.sbAnswer_canonical <;> intros) | (with_reducible apply State.deliver_canonical <;> intros) | (with_reducible apply State.granted_canonical <;> intros) | (with_reducible apply State.dataArrives_canonical <;> intros) | (with_reducible apply State.withLines_canonical <;> intros) | (with_reducible apply State.withReads_canonical <;> intros) | (with_reducible apply State.whenHeld_canonical <;> intros) | (with_reducible apply State.lookup_canonical <;> intros) | (with_reducible apply State.hostRead_canonical <;> intros) | (with_reducible apply State.hostWrite_canonical <;> intros) | (with_reducible apply State.delivery_canonical <;> intros) | (with_reducible apply State.pageRead_canonical <;> intros) | (with_reducible apply State.pageWrite_canonical <;> intros) | (with_reducible apply State.stewardLines_canonical <;> intros) | (with_reducible apply State.choiceLines_canonical <;> intros) | (with_reducible apply State.preloadRead_canonical <;> intros) | (with_reducible apply State.opStep_canonical <;> intros) | (with_reducible apply State.receive_canonical <;> intros) | (with_reducible apply State.onObject_canonical <;> intros) | (with_reducible apply State.endOwner_canonical <;> intros) | (with_reducible apply State.chipWide_canonical <;> intros) | (with_reducible apply State.kernelStep_canonical <;> intros) | (with_reducible apply State.coreInstr_canonical <;> intros) | (with_reducible apply State.endArrival_canonical <;> intros) | (with_reducible apply State.notice_canonical <;> intros) | (with_reducible apply State.fenceNotice_canonical <;> intros) | (with_reducible apply State.handleStep_canonical <;> intros) | (with_reducible apply State.sysStep_canonical <;> intros) | (with_reducible apply State.forAll_canonical <;> intros) | (with_reducible apply foldl_canonical <;> intros)
  all_goals simp +contextual (maxDischargeDepth := 20) [*]
theorem execCycleBudgetExpiry_canonical (q : Nat) (s : State) (hs : s.Canonical) (t0 : State) (h0 : execCycleBudgetExpiry q s = .next t0) : t0.Canonical := by
  obtain ⟨_, rfl⟩ := ok_next h0
  clear h0
  try dsimp only
  repeat' first | (with_reducible assumption) | split | (with_reducible apply State.when_canonical <;> intros) | (with_reducible apply State.sbAnswer_canonical <;> intros) | (with_reducible apply State.deliver_canonical <;> intros) | (with_reducible apply State.granted_canonical <;> intros) | (with_reducible apply State.dataArrives_canonical <;> intros) | (with_reducible apply State.withLines_canonical <;> intros) | (with_reducible apply State.withReads_canonical <;> intros) | (with_reducible apply State.whenHeld_canonical <;> intros) | (with_reducible apply State.lookup_canonical <;> intros) | (with_reducible apply State.hostRead_canonical <;> intros) | (with_reducible apply State.hostWrite_canonical <;> intros) | (with_reducible apply State.delivery_canonical <;> intros) | (with_reducible apply State.pageRead_canonical <;> intros) | (with_reducible apply State.pageWrite_canonical <;> intros) | (with_reducible apply State.stewardLines_canonical <;> intros) | (with_reducible apply State.choiceLines_canonical <;> intros) | (with_reducible apply State.preloadRead_canonical <;> intros) | (with_reducible apply State.opStep_canonical <;> intros) | (with_reducible apply State.receive_canonical <;> intros) | (with_reducible apply State.onObject_canonical <;> intros) | (with_reducible apply State.endOwner_canonical <;> intros) | (with_reducible apply State.chipWide_canonical <;> intros) | (with_reducible apply State.kernelStep_canonical <;> intros) | (with_reducible apply State.coreInstr_canonical <;> intros) | (with_reducible apply State.endArrival_canonical <;> intros) | (with_reducible apply State.notice_canonical <;> intros) | (with_reducible apply State.fenceNotice_canonical <;> intros) | (with_reducible apply State.handleStep_canonical <;> intros) | (with_reducible apply State.sysStep_canonical <;> intros) | (with_reducible apply State.forAll_canonical <;> intros) | (with_reducible apply foldl_canonical <;> intros)
  all_goals simp +contextual (maxDischargeDepth := 20) [*]
@[simp] theorem State.unpark_canonical (s : State) (f : Nat) (hs : s.Canonical) :
    (State.unpark s f).Canonical := by
  unfold State.unpark
  try dsimp only
  (repeat' split) <;> simp +contextual (maxDischargeDepth := 20) [*]
@[simp] theorem State.landToken_canonical (s : State) (f c : Nat) (gen : BitVec 12) (v : BitVec 16) (hs : s.Canonical) :
    (State.landToken s f c gen v).Canonical := by
  unfold State.landToken
  (repeat' split) <;> simp +contextual (maxDischargeDepth := 20) [*]
theorem execTokenDelivery_canonical (f c : Nat) (g : Gens) (v : BitVec 16) (remote : Bool) (s : State) (hs : s.Canonical) (t0 : State) (h0 : execTokenDelivery f c g v remote s = .next t0) : t0.Canonical := by
  obtain ⟨_, rfl⟩ := ok_next h0
  clear h0
  try dsimp only
  repeat' first | (with_reducible assumption) | split | (with_reducible apply State.when_canonical <;> intros) | (with_reducible apply State.sbAnswer_canonical <;> intros) | (with_reducible apply State.deliver_canonical <;> intros) | (with_reducible apply State.granted_canonical <;> intros) | (with_reducible apply State.dataArrives_canonical <;> intros) | (with_reducible apply State.withLines_canonical <;> intros) | (with_reducible apply State.withReads_canonical <;> intros) | (with_reducible apply State.whenHeld_canonical <;> intros) | (with_reducible apply State.lookup_canonical <;> intros) | (with_reducible apply State.hostRead_canonical <;> intros) | (with_reducible apply State.hostWrite_canonical <;> intros) | (with_reducible apply State.delivery_canonical <;> intros) | (with_reducible apply State.pageRead_canonical <;> intros) | (with_reducible apply State.pageWrite_canonical <;> intros) | (with_reducible apply State.stewardLines_canonical <;> intros) | (with_reducible apply State.choiceLines_canonical <;> intros) | (with_reducible apply State.preloadRead_canonical <;> intros) | (with_reducible apply State.opStep_canonical <;> intros) | (with_reducible apply State.receive_canonical <;> intros) | (with_reducible apply State.onObject_canonical <;> intros) | (with_reducible apply State.endOwner_canonical <;> intros) | (with_reducible apply State.chipWide_canonical <;> intros) | (with_reducible apply State.kernelStep_canonical <;> intros) | (with_reducible apply State.coreInstr_canonical <;> intros) | (with_reducible apply State.endArrival_canonical <;> intros) | (with_reducible apply State.notice_canonical <;> intros) | (with_reducible apply State.fenceNotice_canonical <;> intros) | (with_reducible apply State.handleStep_canonical <;> intros) | (with_reducible apply State.sysStep_canonical <;> intros) | (with_reducible apply State.forAll_canonical <;> intros) | (with_reducible apply foldl_canonical <;> intros)
  all_goals simp +contextual (maxDischargeDepth := 20) [*]
theorem execLendMark_canonical (core : Nat) (s : State) (hs : s.Canonical) (t0 : State) (h0 : execLendMark core s = .next t0) : t0.Canonical := by
  obtain ⟨_, rfl⟩ := ok_next h0
  clear h0
  try dsimp only
  repeat' first | (with_reducible assumption) | split | (with_reducible apply State.when_canonical <;> intros) | (with_reducible apply State.sbAnswer_canonical <;> intros) | (with_reducible apply State.deliver_canonical <;> intros) | (with_reducible apply State.granted_canonical <;> intros) | (with_reducible apply State.dataArrives_canonical <;> intros) | (with_reducible apply State.withLines_canonical <;> intros) | (with_reducible apply State.withReads_canonical <;> intros) | (with_reducible apply State.whenHeld_canonical <;> intros) | (with_reducible apply State.lookup_canonical <;> intros) | (with_reducible apply State.hostRead_canonical <;> intros) | (with_reducible apply State.hostWrite_canonical <;> intros) | (with_reducible apply State.delivery_canonical <;> intros) | (with_reducible apply State.pageRead_canonical <;> intros) | (with_reducible apply State.pageWrite_canonical <;> intros) | (with_reducible apply State.stewardLines_canonical <;> intros) | (with_reducible apply State.choiceLines_canonical <;> intros) | (with_reducible apply State.preloadRead_canonical <;> intros) | (with_reducible apply State.opStep_canonical <;> intros) | (with_reducible apply State.receive_canonical <;> intros) | (with_reducible apply State.onObject_canonical <;> intros) | (with_reducible apply State.endOwner_canonical <;> intros) | (with_reducible apply State.chipWide_canonical <;> intros) | (with_reducible apply State.kernelStep_canonical <;> intros) | (with_reducible apply State.coreInstr_canonical <;> intros) | (with_reducible apply State.endArrival_canonical <;> intros) | (with_reducible apply State.notice_canonical <;> intros) | (with_reducible apply State.fenceNotice_canonical <;> intros) | (with_reducible apply State.handleStep_canonical <;> intros) | (with_reducible apply State.sysStep_canonical <;> intros) | (with_reducible apply State.forAll_canonical <;> intros) | (with_reducible apply foldl_canonical <;> intros)
  all_goals simp +contextual (maxDischargeDepth := 20) [*]
@[simp] theorem State.portViolation_canonical (s : State) (f : Nat) (hs : s.Canonical) :
    (State.portViolation s f).Canonical := by
  unfold State.portViolation
  simp +contextual (maxDischargeDepth := 20) [*]
@[simp] theorem State.reportFor_canonical (s : State) (f : Nat) (st : Stamp) (k : EngineRun → State)
    (hs : s.Canonical) (hk : ∀ r, (k r).Canonical) : (s.reportFor f st k).Canonical := by
  unfold State.reportFor
  (repeat' split) <;> simp [hs, hk]
@[simp] theorem State.account_canonical (s : State) (f : Nat) (r : EngineRun) (rep : EngineReport) (lost : Bool) (hs : s.Canonical) :
    (State.account s f r rep lost).Canonical := by
  unfold State.account
  (repeat' split) <;> simp +contextual (maxDischargeDepth := 20) [*]
@[simp] theorem State.clearRun_canonical (s : State) (f : Nat) (hs : s.Canonical) :
    (State.clearRun s f).Canonical := by
  unfold State.clearRun
  simp +contextual (maxDischargeDepth := 20) [*]
@[simp] theorem State.chainCommit_canonical (s : State) (f : Nat) (d : Node) (hs : s.Canonical) :
    (State.chainCommit s f d).Canonical := by
  unfold State.chainCommit
  try dsimp only
  (repeat' split) <;> simp +contextual (maxDischargeDepth := 20) [*]
@[simp] theorem State.chainBreak_canonical (s : State) (d : Node) (hs : s.Canonical) :
    (State.chainBreak s d).Canonical := by
  unfold State.chainBreak
  (repeat' split) <;> simp +contextual (maxDischargeDepth := 20) [*]
@[simp] theorem State.sendReport_canonical (s : State) (n : Nat) (d : Node) (fin : Final) (hs : s.Canonical) :
    (State.sendReport s n d fin).Canonical := by
  unfold State.sendReport
  simp +contextual (maxDischargeDepth := 20) [*]
@[simp] theorem State.templateEnd_canonical (s : State) (n : Nat) (f : Nat) (hs : s.Canonical) :
    (State.templateEnd s n f).Canonical := by
  unfold State.templateEnd
  (repeat' split) <;> simp +contextual (maxDischargeDepth := 20) [*]
@[simp] theorem State.requeue_canonical (s : State) (f : Nat) (e : Entry) (hs : s.Canonical) :
    (State.requeue s f e).Canonical := by
  unfold State.requeue
  (repeat' split) <;> simp +contextual (maxDischargeDepth := 20) [*]
@[simp] theorem State.commitPass_canonical (s : State) (n : Nat) (d : Node) (r : EngineRun) (rep : EngineReport) (hs : s.Canonical) :
    (State.commitPass s n d r rep).Canonical := by
  unfold State.commitPass
  (repeat' split) <;> simp +contextual (maxDischargeDepth := 20) [*]
@[simp] theorem State.commitMember_canonical (s : State) (f n : Nat) (d : Node) (k : Nat) (rep : EngineReport) (hs : s.Canonical) :
    (State.commitMember s f n d k rep).Canonical := by
  unfold State.commitMember
  simp +contextual (maxDischargeDepth := 20) [*]
@[simp] theorem State.nextIteration_canonical (s : State) (f n : Nat) (d : Node) (r : EngineRun) (hs : s.Canonical) :
    (State.nextIteration s f n d r).Canonical := by
  unfold State.nextIteration
  try dsimp only
  (repeat' split) <;> simp +contextual (maxDischargeDepth := 20) [*]
@[simp] theorem State.commitIteration_canonical (s : State) (f n : Nat) (d : Node) (r : EngineRun) (rep : EngineReport) (hs : s.Canonical) :
    (State.commitIteration s f n d r rep).Canonical := by
  unfold State.commitIteration
  try dsimp only
  (repeat' split) <;> simp +contextual (maxDischargeDepth := 20) [*]
@[simp] theorem State.commitOrphan_canonical (s : State) (f : Nat) (r : EngineRun) (hs : s.Canonical) :
    (State.commitOrphan s f r).Canonical := by
  unfold State.commitOrphan
  try dsimp only
  (repeat' split) <;> simp +contextual (maxDischargeDepth := 20) [*]
@[simp] theorem State.commitRun_canonical (s : State) (f : Nat) (r : EngineRun) (rep : EngineReport) (hs : s.Canonical) :
    (State.commitRun s f r rep).Canonical := by
  unfold State.commitRun
  try dsimp only
  (repeat' split) <;> simp +contextual (maxDischargeDepth := 20) [*]
@[simp] theorem State.commitEcc_canonical (s : State) (f : Nat) (r : EngineRun) (rep : EngineReport) (hs : s.Canonical) :
    (State.commitEcc s f r rep).Canonical := by
  unfold State.commitEcc
  try dsimp only
  (repeat' split) <;> simp +contextual (maxDischargeDepth := 20) [*]
theorem execCommitHandshake_canonical (f : Nat) (rep : EngineReport) (s : State) (hs : s.Canonical) (t0 : State) (h0 : execCommitHandshake f rep s = .next t0) : t0.Canonical := by
  obtain ⟨_, rfl⟩ := ok_next h0
  clear h0
  apply State.when_canonical _ _ _ hs
  intro u hu
  apply State.reportFor_canonical _ _ _ _ hu
  intro r
  try dsimp only
  (repeat' split) <;> simp +contextual (maxDischargeDepth := 20) [*]
theorem execCommitReport_canonical (n : Nat) (s : State) (hs : s.Canonical) (t0 : State) (h0 : execCommitReport n s = .next t0) : t0.Canonical := by
  obtain ⟨_, rfl⟩ := ok_next h0
  clear h0
  try dsimp only
  repeat' first | (with_reducible assumption) | split | (with_reducible apply State.when_canonical <;> intros) | (with_reducible apply State.sbAnswer_canonical <;> intros) | (with_reducible apply State.deliver_canonical <;> intros) | (with_reducible apply State.granted_canonical <;> intros) | (with_reducible apply State.dataArrives_canonical <;> intros) | (with_reducible apply State.withLines_canonical <;> intros) | (with_reducible apply State.withReads_canonical <;> intros) | (with_reducible apply State.whenHeld_canonical <;> intros) | (with_reducible apply State.lookup_canonical <;> intros) | (with_reducible apply State.hostRead_canonical <;> intros) | (with_reducible apply State.hostWrite_canonical <;> intros) | (with_reducible apply State.delivery_canonical <;> intros) | (with_reducible apply State.pageRead_canonical <;> intros) | (with_reducible apply State.pageWrite_canonical <;> intros) | (with_reducible apply State.stewardLines_canonical <;> intros) | (with_reducible apply State.choiceLines_canonical <;> intros) | (with_reducible apply State.preloadRead_canonical <;> intros) | (with_reducible apply State.opStep_canonical <;> intros) | (with_reducible apply State.receive_canonical <;> intros) | (with_reducible apply State.onObject_canonical <;> intros) | (with_reducible apply State.endOwner_canonical <;> intros) | (with_reducible apply State.chipWide_canonical <;> intros) | (with_reducible apply State.kernelStep_canonical <;> intros) | (with_reducible apply State.coreInstr_canonical <;> intros) | (with_reducible apply State.endArrival_canonical <;> intros) | (with_reducible apply State.notice_canonical <;> intros) | (with_reducible apply State.fenceNotice_canonical <;> intros) | (with_reducible apply State.handleStep_canonical <;> intros) | (with_reducible apply State.sysStep_canonical <;> intros) | (with_reducible apply State.forAll_canonical <;> intros) | (with_reducible apply foldl_canonical <;> intros)
  all_goals simp +contextual (maxDischargeDepth := 20) [*]
theorem execProgressReport_canonical (p : PortReport) (s : State) (hs : s.Canonical) (t0 : State) (h0 : execProgressReport p s = .next t0) : t0.Canonical := by
  obtain ⟨_, rfl⟩ := ok_next h0
  clear h0
  apply State.when_canonical _ _ _ hs
  intro u hu
  apply State.reportFor_canonical _ _ _ _ hu
  intro r
  try dsimp only
  (repeat' split) <;> simp +contextual (maxDischargeDepth := 20) [*]
@[simp] theorem State.satRecord_canonical (s : State) (f n : Nat) (d : Node) (r : EngineRun) (hs : s.Canonical) :
    (State.satRecord s f n d r).Canonical := by
  unfold State.satRecord
  (repeat' split) <;> simp +contextual (maxDischargeDepth := 20) [*]
theorem execSaturationHandshake_canonical (p : PortReport) (s : State) (hs : s.Canonical) (t0 : State) (h0 : execSaturationHandshake p s = .next t0) : t0.Canonical := by
  obtain ⟨_, rfl⟩ := ok_next h0
  clear h0
  apply State.when_canonical _ _ _ hs
  intro u hu
  apply State.reportFor_canonical _ _ _ _ hu
  intro r
  try dsimp only
  (repeat' split) <;> simp +contextual (maxDischargeDepth := 20) [*]
@[simp] theorem State.returnToken_canonical (s : State) (f : Nat) (d : Node) (e : Entry) (hs : s.Canonical) :
    ((State.returnToken s f d e).1).Canonical := by
  unfold State.returnToken
  try dsimp only
  (repeat' split) <;> simp +contextual (maxDischargeDepth := 20) [*]
@[simp] theorem State.requestAborted_canonical (s : State) (f : Nat) (d : Node) (r : EngineRun) (hs : s.Canonical) :
    (State.requestAborted s f d r).Canonical := by
  unfold State.requestAborted
  (repeat' split) <;> simp +contextual (maxDischargeDepth := 20) [*]
@[simp] theorem State.preempted_canonical (s : State) (f : Nat) (d : Node) (r : EngineRun) (hs : s.Canonical) :
    (State.preempted s f d r).Canonical := by
  unfold State.preempted
  try dsimp only
  (repeat' split) <;> simp +contextual (maxDischargeDepth := 20) [*]
theorem execAbortHandshake_canonical (f : Nat) (rep : EngineReport) (s : State) (hs : s.Canonical) (t0 : State) (h0 : execAbortHandshake f rep s = .next t0) : t0.Canonical := by
  obtain ⟨_, rfl⟩ := ok_next h0
  clear h0
  apply State.when_canonical _ _ _ hs
  intro u hu
  apply State.reportFor_canonical _ _ _ _ hu
  intro r
  try dsimp only
  (repeat' split) <;> simp +contextual (maxDischargeDepth := 20) [*]
theorem execPreempt_canonical (f : Nat) (s : State) (hs : s.Canonical) (t0 : State) (h0 : execPreempt f s = .next t0) : t0.Canonical := by
  obtain ⟨_, rfl⟩ := ok_next h0
  clear h0
  try dsimp only
  repeat' first | (with_reducible assumption) | split | (with_reducible apply State.when_canonical <;> intros) | (with_reducible apply State.sbAnswer_canonical <;> intros) | (with_reducible apply State.deliver_canonical <;> intros) | (with_reducible apply State.granted_canonical <;> intros) | (with_reducible apply State.dataArrives_canonical <;> intros) | (with_reducible apply State.withLines_canonical <;> intros) | (with_reducible apply State.withReads_canonical <;> intros) | (with_reducible apply State.whenHeld_canonical <;> intros) | (with_reducible apply State.lookup_canonical <;> intros) | (with_reducible apply State.hostRead_canonical <;> intros) | (with_reducible apply State.hostWrite_canonical <;> intros) | (with_reducible apply State.delivery_canonical <;> intros) | (with_reducible apply State.pageRead_canonical <;> intros) | (with_reducible apply State.pageWrite_canonical <;> intros) | (with_reducible apply State.stewardLines_canonical <;> intros) | (with_reducible apply State.choiceLines_canonical <;> intros) | (with_reducible apply State.preloadRead_canonical <;> intros) | (with_reducible apply State.opStep_canonical <;> intros) | (with_reducible apply State.receive_canonical <;> intros) | (with_reducible apply State.onObject_canonical <;> intros) | (with_reducible apply State.endOwner_canonical <;> intros) | (with_reducible apply State.chipWide_canonical <;> intros) | (with_reducible apply State.kernelStep_canonical <;> intros) | (with_reducible apply State.coreInstr_canonical <;> intros) | (with_reducible apply State.endArrival_canonical <;> intros) | (with_reducible apply State.notice_canonical <;> intros) | (with_reducible apply State.fenceNotice_canonical <;> intros) | (with_reducible apply State.handleStep_canonical <;> intros) | (with_reducible apply State.sysStep_canonical <;> intros) | (with_reducible apply State.forAll_canonical <;> intros) | (with_reducible apply foldl_canonical <;> intros)
  all_goals simp +contextual (maxDischargeDepth := 20) [*]
@[simp] theorem State.hung_canonical (s : State) (d : Node) (f : Nat) (hs : s.Canonical) :
    (State.hung s d f).Canonical := by
  unfold State.hung
  simp +contextual (maxDischargeDepth := 20) [*]
@[simp] theorem State.timeout_canonical (s : State) (n : Nat) (d : Node) (detail : BitVec 32) (f : BitVec 10) (hs : s.Canonical) :
    (State.timeout s n d detail f).Canonical := by
  unfold State.timeout
  simp +contextual (maxDischargeDepth := 20) [*]
@[simp] theorem State.opStep_canonical (s : State) (n : Nat) (p : Node → Bool) (f : State → Node → State) (hs : s.Canonical) (h3 : ∀ (x0 : State) (x1 : Node), x0.Canonical → (f x0 x1).Canonical) :
    (State.opStep s n p f).Canonical := by
  unfold State.opStep
  (repeat' split) <;> simp +contextual (maxDischargeDepth := 20) [*]
@[simp] theorem State.readTable_canonical (s : State) (n : Nat) (d : Node) (hs : s.Canonical) :
    (State.readTable s n d).Canonical := by
  unfold State.readTable
  simp +contextual (maxDischargeDepth := 20) [*]
theorem execFanout_canonical (n : Nat) (s : State) (hs : s.Canonical) (t0 : State) (h0 : execFanout n s = .next t0) : t0.Canonical := by
  obtain ⟨_, rfl⟩ := ok_next h0
  clear h0
  simp +contextual (maxDischargeDepth := 20) [*]
theorem execMasked_canonical (n : Nat) (s : State) (hs : s.Canonical) (t0 : State) (h0 : execMasked n s = .next t0) : t0.Canonical := by
  obtain ⟨_, rfl⟩ := ok_next h0
  clear h0
  simp +contextual (maxDischargeDepth := 20) [*]
@[simp] theorem State.tableEcc_canonical (s : State) (n : Nat) (d : Node) (line : Nat) (hs : s.Canonical) :
    (State.tableEcc s n d line).Canonical := by
  unfold State.tableEcc
  simp +contextual (maxDischargeDepth := 20) [*]
@[simp] theorem State.tableArrives_canonical (s : State) (n : Nat) (d : Node) (r : ReadResult) (hs : s.Canonical) :
    (State.tableArrives s n d r).Canonical := by
  unfold State.tableArrives
  try dsimp only
  (repeat' split) <;> simp +contextual (maxDischargeDepth := 20) [*]
theorem execTableReadComplete_canonical (n : Nat) (a : FabricReply) (s : State) (hs : s.Canonical) (t0 : State) (h0 : execTableReadComplete n a s = .next t0) : t0.Canonical := by
  obtain ⟨_, rfl⟩ := ok_next h0
  clear h0
  try dsimp only
  repeat' first | (with_reducible assumption) | split | (with_reducible apply State.when_canonical <;> intros) | (with_reducible apply State.sbAnswer_canonical <;> intros) | (with_reducible apply State.deliver_canonical <;> intros) | (with_reducible apply State.granted_canonical <;> intros) | (with_reducible apply State.dataArrives_canonical <;> intros) | (with_reducible apply State.withLines_canonical <;> intros) | (with_reducible apply State.withReads_canonical <;> intros) | (with_reducible apply State.whenHeld_canonical <;> intros) | (with_reducible apply State.lookup_canonical <;> intros) | (with_reducible apply State.hostRead_canonical <;> intros) | (with_reducible apply State.hostWrite_canonical <;> intros) | (with_reducible apply State.delivery_canonical <;> intros) | (with_reducible apply State.pageRead_canonical <;> intros) | (with_reducible apply State.pageWrite_canonical <;> intros) | (with_reducible apply State.stewardLines_canonical <;> intros) | (with_reducible apply State.choiceLines_canonical <;> intros) | (with_reducible apply State.preloadRead_canonical <;> intros) | (with_reducible apply State.opStep_canonical <;> intros) | (with_reducible apply State.receive_canonical <;> intros) | (with_reducible apply State.onObject_canonical <;> intros) | (with_reducible apply State.endOwner_canonical <;> intros) | (with_reducible apply State.chipWide_canonical <;> intros) | (with_reducible apply State.kernelStep_canonical <;> intros) | (with_reducible apply State.coreInstr_canonical <;> intros) | (with_reducible apply State.endArrival_canonical <;> intros) | (with_reducible apply State.notice_canonical <;> intros) | (with_reducible apply State.fenceNotice_canonical <;> intros) | (with_reducible apply State.handleStep_canonical <;> intros) | (with_reducible apply State.sysStep_canonical <;> intros) | (with_reducible apply State.forAll_canonical <;> intros) | (with_reducible apply foldl_canonical <;> intros)
  all_goals simp +contextual (maxDischargeDepth := 20) [*]
@[simp] theorem State.createMember_canonical (s : State) (n : Nat) (d : Node) (id : Nat) (a0 a1 : Word) (rest : List (Nat × Word × Word)) (hs : s.Canonical) :
    (State.createMember s n d id a0 a1 rest).Canonical := by
  unfold State.createMember
  try dsimp only
  (repeat' split) <;> simp +contextual (maxDischargeDepth := 20) [*]
theorem execMemberCreate_canonical (n : Nat) (s : State) (hs : s.Canonical) (t0 : State) (h0 : execMemberCreate n s = .next t0) : t0.Canonical := by
  obtain ⟨_, rfl⟩ := ok_next h0
  clear h0
  try dsimp only
  repeat' first | (with_reducible assumption) | split | (with_reducible apply State.when_canonical <;> intros) | (with_reducible apply State.sbAnswer_canonical <;> intros) | (with_reducible apply State.deliver_canonical <;> intros) | (with_reducible apply State.granted_canonical <;> intros) | (with_reducible apply State.dataArrives_canonical <;> intros) | (with_reducible apply State.withLines_canonical <;> intros) | (with_reducible apply State.withReads_canonical <;> intros) | (with_reducible apply State.whenHeld_canonical <;> intros) | (with_reducible apply State.lookup_canonical <;> intros) | (with_reducible apply State.hostRead_canonical <;> intros) | (with_reducible apply State.hostWrite_canonical <;> intros) | (with_reducible apply State.delivery_canonical <;> intros) | (with_reducible apply State.pageRead_canonical <;> intros) | (with_reducible apply State.pageWrite_canonical <;> intros) | (with_reducible apply State.stewardLines_canonical <;> intros) | (with_reducible apply State.choiceLines_canonical <;> intros) | (with_reducible apply State.preloadRead_canonical <;> intros) | (with_reducible apply State.opStep_canonical <;> intros) | (with_reducible apply State.receive_canonical <;> intros) | (with_reducible apply State.onObject_canonical <;> intros) | (with_reducible apply State.endOwner_canonical <;> intros) | (with_reducible apply State.chipWide_canonical <;> intros) | (with_reducible apply State.kernelStep_canonical <;> intros) | (with_reducible apply State.coreInstr_canonical <;> intros) | (with_reducible apply State.endArrival_canonical <;> intros) | (with_reducible apply State.notice_canonical <;> intros) | (with_reducible apply State.fenceNotice_canonical <;> intros) | (with_reducible apply State.handleStep_canonical <;> intros) | (with_reducible apply State.sysStep_canonical <;> intros) | (with_reducible apply State.forAll_canonical <;> intros) | (with_reducible apply foldl_canonical <;> intros)
  all_goals simp +contextual (maxDischargeDepth := 20) [*]
theorem execNop_canonical (n : Nat) (s : State) (hs : s.Canonical) (t0 : State) (h0 : execNop n s = .next t0) : t0.Canonical := by
  obtain ⟨_, rfl⟩ := ok_next h0
  clear h0
  simp +contextual (maxDischargeDepth := 20) [*]
theorem execStart_canonical (n : Nat) (s : State) (hs : s.Canonical) (t0 : State) (h0 : execStart n s = .next t0) : t0.Canonical := by
  obtain ⟨_, rfl⟩ := ok_next h0
  clear h0
  simp +contextual (maxDischargeDepth := 20) [*]
theorem execCfgstart_canonical (n : Nat) (s : State) (hs : s.Canonical) (t0 : State) (h0 : execCfgstart n s = .next t0) : t0.Canonical := by
  obtain ⟨_, rfl⟩ := ok_next h0
  clear h0
  simp +contextual (maxDischargeDepth := 20) [*]
theorem execCombine_canonical (n : Nat) (s : State) (hs : s.Canonical) (t0 : State) (h0 : execCombine n s = .next t0) : t0.Canonical := by
  obtain ⟨_, rfl⟩ := ok_next h0
  clear h0
  simp +contextual (maxDischargeDepth := 20) [*]
theorem execMeasure_canonical (n : Nat) (s : State) (hs : s.Canonical) (t0 : State) (h0 : execMeasure n s = .next t0) : t0.Canonical := by
  obtain ⟨_, rfl⟩ := ok_next h0
  clear h0
  simp +contextual (maxDischargeDepth := 20) [*]
@[simp] theorem State.branchObject_canonical (s : State) (n : Nat) (d : Node) (hs : s.Canonical) :
    (State.branchObject s n d).Canonical := by
  unfold State.branchObject
  try dsimp only
  (repeat' split) <;> simp +contextual (maxDischargeDepth := 20) [*]
theorem execBranchObject_canonical (n : Nat) (s : State) (hs : s.Canonical) (t0 : State) (h0 : execBranchObject n s = .next t0) : t0.Canonical := by
  obtain ⟨_, rfl⟩ := ok_next h0
  clear h0
  simp +contextual (maxDischargeDepth := 20) [*]
theorem execBranchDeadline_canonical (n : Nat) (s : State) (hs : s.Canonical) (t0 : State) (h0 : execBranchDeadline n s = .next t0) : t0.Canonical := by
  obtain ⟨_, rfl⟩ := ok_next h0
  clear h0
  simp +contextual (maxDischargeDepth := 20) [*]
@[simp] theorem State.takeFallback_canonical (s : State) (n : Nat) (d : Node) (excess : Nat) (hs : s.Canonical) :
    (State.takeFallback s n d excess).Canonical := by
  unfold State.takeFallback
  simp +contextual (maxDischargeDepth := 20) [*]
@[simp] theorem State.evaluate_canonical (s : State) (n : Nat) (d : Node) (hs : s.Canonical) :
    (State.evaluate s n d).Canonical := by
  unfold State.evaluate
  try dsimp only
  (repeat' split) <;> simp +contextual (maxDischargeDepth := 20) [*]
theorem execDeadlineEvaluation_canonical (n : Nat) (s : State) (hs : s.Canonical) (t0 : State) (h0 : execDeadlineEvaluation n s = .next t0) : t0.Canonical := by
  obtain ⟨_, rfl⟩ := ok_next h0
  clear h0
  try dsimp only
  repeat' first | (with_reducible assumption) | split | (with_reducible apply State.when_canonical <;> intros) | (with_reducible apply State.sbAnswer_canonical <;> intros) | (with_reducible apply State.deliver_canonical <;> intros) | (with_reducible apply State.granted_canonical <;> intros) | (with_reducible apply State.dataArrives_canonical <;> intros) | (with_reducible apply State.withLines_canonical <;> intros) | (with_reducible apply State.withReads_canonical <;> intros) | (with_reducible apply State.whenHeld_canonical <;> intros) | (with_reducible apply State.lookup_canonical <;> intros) | (with_reducible apply State.hostRead_canonical <;> intros) | (with_reducible apply State.hostWrite_canonical <;> intros) | (with_reducible apply State.delivery_canonical <;> intros) | (with_reducible apply State.pageRead_canonical <;> intros) | (with_reducible apply State.pageWrite_canonical <;> intros) | (with_reducible apply State.stewardLines_canonical <;> intros) | (with_reducible apply State.choiceLines_canonical <;> intros) | (with_reducible apply State.preloadRead_canonical <;> intros) | (with_reducible apply State.opStep_canonical <;> intros) | (with_reducible apply State.receive_canonical <;> intros) | (with_reducible apply State.onObject_canonical <;> intros) | (with_reducible apply State.endOwner_canonical <;> intros) | (with_reducible apply State.chipWide_canonical <;> intros) | (with_reducible apply State.kernelStep_canonical <;> intros) | (with_reducible apply State.coreInstr_canonical <;> intros) | (with_reducible apply State.endArrival_canonical <;> intros) | (with_reducible apply State.notice_canonical <;> intros) | (with_reducible apply State.fenceNotice_canonical <;> intros) | (with_reducible apply State.handleStep_canonical <;> intros) | (with_reducible apply State.sysStep_canonical <;> intros) | (with_reducible apply State.forAll_canonical <;> intros) | (with_reducible apply foldl_canonical <;> intros)
  all_goals simp +contextual (maxDischargeDepth := 20) [*]
@[simp] theorem State.fenceOrigin_canonical (s : State) (q : Nat) (hs : s.Canonical) :
    (State.fenceOrigin s q).Canonical := by
  unfold State.fenceOrigin
  simp +contextual (maxDischargeDepth := 20) [*]
theorem execFenceQueue_canonical (n : Nat) (s : State) (hs : s.Canonical) (t0 : State) (h0 : execFenceQueue n s = .next t0) : t0.Canonical := by
  obtain ⟨_, rfl⟩ := ok_next h0
  clear h0
  simp +contextual (maxDischargeDepth := 20) [*]
@[simp] theorem State.sendHive_canonical (s : State) (p : Nat) (m : HiveFrame) (hs : s.Canonical) :
    (State.sendHive s p m).Canonical := by
  unfold State.sendHive
  (repeat' split) <;> simp +contextual (maxDischargeDepth := 20) [*]
@[simp] theorem State.takeMsgid_canonical (s : State) (hs : s.Canonical) :
    (State.takeMsgid s).Canonical := by
  unfold State.takeMsgid
  simp +contextual (maxDischargeDepth := 20) [*]
@[simp] theorem State.reply_canonical (s : State) (p typ : Nat) (dest : BitVec 14) (result : Nat) (msgid : BitVec 32) (obj : Nat) (w2 : Word) (hs : s.Canonical) :
    (State.reply s p typ dest result msgid obj w2).Canonical := by
  unfold State.reply
  simp +contextual (maxDischargeDepth := 20) [*]
@[simp] theorem State.sendTierarrive_canonical (s : State) (n round : Nat) (hs : s.Canonical) :
    (State.sendTierarrive s n round).Canonical := by
  unfold State.sendTierarrive
  (repeat' split) <;> simp +contextual (maxDischargeDepth := 20) [*]
@[simp] theorem State.sendTierrelease_canonical (s : State) (n round : Nat) (hs : s.Canonical) :
    (State.sendTierrelease s n round).Canonical := by
  unfold State.sendTierrelease
  try dsimp only
  (repeat' split) <;> simp +contextual (maxDischargeDepth := 20) [*]
@[simp] theorem State.dropWaiters_canonical (s : State) (p : Waiter → Bool) (hs : s.Canonical) :
    (State.dropWaiters s p).Canonical := by
  unfold State.dropWaiters
  simp +contextual (maxDischargeDepth := 20) [*]
@[simp] theorem State.finishRun_canonical (s : State) (k fr rd : Nat) (v : Word) (hs : s.Canonical) :
    (State.finishRun s k fr rd v).Canonical := by
  unfold State.finishRun
  (repeat' split) <;> simp +contextual (maxDischargeDepth := 20) [*]
@[simp] theorem State.wakeSheaf_canonical (s : State) (n : Nat) (hs : s.Canonical) :
    (State.wakeSheaf s n).Canonical := by
  unfold State.wakeSheaf
  (repeat' split) <;> simp +contextual (maxDischargeDepth := 20) [*]
@[simp] theorem State.releaseWaiter_canonical (s : State) (n : Nat) (w : Waiter) (hs : s.Canonical) :
    (State.releaseWaiter s n w).Canonical := by
  unfold State.releaseWaiter
  (repeat' split) <;> simp +contextual (maxDischargeDepth := 20) [*]
@[simp] theorem State.wakeWaiters_canonical (s : State) (n : Nat) (hs : s.Canonical) :
    (State.wakeWaiters s n).Canonical := by
  unfold State.wakeWaiters
  simp +contextual (maxDischargeDepth := 20) [*]
@[simp] theorem State.addWaiter_canonical (s : State) (n : Nat) (w : Waiter) (hs : s.Canonical) :
    (State.addWaiter s n w).Canonical := by
  unfold State.addWaiter
  simp +contextual (maxDischargeDepth := 20) [*]
@[simp] theorem State.countArrival_canonical (s : State) (n : Nat) (o : Obj) (g : Signer) (completes report : Bool) (hs : s.Canonical) :
    (State.countArrival s n o g completes report).Canonical := by
  unfold State.countArrival
  (repeat' split) <;> simp +contextual (maxDischargeDepth := 20) [*]
@[simp] theorem State.localOp_canonical (s : State) (a : Actor) (op : HiveOp) (n round : Nat) (operand : Word) (hs : s.Canonical) :
    ((State.localOp s a op n round operand).1).Canonical := by
  unfold State.localOp
  try dsimp only
  (repeat' split) <;> simp +contextual (maxDischargeDepth := 20) [*]
@[simp] theorem State.sendOp_canonical (s : State) (a : Actor) (chip : BitVec 14) (n typ op : Nat) (w1 : Word) (wait : Bool) (hs : s.Canonical) :
    (State.sendOp s a chip n typ op w1 wait).Canonical := by
  unfold State.sendOp
  simp +contextual (maxDischargeDepth := 20) [*]
@[simp] theorem State.remoteOp_canonical (s : State) (a : Actor) (op : HiveOp) (chip : BitVec 14) (n round : Nat) (operand : Word) (hs : s.Canonical) :
    ((State.remoteOp s a op chip n round operand).1).Canonical := by
  unfold State.remoteOp
  (repeat' split) <;> simp +contextual (maxDischargeDepth := 20) [*]
@[simp] theorem State.hiveOp_canonical (s : State) (a : Actor) (op : HiveOp) (ref round : Nat) (operand : Word) (hs : s.Canonical) :
    ((State.hiveOp s a op ref round operand).1).Canonical := by
  unfold State.hiveOp
  (repeat' split) <;> simp +contextual (maxDischargeDepth := 20) [*]
@[simp] theorem State.misuseEnd_canonical (s : State) (n : Nat) (d : Node) (source obj reason : Nat) (hs : s.Canonical) :
    (State.misuseEnd s n d source obj reason).Canonical := by
  unfold State.misuseEnd
  simp +contextual (maxDischargeDepth := 20) [*]
@[simp] theorem State.peerLostEnd_canonical (s : State) (n : Nat) (d : Node) (source : Nat) (detail : BitVec 32) (hs : s.Canonical) :
    (State.peerLostEnd s n d source detail).Canonical := by
  unfold State.peerLostEnd
  simp +contextual (maxDischargeDepth := 20) [*]
@[simp] theorem State.hiveDone_canonical (s : State) (n : Nat) (d : Node) (op : HiveOp) (operand : Word) (hs : s.Canonical) :
    (State.hiveDone s n d op operand).Canonical := by
  unfold State.hiveDone
  try dsimp only
  (repeat' split) <;> simp +contextual (maxDischargeDepth := 20) [*]
@[simp] theorem State.hiveSheaf_canonical (s : State) (c : Instr) (n : Nat) (d : Node) (op : HiveOp) (operand : Word) (hs : s.Canonical) :
    (State.hiveSheaf s c n d op operand).Canonical := by
  unfold State.hiveSheaf
  try dsimp only
  (repeat' split) <;> simp +contextual (maxDischargeDepth := 20) [*]
theorem execWait_canonical (n : Nat) (s : State) (hs : s.Canonical) (t0 : State) (h0 : execWait n s = .next t0) : t0.Canonical := by
  obtain ⟨_, rfl⟩ := ok_next h0
  clear h0
  simp +contextual (maxDischargeDepth := 20) [*]
theorem execSignalAdd_canonical (n : Nat) (s : State) (hs : s.Canonical) (t0 : State) (h0 : execSignalAdd n s = .next t0) : t0.Canonical := by
  obtain ⟨_, rfl⟩ := ok_next h0
  clear h0
  simp +contextual (maxDischargeDepth := 20) [*]
theorem execSignalSet_canonical (n : Nat) (s : State) (hs : s.Canonical) (t0 : State) (h0 : execSignalSet n s = .next t0) : t0.Canonical := by
  obtain ⟨_, rfl⟩ := ok_next h0
  clear h0
  simp +contextual (maxDischargeDepth := 20) [*]
theorem execSignalOr_canonical (n : Nat) (s : State) (hs : s.Canonical) (t0 : State) (h0 : execSignalOr n s = .next t0) : t0.Canonical := by
  obtain ⟨_, rfl⟩ := ok_next h0
  clear h0
  simp +contextual (maxDischargeDepth := 20) [*]
theorem execStileArrive_canonical (n : Nat) (s : State) (hs : s.Canonical) (t0 : State) (h0 : execStileArrive n s = .next t0) : t0.Canonical := by
  obtain ⟨_, rfl⟩ := ok_next h0
  clear h0
  simp +contextual (maxDischargeDepth := 20) [*]
theorem execStileArriveNowait_canonical (n : Nat) (s : State) (hs : s.Canonical) (t0 : State) (h0 : execStileArriveNowait n s = .next t0) : t0.Canonical := by
  obtain ⟨_, rfl⟩ := ok_next h0
  clear h0
  simp +contextual (maxDischargeDepth := 20) [*]
theorem execStileInit_canonical (n : Nat) (s : State) (hs : s.Canonical) (t0 : State) (h0 : execStileInit n s = .next t0) : t0.Canonical := by
  obtain ⟨_, rfl⟩ := ok_next h0
  clear h0
  simp +contextual (maxDischargeDepth := 20) [*]
theorem execStileReset_canonical (n : Nat) (s : State) (hs : s.Canonical) (t0 : State) (h0 : execStileReset n s = .next t0) : t0.Canonical := by
  obtain ⟨_, rfl⟩ := ok_next h0
  clear h0
  simp +contextual (maxDischargeDepth := 20) [*]
@[simp] theorem State.cancelWaits_canonical (s : State) (p : Owner → Bool) (hs : s.Canonical) :
    (State.cancelWaits s p).Canonical := by
  unfold State.cancelWaits
  simp +contextual (maxDischargeDepth := 20) [*]
@[simp] theorem State.flushLine_canonical (s : State) (k i : Nat) (hs : s.Canonical) :
    (State.flushLine s k i).Canonical := by
  unfold State.flushLine
  (repeat' split) <;> simp +contextual (maxDischargeDepth := 20) [*]
@[simp] theorem State.endPort_canonical (s : State) (k i : Nat) (hs : s.Canonical) :
    (State.endPort s k i).Canonical := by
  unfold State.endPort
  (repeat' split) <;> simp +contextual (maxDischargeDepth := 20) [*]
@[simp] theorem State.endRun_canonical (s : State) (k fr : Nat) (hs : s.Canonical) :
    (State.endRun s k fr).Canonical := by
  unfold State.endRun
  try dsimp only
  (repeat' split) <;> simp +contextual (maxDischargeDepth := 20) [*]
@[simp] theorem State.stopCall_canonical (s : State) (n : Nat) (d : Node) (hs : s.Canonical) :
    (State.stopCall s n d).Canonical := by
  unfold State.stopCall
  try dsimp only
  (repeat' split) <;> simp +contextual (maxDischargeDepth := 20) [*]
@[simp] theorem State.freePorts_canonical (s : State) (n : Nat) (d : Node) (hs : s.Canonical) :
    (State.freePorts s n d).Canonical := by
  unfold State.freePorts
  simp +contextual (maxDischargeDepth := 20) [*]
@[simp] theorem State.stopOwner_canonical (s : State) (o : Owner) (hs : s.Canonical) :
    (State.stopOwner s o).Canonical := by
  unfold State.stopOwner
  (repeat' split) <;> simp +contextual (maxDischargeDepth := 20) [*]
@[simp] theorem State.hiveDrop_canonical (s : State) (source : Nat) (hs : s.Canonical) :
    (State.hiveDrop s source).Canonical := by
  unfold State.hiveDrop
  simp +contextual (maxDischargeDepth := 20) [*]
@[simp] theorem State.countStale_canonical (s : State) (hs : s.Canonical) :
    (State.countStale s).Canonical := by
  unfold State.countStale
  simp +contextual (maxDischargeDepth := 20) [*]
@[simp] theorem State.receive_canonical (s : State) (c : Instr) (m : HiveFrame) (typ : Nat) (f : State → State) (hs : s.Canonical) (h4 : ∀ (x0 : State), x0.Canonical → (f x0).Canonical) :
    (State.receive s c m typ f).Canonical := by
  unfold State.receive
  try dsimp only
  repeat' first | (with_reducible assumption) | split | (with_reducible apply State.when_canonical <;> intros) | (with_reducible apply State.sbAnswer_canonical <;> intros) | (with_reducible apply State.deliver_canonical <;> intros) | (with_reducible apply State.granted_canonical <;> intros) | (with_reducible apply State.dataArrives_canonical <;> intros) | (with_reducible apply State.withLines_canonical <;> intros) | (with_reducible apply State.withReads_canonical <;> intros) | (with_reducible apply State.whenHeld_canonical <;> intros) | (with_reducible apply State.lookup_canonical <;> intros) | (with_reducible apply State.hostRead_canonical <;> intros) | (with_reducible apply State.hostWrite_canonical <;> intros) | (with_reducible apply State.delivery_canonical <;> intros) | (with_reducible apply State.pageRead_canonical <;> intros) | (with_reducible apply State.pageWrite_canonical <;> intros) | (with_reducible apply State.stewardLines_canonical <;> intros) | (with_reducible apply State.choiceLines_canonical <;> intros) | (with_reducible apply State.preloadRead_canonical <;> intros) | (with_reducible apply State.opStep_canonical <;> intros) | (with_reducible apply State.receive_canonical <;> intros) | (with_reducible apply State.onObject_canonical <;> intros) | (with_reducible apply State.endOwner_canonical <;> intros) | (with_reducible apply State.chipWide_canonical <;> intros) | (with_reducible apply State.kernelStep_canonical <;> intros) | (with_reducible apply State.coreInstr_canonical <;> intros) | (with_reducible apply State.endArrival_canonical <;> intros) | (with_reducible apply State.notice_canonical <;> intros) | (with_reducible apply State.fenceNotice_canonical <;> intros) | (with_reducible apply State.handleStep_canonical <;> intros) | (with_reducible apply State.sysStep_canonical <;> intros) | (with_reducible apply State.forAll_canonical <;> intros) | (with_reducible apply foldl_canonical <;> intros)
  all_goals simp +contextual (maxDischargeDepth := 20) [*]
@[simp] theorem State.answerMsg_canonical (s : State) (m : HiveFrame) (typ result : Nat) (hs : s.Canonical) :
    (State.answerMsg s m typ result).Canonical := by
  unfold State.answerMsg
  simp +contextual (maxDischargeDepth := 20) [*]
@[simp] theorem State.onObject_canonical (s : State) (c : Instr) (m : HiveFrame) (ops : Nat) (f : State → State) (hs : s.Canonical) (h4 : ∀ (x0 : State), x0.Canonical → (f x0).Canonical) :
    (State.onObject s c m ops f).Canonical := by
  unfold State.onObject
  simp +contextual (maxDischargeDepth := 20) [*]
@[simp] theorem State.signalArrives_canonical (s : State) (m : HiveFrame) (hs : s.Canonical) :
    (State.signalArrives s m).Canonical := by
  unfold State.signalArrives
  try dsimp only
  (repeat' split) <;> simp +contextual (maxDischargeDepth := 20) [*]
theorem execSignalMessage_canonical (m : HiveFrame) (s : State) (hs : s.Canonical) (t0 : State) (h0 : execSignalMessage m s = .next t0) : t0.Canonical := by
  obtain ⟨_, rfl⟩ := ok_next h0
  clear h0
  simp +contextual (maxDischargeDepth := 20) [*]
@[simp] theorem State.waitregArrives_canonical (s : State) (m : HiveFrame) (hs : s.Canonical) :
    (State.waitregArrives s m).Canonical := by
  unfold State.waitregArrives
  try dsimp only
  (repeat' split) <;> simp +contextual (maxDischargeDepth := 20) [*]
theorem execWaitreg_canonical (m : HiveFrame) (s : State) (hs : s.Canonical) (t0 : State) (h0 : execWaitreg m s = .next t0) : t0.Canonical := by
  obtain ⟨_, rfl⟩ := ok_next h0
  clear h0
  simp +contextual (maxDischargeDepth := 20) [*]
theorem execCancel_canonical (m : HiveFrame) (s : State) (hs : s.Canonical) (t0 : State) (h0 : execCancel m s = .next t0) : t0.Canonical := by
  obtain ⟨_, rfl⟩ := ok_next h0
  clear h0
  simp +contextual (maxDischargeDepth := 20) [*]
@[simp] theorem State.endOwner_canonical (s : State) (o : Owner) (f : State → Nat → Node → State) (hs : s.Canonical) (h2 : ∀ (x0 : State) (x1 : Nat) (x2 : Node), x0.Canonical → (f x0 x1 x2).Canonical) :
    (State.endOwner s o f).Canonical := by
  unfold State.endOwner
  (repeat' split) <;> simp +contextual (maxDischargeDepth := 20) [*]
@[simp] theorem State.ownerBlocked_canonical (s : State) (o : Owner) (obj : Nat) (hs : s.Canonical) :
    (State.ownerBlocked s o obj).Canonical := by
  unfold State.ownerBlocked
  (repeat' split) <;> simp +contextual (maxDischargeDepth := 20) [*]
@[simp] theorem State.opAnswered_canonical (s : State) (r : RemoteOp) (result : Nat) (hs : s.Canonical) :
    (State.opAnswered s r result).Canonical := by
  unfold State.opAnswered
  try dsimp only
  (repeat' split) <;> simp +contextual (maxDischargeDepth := 20) [*]
theorem execHiveAck_canonical (m : HiveFrame) (s : State) (hs : s.Canonical) (t0 : State) (h0 : execHiveAck m s = .next t0) : t0.Canonical := by
  obtain ⟨_, rfl⟩ := ok_next h0
  clear h0
  try dsimp only
  repeat' first | (with_reducible assumption) | split | (with_reducible apply State.when_canonical <;> intros) | (with_reducible apply State.sbAnswer_canonical <;> intros) | (with_reducible apply State.deliver_canonical <;> intros) | (with_reducible apply State.granted_canonical <;> intros) | (with_reducible apply State.dataArrives_canonical <;> intros) | (with_reducible apply State.withLines_canonical <;> intros) | (with_reducible apply State.withReads_canonical <;> intros) | (with_reducible apply State.whenHeld_canonical <;> intros) | (with_reducible apply State.lookup_canonical <;> intros) | (with_reducible apply State.hostRead_canonical <;> intros) | (with_reducible apply State.hostWrite_canonical <;> intros) | (with_reducible apply State.delivery_canonical <;> intros) | (with_reducible apply State.pageRead_canonical <;> intros) | (with_reducible apply State.pageWrite_canonical <;> intros) | (with_reducible apply State.stewardLines_canonical <;> intros) | (with_reducible apply State.choiceLines_canonical <;> intros) | (with_reducible apply State.preloadRead_canonical <;> intros) | (with_reducible apply State.opStep_canonical <;> intros) | (with_reducible apply State.receive_canonical <;> intros) | (with_reducible apply State.onObject_canonical <;> intros) | (with_reducible apply State.endOwner_canonical <;> intros) | (with_reducible apply State.chipWide_canonical <;> intros) | (with_reducible apply State.kernelStep_canonical <;> intros) | (with_reducible apply State.coreInstr_canonical <;> intros) | (with_reducible apply State.endArrival_canonical <;> intros) | (with_reducible apply State.notice_canonical <;> intros) | (with_reducible apply State.fenceNotice_canonical <;> intros) | (with_reducible apply State.handleStep_canonical <;> intros) | (with_reducible apply State.sysStep_canonical <;> intros) | (with_reducible apply State.forAll_canonical <;> intros) | (with_reducible apply foldl_canonical <;> intros)
  all_goals simp +contextual (maxDischargeDepth := 20) [*]
theorem execWake_canonical (m : HiveFrame) (s : State) (hs : s.Canonical) (t0 : State) (h0 : execWake m s = .next t0) : t0.Canonical := by
  obtain ⟨_, rfl⟩ := ok_next h0
  clear h0
  try dsimp only
  repeat' first | (with_reducible assumption) | split | (with_reducible apply State.when_canonical <;> intros) | (with_reducible apply State.sbAnswer_canonical <;> intros) | (with_reducible apply State.deliver_canonical <;> intros) | (with_reducible apply State.granted_canonical <;> intros) | (with_reducible apply State.dataArrives_canonical <;> intros) | (with_reducible apply State.withLines_canonical <;> intros) | (with_reducible apply State.withReads_canonical <;> intros) | (with_reducible apply State.whenHeld_canonical <;> intros) | (with_reducible apply State.lookup_canonical <;> intros) | (with_reducible apply State.hostRead_canonical <;> intros) | (with_reducible apply State.hostWrite_canonical <;> intros) | (with_reducible apply State.delivery_canonical <;> intros) | (with_reducible apply State.pageRead_canonical <;> intros) | (with_reducible apply State.pageWrite_canonical <;> intros) | (with_reducible apply State.stewardLines_canonical <;> intros) | (with_reducible apply State.choiceLines_canonical <;> intros) | (with_reducible apply State.preloadRead_canonical <;> intros) | (with_reducible apply State.opStep_canonical <;> intros) | (with_reducible apply State.receive_canonical <;> intros) | (with_reducible apply State.onObject_canonical <;> intros) | (with_reducible apply State.endOwner_canonical <;> intros) | (with_reducible apply State.chipWide_canonical <;> intros) | (with_reducible apply State.kernelStep_canonical <;> intros) | (with_reducible apply State.coreInstr_canonical <;> intros) | (with_reducible apply State.endArrival_canonical <;> intros) | (with_reducible apply State.notice_canonical <;> intros) | (with_reducible apply State.fenceNotice_canonical <;> intros) | (with_reducible apply State.handleStep_canonical <;> intros) | (with_reducible apply State.sysStep_canonical <;> intros) | (with_reducible apply State.forAll_canonical <;> intros) | (with_reducible apply foldl_canonical <;> intros)
  all_goals simp +contextual (maxDischargeDepth := 20) [*]
theorem execWaitregRetry_canonical (msgid : BitVec 32) (s : State) (hs : s.Canonical) (t0 : State) (h0 : execWaitregRetry msgid s = .next t0) : t0.Canonical := by
  obtain ⟨_, rfl⟩ := ok_next h0
  clear h0
  try dsimp only
  repeat' first | (with_reducible assumption) | split | (with_reducible apply State.when_canonical <;> intros) | (with_reducible apply State.sbAnswer_canonical <;> intros) | (with_reducible apply State.deliver_canonical <;> intros) | (with_reducible apply State.granted_canonical <;> intros) | (with_reducible apply State.dataArrives_canonical <;> intros) | (with_reducible apply State.withLines_canonical <;> intros) | (with_reducible apply State.withReads_canonical <;> intros) | (with_reducible apply State.whenHeld_canonical <;> intros) | (with_reducible apply State.lookup_canonical <;> intros) | (with_reducible apply State.hostRead_canonical <;> intros) | (with_reducible apply State.hostWrite_canonical <;> intros) | (with_reducible apply State.delivery_canonical <;> intros) | (with_reducible apply State.pageRead_canonical <;> intros) | (with_reducible apply State.pageWrite_canonical <;> intros) | (with_reducible apply State.stewardLines_canonical <;> intros) | (with_reducible apply State.choiceLines_canonical <;> intros) | (with_reducible apply State.preloadRead_canonical <;> intros) | (with_reducible apply State.opStep_canonical <;> intros) | (with_reducible apply State.receive_canonical <;> intros) | (with_reducible apply State.onObject_canonical <;> intros) | (with_reducible apply State.endOwner_canonical <;> intros) | (with_reducible apply State.chipWide_canonical <;> intros) | (with_reducible apply State.kernelStep_canonical <;> intros) | (with_reducible apply State.coreInstr_canonical <;> intros) | (with_reducible apply State.endArrival_canonical <;> intros) | (with_reducible apply State.notice_canonical <;> intros) | (with_reducible apply State.fenceNotice_canonical <;> intros) | (with_reducible apply State.handleStep_canonical <;> intros) | (with_reducible apply State.sysStep_canonical <;> intros) | (with_reducible apply State.forAll_canonical <;> intros) | (with_reducible apply foldl_canonical <;> intros)
  all_goals simp +contextual (maxDischargeDepth := 20) [*]
@[simp] theorem State.blockMsg_canonical (s : State) (n : Nat) (hs : s.Canonical) :
    (State.blockMsg s n).Canonical := by
  unfold State.blockMsg
  simp +contextual (maxDischargeDepth := 20) [*]
@[simp] theorem State.tierArrives_canonical (s : State) (m : HiveFrame) (hs : s.Canonical) :
    (State.tierArrives s m).Canonical := by
  unfold State.tierArrives
  try dsimp only
  (repeat' split) <;> simp +contextual (maxDischargeDepth := 20) [*]
theorem execTierarrive_canonical (m : HiveFrame) (s : State) (hs : s.Canonical) (t0 : State) (h0 : execTierarrive m s = .next t0) : t0.Canonical := by
  obtain ⟨_, rfl⟩ := ok_next h0
  clear h0
  simp +contextual (maxDischargeDepth := 20) [*]
@[simp] theorem State.tierReleased_canonical (s : State) (m : HiveFrame) (hs : s.Canonical) :
    (State.tierReleased s m).Canonical := by
  unfold State.tierReleased
  try dsimp only
  (repeat' split) <;> simp +contextual (maxDischargeDepth := 20) [*]
theorem execTierrelease_canonical (m : HiveFrame) (s : State) (hs : s.Canonical) (t0 : State) (h0 : execTierrelease m s = .next t0) : t0.Canonical := by
  obtain ⟨_, rfl⟩ := ok_next h0
  clear h0
  simp +contextual (maxDischargeDepth := 20) [*]
@[simp] theorem State.dropReport_canonical (s : State) (n : Nat) (w0 w2 : Word) (hs : s.Canonical) :
    (State.dropReport s n w0 w2).Canonical := by
  unfold State.dropReport
  simp +contextual (maxDischargeDepth := 20) [*]
@[simp] theorem State.misuseReport_canonical (s : State) (n : Nat) (w0 w2 : Word) (hs : s.Canonical) :
    (State.misuseReport s n w0 w2).Canonical := by
  unfold State.misuseReport
  simp +contextual (maxDischargeDepth := 20) [*]
@[simp] theorem State.signalReport_canonical (s : State) (w0 w1 w2 : Word) (hs : s.Canonical) :
    (State.signalReport s w0 w1 w2).Canonical := by
  unfold State.signalReport
  try dsimp only
  (repeat' split) <;> simp +contextual (maxDischargeDepth := 20) [*]
theorem execSignalReport_canonical (f : Nat) (w0 w1 w2 : Word) (s : State) (hs : s.Canonical) (t0 : State) (h0 : execSignalReport f w0 w1 w2 s = .next t0) : t0.Canonical := by
  obtain ⟨_, rfl⟩ := ok_next h0
  clear h0
  try dsimp only
  repeat' first | (with_reducible assumption) | split | (with_reducible apply State.when_canonical <;> intros) | (with_reducible apply State.sbAnswer_canonical <;> intros) | (with_reducible apply State.deliver_canonical <;> intros) | (with_reducible apply State.granted_canonical <;> intros) | (with_reducible apply State.dataArrives_canonical <;> intros) | (with_reducible apply State.withLines_canonical <;> intros) | (with_reducible apply State.withReads_canonical <;> intros) | (with_reducible apply State.whenHeld_canonical <;> intros) | (with_reducible apply State.lookup_canonical <;> intros) | (with_reducible apply State.hostRead_canonical <;> intros) | (with_reducible apply State.hostWrite_canonical <;> intros) | (with_reducible apply State.delivery_canonical <;> intros) | (with_reducible apply State.pageRead_canonical <;> intros) | (with_reducible apply State.pageWrite_canonical <;> intros) | (with_reducible apply State.stewardLines_canonical <;> intros) | (with_reducible apply State.choiceLines_canonical <;> intros) | (with_reducible apply State.preloadRead_canonical <;> intros) | (with_reducible apply State.opStep_canonical <;> intros) | (with_reducible apply State.receive_canonical <;> intros) | (with_reducible apply State.onObject_canonical <;> intros) | (with_reducible apply State.endOwner_canonical <;> intros) | (with_reducible apply State.chipWide_canonical <;> intros) | (with_reducible apply State.kernelStep_canonical <;> intros) | (with_reducible apply State.coreInstr_canonical <;> intros) | (with_reducible apply State.endArrival_canonical <;> intros) | (with_reducible apply State.notice_canonical <;> intros) | (with_reducible apply State.fenceNotice_canonical <;> intros) | (with_reducible apply State.handleStep_canonical <;> intros) | (with_reducible apply State.sysStep_canonical <;> intros) | (with_reducible apply State.forAll_canonical <;> intros) | (with_reducible apply foldl_canonical <;> intros)
  all_goals simp +contextual (maxDischargeDepth := 20) [*]
@[simp] theorem State.dropCommand_canonical (s : State) (n : Nat) (hs : s.Canonical) :
    (State.dropCommand s n).Canonical := by
  unfold State.dropCommand
  simp +contextual (maxDischargeDepth := 20) [*]
@[simp] theorem State.settleWithdrawn_canonical (s : State) (q : Nat) (seq : Word) (zero : Bool) (hs : s.Canonical) :
    (State.settleWithdrawn s q seq zero).Canonical := by
  unfold State.settleWithdrawn
  (repeat' split) <;> simp +contextual (maxDischargeDepth := 20) [*]
@[simp] theorem State.withdraw1_canonical (s : State) (n : Nat) (hs : s.Canonical) :
    (State.withdraw1 s n).Canonical := by
  unfold State.withdraw1
  (repeat' split) <;> simp +contextual (maxDischargeDepth := 20) [*]
@[simp] theorem State.withdrawQueue_canonical (s : State) (q : Nat) (detail : BitVec 32) (hs : s.Canonical) :
    (State.withdrawQueue s q detail).Canonical := by
  unfold State.withdrawQueue
  try dsimp only
  (repeat' split) <;> simp +contextual (maxDischargeDepth := 20) [*]
@[simp] theorem State.abortRuns_canonical (s : State) (p : Entry → Bool) (cause : AbortCause) (hs : s.Canonical) :
    (State.abortRuns s p cause).Canonical := by
  unfold State.abortRuns
  try dsimp only
  repeat' first | (with_reducible assumption) | split | (with_reducible apply State.when_canonical <;> intros) | (with_reducible apply State.sbAnswer_canonical <;> intros) | (with_reducible apply State.deliver_canonical <;> intros) | (with_reducible apply State.granted_canonical <;> intros) | (with_reducible apply State.dataArrives_canonical <;> intros) | (with_reducible apply State.withLines_canonical <;> intros) | (with_reducible apply State.withReads_canonical <;> intros) | (with_reducible apply State.whenHeld_canonical <;> intros) | (with_reducible apply State.lookup_canonical <;> intros) | (with_reducible apply State.hostRead_canonical <;> intros) | (with_reducible apply State.hostWrite_canonical <;> intros) | (with_reducible apply State.delivery_canonical <;> intros) | (with_reducible apply State.pageRead_canonical <;> intros) | (with_reducible apply State.pageWrite_canonical <;> intros) | (with_reducible apply State.stewardLines_canonical <;> intros) | (with_reducible apply State.choiceLines_canonical <;> intros) | (with_reducible apply State.preloadRead_canonical <;> intros) | (with_reducible apply State.opStep_canonical <;> intros) | (with_reducible apply State.receive_canonical <;> intros) | (with_reducible apply State.onObject_canonical <;> intros) | (with_reducible apply State.endOwner_canonical <;> intros) | (with_reducible apply State.chipWide_canonical <;> intros) | (with_reducible apply State.kernelStep_canonical <;> intros) | (with_reducible apply State.coreInstr_canonical <;> intros) | (with_reducible apply State.endArrival_canonical <;> intros) | (with_reducible apply State.notice_canonical <;> intros) | (with_reducible apply State.fenceNotice_canonical <;> intros) | (with_reducible apply State.handleStep_canonical <;> intros) | (with_reducible apply State.sysStep_canonical <;> intros) | (with_reducible apply State.forAll_canonical <;> intros) | (with_reducible apply foldl_canonical <;> intros)
  all_goals simp +contextual (maxDischargeDepth := 20) [*]
@[simp] theorem State.stopSheaves_canonical (s : State) (ns : List Nat) (hs : s.Canonical) :
    (State.stopSheaves s ns).Canonical := by
  unfold State.stopSheaves
  try dsimp only
  repeat' first | (with_reducible assumption) | split | (with_reducible apply State.when_canonical <;> intros) | (with_reducible apply State.sbAnswer_canonical <;> intros) | (with_reducible apply State.deliver_canonical <;> intros) | (with_reducible apply State.granted_canonical <;> intros) | (with_reducible apply State.dataArrives_canonical <;> intros) | (with_reducible apply State.withLines_canonical <;> intros) | (with_reducible apply State.withReads_canonical <;> intros) | (with_reducible apply State.whenHeld_canonical <;> intros) | (with_reducible apply State.lookup_canonical <;> intros) | (with_reducible apply State.hostRead_canonical <;> intros) | (with_reducible apply State.hostWrite_canonical <;> intros) | (with_reducible apply State.delivery_canonical <;> intros) | (with_reducible apply State.pageRead_canonical <;> intros) | (with_reducible apply State.pageWrite_canonical <;> intros) | (with_reducible apply State.stewardLines_canonical <;> intros) | (with_reducible apply State.choiceLines_canonical <;> intros) | (with_reducible apply State.preloadRead_canonical <;> intros) | (with_reducible apply State.opStep_canonical <;> intros) | (with_reducible apply State.receive_canonical <;> intros) | (with_reducible apply State.onObject_canonical <;> intros) | (with_reducible apply State.endOwner_canonical <;> intros) | (with_reducible apply State.chipWide_canonical <;> intros) | (with_reducible apply State.kernelStep_canonical <;> intros) | (with_reducible apply State.coreInstr_canonical <;> intros) | (with_reducible apply State.endArrival_canonical <;> intros) | (with_reducible apply State.notice_canonical <;> intros) | (with_reducible apply State.fenceNotice_canonical <;> intros) | (with_reducible apply State.handleStep_canonical <;> intros) | (with_reducible apply State.sysStep_canonical <;> intros) | (with_reducible apply State.forAll_canonical <;> intros) | (with_reducible apply foldl_canonical <;> intros)
  all_goals simp +contextual (maxDischargeDepth := 20) [*]
@[simp] theorem State.tearStop_canonical (s : State) (c : Nat) (hs : s.Canonical) :
    (State.tearStop s c).Canonical := by
  unfold State.tearStop
  simp +contextual (maxDischargeDepth := 20) [*]
@[simp] theorem State.refuseSetwin_canonical (s : State) (c : Nat) (hs : s.Canonical) :
    (State.refuseSetwin s c).Canonical := by
  unfold State.refuseSetwin
  try dsimp only
  (repeat' split) <;> simp +contextual (maxDischargeDepth := 20) [*]
@[simp] theorem State.tearRemove_canonical (s : State) (c : Nat) (hs : s.Canonical) :
    (State.tearRemove s c).Canonical := by
  unfold State.tearRemove
  simp +contextual (maxDischargeDepth := 20) [*]
@[simp] theorem State.retireDoomed_canonical (s : State) (p : Node → Bool) (hs : s.Canonical) :
    (State.retireDoomed s p).Canonical := by
  unfold State.retireDoomed
  try dsimp only
  repeat' first | (with_reducible assumption) | split | (with_reducible apply State.when_canonical <;> intros) | (with_reducible apply State.sbAnswer_canonical <;> intros) | (with_reducible apply State.deliver_canonical <;> intros) | (with_reducible apply State.granted_canonical <;> intros) | (with_reducible apply State.dataArrives_canonical <;> intros) | (with_reducible apply State.withLines_canonical <;> intros) | (with_reducible apply State.withReads_canonical <;> intros) | (with_reducible apply State.whenHeld_canonical <;> intros) | (with_reducible apply State.lookup_canonical <;> intros) | (with_reducible apply State.hostRead_canonical <;> intros) | (with_reducible apply State.hostWrite_canonical <;> intros) | (with_reducible apply State.delivery_canonical <;> intros) | (with_reducible apply State.pageRead_canonical <;> intros) | (with_reducible apply State.pageWrite_canonical <;> intros) | (with_reducible apply State.stewardLines_canonical <;> intros) | (with_reducible apply State.choiceLines_canonical <;> intros) | (with_reducible apply State.preloadRead_canonical <;> intros) | (with_reducible apply State.opStep_canonical <;> intros) | (with_reducible apply State.receive_canonical <;> intros) | (with_reducible apply State.onObject_canonical <;> intros) | (with_reducible apply State.endOwner_canonical <;> intros) | (with_reducible apply State.chipWide_canonical <;> intros) | (with_reducible apply State.kernelStep_canonical <;> intros) | (with_reducible apply State.coreInstr_canonical <;> intros) | (with_reducible apply State.endArrival_canonical <;> intros) | (with_reducible apply State.notice_canonical <;> intros) | (with_reducible apply State.fenceNotice_canonical <;> intros) | (with_reducible apply State.handleStep_canonical <;> intros) | (with_reducible apply State.sysStep_canonical <;> intros) | (with_reducible apply State.forAll_canonical <;> intros) | (with_reducible apply foldl_canonical <;> intros)
  all_goals simp +contextual (maxDischargeDepth := 20) [*]
@[simp] theorem State.tearDone_canonical (s : State) (c : Nat) (hs : s.Canonical) :
    (State.tearDone s c).Canonical := by
  unfold State.tearDone
  simp +contextual (maxDischargeDepth := 20) [*]
@[simp] theorem State.teardown_canonical (s : State) (c : Nat) (cause : BitVec 8) (hs : s.Canonical) :
    (State.teardown s c cause).Canonical := by
  unfold State.teardown
  try dsimp only
  (repeat' split) <;> simp +contextual (maxDischargeDepth := 20) [*]
theorem execTeardown_canonical (c : Nat) (s : State) (hs : s.Canonical) (t0 : State) (h0 : execTeardown c s = .next t0) : t0.Canonical := by
  obtain ⟨_, rfl⟩ := ok_next h0
  clear h0
  try dsimp only
  repeat' first | (with_reducible assumption) | split | (with_reducible apply State.when_canonical <;> intros) | (with_reducible apply State.sbAnswer_canonical <;> intros) | (with_reducible apply State.deliver_canonical <;> intros) | (with_reducible apply State.granted_canonical <;> intros) | (with_reducible apply State.dataArrives_canonical <;> intros) | (with_reducible apply State.withLines_canonical <;> intros) | (with_reducible apply State.withReads_canonical <;> intros) | (with_reducible apply State.whenHeld_canonical <;> intros) | (with_reducible apply State.lookup_canonical <;> intros) | (with_reducible apply State.hostRead_canonical <;> intros) | (with_reducible apply State.hostWrite_canonical <;> intros) | (with_reducible apply State.delivery_canonical <;> intros) | (with_reducible apply State.pageRead_canonical <;> intros) | (with_reducible apply State.pageWrite_canonical <;> intros) | (with_reducible apply State.stewardLines_canonical <;> intros) | (with_reducible apply State.choiceLines_canonical <;> intros) | (with_reducible apply State.preloadRead_canonical <;> intros) | (with_reducible apply State.opStep_canonical <;> intros) | (with_reducible apply State.receive_canonical <;> intros) | (with_reducible apply State.onObject_canonical <;> intros) | (with_reducible apply State.endOwner_canonical <;> intros) | (with_reducible apply State.chipWide_canonical <;> intros) | (with_reducible apply State.kernelStep_canonical <;> intros) | (with_reducible apply State.coreInstr_canonical <;> intros) | (with_reducible apply State.endArrival_canonical <;> intros) | (with_reducible apply State.notice_canonical <;> intros) | (with_reducible apply State.fenceNotice_canonical <;> intros) | (with_reducible apply State.handleStep_canonical <;> intros) | (with_reducible apply State.sysStep_canonical <;> intros) | (with_reducible apply State.forAll_canonical <;> intros) | (with_reducible apply foldl_canonical <;> intros)
  all_goals simp +contextual (maxDischargeDepth := 20) [*]
@[simp] theorem State.dropPageLatches_canonical (s : State) (q : Nat) (hs : s.Canonical) :
    (State.dropPageLatches s q).Canonical := by
  unfold State.dropPageLatches
  simp +contextual (maxDischargeDepth := 20) [*]
@[simp] theorem State.queueFree_canonical (s : State) (q : Nat) (hs : s.Canonical) :
    (State.queueFree s q).Canonical := by
  unfold State.queueFree
  simp +contextual (maxDischargeDepth := 20) [*]
@[simp] theorem State.destroyQueue_canonical (s : State) (q : Nat) (hs : s.Canonical) :
    (State.destroyQueue s q).Canonical := by
  unfold State.destroyQueue
  try dsimp only
  (repeat' split) <;> simp +contextual (maxDischargeDepth := 20) [*]
theorem execTeardownAck_canonical (scope : AckScope) (port : Nat) (s : State) (hs : s.Canonical) (t0 : State) (h0 : execTeardownAck scope port s = .next t0) : t0.Canonical := by
  obtain ⟨_, rfl⟩ := ok_next h0
  clear h0
  try dsimp only
  repeat' first | (with_reducible assumption) | split | (with_reducible apply State.when_canonical <;> intros) | (with_reducible apply State.sbAnswer_canonical <;> intros) | (with_reducible apply State.deliver_canonical <;> intros) | (with_reducible apply State.granted_canonical <;> intros) | (with_reducible apply State.dataArrives_canonical <;> intros) | (with_reducible apply State.withLines_canonical <;> intros) | (with_reducible apply State.withReads_canonical <;> intros) | (with_reducible apply State.whenHeld_canonical <;> intros) | (with_reducible apply State.lookup_canonical <;> intros) | (with_reducible apply State.hostRead_canonical <;> intros) | (with_reducible apply State.hostWrite_canonical <;> intros) | (with_reducible apply State.delivery_canonical <;> intros) | (with_reducible apply State.pageRead_canonical <;> intros) | (with_reducible apply State.pageWrite_canonical <;> intros) | (with_reducible apply State.stewardLines_canonical <;> intros) | (with_reducible apply State.choiceLines_canonical <;> intros) | (with_reducible apply State.preloadRead_canonical <;> intros) | (with_reducible apply State.opStep_canonical <;> intros) | (with_reducible apply State.receive_canonical <;> intros) | (with_reducible apply State.onObject_canonical <;> intros) | (with_reducible apply State.endOwner_canonical <;> intros) | (with_reducible apply State.chipWide_canonical <;> intros) | (with_reducible apply State.kernelStep_canonical <;> intros) | (with_reducible apply State.coreInstr_canonical <;> intros) | (with_reducible apply State.endArrival_canonical <;> intros) | (with_reducible apply State.notice_canonical <;> intros) | (with_reducible apply State.fenceNotice_canonical <;> intros) | (with_reducible apply State.handleStep_canonical <;> intros) | (with_reducible apply State.sysStep_canonical <;> intros) | (with_reducible apply State.forAll_canonical <;> intros) | (with_reducible apply foldl_canonical <;> intros)
  all_goals simp +contextual (maxDischargeDepth := 20) [*]
@[simp] theorem State.writeLanded_canonical (s : State) (c : Nat) (hs : s.Canonical) :
    (State.writeLanded s c).Canonical := by
  unfold State.writeLanded
  try dsimp only
  (repeat' split) <;> simp +contextual (maxDischargeDepth := 20) [*]
theorem execWriteAck_canonical (a : DrainAck) (s : State) (hs : s.Canonical) (t0 : State) (h0 : execWriteAck a s = .next t0) : t0.Canonical := by
  obtain ⟨_, rfl⟩ := ok_next h0
  clear h0
  try dsimp only
  repeat' first | (with_reducible assumption) | split | (with_reducible apply State.when_canonical <;> intros) | (with_reducible apply State.sbAnswer_canonical <;> intros) | (with_reducible apply State.deliver_canonical <;> intros) | (with_reducible apply State.granted_canonical <;> intros) | (with_reducible apply State.dataArrives_canonical <;> intros) | (with_reducible apply State.withLines_canonical <;> intros) | (with_reducible apply State.withReads_canonical <;> intros) | (with_reducible apply State.whenHeld_canonical <;> intros) | (with_reducible apply State.lookup_canonical <;> intros) | (with_reducible apply State.hostRead_canonical <;> intros) | (with_reducible apply State.hostWrite_canonical <;> intros) | (with_reducible apply State.delivery_canonical <;> intros) | (with_reducible apply State.pageRead_canonical <;> intros) | (with_reducible apply State.pageWrite_canonical <;> intros) | (with_reducible apply State.stewardLines_canonical <;> intros) | (with_reducible apply State.choiceLines_canonical <;> intros) | (with_reducible apply State.preloadRead_canonical <;> intros) | (with_reducible apply State.opStep_canonical <;> intros) | (with_reducible apply State.receive_canonical <;> intros) | (with_reducible apply State.onObject_canonical <;> intros) | (with_reducible apply State.endOwner_canonical <;> intros) | (with_reducible apply State.chipWide_canonical <;> intros) | (with_reducible apply State.kernelStep_canonical <;> intros) | (with_reducible apply State.coreInstr_canonical <;> intros) | (with_reducible apply State.endArrival_canonical <;> intros) | (with_reducible apply State.notice_canonical <;> intros) | (with_reducible apply State.fenceNotice_canonical <;> intros) | (with_reducible apply State.handleStep_canonical <;> intros) | (with_reducible apply State.sysStep_canonical <;> intros) | (with_reducible apply State.forAll_canonical <;> intros) | (with_reducible apply foldl_canonical <;> intros)
  all_goals simp +contextual (maxDischargeDepth := 20) [*]
theorem execQuarantine_canonical (c : Nat) (s : State) (hs : s.Canonical) (t0 : State) (h0 : execQuarantine c s = .next t0) : t0.Canonical := by
  obtain ⟨_, rfl⟩ := ok_next h0
  clear h0
  try dsimp only
  repeat' first | (with_reducible assumption) | split | (with_reducible apply State.when_canonical <;> intros) | (with_reducible apply State.sbAnswer_canonical <;> intros) | (with_reducible apply State.deliver_canonical <;> intros) | (with_reducible apply State.granted_canonical <;> intros) | (with_reducible apply State.dataArrives_canonical <;> intros) | (with_reducible apply State.withLines_canonical <;> intros) | (with_reducible apply State.withReads_canonical <;> intros) | (with_reducible apply State.whenHeld_canonical <;> intros) | (with_reducible apply State.lookup_canonical <;> intros) | (with_reducible apply State.hostRead_canonical <;> intros) | (with_reducible apply State.hostWrite_canonical <;> intros) | (with_reducible apply State.delivery_canonical <;> intros) | (with_reducible apply State.pageRead_canonical <;> intros) | (with_reducible apply State.pageWrite_canonical <;> intros) | (with_reducible apply State.stewardLines_canonical <;> intros) | (with_reducible apply State.choiceLines_canonical <;> intros) | (with_reducible apply State.preloadRead_canonical <;> intros) | (with_reducible apply State.opStep_canonical <;> intros) | (with_reducible apply State.receive_canonical <;> intros) | (with_reducible apply State.onObject_canonical <;> intros) | (with_reducible apply State.endOwner_canonical <;> intros) | (with_reducible apply State.chipWide_canonical <;> intros) | (with_reducible apply State.kernelStep_canonical <;> intros) | (with_reducible apply State.coreInstr_canonical <;> intros) | (with_reducible apply State.endArrival_canonical <;> intros) | (with_reducible apply State.notice_canonical <;> intros) | (with_reducible apply State.fenceNotice_canonical <;> intros) | (with_reducible apply State.handleStep_canonical <;> intros) | (with_reducible apply State.sysStep_canonical <;> intros) | (with_reducible apply State.forAll_canonical <;> intros) | (with_reducible apply foldl_canonical <;> intros)
  all_goals simp +contextual (maxDischargeDepth := 20) [*]
@[simp] theorem State.loadCheckers_canonical (s : State) (c : Nat) (hs : s.Canonical) :
    (State.loadCheckers s c).Canonical := by
  unfold State.loadCheckers
  simp +contextual (maxDischargeDepth := 20) [*]
theorem execWindowViolation_canonical (p : PortReport) (addr : Word) (write : Bool) (s : State) (hs : s.Canonical) (t0 : State) (h0 : execWindowViolation p addr write s = .next t0) : t0.Canonical := by
  obtain ⟨_, rfl⟩ := ok_next h0
  clear h0
  apply State.when_canonical _ _ _ hs
  intro u hu
  apply State.reportFor_canonical _ _ _ _ hu
  intro r
  try dsimp only
  (repeat' split) <;> simp +contextual (maxDischargeDepth := 20) [*]
theorem execRemoteWriteDrop_canonical (f c : Nat) (addr : Word) (s : State) (hs : s.Canonical) (t0 : State) (h0 : execRemoteWriteDrop f c addr s = .next t0) : t0.Canonical := by
  obtain ⟨_, rfl⟩ := ok_next h0
  clear h0
  try dsimp only
  repeat' first | (with_reducible assumption) | split | (with_reducible apply State.when_canonical <;> intros) | (with_reducible apply State.sbAnswer_canonical <;> intros) | (with_reducible apply State.deliver_canonical <;> intros) | (with_reducible apply State.granted_canonical <;> intros) | (with_reducible apply State.dataArrives_canonical <;> intros) | (with_reducible apply State.withLines_canonical <;> intros) | (with_reducible apply State.withReads_canonical <;> intros) | (with_reducible apply State.whenHeld_canonical <;> intros) | (with_reducible apply State.lookup_canonical <;> intros) | (with_reducible apply State.hostRead_canonical <;> intros) | (with_reducible apply State.hostWrite_canonical <;> intros) | (with_reducible apply State.delivery_canonical <;> intros) | (with_reducible apply State.pageRead_canonical <;> intros) | (with_reducible apply State.pageWrite_canonical <;> intros) | (with_reducible apply State.stewardLines_canonical <;> intros) | (with_reducible apply State.choiceLines_canonical <;> intros) | (with_reducible apply State.preloadRead_canonical <;> intros) | (with_reducible apply State.opStep_canonical <;> intros) | (with_reducible apply State.receive_canonical <;> intros) | (with_reducible apply State.onObject_canonical <;> intros) | (with_reducible apply State.endOwner_canonical <;> intros) | (with_reducible apply State.chipWide_canonical <;> intros) | (with_reducible apply State.kernelStep_canonical <;> intros) | (with_reducible apply State.coreInstr_canonical <;> intros) | (with_reducible apply State.endArrival_canonical <;> intros) | (with_reducible apply State.notice_canonical <;> intros) | (with_reducible apply State.fenceNotice_canonical <;> intros) | (with_reducible apply State.handleStep_canonical <;> intros) | (with_reducible apply State.sysStep_canonical <;> intros) | (with_reducible apply State.forAll_canonical <;> intros) | (with_reducible apply foldl_canonical <;> intros)
  all_goals simp +contextual (maxDischargeDepth := 20) [*]
@[simp] theorem State.requestAbort_canonical (s : State) (n : Nat) (hs : s.Canonical) :
    (State.requestAbort s n).Canonical := by
  unfold State.requestAbort
  simp +contextual (maxDischargeDepth := 20) [*]
@[simp] theorem State.abortWaiting_canonical (s : State) (n : Nat) (d : Node) (hs : s.Canonical) :
    (State.abortWaiting s n d).Canonical := by
  unfold State.abortWaiting
  (repeat' split) <;> simp +contextual (maxDischargeDepth := 20) [*]
@[simp] theorem State.abortTemplate_canonical (s : State) (n : Nat) (d : Node) (hs : s.Canonical) :
    (State.abortTemplate s n d).Canonical := by
  unfold State.abortTemplate
  try dsimp only
  (repeat' split) <;> simp +contextual (maxDischargeDepth := 20) [*]
@[simp] theorem State.abortSheaf_canonical (s : State) (n : Nat) (hs : s.Canonical) :
    (State.abortSheaf s n).Canonical := by
  unfold State.abortSheaf
  (repeat' split) <;> simp +contextual (maxDischargeDepth := 20) [*]
@[simp] theorem State.abortCall_canonical (s : State) (n : Nat) (d : Node) (hs : s.Canonical) :
    (State.abortCall s n d).Canonical := by
  unfold State.abortCall
  (repeat' split) <;> simp +contextual (maxDischargeDepth := 20) [*]
@[simp] theorem State.abortQueue_canonical (s : State) (q : Nat) (hs : s.Canonical) :
    (s.abortQueue q).Canonical := by
  unfold State.abortQueue
  dsimp only
  apply State.checkAbortBusy_canonical
  apply State.forAll_canonical
  · apply State.forAll_canonical
    · simp [hs]
    · intro t n ht; simp [ht]
  · intro t n ht
    repeat' split
    all_goals simp [ht]
@[simp] theorem State.timerFires_canonical (s : State) (n : Nat) (d : Node) (hs : s.Canonical) :
    (State.timerFires s n d).Canonical := by
  unfold State.timerFires
  (repeat' split) <;> simp +contextual (maxDischargeDepth := 20) [*]
theorem execQueueTimeout_canonical (n : Nat) (s : State) (hs : s.Canonical) (t0 : State) (h0 : execQueueTimeout n s = .next t0) : t0.Canonical := by
  obtain ⟨_, rfl⟩ := ok_next h0
  clear h0
  try dsimp only
  repeat' first | (with_reducible assumption) | split | (with_reducible apply State.when_canonical <;> intros) | (with_reducible apply State.sbAnswer_canonical <;> intros) | (with_reducible apply State.deliver_canonical <;> intros) | (with_reducible apply State.granted_canonical <;> intros) | (with_reducible apply State.dataArrives_canonical <;> intros) | (with_reducible apply State.withLines_canonical <;> intros) | (with_reducible apply State.withReads_canonical <;> intros) | (with_reducible apply State.whenHeld_canonical <;> intros) | (with_reducible apply State.lookup_canonical <;> intros) | (with_reducible apply State.hostRead_canonical <;> intros) | (with_reducible apply State.hostWrite_canonical <;> intros) | (with_reducible apply State.delivery_canonical <;> intros) | (with_reducible apply State.pageRead_canonical <;> intros) | (with_reducible apply State.pageWrite_canonical <;> intros) | (with_reducible apply State.stewardLines_canonical <;> intros) | (with_reducible apply State.choiceLines_canonical <;> intros) | (with_reducible apply State.preloadRead_canonical <;> intros) | (with_reducible apply State.opStep_canonical <;> intros) | (with_reducible apply State.receive_canonical <;> intros) | (with_reducible apply State.onObject_canonical <;> intros) | (with_reducible apply State.endOwner_canonical <;> intros) | (with_reducible apply State.chipWide_canonical <;> intros) | (with_reducible apply State.kernelStep_canonical <;> intros) | (with_reducible apply State.coreInstr_canonical <;> intros) | (with_reducible apply State.endArrival_canonical <;> intros) | (with_reducible apply State.notice_canonical <;> intros) | (with_reducible apply State.fenceNotice_canonical <;> intros) | (with_reducible apply State.handleStep_canonical <;> intros) | (with_reducible apply State.sysStep_canonical <;> intros) | (with_reducible apply State.forAll_canonical <;> intros) | (with_reducible apply foldl_canonical <;> intros)
  all_goals simp +contextual (maxDischargeDepth := 20) [*]
@[simp] theorem State.auditCmd_canonical (s : State) (d : Node) (ignored : Bool) (hs : s.Canonical) :
    (State.auditCmd s d ignored).Canonical := by
  unfold State.auditCmd
  simp +contextual (maxDischargeDepth := 20) [*]
@[simp] theorem State.chipWide_canonical (s : State) (n : Nat) (d : Node) (consent : Bool) (cs : List (Bool × Nat × Nat)) (f : State → State) (hs : s.Canonical) (h5 : ∀ (x0 : State), x0.Canonical → (f x0).Canonical) :
    (State.chipWide s n d consent cs f).Canonical := by
  unfold State.chipWide
  (repeat' split) <;> simp +contextual (maxDischargeDepth := 20) [*]
@[simp] theorem State.kernelStep_canonical (s : State) (n o sub : Nat) (f : State → Node → State) (hs : s.Canonical) (h4 : ∀ (x0 : State) (x1 : Node), x0.Canonical → (f x0 x1).Canonical) :
    (State.kernelStep s n o sub f).Canonical := by
  unfold State.kernelStep
  simp +contextual (maxDischargeDepth := 20) [*]
@[simp] theorem State.createQueue_canonical (s : State) (n : Nat) (d : Node) (hs : s.Canonical) :
    (State.createQueue s n d).Canonical := by
  unfold State.createQueue
  try dsimp only
  (repeat' split) <;> simp +contextual (maxDischargeDepth := 20) [*]
theorem execQctlCreate_canonical (n : Nat) (s : State) (hs : s.Canonical) (t0 : State) (h0 : execQctlCreate n s = .next t0) : t0.Canonical := by
  obtain ⟨_, rfl⟩ := ok_next h0
  clear h0
  simp +contextual (maxDischargeDepth := 20) [*]
theorem execQctlDestroy_canonical (n : Nat) (s : State) (hs : s.Canonical) (t0 : State) (h0 : execQctlDestroy n s = .next t0) : t0.Canonical := by
  obtain ⟨_, rfl⟩ := ok_next h0
  clear h0
  try dsimp only
  repeat' first | (with_reducible assumption) | split | (with_reducible apply State.when_canonical <;> intros) | (with_reducible apply State.sbAnswer_canonical <;> intros) | (with_reducible apply State.deliver_canonical <;> intros) | (with_reducible apply State.granted_canonical <;> intros) | (with_reducible apply State.dataArrives_canonical <;> intros) | (with_reducible apply State.withLines_canonical <;> intros) | (with_reducible apply State.withReads_canonical <;> intros) | (with_reducible apply State.whenHeld_canonical <;> intros) | (with_reducible apply State.lookup_canonical <;> intros) | (with_reducible apply State.hostRead_canonical <;> intros) | (with_reducible apply State.hostWrite_canonical <;> intros) | (with_reducible apply State.delivery_canonical <;> intros) | (with_reducible apply State.pageRead_canonical <;> intros) | (with_reducible apply State.pageWrite_canonical <;> intros) | (with_reducible apply State.stewardLines_canonical <;> intros) | (with_reducible apply State.choiceLines_canonical <;> intros) | (with_reducible apply State.preloadRead_canonical <;> intros) | (with_reducible apply State.opStep_canonical <;> intros) | (with_reducible apply State.receive_canonical <;> intros) | (with_reducible apply State.onObject_canonical <;> intros) | (with_reducible apply State.endOwner_canonical <;> intros) | (with_reducible apply State.chipWide_canonical <;> intros) | (with_reducible apply State.kernelStep_canonical <;> intros) | (with_reducible apply State.coreInstr_canonical <;> intros) | (with_reducible apply State.endArrival_canonical <;> intros) | (with_reducible apply State.notice_canonical <;> intros) | (with_reducible apply State.fenceNotice_canonical <;> intros) | (with_reducible apply State.handleStep_canonical <;> intros) | (with_reducible apply State.sysStep_canonical <;> intros) | (with_reducible apply State.forAll_canonical <;> intros) | (with_reducible apply foldl_canonical <;> intros)
  all_goals simp +contextual (maxDischargeDepth := 20) [*]
theorem execQctlRestart_canonical (n : Nat) (s : State) (hs : s.Canonical) (t0 : State) (h0 : execQctlRestart n s = .next t0) : t0.Canonical := by
  obtain ⟨_, rfl⟩ := ok_next h0
  clear h0
  try dsimp only
  repeat' first | (with_reducible assumption) | split | (with_reducible apply State.when_canonical <;> intros) | (with_reducible apply State.sbAnswer_canonical <;> intros) | (with_reducible apply State.deliver_canonical <;> intros) | (with_reducible apply State.granted_canonical <;> intros) | (with_reducible apply State.dataArrives_canonical <;> intros) | (with_reducible apply State.withLines_canonical <;> intros) | (with_reducible apply State.withReads_canonical <;> intros) | (with_reducible apply State.whenHeld_canonical <;> intros) | (with_reducible apply State.lookup_canonical <;> intros) | (with_reducible apply State.hostRead_canonical <;> intros) | (with_reducible apply State.hostWrite_canonical <;> intros) | (with_reducible apply State.delivery_canonical <;> intros) | (with_reducible apply State.pageRead_canonical <;> intros) | (with_reducible apply State.pageWrite_canonical <;> intros) | (with_reducible apply State.stewardLines_canonical <;> intros) | (with_reducible apply State.choiceLines_canonical <;> intros) | (with_reducible apply State.preloadRead_canonical <;> intros) | (with_reducible apply State.opStep_canonical <;> intros) | (with_reducible apply State.receive_canonical <;> intros) | (with_reducible apply State.onObject_canonical <;> intros) | (with_reducible apply State.endOwner_canonical <;> intros) | (with_reducible apply State.chipWide_canonical <;> intros) | (with_reducible apply State.kernelStep_canonical <;> intros) | (with_reducible apply State.coreInstr_canonical <;> intros) | (with_reducible apply State.endArrival_canonical <;> intros) | (with_reducible apply State.notice_canonical <;> intros) | (with_reducible apply State.fenceNotice_canonical <;> intros) | (with_reducible apply State.handleStep_canonical <;> intros) | (with_reducible apply State.sysStep_canonical <;> intros) | (with_reducible apply State.forAll_canonical <;> intros) | (with_reducible apply foldl_canonical <;> intros)
  all_goals simp +contextual (maxDischargeDepth := 20) [*]
theorem execCtxctlCreate_canonical (n : Nat) (s : State) (hs : s.Canonical) (t0 : State) (h0 : execCtxctlCreate n s = .next t0) : t0.Canonical := by
  obtain ⟨_, rfl⟩ := ok_next h0
  clear h0
  try dsimp only
  repeat' first | (with_reducible assumption) | split | (with_reducible apply State.when_canonical <;> intros) | (with_reducible apply State.sbAnswer_canonical <;> intros) | (with_reducible apply State.deliver_canonical <;> intros) | (with_reducible apply State.granted_canonical <;> intros) | (with_reducible apply State.dataArrives_canonical <;> intros) | (with_reducible apply State.withLines_canonical <;> intros) | (with_reducible apply State.withReads_canonical <;> intros) | (with_reducible apply State.whenHeld_canonical <;> intros) | (with_reducible apply State.lookup_canonical <;> intros) | (with_reducible apply State.hostRead_canonical <;> intros) | (with_reducible apply State.hostWrite_canonical <;> intros) | (with_reducible apply State.delivery_canonical <;> intros) | (with_reducible apply State.pageRead_canonical <;> intros) | (with_reducible apply State.pageWrite_canonical <;> intros) | (with_reducible apply State.stewardLines_canonical <;> intros) | (with_reducible apply State.choiceLines_canonical <;> intros) | (with_reducible apply State.preloadRead_canonical <;> intros) | (with_reducible apply State.opStep_canonical <;> intros) | (with_reducible apply State.receive_canonical <;> intros) | (with_reducible apply State.onObject_canonical <;> intros) | (with_reducible apply State.endOwner_canonical <;> intros) | (with_reducible apply State.chipWide_canonical <;> intros) | (with_reducible apply State.kernelStep_canonical <;> intros) | (with_reducible apply State.coreInstr_canonical <;> intros) | (with_reducible apply State.endArrival_canonical <;> intros) | (with_reducible apply State.notice_canonical <;> intros) | (with_reducible apply State.fenceNotice_canonical <;> intros) | (with_reducible apply State.handleStep_canonical <;> intros) | (with_reducible apply State.sysStep_canonical <;> intros) | (with_reducible apply State.forAll_canonical <;> intros) | (with_reducible apply foldl_canonical <;> intros)
  all_goals simp +contextual (maxDischargeDepth := 20) [*]
theorem execCtxctlTeardown_canonical (n : Nat) (s : State) (hs : s.Canonical) (t0 : State) (h0 : execCtxctlTeardown n s = .next t0) : t0.Canonical := by
  obtain ⟨_, rfl⟩ := ok_next h0
  clear h0
  try dsimp only
  repeat' first | (with_reducible assumption) | split | (with_reducible apply State.when_canonical <;> intros) | (with_reducible apply State.sbAnswer_canonical <;> intros) | (with_reducible apply State.deliver_canonical <;> intros) | (with_reducible apply State.granted_canonical <;> intros) | (with_reducible apply State.dataArrives_canonical <;> intros) | (with_reducible apply State.withLines_canonical <;> intros) | (with_reducible apply State.withReads_canonical <;> intros) | (with_reducible apply State.whenHeld_canonical <;> intros) | (with_reducible apply State.lookup_canonical <;> intros) | (with_reducible apply State.hostRead_canonical <;> intros) | (with_reducible apply State.hostWrite_canonical <;> intros) | (with_reducible apply State.delivery_canonical <;> intros) | (with_reducible apply State.pageRead_canonical <;> intros) | (with_reducible apply State.pageWrite_canonical <;> intros) | (with_reducible apply State.stewardLines_canonical <;> intros) | (with_reducible apply State.choiceLines_canonical <;> intros) | (with_reducible apply State.preloadRead_canonical <;> intros) | (with_reducible apply State.opStep_canonical <;> intros) | (with_reducible apply State.receive_canonical <;> intros) | (with_reducible apply State.onObject_canonical <;> intros) | (with_reducible apply State.endOwner_canonical <;> intros) | (with_reducible apply State.chipWide_canonical <;> intros) | (with_reducible apply State.kernelStep_canonical <;> intros) | (with_reducible apply State.coreInstr_canonical <;> intros) | (with_reducible apply State.endArrival_canonical <;> intros) | (with_reducible apply State.notice_canonical <;> intros) | (with_reducible apply State.fenceNotice_canonical <;> intros) | (with_reducible apply State.handleStep_canonical <;> intros) | (with_reducible apply State.sysStep_canonical <;> intros) | (with_reducible apply State.forAll_canonical <;> intros) | (with_reducible apply foldl_canonical <;> intros)
  all_goals simp +contextual (maxDischargeDepth := 20) [*]
theorem execCtxctlSetwindows_canonical (n : Nat) (s : State) (hs : s.Canonical) (t0 : State) (h0 : execCtxctlSetwindows n s = .next t0) : t0.Canonical := by
  obtain ⟨_, rfl⟩ := ok_next h0
  clear h0
  try dsimp only
  repeat' first | (with_reducible assumption) | split | (with_reducible apply State.when_canonical <;> intros) | (with_reducible apply State.sbAnswer_canonical <;> intros) | (with_reducible apply State.deliver_canonical <;> intros) | (with_reducible apply State.granted_canonical <;> intros) | (with_reducible apply State.dataArrives_canonical <;> intros) | (with_reducible apply State.withLines_canonical <;> intros) | (with_reducible apply State.withReads_canonical <;> intros) | (with_reducible apply State.whenHeld_canonical <;> intros) | (with_reducible apply State.lookup_canonical <;> intros) | (with_reducible apply State.hostRead_canonical <;> intros) | (with_reducible apply State.hostWrite_canonical <;> intros) | (with_reducible apply State.delivery_canonical <;> intros) | (with_reducible apply State.pageRead_canonical <;> intros) | (with_reducible apply State.pageWrite_canonical <;> intros) | (with_reducible apply State.stewardLines_canonical <;> intros) | (with_reducible apply State.choiceLines_canonical <;> intros) | (with_reducible apply State.preloadRead_canonical <;> intros) | (with_reducible apply State.opStep_canonical <;> intros) | (with_reducible apply State.receive_canonical <;> intros) | (with_reducible apply State.onObject_canonical <;> intros) | (with_reducible apply State.endOwner_canonical <;> intros) | (with_reducible apply State.chipWide_canonical <;> intros) | (with_reducible apply State.kernelStep_canonical <;> intros) | (with_reducible apply State.coreInstr_canonical <;> intros) | (with_reducible apply State.endArrival_canonical <;> intros) | (with_reducible apply State.notice_canonical <;> intros) | (with_reducible apply State.fenceNotice_canonical <;> intros) | (with_reducible apply State.handleStep_canonical <;> intros) | (with_reducible apply State.sysStep_canonical <;> intros) | (with_reducible apply State.forAll_canonical <;> intros) | (with_reducible apply foldl_canonical <;> intros)
  all_goals simp +contextual (maxDischargeDepth := 20) [*]
theorem execWindowCheckersLoaded_canonical (n : Nat) (s : State) (hs : s.Canonical) (t0 : State) (h0 : execWindowCheckersLoaded n s = .next t0) : t0.Canonical := by
  obtain ⟨_, rfl⟩ := ok_next h0
  clear h0
  try dsimp only
  repeat' first | (with_reducible assumption) | split | (with_reducible apply State.when_canonical <;> intros) | (with_reducible apply State.sbAnswer_canonical <;> intros) | (with_reducible apply State.deliver_canonical <;> intros) | (with_reducible apply State.granted_canonical <;> intros) | (with_reducible apply State.dataArrives_canonical <;> intros) | (with_reducible apply State.withLines_canonical <;> intros) | (with_reducible apply State.withReads_canonical <;> intros) | (with_reducible apply State.whenHeld_canonical <;> intros) | (with_reducible apply State.lookup_canonical <;> intros) | (with_reducible apply State.hostRead_canonical <;> intros) | (with_reducible apply State.hostWrite_canonical <;> intros) | (with_reducible apply State.delivery_canonical <;> intros) | (with_reducible apply State.pageRead_canonical <;> intros) | (with_reducible apply State.pageWrite_canonical <;> intros) | (with_reducible apply State.stewardLines_canonical <;> intros) | (with_reducible apply State.choiceLines_canonical <;> intros) | (with_reducible apply State.preloadRead_canonical <;> intros) | (with_reducible apply State.opStep_canonical <;> intros) | (with_reducible apply State.receive_canonical <;> intros) | (with_reducible apply State.onObject_canonical <;> intros) | (with_reducible apply State.endOwner_canonical <;> intros) | (with_reducible apply State.chipWide_canonical <;> intros) | (with_reducible apply State.kernelStep_canonical <;> intros) | (with_reducible apply State.coreInstr_canonical <;> intros) | (with_reducible apply State.endArrival_canonical <;> intros) | (with_reducible apply State.notice_canonical <;> intros) | (with_reducible apply State.fenceNotice_canonical <;> intros) | (with_reducible apply State.handleStep_canonical <;> intros) | (with_reducible apply State.sysStep_canonical <;> intros) | (with_reducible apply State.forAll_canonical <;> intros) | (with_reducible apply foldl_canonical <;> intros)
  all_goals simp +contextual (maxDischargeDepth := 20) [*]
theorem execCtxctlReadacct_canonical (n : Nat) (s : State) (hs : s.Canonical) (t0 : State) (h0 : execCtxctlReadacct n s = .next t0) : t0.Canonical := by
  obtain ⟨_, rfl⟩ := ok_next h0
  clear h0
  try dsimp only
  repeat' first | (with_reducible assumption) | split | (with_reducible apply State.when_canonical <;> intros) | (with_reducible apply State.sbAnswer_canonical <;> intros) | (with_reducible apply State.deliver_canonical <;> intros) | (with_reducible apply State.granted_canonical <;> intros) | (with_reducible apply State.dataArrives_canonical <;> intros) | (with_reducible apply State.withLines_canonical <;> intros) | (with_reducible apply State.withReads_canonical <;> intros) | (with_reducible apply State.whenHeld_canonical <;> intros) | (with_reducible apply State.lookup_canonical <;> intros) | (with_reducible apply State.hostRead_canonical <;> intros) | (with_reducible apply State.hostWrite_canonical <;> intros) | (with_reducible apply State.delivery_canonical <;> intros) | (with_reducible apply State.pageRead_canonical <;> intros) | (with_reducible apply State.pageWrite_canonical <;> intros) | (with_reducible apply State.stewardLines_canonical <;> intros) | (with_reducible apply State.choiceLines_canonical <;> intros) | (with_reducible apply State.preloadRead_canonical <;> intros) | (with_reducible apply State.opStep_canonical <;> intros) | (with_reducible apply State.receive_canonical <;> intros) | (with_reducible apply State.onObject_canonical <;> intros) | (with_reducible apply State.endOwner_canonical <;> intros) | (with_reducible apply State.chipWide_canonical <;> intros) | (with_reducible apply State.kernelStep_canonical <;> intros) | (with_reducible apply State.coreInstr_canonical <;> intros) | (with_reducible apply State.endArrival_canonical <;> intros) | (with_reducible apply State.notice_canonical <;> intros) | (with_reducible apply State.fenceNotice_canonical <;> intros) | (with_reducible apply State.handleStep_canonical <;> intros) | (with_reducible apply State.sysStep_canonical <;> intros) | (with_reducible apply State.forAll_canonical <;> intros) | (with_reducible apply foldl_canonical <;> intros)
  all_goals simp +contextual (maxDischargeDepth := 20) [*]
@[simp] theorem State.loadSlot_canonical (s : State) (n i length : Nat) (img : List (BitVec 32)) (hs : s.Canonical) :
    (State.loadSlot s n i length img).Canonical := by
  unfold State.loadSlot
  simp +contextual (maxDischargeDepth := 20) [*]
@[simp] theorem State.readImage_canonical (s : State) (d : Node) (hs : s.Canonical) :
    (State.readImage s d).Canonical := by
  unfold State.readImage
  simp +contextual (maxDischargeDepth := 20) [*]
theorem execLoadroutine_canonical (n : Nat) (s : State) (hs : s.Canonical) (t0 : State) (h0 : execLoadroutine n s = .next t0) : t0.Canonical := by
  obtain ⟨_, rfl⟩ := ok_next h0
  clear h0
  try dsimp only
  repeat' first | (with_reducible assumption) | split | (with_reducible apply State.when_canonical <;> intros) | (with_reducible apply State.sbAnswer_canonical <;> intros) | (with_reducible apply State.deliver_canonical <;> intros) | (with_reducible apply State.granted_canonical <;> intros) | (with_reducible apply State.dataArrives_canonical <;> intros) | (with_reducible apply State.withLines_canonical <;> intros) | (with_reducible apply State.withReads_canonical <;> intros) | (with_reducible apply State.whenHeld_canonical <;> intros) | (with_reducible apply State.lookup_canonical <;> intros) | (with_reducible apply State.hostRead_canonical <;> intros) | (with_reducible apply State.hostWrite_canonical <;> intros) | (with_reducible apply State.delivery_canonical <;> intros) | (with_reducible apply State.pageRead_canonical <;> intros) | (with_reducible apply State.pageWrite_canonical <;> intros) | (with_reducible apply State.stewardLines_canonical <;> intros) | (with_reducible apply State.choiceLines_canonical <;> intros) | (with_reducible apply State.preloadRead_canonical <;> intros) | (with_reducible apply State.opStep_canonical <;> intros) | (with_reducible apply State.receive_canonical <;> intros) | (with_reducible apply State.onObject_canonical <;> intros) | (with_reducible apply State.endOwner_canonical <;> intros) | (with_reducible apply State.chipWide_canonical <;> intros) | (with_reducible apply State.kernelStep_canonical <;> intros) | (with_reducible apply State.coreInstr_canonical <;> intros) | (with_reducible apply State.endArrival_canonical <;> intros) | (with_reducible apply State.notice_canonical <;> intros) | (with_reducible apply State.fenceNotice_canonical <;> intros) | (with_reducible apply State.handleStep_canonical <;> intros) | (with_reducible apply State.sysStep_canonical <;> intros) | (with_reducible apply State.forAll_canonical <;> intros) | (with_reducible apply foldl_canonical <;> intros)
  all_goals simp +contextual (maxDischargeDepth := 20) [*]
theorem execRoutineImageRead_canonical (n : Nat) (a : FabricReply) (s : State) (hs : s.Canonical) (t0 : State) (h0 : execRoutineImageRead n a s = .next t0) : t0.Canonical := by
  obtain ⟨_, rfl⟩ := ok_next h0
  clear h0
  try dsimp only
  repeat' first | (with_reducible assumption) | split | (with_reducible apply State.when_canonical <;> intros) | (with_reducible apply State.sbAnswer_canonical <;> intros) | (with_reducible apply State.deliver_canonical <;> intros) | (with_reducible apply State.granted_canonical <;> intros) | (with_reducible apply State.dataArrives_canonical <;> intros) | (with_reducible apply State.withLines_canonical <;> intros) | (with_reducible apply State.withReads_canonical <;> intros) | (with_reducible apply State.whenHeld_canonical <;> intros) | (with_reducible apply State.lookup_canonical <;> intros) | (with_reducible apply State.hostRead_canonical <;> intros) | (with_reducible apply State.hostWrite_canonical <;> intros) | (with_reducible apply State.delivery_canonical <;> intros) | (with_reducible apply State.pageRead_canonical <;> intros) | (with_reducible apply State.pageWrite_canonical <;> intros) | (with_reducible apply State.stewardLines_canonical <;> intros) | (with_reducible apply State.choiceLines_canonical <;> intros) | (with_reducible apply State.preloadRead_canonical <;> intros) | (with_reducible apply State.opStep_canonical <;> intros) | (with_reducible apply State.receive_canonical <;> intros) | (with_reducible apply State.onObject_canonical <;> intros) | (with_reducible apply State.endOwner_canonical <;> intros) | (with_reducible apply State.chipWide_canonical <;> intros) | (with_reducible apply State.kernelStep_canonical <;> intros) | (with_reducible apply State.coreInstr_canonical <;> intros) | (with_reducible apply State.endArrival_canonical <;> intros) | (with_reducible apply State.notice_canonical <;> intros) | (with_reducible apply State.fenceNotice_canonical <;> intros) | (with_reducible apply State.handleStep_canonical <;> intros) | (with_reducible apply State.sysStep_canonical <;> intros) | (with_reducible apply State.forAll_canonical <;> intros) | (with_reducible apply foldl_canonical <;> intros)
  all_goals simp +contextual (maxDischargeDepth := 20) [*]
@[simp] theorem State.tallyWrites_canonical (s : State) (d : Node) (hs : s.Canonical) :
    (State.tallyWrites s d).Canonical := by
  unfold State.tallyWrites
  simp +contextual (maxDischargeDepth := 20) [*]
@[simp] theorem State.writeTally_canonical (s : State) (d : Node) (hs : s.Canonical) :
    (State.writeTally s d).Canonical := by
  unfold State.writeTally
  simp +contextual (maxDischargeDepth := 20) [*]
@[simp] theorem State.tally_canonical (s : State) (n : Nat) (d : Node) (hs : s.Canonical) :
    (State.tally s n d).Canonical := by
  unfold State.tally
  try dsimp only
  (repeat' split) <;> simp +contextual (maxDischargeDepth := 20) [*]
theorem execTallyWrite_canonical (n : Nat) (s : State) (hs : s.Canonical) (t0 : State) (h0 : execTallyWrite n s = .next t0) : t0.Canonical := by
  obtain ⟨_, rfl⟩ := ok_next h0
  clear h0
  simp +contextual (maxDischargeDepth := 20) [*]
theorem execTallyWriteNotify_canonical (n : Nat) (s : State) (hs : s.Canonical) (t0 : State) (h0 : execTallyWriteNotify n s = .next t0) : t0.Canonical := by
  obtain ⟨_, rfl⟩ := ok_next h0
  clear h0
  simp +contextual (maxDischargeDepth := 20) [*]
theorem execTallyReadCompletion_canonical (n : Nat) (a : HostReply) (s : State) (hs : s.Canonical) (t0 : State) (h0 : execTallyReadCompletion n a s = .next t0) : t0.Canonical := by
  obtain ⟨_, rfl⟩ := ok_next h0
  clear h0
  try dsimp only
  repeat' first | (with_reducible assumption) | split | (with_reducible apply State.when_canonical <;> intros) | (with_reducible apply State.sbAnswer_canonical <;> intros) | (with_reducible apply State.deliver_canonical <;> intros) | (with_reducible apply State.granted_canonical <;> intros) | (with_reducible apply State.dataArrives_canonical <;> intros) | (with_reducible apply State.withLines_canonical <;> intros) | (with_reducible apply State.withReads_canonical <;> intros) | (with_reducible apply State.whenHeld_canonical <;> intros) | (with_reducible apply State.lookup_canonical <;> intros) | (with_reducible apply State.hostRead_canonical <;> intros) | (with_reducible apply State.hostWrite_canonical <;> intros) | (with_reducible apply State.delivery_canonical <;> intros) | (with_reducible apply State.pageRead_canonical <;> intros) | (with_reducible apply State.pageWrite_canonical <;> intros) | (with_reducible apply State.stewardLines_canonical <;> intros) | (with_reducible apply State.choiceLines_canonical <;> intros) | (with_reducible apply State.preloadRead_canonical <;> intros) | (with_reducible apply State.opStep_canonical <;> intros) | (with_reducible apply State.receive_canonical <;> intros) | (with_reducible apply State.onObject_canonical <;> intros) | (with_reducible apply State.endOwner_canonical <;> intros) | (with_reducible apply State.chipWide_canonical <;> intros) | (with_reducible apply State.kernelStep_canonical <;> intros) | (with_reducible apply State.coreInstr_canonical <;> intros) | (with_reducible apply State.endArrival_canonical <;> intros) | (with_reducible apply State.notice_canonical <;> intros) | (with_reducible apply State.fenceNotice_canonical <;> intros) | (with_reducible apply State.handleStep_canonical <;> intros) | (with_reducible apply State.sysStep_canonical <;> intros) | (with_reducible apply State.forAll_canonical <;> intros) | (with_reducible apply foldl_canonical <;> intros)
  all_goals simp +contextual (maxDischargeDepth := 20) [*]
@[simp] theorem State.clearObj_canonical (s : State) (n : Nat) (hs : s.Canonical) :
    (State.clearObj s n).Canonical := by
  unfold State.clearObj
  simp +contextual (maxDischargeDepth := 20) [*]
@[simp] theorem State.clearRange_canonical (s : State) (p : Nat) (hs : s.Canonical) :
    (State.clearRange s p).Canonical := by
  unfold State.clearRange
  simp +contextual (maxDischargeDepth := 20) [*]
@[simp] theorem State.releasePart_canonical (s : State) (n p : Nat) (hs : s.Canonical) :
    (State.releasePart s n p).Canonical := by
  unfold State.releasePart
  try dsimp only
  (repeat' split) <;> simp +contextual (maxDischargeDepth := 20) [*]
theorem execPartctlDefine_canonical (n : Nat) (s : State) (hs : s.Canonical) (t0 : State) (h0 : execPartctlDefine n s = .next t0) : t0.Canonical := by
  obtain ⟨_, rfl⟩ := ok_next h0
  clear h0
  simp +contextual (maxDischargeDepth := 20) [*]
theorem execPartctlRelease_canonical (n : Nat) (s : State) (hs : s.Canonical) (t0 : State) (h0 : execPartctlRelease n s = .next t0) : t0.Canonical := by
  obtain ⟨_, rfl⟩ := ok_next h0
  clear h0
  try dsimp only
  repeat' first | (with_reducible assumption) | split | (with_reducible apply State.when_canonical <;> intros) | (with_reducible apply State.sbAnswer_canonical <;> intros) | (with_reducible apply State.deliver_canonical <;> intros) | (with_reducible apply State.granted_canonical <;> intros) | (with_reducible apply State.dataArrives_canonical <;> intros) | (with_reducible apply State.withLines_canonical <;> intros) | (with_reducible apply State.withReads_canonical <;> intros) | (with_reducible apply State.whenHeld_canonical <;> intros) | (with_reducible apply State.lookup_canonical <;> intros) | (with_reducible apply State.hostRead_canonical <;> intros) | (with_reducible apply State.hostWrite_canonical <;> intros) | (with_reducible apply State.delivery_canonical <;> intros) | (with_reducible apply State.pageRead_canonical <;> intros) | (with_reducible apply State.pageWrite_canonical <;> intros) | (with_reducible apply State.stewardLines_canonical <;> intros) | (with_reducible apply State.choiceLines_canonical <;> intros) | (with_reducible apply State.preloadRead_canonical <;> intros) | (with_reducible apply State.opStep_canonical <;> intros) | (with_reducible apply State.receive_canonical <;> intros) | (with_reducible apply State.onObject_canonical <;> intros) | (with_reducible apply State.endOwner_canonical <;> intros) | (with_reducible apply State.chipWide_canonical <;> intros) | (with_reducible apply State.kernelStep_canonical <;> intros) | (with_reducible apply State.coreInstr_canonical <;> intros) | (with_reducible apply State.endArrival_canonical <;> intros) | (with_reducible apply State.notice_canonical <;> intros) | (with_reducible apply State.fenceNotice_canonical <;> intros) | (with_reducible apply State.handleStep_canonical <;> intros) | (with_reducible apply State.sysStep_canonical <;> intros) | (with_reducible apply State.forAll_canonical <;> intros) | (with_reducible apply foldl_canonical <;> intros)
  all_goals simp +contextual (maxDischargeDepth := 20) [*]
theorem execFaultctlThreshold_canonical (n : Nat) (s : State) (hs : s.Canonical) (t0 : State) (h0 : execFaultctlThreshold n s = .next t0) : t0.Canonical := by
  obtain ⟨_, rfl⟩ := ok_next h0
  clear h0
  simp +contextual (maxDischargeDepth := 20) [*]
theorem execFaultctlAcklog_canonical (n : Nat) (s : State) (hs : s.Canonical) (t0 : State) (h0 : execFaultctlAcklog n s = .next t0) : t0.Canonical := by
  obtain ⟨_, rfl⟩ := ok_next h0
  clear h0
  simp +contextual (maxDischargeDepth := 20) [*]
@[simp] theorem State.queueRun_canonical (s : State) (n : Nat) (d : Node) (hs : s.Canonical) :
    (State.queueRun s n d).Canonical := by
  unfold State.queueRun
  simp +contextual (maxDischargeDepth := 20) [*]
theorem execCall_canonical (n : Nat) (s : State) (hs : s.Canonical) (t0 : State) (h0 : execCall n s = .next t0) : t0.Canonical := by
  obtain ⟨_, rfl⟩ := ok_next h0
  clear h0
  try dsimp only
  repeat' first | (with_reducible assumption) | split | (with_reducible apply State.when_canonical <;> intros) | (with_reducible apply State.sbAnswer_canonical <;> intros) | (with_reducible apply State.deliver_canonical <;> intros) | (with_reducible apply State.granted_canonical <;> intros) | (with_reducible apply State.dataArrives_canonical <;> intros) | (with_reducible apply State.withLines_canonical <;> intros) | (with_reducible apply State.withReads_canonical <;> intros) | (with_reducible apply State.whenHeld_canonical <;> intros) | (with_reducible apply State.lookup_canonical <;> intros) | (with_reducible apply State.hostRead_canonical <;> intros) | (with_reducible apply State.hostWrite_canonical <;> intros) | (with_reducible apply State.delivery_canonical <;> intros) | (with_reducible apply State.pageRead_canonical <;> intros) | (with_reducible apply State.pageWrite_canonical <;> intros) | (with_reducible apply State.stewardLines_canonical <;> intros) | (with_reducible apply State.choiceLines_canonical <;> intros) | (with_reducible apply State.preloadRead_canonical <;> intros) | (with_reducible apply State.opStep_canonical <;> intros) | (with_reducible apply State.receive_canonical <;> intros) | (with_reducible apply State.onObject_canonical <;> intros) | (with_reducible apply State.endOwner_canonical <;> intros) | (with_reducible apply State.chipWide_canonical <;> intros) | (with_reducible apply State.kernelStep_canonical <;> intros) | (with_reducible apply State.coreInstr_canonical <;> intros) | (with_reducible apply State.endArrival_canonical <;> intros) | (with_reducible apply State.notice_canonical <;> intros) | (with_reducible apply State.fenceNotice_canonical <;> intros) | (with_reducible apply State.handleStep_canonical <;> intros) | (with_reducible apply State.sysStep_canonical <;> intros) | (with_reducible apply State.forAll_canonical <;> intros) | (with_reducible apply foldl_canonical <;> intros)
  all_goals simp +contextual (maxDischargeDepth := 20) [*]
theorem execRunStart_canonical (k : Nat) (s : State) (hs : s.Canonical) (t0 : State) (h0 : execRunStart k s = .next t0) : t0.Canonical := by
  obtain ⟨_, rfl⟩ := ok_next h0
  clear h0
  try dsimp only
  repeat' first | (with_reducible assumption) | split | (with_reducible apply State.when_canonical <;> intros) | (with_reducible apply State.sbAnswer_canonical <;> intros) | (with_reducible apply State.deliver_canonical <;> intros) | (with_reducible apply State.granted_canonical <;> intros) | (with_reducible apply State.dataArrives_canonical <;> intros) | (with_reducible apply State.withLines_canonical <;> intros) | (with_reducible apply State.withReads_canonical <;> intros) | (with_reducible apply State.whenHeld_canonical <;> intros) | (with_reducible apply State.lookup_canonical <;> intros) | (with_reducible apply State.hostRead_canonical <;> intros) | (with_reducible apply State.hostWrite_canonical <;> intros) | (with_reducible apply State.delivery_canonical <;> intros) | (with_reducible apply State.pageRead_canonical <;> intros) | (with_reducible apply State.pageWrite_canonical <;> intros) | (with_reducible apply State.stewardLines_canonical <;> intros) | (with_reducible apply State.choiceLines_canonical <;> intros) | (with_reducible apply State.preloadRead_canonical <;> intros) | (with_reducible apply State.opStep_canonical <;> intros) | (with_reducible apply State.receive_canonical <;> intros) | (with_reducible apply State.onObject_canonical <;> intros) | (with_reducible apply State.endOwner_canonical <;> intros) | (with_reducible apply State.chipWide_canonical <;> intros) | (with_reducible apply State.kernelStep_canonical <;> intros) | (with_reducible apply State.coreInstr_canonical <;> intros) | (with_reducible apply State.endArrival_canonical <;> intros) | (with_reducible apply State.notice_canonical <;> intros) | (with_reducible apply State.fenceNotice_canonical <;> intros) | (with_reducible apply State.handleStep_canonical <;> intros) | (with_reducible apply State.sysStep_canonical <;> intros) | (with_reducible apply State.forAll_canonical <;> intros) | (with_reducible apply foldl_canonical <;> intros)
  all_goals simp +contextual (maxDischargeDepth := 20) [*]
theorem execFrameClearComplete_canonical (k fr : Nat) (s : State) (hs : s.Canonical) (t0 : State) (h0 : execFrameClearComplete k fr s = .next t0) : t0.Canonical := by
  obtain ⟨_, rfl⟩ := ok_next h0
  clear h0
  try dsimp only
  repeat' first | (with_reducible assumption) | split | (with_reducible apply State.when_canonical <;> intros) | (with_reducible apply State.sbAnswer_canonical <;> intros) | (with_reducible apply State.deliver_canonical <;> intros) | (with_reducible apply State.granted_canonical <;> intros) | (with_reducible apply State.dataArrives_canonical <;> intros) | (with_reducible apply State.withLines_canonical <;> intros) | (with_reducible apply State.withReads_canonical <;> intros) | (with_reducible apply State.whenHeld_canonical <;> intros) | (with_reducible apply State.lookup_canonical <;> intros) | (with_reducible apply State.hostRead_canonical <;> intros) | (with_reducible apply State.hostWrite_canonical <;> intros) | (with_reducible apply State.delivery_canonical <;> intros) | (with_reducible apply State.pageRead_canonical <;> intros) | (with_reducible apply State.pageWrite_canonical <;> intros) | (with_reducible apply State.stewardLines_canonical <;> intros) | (with_reducible apply State.choiceLines_canonical <;> intros) | (with_reducible apply State.preloadRead_canonical <;> intros) | (with_reducible apply State.opStep_canonical <;> intros) | (with_reducible apply State.receive_canonical <;> intros) | (with_reducible apply State.onObject_canonical <;> intros) | (with_reducible apply State.endOwner_canonical <;> intros) | (with_reducible apply State.chipWide_canonical <;> intros) | (with_reducible apply State.kernelStep_canonical <;> intros) | (with_reducible apply State.coreInstr_canonical <;> intros) | (with_reducible apply State.endArrival_canonical <;> intros) | (with_reducible apply State.notice_canonical <;> intros) | (with_reducible apply State.fenceNotice_canonical <;> intros) | (with_reducible apply State.handleStep_canonical <;> intros) | (with_reducible apply State.sysStep_canonical <;> intros) | (with_reducible apply State.forAll_canonical <;> intros) | (with_reducible apply foldl_canonical <;> intros)
  all_goals simp +contextual (maxDischargeDepth := 20) [*]
theorem execQuantumExpiry_canonical (k : Nat) (s : State) (hs : s.Canonical) (t0 : State) (h0 : execQuantumExpiry k s = .next t0) : t0.Canonical := by
  obtain ⟨_, rfl⟩ := ok_next h0
  clear h0
  try dsimp only
  repeat' first | (with_reducible assumption) | split | (with_reducible apply State.when_canonical <;> intros) | (with_reducible apply State.sbAnswer_canonical <;> intros) | (with_reducible apply State.deliver_canonical <;> intros) | (with_reducible apply State.granted_canonical <;> intros) | (with_reducible apply State.dataArrives_canonical <;> intros) | (with_reducible apply State.withLines_canonical <;> intros) | (with_reducible apply State.withReads_canonical <;> intros) | (with_reducible apply State.whenHeld_canonical <;> intros) | (with_reducible apply State.lookup_canonical <;> intros) | (with_reducible apply State.hostRead_canonical <;> intros) | (with_reducible apply State.hostWrite_canonical <;> intros) | (with_reducible apply State.delivery_canonical <;> intros) | (with_reducible apply State.pageRead_canonical <;> intros) | (with_reducible apply State.pageWrite_canonical <;> intros) | (with_reducible apply State.stewardLines_canonical <;> intros) | (with_reducible apply State.choiceLines_canonical <;> intros) | (with_reducible apply State.preloadRead_canonical <;> intros) | (with_reducible apply State.opStep_canonical <;> intros) | (with_reducible apply State.receive_canonical <;> intros) | (with_reducible apply State.onObject_canonical <;> intros) | (with_reducible apply State.endOwner_canonical <;> intros) | (with_reducible apply State.chipWide_canonical <;> intros) | (with_reducible apply State.kernelStep_canonical <;> intros) | (with_reducible apply State.coreInstr_canonical <;> intros) | (with_reducible apply State.endArrival_canonical <;> intros) | (with_reducible apply State.notice_canonical <;> intros) | (with_reducible apply State.fenceNotice_canonical <;> intros) | (with_reducible apply State.handleStep_canonical <;> intros) | (with_reducible apply State.sysStep_canonical <;> intros) | (with_reducible apply State.forAll_canonical <;> intros) | (with_reducible apply foldl_canonical <;> intros)
  all_goals simp +contextual (maxDischargeDepth := 20) [*]
@[simp] theorem State.blockRun_canonical (s : State) (k fr : Nat) (r : Run) (st : RunState) (hs : s.Canonical) :
    (State.blockRun s k fr r st).Canonical := by
  unfold State.blockRun
  simp +contextual (maxDischargeDepth := 20) [*]
@[simp] theorem State.doneRun_canonical (s : State) (k fr : Nat) (r : Run) (hs : s.Canonical) :
    (State.doneRun s k fr r).Canonical := by
  unfold State.doneRun
  simp +contextual (maxDischargeDepth := 20) [*]
@[simp] theorem State.trap_canonical (s : State) (k fr : Nat) (r : Run) (t : Trap) (hs : s.Canonical) :
    (State.trap s k fr r t).Canonical := by
  unfold State.trap
  (repeat' split) <;> simp +contextual (maxDischargeDepth := 20) [*]
@[simp] theorem State.endCallWith_canonical (s : State) (k fr : Nat) (r : Run) (status : BitVec 8) (detail : BitVec 32) (e : Event) (hs : s.Canonical) :
    (State.endCallWith s k fr r status detail e).Canonical := by
  unfold State.endCallWith
  try dsimp only
  (repeat' split) <;> simp +contextual (maxDischargeDepth := 20) [*]
@[simp] theorem State.settleCore_canonical (s : State) (k : Nat) (hs : s.Canonical) :
    (State.settleCore s k).Canonical := by
  unfold State.settleCore
  try dsimp only
  (repeat' split) <;> simp +contextual (maxDischargeDepth := 20) [*]
@[simp] theorem State.exitRun_canonical (s : State) (k fr : Nat) (r : Run) (hs : s.Canonical) :
    (State.exitRun s k fr r).Canonical := by
  unfold State.exitRun
  try dsimp only
  (repeat' split) <;> simp +contextual (maxDischargeDepth := 20) [*]
theorem State.shippedTurn_canonical (s : State) (k fr : Nat) (r : Run) (hs : s.Canonical) (u : State)
    (h : s.shippedTurn k fr r = some u) : u.Canonical := by
  unfold State.shippedTurn at h
  dsimp only at h
  (repeat' split at h) <;> first
    | (simp only [reduceCtorEq] at h; done)
    | (simp only [Option.some.injEq] at h; subst h; simp +contextual (maxDischargeDepth := 20) [*])
@[simp] theorem State.coreInstr_canonical (s : State) (k : Nat) (w : BitVec 32) (f : State → Nat → Run → State)
    (hs : s.Canonical) (h3 : ∀ (x0 : State) (x1 : Nat) (x2 : Run), x0.Canonical → (f x0 x1 x2).Canonical) :
    (State.coreInstr s k w f).Canonical := by
  unfold State.coreInstr
  dsimp only
  repeat' split
  all_goals first
    | (rename_i h; exact State.shippedTurn_canonical _ _ _ _ (by simp [hs]) _ h)
    | (rename_i h _; exact State.shippedTurn_canonical _ _ _ _ (by simp [hs]) _ h)
    | simp +contextual (maxDischargeDepth := 20) [*]

@[simp] theorem State.aluStep_canonical (s : State) (k rd ra rb fn : Nat) (g : Word → Word → Word) (hs : s.Canonical) :
    (State.aluStep s k rd ra rb fn g).Canonical := by
  unfold State.aluStep
  simp +contextual (maxDischargeDepth := 20) [*]
theorem execAdd_canonical (k rd ra rb : Nat) (s : State) (hs : s.Canonical) (t0 : State) (h0 : execAdd k rd ra rb s = .next t0) : t0.Canonical := by
  obtain ⟨_, rfl⟩ := ok_next h0
  clear h0
  simp +contextual (maxDischargeDepth := 20) [*]
theorem execSub_canonical (k rd ra rb : Nat) (s : State) (hs : s.Canonical) (t0 : State) (h0 : execSub k rd ra rb s = .next t0) : t0.Canonical := by
  obtain ⟨_, rfl⟩ := ok_next h0
  clear h0
  simp +contextual (maxDischargeDepth := 20) [*]
theorem execAnd_canonical (k rd ra rb : Nat) (s : State) (hs : s.Canonical) (t0 : State) (h0 : execAnd k rd ra rb s = .next t0) : t0.Canonical := by
  obtain ⟨_, rfl⟩ := ok_next h0
  clear h0
  simp +contextual (maxDischargeDepth := 20) [*]
theorem execOr_canonical (k rd ra rb : Nat) (s : State) (hs : s.Canonical) (t0 : State) (h0 : execOr k rd ra rb s = .next t0) : t0.Canonical := by
  obtain ⟨_, rfl⟩ := ok_next h0
  clear h0
  simp +contextual (maxDischargeDepth := 20) [*]
theorem execXor_canonical (k rd ra rb : Nat) (s : State) (hs : s.Canonical) (t0 : State) (h0 : execXor k rd ra rb s = .next t0) : t0.Canonical := by
  obtain ⟨_, rfl⟩ := ok_next h0
  clear h0
  simp +contextual (maxDischargeDepth := 20) [*]
theorem execSll_canonical (k rd ra rb : Nat) (s : State) (hs : s.Canonical) (t0 : State) (h0 : execSll k rd ra rb s = .next t0) : t0.Canonical := by
  obtain ⟨_, rfl⟩ := ok_next h0
  clear h0
  simp +contextual (maxDischargeDepth := 20) [*]
theorem execSrl_canonical (k rd ra rb : Nat) (s : State) (hs : s.Canonical) (t0 : State) (h0 : execSrl k rd ra rb s = .next t0) : t0.Canonical := by
  obtain ⟨_, rfl⟩ := ok_next h0
  clear h0
  simp +contextual (maxDischargeDepth := 20) [*]
theorem execSra_canonical (k rd ra rb : Nat) (s : State) (hs : s.Canonical) (t0 : State) (h0 : execSra k rd ra rb s = .next t0) : t0.Canonical := by
  obtain ⟨_, rfl⟩ := ok_next h0
  clear h0
  simp +contextual (maxDischargeDepth := 20) [*]
theorem execMul_canonical (k rd ra rb : Nat) (s : State) (hs : s.Canonical) (t0 : State) (h0 : execMul k rd ra rb s = .next t0) : t0.Canonical := by
  obtain ⟨_, rfl⟩ := ok_next h0
  clear h0
  simp +contextual (maxDischargeDepth := 20) [*]
theorem execMulhu_canonical (k rd ra rb : Nat) (s : State) (hs : s.Canonical) (t0 : State) (h0 : execMulhu k rd ra rb s = .next t0) : t0.Canonical := by
  obtain ⟨_, rfl⟩ := ok_next h0
  clear h0
  simp +contextual (maxDischargeDepth := 20) [*]
theorem execSlt_canonical (k rd ra rb : Nat) (s : State) (hs : s.Canonical) (t0 : State) (h0 : execSlt k rd ra rb s = .next t0) : t0.Canonical := by
  obtain ⟨_, rfl⟩ := ok_next h0
  clear h0
  simp +contextual (maxDischargeDepth := 20) [*]
theorem execSltu_canonical (k rd ra rb : Nat) (s : State) (hs : s.Canonical) (t0 : State) (h0 : execSltu k rd ra rb s = .next t0) : t0.Canonical := by
  obtain ⟨_, rfl⟩ := ok_next h0
  clear h0
  simp +contextual (maxDischargeDepth := 20) [*]
theorem execMin_canonical (k rd ra rb : Nat) (s : State) (hs : s.Canonical) (t0 : State) (h0 : execMin k rd ra rb s = .next t0) : t0.Canonical := by
  obtain ⟨_, rfl⟩ := ok_next h0
  clear h0
  simp +contextual (maxDischargeDepth := 20) [*]
theorem execMax_canonical (k rd ra rb : Nat) (s : State) (hs : s.Canonical) (t0 : State) (h0 : execMax k rd ra rb s = .next t0) : t0.Canonical := by
  obtain ⟨_, rfl⟩ := ok_next h0
  clear h0
  simp +contextual (maxDischargeDepth := 20) [*]
theorem execMinu_canonical (k rd ra rb : Nat) (s : State) (hs : s.Canonical) (t0 : State) (h0 : execMinu k rd ra rb s = .next t0) : t0.Canonical := by
  obtain ⟨_, rfl⟩ := ok_next h0
  clear h0
  simp +contextual (maxDischargeDepth := 20) [*]
theorem execMaxu_canonical (k rd ra rb : Nat) (s : State) (hs : s.Canonical) (t0 : State) (h0 : execMaxu k rd ra rb s = .next t0) : t0.Canonical := by
  obtain ⟨_, rfl⟩ := ok_next h0
  clear h0
  simp +contextual (maxDischargeDepth := 20) [*]
theorem execClz_canonical (k rd ra rb : Nat) (s : State) (hs : s.Canonical) (t0 : State) (h0 : execClz k rd ra rb s = .next t0) : t0.Canonical := by
  obtain ⟨_, rfl⟩ := ok_next h0
  clear h0
  simp +contextual (maxDischargeDepth := 20) [*]
theorem execPopc_canonical (k rd ra rb : Nat) (s : State) (hs : s.Canonical) (t0 : State) (h0 : execPopc k rd ra rb s = .next t0) : t0.Canonical := by
  obtain ⟨_, rfl⟩ := ok_next h0
  clear h0
  simp +contextual (maxDischargeDepth := 20) [*]
@[simp] theorem State.immStep_canonical (s : State) (k maj rd ra : Nat) (imm : BitVec 16) (g : Word → Word) (hs : s.Canonical) :
    (State.immStep s k maj rd ra imm g).Canonical := by
  unfold State.immStep
  simp +contextual (maxDischargeDepth := 20) [*]
theorem execAddi_canonical (k rd ra : Nat) (imm : BitVec 16) (s : State) (hs : s.Canonical) (t0 : State) (h0 : execAddi k rd ra imm s = .next t0) : t0.Canonical := by
  obtain ⟨_, rfl⟩ := ok_next h0
  clear h0
  simp +contextual (maxDischargeDepth := 20) [*]
theorem execAndi_canonical (k rd ra : Nat) (imm : BitVec 16) (s : State) (hs : s.Canonical) (t0 : State) (h0 : execAndi k rd ra imm s = .next t0) : t0.Canonical := by
  obtain ⟨_, rfl⟩ := ok_next h0
  clear h0
  simp +contextual (maxDischargeDepth := 20) [*]
theorem execOri_canonical (k rd ra : Nat) (imm : BitVec 16) (s : State) (hs : s.Canonical) (t0 : State) (h0 : execOri k rd ra imm s = .next t0) : t0.Canonical := by
  obtain ⟨_, rfl⟩ := ok_next h0
  clear h0
  simp +contextual (maxDischargeDepth := 20) [*]
theorem execXori_canonical (k rd ra : Nat) (imm : BitVec 16) (s : State) (hs : s.Canonical) (t0 : State) (h0 : execXori k rd ra imm s = .next t0) : t0.Canonical := by
  obtain ⟨_, rfl⟩ := ok_next h0
  clear h0
  simp +contextual (maxDischargeDepth := 20) [*]
theorem execShifti_canonical (k rd ra : Nat) (imm : BitVec 16) (s : State) (hs : s.Canonical) (t0 : State) (h0 : execShifti k rd ra imm s = .next t0) : t0.Canonical := by
  obtain ⟨_, rfl⟩ := ok_next h0
  clear h0
  simp +contextual (maxDischargeDepth := 20) [*]
theorem execLui_canonical (k rd ra : Nat) (imm : BitVec 16) (s : State) (hs : s.Canonical) (t0 : State) (h0 : execLui k rd ra imm s = .next t0) : t0.Canonical := by
  obtain ⟨_, rfl⟩ := ok_next h0
  clear h0
  simp +contextual (maxDischargeDepth := 20) [*]
theorem execShori_canonical (k rd ra : Nat) (imm : BitVec 16) (s : State) (hs : s.Canonical) (t0 : State) (h0 : execShori k rd ra imm s = .next t0) : t0.Canonical := by
  obtain ⟨_, rfl⟩ := ok_next h0
  clear h0
  simp +contextual (maxDischargeDepth := 20) [*]
@[simp] theorem State.loadStep_canonical (s : State) (k maj rd ra : Nat) (imm : BitVec 16) (n : Nat) (hs : s.Canonical) :
    (State.loadStep s k maj rd ra imm n).Canonical := by
  unfold State.loadStep
  try dsimp only
  repeat' first | (with_reducible assumption) | split | (with_reducible apply State.when_canonical <;> intros) | (with_reducible apply State.sbAnswer_canonical <;> intros) | (with_reducible apply State.deliver_canonical <;> intros) | (with_reducible apply State.granted_canonical <;> intros) | (with_reducible apply State.dataArrives_canonical <;> intros) | (with_reducible apply State.withLines_canonical <;> intros) | (with_reducible apply State.withReads_canonical <;> intros) | (with_reducible apply State.whenHeld_canonical <;> intros) | (with_reducible apply State.lookup_canonical <;> intros) | (with_reducible apply State.hostRead_canonical <;> intros) | (with_reducible apply State.hostWrite_canonical <;> intros) | (with_reducible apply State.delivery_canonical <;> intros) | (with_reducible apply State.pageRead_canonical <;> intros) | (with_reducible apply State.pageWrite_canonical <;> intros) | (with_reducible apply State.stewardLines_canonical <;> intros) | (with_reducible apply State.choiceLines_canonical <;> intros) | (with_reducible apply State.preloadRead_canonical <;> intros) | (with_reducible apply State.opStep_canonical <;> intros) | (with_reducible apply State.receive_canonical <;> intros) | (with_reducible apply State.onObject_canonical <;> intros) | (with_reducible apply State.endOwner_canonical <;> intros) | (with_reducible apply State.chipWide_canonical <;> intros) | (with_reducible apply State.kernelStep_canonical <;> intros) | (with_reducible apply State.coreInstr_canonical <;> intros) | (with_reducible apply State.endArrival_canonical <;> intros) | (with_reducible apply State.notice_canonical <;> intros) | (with_reducible apply State.fenceNotice_canonical <;> intros) | (with_reducible apply State.handleStep_canonical <;> intros) | (with_reducible apply State.sysStep_canonical <;> intros) | (with_reducible apply State.forAll_canonical <;> intros) | (with_reducible apply foldl_canonical <;> intros)
  all_goals simp +contextual (maxDischargeDepth := 20) [*]
@[simp] theorem State.storeStep_canonical (s : State) (k maj rd ra : Nat) (imm : BitVec 16) (n : Nat) (hs : s.Canonical) :
    (State.storeStep s k maj rd ra imm n).Canonical := by
  unfold State.storeStep
  try dsimp only
  repeat' first | (with_reducible assumption) | split | (with_reducible apply State.when_canonical <;> intros) | (with_reducible apply State.sbAnswer_canonical <;> intros) | (with_reducible apply State.deliver_canonical <;> intros) | (with_reducible apply State.granted_canonical <;> intros) | (with_reducible apply State.dataArrives_canonical <;> intros) | (with_reducible apply State.withLines_canonical <;> intros) | (with_reducible apply State.withReads_canonical <;> intros) | (with_reducible apply State.whenHeld_canonical <;> intros) | (with_reducible apply State.lookup_canonical <;> intros) | (with_reducible apply State.hostRead_canonical <;> intros) | (with_reducible apply State.hostWrite_canonical <;> intros) | (with_reducible apply State.delivery_canonical <;> intros) | (with_reducible apply State.pageRead_canonical <;> intros) | (with_reducible apply State.pageWrite_canonical <;> intros) | (with_reducible apply State.stewardLines_canonical <;> intros) | (with_reducible apply State.choiceLines_canonical <;> intros) | (with_reducible apply State.preloadRead_canonical <;> intros) | (with_reducible apply State.opStep_canonical <;> intros) | (with_reducible apply State.receive_canonical <;> intros) | (with_reducible apply State.onObject_canonical <;> intros) | (with_reducible apply State.endOwner_canonical <;> intros) | (with_reducible apply State.chipWide_canonical <;> intros) | (with_reducible apply State.kernelStep_canonical <;> intros) | (with_reducible apply State.coreInstr_canonical <;> intros) | (with_reducible apply State.endArrival_canonical <;> intros) | (with_reducible apply State.notice_canonical <;> intros) | (with_reducible apply State.fenceNotice_canonical <;> intros) | (with_reducible apply State.handleStep_canonical <;> intros) | (with_reducible apply State.sysStep_canonical <;> intros) | (with_reducible apply State.forAll_canonical <;> intros) | (with_reducible apply foldl_canonical <;> intros)
  all_goals simp +contextual (maxDischargeDepth := 20) [*]
theorem execLd_canonical (k rd ra : Nat) (imm : BitVec 16) (s : State) (hs : s.Canonical) (t0 : State) (h0 : execLd k rd ra imm s = .next t0) : t0.Canonical := by
  obtain ⟨_, rfl⟩ := ok_next h0
  clear h0
  simp +contextual (maxDischargeDepth := 20) [*]
theorem execLw_canonical (k rd ra : Nat) (imm : BitVec 16) (s : State) (hs : s.Canonical) (t0 : State) (h0 : execLw k rd ra imm s = .next t0) : t0.Canonical := by
  obtain ⟨_, rfl⟩ := ok_next h0
  clear h0
  simp +contextual (maxDischargeDepth := 20) [*]
theorem execLb_canonical (k rd ra : Nat) (imm : BitVec 16) (s : State) (hs : s.Canonical) (t0 : State) (h0 : execLb k rd ra imm s = .next t0) : t0.Canonical := by
  obtain ⟨_, rfl⟩ := ok_next h0
  clear h0
  simp +contextual (maxDischargeDepth := 20) [*]
theorem execSt_canonical (k rd ra : Nat) (imm : BitVec 16) (s : State) (hs : s.Canonical) (t0 : State) (h0 : execSt k rd ra imm s = .next t0) : t0.Canonical := by
  obtain ⟨_, rfl⟩ := ok_next h0
  clear h0
  simp +contextual (maxDischargeDepth := 20) [*]
theorem execSw_canonical (k rd ra : Nat) (imm : BitVec 16) (s : State) (hs : s.Canonical) (t0 : State) (h0 : execSw k rd ra imm s = .next t0) : t0.Canonical := by
  obtain ⟨_, rfl⟩ := ok_next h0
  clear h0
  simp +contextual (maxDischargeDepth := 20) [*]
theorem execSb_canonical (k rd ra : Nat) (imm : BitVec 16) (s : State) (hs : s.Canonical) (t0 : State) (h0 : execSb k rd ra imm s = .next t0) : t0.Canonical := by
  obtain ⟨_, rfl⟩ := ok_next h0
  clear h0
  simp +contextual (maxDischargeDepth := 20) [*]
@[simp] theorem State.loopStep_canonical (s : State) (k ra rb : Nat) (off : BitVec 16) (hs : s.Canonical) :
    (State.loopStep s k ra rb off).Canonical := by
  unfold State.loopStep
  try dsimp only
  repeat' first | (with_reducible assumption) | split | (with_reducible apply State.when_canonical <;> intros) | (with_reducible apply State.sbAnswer_canonical <;> intros) | (with_reducible apply State.deliver_canonical <;> intros) | (with_reducible apply State.granted_canonical <;> intros) | (with_reducible apply State.dataArrives_canonical <;> intros) | (with_reducible apply State.withLines_canonical <;> intros) | (with_reducible apply State.withReads_canonical <;> intros) | (with_reducible apply State.whenHeld_canonical <;> intros) | (with_reducible apply State.lookup_canonical <;> intros) | (with_reducible apply State.hostRead_canonical <;> intros) | (with_reducible apply State.hostWrite_canonical <;> intros) | (with_reducible apply State.delivery_canonical <;> intros) | (with_reducible apply State.pageRead_canonical <;> intros) | (with_reducible apply State.pageWrite_canonical <;> intros) | (with_reducible apply State.stewardLines_canonical <;> intros) | (with_reducible apply State.choiceLines_canonical <;> intros) | (with_reducible apply State.preloadRead_canonical <;> intros) | (with_reducible apply State.opStep_canonical <;> intros) | (with_reducible apply State.receive_canonical <;> intros) | (with_reducible apply State.onObject_canonical <;> intros) | (with_reducible apply State.endOwner_canonical <;> intros) | (with_reducible apply State.chipWide_canonical <;> intros) | (with_reducible apply State.kernelStep_canonical <;> intros) | (with_reducible apply State.coreInstr_canonical <;> intros) | (with_reducible apply State.endArrival_canonical <;> intros) | (with_reducible apply State.notice_canonical <;> intros) | (with_reducible apply State.fenceNotice_canonical <;> intros) | (with_reducible apply State.handleStep_canonical <;> intros) | (with_reducible apply State.sysStep_canonical <;> intros) | (with_reducible apply State.forAll_canonical <;> intros) | (with_reducible apply foldl_canonical <;> intros)
  all_goals simp +contextual (maxDischargeDepth := 20) [*]
theorem execLoop_canonical (k ra rb : Nat) (off : BitVec 16) (s : State) (hs : s.Canonical) (t0 : State) (h0 : execLoop k ra rb off s = .next t0) : t0.Canonical := by
  obtain ⟨_, rfl⟩ := ok_next h0
  clear h0
  simp +contextual (maxDischargeDepth := 20) [*]
@[simp] theorem State.branchStep_canonical (s : State) (k maj ra rb : Nat) (off : BitVec 16) (g : Word → Word → Bool) (hs : s.Canonical) :
    (State.branchStep s k maj ra rb off g).Canonical := by
  unfold State.branchStep
  try dsimp only
  repeat' first | (with_reducible assumption) | split | (with_reducible apply State.when_canonical <;> intros) | (with_reducible apply State.sbAnswer_canonical <;> intros) | (with_reducible apply State.deliver_canonical <;> intros) | (with_reducible apply State.granted_canonical <;> intros) | (with_reducible apply State.dataArrives_canonical <;> intros) | (with_reducible apply State.withLines_canonical <;> intros) | (with_reducible apply State.withReads_canonical <;> intros) | (with_reducible apply State.whenHeld_canonical <;> intros) | (with_reducible apply State.lookup_canonical <;> intros) | (with_reducible apply State.hostRead_canonical <;> intros) | (with_reducible apply State.hostWrite_canonical <;> intros) | (with_reducible apply State.delivery_canonical <;> intros) | (with_reducible apply State.pageRead_canonical <;> intros) | (with_reducible apply State.pageWrite_canonical <;> intros) | (with_reducible apply State.stewardLines_canonical <;> intros) | (with_reducible apply State.choiceLines_canonical <;> intros) | (with_reducible apply State.preloadRead_canonical <;> intros) | (with_reducible apply State.opStep_canonical <;> intros) | (with_reducible apply State.receive_canonical <;> intros) | (with_reducible apply State.onObject_canonical <;> intros) | (with_reducible apply State.endOwner_canonical <;> intros) | (with_reducible apply State.chipWide_canonical <;> intros) | (with_reducible apply State.kernelStep_canonical <;> intros) | (with_reducible apply State.coreInstr_canonical <;> intros) | (with_reducible apply State.endArrival_canonical <;> intros) | (with_reducible apply State.notice_canonical <;> intros) | (with_reducible apply State.fenceNotice_canonical <;> intros) | (with_reducible apply State.handleStep_canonical <;> intros) | (with_reducible apply State.sysStep_canonical <;> intros) | (with_reducible apply State.forAll_canonical <;> intros) | (with_reducible apply foldl_canonical <;> intros)
  all_goals simp +contextual (maxDischargeDepth := 20) [*]
theorem execBeq_canonical (k ra rb : Nat) (off : BitVec 16) (s : State) (hs : s.Canonical) (t0 : State) (h0 : execBeq k ra rb off s = .next t0) : t0.Canonical := by
  obtain ⟨_, rfl⟩ := ok_next h0
  clear h0
  simp +contextual (maxDischargeDepth := 20) [*]
theorem execBne_canonical (k ra rb : Nat) (off : BitVec 16) (s : State) (hs : s.Canonical) (t0 : State) (h0 : execBne k ra rb off s = .next t0) : t0.Canonical := by
  obtain ⟨_, rfl⟩ := ok_next h0
  clear h0
  simp +contextual (maxDischargeDepth := 20) [*]
theorem execBlt_canonical (k ra rb : Nat) (off : BitVec 16) (s : State) (hs : s.Canonical) (t0 : State) (h0 : execBlt k ra rb off s = .next t0) : t0.Canonical := by
  obtain ⟨_, rfl⟩ := ok_next h0
  clear h0
  simp +contextual (maxDischargeDepth := 20) [*]
theorem execBge_canonical (k ra rb : Nat) (off : BitVec 16) (s : State) (hs : s.Canonical) (t0 : State) (h0 : execBge k ra rb off s = .next t0) : t0.Canonical := by
  obtain ⟨_, rfl⟩ := ok_next h0
  clear h0
  simp +contextual (maxDischargeDepth := 20) [*]
theorem execBltu_canonical (k ra rb : Nat) (off : BitVec 16) (s : State) (hs : s.Canonical) (t0 : State) (h0 : execBltu k ra rb off s = .next t0) : t0.Canonical := by
  obtain ⟨_, rfl⟩ := ok_next h0
  clear h0
  simp +contextual (maxDischargeDepth := 20) [*]
theorem execBgeu_canonical (k ra rb : Nat) (off : BitVec 16) (s : State) (hs : s.Canonical) (t0 : State) (h0 : execBgeu k ra rb off s = .next t0) : t0.Canonical := by
  obtain ⟨_, rfl⟩ := ok_next h0
  clear h0
  simp +contextual (maxDischargeDepth := 20) [*]
theorem execJal_canonical (k : Nat) (off : BitVec 26) (s : State) (hs : s.Canonical) (t0 : State) (h0 : execJal k off s = .next t0) : t0.Canonical := by
  obtain ⟨_, rfl⟩ := ok_next h0
  clear h0
  simp +contextual (maxDischargeDepth := 20) [*]
theorem execJ_canonical (k : Nat) (off : BitVec 26) (s : State) (hs : s.Canonical) (t0 : State) (h0 : execJ k off s = .next t0) : t0.Canonical := by
  obtain ⟨_, rfl⟩ := ok_next h0
  clear h0
  simp +contextual (maxDischargeDepth := 20) [*]
theorem execJalr_canonical (k rd ra rb : Nat) (s : State) (hs : s.Canonical) (t0 : State) (h0 : execJalr k rd ra rb s = .next t0) : t0.Canonical := by
  obtain ⟨_, rfl⟩ := ok_next h0
  clear h0
  try dsimp only
  repeat' first | (with_reducible assumption) | split | (with_reducible apply State.when_canonical <;> intros) | (with_reducible apply State.sbAnswer_canonical <;> intros) | (with_reducible apply State.deliver_canonical <;> intros) | (with_reducible apply State.granted_canonical <;> intros) | (with_reducible apply State.dataArrives_canonical <;> intros) | (with_reducible apply State.withLines_canonical <;> intros) | (with_reducible apply State.withReads_canonical <;> intros) | (with_reducible apply State.whenHeld_canonical <;> intros) | (with_reducible apply State.lookup_canonical <;> intros) | (with_reducible apply State.hostRead_canonical <;> intros) | (with_reducible apply State.hostWrite_canonical <;> intros) | (with_reducible apply State.delivery_canonical <;> intros) | (with_reducible apply State.pageRead_canonical <;> intros) | (with_reducible apply State.pageWrite_canonical <;> intros) | (with_reducible apply State.stewardLines_canonical <;> intros) | (with_reducible apply State.choiceLines_canonical <;> intros) | (with_reducible apply State.preloadRead_canonical <;> intros) | (with_reducible apply State.opStep_canonical <;> intros) | (with_reducible apply State.receive_canonical <;> intros) | (with_reducible apply State.onObject_canonical <;> intros) | (with_reducible apply State.endOwner_canonical <;> intros) | (with_reducible apply State.chipWide_canonical <;> intros) | (with_reducible apply State.kernelStep_canonical <;> intros) | (with_reducible apply State.coreInstr_canonical <;> intros) | (with_reducible apply State.endArrival_canonical <;> intros) | (with_reducible apply State.notice_canonical <;> intros) | (with_reducible apply State.fenceNotice_canonical <;> intros) | (with_reducible apply State.handleStep_canonical <;> intros) | (with_reducible apply State.sysStep_canonical <;> intros) | (with_reducible apply State.forAll_canonical <;> intros) | (with_reducible apply foldl_canonical <;> intros)
  all_goals (try simp only [])
  all_goals (repeat' first | (with_reducible assumption) | split | (with_reducible apply State.when_canonical <;> intros) | (with_reducible apply State.sbAnswer_canonical <;> intros) | (with_reducible apply State.deliver_canonical <;> intros) | (with_reducible apply State.granted_canonical <;> intros) | (with_reducible apply State.dataArrives_canonical <;> intros) | (with_reducible apply State.withLines_canonical <;> intros) | (with_reducible apply State.withReads_canonical <;> intros) | (with_reducible apply State.whenHeld_canonical <;> intros) | (with_reducible apply State.lookup_canonical <;> intros) | (with_reducible apply State.hostRead_canonical <;> intros) | (with_reducible apply State.hostWrite_canonical <;> intros) | (with_reducible apply State.delivery_canonical <;> intros) | (with_reducible apply State.pageRead_canonical <;> intros) | (with_reducible apply State.pageWrite_canonical <;> intros) | (with_reducible apply State.stewardLines_canonical <;> intros) | (with_reducible apply State.choiceLines_canonical <;> intros) | (with_reducible apply State.preloadRead_canonical <;> intros) | (with_reducible apply State.opStep_canonical <;> intros) | (with_reducible apply State.receive_canonical <;> intros) | (with_reducible apply State.onObject_canonical <;> intros) | (with_reducible apply State.endOwner_canonical <;> intros) | (with_reducible apply State.chipWide_canonical <;> intros) | (with_reducible apply State.kernelStep_canonical <;> intros) | (with_reducible apply State.coreInstr_canonical <;> intros) | (with_reducible apply State.endArrival_canonical <;> intros) | (with_reducible apply State.notice_canonical <;> intros) | (with_reducible apply State.fenceNotice_canonical <;> intros) | (with_reducible apply State.handleStep_canonical <;> intros) | (with_reducible apply State.sysStep_canonical <;> intros) | (with_reducible apply State.forAll_canonical <;> intros) | (with_reducible apply foldl_canonical <;> intros))
  all_goals simp_all +contextual (maxDischargeDepth := 20)
@[simp] theorem State.loadStale_canonical (s : State) (e : Stale) (hs : s.Canonical) :
    (State.loadStale s e).Canonical := by
  unfold State.loadStale
  simp +contextual (maxDischargeDepth := 20) [*]
@[simp] theorem State.dropStale_canonical (s : State) (e : Stale) (hs : s.Canonical) :
    (State.dropStale s e).Canonical := by
  unfold State.dropStale
  simp +contextual (maxDischargeDepth := 20) [*]
@[simp] theorem State.addStale_canonical (s : State) (e : Stale) (hs : s.Canonical) :
    (State.addStale s e).Canonical := by
  unfold State.addStale
  (repeat' split) <;> simp +contextual (maxDischargeDepth := 20) [*]
@[simp] theorem State.replaceStale_canonical (s : State) (p : Nat) (x : BitVec 14) (k : StaleKind) (due : Nat) (hs : s.Canonical) :
    (State.replaceStale s p x k due).Canonical := by
  unfold State.replaceStale
  simp +contextual (maxDischargeDepth := 20) [*]
@[simp] theorem State.countFence_canonical (s : State) (n : Nat) (hs : s.Canonical) :
    (State.countFence s n).Canonical := by
  unfold State.countFence
  try dsimp only
  (repeat' split) <;> simp +contextual (maxDischargeDepth := 20) [*]
@[simp] theorem State.countReady_canonical (s : State) (x : Nat) (hs : s.Canonical) :
    (State.countReady s x).Canonical := by
  unfold State.countReady
  (repeat' split) <;> simp +contextual (maxDischargeDepth := 20) [*]
@[simp] theorem State.sendFall_canonical (s : State) (seq : BitVec 48) (hs : s.Canonical) :
    (State.sendFall s seq).Canonical := by
  unfold State.sendFall
  simp +contextual (maxDischargeDepth := 20) [*]
@[simp] theorem State.endArrival_canonical (s : State) (n : Nat) (f : State → Node → State) (hs : s.Canonical) (h2 : ∀ (x0 : State) (x1 : Node), x0.Canonical → (f x0 x1).Canonical) :
    (State.endArrival s n f).Canonical := by
  unfold State.endArrival
  (repeat' split) <;> simp +contextual (maxDischargeDepth := 20) [*]
@[simp] theorem State.fenceFalls_canonical (s : State) (hs : s.Canonical) :
    (State.fenceFalls s).Canonical := by
  unfold State.fenceFalls
  try dsimp only
  (repeat' split) <;> simp +contextual (maxDischargeDepth := 20) [*]
@[simp] theorem State.fenceDue_canonical (s : State) (hs : s.Canonical) :
    (State.fenceDue s).Canonical := by
  unfold State.fenceDue
  (repeat' split) <;> simp +contextual (maxDischargeDepth := 20) [*]
@[simp] theorem State.sendReady_canonical (s : State) (hs : s.Canonical) :
    (State.sendReady s).Canonical := by
  unfold State.sendReady
  simp +contextual (maxDischargeDepth := 20) [*]
@[simp] theorem State.settleFence_canonical (s : State) (k : Nat) (hs : s.Canonical) :
    (s.settleFence k).Canonical := by
  induction k generalizing s with
  | zero => exact hs
  | succ k ih =>
    unfold State.settleFence
    dsimp only
    (repeat' split) <;> simp (maxDischargeDepth := 20) [*]
@[simp] theorem State.fenceFollow_canonical (s : State) (hs : s.Canonical) :
    (State.fenceFollow s).Canonical := by
  unfold State.fenceFollow
  simp +contextual (maxDischargeDepth := 20) [*]
@[simp] theorem State.fenceStep_canonical (s : State) (n : Nat) (d : Node) (hs : s.Canonical) :
    (State.fenceStep s n d).Canonical := by
  unfold State.fenceStep
  (repeat' split) <;> simp +contextual (maxDischargeDepth := 20) [*]
theorem execFenceStep_canonical (n : Nat) (s : State) (hs : s.Canonical) (t0 : State) (h0 : execFenceStep n s = .next t0) : t0.Canonical := by
  obtain ⟨_, rfl⟩ := ok_next h0
  clear h0
  simp +contextual (maxDischargeDepth := 20) [*]
@[simp] theorem State.losesFence_canonical (s : State) (detail : BitVec 32) (n : Nat) (hs : s.Canonical) :
    (State.losesFence s detail n).Canonical := by
  unfold State.losesFence
  simp +contextual (maxDischargeDepth := 20) [*]
@[simp] theorem State.abandonFence_canonical (s : State) (detail : BitVec 32) (hs : s.Canonical) :
    (State.abandonFence s detail).Canonical := by
  unfold State.abandonFence
  simp +contextual (maxDischargeDepth := 20) [*]
@[simp] theorem State.sendAbandon_canonical (s : State) (hs : s.Canonical) :
    (State.sendAbandon s).Canonical := by
  unfold State.sendAbandon
  simp +contextual (maxDischargeDepth := 20) [*]
@[simp] theorem State.peerFence_canonical (s : State) (p : Nat) (x : BitVec 14) (detail : BitVec 32) (hs : s.Canonical) :
    (State.peerFence s p x detail).Canonical := by
  unfold State.peerFence
  try dsimp only
  (repeat' split) <;> simp +contextual (maxDischargeDepth := 20) [*]
@[simp] theorem State.fenceRepeat_canonical (s : State) (hs : s.Canonical) :
    (State.fenceRepeat s).Canonical := by
  unfold State.fenceRepeat
  (repeat' split) <;> simp +contextual (maxDischargeDepth := 20) [*]
@[simp] theorem State.loseOwner_canonical (s : State) (o : Owner) (src : Nat → Nat) (detail : BitVec 32) (hs : s.Canonical) :
    (State.loseOwner s o src detail).Canonical := by
  unfold State.loseOwner
  (repeat' split) <;> simp +contextual (maxDischargeDepth := 20) [*]
@[simp] theorem State.breakObject_canonical (s : State) (x : BitVec 14) (chipgen : BitVec 8) (n : Nat) (hs : s.Canonical) :
    (State.breakObject s x chipgen n).Canonical := by
  unfold State.breakObject
  try dsimp only
  (repeat' split) <;> simp +contextual (maxDischargeDepth := 20) [*]
@[simp] theorem State.breakHeld_canonical (s : State) (x : BitVec 14) (chipgen : BitVec 8) (n : Nat) (hs : s.Canonical) :
    (State.breakHeld s x chipgen n).Canonical := by
  unfold State.breakHeld
  simp +contextual (maxDischargeDepth := 20) [*]
@[simp] theorem State.loseWaits_canonical (s : State) (p : Nat) (ns : List Nat) (detail : BitVec 32) (hs : s.Canonical) :
    (State.loseWaits s p ns detail).Canonical := by
  unfold State.loseWaits
  simp +contextual (maxDischargeDepth := 20) [*]
@[simp] theorem State.losePeer_canonical (s : State) (p : Nat) (x : BitVec 14) (chipgen : BitVec 8) (hs : s.Canonical) :
    (State.losePeer s p x chipgen).Canonical := by
  unfold State.losePeer
  simp +contextual (maxDischargeDepth := 20) [*]
@[simp] theorem State.notice_canonical (s : State) (c : Instr) (m : Notice) (typ : Nat) (f : State → State) (hs : s.Canonical) (h4 : ∀ (x0 : State), x0.Canonical → (f x0).Canonical) :
    (State.notice s c m typ f).Canonical := by
  unfold State.notice
  try dsimp only
  repeat' first | (with_reducible assumption) | split | (with_reducible apply State.when_canonical <;> intros) | (with_reducible apply State.sbAnswer_canonical <;> intros) | (with_reducible apply State.deliver_canonical <;> intros) | (with_reducible apply State.granted_canonical <;> intros) | (with_reducible apply State.dataArrives_canonical <;> intros) | (with_reducible apply State.withLines_canonical <;> intros) | (with_reducible apply State.withReads_canonical <;> intros) | (with_reducible apply State.whenHeld_canonical <;> intros) | (with_reducible apply State.lookup_canonical <;> intros) | (with_reducible apply State.hostRead_canonical <;> intros) | (with_reducible apply State.hostWrite_canonical <;> intros) | (with_reducible apply State.delivery_canonical <;> intros) | (with_reducible apply State.pageRead_canonical <;> intros) | (with_reducible apply State.pageWrite_canonical <;> intros) | (with_reducible apply State.stewardLines_canonical <;> intros) | (with_reducible apply State.choiceLines_canonical <;> intros) | (with_reducible apply State.preloadRead_canonical <;> intros) | (with_reducible apply State.opStep_canonical <;> intros) | (with_reducible apply State.receive_canonical <;> intros) | (with_reducible apply State.onObject_canonical <;> intros) | (with_reducible apply State.endOwner_canonical <;> intros) | (with_reducible apply State.chipWide_canonical <;> intros) | (with_reducible apply State.kernelStep_canonical <;> intros) | (with_reducible apply State.coreInstr_canonical <;> intros) | (with_reducible apply State.endArrival_canonical <;> intros) | (with_reducible apply State.notice_canonical <;> intros) | (with_reducible apply State.fenceNotice_canonical <;> intros) | (with_reducible apply State.handleStep_canonical <;> intros) | (with_reducible apply State.sysStep_canonical <;> intros) | (with_reducible apply State.forAll_canonical <;> intros) | (with_reducible apply foldl_canonical <;> intros)
  all_goals simp +contextual (maxDischargeDepth := 20) [*]
@[simp] theorem State.doPeerlost_canonical (s : State) (m : Notice) (hs : s.Canonical) :
    (State.doPeerlost s m).Canonical := by
  unfold State.doPeerlost
  try dsimp only
  (repeat' split) <;> simp +contextual (maxDischargeDepth := 20) [*]
theorem execPeerlost_canonical (m : Notice) (s : State) (hs : s.Canonical) (t0 : State) (h0 : execPeerlost m s = .next t0) : t0.Canonical := by
  obtain ⟨_, rfl⟩ := ok_next h0
  clear h0
  simp +contextual (maxDischargeDepth := 20) [*]
theorem execChipFault_canonical (m : Notice) (s : State) (hs : s.Canonical) (t0 : State) (h0 : execChipFault m s = .next t0) : t0.Canonical := by
  obtain ⟨_, rfl⟩ := ok_next h0
  clear h0
  simp +contextual (maxDischargeDepth := 20) [*]
@[simp] theorem State.doWithdraw_canonical (s : State) (m : Notice) (hs : s.Canonical) :
    (State.doWithdraw s m).Canonical := by
  unfold State.doWithdraw
  try dsimp only
  (repeat' split) <;> simp +contextual (maxDischargeDepth := 20) [*]
theorem execWithdraw_canonical (m : Notice) (s : State) (hs : s.Canonical) (t0 : State) (h0 : execWithdraw m s = .next t0) : t0.Canonical := by
  obtain ⟨_, rfl⟩ := ok_next h0
  clear h0
  simp +contextual (maxDischargeDepth := 20) [*]
@[simp] theorem State.fenceNotice_canonical (s : State) (c : Instr) (m : Notice) (ftype : Nat) (f : State → State) (hs : s.Canonical) (h4 : ∀ (x0 : State), x0.Canonical → (f x0).Canonical) :
    (State.fenceNotice s c m ftype f).Canonical := by
  unfold State.fenceNotice
  try dsimp only
  repeat' first | (with_reducible assumption) | split | (with_reducible apply State.when_canonical <;> intros) | (with_reducible apply State.sbAnswer_canonical <;> intros) | (with_reducible apply State.deliver_canonical <;> intros) | (with_reducible apply State.granted_canonical <;> intros) | (with_reducible apply State.dataArrives_canonical <;> intros) | (with_reducible apply State.withLines_canonical <;> intros) | (with_reducible apply State.withReads_canonical <;> intros) | (with_reducible apply State.whenHeld_canonical <;> intros) | (with_reducible apply State.lookup_canonical <;> intros) | (with_reducible apply State.hostRead_canonical <;> intros) | (with_reducible apply State.hostWrite_canonical <;> intros) | (with_reducible apply State.delivery_canonical <;> intros) | (with_reducible apply State.pageRead_canonical <;> intros) | (with_reducible apply State.pageWrite_canonical <;> intros) | (with_reducible apply State.stewardLines_canonical <;> intros) | (with_reducible apply State.choiceLines_canonical <;> intros) | (with_reducible apply State.preloadRead_canonical <;> intros) | (with_reducible apply State.opStep_canonical <;> intros) | (with_reducible apply State.receive_canonical <;> intros) | (with_reducible apply State.onObject_canonical <;> intros) | (with_reducible apply State.endOwner_canonical <;> intros) | (with_reducible apply State.chipWide_canonical <;> intros) | (with_reducible apply State.kernelStep_canonical <;> intros) | (with_reducible apply State.coreInstr_canonical <;> intros) | (with_reducible apply State.endArrival_canonical <;> intros) | (with_reducible apply State.notice_canonical <;> intros) | (with_reducible apply State.fenceNotice_canonical <;> intros) | (with_reducible apply State.handleStep_canonical <;> intros) | (with_reducible apply State.sysStep_canonical <;> intros) | (with_reducible apply State.forAll_canonical <;> intros) | (with_reducible apply foldl_canonical <;> intros)
  all_goals simp +contextual (maxDischargeDepth := 20) [*]
@[simp] theorem State.fenceMismatch_canonical (s : State) (hs : s.Canonical) :
    (State.fenceMismatch s).Canonical := by
  unfold State.fenceMismatch
  simp +contextual (maxDischargeDepth := 20) [*]
theorem execFenceReady_canonical (m : Notice) (s : State) (hs : s.Canonical) (t0 : State) (h0 : execFenceReady m s = .next t0) : t0.Canonical := by
  obtain ⟨_, rfl⟩ := ok_next h0
  clear h0
  try dsimp only
  repeat' first | (with_reducible assumption) | split | (with_reducible apply State.when_canonical <;> intros) | (with_reducible apply State.sbAnswer_canonical <;> intros) | (with_reducible apply State.deliver_canonical <;> intros) | (with_reducible apply State.granted_canonical <;> intros) | (with_reducible apply State.dataArrives_canonical <;> intros) | (with_reducible apply State.withLines_canonical <;> intros) | (with_reducible apply State.withReads_canonical <;> intros) | (with_reducible apply State.whenHeld_canonical <;> intros) | (with_reducible apply State.lookup_canonical <;> intros) | (with_reducible apply State.hostRead_canonical <;> intros) | (with_reducible apply State.hostWrite_canonical <;> intros) | (with_reducible apply State.delivery_canonical <;> intros) | (with_reducible apply State.pageRead_canonical <;> intros) | (with_reducible apply State.pageWrite_canonical <;> intros) | (with_reducible apply State.stewardLines_canonical <;> intros) | (with_reducible apply State.choiceLines_canonical <;> intros) | (with_reducible apply State.preloadRead_canonical <;> intros) | (with_reducible apply State.opStep_canonical <;> intros) | (with_reducible apply State.receive_canonical <;> intros) | (with_reducible apply State.onObject_canonical <;> intros) | (with_reducible apply State.endOwner_canonical <;> intros) | (with_reducible apply State.chipWide_canonical <;> intros) | (with_reducible apply State.kernelStep_canonical <;> intros) | (with_reducible apply State.coreInstr_canonical <;> intros) | (with_reducible apply State.endArrival_canonical <;> intros) | (with_reducible apply State.notice_canonical <;> intros) | (with_reducible apply State.fenceNotice_canonical <;> intros) | (with_reducible apply State.handleStep_canonical <;> intros) | (with_reducible apply State.sysStep_canonical <;> intros) | (with_reducible apply State.forAll_canonical <;> intros) | (with_reducible apply foldl_canonical <;> intros)
  all_goals simp +contextual (maxDischargeDepth := 20) [*]
theorem execFenceFall_canonical (m : Notice) (s : State) (hs : s.Canonical) (t0 : State) (h0 : execFenceFall m s = .next t0) : t0.Canonical := by
  obtain ⟨_, rfl⟩ := ok_next h0
  clear h0
  try dsimp only
  repeat' first | (with_reducible assumption) | split | (with_reducible apply State.when_canonical <;> intros) | (with_reducible apply State.sbAnswer_canonical <;> intros) | (with_reducible apply State.deliver_canonical <;> intros) | (with_reducible apply State.granted_canonical <;> intros) | (with_reducible apply State.dataArrives_canonical <;> intros) | (with_reducible apply State.withLines_canonical <;> intros) | (with_reducible apply State.withReads_canonical <;> intros) | (with_reducible apply State.whenHeld_canonical <;> intros) | (with_reducible apply State.lookup_canonical <;> intros) | (with_reducible apply State.hostRead_canonical <;> intros) | (with_reducible apply State.hostWrite_canonical <;> intros) | (with_reducible apply State.delivery_canonical <;> intros) | (with_reducible apply State.pageRead_canonical <;> intros) | (with_reducible apply State.pageWrite_canonical <;> intros) | (with_reducible apply State.stewardLines_canonical <;> intros) | (with_reducible apply State.choiceLines_canonical <;> intros) | (with_reducible apply State.preloadRead_canonical <;> intros) | (with_reducible apply State.opStep_canonical <;> intros) | (with_reducible apply State.receive_canonical <;> intros) | (with_reducible apply State.onObject_canonical <;> intros) | (with_reducible apply State.endOwner_canonical <;> intros) | (with_reducible apply State.chipWide_canonical <;> intros) | (with_reducible apply State.kernelStep_canonical <;> intros) | (with_reducible apply State.coreInstr_canonical <;> intros) | (with_reducible apply State.endArrival_canonical <;> intros) | (with_reducible apply State.notice_canonical <;> intros) | (with_reducible apply State.fenceNotice_canonical <;> intros) | (with_reducible apply State.handleStep_canonical <;> intros) | (with_reducible apply State.sysStep_canonical <;> intros) | (with_reducible apply State.forAll_canonical <;> intros) | (with_reducible apply foldl_canonical <;> intros)
  all_goals simp +contextual (maxDischargeDepth := 20) [*]
theorem execFenceAbandon_canonical (m : Notice) (s : State) (hs : s.Canonical) (t0 : State) (h0 : execFenceAbandon m s = .next t0) : t0.Canonical := by
  obtain ⟨_, rfl⟩ := ok_next h0
  clear h0
  try dsimp only
  repeat' first | (with_reducible assumption) | split | (with_reducible apply State.when_canonical <;> intros) | (with_reducible apply State.sbAnswer_canonical <;> intros) | (with_reducible apply State.deliver_canonical <;> intros) | (with_reducible apply State.granted_canonical <;> intros) | (with_reducible apply State.dataArrives_canonical <;> intros) | (with_reducible apply State.withLines_canonical <;> intros) | (with_reducible apply State.withReads_canonical <;> intros) | (with_reducible apply State.whenHeld_canonical <;> intros) | (with_reducible apply State.lookup_canonical <;> intros) | (with_reducible apply State.hostRead_canonical <;> intros) | (with_reducible apply State.hostWrite_canonical <;> intros) | (with_reducible apply State.delivery_canonical <;> intros) | (with_reducible apply State.pageRead_canonical <;> intros) | (with_reducible apply State.pageWrite_canonical <;> intros) | (with_reducible apply State.stewardLines_canonical <;> intros) | (with_reducible apply State.choiceLines_canonical <;> intros) | (with_reducible apply State.preloadRead_canonical <;> intros) | (with_reducible apply State.opStep_canonical <;> intros) | (with_reducible apply State.receive_canonical <;> intros) | (with_reducible apply State.onObject_canonical <;> intros) | (with_reducible apply State.endOwner_canonical <;> intros) | (with_reducible apply State.chipWide_canonical <;> intros) | (with_reducible apply State.kernelStep_canonical <;> intros) | (with_reducible apply State.coreInstr_canonical <;> intros) | (with_reducible apply State.endArrival_canonical <;> intros) | (with_reducible apply State.notice_canonical <;> intros) | (with_reducible apply State.fenceNotice_canonical <;> intros) | (with_reducible apply State.handleStep_canonical <;> intros) | (with_reducible apply State.sysStep_canonical <;> intros) | (with_reducible apply State.forAll_canonical <;> intros) | (with_reducible apply foldl_canonical <;> intros)
  all_goals simp +contextual (maxDischargeDepth := 20) [*]
@[simp] theorem State.recordEdge_canonical (s : State) (hs : s.Canonical) :
    (State.recordEdge s).Canonical := by
  unfold State.recordEdge
  simp +contextual (maxDischargeDepth := 20) [*]
theorem execStepsyncEdge_canonical (s : State) (hs : s.Canonical) (t0 : State) (h0 : execStepsyncEdge s = .next t0) : t0.Canonical := by
  obtain ⟨_, rfl⟩ := ok_next h0
  clear h0
  try dsimp only
  repeat' first | (with_reducible assumption) | split | (with_reducible apply State.when_canonical <;> intros) | (with_reducible apply State.sbAnswer_canonical <;> intros) | (with_reducible apply State.deliver_canonical <;> intros) | (with_reducible apply State.granted_canonical <;> intros) | (with_reducible apply State.dataArrives_canonical <;> intros) | (with_reducible apply State.withLines_canonical <;> intros) | (with_reducible apply State.withReads_canonical <;> intros) | (with_reducible apply State.whenHeld_canonical <;> intros) | (with_reducible apply State.lookup_canonical <;> intros) | (with_reducible apply State.hostRead_canonical <;> intros) | (with_reducible apply State.hostWrite_canonical <;> intros) | (with_reducible apply State.delivery_canonical <;> intros) | (with_reducible apply State.pageRead_canonical <;> intros) | (with_reducible apply State.pageWrite_canonical <;> intros) | (with_reducible apply State.stewardLines_canonical <;> intros) | (with_reducible apply State.choiceLines_canonical <;> intros) | (with_reducible apply State.preloadRead_canonical <;> intros) | (with_reducible apply State.opStep_canonical <;> intros) | (with_reducible apply State.receive_canonical <;> intros) | (with_reducible apply State.onObject_canonical <;> intros) | (with_reducible apply State.endOwner_canonical <;> intros) | (with_reducible apply State.chipWide_canonical <;> intros) | (with_reducible apply State.kernelStep_canonical <;> intros) | (with_reducible apply State.coreInstr_canonical <;> intros) | (with_reducible apply State.endArrival_canonical <;> intros) | (with_reducible apply State.notice_canonical <;> intros) | (with_reducible apply State.fenceNotice_canonical <;> intros) | (with_reducible apply State.handleStep_canonical <;> intros) | (with_reducible apply State.sysStep_canonical <;> intros) | (with_reducible apply State.forAll_canonical <;> intros) | (with_reducible apply foldl_canonical <;> intros)
  all_goals simp +contextual (maxDischargeDepth := 20) [*]
theorem execStepsyncWindowExpiry_canonical (s : State) (hs : s.Canonical) (t0 : State) (h0 : execStepsyncWindowExpiry s = .next t0) : t0.Canonical := by
  obtain ⟨_, rfl⟩ := ok_next h0
  clear h0
  try dsimp only
  repeat' first | (with_reducible assumption) | split | (with_reducible apply State.when_canonical <;> intros) | (with_reducible apply State.sbAnswer_canonical <;> intros) | (with_reducible apply State.deliver_canonical <;> intros) | (with_reducible apply State.granted_canonical <;> intros) | (with_reducible apply State.dataArrives_canonical <;> intros) | (with_reducible apply State.withLines_canonical <;> intros) | (with_reducible apply State.withReads_canonical <;> intros) | (with_reducible apply State.whenHeld_canonical <;> intros) | (with_reducible apply State.lookup_canonical <;> intros) | (with_reducible apply State.hostRead_canonical <;> intros) | (with_reducible apply State.hostWrite_canonical <;> intros) | (with_reducible apply State.delivery_canonical <;> intros) | (with_reducible apply State.pageRead_canonical <;> intros) | (with_reducible apply State.pageWrite_canonical <;> intros) | (with_reducible apply State.stewardLines_canonical <;> intros) | (with_reducible apply State.choiceLines_canonical <;> intros) | (with_reducible apply State.preloadRead_canonical <;> intros) | (with_reducible apply State.opStep_canonical <;> intros) | (with_reducible apply State.receive_canonical <;> intros) | (with_reducible apply State.onObject_canonical <;> intros) | (with_reducible apply State.endOwner_canonical <;> intros) | (with_reducible apply State.chipWide_canonical <;> intros) | (with_reducible apply State.kernelStep_canonical <;> intros) | (with_reducible apply State.coreInstr_canonical <;> intros) | (with_reducible apply State.endArrival_canonical <;> intros) | (with_reducible apply State.notice_canonical <;> intros) | (with_reducible apply State.fenceNotice_canonical <;> intros) | (with_reducible apply State.handleStep_canonical <;> intros) | (with_reducible apply State.sysStep_canonical <;> intros) | (with_reducible apply State.forAll_canonical <;> intros) | (with_reducible apply foldl_canonical <;> intros)
  all_goals simp +contextual (maxDischargeDepth := 20) [*]
theorem execStaleEntryExpiry_canonical (i : Nat) (s : State) (hs : s.Canonical) (t0 : State) (h0 : execStaleEntryExpiry i s = .next t0) : t0.Canonical := by
  obtain ⟨_, rfl⟩ := ok_next h0
  clear h0
  try dsimp only
  repeat' first | (with_reducible assumption) | split | (with_reducible apply State.when_canonical <;> intros) | (with_reducible apply State.sbAnswer_canonical <;> intros) | (with_reducible apply State.deliver_canonical <;> intros) | (with_reducible apply State.granted_canonical <;> intros) | (with_reducible apply State.dataArrives_canonical <;> intros) | (with_reducible apply State.withLines_canonical <;> intros) | (with_reducible apply State.withReads_canonical <;> intros) | (with_reducible apply State.whenHeld_canonical <;> intros) | (with_reducible apply State.lookup_canonical <;> intros) | (with_reducible apply State.hostRead_canonical <;> intros) | (with_reducible apply State.hostWrite_canonical <;> intros) | (with_reducible apply State.delivery_canonical <;> intros) | (with_reducible apply State.pageRead_canonical <;> intros) | (with_reducible apply State.pageWrite_canonical <;> intros) | (with_reducible apply State.stewardLines_canonical <;> intros) | (with_reducible apply State.choiceLines_canonical <;> intros) | (with_reducible apply State.preloadRead_canonical <;> intros) | (with_reducible apply State.opStep_canonical <;> intros) | (with_reducible apply State.receive_canonical <;> intros) | (with_reducible apply State.onObject_canonical <;> intros) | (with_reducible apply State.endOwner_canonical <;> intros) | (with_reducible apply State.chipWide_canonical <;> intros) | (with_reducible apply State.kernelStep_canonical <;> intros) | (with_reducible apply State.coreInstr_canonical <;> intros) | (with_reducible apply State.endArrival_canonical <;> intros) | (with_reducible apply State.notice_canonical <;> intros) | (with_reducible apply State.fenceNotice_canonical <;> intros) | (with_reducible apply State.handleStep_canonical <;> intros) | (with_reducible apply State.sysStep_canonical <;> intros) | (with_reducible apply State.forAll_canonical <;> intros) | (with_reducible apply foldl_canonical <;> intros)
  all_goals simp +contextual (maxDischargeDepth := 20) [*]
@[simp] theorem State.sendPeerlost_canonical (s : State) (p : Nat) (hs : s.Canonical) :
    (State.sendPeerlost s p).Canonical := by
  unfold State.sendPeerlost
  simp +contextual (maxDischargeDepth := 20) [*]
@[simp] theorem State.badSheaf_canonical (s : State) (n : Nat) (source code line : Nat) (member : Option Nat) (furrow : BitVec 10) (info addr : Word) (hs : s.Canonical) :
    (State.badSheaf s n source code line member furrow info addr).Canonical := by
  unfold State.badSheaf
  (repeat' split) <;> simp +contextual (maxDischargeDepth := 20) [*]
@[simp] theorem State.badRun_canonical (s : State) (source : Nat) (k fr : Option Nat) (info addr : Word) (hs : s.Canonical) :
    (State.badRun s source k fr info addr).Canonical := by
  unfold State.badRun
  (repeat' split) <;> simp +contextual (maxDischargeDepth := 20) [*]
@[simp] theorem State.clearHeld_canonical (s : State) (n : Nat) (hs : s.Canonical) :
    (State.clearHeld s n).Canonical := by
  unfold State.clearHeld
  simp +contextual (maxDischargeDepth := 20) [*]
@[simp] theorem State.badObjects_canonical (s : State) (source : Nat) (ns : List Nat) (info addr : Word) (hs : s.Canonical) :
    (State.badObjects s source ns info addr).Canonical := by
  unfold State.badObjects
  try dsimp only
  (repeat' split) <;> simp +contextual (maxDischargeDepth := 20) [*]
@[simp] theorem State.uncorrectable_canonical (s : State) (w : Storage) (info addr : Word) (hs : s.Canonical) :
    (State.uncorrectable s w info addr).Canonical := by
  unfold State.uncorrectable
  (repeat' split) <;> simp +contextual (maxDischargeDepth := 20) [*]
theorem execPatrolScrub_canonical (w : Storage) (bad : Option Found) (s : State) (hs : s.Canonical) (t0 : State) (h0 : execPatrolScrub w bad s = .next t0) : t0.Canonical := by
  obtain ⟨_, rfl⟩ := ok_next h0
  clear h0
  (repeat' split) <;> simp +contextual (maxDischargeDepth := 20) [*]
@[simp] theorem State.restartChipWide_canonical (s : State) (hs : s.Canonical) : s.restartChipWide.Canonical := by
  unfold State.restartChipWide
  dsimp only
  apply State.fenceRepeat_canonical
  apply State.forAll_canonical _ _ _ hs
  intro t n ht
  (repeat' split) <;> simp [ht]
@[simp] theorem State.moveCharge_canonical (s : State) (h : Nat) (hs : s.Canonical) :
    (State.moveCharge s h).Canonical := by
  unfold State.moveCharge
  simp +contextual (maxDischargeDepth := 20) [*]
@[simp] theorem State.yieldCharge_canonical (s : State) (h answer : Nat) (hs : s.Canonical) :
    (State.yieldCharge s h answer).Canonical := by
  unfold State.yieldCharge
  try dsimp only
  (repeat' split) <;> simp +contextual (maxDischargeDepth := 20) [*]
theorem execChargeCheck_canonical (h out0 out1 : Nat) (s : State) (hs : s.Canonical) (t0 : State) (h0 : execChargeCheck h out0 out1 s = .next t0) : t0.Canonical := by
  obtain ⟨_, rfl⟩ := ok_next h0
  clear h0
  try dsimp only
  repeat' first | (with_reducible assumption) | split | (with_reducible apply State.when_canonical <;> intros) | (with_reducible apply State.sbAnswer_canonical <;> intros) | (with_reducible apply State.deliver_canonical <;> intros) | (with_reducible apply State.granted_canonical <;> intros) | (with_reducible apply State.dataArrives_canonical <;> intros) | (with_reducible apply State.withLines_canonical <;> intros) | (with_reducible apply State.withReads_canonical <;> intros) | (with_reducible apply State.whenHeld_canonical <;> intros) | (with_reducible apply State.lookup_canonical <;> intros) | (with_reducible apply State.hostRead_canonical <;> intros) | (with_reducible apply State.hostWrite_canonical <;> intros) | (with_reducible apply State.delivery_canonical <;> intros) | (with_reducible apply State.pageRead_canonical <;> intros) | (with_reducible apply State.pageWrite_canonical <;> intros) | (with_reducible apply State.stewardLines_canonical <;> intros) | (with_reducible apply State.choiceLines_canonical <;> intros) | (with_reducible apply State.preloadRead_canonical <;> intros) | (with_reducible apply State.opStep_canonical <;> intros) | (with_reducible apply State.receive_canonical <;> intros) | (with_reducible apply State.onObject_canonical <;> intros) | (with_reducible apply State.endOwner_canonical <;> intros) | (with_reducible apply State.chipWide_canonical <;> intros) | (with_reducible apply State.kernelStep_canonical <;> intros) | (with_reducible apply State.coreInstr_canonical <;> intros) | (with_reducible apply State.endArrival_canonical <;> intros) | (with_reducible apply State.notice_canonical <;> intros) | (with_reducible apply State.fenceNotice_canonical <;> intros) | (with_reducible apply State.handleStep_canonical <;> intros) | (with_reducible apply State.sysStep_canonical <;> intros) | (with_reducible apply State.forAll_canonical <;> intros) | (with_reducible apply foldl_canonical <;> intros)
  all_goals simp +contextual (maxDischargeDepth := 20) [*]
theorem execHangSnapshot_canonical (s : State) (hs : s.Canonical) (t0 : State) (h0 : execHangSnapshot s = .next t0) : t0.Canonical := by
  obtain ⟨_, rfl⟩ := ok_next h0
  clear h0
  simp +contextual (maxDischargeDepth := 20) [*]
@[simp] theorem State.killWaiting_canonical (s : State) (es : List (HangId × HangId)) (bad : List HangId) (a : HangId) (hs : s.Canonical) :
    (State.killWaiting s es bad a).Canonical := by
  unfold State.killWaiting
  (repeat' split) <;> simp +contextual (maxDischargeDepth := 20) [*]
@[simp] theorem State.killCycles_canonical (s : State) (es : List (HangId × HangId)) (cycs : List (List HangId)) (hs : s.Canonical) :
    (State.killCycles s es cycs).Canonical := by
  unfold State.killCycles
  try dsimp only
  repeat' first | (with_reducible assumption) | split | (with_reducible apply State.when_canonical <;> intros) | (with_reducible apply State.sbAnswer_canonical <;> intros) | (with_reducible apply State.deliver_canonical <;> intros) | (with_reducible apply State.granted_canonical <;> intros) | (with_reducible apply State.dataArrives_canonical <;> intros) | (with_reducible apply State.withLines_canonical <;> intros) | (with_reducible apply State.withReads_canonical <;> intros) | (with_reducible apply State.whenHeld_canonical <;> intros) | (with_reducible apply State.lookup_canonical <;> intros) | (with_reducible apply State.hostRead_canonical <;> intros) | (with_reducible apply State.hostWrite_canonical <;> intros) | (with_reducible apply State.delivery_canonical <;> intros) | (with_reducible apply State.pageRead_canonical <;> intros) | (with_reducible apply State.pageWrite_canonical <;> intros) | (with_reducible apply State.stewardLines_canonical <;> intros) | (with_reducible apply State.choiceLines_canonical <;> intros) | (with_reducible apply State.preloadRead_canonical <;> intros) | (with_reducible apply State.opStep_canonical <;> intros) | (with_reducible apply State.receive_canonical <;> intros) | (with_reducible apply State.onObject_canonical <;> intros) | (with_reducible apply State.endOwner_canonical <;> intros) | (with_reducible apply State.chipWide_canonical <;> intros) | (with_reducible apply State.kernelStep_canonical <;> intros) | (with_reducible apply State.coreInstr_canonical <;> intros) | (with_reducible apply State.endArrival_canonical <;> intros) | (with_reducible apply State.notice_canonical <;> intros) | (with_reducible apply State.fenceNotice_canonical <;> intros) | (with_reducible apply State.handleStep_canonical <;> intros) | (with_reducible apply State.sysStep_canonical <;> intros) | (with_reducible apply State.forAll_canonical <;> intros) | (with_reducible apply foldl_canonical <;> intros)
  all_goals simp +contextual (maxDischargeDepth := 20) [*]
theorem execHangScanComplete_canonical (s : State) (hs : s.Canonical) (t0 : State) (h0 : execHangScanComplete s = .next t0) : t0.Canonical := by
  obtain ⟨_, rfl⟩ := ok_next h0
  clear h0
  try dsimp only
  repeat' first | (with_reducible assumption) | split | (with_reducible apply State.when_canonical <;> intros) | (with_reducible apply State.sbAnswer_canonical <;> intros) | (with_reducible apply State.deliver_canonical <;> intros) | (with_reducible apply State.granted_canonical <;> intros) | (with_reducible apply State.dataArrives_canonical <;> intros) | (with_reducible apply State.withLines_canonical <;> intros) | (with_reducible apply State.withReads_canonical <;> intros) | (with_reducible apply State.whenHeld_canonical <;> intros) | (with_reducible apply State.lookup_canonical <;> intros) | (with_reducible apply State.hostRead_canonical <;> intros) | (with_reducible apply State.hostWrite_canonical <;> intros) | (with_reducible apply State.delivery_canonical <;> intros) | (with_reducible apply State.pageRead_canonical <;> intros) | (with_reducible apply State.pageWrite_canonical <;> intros) | (with_reducible apply State.stewardLines_canonical <;> intros) | (with_reducible apply State.choiceLines_canonical <;> intros) | (with_reducible apply State.preloadRead_canonical <;> intros) | (with_reducible apply State.opStep_canonical <;> intros) | (with_reducible apply State.receive_canonical <;> intros) | (with_reducible apply State.onObject_canonical <;> intros) | (with_reducible apply State.endOwner_canonical <;> intros) | (with_reducible apply State.chipWide_canonical <;> intros) | (with_reducible apply State.kernelStep_canonical <;> intros) | (with_reducible apply State.coreInstr_canonical <;> intros) | (with_reducible apply State.endArrival_canonical <;> intros) | (with_reducible apply State.notice_canonical <;> intros) | (with_reducible apply State.fenceNotice_canonical <;> intros) | (with_reducible apply State.handleStep_canonical <;> intros) | (with_reducible apply State.sysStep_canonical <;> intros) | (with_reducible apply State.forAll_canonical <;> intros) | (with_reducible apply foldl_canonical <;> intros)
  all_goals simp +contextual (maxDischargeDepth := 20) [*]
theorem execHeartbeatPeriodEnd_canonical (s : State) (hs : s.Canonical) (t0 : State) (h0 : execHeartbeatPeriodEnd s = .next t0) : t0.Canonical := by
  obtain ⟨_, rfl⟩ := ok_next h0
  clear h0
  try dsimp only
  repeat' first | (with_reducible assumption) | split | (with_reducible apply State.when_canonical <;> intros) | (with_reducible apply State.sbAnswer_canonical <;> intros) | (with_reducible apply State.deliver_canonical <;> intros) | (with_reducible apply State.granted_canonical <;> intros) | (with_reducible apply State.dataArrives_canonical <;> intros) | (with_reducible apply State.withLines_canonical <;> intros) | (with_reducible apply State.withReads_canonical <;> intros) | (with_reducible apply State.whenHeld_canonical <;> intros) | (with_reducible apply State.lookup_canonical <;> intros) | (with_reducible apply State.hostRead_canonical <;> intros) | (with_reducible apply State.hostWrite_canonical <;> intros) | (with_reducible apply State.delivery_canonical <;> intros) | (with_reducible apply State.pageRead_canonical <;> intros) | (with_reducible apply State.pageWrite_canonical <;> intros) | (with_reducible apply State.stewardLines_canonical <;> intros) | (with_reducible apply State.choiceLines_canonical <;> intros) | (with_reducible apply State.preloadRead_canonical <;> intros) | (with_reducible apply State.opStep_canonical <;> intros) | (with_reducible apply State.receive_canonical <;> intros) | (with_reducible apply State.onObject_canonical <;> intros) | (with_reducible apply State.endOwner_canonical <;> intros) | (with_reducible apply State.chipWide_canonical <;> intros) | (with_reducible apply State.kernelStep_canonical <;> intros) | (with_reducible apply State.coreInstr_canonical <;> intros) | (with_reducible apply State.endArrival_canonical <;> intros) | (with_reducible apply State.notice_canonical <;> intros) | (with_reducible apply State.fenceNotice_canonical <;> intros) | (with_reducible apply State.handleStep_canonical <;> intros) | (with_reducible apply State.sysStep_canonical <;> intros) | (with_reducible apply State.forAll_canonical <;> intros) | (with_reducible apply foldl_canonical <;> intros)
  all_goals simp +contextual (maxDischargeDepth := 20) [*]
@[simp] theorem State.resetCaptures_canonical (s : State) (hs : s.Canonical) :
    (State.resetCaptures s).Canonical := by
  unfold State.resetCaptures
  simp +contextual (maxDischargeDepth := 20) [*]
@[simp] theorem State.countRuns_canonical (s : State) (fd : ResetFindings) (hs : s.Canonical) :
    (State.countRuns s fd).Canonical := by
  unfold State.countRuns
  try dsimp only
  repeat' first | (with_reducible assumption) | split | (with_reducible apply State.when_canonical <;> intros) | (with_reducible apply State.sbAnswer_canonical <;> intros) | (with_reducible apply State.deliver_canonical <;> intros) | (with_reducible apply State.granted_canonical <;> intros) | (with_reducible apply State.dataArrives_canonical <;> intros) | (with_reducible apply State.withLines_canonical <;> intros) | (with_reducible apply State.withReads_canonical <;> intros) | (with_reducible apply State.whenHeld_canonical <;> intros) | (with_reducible apply State.lookup_canonical <;> intros) | (with_reducible apply State.hostRead_canonical <;> intros) | (with_reducible apply State.hostWrite_canonical <;> intros) | (with_reducible apply State.delivery_canonical <;> intros) | (with_reducible apply State.pageRead_canonical <;> intros) | (with_reducible apply State.pageWrite_canonical <;> intros) | (with_reducible apply State.stewardLines_canonical <;> intros) | (with_reducible apply State.choiceLines_canonical <;> intros) | (with_reducible apply State.preloadRead_canonical <;> intros) | (with_reducible apply State.opStep_canonical <;> intros) | (with_reducible apply State.receive_canonical <;> intros) | (with_reducible apply State.onObject_canonical <;> intros) | (with_reducible apply State.endOwner_canonical <;> intros) | (with_reducible apply State.chipWide_canonical <;> intros) | (with_reducible apply State.kernelStep_canonical <;> intros) | (with_reducible apply State.coreInstr_canonical <;> intros) | (with_reducible apply State.endArrival_canonical <;> intros) | (with_reducible apply State.notice_canonical <;> intros) | (with_reducible apply State.fenceNotice_canonical <;> intros) | (with_reducible apply State.handleStep_canonical <;> intros) | (with_reducible apply State.sysStep_canonical <;> intros) | (with_reducible apply State.forAll_canonical <;> intros) | (with_reducible apply foldl_canonical <;> intros)
  all_goals simp +contextual (maxDischargeDepth := 20) [*]
@[simp] theorem State.resetAborts_canonical (s : State) (fd : ResetFindings) (hs : s.Canonical) :
    (State.resetAborts s fd).Canonical := by
  unfold State.resetAborts
  simp +contextual (maxDischargeDepth := 20) [*]
@[simp] theorem State.takeSample_canonical (s : State) (hs : s.Canonical) :
    (State.takeSample s).Canonical := by
  unfold State.takeSample
  simp +contextual (maxDischargeDepth := 20) [*]
@[simp] theorem State.partDump_canonical (s : State) (r : ResetReq) (hs : s.Canonical) :
    (State.partDump s r).Canonical := by
  unfold State.partDump
  simp +contextual (maxDischargeDepth := 20) [*]
@[simp] theorem State.dumpFails_canonical (s : State) (hs : s.Canonical) :
    (State.dumpFails s).Canonical := by
  unfold State.dumpFails
  simp +contextual (maxDischargeDepth := 20) [*]
@[simp] theorem State.resetClears_canonical (s : State) (hs : s.Canonical) :
    (State.resetClears s).Canonical := by
  unfold State.resetClears
  simp +contextual (maxDischargeDepth := 20) [*]
@[simp] theorem State.spareCores_canonical (s : State) (cores failed : List (Nat × Nat)) (hs : s.Canonical) :
    (State.spareCores s cores failed).Canonical := by
  unfold State.spareCores
  simp +contextual (maxDischargeDepth := 20) [*]
@[simp] theorem State.resetCharge_canonical (s : State) (hs : s.Canonical) :
    (State.resetCharge s).Canonical := by
  unfold State.resetCharge
  try dsimp only
  (repeat' split) <;> simp +contextual (maxDischargeDepth := 20) [*]
@[simp] theorem State.loseHalf_canonical (s : State) (injected : Bool) (h : Nat) (hs : s.Canonical) :
    (State.loseHalf s injected h).Canonical := by
  unfold State.loseHalf
  simp +contextual (maxDischargeDepth := 20) [*]
@[simp] theorem State.repairImem_canonical (s : State) (bad : List (Nat × Nat)) (spared : List Nat) (hs : s.Canonical) :
    (State.repairImem s bad spared).Canonical := by
  unfold State.repairImem
  (repeat' split) <;> simp +contextual (maxDischargeDepth := 20) [*]
@[simp] theorem State.testCorrected_canonical (s : State) (ps : List Nat) (hs : s.Canonical) :
    (State.testCorrected s ps).Canonical := by
  unfold State.testCorrected
  simp +contextual (maxDischargeDepth := 20) [*]
@[simp] theorem State.resetTests_canonical (s : State) (fd : ResetFindings) (hs : s.Canonical) :
    (State.resetTests s fd).Canonical := by
  unfold State.resetTests
  try dsimp only
  (repeat' split) <;> simp +contextual (maxDischargeDepth := 20) [*]
@[simp] theorem State.resetStep6_canonical (s : State) (fd : ResetFindings) (hs : s.Canonical) :
    (State.resetStep6 s fd).Canonical := by
  unfold State.resetStep6
  simp +contextual (maxDischargeDepth := 20) [*]
@[simp] theorem State.resetDump_canonical (s : State) (r : ResetReq) (fd : ResetFindings) (hs : s.Canonical) :
    (State.resetDump s r fd).Canonical := by
  unfold State.resetDump
  (repeat' split) <;> simp +contextual (maxDischargeDepth := 20) [*]
theorem execComputeReset_canonical (fd : ResetFindings) (s : State) (hs : s.Canonical) (t0 : State) (h0 : execComputeReset fd s = .next t0) : t0.Canonical := by
  obtain ⟨_, rfl⟩ := ok_next h0
  clear h0
  try dsimp only
  repeat' first | (with_reducible assumption) | split | (with_reducible apply State.when_canonical <;> intros) | (with_reducible apply State.sbAnswer_canonical <;> intros) | (with_reducible apply State.deliver_canonical <;> intros) | (with_reducible apply State.granted_canonical <;> intros) | (with_reducible apply State.dataArrives_canonical <;> intros) | (with_reducible apply State.withLines_canonical <;> intros) | (with_reducible apply State.withReads_canonical <;> intros) | (with_reducible apply State.whenHeld_canonical <;> intros) | (with_reducible apply State.lookup_canonical <;> intros) | (with_reducible apply State.hostRead_canonical <;> intros) | (with_reducible apply State.hostWrite_canonical <;> intros) | (with_reducible apply State.delivery_canonical <;> intros) | (with_reducible apply State.pageRead_canonical <;> intros) | (with_reducible apply State.pageWrite_canonical <;> intros) | (with_reducible apply State.stewardLines_canonical <;> intros) | (with_reducible apply State.choiceLines_canonical <;> intros) | (with_reducible apply State.preloadRead_canonical <;> intros) | (with_reducible apply State.opStep_canonical <;> intros) | (with_reducible apply State.receive_canonical <;> intros) | (with_reducible apply State.onObject_canonical <;> intros) | (with_reducible apply State.endOwner_canonical <;> intros) | (with_reducible apply State.chipWide_canonical <;> intros) | (with_reducible apply State.kernelStep_canonical <;> intros) | (with_reducible apply State.coreInstr_canonical <;> intros) | (with_reducible apply State.endArrival_canonical <;> intros) | (with_reducible apply State.notice_canonical <;> intros) | (with_reducible apply State.fenceNotice_canonical <;> intros) | (with_reducible apply State.handleStep_canonical <;> intros) | (with_reducible apply State.sysStep_canonical <;> intros) | (with_reducible apply State.forAll_canonical <;> intros) | (with_reducible apply foldl_canonical <;> intros)
  all_goals simp +contextual (maxDischargeDepth := 20) [*]
theorem execDumpTimeout_canonical (s : State) (hs : s.Canonical) (t0 : State) (h0 : execDumpTimeout s = .next t0) : t0.Canonical := by
  obtain ⟨_, rfl⟩ := ok_next h0
  clear h0
  try dsimp only
  repeat' first | (with_reducible assumption) | split | (with_reducible apply State.when_canonical <;> intros) | (with_reducible apply State.sbAnswer_canonical <;> intros) | (with_reducible apply State.deliver_canonical <;> intros) | (with_reducible apply State.granted_canonical <;> intros) | (with_reducible apply State.dataArrives_canonical <;> intros) | (with_reducible apply State.withLines_canonical <;> intros) | (with_reducible apply State.withReads_canonical <;> intros) | (with_reducible apply State.whenHeld_canonical <;> intros) | (with_reducible apply State.lookup_canonical <;> intros) | (with_reducible apply State.hostRead_canonical <;> intros) | (with_reducible apply State.hostWrite_canonical <;> intros) | (with_reducible apply State.delivery_canonical <;> intros) | (with_reducible apply State.pageRead_canonical <;> intros) | (with_reducible apply State.pageWrite_canonical <;> intros) | (with_reducible apply State.stewardLines_canonical <;> intros) | (with_reducible apply State.choiceLines_canonical <;> intros) | (with_reducible apply State.preloadRead_canonical <;> intros) | (with_reducible apply State.opStep_canonical <;> intros) | (with_reducible apply State.receive_canonical <;> intros) | (with_reducible apply State.onObject_canonical <;> intros) | (with_reducible apply State.endOwner_canonical <;> intros) | (with_reducible apply State.chipWide_canonical <;> intros) | (with_reducible apply State.kernelStep_canonical <;> intros) | (with_reducible apply State.coreInstr_canonical <;> intros) | (with_reducible apply State.endArrival_canonical <;> intros) | (with_reducible apply State.notice_canonical <;> intros) | (with_reducible apply State.fenceNotice_canonical <;> intros) | (with_reducible apply State.handleStep_canonical <;> intros) | (with_reducible apply State.sysStep_canonical <;> intros) | (with_reducible apply State.forAll_canonical <;> intros) | (with_reducible apply foldl_canonical <;> intros)
  all_goals simp +contextual (maxDischargeDepth := 20) [*]
theorem execResetOverrun_canonical (s : State) (hs : s.Canonical) (t0 : State) (h0 : execResetOverrun s = .next t0) : t0.Canonical := by
  obtain ⟨_, rfl⟩ := ok_next h0
  clear h0
  simp +contextual (maxDischargeDepth := 20) [*]
theorem execRecoveryWindowExpiry_canonical (s : State) (hs : s.Canonical) (t0 : State) (h0 : execRecoveryWindowExpiry s = .next t0) : t0.Canonical := by
  obtain ⟨_, rfl⟩ := ok_next h0
  clear h0
  simp +contextual (maxDischargeDepth := 20) [*]
@[simp] theorem State.forceWire_canonical (s : State) (old v : Word) (hs : s.Canonical) :
    (State.forceWire s old v).Canonical := by
  unfold State.forceWire
  try dsimp only
  (repeat' split) <;> simp +contextual (maxDischargeDepth := 20) [*]
@[simp] theorem State.writeInject_canonical (s : State) (v : Word) (hs : s.Canonical) :
    (State.writeInject s v).Canonical := by
  unfold State.writeInject
  (repeat' split) <;> simp +contextual (maxDischargeDepth := 20) [*]
theorem execInjectFire_canonical (v : Word) (s : State) (hs : s.Canonical) (t0 : State) (h0 : execInjectFire v s = .next t0) : t0.Canonical := by
  obtain ⟨_, rfl⟩ := ok_next h0
  clear h0
  simp +contextual (maxDischargeDepth := 20) [*]
theorem execInjectWire_canonical (v : Word) (s : State) (hs : s.Canonical) (t0 : State) (h0 : execInjectWire v s = .next t0) : t0.Canonical := by
  obtain ⟨_, rfl⟩ := ok_next h0
  clear h0
  simp +contextual (maxDischargeDepth := 20) [*]
/-- A register rule keeps the canonical form, at once and after the audit. -/
def Written.keepsCanonical (w : Written) : Prop :=
  w.s.Canonical ∧ ∀ t : State, t.Canonical → (w.after t).Canonical
@[simp] theorem Written.keepsCanonical_mk (s : State) (i e : Bool) (f : State → State) :
    (Written.mk s i e f).keepsCanonical ↔ s.Canonical ∧ ∀ t : State, t.Canonical → (f t).Canonical := Iff.rfl
theorem ite_some_canonical {c : Prop} [Decidable c] {a w : Written} {x : Option Written}
    (ha : a.keepsCanonical) (hx : x = some w → w.keepsCanonical) :
    (if c then some a else x) = some w → w.keepsCanonical := by
  by_cases hc : c
  · rw [if_pos hc]; intro h; exact Option.some.inj h ▸ ha
  · rw [if_neg hc]; exact hx
@[simp] theorem State.auditedWrite_canonical (s : State) (offset : Nat) (w : Written) (h : w.keepsCanonical) :
    (s.auditedWrite offset w).Canonical := by
  unfold State.auditedWrite
  exact h.2 _ (by split <;> simp [h.1])
@[simp] theorem State.modRegs_canonical (s : State) (f : Regs → Regs) (hs : s.Canonical) :
    (State.modRegs s f).Canonical := by
  unfold State.modRegs
  simp +contextual (maxDischargeDepth := 20) [*]
@[simp] theorem State.writeCharge_canonical (s : State) (m v : Word) (hs : s.Canonical) :
    (State.writeCharge s m v).keepsCanonical := by
  unfold State.writeCharge
  (try dsimp only)
  (repeat' split) <;> (refine ⟨?_, fun t ht => ?_⟩ <;> (try dsimp only [id]) <;> (try (repeat' split)) <;> simp +contextual (maxDischargeDepth := 20) [*])
@[simp] theorem State.writeReserve_canonical (s : State) (m v : Word) (hs : s.Canonical) :
    (State.writeReserve s m v).keepsCanonical := by
  unfold State.writeReserve
  (try dsimp only)
  (repeat' split) <;> (refine ⟨?_, fun t ht => ?_⟩ <;> (try dsimp only [id]) <;> (try (repeat' split)) <;> simp +contextual (maxDischargeDepth := 20) [*])
@[simp] theorem State.writeHangmode_canonical (s : State) (m v : Word) (hs : s.Canonical) :
    (State.writeHangmode s m v).keepsCanonical := by
  unfold State.writeHangmode
  (try dsimp only)
  (repeat' split) <;> (refine ⟨?_, fun t ht => ?_⟩ <;> (try dsimp only [id]) <;> (try (repeat' split)) <;> simp +contextual (maxDischargeDepth := 20) [*])
@[simp] theorem State.writeTrim_canonical (s : State) (part : Part) (m v : Word) (hs : s.Canonical) :
    (State.writeTrim s part m v).keepsCanonical := by
  unfold State.writeTrim
  (try dsimp only)
  (repeat' split) <;> (refine ⟨?_, fun t ht => ?_⟩ <;> (try dsimp only [id]) <;> (try (repeat' split)) <;> simp +contextual (maxDischargeDepth := 20) [*])
@[simp] theorem State.writeClksrc_canonical (s : State) (m : Word) (hs : s.Canonical) :
    (State.writeClksrc s m).keepsCanonical := by
  unfold State.writeClksrc
  (try dsimp only)
  (repeat' split) <;> (refine ⟨?_, fun t ht => ?_⟩ <;> (try dsimp only [id]) <;> (try (repeat' split)) <;> simp +contextual (maxDischargeDepth := 20) [*])
@[simp] theorem State.writeClken_canonical (s : State) (m v : Word) (hs : s.Canonical) :
    (State.writeClken s m v).keepsCanonical := by
  unfold State.writeClken
  (try dsimp only)
  (repeat' split) <;> (refine ⟨?_, fun t ht => ?_⟩ <;> (try dsimp only [id]) <;> (try (repeat' split)) <;> simp +contextual (maxDischargeDepth := 20) [*])
@[simp] theorem State.writeFencectl_canonical (s : State) (m v : Word) (hs : s.Canonical) :
    (State.writeFencectl s m v).keepsCanonical := by
  unfold State.writeFencectl
  (try dsimp only)
  (repeat' split) <;> (refine ⟨?_, fun t ht => ?_⟩ <;> (try dsimp only [id]) <;> (try (repeat' split)) <;> simp +contextual (maxDischargeDepth := 20) [*])
@[simp] theorem State.writeFaultsrc_canonical (s : State) (m : Word) (hs : s.Canonical) :
    (State.writeFaultsrc s m).keepsCanonical := by
  unfold State.writeFaultsrc
  (try dsimp only)
  (repeat' split) <;> (refine ⟨?_, fun t ht => ?_⟩ <;> (try dsimp only [id]) <;> (try (repeat' split)) <;> simp +contextual (maxDischargeDepth := 20) [*])
@[simp] theorem State.writeHivepart_canonical (s : State) (p : Nat) (m v : Word) (hs : s.Canonical) :
    (State.writeHivepart s p m v).keepsCanonical := by
  unfold State.writeHivepart
  (try dsimp only)
  (repeat' split) <;> (refine ⟨?_, fun t ht => ?_⟩ <;> (try dsimp only [id]) <;> (try (repeat' split)) <;> simp +contextual (maxDischargeDepth := 20) [*])
@[simp] theorem State.writeGroup_canonical (s : State) (p : Nat) (m v : Word) (hs : s.Canonical) :
    (State.writeGroup s p m v).keepsCanonical := by
  unfold State.writeGroup
  (try dsimp only)
  (repeat' split) <;> (refine ⟨?_, fun t ht => ?_⟩ <;> (try dsimp only [id]) <;> (try (repeat' split)) <;> simp +contextual (maxDischargeDepth := 20) [*])
@[simp] theorem State.writeVerneg_canonical (s : State) (m : Word) (hs : s.Canonical) :
    (State.writeVerneg s m).keepsCanonical := by
  unfold State.writeVerneg
  (try dsimp only)
  (repeat' split) <;> (refine ⟨?_, fun t ht => ?_⟩ <;> (try dsimp only [id]) <;> (try (repeat' split)) <;> simp +contextual (maxDischargeDepth := 20) [*])
@[simp] theorem State.bootContext_canonical (s : State) (h : Nat) (hs : s.Canonical) :
    (State.bootContext s h).Canonical := by
  unfold State.bootContext
  try dsimp only
  (repeat' split) <;> simp +contextual (maxDischargeDepth := 20) [*]
@[simp] theorem State.writeBootq_canonical (s : State) (h : Nat) (m v : Word) (hs : s.Canonical) :
    (State.writeBootq s h m v).keepsCanonical := by
  unfold State.writeBootq
  (try dsimp only)
  (repeat' split) <;> (refine ⟨?_, fun t ht => ?_⟩ <;> (try dsimp only [id]) <;> (try (repeat' split)) <;> simp +contextual (maxDischargeDepth := 20) [*])
@[simp] theorem State.writeResetctl_canonical (s : State) (v : Word) (hs : s.Canonical) :
    (State.writeResetctl s v).keepsCanonical := by
  unfold State.writeResetctl
  (try dsimp only)
  (repeat' split) <;> (refine ⟨?_, fun t ht => ?_⟩ <;> (try dsimp only [id]) <;> (try (repeat' split)) <;> simp +contextual (maxDischargeDepth := 20) [*])
@[simp] theorem State.writeAbortq_canonical (s : State) (part : Part) (v : Word) (hs : s.Canonical) :
    (State.writeAbortq s part v).keepsCanonical := by
  unfold State.writeAbortq
  (try dsimp only)
  (repeat' split) <;> (refine ⟨?_, fun t ht => ?_⟩ <;> (try dsimp only [id]) <;> (try (repeat' split)) <;> simp +contextual (maxDischargeDepth := 20) [*])
@[simp] theorem State.writeFenceseq_canonical (s : State) (m : Word) (hs : s.Canonical) :
    (State.writeFenceseq s m).keepsCanonical := by
  unfold State.writeFenceseq
  (try dsimp only)
  (repeat' split) <;> (refine ⟨?_, fun t ht => ?_⟩ <;> (try dsimp only [id]) <;> (try (repeat' split)) <;> simp +contextual (maxDischargeDepth := 20) [*])
@[simp] theorem State.writeFaultlog_canonical (s : State) (m : Word) (hs : s.Canonical) :
    (State.writeFaultlog s m).keepsCanonical := by
  unfold State.writeFaultlog
  (try dsimp only)
  (repeat' split) <;> (refine ⟨?_, fun t ht => ?_⟩ <;> (try dsimp only [id]) <;> (try (repeat' split)) <;> simp +contextual (maxDischargeDepth := 20) [*])
@[simp] theorem State.writeTracectl_canonical (s : State) (m v : Word) (hs : s.Canonical) :
    (State.writeTracectl s m v).keepsCanonical := by
  unfold State.writeTracectl
  (try dsimp only)
  (repeat' split) <;> (refine ⟨?_, fun t ht => ?_⟩ <;> (try dsimp only [id]) <;> (try (repeat' split)) <;> simp +contextual (maxDischargeDepth := 20) [*])
@[simp] theorem State.endPause_canonical (s : State) (c : Nat) (hs : s.Canonical) :
    (State.endPause s c).Canonical := by
  unfold State.endPause
  try dsimp only
  repeat' first | (with_reducible assumption) | split | (with_reducible apply State.when_canonical <;> intros) | (with_reducible apply State.sbAnswer_canonical <;> intros) | (with_reducible apply State.deliver_canonical <;> intros) | (with_reducible apply State.granted_canonical <;> intros) | (with_reducible apply State.dataArrives_canonical <;> intros) | (with_reducible apply State.withLines_canonical <;> intros) | (with_reducible apply State.withReads_canonical <;> intros) | (with_reducible apply State.whenHeld_canonical <;> intros) | (with_reducible apply State.lookup_canonical <;> intros) | (with_reducible apply State.hostRead_canonical <;> intros) | (with_reducible apply State.hostWrite_canonical <;> intros) | (with_reducible apply State.delivery_canonical <;> intros) | (with_reducible apply State.pageRead_canonical <;> intros) | (with_reducible apply State.pageWrite_canonical <;> intros) | (with_reducible apply State.stewardLines_canonical <;> intros) | (with_reducible apply State.choiceLines_canonical <;> intros) | (with_reducible apply State.preloadRead_canonical <;> intros) | (with_reducible apply State.opStep_canonical <;> intros) | (with_reducible apply State.receive_canonical <;> intros) | (with_reducible apply State.onObject_canonical <;> intros) | (with_reducible apply State.endOwner_canonical <;> intros) | (with_reducible apply State.chipWide_canonical <;> intros) | (with_reducible apply State.kernelStep_canonical <;> intros) | (with_reducible apply State.coreInstr_canonical <;> intros) | (with_reducible apply State.endArrival_canonical <;> intros) | (with_reducible apply State.notice_canonical <;> intros) | (with_reducible apply State.fenceNotice_canonical <;> intros) | (with_reducible apply State.handleStep_canonical <;> intros) | (with_reducible apply State.sysStep_canonical <;> intros) | (with_reducible apply State.forAll_canonical <;> intros) | (with_reducible apply foldl_canonical <;> intros)
  all_goals simp +contextual (maxDischargeDepth := 20) [*]
@[simp] theorem State.writeBreakctl_canonical (s : State) (u : Nat) (m v : Word) (hs : s.Canonical) :
    (State.writeBreakctl s u m v).keepsCanonical := by
  unfold State.writeBreakctl
  (try dsimp only)
  (repeat' split) <;> (refine ⟨?_, fun t ht => ?_⟩ <;> (try dsimp only [id]) <;> (try (repeat' split)) <;> simp +contextual (maxDischargeDepth := 20) [*])
@[simp] theorem State.writeBreakval_canonical (s : State) (u : Nat) (m : Word) (hs : s.Canonical) :
    (State.writeBreakval s u m).keepsCanonical := by
  unfold State.writeBreakval
  (try dsimp only)
  (repeat' split) <;> (refine ⟨?_, fun t ht => ?_⟩ <;> (try dsimp only [id]) <;> (try (repeat' split)) <;> simp +contextual (maxDischargeDepth := 20) [*])
theorem State.installerRule_canonical (s : State) (off : Nat) (part : Part) (m v : Word) (hs : s.Canonical) {w : Written}
    (h : State.installerRule s off part m v = some w) : w.keepsCanonical := by
  revert h
  unfold State.installerRule
  (try dsimp only)
  repeat' (with_reducible refine ite_some_canonical ?_ ?_)
  all_goals first
    | exact fun h => by cases h
    | (simp +contextual (maxDischargeDepth := 20) [*]; done)
    | (refine ⟨?_, fun t ht => ?_⟩ <;> (try dsimp only [id]) <;> (try split) <;> simp +contextual (maxDischargeDepth := 20) [*])
    | (split <;> simp +contextual (maxDischargeDepth := 20) [*])
theorem State.operatorRule_canonical (s : State) (off : Nat) (part : Part) (m v : Word) (hs : s.Canonical) {w : Written}
    (h : State.operatorRule s off part m v = some w) : w.keepsCanonical := by
  revert h
  unfold State.operatorRule
  (try dsimp only)
  repeat' (with_reducible refine ite_some_canonical ?_ ?_)
  all_goals first
    | exact fun h => by cases h
    | (simp +contextual (maxDischargeDepth := 20) [*]; done)
    | (refine ⟨?_, fun t ht => ?_⟩ <;> (try dsimp only [id]) <;> (try split) <;> simp +contextual (maxDischargeDepth := 20) [*])
    | (split <;> simp +contextual (maxDischargeDepth := 20) [*])
@[simp] theorem State.hiveSnapshot_canonical (s : State) (m : Word) (hs : s.Canonical) :
    (State.hiveSnapshot s m).Canonical := by
  unfold State.hiveSnapshot
  simp +contextual (maxDischargeDepth := 20) [*]
@[simp] theorem State.flushMsix_canonical (s : State) (v : Nat) (hs : s.Canonical) :
    (State.flushMsix s v).Canonical := by
  unfold State.flushMsix
  (repeat' split) <;> simp +contextual (maxDischargeDepth := 20) [*]
@[simp] theorem State.writeMsix_canonical (s : State) (i : Nat) (m : Word) (hs : s.Canonical) :
    (State.writeMsix s i m).Canonical := by
  unfold State.writeMsix
  try dsimp only
  (repeat' split) <;> simp +contextual (maxDischargeDepth := 20) [*]
@[simp] theorem State.writeMsixCap_canonical (s : State) (m : Word) (hs : s.Canonical) :
    (State.writeMsixCap s m).Canonical := by
  unfold State.writeMsixCap
  simp +contextual (maxDischargeDepth := 20) [*]
theorem State.ruleAt_canonical (s : State) (off : Nat) (part : Part) (m v : Word) (hs : s.Canonical) {w : Written}
    (h : State.ruleAt s off part m v = some w) : w.keepsCanonical := by
  unfold State.ruleAt at h
  split at h
  · exact State.installerRule_canonical _ _ _ _ _ hs h
  · split at h
    · exact State.operatorRule_canonical _ _ _ _ _ hs h
    · cases h
@[simp] theorem State.ignoredWrite_canonical (s : State) (off : Nat) (hs : s.Canonical) :
    (s.ignoredWrite off).Canonical := by
  unfold State.ignoredWrite
  split
  · exact State.auditedWrite_canonical _ _ _ ⟨hs, fun _ h => h⟩
  · exact hs
@[simp] theorem State.performWrite_canonical (s : State) (off : Nat) (part : Part) (v : Word) (hs : s.Canonical) :
    (s.performWrite off part v).Canonical := by
  unfold State.performWrite
  have ite_c : ∀ {c : Prop} [Decidable c] {a b : State}, a.Canonical → b.Canonical → (if c then a else b).Canonical := by
    intro c _ a b ha hb; split <;> assumption
  refine ite_c (by simp [hs]) (ite_c (by simp [hs]) ?_)
  refine ite_c (by simp [hs]) (ite_c ?_ (ite_c (by split <;> simp [hs]) (ite_c (by simp [hs]) (ite_c ?_ hs))))
  · split
    · rename_i h; simp [State.ruleAt_canonical _ _ _ _ _ hs h]
    · exact hs
  · exact ite_c (by simp [hs]) (ite_c (by simp [hs]) (ite_c (by simp [hs]) hs))
@[simp] theorem State.privWrite_canonical (s : State) (c : Instr) (off : Nat) (part : Part) (v : Word) (hs : s.Canonical) :
    (State.privWrite s c off part v).Canonical := by
  unfold State.privWrite
  (repeat' split) <;> simp +contextual (maxDischargeDepth := 20) [*]
theorem execHiveDebugSelWrite_canonical (part : Part) (v : Word) (s : State) (hs : s.Canonical) (t0 : State) (h0 : execHiveDebugSelWrite part v s = .next t0) : t0.Canonical := by
  obtain ⟨_, rfl⟩ := ok_next h0
  clear h0
  simp +contextual (maxDischargeDepth := 20) [*]
theorem execAbortqWrite_canonical (part : Part) (v : Word) (s : State) (hs : s.Canonical) (t0 : State) (h0 : execAbortqWrite part v s = .next t0) : t0.Canonical := by
  obtain ⟨_, rfl⟩ := ok_next h0
  clear h0
  simp +contextual (maxDischargeDepth := 20) [*]
theorem execResetRequest_canonical (part : Part) (v : Word) (s : State) (hs : s.Canonical) (t0 : State) (h0 : execResetRequest part v s = .next t0) : t0.Canonical := by
  obtain ⟨_, rfl⟩ := ok_next h0
  clear h0
  simp +contextual (maxDischargeDepth := 20) [*]
theorem execFaultsrcWrite_canonical (part : Part) (v : Word) (s : State) (hs : s.Canonical) (t0 : State) (h0 : execFaultsrcWrite part v s = .next t0) : t0.Canonical := by
  obtain ⟨_, rfl⟩ := ok_next h0
  clear h0
  simp +contextual (maxDischargeDepth := 20) [*]
theorem execGroupWrite_canonical (p : Nat) (part : Part) (v : Word) (s : State) (hs : s.Canonical) (t0 : State) (h0 : execGroupWrite p part v s = .next t0) : t0.Canonical := by
  obtain ⟨_, rfl⟩ := ok_next h0
  clear h0
  simp +contextual (maxDischargeDepth := 20) [*]
theorem execFencectlWrite_canonical (part : Part) (v : Word) (s : State) (hs : s.Canonical) (t0 : State) (h0 : execFencectlWrite part v s = .next t0) : t0.Canonical := by
  obtain ⟨_, rfl⟩ := ok_next h0
  clear h0
  simp +contextual (maxDischargeDepth := 20) [*]
theorem execFenceseqWrite_canonical (part : Part) (v : Word) (s : State) (hs : s.Canonical) (t0 : State) (h0 : execFenceseqWrite part v s = .next t0) : t0.Canonical := by
  obtain ⟨_, rfl⟩ := ok_next h0
  clear h0
  simp +contextual (maxDischargeDepth := 20) [*]
theorem execHivepartWrite_canonical (p : Nat) (part : Part) (v : Word) (s : State) (hs : s.Canonical) (t0 : State) (h0 : execHivepartWrite p part v s = .next t0) : t0.Canonical := by
  obtain ⟨_, rfl⟩ := ok_next h0
  clear h0
  simp +contextual (maxDischargeDepth := 20) [*]
theorem execReserveWrite_canonical (part : Part) (v : Word) (s : State) (hs : s.Canonical) (t0 : State) (h0 : execReserveWrite part v s = .next t0) : t0.Canonical := by
  obtain ⟨_, rfl⟩ := ok_next h0
  clear h0
  simp +contextual (maxDischargeDepth := 20) [*]
theorem execHangmodeWrite_canonical (part : Part) (v : Word) (s : State) (hs : s.Canonical) (t0 : State) (h0 : execHangmodeWrite part v s = .next t0) : t0.Canonical := by
  obtain ⟨_, rfl⟩ := ok_next h0
  clear h0
  simp +contextual (maxDischargeDepth := 20) [*]
theorem execVernegOfferWrite_canonical (part : Part) (v : Word) (s : State) (hs : s.Canonical) (t0 : State) (h0 : execVernegOfferWrite part v s = .next t0) : t0.Canonical := by
  obtain ⟨_, rfl⟩ := ok_next h0
  clear h0
  simp +contextual (maxDischargeDepth := 20) [*]
theorem execBootqEnable_canonical (h : Nat) (part : Part) (v : Word) (s : State) (hs : s.Canonical) (t0 : State) (h0 : execBootqEnable h part v s = .next t0) : t0.Canonical := by
  obtain ⟨_, rfl⟩ := ok_next h0
  clear h0
  simp +contextual (maxDischargeDepth := 20) [*]
theorem execClkenWrite_canonical (part : Part) (v : Word) (s : State) (hs : s.Canonical) (t0 : State) (h0 : execClkenWrite part v s = .next t0) : t0.Canonical := by
  obtain ⟨_, rfl⟩ := ok_next h0
  clear h0
  simp +contextual (maxDischargeDepth := 20) [*]
theorem execTrimWrite_canonical (part : Part) (v : Word) (s : State) (hs : s.Canonical) (t0 : State) (h0 : execTrimWrite part v s = .next t0) : t0.Canonical := by
  obtain ⟨_, rfl⟩ := ok_next h0
  clear h0
  simp +contextual (maxDischargeDepth := 20) [*]
theorem execBreakctlWrite_canonical (u : Nat) (part : Part) (v : Word) (s : State) (hs : s.Canonical) (t0 : State) (h0 : execBreakctlWrite u part v s = .next t0) : t0.Canonical := by
  obtain ⟨_, rfl⟩ := ok_next h0
  clear h0
  simp +contextual (maxDischargeDepth := 20) [*]
theorem execBreakResume_canonical (u : Nat) (s : State) (hs : s.Canonical) (t0 : State) (h0 : execBreakResume u s = .next t0) : t0.Canonical := by
  obtain ⟨_, rfl⟩ := ok_next h0
  clear h0
  simp +contextual (maxDischargeDepth := 20) [*]
theorem execTraceClear_canonical (part : Part) (v : Word) (s : State) (hs : s.Canonical) (t0 : State) (h0 : execTraceClear part v s = .next t0) : t0.Canonical := by
  obtain ⟨_, rfl⟩ := ok_next h0
  clear h0
  simp +contextual (maxDischargeDepth := 20) [*]
theorem execFlush_canonical (part : Part) (v : Word) (s : State) (hs : s.Canonical) (t0 : State) (h0 : execFlush part v s = .next t0) : t0.Canonical := by
  obtain ⟨_, rfl⟩ := ok_next h0
  clear h0
  simp +contextual (maxDischargeDepth := 20) [*]
theorem execRegisterWrite_canonical (offset : Nat) (part : Part) (v : Word) (s : State) (hs : s.Canonical) (t0 : State) (h0 : execRegisterWrite offset part v s = .next t0) : t0.Canonical := by
  obtain ⟨_, rfl⟩ := ok_next h0
  clear h0
  (repeat' split) <;> simp +contextual (maxDischargeDepth := 20) [*]
@[simp] theorem State.doLatchedRead_canonical (s : State) (fn : Fn) (r : LatchReg) (part : Part) (hs : s.Canonical) :
    (State.doLatchedRead s fn r part).Canonical := by
  unfold State.doLatchedRead
  (repeat' split) <;> simp +contextual (maxDischargeDepth := 20) [*]
theorem execLatchedDataRead_canonical (fn : Fn) (r : LatchRead) (s : State) (hs : s.Canonical) (t0 : State) (h0 : execLatchedDataRead fn r s = .next t0) : t0.Canonical := by
  obtain ⟨_, rfl⟩ := ok_next h0
  clear h0
  simp +contextual (maxDischargeDepth := 20) [*]
@[simp] theorem State.readPage_canonical (s : State) (fn : Fn) (q off : Nat) (part : Part) (hs : s.Canonical) :
    (State.readPage s fn q off part).Canonical := by
  unfold State.readPage
  (repeat' split) <;> simp +contextual (maxDischargeDepth := 20) [*]
@[simp] theorem State.readRegs_canonical (s : State) (off : Nat) (hs : s.Canonical) :
    (State.readRegs s off).Canonical := by
  unfold State.readRegs
  (repeat' split) <;> simp +contextual (maxDischargeDepth := 20) [*]
@[simp] theorem State.readBar_canonical (s : State) (off : Nat) (part : Part) (hs : s.Canonical) :
    (State.readBar s off part).Canonical := by
  unfold State.readBar
  try dsimp only
  (repeat' split) <;> simp +contextual (maxDischargeDepth := 20) [*]
@[simp] theorem State.doRead_canonical (s : State) (fn : Fn) (r : CountReg) (part : Part) (hs : s.Canonical) :
    (State.doRead s fn r part).Canonical := by
  unfold State.doRead
  (repeat' split) <;> simp +contextual (maxDischargeDepth := 20) [*]
theorem execLowHalfRead_canonical (fn : Fn) (r : CountReg) (part : Part) (s : State) (hs : s.Canonical) (t0 : State) (h0 : execLowHalfRead fn r part s = .next t0) : t0.Canonical := by
  obtain ⟨_, rfl⟩ := ok_next h0
  clear h0
  simp +contextual (maxDischargeDepth := 20) [*]
@[simp] theorem State.placcessWrite_canonical (s : State) (addr : Nat) (v : Word) (hs : s.Canonical) :
    (State.placcessWrite s addr v).Canonical := by
  unfold State.placcessWrite
  (repeat' split) <;> simp +contextual (maxDischargeDepth := 20) [*]
theorem execPlaccessUpdate_canonical (addr : Nat) (v : Word) (s : State) (hs : s.Canonical) (t0 : State) (h0 : execPlaccessUpdate addr v s = .next t0) : t0.Canonical := by
  obtain ⟨_, rfl⟩ := ok_next h0
  clear h0
  simp +contextual (maxDischargeDepth := 20) [*]
theorem execPlaccessRead_canonical (addr : Nat) (s : State) (hs : s.Canonical) (t0 : State) (h0 : execPlaccessRead addr s = .next t0) : t0.Canonical := by
  obtain ⟨_, rfl⟩ := ok_next h0
  clear h0
  simp +contextual (maxDischargeDepth := 20) [*]
@[simp] theorem State.unpowered_canonical (s : State) (hs : s.Canonical) : s.unpowered.Canonical := by
  simp [State.unpowered, State.reset]
@[simp] theorem State.supplyGood_canonical (s : State) (factory : Bool) (hs : s.Canonical) :
    (State.supplyGood s factory).Canonical := by
  unfold State.supplyGood
  simp +contextual (maxDischargeDepth := 20) [*]
theorem execPowerUp_canonical (factory : Bool) (s : State) (hs : s.Canonical) (t0 : State) (h0 : execPowerUp factory s = .next t0) : t0.Canonical := by
  obtain ⟨_, rfl⟩ := ok_next h0
  clear h0
  simp +contextual (maxDischargeDepth := 20) [*]
theorem execPowerRemoval_canonical (s : State) (hs : s.Canonical) (t0 : State) (h0 : execPowerRemoval s = .next t0) : t0.Canonical := by
  obtain ⟨_, rfl⟩ := ok_next h0
  clear h0
  simp +contextual (maxDischargeDepth := 20) [*]
theorem execStabilityWindow_canonical (count : Nat) (s : State) (hs : s.Canonical) (t0 : State) (h0 : execStabilityWindow count s = .next t0) : t0.Canonical := by
  obtain ⟨_, rfl⟩ := ok_next h0
  clear h0
  (repeat' split) <;> simp +contextual (maxDischargeDepth := 20) [*]
theorem execStabilityTimeout_canonical (s : State) (hs : s.Canonical) (t0 : State) (h0 : execStabilityTimeout s = .next t0) : t0.Canonical := by
  obtain ⟨_, rfl⟩ := ok_next h0
  clear h0
  (repeat' split) <;> simp +contextual (maxDischargeDepth := 20) [*]
@[simp] theorem State.settleXing_canonical (s : State) (hs : s.Canonical) :
    (State.settleXing s).Canonical := by
  unfold State.settleXing
  simp +contextual (maxDischargeDepth := 20) [*]
@[simp] theorem State.enterTrim_canonical (s : State) (st : TrimState) (hs : s.Canonical) :
    (State.enterTrim s st).Canonical := by
  unfold State.enterTrim
  simp +contextual (maxDischargeDepth := 20) [*]
@[simp] theorem State.measureGate_canonical (s : State) (count : Nat) (hs : s.Canonical) :
    (State.measureGate s count).Canonical := by
  unfold State.measureGate
  try dsimp only
  (repeat' split) <;> simp +contextual (maxDischargeDepth := 20) [*]
@[simp] theorem State.applyTrim_canonical (s : State) (hs : s.Canonical) :
    (State.applyTrim s).Canonical := by
  unfold State.applyTrim
  try dsimp only
  (repeat' split) <;> simp +contextual (maxDischargeDepth := 20) [*]
theorem execTrimGate_canonical (count : Nat) (s : State) (hs : s.Canonical) (t0 : State) (h0 : execTrimGate count s = .next t0) : t0.Canonical := by
  obtain ⟨_, rfl⟩ := ok_next h0
  clear h0
  try dsimp only
  repeat' first | (with_reducible assumption) | split | (with_reducible apply State.when_canonical <;> intros) | (with_reducible apply State.sbAnswer_canonical <;> intros) | (with_reducible apply State.deliver_canonical <;> intros) | (with_reducible apply State.granted_canonical <;> intros) | (with_reducible apply State.dataArrives_canonical <;> intros) | (with_reducible apply State.withLines_canonical <;> intros) | (with_reducible apply State.withReads_canonical <;> intros) | (with_reducible apply State.whenHeld_canonical <;> intros) | (with_reducible apply State.lookup_canonical <;> intros) | (with_reducible apply State.hostRead_canonical <;> intros) | (with_reducible apply State.hostWrite_canonical <;> intros) | (with_reducible apply State.delivery_canonical <;> intros) | (with_reducible apply State.pageRead_canonical <;> intros) | (with_reducible apply State.pageWrite_canonical <;> intros) | (with_reducible apply State.stewardLines_canonical <;> intros) | (with_reducible apply State.choiceLines_canonical <;> intros) | (with_reducible apply State.preloadRead_canonical <;> intros) | (with_reducible apply State.opStep_canonical <;> intros) | (with_reducible apply State.receive_canonical <;> intros) | (with_reducible apply State.onObject_canonical <;> intros) | (with_reducible apply State.endOwner_canonical <;> intros) | (with_reducible apply State.chipWide_canonical <;> intros) | (with_reducible apply State.kernelStep_canonical <;> intros) | (with_reducible apply State.coreInstr_canonical <;> intros) | (with_reducible apply State.endArrival_canonical <;> intros) | (with_reducible apply State.notice_canonical <;> intros) | (with_reducible apply State.fenceNotice_canonical <;> intros) | (with_reducible apply State.handleStep_canonical <;> intros) | (with_reducible apply State.sysStep_canonical <;> intros) | (with_reducible apply State.forAll_canonical <;> intros) | (with_reducible apply foldl_canonical <;> intros)
  all_goals simp +contextual (maxDischargeDepth := 20) [*]
theorem execReferenceLoss_canonical (s : State) (hs : s.Canonical) (t0 : State) (h0 : execReferenceLoss s = .next t0) : t0.Canonical := by
  obtain ⟨_, rfl⟩ := ok_next h0
  clear h0
  try dsimp only
  repeat' first | (with_reducible assumption) | split | (with_reducible apply State.when_canonical <;> intros) | (with_reducible apply State.sbAnswer_canonical <;> intros) | (with_reducible apply State.deliver_canonical <;> intros) | (with_reducible apply State.granted_canonical <;> intros) | (with_reducible apply State.dataArrives_canonical <;> intros) | (with_reducible apply State.withLines_canonical <;> intros) | (with_reducible apply State.withReads_canonical <;> intros) | (with_reducible apply State.whenHeld_canonical <;> intros) | (with_reducible apply State.lookup_canonical <;> intros) | (with_reducible apply State.hostRead_canonical <;> intros) | (with_reducible apply State.hostWrite_canonical <;> intros) | (with_reducible apply State.delivery_canonical <;> intros) | (with_reducible apply State.pageRead_canonical <;> intros) | (with_reducible apply State.pageWrite_canonical <;> intros) | (with_reducible apply State.stewardLines_canonical <;> intros) | (with_reducible apply State.choiceLines_canonical <;> intros) | (with_reducible apply State.preloadRead_canonical <;> intros) | (with_reducible apply State.opStep_canonical <;> intros) | (with_reducible apply State.receive_canonical <;> intros) | (with_reducible apply State.onObject_canonical <;> intros) | (with_reducible apply State.endOwner_canonical <;> intros) | (with_reducible apply State.chipWide_canonical <;> intros) | (with_reducible apply State.kernelStep_canonical <;> intros) | (with_reducible apply State.coreInstr_canonical <;> intros) | (with_reducible apply State.endArrival_canonical <;> intros) | (with_reducible apply State.notice_canonical <;> intros) | (with_reducible apply State.fenceNotice_canonical <;> intros) | (with_reducible apply State.handleStep_canonical <;> intros) | (with_reducible apply State.sysStep_canonical <;> intros) | (with_reducible apply State.forAll_canonical <;> intros) | (with_reducible apply foldl_canonical <;> intros)
  all_goals simp +contextual (maxDischargeDepth := 20) [*]
theorem execReferenceReturn_canonical (s : State) (hs : s.Canonical) (t0 : State) (h0 : execReferenceReturn s = .next t0) : t0.Canonical := by
  obtain ⟨_, rfl⟩ := ok_next h0
  clear h0
  try dsimp only
  repeat' first | (with_reducible assumption) | split | (with_reducible apply State.when_canonical <;> intros) | (with_reducible apply State.sbAnswer_canonical <;> intros) | (with_reducible apply State.deliver_canonical <;> intros) | (with_reducible apply State.granted_canonical <;> intros) | (with_reducible apply State.dataArrives_canonical <;> intros) | (with_reducible apply State.withLines_canonical <;> intros) | (with_reducible apply State.withReads_canonical <;> intros) | (with_reducible apply State.whenHeld_canonical <;> intros) | (with_reducible apply State.lookup_canonical <;> intros) | (with_reducible apply State.hostRead_canonical <;> intros) | (with_reducible apply State.hostWrite_canonical <;> intros) | (with_reducible apply State.delivery_canonical <;> intros) | (with_reducible apply State.pageRead_canonical <;> intros) | (with_reducible apply State.pageWrite_canonical <;> intros) | (with_reducible apply State.stewardLines_canonical <;> intros) | (with_reducible apply State.choiceLines_canonical <;> intros) | (with_reducible apply State.preloadRead_canonical <;> intros) | (with_reducible apply State.opStep_canonical <;> intros) | (with_reducible apply State.receive_canonical <;> intros) | (with_reducible apply State.onObject_canonical <;> intros) | (with_reducible apply State.endOwner_canonical <;> intros) | (with_reducible apply State.chipWide_canonical <;> intros) | (with_reducible apply State.kernelStep_canonical <;> intros) | (with_reducible apply State.coreInstr_canonical <;> intros) | (with_reducible apply State.endArrival_canonical <;> intros) | (with_reducible apply State.notice_canonical <;> intros) | (with_reducible apply State.fenceNotice_canonical <;> intros) | (with_reducible apply State.handleStep_canonical <;> intros) | (with_reducible apply State.sysStep_canonical <;> intros) | (with_reducible apply State.forAll_canonical <;> intros) | (with_reducible apply foldl_canonical <;> intros)
  all_goals simp +contextual (maxDischargeDepth := 20) [*]
theorem execHoldoverExpiry_canonical (s : State) (hs : s.Canonical) (t0 : State) (h0 : execHoldoverExpiry s = .next t0) : t0.Canonical := by
  obtain ⟨_, rfl⟩ := ok_next h0
  clear h0
  simp +contextual (maxDischargeDepth := 20) [*]
theorem execLinkClockLoss_canonical (s : State) (hs : s.Canonical) (t0 : State) (h0 : execLinkClockLoss s = .next t0) : t0.Canonical := by
  obtain ⟨_, rfl⟩ := ok_next h0
  clear h0
  simp +contextual (maxDischargeDepth := 20) [*]
theorem execLinkClockReturn_canonical (s : State) (hs : s.Canonical) (t0 : State) (h0 : execLinkClockReturn s = .next t0) : t0.Canonical := by
  obtain ⟨_, rfl⟩ := ok_next h0
  clear h0
  simp +contextual (maxDischargeDepth := 20) [*]
theorem execIdleEntry_canonical (s : State) (hs : s.Canonical) (t0 : State) (h0 : execIdleEntry s = .next t0) : t0.Canonical := by
  obtain ⟨_, rfl⟩ := ok_next h0
  clear h0
  try dsimp only
  repeat' first | (with_reducible assumption) | split | (with_reducible apply State.when_canonical <;> intros) | (with_reducible apply State.sbAnswer_canonical <;> intros) | (with_reducible apply State.deliver_canonical <;> intros) | (with_reducible apply State.granted_canonical <;> intros) | (with_reducible apply State.dataArrives_canonical <;> intros) | (with_reducible apply State.withLines_canonical <;> intros) | (with_reducible apply State.withReads_canonical <;> intros) | (with_reducible apply State.whenHeld_canonical <;> intros) | (with_reducible apply State.lookup_canonical <;> intros) | (with_reducible apply State.hostRead_canonical <;> intros) | (with_reducible apply State.hostWrite_canonical <;> intros) | (with_reducible apply State.delivery_canonical <;> intros) | (with_reducible apply State.pageRead_canonical <;> intros) | (with_reducible apply State.pageWrite_canonical <;> intros) | (with_reducible apply State.stewardLines_canonical <;> intros) | (with_reducible apply State.choiceLines_canonical <;> intros) | (with_reducible apply State.preloadRead_canonical <;> intros) | (with_reducible apply State.opStep_canonical <;> intros) | (with_reducible apply State.receive_canonical <;> intros) | (with_reducible apply State.onObject_canonical <;> intros) | (with_reducible apply State.endOwner_canonical <;> intros) | (with_reducible apply State.chipWide_canonical <;> intros) | (with_reducible apply State.kernelStep_canonical <;> intros) | (with_reducible apply State.coreInstr_canonical <;> intros) | (with_reducible apply State.endArrival_canonical <;> intros) | (with_reducible apply State.notice_canonical <;> intros) | (with_reducible apply State.fenceNotice_canonical <;> intros) | (with_reducible apply State.handleStep_canonical <;> intros) | (with_reducible apply State.sysStep_canonical <;> intros) | (with_reducible apply State.forAll_canonical <;> intros) | (with_reducible apply foldl_canonical <;> intros)
  all_goals simp +contextual (maxDischargeDepth := 20) [*]
theorem execIdleWake_canonical (s : State) (hs : s.Canonical) (t0 : State) (h0 : execIdleWake s = .next t0) : t0.Canonical := by
  obtain ⟨_, rfl⟩ := ok_next h0
  clear h0
  (repeat' split) <;> simp +contextual (maxDischargeDepth := 20) [*]
theorem execPlaliveToggle_canonical (s : State) (hs : s.Canonical) (t0 : State) (h0 : execPlaliveToggle s = .next t0) : t0.Canonical := by
  obtain ⟨_, rfl⟩ := ok_next h0
  clear h0
  simp +contextual (maxDischargeDepth := 20) [*]
theorem execEnergyCalibrated_canonical (f : Nat) (s : State) (hs : s.Canonical) (t0 : State) (h0 : execEnergyCalibrated f s = .next t0) : t0.Canonical := by
  obtain ⟨_, rfl⟩ := ok_next h0
  clear h0
  try dsimp only
  repeat' first | (with_reducible assumption) | split | (with_reducible apply State.when_canonical <;> intros) | (with_reducible apply State.sbAnswer_canonical <;> intros) | (with_reducible apply State.deliver_canonical <;> intros) | (with_reducible apply State.granted_canonical <;> intros) | (with_reducible apply State.dataArrives_canonical <;> intros) | (with_reducible apply State.withLines_canonical <;> intros) | (with_reducible apply State.withReads_canonical <;> intros) | (with_reducible apply State.whenHeld_canonical <;> intros) | (with_reducible apply State.lookup_canonical <;> intros) | (with_reducible apply State.hostRead_canonical <;> intros) | (with_reducible apply State.hostWrite_canonical <;> intros) | (with_reducible apply State.delivery_canonical <;> intros) | (with_reducible apply State.pageRead_canonical <;> intros) | (with_reducible apply State.pageWrite_canonical <;> intros) | (with_reducible apply State.stewardLines_canonical <;> intros) | (with_reducible apply State.choiceLines_canonical <;> intros) | (with_reducible apply State.preloadRead_canonical <;> intros) | (with_reducible apply State.opStep_canonical <;> intros) | (with_reducible apply State.receive_canonical <;> intros) | (with_reducible apply State.onObject_canonical <;> intros) | (with_reducible apply State.endOwner_canonical <;> intros) | (with_reducible apply State.chipWide_canonical <;> intros) | (with_reducible apply State.kernelStep_canonical <;> intros) | (with_reducible apply State.coreInstr_canonical <;> intros) | (with_reducible apply State.endArrival_canonical <;> intros) | (with_reducible apply State.notice_canonical <;> intros) | (with_reducible apply State.fenceNotice_canonical <;> intros) | (with_reducible apply State.handleStep_canonical <;> intros) | (with_reducible apply State.sysStep_canonical <;> intros) | (with_reducible apply State.forAll_canonical <;> intros) | (with_reducible apply foldl_canonical <;> intros)
  all_goals simp +contextual (maxDischargeDepth := 20) [*]
theorem execTemperatureReport_canonical (celsius : Int) (s : State) (hs : s.Canonical) (t0 : State) (h0 : execTemperatureReport celsius s = .next t0) : t0.Canonical := by
  obtain ⟨_, rfl⟩ := ok_next h0
  clear h0
  simp +contextual (maxDischargeDepth := 20) [*]
theorem execTransferEnd_canonical (f : Nat) (tag : BitVec 32) (dest : BitVec 14) (packets : Nat) (s : State) (hs : s.Canonical) (t0 : State) (h0 : execTransferEnd f tag dest packets s = .next t0) : t0.Canonical := by
  obtain ⟨_, rfl⟩ := ok_next h0
  clear h0
  simp +contextual (maxDischargeDepth := 20) [*]
@[simp] theorem State.blockWindow_canonical (s : State) (k fr : Nat) (r : Run) (addr : Word) (hs : s.Canonical) :
    (State.blockWindow s k fr r addr).Canonical := by
  unfold State.blockWindow
  (repeat' split) <;> simp +contextual (maxDischargeDepth := 20) [*]
@[simp] theorem State.blockStep_canonical (s : State) (k rd ra rb lines op : Nat) (hs : s.Canonical) :
    (State.blockStep s k rd ra rb lines op).Canonical := by
  unfold State.blockStep
  try dsimp only
  repeat' first | (with_reducible assumption) | split | (with_reducible apply State.when_canonical <;> intros) | (with_reducible apply State.sbAnswer_canonical <;> intros) | (with_reducible apply State.deliver_canonical <;> intros) | (with_reducible apply State.granted_canonical <;> intros) | (with_reducible apply State.dataArrives_canonical <;> intros) | (with_reducible apply State.withLines_canonical <;> intros) | (with_reducible apply State.withReads_canonical <;> intros) | (with_reducible apply State.whenHeld_canonical <;> intros) | (with_reducible apply State.lookup_canonical <;> intros) | (with_reducible apply State.hostRead_canonical <;> intros) | (with_reducible apply State.hostWrite_canonical <;> intros) | (with_reducible apply State.delivery_canonical <;> intros) | (with_reducible apply State.pageRead_canonical <;> intros) | (with_reducible apply State.pageWrite_canonical <;> intros) | (with_reducible apply State.stewardLines_canonical <;> intros) | (with_reducible apply State.choiceLines_canonical <;> intros) | (with_reducible apply State.preloadRead_canonical <;> intros) | (with_reducible apply State.opStep_canonical <;> intros) | (with_reducible apply State.receive_canonical <;> intros) | (with_reducible apply State.onObject_canonical <;> intros) | (with_reducible apply State.endOwner_canonical <;> intros) | (with_reducible apply State.chipWide_canonical <;> intros) | (with_reducible apply State.kernelStep_canonical <;> intros) | (with_reducible apply State.coreInstr_canonical <;> intros) | (with_reducible apply State.endArrival_canonical <;> intros) | (with_reducible apply State.notice_canonical <;> intros) | (with_reducible apply State.fenceNotice_canonical <;> intros) | (with_reducible apply State.handleStep_canonical <;> intros) | (with_reducible apply State.sysStep_canonical <;> intros) | (with_reducible apply State.forAll_canonical <;> intros) | (with_reducible apply foldl_canonical <;> intros)
  all_goals simp +contextual (maxDischargeDepth := 20) [*]
theorem execMfill_canonical (k rd ra rb lines : Nat) (s : State) (hs : s.Canonical) (t0 : State) (h0 : execMfill k rd ra rb lines s = .next t0) : t0.Canonical := by
  obtain ⟨_, rfl⟩ := ok_next h0
  clear h0
  simp +contextual (maxDischargeDepth := 20) [*]
theorem execMdrain_canonical (k rd ra rb lines : Nat) (s : State) (hs : s.Canonical) (t0 : State) (h0 : execMdrain k rd ra rb lines s = .next t0) : t0.Canonical := by
  obtain ⟨_, rfl⟩ := ok_next h0
  clear h0
  simp +contextual (maxDischargeDepth := 20) [*]
@[simp] theorem State.fillEcc_canonical (s : State) (k fr : Nat) (r : Run) (x : Transfer) (line : Nat) (hs : s.Canonical) :
    (State.fillEcc s k fr r x line).Canonical := by
  unfold State.fillEcc
  (repeat' split) <;> simp +contextual (maxDischargeDepth := 20) [*]
theorem execBlockTransferComplete_canonical (k fr : Nat) (a : FabricReply) (s : State) (hs : s.Canonical) (t0 : State) (h0 : execBlockTransferComplete k fr a s = .next t0) : t0.Canonical := by
  obtain ⟨_, rfl⟩ := ok_next h0
  clear h0
  try dsimp only
  repeat' first | (with_reducible assumption) | split | (with_reducible apply State.when_canonical <;> intros) | (with_reducible apply State.sbAnswer_canonical <;> intros) | (with_reducible apply State.deliver_canonical <;> intros) | (with_reducible apply State.granted_canonical <;> intros) | (with_reducible apply State.dataArrives_canonical <;> intros) | (with_reducible apply State.withLines_canonical <;> intros) | (with_reducible apply State.withReads_canonical <;> intros) | (with_reducible apply State.whenHeld_canonical <;> intros) | (with_reducible apply State.lookup_canonical <;> intros) | (with_reducible apply State.hostRead_canonical <;> intros) | (with_reducible apply State.hostWrite_canonical <;> intros) | (with_reducible apply State.delivery_canonical <;> intros) | (with_reducible apply State.pageRead_canonical <;> intros) | (with_reducible apply State.pageWrite_canonical <;> intros) | (with_reducible apply State.stewardLines_canonical <;> intros) | (with_reducible apply State.choiceLines_canonical <;> intros) | (with_reducible apply State.preloadRead_canonical <;> intros) | (with_reducible apply State.opStep_canonical <;> intros) | (with_reducible apply State.receive_canonical <;> intros) | (with_reducible apply State.onObject_canonical <;> intros) | (with_reducible apply State.endOwner_canonical <;> intros) | (with_reducible apply State.chipWide_canonical <;> intros) | (with_reducible apply State.kernelStep_canonical <;> intros) | (with_reducible apply State.coreInstr_canonical <;> intros) | (with_reducible apply State.endArrival_canonical <;> intros) | (with_reducible apply State.notice_canonical <;> intros) | (with_reducible apply State.fenceNotice_canonical <;> intros) | (with_reducible apply State.handleStep_canonical <;> intros) | (with_reducible apply State.sysStep_canonical <;> intros) | (with_reducible apply State.forAll_canonical <;> intros) | (with_reducible apply foldl_canonical <;> intros)
  all_goals simp +contextual (maxDischargeDepth := 20) [*]
@[simp] theorem State.stallRun_canonical (s : State) (k fr : Nat) (r : Run) (x : LineAccess) (hs : s.Canonical) :
    (State.stallRun s k fr r x).Canonical := by
  unfold State.stallRun
  (repeat' split) <;> simp +contextual (maxDischargeDepth := 20) [*]
@[simp] theorem State.loadWord_canonical (s : State) (k fr rd : Nat) (r : Run) (v : Word) (bad : Option Found) (hs : s.Canonical) :
    (State.loadWord s k fr rd r v bad).Canonical := by
  unfold State.loadWord
  (repeat' split) <;> simp +contextual (maxDischargeDepth := 20) [*]
theorem execTld_canonical (x : CoreRead) (rd ra rb : Nat) (s : State) (hs : s.Canonical) (t0 : State) (h0 : execTld x rd ra rb s = .next t0) : t0.Canonical := by
  obtain ⟨_, rfl⟩ := ok_next h0
  clear h0
  try dsimp only
  repeat' first | (with_reducible assumption) | split | (with_reducible apply State.when_canonical <;> intros) | (with_reducible apply State.sbAnswer_canonical <;> intros) | (with_reducible apply State.deliver_canonical <;> intros) | (with_reducible apply State.granted_canonical <;> intros) | (with_reducible apply State.dataArrives_canonical <;> intros) | (with_reducible apply State.withLines_canonical <;> intros) | (with_reducible apply State.withReads_canonical <;> intros) | (with_reducible apply State.whenHeld_canonical <;> intros) | (with_reducible apply State.lookup_canonical <;> intros) | (with_reducible apply State.hostRead_canonical <;> intros) | (with_reducible apply State.hostWrite_canonical <;> intros) | (with_reducible apply State.delivery_canonical <;> intros) | (with_reducible apply State.pageRead_canonical <;> intros) | (with_reducible apply State.pageWrite_canonical <;> intros) | (with_reducible apply State.stewardLines_canonical <;> intros) | (with_reducible apply State.choiceLines_canonical <;> intros) | (with_reducible apply State.preloadRead_canonical <;> intros) | (with_reducible apply State.opStep_canonical <;> intros) | (with_reducible apply State.receive_canonical <;> intros) | (with_reducible apply State.onObject_canonical <;> intros) | (with_reducible apply State.endOwner_canonical <;> intros) | (with_reducible apply State.chipWide_canonical <;> intros) | (with_reducible apply State.kernelStep_canonical <;> intros) | (with_reducible apply State.coreInstr_canonical <;> intros) | (with_reducible apply State.endArrival_canonical <;> intros) | (with_reducible apply State.notice_canonical <;> intros) | (with_reducible apply State.fenceNotice_canonical <;> intros) | (with_reducible apply State.handleStep_canonical <;> intros) | (with_reducible apply State.sysStep_canonical <;> intros) | (with_reducible apply State.forAll_canonical <;> intros) | (with_reducible apply foldl_canonical <;> intros)
  all_goals simp +contextual (maxDischargeDepth := 20) [*]
theorem execTst_canonical (k rd ra rb : Nat) (s : State) (hs : s.Canonical) (t0 : State) (h0 : execTst k rd ra rb s = .next t0) : t0.Canonical := by
  obtain ⟨_, rfl⟩ := ok_next h0
  clear h0
  try dsimp only
  repeat' first | (with_reducible assumption) | split | (with_reducible apply State.when_canonical <;> intros) | (with_reducible apply State.sbAnswer_canonical <;> intros) | (with_reducible apply State.deliver_canonical <;> intros) | (with_reducible apply State.granted_canonical <;> intros) | (with_reducible apply State.dataArrives_canonical <;> intros) | (with_reducible apply State.withLines_canonical <;> intros) | (with_reducible apply State.withReads_canonical <;> intros) | (with_reducible apply State.whenHeld_canonical <;> intros) | (with_reducible apply State.lookup_canonical <;> intros) | (with_reducible apply State.hostRead_canonical <;> intros) | (with_reducible apply State.hostWrite_canonical <;> intros) | (with_reducible apply State.delivery_canonical <;> intros) | (with_reducible apply State.pageRead_canonical <;> intros) | (with_reducible apply State.pageWrite_canonical <;> intros) | (with_reducible apply State.stewardLines_canonical <;> intros) | (with_reducible apply State.choiceLines_canonical <;> intros) | (with_reducible apply State.preloadRead_canonical <;> intros) | (with_reducible apply State.opStep_canonical <;> intros) | (with_reducible apply State.receive_canonical <;> intros) | (with_reducible apply State.onObject_canonical <;> intros) | (with_reducible apply State.endOwner_canonical <;> intros) | (with_reducible apply State.chipWide_canonical <;> intros) | (with_reducible apply State.kernelStep_canonical <;> intros) | (with_reducible apply State.coreInstr_canonical <;> intros) | (with_reducible apply State.endArrival_canonical <;> intros) | (with_reducible apply State.notice_canonical <;> intros) | (with_reducible apply State.fenceNotice_canonical <;> intros) | (with_reducible apply State.handleStep_canonical <;> intros) | (with_reducible apply State.sysStep_canonical <;> intros) | (with_reducible apply State.forAll_canonical <;> intros) | (with_reducible apply foldl_canonical <;> intros)
  all_goals simp +contextual (maxDischargeDepth := 20) [*]
theorem execSbind_canonical (k rd ra rb : Nat) (s : State) (hs : s.Canonical) (t0 : State) (h0 : execSbind k rd ra rb s = .next t0) : t0.Canonical := by
  obtain ⟨_, rfl⟩ := ok_next h0
  clear h0
  try dsimp only
  repeat' first | (with_reducible assumption) | split | (with_reducible apply State.when_canonical <;> intros) | (with_reducible apply State.sbAnswer_canonical <;> intros) | (with_reducible apply State.deliver_canonical <;> intros) | (with_reducible apply State.granted_canonical <;> intros) | (with_reducible apply State.dataArrives_canonical <;> intros) | (with_reducible apply State.withLines_canonical <;> intros) | (with_reducible apply State.withReads_canonical <;> intros) | (with_reducible apply State.whenHeld_canonical <;> intros) | (with_reducible apply State.lookup_canonical <;> intros) | (with_reducible apply State.hostRead_canonical <;> intros) | (with_reducible apply State.hostWrite_canonical <;> intros) | (with_reducible apply State.delivery_canonical <;> intros) | (with_reducible apply State.pageRead_canonical <;> intros) | (with_reducible apply State.pageWrite_canonical <;> intros) | (with_reducible apply State.stewardLines_canonical <;> intros) | (with_reducible apply State.choiceLines_canonical <;> intros) | (with_reducible apply State.preloadRead_canonical <;> intros) | (with_reducible apply State.opStep_canonical <;> intros) | (with_reducible apply State.receive_canonical <;> intros) | (with_reducible apply State.onObject_canonical <;> intros) | (with_reducible apply State.endOwner_canonical <;> intros) | (with_reducible apply State.chipWide_canonical <;> intros) | (with_reducible apply State.kernelStep_canonical <;> intros) | (with_reducible apply State.coreInstr_canonical <;> intros) | (with_reducible apply State.endArrival_canonical <;> intros) | (with_reducible apply State.notice_canonical <;> intros) | (with_reducible apply State.fenceNotice_canonical <;> intros) | (with_reducible apply State.handleStep_canonical <;> intros) | (with_reducible apply State.sysStep_canonical <;> intros) | (with_reducible apply State.forAll_canonical <;> intros) | (with_reducible apply foldl_canonical <;> intros)
  all_goals simp +contextual (maxDischargeDepth := 20) [*]
@[simp] theorem State.pushStep_canonical (s : State) (k rd ra rb fn : Nat) (e : Run → Option Word) (hs : s.Canonical) :
    (State.pushStep s k rd ra rb fn e).Canonical := by
  unfold State.pushStep
  try dsimp only
  repeat' first | (with_reducible assumption) | split | (with_reducible apply State.when_canonical <;> intros) | (with_reducible apply State.sbAnswer_canonical <;> intros) | (with_reducible apply State.deliver_canonical <;> intros) | (with_reducible apply State.granted_canonical <;> intros) | (with_reducible apply State.dataArrives_canonical <;> intros) | (with_reducible apply State.withLines_canonical <;> intros) | (with_reducible apply State.withReads_canonical <;> intros) | (with_reducible apply State.whenHeld_canonical <;> intros) | (with_reducible apply State.lookup_canonical <;> intros) | (with_reducible apply State.hostRead_canonical <;> intros) | (with_reducible apply State.hostWrite_canonical <;> intros) | (with_reducible apply State.delivery_canonical <;> intros) | (with_reducible apply State.pageRead_canonical <;> intros) | (with_reducible apply State.pageWrite_canonical <;> intros) | (with_reducible apply State.stewardLines_canonical <;> intros) | (with_reducible apply State.choiceLines_canonical <;> intros) | (with_reducible apply State.preloadRead_canonical <;> intros) | (with_reducible apply State.opStep_canonical <;> intros) | (with_reducible apply State.receive_canonical <;> intros) | (with_reducible apply State.onObject_canonical <;> intros) | (with_reducible apply State.endOwner_canonical <;> intros) | (with_reducible apply State.chipWide_canonical <;> intros) | (with_reducible apply State.kernelStep_canonical <;> intros) | (with_reducible apply State.coreInstr_canonical <;> intros) | (with_reducible apply State.endArrival_canonical <;> intros) | (with_reducible apply State.notice_canonical <;> intros) | (with_reducible apply State.fenceNotice_canonical <;> intros) | (with_reducible apply State.handleStep_canonical <;> intros) | (with_reducible apply State.sysStep_canonical <;> intros) | (with_reducible apply State.forAll_canonical <;> intros) | (with_reducible apply foldl_canonical <;> intros)
  all_goals simp +contextual (maxDischargeDepth := 20) [*]
theorem execSpush_canonical (k rd ra rb : Nat) (s : State) (hs : s.Canonical) (t0 : State) (h0 : execSpush k rd ra rb s = .next t0) : t0.Canonical := by
  obtain ⟨_, rfl⟩ := ok_next h0
  clear h0
  simp +contextual (maxDischargeDepth := 20) [*]
theorem execSend_canonical (k rd ra rb : Nat) (s : State) (hs : s.Canonical) (t0 : State) (h0 : execSend k rd ra rb s = .next t0) : t0.Canonical := by
  obtain ⟨_, rfl⟩ := ok_next h0
  clear h0
  simp +contextual (maxDischargeDepth := 20) [*]
theorem execScred_canonical (k rd ra rb : Nat) (s : State) (hs : s.Canonical) (t0 : State) (h0 : execScred k rd ra rb s = .next t0) : t0.Canonical := by
  obtain ⟨_, rfl⟩ := ok_next h0
  clear h0
  try dsimp only
  repeat' first | (with_reducible assumption) | split | (with_reducible apply State.when_canonical <;> intros) | (with_reducible apply State.sbAnswer_canonical <;> intros) | (with_reducible apply State.deliver_canonical <;> intros) | (with_reducible apply State.granted_canonical <;> intros) | (with_reducible apply State.dataArrives_canonical <;> intros) | (with_reducible apply State.withLines_canonical <;> intros) | (with_reducible apply State.withReads_canonical <;> intros) | (with_reducible apply State.whenHeld_canonical <;> intros) | (with_reducible apply State.lookup_canonical <;> intros) | (with_reducible apply State.hostRead_canonical <;> intros) | (with_reducible apply State.hostWrite_canonical <;> intros) | (with_reducible apply State.delivery_canonical <;> intros) | (with_reducible apply State.pageRead_canonical <;> intros) | (with_reducible apply State.pageWrite_canonical <;> intros) | (with_reducible apply State.stewardLines_canonical <;> intros) | (with_reducible apply State.choiceLines_canonical <;> intros) | (with_reducible apply State.preloadRead_canonical <;> intros) | (with_reducible apply State.opStep_canonical <;> intros) | (with_reducible apply State.receive_canonical <;> intros) | (with_reducible apply State.onObject_canonical <;> intros) | (with_reducible apply State.endOwner_canonical <;> intros) | (with_reducible apply State.chipWide_canonical <;> intros) | (with_reducible apply State.kernelStep_canonical <;> intros) | (with_reducible apply State.coreInstr_canonical <;> intros) | (with_reducible apply State.endArrival_canonical <;> intros) | (with_reducible apply State.notice_canonical <;> intros) | (with_reducible apply State.fenceNotice_canonical <;> intros) | (with_reducible apply State.handleStep_canonical <;> intros) | (with_reducible apply State.sysStep_canonical <;> intros) | (with_reducible apply State.forAll_canonical <;> intros) | (with_reducible apply foldl_canonical <;> intros)
  all_goals simp +contextual (maxDischargeDepth := 20) [*]
theorem execStreamLineTimeout_canonical (k fr port : Nat) (s : State) (hs : s.Canonical) (t0 : State) (h0 : execStreamLineTimeout k fr port s = .next t0) : t0.Canonical := by
  obtain ⟨_, rfl⟩ := ok_next h0
  clear h0
  try dsimp only
  repeat' first | (with_reducible assumption) | split | (with_reducible apply State.when_canonical <;> intros) | (with_reducible apply State.sbAnswer_canonical <;> intros) | (with_reducible apply State.deliver_canonical <;> intros) | (with_reducible apply State.granted_canonical <;> intros) | (with_reducible apply State.dataArrives_canonical <;> intros) | (with_reducible apply State.withLines_canonical <;> intros) | (with_reducible apply State.withReads_canonical <;> intros) | (with_reducible apply State.whenHeld_canonical <;> intros) | (with_reducible apply State.lookup_canonical <;> intros) | (with_reducible apply State.hostRead_canonical <;> intros) | (with_reducible apply State.hostWrite_canonical <;> intros) | (with_reducible apply State.delivery_canonical <;> intros) | (with_reducible apply State.pageRead_canonical <;> intros) | (with_reducible apply State.pageWrite_canonical <;> intros) | (with_reducible apply State.stewardLines_canonical <;> intros) | (with_reducible apply State.choiceLines_canonical <;> intros) | (with_reducible apply State.preloadRead_canonical <;> intros) | (with_reducible apply State.opStep_canonical <;> intros) | (with_reducible apply State.receive_canonical <;> intros) | (with_reducible apply State.onObject_canonical <;> intros) | (with_reducible apply State.endOwner_canonical <;> intros) | (with_reducible apply State.chipWide_canonical <;> intros) | (with_reducible apply State.kernelStep_canonical <;> intros) | (with_reducible apply State.coreInstr_canonical <;> intros) | (with_reducible apply State.endArrival_canonical <;> intros) | (with_reducible apply State.notice_canonical <;> intros) | (with_reducible apply State.fenceNotice_canonical <;> intros) | (with_reducible apply State.handleStep_canonical <;> intros) | (with_reducible apply State.sysStep_canonical <;> intros) | (with_reducible apply State.forAll_canonical <;> intros) | (with_reducible apply foldl_canonical <;> intros)
  all_goals simp +contextual (maxDischargeDepth := 20) [*]
@[simp] theorem State.returnCredit_canonical (s : State) (k j : Nat) (p : Port) (hs : s.Canonical) :
    (State.returnCredit s k j p).Canonical := by
  unfold State.returnCredit
  (repeat' split) <;> simp +contextual (maxDischargeDepth := 20) [*]
theorem execStreamCreditReturn_canonical (p : PortReport) (s : State) (hs : s.Canonical) (t0 : State) (h0 : execStreamCreditReturn p s = .next t0) : t0.Canonical := by
  obtain ⟨_, rfl⟩ := ok_next h0
  clear h0
  apply State.when_canonical _ _ _ hs
  intro u hu
  apply State.reportFor_canonical _ _ _ _ hu
  intro r
  try dsimp only
  (repeat' split) <;> simp +contextual (maxDischargeDepth := 20) [*]
@[simp] theorem State.issue_canonical (s : State) (k fr rd : Nat) (r : Run) (d : Node) (n num : Nat) (ls cfg : List Line) (pred : Option Handle) (hs : s.Canonical) :
    (State.issue s k fr rd r d n num ls cfg pred).Canonical := by
  unfold State.issue
  simp +contextual (maxDischargeDepth := 20) [*]
theorem execEmit_canonical (k rd ra rb : Nat) (s : State) (hs : s.Canonical) (t0 : State) (h0 : execEmit k rd ra rb s = .next t0) : t0.Canonical := by
  obtain ⟨_, rfl⟩ := ok_next h0
  clear h0
  try dsimp only
  repeat' first | (with_reducible assumption) | split | (with_reducible apply State.when_canonical <;> intros) | (with_reducible apply State.sbAnswer_canonical <;> intros) | (with_reducible apply State.deliver_canonical <;> intros) | (with_reducible apply State.granted_canonical <;> intros) | (with_reducible apply State.dataArrives_canonical <;> intros) | (with_reducible apply State.withLines_canonical <;> intros) | (with_reducible apply State.withReads_canonical <;> intros) | (with_reducible apply State.whenHeld_canonical <;> intros) | (with_reducible apply State.lookup_canonical <;> intros) | (with_reducible apply State.hostRead_canonical <;> intros) | (with_reducible apply State.hostWrite_canonical <;> intros) | (with_reducible apply State.delivery_canonical <;> intros) | (with_reducible apply State.pageRead_canonical <;> intros) | (with_reducible apply State.pageWrite_canonical <;> intros) | (with_reducible apply State.stewardLines_canonical <;> intros) | (with_reducible apply State.choiceLines_canonical <;> intros) | (with_reducible apply State.preloadRead_canonical <;> intros) | (with_reducible apply State.opStep_canonical <;> intros) | (with_reducible apply State.receive_canonical <;> intros) | (with_reducible apply State.onObject_canonical <;> intros) | (with_reducible apply State.endOwner_canonical <;> intros) | (with_reducible apply State.chipWide_canonical <;> intros) | (with_reducible apply State.kernelStep_canonical <;> intros) | (with_reducible apply State.coreInstr_canonical <;> intros) | (with_reducible apply State.endArrival_canonical <;> intros) | (with_reducible apply State.notice_canonical <;> intros) | (with_reducible apply State.fenceNotice_canonical <;> intros) | (with_reducible apply State.handleStep_canonical <;> intros) | (with_reducible apply State.sysStep_canonical <;> intros) | (with_reducible apply State.forAll_canonical <;> intros) | (with_reducible apply foldl_canonical <;> intros)
  all_goals simp +contextual (maxDischargeDepth := 20) [*]
theorem execReemit_canonical (k rd ra rb : Nat) (s : State) (hs : s.Canonical) (t0 : State) (h0 : execReemit k rd ra rb s = .next t0) : t0.Canonical := by
  obtain ⟨_, rfl⟩ := ok_next h0
  clear h0
  try dsimp only
  repeat' first | (with_reducible assumption) | split | (with_reducible apply State.when_canonical <;> intros) | (with_reducible apply State.sbAnswer_canonical <;> intros) | (with_reducible apply State.deliver_canonical <;> intros) | (with_reducible apply State.granted_canonical <;> intros) | (with_reducible apply State.dataArrives_canonical <;> intros) | (with_reducible apply State.withLines_canonical <;> intros) | (with_reducible apply State.withReads_canonical <;> intros) | (with_reducible apply State.whenHeld_canonical <;> intros) | (with_reducible apply State.lookup_canonical <;> intros) | (with_reducible apply State.hostRead_canonical <;> intros) | (with_reducible apply State.hostWrite_canonical <;> intros) | (with_reducible apply State.delivery_canonical <;> intros) | (with_reducible apply State.pageRead_canonical <;> intros) | (with_reducible apply State.pageWrite_canonical <;> intros) | (with_reducible apply State.stewardLines_canonical <;> intros) | (with_reducible apply State.choiceLines_canonical <;> intros) | (with_reducible apply State.preloadRead_canonical <;> intros) | (with_reducible apply State.opStep_canonical <;> intros) | (with_reducible apply State.receive_canonical <;> intros) | (with_reducible apply State.onObject_canonical <;> intros) | (with_reducible apply State.endOwner_canonical <;> intros) | (with_reducible apply State.chipWide_canonical <;> intros) | (with_reducible apply State.kernelStep_canonical <;> intros) | (with_reducible apply State.coreInstr_canonical <;> intros) | (with_reducible apply State.endArrival_canonical <;> intros) | (with_reducible apply State.notice_canonical <;> intros) | (with_reducible apply State.fenceNotice_canonical <;> intros) | (with_reducible apply State.handleStep_canonical <;> intros) | (with_reducible apply State.sysStep_canonical <;> intros) | (with_reducible apply State.forAll_canonical <;> intros) | (with_reducible apply foldl_canonical <;> intros)
  all_goals simp +contextual (maxDischargeDepth := 20) [*]
@[simp] theorem State.handleStep_canonical (s : State) (k rd ra rb fn : Nat) (f : State → Nat → Run → Handle → State) (hs : s.Canonical) (h6 : ∀ (x0 : State) (x1 : Nat) (x2 : Run) (x3 : Handle), x0.Canonical → (f x0 x1 x2 x3).Canonical) :
    (State.handleStep s k rd ra rb fn f).Canonical := by
  unfold State.handleStep
  try dsimp only
  repeat' first | (with_reducible assumption) | split | (with_reducible apply State.when_canonical <;> intros) | (with_reducible apply State.sbAnswer_canonical <;> intros) | (with_reducible apply State.deliver_canonical <;> intros) | (with_reducible apply State.granted_canonical <;> intros) | (with_reducible apply State.dataArrives_canonical <;> intros) | (with_reducible apply State.withLines_canonical <;> intros) | (with_reducible apply State.withReads_canonical <;> intros) | (with_reducible apply State.whenHeld_canonical <;> intros) | (with_reducible apply State.lookup_canonical <;> intros) | (with_reducible apply State.hostRead_canonical <;> intros) | (with_reducible apply State.hostWrite_canonical <;> intros) | (with_reducible apply State.delivery_canonical <;> intros) | (with_reducible apply State.pageRead_canonical <;> intros) | (with_reducible apply State.pageWrite_canonical <;> intros) | (with_reducible apply State.stewardLines_canonical <;> intros) | (with_reducible apply State.choiceLines_canonical <;> intros) | (with_reducible apply State.preloadRead_canonical <;> intros) | (with_reducible apply State.opStep_canonical <;> intros) | (with_reducible apply State.receive_canonical <;> intros) | (with_reducible apply State.onObject_canonical <;> intros) | (with_reducible apply State.endOwner_canonical <;> intros) | (with_reducible apply State.chipWide_canonical <;> intros) | (with_reducible apply State.kernelStep_canonical <;> intros) | (with_reducible apply State.coreInstr_canonical <;> intros) | (with_reducible apply State.endArrival_canonical <;> intros) | (with_reducible apply State.notice_canonical <;> intros) | (with_reducible apply State.fenceNotice_canonical <;> intros) | (with_reducible apply State.handleStep_canonical <;> intros) | (with_reducible apply State.sysStep_canonical <;> intros) | (with_reducible apply State.forAll_canonical <;> intros) | (with_reducible apply foldl_canonical <;> intros)
  all_goals simp +contextual (maxDischargeDepth := 20) [*]
theorem execCwait_canonical (k rd ra rb : Nat) (s : State) (hs : s.Canonical) (t0 : State) (h0 : execCwait k rd ra rb s = .next t0) : t0.Canonical := by
  obtain ⟨_, rfl⟩ := ok_next h0
  clear h0
  try dsimp only
  repeat' first | (with_reducible assumption) | split | (with_reducible apply State.when_canonical <;> intros) | (with_reducible apply State.sbAnswer_canonical <;> intros) | (with_reducible apply State.deliver_canonical <;> intros) | (with_reducible apply State.granted_canonical <;> intros) | (with_reducible apply State.dataArrives_canonical <;> intros) | (with_reducible apply State.withLines_canonical <;> intros) | (with_reducible apply State.withReads_canonical <;> intros) | (with_reducible apply State.whenHeld_canonical <;> intros) | (with_reducible apply State.lookup_canonical <;> intros) | (with_reducible apply State.hostRead_canonical <;> intros) | (with_reducible apply State.hostWrite_canonical <;> intros) | (with_reducible apply State.delivery_canonical <;> intros) | (with_reducible apply State.pageRead_canonical <;> intros) | (with_reducible apply State.pageWrite_canonical <;> intros) | (with_reducible apply State.stewardLines_canonical <;> intros) | (with_reducible apply State.choiceLines_canonical <;> intros) | (with_reducible apply State.preloadRead_canonical <;> intros) | (with_reducible apply State.opStep_canonical <;> intros) | (with_reducible apply State.receive_canonical <;> intros) | (with_reducible apply State.onObject_canonical <;> intros) | (with_reducible apply State.endOwner_canonical <;> intros) | (with_reducible apply State.chipWide_canonical <;> intros) | (with_reducible apply State.kernelStep_canonical <;> intros) | (with_reducible apply State.coreInstr_canonical <;> intros) | (with_reducible apply State.endArrival_canonical <;> intros) | (with_reducible apply State.notice_canonical <;> intros) | (with_reducible apply State.fenceNotice_canonical <;> intros) | (with_reducible apply State.handleStep_canonical <;> intros) | (with_reducible apply State.sysStep_canonical <;> intros) | (with_reducible apply State.forAll_canonical <;> intros) | (with_reducible apply foldl_canonical <;> intros)
  all_goals simp +contextual (maxDischargeDepth := 20) [*]
theorem execDrop_canonical (k rd ra rb : Nat) (s : State) (hs : s.Canonical) (t0 : State) (h0 : execDrop k rd ra rb s = .next t0) : t0.Canonical := by
  obtain ⟨_, rfl⟩ := ok_next h0
  clear h0
  simp +contextual (maxDischargeDepth := 20) [*]
theorem execCpoll_canonical (k rd ra rb : Nat) (s : State) (hs : s.Canonical) (t0 : State) (h0 : execCpoll k rd ra rb s = .next t0) : t0.Canonical := by
  obtain ⟨_, rfl⟩ := ok_next h0
  clear h0
  simp +contextual (maxDischargeDepth := 20) [*]
@[simp] theorem State.hiveAnswer_canonical (s : State) (k fr rd : Nat) (r : Run) (n : Nat) (d : Node) (src obj : Nat) (e : HiveEnd) (hs : s.Canonical) :
    (State.hiveAnswer s k fr rd r n d src obj e).Canonical := by
  unfold State.hiveAnswer
  (repeat' split) <;> simp +contextual (maxDischargeDepth := 20) [*]
@[simp] theorem State.hiveStep_canonical (s : State) (c : Instr) (k rd ra rb fn : Nat) (op : HiveOp) (hs : s.Canonical) :
    (State.hiveStep s c k rd ra rb fn op).Canonical := by
  unfold State.hiveStep
  try dsimp only
  repeat' first | (with_reducible assumption) | split | (with_reducible apply State.when_canonical <;> intros) | (with_reducible apply State.sbAnswer_canonical <;> intros) | (with_reducible apply State.deliver_canonical <;> intros) | (with_reducible apply State.granted_canonical <;> intros) | (with_reducible apply State.dataArrives_canonical <;> intros) | (with_reducible apply State.withLines_canonical <;> intros) | (with_reducible apply State.withReads_canonical <;> intros) | (with_reducible apply State.whenHeld_canonical <;> intros) | (with_reducible apply State.lookup_canonical <;> intros) | (with_reducible apply State.hostRead_canonical <;> intros) | (with_reducible apply State.hostWrite_canonical <;> intros) | (with_reducible apply State.delivery_canonical <;> intros) | (with_reducible apply State.pageRead_canonical <;> intros) | (with_reducible apply State.pageWrite_canonical <;> intros) | (with_reducible apply State.stewardLines_canonical <;> intros) | (with_reducible apply State.choiceLines_canonical <;> intros) | (with_reducible apply State.preloadRead_canonical <;> intros) | (with_reducible apply State.opStep_canonical <;> intros) | (with_reducible apply State.receive_canonical <;> intros) | (with_reducible apply State.onObject_canonical <;> intros) | (with_reducible apply State.endOwner_canonical <;> intros) | (with_reducible apply State.chipWide_canonical <;> intros) | (with_reducible apply State.kernelStep_canonical <;> intros) | (with_reducible apply State.coreInstr_canonical <;> intros) | (with_reducible apply State.endArrival_canonical <;> intros) | (with_reducible apply State.notice_canonical <;> intros) | (with_reducible apply State.fenceNotice_canonical <;> intros) | (with_reducible apply State.handleStep_canonical <;> intros) | (with_reducible apply State.sysStep_canonical <;> intros) | (with_reducible apply State.forAll_canonical <;> intros) | (with_reducible apply foldl_canonical <;> intros)
  all_goals simp +contextual (maxDischargeDepth := 20) [*]
theorem execHadd_canonical (k rd ra rb : Nat) (s : State) (hs : s.Canonical) (t0 : State) (h0 : execHadd k rd ra rb s = .next t0) : t0.Canonical := by
  obtain ⟨_, rfl⟩ := ok_next h0
  clear h0
  simp +contextual (maxDischargeDepth := 20) [*]
theorem execHset_canonical (k rd ra rb : Nat) (s : State) (hs : s.Canonical) (t0 : State) (h0 : execHset k rd ra rb s = .next t0) : t0.Canonical := by
  obtain ⟨_, rfl⟩ := ok_next h0
  clear h0
  simp +contextual (maxDischargeDepth := 20) [*]
theorem execHor_canonical (k rd ra rb : Nat) (s : State) (hs : s.Canonical) (t0 : State) (h0 : execHor k rd ra rb s = .next t0) : t0.Canonical := by
  obtain ⟨_, rfl⟩ := ok_next h0
  clear h0
  simp +contextual (maxDischargeDepth := 20) [*]
theorem execHwait_canonical (k cmp rd ra rb : Nat) (s : State) (hs : s.Canonical) (t0 : State) (h0 : execHwait k cmp rd ra rb s = .next t0) : t0.Canonical := by
  obtain ⟨_, rfl⟩ := ok_next h0
  clear h0
  simp +contextual (maxDischargeDepth := 20) [*]
theorem execHarrive_canonical (k rd ra rb : Nat) (s : State) (hs : s.Canonical) (t0 : State) (h0 : execHarrive k rd ra rb s = .next t0) : t0.Canonical := by
  obtain ⟨_, rfl⟩ := ok_next h0
  clear h0
  simp +contextual (maxDischargeDepth := 20) [*]
theorem execHarrivenw_canonical (k rd ra rb : Nat) (s : State) (hs : s.Canonical) (t0 : State) (h0 : execHarrivenw k rd ra rb s = .next t0) : t0.Canonical := by
  obtain ⟨_, rfl⟩ := ok_next h0
  clear h0
  simp +contextual (maxDischargeDepth := 20) [*]
@[simp] theorem State.sysStep_canonical (s : State) (k rd ra rb fn : Nat) (f : State → Nat → Run → State) (hs : s.Canonical) (h6 : ∀ (x0 : State) (x1 : Nat) (x2 : Run), x0.Canonical → (f x0 x1 x2).Canonical) :
    (State.sysStep s k rd ra rb fn f).Canonical := by
  unfold State.sysStep
  simp +contextual (maxDischargeDepth := 20) [*]
theorem execExit_canonical (k rd ra rb : Nat) (s : State) (hs : s.Canonical) (t0 : State) (h0 : execExit k rd ra rb s = .next t0) : t0.Canonical := by
  obtain ⟨_, rfl⟩ := ok_next h0
  clear h0
  try dsimp only
  repeat' first | (with_reducible assumption) | split | (with_reducible apply State.when_canonical <;> intros) | (with_reducible apply State.sbAnswer_canonical <;> intros) | (with_reducible apply State.deliver_canonical <;> intros) | (with_reducible apply State.granted_canonical <;> intros) | (with_reducible apply State.dataArrives_canonical <;> intros) | (with_reducible apply State.withLines_canonical <;> intros) | (with_reducible apply State.withReads_canonical <;> intros) | (with_reducible apply State.whenHeld_canonical <;> intros) | (with_reducible apply State.lookup_canonical <;> intros) | (with_reducible apply State.hostRead_canonical <;> intros) | (with_reducible apply State.hostWrite_canonical <;> intros) | (with_reducible apply State.delivery_canonical <;> intros) | (with_reducible apply State.pageRead_canonical <;> intros) | (with_reducible apply State.pageWrite_canonical <;> intros) | (with_reducible apply State.stewardLines_canonical <;> intros) | (with_reducible apply State.choiceLines_canonical <;> intros) | (with_reducible apply State.preloadRead_canonical <;> intros) | (with_reducible apply State.opStep_canonical <;> intros) | (with_reducible apply State.receive_canonical <;> intros) | (with_reducible apply State.onObject_canonical <;> intros) | (with_reducible apply State.endOwner_canonical <;> intros) | (with_reducible apply State.chipWide_canonical <;> intros) | (with_reducible apply State.kernelStep_canonical <;> intros) | (with_reducible apply State.coreInstr_canonical <;> intros) | (with_reducible apply State.endArrival_canonical <;> intros) | (with_reducible apply State.notice_canonical <;> intros) | (with_reducible apply State.fenceNotice_canonical <;> intros) | (with_reducible apply State.handleStep_canonical <;> intros) | (with_reducible apply State.sysStep_canonical <;> intros) | (with_reducible apply State.forAll_canonical <;> intros) | (with_reducible apply foldl_canonical <;> intros)
  all_goals simp +contextual (maxDischargeDepth := 20) [*]
theorem execSysTrap_canonical (k rd ra rb : Nat) (s : State) (hs : s.Canonical) (t0 : State) (h0 : execSysTrap k rd ra rb s = .next t0) : t0.Canonical := by
  obtain ⟨_, rfl⟩ := ok_next h0
  clear h0
  simp +contextual (maxDischargeDepth := 20) [*]
theorem execYield_canonical (k rd ra rb : Nat) (s : State) (hs : s.Canonical) (t0 : State) (h0 : execYield k rd ra rb s = .next t0) : t0.Canonical := by
  obtain ⟨_, rfl⟩ := ok_next h0
  clear h0
  try dsimp only
  repeat' first | (with_reducible assumption) | split | (with_reducible apply State.when_canonical <;> intros) | (with_reducible apply State.sbAnswer_canonical <;> intros) | (with_reducible apply State.deliver_canonical <;> intros) | (with_reducible apply State.granted_canonical <;> intros) | (with_reducible apply State.dataArrives_canonical <;> intros) | (with_reducible apply State.withLines_canonical <;> intros) | (with_reducible apply State.withReads_canonical <;> intros) | (with_reducible apply State.whenHeld_canonical <;> intros) | (with_reducible apply State.lookup_canonical <;> intros) | (with_reducible apply State.hostRead_canonical <;> intros) | (with_reducible apply State.hostWrite_canonical <;> intros) | (with_reducible apply State.delivery_canonical <;> intros) | (with_reducible apply State.pageRead_canonical <;> intros) | (with_reducible apply State.pageWrite_canonical <;> intros) | (with_reducible apply State.stewardLines_canonical <;> intros) | (with_reducible apply State.choiceLines_canonical <;> intros) | (with_reducible apply State.preloadRead_canonical <;> intros) | (with_reducible apply State.opStep_canonical <;> intros) | (with_reducible apply State.receive_canonical <;> intros) | (with_reducible apply State.onObject_canonical <;> intros) | (with_reducible apply State.endOwner_canonical <;> intros) | (with_reducible apply State.chipWide_canonical <;> intros) | (with_reducible apply State.kernelStep_canonical <;> intros) | (with_reducible apply State.coreInstr_canonical <;> intros) | (with_reducible apply State.endArrival_canonical <;> intros) | (with_reducible apply State.notice_canonical <;> intros) | (with_reducible apply State.fenceNotice_canonical <;> intros) | (with_reducible apply State.handleStep_canonical <;> intros) | (with_reducible apply State.sysStep_canonical <;> intros) | (with_reducible apply State.forAll_canonical <;> intros) | (with_reducible apply foldl_canonical <;> intros)
  all_goals simp +contextual (maxDischargeDepth := 20) [*]
@[simp] theorem State.heartbeat_canonical (s : State) (hs : s.Canonical) :
    (State.heartbeat s).Canonical := by
  unfold State.heartbeat
  simp +contextual (maxDischargeDepth := 20) [*]
theorem execSysHeartbeat_canonical (k rd ra rb : Nat) (s : State) (hs : s.Canonical) (t0 : State) (h0 : execSysHeartbeat k rd ra rb s = .next t0) : t0.Canonical := by
  obtain ⟨_, rfl⟩ := ok_next h0
  clear h0
  try dsimp only
  repeat' first | (with_reducible assumption) | split | (with_reducible apply State.when_canonical <;> intros) | (with_reducible apply State.sbAnswer_canonical <;> intros) | (with_reducible apply State.deliver_canonical <;> intros) | (with_reducible apply State.granted_canonical <;> intros) | (with_reducible apply State.dataArrives_canonical <;> intros) | (with_reducible apply State.withLines_canonical <;> intros) | (with_reducible apply State.withReads_canonical <;> intros) | (with_reducible apply State.whenHeld_canonical <;> intros) | (with_reducible apply State.lookup_canonical <;> intros) | (with_reducible apply State.hostRead_canonical <;> intros) | (with_reducible apply State.hostWrite_canonical <;> intros) | (with_reducible apply State.delivery_canonical <;> intros) | (with_reducible apply State.pageRead_canonical <;> intros) | (with_reducible apply State.pageWrite_canonical <;> intros) | (with_reducible apply State.stewardLines_canonical <;> intros) | (with_reducible apply State.choiceLines_canonical <;> intros) | (with_reducible apply State.preloadRead_canonical <;> intros) | (with_reducible apply State.opStep_canonical <;> intros) | (with_reducible apply State.receive_canonical <;> intros) | (with_reducible apply State.onObject_canonical <;> intros) | (with_reducible apply State.endOwner_canonical <;> intros) | (with_reducible apply State.chipWide_canonical <;> intros) | (with_reducible apply State.kernelStep_canonical <;> intros) | (with_reducible apply State.coreInstr_canonical <;> intros) | (with_reducible apply State.endArrival_canonical <;> intros) | (with_reducible apply State.notice_canonical <;> intros) | (with_reducible apply State.fenceNotice_canonical <;> intros) | (with_reducible apply State.handleStep_canonical <;> intros) | (with_reducible apply State.sysStep_canonical <;> intros) | (with_reducible apply State.forAll_canonical <;> intros) | (with_reducible apply foldl_canonical <;> intros)
  all_goals simp +contextual (maxDischargeDepth := 20) [*]
theorem execMfs_canonical (k rd ra rb : Nat) (s : State) (hs : s.Canonical) (t0 : State) (h0 : execMfs k rd ra rb s = .next t0) : t0.Canonical := by
  obtain ⟨_, rfl⟩ := ok_next h0
  clear h0
  (repeat' split) <;> simp +contextual (maxDischargeDepth := 20) [*]
theorem execMts_canonical (k rd ra rb : Nat) (s : State) (hs : s.Canonical) (t0 : State) (h0 : execMts k rd ra rb s = .next t0) : t0.Canonical := by
  obtain ⟨_, rfl⟩ := ok_next h0
  clear h0
  simp +contextual (maxDischargeDepth := 20) [*]
theorem execSync_canonical (k rd ra rb : Nat) (s : State) (hs : s.Canonical) (t0 : State) (h0 : execSync k rd ra rb s = .next t0) : t0.Canonical := by
  obtain ⟨_, rfl⟩ := ok_next h0
  clear h0
  try dsimp only
  repeat' first | (with_reducible assumption) | split | (with_reducible apply State.when_canonical <;> intros) | (with_reducible apply State.sbAnswer_canonical <;> intros) | (with_reducible apply State.deliver_canonical <;> intros) | (with_reducible apply State.granted_canonical <;> intros) | (with_reducible apply State.dataArrives_canonical <;> intros) | (with_reducible apply State.withLines_canonical <;> intros) | (with_reducible apply State.withReads_canonical <;> intros) | (with_reducible apply State.whenHeld_canonical <;> intros) | (with_reducible apply State.lookup_canonical <;> intros) | (with_reducible apply State.hostRead_canonical <;> intros) | (with_reducible apply State.hostWrite_canonical <;> intros) | (with_reducible apply State.delivery_canonical <;> intros) | (with_reducible apply State.pageRead_canonical <;> intros) | (with_reducible apply State.pageWrite_canonical <;> intros) | (with_reducible apply State.stewardLines_canonical <;> intros) | (with_reducible apply State.choiceLines_canonical <;> intros) | (with_reducible apply State.preloadRead_canonical <;> intros) | (with_reducible apply State.opStep_canonical <;> intros) | (with_reducible apply State.receive_canonical <;> intros) | (with_reducible apply State.onObject_canonical <;> intros) | (with_reducible apply State.endOwner_canonical <;> intros) | (with_reducible apply State.chipWide_canonical <;> intros) | (with_reducible apply State.kernelStep_canonical <;> intros) | (with_reducible apply State.coreInstr_canonical <;> intros) | (with_reducible apply State.endArrival_canonical <;> intros) | (with_reducible apply State.notice_canonical <;> intros) | (with_reducible apply State.fenceNotice_canonical <;> intros) | (with_reducible apply State.handleStep_canonical <;> intros) | (with_reducible apply State.sysStep_canonical <;> intros) | (with_reducible apply State.forAll_canonical <;> intros) | (with_reducible apply foldl_canonical <;> intros)
  all_goals simp +contextual (maxDischargeDepth := 20) [*]
theorem execSysTrace_canonical (k rd ra rb : Nat) (s : State) (hs : s.Canonical) (t0 : State) (h0 : execSysTrace k rd ra rb s = .next t0) : t0.Canonical := by
  obtain ⟨_, rfl⟩ := ok_next h0
  clear h0
  simp +contextual (maxDischargeDepth := 20) [*]
theorem State.redo_canonical (s : State) (c : Instr) (hs : s.Canonical) (t : State) (h : s.redo c = .next t) :
    t.Canonical := by
  unfold State.redo at h
  cases c
  case doorbellWrite => exact execDoorbellWrite_canonical _ _ _ _ _ hs _ h
  case recackWrite => exact execRecackWrite_canonical _ _ _ _ _ hs _ h
  case retiredRead => exact execRetiredRead_canonical _ _ _ _ hs _ h
  case lowHalfRead => exact execLowHalfRead_canonical _ _ _ _ hs _ h
  case latchedDataRead => exact execLatchedDataRead_canonical _ _ _ hs _ h
  case registerWrite => exact execRegisterWrite_canonical _ _ _ _ hs _ h
  case hiveDebugSelWrite => exact execHiveDebugSelWrite_canonical _ _ _ hs _ h
  case abortqWrite => exact execAbortqWrite_canonical _ _ _ hs _ h
  case resetRequest => exact execResetRequest_canonical _ _ _ hs _ h
  case faultsrcWrite => exact execFaultsrcWrite_canonical _ _ _ hs _ h
  case groupWrite => exact execGroupWrite_canonical _ _ _ _ hs _ h
  case fencectlWrite => exact execFencectlWrite_canonical _ _ _ hs _ h
  case fenceseqWrite => exact execFenceseqWrite_canonical _ _ _ hs _ h
  case hivepartWrite => exact execHivepartWrite_canonical _ _ _ _ hs _ h
  case reserveWrite => exact execReserveWrite_canonical _ _ _ hs _ h
  case hangmodeWrite => exact execHangmodeWrite_canonical _ _ _ hs _ h
  case vernegOfferWrite => exact execVernegOfferWrite_canonical _ _ _ hs _ h
  case bootqEnable => exact execBootqEnable_canonical _ _ _ _ hs _ h
  case clkenWrite => exact execClkenWrite_canonical _ _ _ hs _ h
  case trimWrite => exact execTrimWrite_canonical _ _ _ hs _ h
  case breakctlWrite => exact execBreakctlWrite_canonical _ _ _ _ hs _ h
  case breakResume => exact execBreakResume_canonical _ _ hs _ h
  case traceClear => exact execTraceClear_canonical _ _ _ hs _ h
  case flush => exact execFlush_canonical _ _ _ hs _ h
  case tokenDelivery => exact execTokenDelivery_canonical _ _ _ _ _ _ hs _ h
  case signalReport => exact execSignalReport_canonical _ _ _ _ _ hs _ h
  case signalMessage => exact execSignalMessage_canonical _ _ hs _ h
  case hiveAck => exact execHiveAck_canonical _ _ hs _ h
  case waitreg => exact execWaitreg_canonical _ _ hs _ h
  case wake => exact execWake_canonical _ _ hs _ h
  case cancel => exact execCancel_canonical _ _ hs _ h
  case tierarrive => exact execTierarrive_canonical _ _ hs _ h
  case tierrelease => exact execTierrelease_canonical _ _ hs _ h
  case peerlost => exact execPeerlost_canonical _ _ hs _ h
  case chipFault => exact execChipFault_canonical _ _ hs _ h
  case withdraw => exact execWithdraw_canonical _ _ hs _ h
  case fenceReady => exact execFenceReady_canonical _ _ hs _ h
  case fenceFall => exact execFenceFall_canonical _ _ hs _ h
  case fenceAbandon => exact execFenceAbandon_canonical _ _ hs _ h
  case remoteWriteDrop => exact execRemoteWriteDrop_canonical _ _ _ _ hs _ h
  case writeAck => exact execWriteAck_canonical _ _ hs _ h
  case sheafRelease => exact execSheafRelease_canonical _ _ hs _ h
  case stewardStep => exact execStewardStep_canonical _ _ hs _ h
  case measureChoice => exact execMeasureChoice_canonical _ _ hs _ h
  case memberCreate => exact execMemberCreate_canonical _ _ hs _ h
  case start => exact execStart_canonical _ _ hs _ h
  case cfgstart => exact execCfgstart_canonical _ _ hs _ h
  case combine => exact execCombine_canonical _ _ hs _ h
  case measure => exact execMeasure_canonical _ _ hs _ h
  case branchObject => exact execBranchObject_canonical _ _ hs _ h
  case partctlRelease => exact execPartctlRelease_canonical _ _ hs _ h
  case wait => exact execWait_canonical _ _ hs _ h
  case signalAdd => exact execSignalAdd_canonical _ _ hs _ h
  case signalSet => exact execSignalSet_canonical _ _ hs _ h
  case signalOr => exact execSignalOr_canonical _ _ hs _ h
  case stileArrive => exact execStileArrive_canonical _ _ hs _ h
  case stileArriveNowait => exact execStileArriveNowait_canonical _ _ hs _ h
  case stileInit => exact execStileInit_canonical _ _ hs _ h
  case stileReset => exact execStileReset_canonical _ _ hs _ h
  case preloadComplete => exact execPreloadComplete_canonical _ _ _ hs _ h
  case hadd => exact execHadd_canonical _ _ _ _ _ hs _ h
  case hset => exact execHset_canonical _ _ _ _ _ hs _ h
  case hor => exact execHor_canonical _ _ _ _ _ hs _ h
  case harrive => exact execHarrive_canonical _ _ _ _ _ hs _ h
  case harrivenw => exact execHarrivenw_canonical _ _ _ _ _ hs _ h
  case hwait => exact execHwait_canonical _ _ _ _ _ _ hs _ h
  all_goals exact Host.Outcome.next.inj h ▸ hs
theorem State.Canonical.from {s : State} (x : Option Nat) (h : s.Canonical) : ({ s with heldFrom := x } : State).Canonical := h
@[simp] theorem State.perform_canonical (s : State) (c : Nat × Instr) (hs : s.Canonical) : (s.perform c).Canonical := by
  unfold State.perform
  split
  · rename_i t h; exact (State.redo_canonical _ _ (hs.from _) t h).from none
  · exact hs
@[simp] theorem State.performHeld_canonical (s : State) (hs : s.Canonical) : s.performHeld.Canonical := by
  unfold State.performHeld
  exact foldl_canonical _ _ _ hs fun x c hx => State.perform_canonical x c hx
theorem execPowerUpComplete_canonical (x : PowerFindings) (s : State) (hs : s.Canonical) (t0 : State) (h0 : execPowerUpComplete x s = .next t0) : t0.Canonical := by
  obtain ⟨_, rfl⟩ := ok_next h0
  clear h0
  simp +contextual (maxDischargeDepth := 20) [*]
theorem execWakeComplete_canonical (s : State) (hs : s.Canonical) (t0 : State) (h0 : execWakeComplete s = .next t0) : t0.Canonical := by
  obtain ⟨_, rfl⟩ := ok_next h0
  clear h0
  simp +contextual (maxDischargeDepth := 20) [*]
theorem execComputeResetComplete_canonical (s : State) (hs : s.Canonical) (t0 : State) (h0 : execComputeResetComplete s = .next t0) : t0.Canonical := by
  obtain ⟨_, rfl⟩ := ok_next h0
  clear h0
  simp +contextual (maxDischargeDepth := 20) [*]
@[simp] theorem State.finishAccess_canonical (s : State) (a : Nat) (l : CohLine) (hs : s.Canonical) :
    (State.finishAccess s a l).Canonical := by
  unfold State.finishAccess
  try dsimp only
  (repeat' split) <;> simp +contextual (maxDischargeDepth := 20) [*]
@[simp] theorem State.doWork_canonical (s : State) (w : LineWork) (hs : s.Canonical) :
    (State.doWork s w).Canonical := by
  unfold State.doWork
  (repeat' split) <;> simp +contextual (maxDischargeDepth := 20) [*]
@[simp] theorem State.resume_canonical (s : State) (hs : s.Canonical) : s.resume.Canonical := by
  unfold State.resume
  exact State.performHeld_canonical _ (foldl_canonical _ _ _ (State.askReads_canonical s hs)
    fun t w ht => State.doWork_canonical t w ht)

@[simp] theorem State.atGrant_canonical (s : State) (a : Nat) (l : CohLine) (hs : s.Canonical) :
    (State.atGrant s a l).Canonical := by
  unfold State.atGrant
  (repeat' split) <;> simp +contextual (maxDischargeDepth := 20) [*]
theorem execData_canonical (a : Nat) (x : LineData) (s : State) (hs : s.Canonical) (t0 : State) (h0 : execData a x s = .next t0) : t0.Canonical := by
  obtain ⟨_, rfl⟩ := ok_next h0
  clear h0
  try dsimp only
  repeat' first | (with_reducible assumption) | split | (with_reducible apply State.when_canonical <;> intros) | (with_reducible apply State.sbAnswer_canonical <;> intros) | (with_reducible apply State.deliver_canonical <;> intros) | (with_reducible apply State.granted_canonical <;> intros) | (with_reducible apply State.dataArrives_canonical <;> intros) | (with_reducible apply State.withLines_canonical <;> intros) | (with_reducible apply State.withReads_canonical <;> intros) | (with_reducible apply State.whenHeld_canonical <;> intros) | (with_reducible apply State.lookup_canonical <;> intros) | (with_reducible apply State.hostRead_canonical <;> intros) | (with_reducible apply State.hostWrite_canonical <;> intros) | (with_reducible apply State.delivery_canonical <;> intros) | (with_reducible apply State.pageRead_canonical <;> intros) | (with_reducible apply State.pageWrite_canonical <;> intros) | (with_reducible apply State.stewardLines_canonical <;> intros) | (with_reducible apply State.choiceLines_canonical <;> intros) | (with_reducible apply State.preloadRead_canonical <;> intros) | (with_reducible apply State.opStep_canonical <;> intros) | (with_reducible apply State.receive_canonical <;> intros) | (with_reducible apply State.onObject_canonical <;> intros) | (with_reducible apply State.endOwner_canonical <;> intros) | (with_reducible apply State.chipWide_canonical <;> intros) | (with_reducible apply State.kernelStep_canonical <;> intros) | (with_reducible apply State.coreInstr_canonical <;> intros) | (with_reducible apply State.endArrival_canonical <;> intros) | (with_reducible apply State.notice_canonical <;> intros) | (with_reducible apply State.fenceNotice_canonical <;> intros) | (with_reducible apply State.handleStep_canonical <;> intros) | (with_reducible apply State.sysStep_canonical <;> intros) | (with_reducible apply State.forAll_canonical <;> intros) | (with_reducible apply foldl_canonical <;> intros)
  all_goals simp +contextual (maxDischargeDepth := 20) [*]
theorem execGnt_canonical (a : Nat) (l : CohLine) (s : State) (hs : s.Canonical) (t0 : State) (h0 : execGnt a l s = .next t0) : t0.Canonical := by
  obtain ⟨_, rfl⟩ := ok_next h0
  clear h0
  try dsimp only
  repeat' first | (with_reducible assumption) | split | (with_reducible apply State.when_canonical <;> intros) | (with_reducible apply State.sbAnswer_canonical <;> intros) | (with_reducible apply State.deliver_canonical <;> intros) | (with_reducible apply State.granted_canonical <;> intros) | (with_reducible apply State.dataArrives_canonical <;> intros) | (with_reducible apply State.withLines_canonical <;> intros) | (with_reducible apply State.withReads_canonical <;> intros) | (with_reducible apply State.whenHeld_canonical <;> intros) | (with_reducible apply State.lookup_canonical <;> intros) | (with_reducible apply State.hostRead_canonical <;> intros) | (with_reducible apply State.hostWrite_canonical <;> intros) | (with_reducible apply State.delivery_canonical <;> intros) | (with_reducible apply State.pageRead_canonical <;> intros) | (with_reducible apply State.pageWrite_canonical <;> intros) | (with_reducible apply State.stewardLines_canonical <;> intros) | (with_reducible apply State.choiceLines_canonical <;> intros) | (with_reducible apply State.preloadRead_canonical <;> intros) | (with_reducible apply State.opStep_canonical <;> intros) | (with_reducible apply State.receive_canonical <;> intros) | (with_reducible apply State.onObject_canonical <;> intros) | (with_reducible apply State.endOwner_canonical <;> intros) | (with_reducible apply State.chipWide_canonical <;> intros) | (with_reducible apply State.kernelStep_canonical <;> intros) | (with_reducible apply State.coreInstr_canonical <;> intros) | (with_reducible apply State.endArrival_canonical <;> intros) | (with_reducible apply State.notice_canonical <;> intros) | (with_reducible apply State.fenceNotice_canonical <;> intros) | (with_reducible apply State.handleStep_canonical <;> intros) | (with_reducible apply State.sysStep_canonical <;> intros) | (with_reducible apply State.forAll_canonical <;> intros) | (with_reducible apply foldl_canonical <;> intros)
  all_goals simp +contextual (maxDischargeDepth := 20) [*]
theorem execCoherenceAck_canonical (a : Nat) (l : CohLine) (s : State) (hs : s.Canonical) (t0 : State) (h0 : execCoherenceAck a l s = .next t0) : t0.Canonical := by
  obtain ⟨_, rfl⟩ := ok_next h0
  clear h0
  simp +contextual (maxDischargeDepth := 20) [*]
@[simp] theorem State.fackArrives_canonical (s : State) (a : Nat) (l : CohLine) (hs : s.Canonical) :
    (State.fackArrives s a l).Canonical := by
  unfold State.fackArrives
  (repeat' split) <;> simp +contextual (maxDischargeDepth := 20) [*]
@[simp] theorem State.wbackArrives_canonical (s : State) (a : Nat) (l : CohLine) (hs : s.Canonical) :
    (State.wbackArrives s a l).Canonical := by
  unfold State.wbackArrives
  (repeat' split) <;> simp +contextual (maxDischargeDepth := 20) [*]
@[simp] theorem State.carried_canonical (s : State) (l : CohLine) (bad : Option Found) (hs : s.Canonical) :
    (State.carried s l bad).Canonical := by
  unfold State.carried
  (repeat' split) <;> simp +contextual (maxDischargeDepth := 20) [*]
theorem execWbd_canonical (a : Nat) (h : LineBack) (s : State) (hs : s.Canonical) (t0 : State) (h0 : execWbd a h s = .next t0) : t0.Canonical := by
  obtain ⟨_, rfl⟩ := ok_next h0
  clear h0
  simp +contextual (maxDischargeDepth := 20) [*]
theorem execFack_canonical (a : Nat) (x : LineData) (s : State) (hs : s.Canonical) (t0 : State) (h0 : execFack a x s = .next t0) : t0.Canonical := by
  obtain ⟨_, rfl⟩ := ok_next h0
  clear h0
  simp +contextual (maxDischargeDepth := 20) [*]
theorem execWback_canonical (a : Nat) (l : CohLine) (s : State) (hs : s.Canonical) (t0 : State) (h0 : execWback a l s = .next t0) : t0.Canonical := by
  obtain ⟨_, rfl⟩ := ok_next h0
  clear h0
  (repeat' split) <;> simp +contextual (maxDischargeDepth := 20) [*]
end Sys2Proof.Machine
end

