-- ==== Sys2Proof/Laws/Config.lean ====
section
/-! SUPPORT. What no meaning changes: the queue of commands; and, for every command but those of the trim loop, the supply,
the registers and what performs held accesses, the trim loop and the fuses. One lemma per operation and per meaning,
`<name>_config`; `_config_of` is the form for an operation given a function. -/

set_option linter.all false
namespace Sys2Proof.Machine

@[simp] theorem State.forAll_config (s : State) (ns : List Nat) (f : State → Nat → State)
    (h : ∀ (x0 : State) (x1 : Nat), (f x0 x1).pending = x0.pending ∧ (f x0 x1).trim = x0.trim ∧ (f x0 x1).fuses = x0.fuses) :
    (s.forAll ns f).pending = s.pending ∧ (s.forAll ns f).trim = s.trim ∧ (s.forAll ns f).fuses = s.fuses := by
  induction ns generalizing s with
  | nil => simp [State.forAll]
  | cons n ns ih =>
    have := ih (f s n)
    simp only [State.forAll, List.foldl_cons] at this ⊢
    simp [this, h]

@[simp] theorem foldl_config {α : Type} (s : State) (ns : List α) (f : State → α → State)
    (h : ∀ (x0 : State) (x1 : α), (f x0 x1).pending = x0.pending ∧ (f x0 x1).trim = x0.trim ∧ (f x0 x1).fuses = x0.fuses) :
    (ns.foldl f s).pending = s.pending ∧ (ns.foldl f s).trim = s.trim ∧ (ns.foldl f s).fuses = s.fuses := by
  induction ns generalizing s with
  | nil => simp
  | cons n ns ih => simp [ih (f s n), h]
theorem State.forAll_config_of (s : State) (ns : List Nat) (f : State → Nat → State) (u : State) (hu : (s).pending = u.pending ∧ (s).trim = u.trim ∧ (s).fuses = u.fuses)
    (h : ∀ (x0 : State) (x1 : Nat), (f x0 x1).pending = x0.pending ∧ (f x0 x1).trim = x0.trim ∧ (f x0 x1).fuses = x0.fuses) :
    (s.forAll ns f).pending = u.pending ∧ (s.forAll ns f).trim = u.trim ∧ (s.forAll ns f).fuses = u.fuses := by
  have := State.forAll_config s ns f h
  simp only [this, hu, and_self]
theorem foldl_config_of {α : Type} (s : State) (ns : List α) (f : State → α → State) (u : State) (hu : (s).pending = u.pending ∧ (s).trim = u.trim ∧ (s).fuses = u.fuses)
    (h : ∀ (x0 : State) (x1 : α), (f x0 x1).pending = x0.pending ∧ (f x0 x1).trim = x0.trim ∧ (f x0 x1).fuses = x0.fuses) :
    (ns.foldl f s).pending = u.pending ∧ (ns.foldl f s).trim = u.trim ∧ (ns.foldl f s).fuses = u.fuses := by
  have := foldl_config s ns f h
  simp only [this, hu, and_self]

theorem ok_config (p : Prop) [Decidable p] (t : State) (t0 : State) (h0 : ok p t = .next t0) :
    (t0).pending = t.pending ∧ (t0).trim = t.trim ∧ (t0).fuses = t.fuses := by
  obtain ⟨_, rfl⟩ := ok_next h0
  clear h0
  simp
@[simp] theorem State.setQueue_config (s : State) (q : Nat) (x : Queue) :
    (State.setQueue s q x).pending = s.pending ∧ (State.setQueue s q x).trim = s.trim ∧ (State.setQueue s q x).fuses = s.fuses := by
  unfold State.setQueue
  simp
@[simp] theorem State.modQueue_config (s : State) (q : Nat) (f : Queue → Queue) :
    (State.modQueue s q f).pending = s.pending ∧ (State.modQueue s q f).trim = s.trim ∧ (State.modQueue s q f).fuses = s.fuses := by
  unfold State.modQueue
  simp
@[simp] theorem State.setNode_config (s : State) (n : Nat) (x : Option Node) :
    (State.setNode s n x).pending = s.pending ∧ (State.setNode s n x).trim = s.trim ∧ (State.setNode s n x).fuses = s.fuses := by
  unfold State.setNode
  simp
@[simp] theorem State.modNode_config (s : State) (n : Nat) (f : Node → Node) :
    (State.modNode s n f).pending = s.pending ∧ (State.modNode s n f).trim = s.trim ∧ (State.modNode s n f).fuses = s.fuses := by
  unfold State.modNode
  simp
@[simp] theorem State.setFurrow_config (s : State) (f : Nat) (x : Furrow) :
    (State.setFurrow s f x).pending = s.pending ∧ (State.setFurrow s f x).trim = s.trim ∧ (State.setFurrow s f x).fuses = s.fuses := by
  unfold State.setFurrow
  simp
@[simp] theorem State.modFurrow_config (s : State) (f : Nat) (g : Furrow → Furrow) :
    (State.modFurrow s f g).pending = s.pending ∧ (State.modFurrow s f g).trim = s.trim ∧ (State.modFurrow s f g).fuses = s.fuses := by
  unfold State.modFurrow
  simp
@[simp] theorem State.setSlot_config (s : State) (n : Nat) (x : Slot) :
    (State.setSlot s n x).pending = s.pending ∧ (State.setSlot s n x).trim = s.trim ∧ (State.setSlot s n x).fuses = s.fuses := by
  unfold State.setSlot
  simp
@[simp] theorem State.setObj_config (s : State) (n : Nat) (x : Obj) :
    (State.setObj s n x).pending = s.pending ∧ (State.setObj s n x).trim = s.trim ∧ (State.setObj s n x).fuses = s.fuses := by
  unfold State.setObj
  simp
@[simp] theorem State.setWaiters_config (s : State) (n : Nat) (x : List Waiter) :
    (State.setWaiters s n x).pending = s.pending ∧ (State.setWaiters s n x).trim = s.trim ∧ (State.setWaiters s n x).fuses = s.fuses := by
  unfold State.setWaiters
  simp
@[simp] theorem State.setCtx_config (s : State) (c : Nat) (x : Ctx) :
    (State.setCtx s c x).pending = s.pending ∧ (State.setCtx s c x).trim = s.trim ∧ (State.setCtx s c x).fuses = s.fuses := by
  unfold State.setCtx
  simp
@[simp] theorem State.modCtx_config (s : State) (c : Nat) (f : Ctx → Ctx) :
    (State.modCtx s c f).pending = s.pending ∧ (State.modCtx s c f).trim = s.trim ∧ (State.modCtx s c f).fuses = s.fuses := by
  unfold State.modCtx
  simp
@[simp] theorem State.modAcct_config (s : State) (c : Nat) (f : Acct → Acct) :
    (State.modAcct s c f).pending = s.pending ∧ (State.modAcct s c f).trim = s.trim ∧ (State.modAcct s c f).fuses = s.fuses := by
  unfold State.modAcct
  simp
@[simp] theorem State.setPart_config (s : State) (p : Nat) (x : Partition) :
    (State.setPart s p x).pending = s.pending ∧ (State.setPart s p x).trim = s.trim ∧ (State.setPart s p x).fuses = s.fuses := by
  unfold State.setPart
  simp
@[simp] theorem State.setCore_config (s : State) (k : Nat) (x : Core) :
    (State.setCore s k x).pending = s.pending ∧ (State.setCore s k x).trim = s.trim ∧ (State.setCore s k x).fuses = s.fuses := by
  unfold State.setCore
  simp
@[simp] theorem State.modCore_config (s : State) (k : Nat) (f : Core → Core) :
    (State.modCore s k f).pending = s.pending ∧ (State.modCore s k f).trim = s.trim ∧ (State.modCore s k f).fuses = s.fuses := by
  unfold State.modCore
  simp
@[simp] theorem State.setRun_config (s : State) (k fr : Nat) (r : Run) :
    (State.setRun s k fr r).pending = s.pending ∧ (State.setRun s k fr r).trim = s.trim ∧ (State.setRun s k fr r).fuses = s.fuses := by
  unfold State.setRun
  simp
@[simp] theorem State.setRslot_config (s : State) (i : Nat) (x : RSlot) :
    (State.setRslot s i x).pending = s.pending ∧ (State.setRslot s i x).trim = s.trim ∧ (State.setRslot s i x).fuses = s.fuses := by
  unfold State.setRslot
  simp
@[simp] theorem State.setGroup_config (s : State) (p : Nat) (x : Group) :
    (State.setGroup s p x).pending = s.pending := by
  unfold State.setGroup
  simp
@[simp] theorem State.setSource_config (s : State) (i : Nat) (x : Source) :
    (State.setSource s i x).pending = s.pending ∧ (State.setSource s i x).trim = s.trim ∧ (State.setSource s i x).fuses = s.fuses := by
  unfold State.setSource
  simp
@[simp] theorem State.setBrk_config (s : State) (u : Nat) (x : Break) :
    (State.setBrk s u x).pending = s.pending ∧ (State.setBrk s u x).trim = s.trim ∧ (State.setBrk s u x).fuses = s.fuses := by
  unfold State.setBrk
  simp
@[simp] theorem State.drive_config (s : State) (o : Out) :
    (State.drive s o).pending = s.pending ∧ (State.drive s o).trim = s.trim ∧ (State.drive s o).fuses = s.fuses := by
  unfold State.drive
  simp
@[simp] theorem State.driveAll_config (s : State) (os : List Out) :
    (State.driveAll s os).pending = s.pending ∧ (State.driveAll s os).trim = s.trim ∧ (State.driveAll s os).fuses = s.fuses := by
  unfold State.driveAll
  simp
@[simp] theorem State.tickStamp_config (s : State) :
    (State.tickStamp s).pending = s.pending ∧ (State.tickStamp s).trim = s.trim ∧ (State.tickStamp s).fuses = s.fuses := by
  unfold State.tickStamp
  simp
@[simp] theorem State.useFree_config (s : State) :
    (State.useFree s).pending = s.pending ∧ (State.useFree s).trim = s.trim ∧ (State.useFree s).fuses = s.fuses := by
  unfold State.useFree
  simp
@[simp] theorem State.idleTick_config (s : State) :
    (State.idleTick s).pending = s.pending ∧ (State.idleTick s).trim = s.trim ∧ (State.idleTick s).fuses = s.fuses := by
  unfold State.idleTick
  (repeat' split) <;> simp
@[simp] theorem State.wakeUp_config (s : State) :
    (State.wakeUp s).pending = s.pending ∧ (State.wakeUp s).trim = s.trim ∧ (State.wakeUp s).fuses = s.fuses := by
  unfold State.wakeUp
  (repeat' split) <;> simp
@[simp] theorem State.when_config (s : State) (b : Bool) (f : State → State) (h2 : ∀ (x0 : State), (f x0).pending = x0.pending ∧ (f x0).trim = x0.trim ∧ (f x0).fuses = x0.fuses) :
    (State.when s b f).pending = s.pending ∧ (State.when s b f).trim = s.trim ∧ (State.when s b f).fuses = s.fuses := by
  unfold State.when
  (repeat' split) <;> simp [*]
theorem State.when_config_of (s : State) (b : Bool) (f : State → State) (u : State) (h2 : ∀ (x0 : State), (f x0).pending = x0.pending ∧ (f x0).trim = x0.trim ∧ (f x0).fuses = x0.fuses) (hu : (s).pending = u.pending ∧ (s).trim = u.trim ∧ (s).fuses = u.fuses) :
    (State.when s b f).pending = u.pending ∧ (State.when s b f).trim = u.trim ∧ (State.when s b f).fuses = u.fuses := by
  have := State.when_config s b f h2
  simp only [this, hu, and_self]
@[simp] theorem State.absorbIn_config (s : State) (h : Nat) :
    (State.absorbIn s h).pending = s.pending ∧ (State.absorbIn s h).trim = s.trim ∧ (State.absorbIn s h).fuses = s.fuses := by
  unfold State.absorbIn
  (repeat' split) <;> simp
@[simp] theorem State.absorb_config (s : State) (q : Nat) :
    (State.absorb s q).pending = s.pending ∧ (State.absorb s q).trim = s.trim ∧ (State.absorb s q).fuses = s.fuses := by
  unfold State.absorb
  simp
@[simp] theorem State.traceRec_config (s : State) (kind queue : Nat) (c : Option Nat) (w1 : Word) :
    (State.traceRec s kind queue c w1).pending = s.pending ∧ (State.traceRec s kind queue c w1).trim = s.trim ∧ (State.traceRec s kind queue c w1).fuses = s.fuses := by
  dsimp only [State.traceRec]
  (repeat' split) <;> simp
@[simp] theorem State.traceEnd_config (s : State) (f : Nat) (r : EngineRun) (noCommit : Bool) :
    (State.traceEnd s f r noCommit).pending = s.pending ∧ (State.traceEnd s f r noCommit).trim = s.trim ∧ (State.traceEnd s f r noCommit).fuses = s.fuses := by
  unfold State.traceEnd
  simp
@[simp] theorem State.lifeAdd_config (s : State) (i n : Nat) :
    (State.lifeAdd s i n).pending = s.pending ∧ (State.lifeAdd s i n).trim = s.trim ∧ (State.lifeAdd s i n).fuses = s.fuses := by
  unfold State.lifeAdd
  simp
@[simp] theorem State.lifeFault_config (s : State) (source : Nat) (c : Class) :
    (State.lifeFault s source c).pending = s.pending ∧ (State.lifeFault s source c).trim = s.trim ∧ (State.lifeFault s source c).fuses = s.fuses := by
  unfold State.lifeFault
  simp
@[simp] theorem State.sendMsix_config (s : State) (v : Nat) :
    (State.sendMsix s v).pending = s.pending ∧ (State.sendMsix s v).trim = s.trim ∧ (State.sendMsix s v).fuses = s.fuses := by
  dsimp only [State.sendMsix]
  (repeat' split) <;> simp
@[simp] theorem State.auditRec_config (s : State) (role : Nat) (ignored : Bool) (opcode offset : Nat) (old new : Word) :
    (State.auditRec s role ignored opcode offset old new).pending = s.pending ∧ (State.auditRec s role ignored opcode offset old new).trim = s.trim ∧ (State.auditRec s role ignored opcode offset old new).fuses = s.fuses := by
  unfold State.auditRec
  simp
@[simp] theorem State.sbSend_config (s : State) (st : Sideband) :
    (State.sbSend s st).pending = s.pending ∧ (State.sbSend s st).trim = s.trim ∧ (State.sbSend s st).fuses = s.fuses := by
  dsimp only [State.sbSend]
  (repeat' split) <;> simp
@[simp] theorem State.startLoad_config (s : State) :
    (State.startLoad s).pending = s.pending ∧ (State.startLoad s).trim = s.trim ∧ (State.startLoad s).fuses = s.fuses := by
  unfold State.startLoad
  simp
@[simp] theorem State.countSeconds_config (s : State) :
    (State.countSeconds s).pending = s.pending ∧ (State.countSeconds s).trim = s.trim ∧ (State.countSeconds s).fuses = s.fuses := by
  unfold State.countSeconds
  simp
@[simp] theorem State.stampImage_config (s : State) :
    (State.stampImage s).pending = s.pending ∧ (State.stampImage s).trim = s.trim ∧ (State.stampImage s).fuses = s.fuses := by
  unfold State.stampImage
  simp
@[simp] theorem State.startFlush_config (s : State) :
    (State.startFlush s).pending = s.pending ∧ (State.startFlush s).trim = s.trim ∧ (State.startFlush s).fuses = s.fuses := by
  unfold State.startFlush
  simp
@[simp] theorem State.requestFlush_config (s : State) :
    (State.requestFlush s).pending = s.pending ∧ (State.requestFlush s).trim = s.trim ∧ (State.requestFlush s).fuses = s.fuses := by
  unfold State.requestFlush
  (repeat' split) <;> simp
@[simp] theorem State.sbFree_config (s : State) :
    (State.sbFree s).pending = s.pending ∧ (State.sbFree s).trim = s.trim ∧ (State.sbFree s).fuses = s.fuses := by
  dsimp only [State.sbFree]
  (repeat' split) <;> simp
@[simp] theorem State.loadFresh_config (s : State) :
    (State.loadFresh s).pending = s.pending ∧ (State.loadFresh s).trim = s.trim ∧ (State.loadFresh s).fuses = s.fuses := by
  unfold State.loadFresh
  simp
@[simp] theorem State.pickSlot_config (s : State) :
    (State.pickSlot s).pending = s.pending ∧ (State.pickSlot s).trim = s.trim ∧ (State.pickSlot s).fuses = s.fuses := by
  unfold State.pickSlot
  (repeat' split) <;> simp
@[simp] theorem State.finishLoad_config (s : State) (slot : Nat) :
    (State.finishLoad s slot).pending = s.pending ∧ (State.finishLoad s slot).trim = s.trim ∧ (State.finishLoad s slot).fuses = s.fuses := by
  dsimp only [State.finishLoad]
  (repeat' split) <;> simp
@[simp] theorem State.sbRetry_config (s : State) :
    (State.sbRetry s).pending = s.pending ∧ (State.sbRetry s).trim = s.trim ∧ (State.sbRetry s).fuses = s.fuses := by
  unfold State.sbRetry
  (repeat' split) <;> simp
@[simp] theorem State.badFrame_config (s : State) :
    (State.badFrame s).pending = s.pending ∧ (State.badFrame s).trim = s.trim ∧ (State.badFrame s).fuses = s.fuses := by
  unfold State.badFrame
  simp
@[simp] theorem State.sbAnswer_config (s : State) (m : SidebandFrame) (typ : Nat) (k : State → State) (h3 : ∀ (x0 : State), (k x0).pending = x0.pending ∧ (k x0).trim = x0.trim ∧ (k x0).fuses = x0.fuses) :
    (State.sbAnswer s m typ k).pending = s.pending ∧ (State.sbAnswer s m typ k).trim = s.trim ∧ (State.sbAnswer s m typ k).fuses = s.fuses := by
  unfold State.sbAnswer
  (repeat' split) <;> simp [*]
theorem State.sbAnswer_config_of (s : State) (m : SidebandFrame) (typ : Nat) (k : State → State) (u : State) (h3 : ∀ (x0 : State), (k x0).pending = x0.pending ∧ (k x0).trim = x0.trim ∧ (k x0).fuses = x0.fuses) (hu : (s).pending = u.pending ∧ (s).trim = u.trim ∧ (s).fuses = u.fuses) :
    (State.sbAnswer s m typ k).pending = u.pending ∧ (State.sbAnswer s m typ k).trim = u.trim ∧ (State.sbAnswer s m typ k).fuses = u.fuses := by
  have := State.sbAnswer_config s m typ k h3
  simp only [this, hu, and_self]
@[simp] theorem State.flushNext_config (s : State) :
    (State.flushNext s).pending = s.pending ∧ (State.flushNext s).trim = s.trim ∧ (State.flushNext s).fuses = s.fuses := by
  unfold State.flushNext
  (repeat' split) <;> simp
@[simp] theorem State.loadNext_config (s : State) (payload : List Line) :
    (State.loadNext s payload).pending = s.pending ∧ (State.loadNext s payload).trim = s.trim ∧ (State.loadNext s payload).fuses = s.fuses := by
  unfold State.loadNext
  (repeat' split) <;> simp
@[simp] theorem State.flushBit_config (s : State) (part : Part) (v : Word) :
    (State.flushBit s part v).pending = s.pending ∧ (State.flushBit s part v).trim = s.trim ∧ (State.flushBit s part v).fuses = s.fuses := by
  unfold State.flushBit
  (repeat' split) <;> simp
theorem execFlushreq_config (m : SidebandFrame) (s : State) (t0 : State) (h0 : execFlushreq m s = .next t0) :
    (t0).pending = s.pending ∧ (t0).trim = s.trim ∧ (t0).fuses = s.fuses := by
  obtain ⟨_, rfl⟩ := ok_next h0
  clear h0
  (repeat' split) <;> simp
theorem execFlushTimer_config (s : State) (t0 : State) (h0 : execFlushTimer s = .next t0) :
    (t0).pending = s.pending ∧ (t0).trim = s.trim ∧ (t0).fuses = s.fuses := by
  obtain ⟨_, rfl⟩ := ok_next h0
  clear h0
  simp
theorem execDataFrame_config (m : SidebandFrame) (s : State) (t0 : State) (h0 : execDataFrame m s = .next t0) :
    (t0).pending = s.pending ∧ (t0).trim = s.trim ∧ (t0).fuses = s.fuses := by
  obtain ⟨_, rfl⟩ := ok_next h0
  clear h0
  simp
theorem execAckFrame_config (m : SidebandFrame) (s : State) (t0 : State) (h0 : execAckFrame m s = .next t0) :
    (t0).pending = s.pending ∧ (t0).trim = s.trim ∧ (t0).fuses = s.fuses := by
  obtain ⟨_, rfl⟩ := ok_next h0
  clear h0
  simp
theorem execNak_config (m : SidebandFrame) (s : State) (t0 : State) (h0 : execNak m s = .next t0) :
    (t0).pending = s.pending ∧ (t0).trim = s.trim ∧ (t0).fuses = s.fuses := by
  obtain ⟨_, rfl⟩ := ok_next h0
  clear h0
  simp
theorem execSidebandTimeout_config (s : State) (t0 : State) (h0 : execSidebandTimeout s = .next t0) :
    (t0).pending = s.pending ∧ (t0).trim = s.trim ∧ (t0).fuses = s.fuses := by
  obtain ⟨_, rfl⟩ := ok_next h0
  clear h0
  simp
@[simp] theorem State.sendNotice_config (s : State) (p : Nat) (dest : BitVec 14) (n0 n1 : Word) :
    (State.sendNotice s p dest n0 n1).pending = s.pending ∧ (State.sendNotice s p dest n0 n1).trim = s.trim ∧ (State.sendNotice s p dest n0 n1).fuses = s.fuses := by
  unfold State.sendNotice
  (repeat' split) <;> simp
@[simp] theorem State.noticeAll_config (s : State) (n0 : Word) :
    (State.noticeAll s n0).pending = s.pending ∧ (State.noticeAll s n0).trim = s.trim ∧ (State.noticeAll s n0).fuses = s.fuses := by
  unfold State.noticeAll
  simp
@[simp] theorem State.openRecord_config (s : State) (e : Event) (c : Class) (esc : Bool) :
    (State.openRecord s e c esc).pending = s.pending ∧ (State.openRecord s e c esc).trim = s.trim ∧ (State.openRecord s e c esc).fuses = s.fuses := by
  dsimp only [State.openRecord]
  (repeat' split) <;> simp
@[simp] theorem State.askTeardown_config (s : State) (c : Nat) (cause : BitVec 8) (node : Option Nat) :
    (State.askTeardown s c cause node).pending = s.pending ∧ (State.askTeardown s c cause node).trim = s.trim ∧ (State.askTeardown s c cause node).fuses = s.fuses := by
  unfold State.askTeardown
  (repeat' split) <;> simp
@[simp] theorem State.askReset_config (s : State) (r : ResetReq) :
    (State.askReset s r).pending = s.pending ∧ (State.askReset s r).trim = s.trim ∧ (State.askReset s r).fuses = s.fuses := by
  unfold State.askReset
  (repeat' split) <;> simp
@[simp] theorem State.abortAll_config (s : State) (ended : Nat → Bool) :
    (State.abortAll s ended).pending = s.pending ∧ (State.abortAll s ended).trim = s.trim ∧ (State.abortAll s ended).fuses = s.fuses := by
  dsimp only [State.abortAll]
  repeat' first | split | (with_reducible apply State.when_config_of <;> intros) | (with_reducible apply State.sbAnswer_config_of <;> intros) | (with_reducible apply State.deliver_config_of <;> intros) | (with_reducible apply State.withLines_config_of <;> intros) | (with_reducible apply State.withReads_config_of <;> intros) | (with_reducible apply State.whenHeld_config_of <;> intros) | (with_reducible apply State.lookup_config_of <;> intros) | (with_reducible apply State.hostRead_config_of <;> intros) | (with_reducible apply State.hostWrite_config_of <;> intros) | (with_reducible apply State.delivery_config_of <;> intros) | (with_reducible apply State.pageRead_config_of <;> intros) | (with_reducible apply State.pageWrite_config_of <;> intros) | (with_reducible apply State.stewardLines_config_of <;> intros) | (with_reducible apply State.choiceLines_config_of <;> intros) | (with_reducible apply State.preloadRead_config_of <;> intros) | (with_reducible apply State.opStep_config_of <;> intros) | (with_reducible apply State.receive_config_of <;> intros) | (with_reducible apply State.onObject_config_of <;> intros) | (with_reducible apply State.endOwner_config_of <;> intros) | (with_reducible apply State.chipWide_config_of <;> intros) | (with_reducible apply State.kernelStep_config_of <;> intros) | (with_reducible apply State.coreInstr_config_of <;> intros) | (with_reducible apply State.endArrival_config_of <;> intros) | (with_reducible apply State.notice_config_of <;> intros) | (with_reducible apply State.fenceNotice_config_of <;> intros) | (with_reducible apply State.handleStep_config_of <;> intros) | (with_reducible apply State.sysStep_config_of <;> intros) | (with_reducible apply State.forAll_config_of <;> intros) | (with_reducible apply foldl_config_of <;> intros)
  all_goals simp
@[simp] theorem State.enterSafe_config (s : State) :
    (State.enterSafe s).pending = s.pending ∧ (State.enterSafe s).trim = s.trim ∧ (State.enterSafe s).fuses = s.fuses := by
  unfold State.enterSafe
  (repeat' split) <;> simp
@[simp] theorem State.act_config (s : State) (e : Event) (c : Class) (rec : Nat) (full : Bool) :
    (State.act s e c rec full).pending = s.pending ∧ (State.act s e c rec full).trim = s.trim ∧ (State.act s e c rec full).fuses = s.fuses := by
  unfold State.act
  (repeat' split) <;> simp
@[simp] theorem State.lifeEvent_config (s : State) (e : Event) (c : Class) :
    (State.lifeEvent s e c).pending = s.pending ∧ (State.lifeEvent s e c).trim = s.trim ∧ (State.lifeEvent s e c).fuses = s.fuses := by
  unfold State.lifeEvent
  (repeat' split) <;> simp
@[simp] theorem State.windowAfter_config (s : State) (e : Event) :
    (State.windowAfter s e).pending = s.pending ∧ (State.windowAfter s e).trim = s.trim ∧ (State.windowAfter s e).fuses = s.fuses := by
  unfold State.windowAfter
  simp
@[simp] theorem State.countEvent_config (s : State) (e : Event) (esc : Bool) :
    (State.countEvent s e esc).pending = s.pending ∧ (State.countEvent s e esc).trim = s.trim ∧ (State.countEvent s e esc).fuses = s.fuses := by
  unfold State.countEvent
  simp
@[simp] theorem State.raise_config (s : State) (e : Event) :
    (State.raise s e).pending = s.pending ∧ (State.raise s e).trim = s.trim ∧ (State.raise s e).fuses = s.fuses := by
  dsimp only [State.raise]
  (repeat' split) <;> simp
@[simp] theorem State.closeRecords_config (s : State) (p : OpenRec → Bool) :
    (State.closeRecords s p).pending = s.pending ∧ (State.closeRecords s p).trim = s.trim ∧ (State.closeRecords s p).fuses = s.fuses := by
  unfold State.closeRecords
  simp
@[simp] theorem State.corrected_config (s : State) (source : Nat) (x : Found) :
    (State.corrected s source x).pending = s.pending ∧ (State.corrected s source x).trim = s.trim ∧ (State.corrected s source x).fuses = s.fuses := by
  unfold State.corrected
  simp
@[simp] theorem State.fixed_config (s : State) (source : Nat) (fix : Option Found) :
    (State.fixed s source fix).pending = s.pending ∧ (State.fixed s source fix).trim = s.trim ∧ (State.fixed s source fix).fuses = s.fuses := by
  unfold State.fixed
  (repeat' split) <;> simp
@[simp] theorem State.severeError_config (s : State) (source : Nat) (x : Found) :
    (State.severeError s source x).pending = s.pending ∧ (State.severeError s source x).trim = s.trim ∧ (State.severeError s source x).fuses = s.fuses := by
  unfold State.severeError
  simp
theorem execBrokenWire_config (src : Nat) (ones : Bool) (s : State) (t0 : State) (h0 : execBrokenWire src ones s = .next t0) :
    (t0).pending = s.pending ∧ (t0).trim = s.trim ∧ (t0).fuses = s.fuses := by
  obtain ⟨_, rfl⟩ := ok_next h0
  clear h0
  simp
@[simp] theorem State.setAline_config (s : State) (a : Nat) (l : CohLine) (x : ALine) :
    (State.setAline s a l x).pending = s.pending ∧ (State.setAline s a l x).trim = s.trim ∧ (State.setAline s a l x).fuses = s.fuses := by
  unfold State.setAline
  simp
@[simp] theorem State.setDir_config (s : State) (l : CohLine) (x : Dir) :
    (State.setDir s l x).pending = s.pending ∧ (State.setDir s l x).trim = s.trim ∧ (State.setDir s l x).fuses = s.fuses := by
  unfold State.setDir
  simp
@[simp] theorem State.send_config (s : State) (src dst : Nat) (l : CohLine) (k : MsgKind) :
    (State.send s src dst l k).pending = s.pending ∧ (State.send s src dst l k).trim = s.trim ∧ (State.send s src dst l k).fuses = s.fuses := by
  unfold State.send
  simp
@[simp] theorem State.deliver_config (s : State) (p : Msg → Bool) (f : State → Msg → State) (h2 : ∀ (x0 : State) (x1 : Msg), (f x0 x1).pending = x0.pending ∧ (f x0 x1).trim = x0.trim ∧ (f x0 x1).fuses = x0.fuses) :
    (State.deliver s p f).pending = s.pending ∧ (State.deliver s p f).trim = s.trim ∧ (State.deliver s p f).fuses = s.fuses := by
  unfold State.deliver
  (repeat' split) <;> simp [*]
theorem State.deliver_config_of (s : State) (p : Msg → Bool) (f : State → Msg → State) (u : State) (h2 : ∀ (x0 : State) (x1 : Msg), (f x0 x1).pending = x0.pending ∧ (f x0 x1).trim = x0.trim ∧ (f x0 x1).fuses = x0.fuses) (hu : (s).pending = u.pending ∧ (s).trim = u.trim ∧ (s).fuses = u.fuses) :
    (State.deliver s p f).pending = u.pending ∧ (State.deliver s p f).trim = u.trim ∧ (State.deliver s p f).fuses = u.fuses := by
  have := State.deliver_config s p f h2
  simp only [this, hu, and_self]
@[simp] theorem State.writeHome_config (s : State) (l : CohLine) :
    (State.writeHome s l).pending = s.pending ∧ (State.writeHome s l).trim = s.trim ∧ (State.writeHome s l).fuses = s.fuses := by
  unfold State.writeHome
  (repeat' split) <;> simp
@[simp] theorem State.invAll_config (s : State) (l : CohLine) (v : List Nat) :
    (State.invAll s l v).pending = s.pending ∧ (State.invAll s l v).trim = s.trim ∧ (State.invAll s l v).fuses = s.fuses := by
  unfold State.invAll
  simp
@[simp] theorem State.serve_config (s : State) (l : CohLine) (r : Nat) (q : Req) (shared : Bool) :
    (State.serve s l r q shared).pending = s.pending ∧ (State.serve s l r q shared).trim = s.trim ∧ (State.serve s l r q shared).fuses = s.fuses := by
  dsimp only [State.serve]
  (repeat' split) <;> simp
@[simp] theorem State.takeBack_config (s : State) (l : CohLine) :
    (State.takeBack s l).pending = s.pending ∧ (State.takeBack s l).trim = s.trim ∧ (State.takeBack s l).fuses = s.fuses := by
  dsimp only [State.takeBack]
  (repeat' split) <;> simp
@[simp] theorem State.serveNext_config (s : State) (l : CohLine) (k : Nat) :
    (s.serveNext l k).pending = s.pending ∧ (s.serveNext l k).trim = s.trim ∧ (s.serveNext l k).fuses = s.fuses := by
  induction k generalizing s with
  | zero => exact ⟨rfl, rfl, rfl⟩
  | succ k ih =>
    unfold State.serveNext
    dsimp only
    (repeat' split) <;> simp [ih]
@[simp] theorem State.endTxn_config (s : State) (l : CohLine) (st : DState) :
    (State.endTxn s l st).pending = s.pending ∧ (State.endTxn s l st).trim = s.trim ∧ (State.endTxn s l st).fuses = s.fuses := by
  unfold State.endTxn
  simp
@[simp] theorem State.finishFetch_config (s : State) (l : CohLine) :
    (State.finishFetch s l).pending = s.pending ∧ (State.finishFetch s l).trim = s.trim ∧ (State.finishFetch s l).fuses = s.fuses := by
  unfold State.finishFetch
  (repeat' split) <;> simp
@[simp] theorem State.finishStore_config (s : State) (l : CohLine) :
    (State.finishStore s l).pending = s.pending ∧ (State.finishStore s l).trim = s.trim ∧ (State.finishStore s l).fuses = s.fuses := by
  unfold State.finishStore
  (repeat' split) <;> simp
@[simp] theorem State.settleDir_config (s : State) (l : CohLine) :
    (State.settleDir s l).pending = s.pending ∧ (State.settleDir s l).trim = s.trim ∧ (State.settleDir s l).fuses = s.fuses := by
  unfold State.settleDir
  (repeat' split) <;> simp
@[simp] theorem State.firstRequest_config (s : State) (m : Msg) (q : Req) :
    (State.firstRequest s m q).pending = s.pending ∧ (State.firstRequest s m q).trim = s.trim ∧ (State.firstRequest s m q).fuses = s.fuses := by
  dsimp only [State.firstRequest]
  (repeat' split) <;> simp
@[simp] theorem State.reissue_config (s : State) (l : CohLine) (r : Nat) (q : Req) :
    (State.reissue s l r q).pending = s.pending ∧ (State.reissue s l r q).trim = s.trim ∧ (State.reissue s l r q).fuses = s.fuses := by
  unfold State.reissue
  simp
@[simp] theorem State.requestArrives_config (s : State) (m : Msg) :
    (State.requestArrives s m).pending = s.pending ∧ (State.requestArrives s m).trim = s.trim ∧ (State.requestArrives s m).fuses = s.fuses := by
  unfold State.requestArrives
  (repeat' split) <;> simp
@[simp] theorem State.tookIn_config (s : State) (home rank : Nat) :
    (State.tookIn s home rank).pending = s.pending ∧ (State.tookIn s home rank).trim = s.trim ∧ (State.tookIn s home rank).fuses = s.fuses := by
  unfold State.tookIn
  simp
@[simp] theorem State.localRead_config (s : State) (a : Nat) (l : CohLine) :
    (State.localRead s a l).pending = s.pending ∧ (State.localRead s a l).trim = s.trim ∧ (State.localRead s a l).fuses = s.fuses := by
  dsimp only [State.localRead]
  (repeat' split) <;> simp
@[simp] theorem State.localWrite_config (s : State) (a : Nat) (l : CohLine) :
    (State.localWrite s a l).pending = s.pending ∧ (State.localWrite s a l).trim = s.trim ∧ (State.localWrite s a l).fuses = s.fuses := by
  dsimp only [State.localWrite]
  (repeat' split) <;> simp
@[simp] theorem State.answer_config (s : State) (a : Nat) (l : CohLine) (k : MsgKind) :
    (State.answer s a l k).pending = s.pending ∧ (State.answer s a l k).trim = s.trim ∧ (State.answer s a l k).fuses = s.fuses := by
  unfold State.answer
  (repeat' split) <;> simp
@[simp] theorem State.probe_config (s : State) (a : Nat) (l : CohLine) (k : MsgKind) :
    (State.probe s a l k).pending = s.pending ∧ (State.probe s a l k).trim = s.trim ∧ (State.probe s a l k).fuses = s.fuses := by
  dsimp only [State.probe]
  (repeat' split) <;> simp
@[simp] theorem State.release_config (s : State) (a : Nat) (l : CohLine) :
    (State.release s a l).pending = s.pending ∧ (State.release s a l).trim = s.trim ∧ (State.release s a l).fuses = s.fuses := by
  unfold State.release
  simp
@[simp] theorem State.granted_config (s : State) (a : Nat) (l : CohLine) (st : AState) (f : State → State) (h4 : ∀ (x0 : State), (f x0).pending = x0.pending) :
    (State.granted s a l st f).pending = s.pending := by
  unfold State.granted
  (repeat' split) <;> simp [*]
@[simp] theorem State.dataArrives_config (s : State) (a : Nat) (l : CohLine) (g : Grant) (f : State → State) (h4 : ∀ (x0 : State), (f x0).pending = x0.pending) :
    (State.dataArrives s a l g f).pending = s.pending := by
  unfold State.dataArrives
  (repeat' split) <;> simp [*]
@[simp] theorem State.askLine_config (s : State) (x : LineNeed) :
    (State.askLine s x).pending = s.pending ∧ (State.askLine s x).trim = s.trim ∧ (State.askLine s x).fuses = s.fuses := by
  unfold State.askLine
  (repeat' split) <;> simp
@[simp] theorem State.withLines_config (s : State) (xs : List LineNeed) (wait f : State → State) (h2 : ∀ (x0 : State), (wait x0).pending = x0.pending ∧ (wait x0).trim = x0.trim ∧ (wait x0).fuses = x0.fuses) (h3 : ∀ (x0 : State), (f x0).pending = x0.pending ∧ (f x0).trim = x0.trim ∧ (f x0).fuses = x0.fuses) :
    (State.withLines s xs wait f).pending = s.pending ∧ (State.withLines s xs wait f).trim = s.trim ∧ (State.withLines s xs wait f).fuses = s.fuses := by
  unfold State.withLines
  (repeat' split) <;> simp [*]
theorem State.withLines_config_of (s : State) (xs : List LineNeed) (wait f : State → State) (u : State) (h2 : ∀ (x0 : State), (wait x0).pending = x0.pending ∧ (wait x0).trim = x0.trim ∧ (wait x0).fuses = x0.fuses) (h3 : ∀ (x0 : State), (f x0).pending = x0.pending ∧ (f x0).trim = x0.trim ∧ (f x0).fuses = x0.fuses) (hu : (s).pending = u.pending ∧ (s).trim = u.trim ∧ (s).fuses = u.fuses) :
    (State.withLines s xs wait f).pending = u.pending ∧ (State.withLines s xs wait f).trim = u.trim ∧ (State.withLines s xs wait f).fuses = u.fuses := by
  have := State.withLines_config s xs wait f h2 h3
  simp only [this, hu, and_self]
@[simp] theorem State.lineRead_config (s : State) (l : CohLine) :
    (State.lineRead s l).pending = s.pending ∧ (State.lineRead s l).trim = s.trim ∧ (State.lineRead s l).fuses = s.fuses := by
  unfold State.lineRead
  simp
@[simp] theorem State.beginReads_config (s : State) (c : Instr) (xs : List LineNeed) :
    (State.beginReads s c xs).pending = s.pending ∧ (State.beginReads s c xs).trim = s.trim ∧ (State.beginReads s c xs).fuses = s.fuses := by
  unfold State.beginReads
  simp
@[simp] theorem State.withReads_config (s : State) (c : Instr) (xs : List LineNeed) (wait f : State → State) (h3 : ∀ (x0 : State), (wait x0).pending = x0.pending ∧ (wait x0).trim = x0.trim ∧ (wait x0).fuses = x0.fuses) (h4 : ∀ (x0 : State), (f x0).pending = x0.pending ∧ (f x0).trim = x0.trim ∧ (f x0).fuses = x0.fuses) :
    (State.withReads s c xs wait f).pending = s.pending ∧ (State.withReads s c xs wait f).trim = s.trim ∧ (State.withReads s c xs wait f).fuses = s.fuses := by
  dsimp only [State.withReads]
  (repeat' split) <;> simp [*]
theorem State.withReads_config_of (s : State) (c : Instr) (xs : List LineNeed) (wait f : State → State) (u : State) (h3 : ∀ (x0 : State), (wait x0).pending = x0.pending ∧ (wait x0).trim = x0.trim ∧ (wait x0).fuses = x0.fuses) (h4 : ∀ (x0 : State), (f x0).pending = x0.pending ∧ (f x0).trim = x0.trim ∧ (f x0).fuses = x0.fuses) (hu : (s).pending = u.pending ∧ (s).trim = u.trim ∧ (s).fuses = u.fuses) :
    (State.withReads s c xs wait f).pending = u.pending ∧ (State.withReads s c xs wait f).trim = u.trim ∧ (State.withReads s c xs wait f).fuses = u.fuses := by
  have := State.withReads_config s c xs wait f h3 h4
  simp only [this, hu, and_self]
@[simp] theorem State.whenHeld_config (s : State) (n : Nat) (w : LineWork) (f : State → State) (h3 : ∀ (x0 : State), (f x0).pending = x0.pending ∧ (f x0).trim = x0.trim ∧ (f x0).fuses = x0.fuses) :
    (State.whenHeld s n w f).pending = s.pending ∧ (State.whenHeld s n w f).trim = s.trim ∧ (State.whenHeld s n w f).fuses = s.fuses := by
  unfold State.whenHeld
  simp [*]
theorem State.whenHeld_config_of (s : State) (n : Nat) (w : LineWork) (f : State → State) (u : State) (h3 : ∀ (x0 : State), (f x0).pending = x0.pending ∧ (f x0).trim = x0.trim ∧ (f x0).fuses = x0.fuses) (hu : (s).pending = u.pending ∧ (s).trim = u.trim ∧ (s).fuses = u.fuses) :
    (State.whenHeld s n w f).pending = u.pending ∧ (State.whenHeld s n w f).trim = u.trim ∧ (State.whenHeld s n w f).fuses = u.fuses := by
  have := State.whenHeld_config s n w f h3
  simp only [this, hu, and_self]
@[simp] theorem State.askReads_config (s : State) :
    (State.askReads s).pending = s.pending ∧ (State.askReads s).trim = s.trim ∧ (State.askReads s).fuses = s.fuses := by
  unfold State.askReads
  simp
@[simp] theorem State.allocLines_config (s : State) (n len : Nat) :
    (State.allocLines s n len).pending = s.pending ∧ (State.allocLines s n len).trim = s.trim ∧ (State.allocLines s n len).fuses = s.fuses := by
  unfold State.allocLines
  simp
@[simp] theorem State.freeLines_config (s : State) (n len : Nat) :
    (State.freeLines s n len).pending = s.pending ∧ (State.freeLines s n len).trim = s.trim ∧ (State.freeLines s n len).fuses = s.fuses := by
  unfold State.freeLines
  simp
@[simp] theorem State.lookup_config (s : State) (l : CohLine) (bad : Option Found) (f : State → State) (h3 : ∀ (x0 : State), (f x0).pending = x0.pending ∧ (f x0).trim = x0.trim ∧ (f x0).fuses = x0.fuses) :
    (State.lookup s l bad f).pending = s.pending ∧ (State.lookup s l bad f).trim = s.trim ∧ (State.lookup s l bad f).fuses = s.fuses := by
  unfold State.lookup
  (repeat' split) <;> simp [*]
theorem State.lookup_config_of (s : State) (l : CohLine) (bad : Option Found) (f : State → State) (u : State) (h3 : ∀ (x0 : State), (f x0).pending = x0.pending ∧ (f x0).trim = x0.trim ∧ (f x0).fuses = x0.fuses) (hu : (s).pending = u.pending ∧ (s).trim = u.trim ∧ (s).fuses = u.fuses) :
    (State.lookup s l bad f).pending = u.pending ∧ (State.lookup s l bad f).trim = u.trim ∧ (State.lookup s l bad f).fuses = u.fuses := by
  have := State.lookup_config s l bad f h3
  simp only [this, hu, and_self]
@[simp] theorem State.request_config (s : State) (a : Nat) (l : CohLine) (q : Req) (same : Bool) (bad : Option Found) :
    (State.request s a l q same bad).pending = s.pending ∧ (State.request s a l q same bad).trim = s.trim ∧ (State.request s a l q same bad).fuses = s.fuses := by
  dsimp only [State.request]
  repeat' first | split | (with_reducible apply State.when_config_of <;> intros) | (with_reducible apply State.sbAnswer_config_of <;> intros) | (with_reducible apply State.deliver_config_of <;> intros) | (with_reducible apply State.withLines_config_of <;> intros) | (with_reducible apply State.withReads_config_of <;> intros) | (with_reducible apply State.whenHeld_config_of <;> intros) | (with_reducible apply State.lookup_config_of <;> intros) | (with_reducible apply State.hostRead_config_of <;> intros) | (with_reducible apply State.hostWrite_config_of <;> intros) | (with_reducible apply State.delivery_config_of <;> intros) | (with_reducible apply State.pageRead_config_of <;> intros) | (with_reducible apply State.pageWrite_config_of <;> intros) | (with_reducible apply State.stewardLines_config_of <;> intros) | (with_reducible apply State.choiceLines_config_of <;> intros) | (with_reducible apply State.preloadRead_config_of <;> intros) | (with_reducible apply State.opStep_config_of <;> intros) | (with_reducible apply State.receive_config_of <;> intros) | (with_reducible apply State.onObject_config_of <;> intros) | (with_reducible apply State.endOwner_config_of <;> intros) | (with_reducible apply State.chipWide_config_of <;> intros) | (with_reducible apply State.kernelStep_config_of <;> intros) | (with_reducible apply State.coreInstr_config_of <;> intros) | (with_reducible apply State.endArrival_config_of <;> intros) | (with_reducible apply State.notice_config_of <;> intros) | (with_reducible apply State.fenceNotice_config_of <;> intros) | (with_reducible apply State.handleStep_config_of <;> intros) | (with_reducible apply State.sysStep_config_of <;> intros) | (with_reducible apply State.forAll_config_of <;> intros) | (with_reducible apply foldl_config_of <;> intros)
  all_goals simp
theorem execRds_config (a : Nat) (h : HomeRequest) (s : State) (t0 : State) (h0 : execRds a h s = .next t0) :
    (t0).pending = s.pending ∧ (t0).trim = s.trim ∧ (t0).fuses = s.fuses := by
  obtain ⟨_, rfl⟩ := ok_next h0
  clear h0
  simp
theorem execRdx_config (a : Nat) (h : HomeRequest) (s : State) (t0 : State) (h0 : execRdx a h s = .next t0) :
    (t0).pending = s.pending ∧ (t0).trim = s.trim ∧ (t0).fuses = s.fuses := by
  obtain ⟨_, rfl⟩ := ok_next h0
  clear h0
  try dsimp only
  repeat' first | split | (with_reducible apply State.when_config_of <;> intros) | (with_reducible apply State.sbAnswer_config_of <;> intros) | (with_reducible apply State.deliver_config_of <;> intros) | (with_reducible apply State.withLines_config_of <;> intros) | (with_reducible apply State.withReads_config_of <;> intros) | (with_reducible apply State.whenHeld_config_of <;> intros) | (with_reducible apply State.lookup_config_of <;> intros) | (with_reducible apply State.hostRead_config_of <;> intros) | (with_reducible apply State.hostWrite_config_of <;> intros) | (with_reducible apply State.delivery_config_of <;> intros) | (with_reducible apply State.pageRead_config_of <;> intros) | (with_reducible apply State.pageWrite_config_of <;> intros) | (with_reducible apply State.stewardLines_config_of <;> intros) | (with_reducible apply State.choiceLines_config_of <;> intros) | (with_reducible apply State.preloadRead_config_of <;> intros) | (with_reducible apply State.opStep_config_of <;> intros) | (with_reducible apply State.receive_config_of <;> intros) | (with_reducible apply State.onObject_config_of <;> intros) | (with_reducible apply State.endOwner_config_of <;> intros) | (with_reducible apply State.chipWide_config_of <;> intros) | (with_reducible apply State.kernelStep_config_of <;> intros) | (with_reducible apply State.coreInstr_config_of <;> intros) | (with_reducible apply State.endArrival_config_of <;> intros) | (with_reducible apply State.notice_config_of <;> intros) | (with_reducible apply State.fenceNotice_config_of <;> intros) | (with_reducible apply State.handleStep_config_of <;> intros) | (with_reducible apply State.sysStep_config_of <;> intros) | (with_reducible apply State.forAll_config_of <;> intros) | (with_reducible apply foldl_config_of <;> intros)
  all_goals simp
theorem execUpg_config (a : Nat) (h : HomeRequest) (s : State) (t0 : State) (h0 : execUpg a h s = .next t0) :
    (t0).pending = s.pending ∧ (t0).trim = s.trim ∧ (t0).fuses = s.fuses := by
  obtain ⟨_, rfl⟩ := ok_next h0
  clear h0
  try dsimp only
  repeat' first | split | (with_reducible apply State.when_config_of <;> intros) | (with_reducible apply State.sbAnswer_config_of <;> intros) | (with_reducible apply State.deliver_config_of <;> intros) | (with_reducible apply State.withLines_config_of <;> intros) | (with_reducible apply State.withReads_config_of <;> intros) | (with_reducible apply State.whenHeld_config_of <;> intros) | (with_reducible apply State.lookup_config_of <;> intros) | (with_reducible apply State.hostRead_config_of <;> intros) | (with_reducible apply State.hostWrite_config_of <;> intros) | (with_reducible apply State.delivery_config_of <;> intros) | (with_reducible apply State.pageRead_config_of <;> intros) | (with_reducible apply State.pageWrite_config_of <;> intros) | (with_reducible apply State.stewardLines_config_of <;> intros) | (with_reducible apply State.choiceLines_config_of <;> intros) | (with_reducible apply State.preloadRead_config_of <;> intros) | (with_reducible apply State.opStep_config_of <;> intros) | (with_reducible apply State.receive_config_of <;> intros) | (with_reducible apply State.onObject_config_of <;> intros) | (with_reducible apply State.endOwner_config_of <;> intros) | (with_reducible apply State.chipWide_config_of <;> intros) | (with_reducible apply State.kernelStep_config_of <;> intros) | (with_reducible apply State.coreInstr_config_of <;> intros) | (with_reducible apply State.endArrival_config_of <;> intros) | (with_reducible apply State.notice_config_of <;> intros) | (with_reducible apply State.fenceNotice_config_of <;> intros) | (with_reducible apply State.handleStep_config_of <;> intros) | (with_reducible apply State.sysStep_config_of <;> intros) | (with_reducible apply State.forAll_config_of <;> intros) | (with_reducible apply foldl_config_of <;> intros)
  all_goals simp
@[simp] theorem State.writeBack_config (s : State) (m : Msg) :
    (State.writeBack s m).pending = s.pending ∧ (State.writeBack s m).trim = s.trim ∧ (State.writeBack s m).fuses = s.fuses := by
  dsimp only [State.writeBack]
  (repeat' split) <;> simp
theorem execWbc_config (a : Nat) (h : HomeArrival) (s : State) (t0 : State) (h0 : execWbc a h s = .next t0) :
    (t0).pending = s.pending ∧ (t0).trim = s.trim ∧ (t0).fuses = s.fuses := by
  obtain ⟨_, rfl⟩ := ok_next h0
  clear h0
  try dsimp only
  repeat' first | split | (with_reducible apply State.when_config_of <;> intros) | (with_reducible apply State.sbAnswer_config_of <;> intros) | (with_reducible apply State.deliver_config_of <;> intros) | (with_reducible apply State.withLines_config_of <;> intros) | (with_reducible apply State.withReads_config_of <;> intros) | (with_reducible apply State.whenHeld_config_of <;> intros) | (with_reducible apply State.lookup_config_of <;> intros) | (with_reducible apply State.hostRead_config_of <;> intros) | (with_reducible apply State.hostWrite_config_of <;> intros) | (with_reducible apply State.delivery_config_of <;> intros) | (with_reducible apply State.pageRead_config_of <;> intros) | (with_reducible apply State.pageWrite_config_of <;> intros) | (with_reducible apply State.stewardLines_config_of <;> intros) | (with_reducible apply State.choiceLines_config_of <;> intros) | (with_reducible apply State.preloadRead_config_of <;> intros) | (with_reducible apply State.opStep_config_of <;> intros) | (with_reducible apply State.receive_config_of <;> intros) | (with_reducible apply State.onObject_config_of <;> intros) | (with_reducible apply State.endOwner_config_of <;> intros) | (with_reducible apply State.chipWide_config_of <;> intros) | (with_reducible apply State.kernelStep_config_of <;> intros) | (with_reducible apply State.coreInstr_config_of <;> intros) | (with_reducible apply State.endArrival_config_of <;> intros) | (with_reducible apply State.notice_config_of <;> intros) | (with_reducible apply State.fenceNotice_config_of <;> intros) | (with_reducible apply State.handleStep_config_of <;> intros) | (with_reducible apply State.sysStep_config_of <;> intros) | (with_reducible apply State.forAll_config_of <;> intros) | (with_reducible apply foldl_config_of <;> intros)
  all_goals simp
theorem execRetry_config (a : Nat) (l : CohLine) (s : State) (t0 : State) (h0 : execRetry a l s = .next t0) :
    (t0).pending = s.pending ∧ (t0).trim = s.trim ∧ (t0).fuses = s.fuses := by
  obtain ⟨_, rfl⟩ := ok_next h0
  clear h0
  try dsimp only
  repeat' first | split | (with_reducible apply State.when_config_of <;> intros) | (with_reducible apply State.sbAnswer_config_of <;> intros) | (with_reducible apply State.deliver_config_of <;> intros) | (with_reducible apply State.withLines_config_of <;> intros) | (with_reducible apply State.withReads_config_of <;> intros) | (with_reducible apply State.whenHeld_config_of <;> intros) | (with_reducible apply State.lookup_config_of <;> intros) | (with_reducible apply State.hostRead_config_of <;> intros) | (with_reducible apply State.hostWrite_config_of <;> intros) | (with_reducible apply State.delivery_config_of <;> intros) | (with_reducible apply State.pageRead_config_of <;> intros) | (with_reducible apply State.pageWrite_config_of <;> intros) | (with_reducible apply State.stewardLines_config_of <;> intros) | (with_reducible apply State.choiceLines_config_of <;> intros) | (with_reducible apply State.preloadRead_config_of <;> intros) | (with_reducible apply State.opStep_config_of <;> intros) | (with_reducible apply State.receive_config_of <;> intros) | (with_reducible apply State.onObject_config_of <;> intros) | (with_reducible apply State.endOwner_config_of <;> intros) | (with_reducible apply State.chipWide_config_of <;> intros) | (with_reducible apply State.kernelStep_config_of <;> intros) | (with_reducible apply State.coreInstr_config_of <;> intros) | (with_reducible apply State.endArrival_config_of <;> intros) | (with_reducible apply State.notice_config_of <;> intros) | (with_reducible apply State.fenceNotice_config_of <;> intros) | (with_reducible apply State.handleStep_config_of <;> intros) | (with_reducible apply State.sysStep_config_of <;> intros) | (with_reducible apply State.forAll_config_of <;> intros) | (with_reducible apply foldl_config_of <;> intros)
  all_goals simp
theorem execFwdS_config (a : Nat) (l : CohLine) (s : State) (t0 : State) (h0 : execFwdS a l s = .next t0) :
    (t0).pending = s.pending ∧ (t0).trim = s.trim ∧ (t0).fuses = s.fuses := by
  obtain ⟨_, rfl⟩ := ok_next h0
  clear h0
  simp
theorem execFwdX_config (a : Nat) (l : CohLine) (s : State) (t0 : State) (h0 : execFwdX a l s = .next t0) :
    (t0).pending = s.pending ∧ (t0).trim = s.trim ∧ (t0).fuses = s.fuses := by
  obtain ⟨_, rfl⟩ := ok_next h0
  clear h0
  simp
theorem execInv_config (a : Nat) (l : CohLine) (s : State) (t0 : State) (h0 : execInv a l s = .next t0) :
    (t0).pending = s.pending ∧ (t0).trim = s.trim ∧ (t0).fuses = s.fuses := by
  obtain ⟨_, rfl⟩ := ok_next h0
  clear h0
  simp
@[simp] theorem State.ackArrives_config (s : State) (m : Msg) :
    (State.ackArrives s m).pending = s.pending ∧ (State.ackArrives s m).trim = s.trim ∧ (State.ackArrives s m).fuses = s.fuses := by
  dsimp only [State.ackArrives]
  (repeat' split) <;> simp
theorem execHoldEnd_config (a : Nat) (l : CohLine) (s : State) (t0 : State) (h0 : execHoldEnd a l s = .next t0) :
    (t0).pending = s.pending ∧ (t0).trim = s.trim ∧ (t0).fuses = s.fuses := by
  obtain ⟨_, rfl⟩ := ok_next h0
  clear h0
  simp
theorem execAgentEviction_config (a : Nat) (l : CohLine) (s : State) (t0 : State) (h0 : execAgentEviction a l s = .next t0) :
    (t0).pending = s.pending ∧ (t0).trim = s.trim ∧ (t0).fuses = s.fuses := by
  obtain ⟨_, rfl⟩ := ok_next h0
  clear h0
  try dsimp only
  repeat' first | split | (with_reducible apply State.when_config_of <;> intros) | (with_reducible apply State.sbAnswer_config_of <;> intros) | (with_reducible apply State.deliver_config_of <;> intros) | (with_reducible apply State.withLines_config_of <;> intros) | (with_reducible apply State.withReads_config_of <;> intros) | (with_reducible apply State.whenHeld_config_of <;> intros) | (with_reducible apply State.lookup_config_of <;> intros) | (with_reducible apply State.hostRead_config_of <;> intros) | (with_reducible apply State.hostWrite_config_of <;> intros) | (with_reducible apply State.delivery_config_of <;> intros) | (with_reducible apply State.pageRead_config_of <;> intros) | (with_reducible apply State.pageWrite_config_of <;> intros) | (with_reducible apply State.stewardLines_config_of <;> intros) | (with_reducible apply State.choiceLines_config_of <;> intros) | (with_reducible apply State.preloadRead_config_of <;> intros) | (with_reducible apply State.opStep_config_of <;> intros) | (with_reducible apply State.receive_config_of <;> intros) | (with_reducible apply State.onObject_config_of <;> intros) | (with_reducible apply State.endOwner_config_of <;> intros) | (with_reducible apply State.chipWide_config_of <;> intros) | (with_reducible apply State.kernelStep_config_of <;> intros) | (with_reducible apply State.coreInstr_config_of <;> intros) | (with_reducible apply State.endArrival_config_of <;> intros) | (with_reducible apply State.notice_config_of <;> intros) | (with_reducible apply State.fenceNotice_config_of <;> intros) | (with_reducible apply State.handleStep_config_of <;> intros) | (with_reducible apply State.sysStep_config_of <;> intros) | (with_reducible apply State.forAll_config_of <;> intros) | (with_reducible apply foldl_config_of <;> intros)
  all_goals simp
theorem execHomeSideWrite_config (h : HomeArrival) (s : State) (t0 : State) (h0 : execHomeSideWrite h s = .next t0) :
    (t0).pending = s.pending ∧ (t0).trim = s.trim ∧ (t0).fuses = s.fuses := by
  obtain ⟨_, rfl⟩ := ok_next h0
  clear h0
  simp
theorem execCoherenceTimeout_config (l : CohLine) (s : State) (t0 : State) (h0 : execCoherenceTimeout l s = .next t0) :
    (t0).pending = s.pending ∧ (t0).trim = s.trim ∧ (t0).fuses = s.fuses := by
  obtain ⟨_, rfl⟩ := ok_next h0
  clear h0
  simp
@[simp] theorem State.onFurrow_config (s : State) (f : Nat) (g : Furrow → Furrow) :
    (State.onFurrow s f g).pending = s.pending ∧ (State.onFurrow s f g).trim = s.trim ∧ (State.onFurrow s f g).fuses = s.fuses := by
  unfold State.onFurrow
  simp
@[simp] theorem State.wakeLent_config (s : State) :
    (State.wakeLent s).pending = s.pending ∧ (State.wakeLent s).trim = s.trim ∧ (State.wakeLent s).fuses = s.fuses := by
  unfold State.wakeLent
  simp
@[simp] theorem State.writeRecord_config (s : State) (r : Record) :
    (State.writeRecord s r).pending = s.pending ∧ (State.writeRecord s r).trim = s.trim ∧ (State.writeRecord s r).fuses = s.fuses := by
  unfold State.writeRecord
  simp
@[simp] theorem State.putRecord_config (s : State) (r : Record) :
    (State.putRecord s r).pending = s.pending ∧ (State.putRecord s r).trim = s.trim ∧ (State.putRecord s r).fuses = s.fuses := by
  dsimp only [State.putRecord]
  (repeat' split) <;> simp
@[simp] theorem State.restartTimer_config (s : State) (n : Nat) :
    (State.restartTimer s n).pending = s.pending ∧ (State.restartTimer s n).trim = s.trim ∧ (State.restartTimer s n).fuses = s.fuses := by
  unfold State.restartTimer
  simp
@[simp] theorem State.discard_config (s : State) (f : Nat) :
    (State.discard s f).pending = s.pending ∧ (State.discard s f).trim = s.trim ∧ (State.discard s f).fuses = s.fuses := by
  unfold State.discard
  (repeat' split) <;> simp
@[simp] theorem State.discardWhere_config (s : State) (p : Entry → Bool) :
    (State.discardWhere s p).pending = s.pending ∧ (State.discardWhere s p).trim = s.trim ∧ (State.discardWhere s p).fuses = s.fuses := by
  unfold State.discardWhere
  simp
@[simp] theorem State.beginPause_config (s : State) (c : Nat) :
    (State.beginPause s c).pending = s.pending ∧ (State.beginPause s c).trim = s.trim ∧ (State.beginPause s c).fuses = s.fuses := by
  unfold State.beginPause
  simp
@[simp] theorem State.fireBreak_config (s : State) (u : Nat) :
    (State.fireBreak s u).pending = s.pending ∧ (State.fireBreak s u).trim = s.trim ∧ (State.fireBreak s u).fuses = s.fuses := by
  unfold State.fireBreak
  simp
@[simp] theorem State.countBreaks_config (s : State) (q n : Nat) :
    (State.countBreaks s q n).pending = s.pending ∧ (State.countBreaks s q n).trim = s.trim ∧ (State.countBreaks s q n).fuses = s.fuses := by
  dsimp only [State.countBreaks]
  repeat' first | split | (with_reducible apply State.when_config_of <;> intros) | (with_reducible apply State.sbAnswer_config_of <;> intros) | (with_reducible apply State.deliver_config_of <;> intros) | (with_reducible apply State.withLines_config_of <;> intros) | (with_reducible apply State.withReads_config_of <;> intros) | (with_reducible apply State.whenHeld_config_of <;> intros) | (with_reducible apply State.lookup_config_of <;> intros) | (with_reducible apply State.hostRead_config_of <;> intros) | (with_reducible apply State.hostWrite_config_of <;> intros) | (with_reducible apply State.delivery_config_of <;> intros) | (with_reducible apply State.pageRead_config_of <;> intros) | (with_reducible apply State.pageWrite_config_of <;> intros) | (with_reducible apply State.stewardLines_config_of <;> intros) | (with_reducible apply State.choiceLines_config_of <;> intros) | (with_reducible apply State.preloadRead_config_of <;> intros) | (with_reducible apply State.opStep_config_of <;> intros) | (with_reducible apply State.receive_config_of <;> intros) | (with_reducible apply State.onObject_config_of <;> intros) | (with_reducible apply State.endOwner_config_of <;> intros) | (with_reducible apply State.chipWide_config_of <;> intros) | (with_reducible apply State.kernelStep_config_of <;> intros) | (with_reducible apply State.coreInstr_config_of <;> intros) | (with_reducible apply State.endArrival_config_of <;> intros) | (with_reducible apply State.notice_config_of <;> intros) | (with_reducible apply State.fenceNotice_config_of <;> intros) | (with_reducible apply State.handleStep_config_of <;> intros) | (with_reducible apply State.sysStep_config_of <;> intros) | (with_reducible apply State.forAll_config_of <;> intros) | (with_reducible apply foldl_config_of <;> intros)
  all_goals simp
@[simp] theorem State.settleEdges_config (s : State) (hit : EdgeTarget → Bool) (zero : Bool) :
    (State.settleEdges s hit zero).pending = s.pending ∧ (State.settleEdges s hit zero).trim = s.trim ∧ (State.settleEdges s hit zero).fuses = s.fuses := by
  unfold State.settleEdges
  simp
@[simp] theorem State.makeCurrent_config (s : State) (k fr : Nat) :
    (State.makeCurrent s k fr).pending = s.pending ∧ (State.makeCurrent s k fr).trim = s.trim ∧ (State.makeCurrent s k fr).fuses = s.fuses := by
  unfold State.makeCurrent
  simp
@[simp] theorem State.pickRun_config (s : State) (k : Nat) :
    (State.pickRun s k).pending = s.pending ∧ (State.pickRun s k).trim = s.trim ∧ (State.pickRun s k).fuses = s.fuses := by
  unfold State.pickRun
  (repeat' split) <;> simp
@[simp] theorem State.leaveCore_config (s : State) (k : Nat) :
    (State.leaveCore s k).pending = s.pending ∧ (State.leaveCore s k).trim = s.trim ∧ (State.leaveCore s k).fuses = s.fuses := by
  unfold State.leaveCore
  (repeat' split) <;> simp
@[simp] theorem State.readyRun_config (s : State) (k fr : Nat) :
    (State.readyRun s k fr).pending = s.pending ∧ (State.readyRun s k fr).trim = s.trim ∧ (State.readyRun s k fr).fuses = s.fuses := by
  unfold State.readyRun
  (repeat' split) <;> simp
@[simp] theorem State.wakeIssuers_config (s : State) :
    (State.wakeIssuers s).pending = s.pending ∧ (State.wakeIssuers s).trim = s.trim ∧ (State.wakeIssuers s).fuses = s.fuses := by
  dsimp only [State.wakeIssuers]
  repeat' first | split | (with_reducible apply State.when_config_of <;> intros) | (with_reducible apply State.sbAnswer_config_of <;> intros) | (with_reducible apply State.deliver_config_of <;> intros) | (with_reducible apply State.withLines_config_of <;> intros) | (with_reducible apply State.withReads_config_of <;> intros) | (with_reducible apply State.whenHeld_config_of <;> intros) | (with_reducible apply State.lookup_config_of <;> intros) | (with_reducible apply State.hostRead_config_of <;> intros) | (with_reducible apply State.hostWrite_config_of <;> intros) | (with_reducible apply State.delivery_config_of <;> intros) | (with_reducible apply State.pageRead_config_of <;> intros) | (with_reducible apply State.pageWrite_config_of <;> intros) | (with_reducible apply State.stewardLines_config_of <;> intros) | (with_reducible apply State.choiceLines_config_of <;> intros) | (with_reducible apply State.preloadRead_config_of <;> intros) | (with_reducible apply State.opStep_config_of <;> intros) | (with_reducible apply State.receive_config_of <;> intros) | (with_reducible apply State.onObject_config_of <;> intros) | (with_reducible apply State.endOwner_config_of <;> intros) | (with_reducible apply State.chipWide_config_of <;> intros) | (with_reducible apply State.kernelStep_config_of <;> intros) | (with_reducible apply State.coreInstr_config_of <;> intros) | (with_reducible apply State.endArrival_config_of <;> intros) | (with_reducible apply State.notice_config_of <;> intros) | (with_reducible apply State.fenceNotice_config_of <;> intros) | (with_reducible apply State.handleStep_config_of <;> intros) | (with_reducible apply State.sysStep_config_of <;> intros) | (with_reducible apply State.forAll_config_of <;> intros) | (with_reducible apply foldl_config_of <;> intros)
  all_goals simp
@[simp] theorem State.freeNode_config (s : State) (n : Nat) :
    (State.freeNode s n).pending = s.pending ∧ (State.freeNode s n).trim = s.trim ∧ (State.freeNode s n).fuses = s.fuses := by
  dsimp only [State.freeNode]
  (repeat' split) <;> simp
@[simp] theorem State.letGo_config (s : State) (h : Handle) :
    (State.letGo s h).pending = s.pending ∧ (State.letGo s h).trim = s.trim ∧ (State.letGo s h).fuses = s.fuses := by
  unfold State.letGo
  (repeat' split) <;> simp
@[simp] theorem State.checkAbortBusy_config (s : State) :
    (State.checkAbortBusy s).pending = s.pending ∧ (State.checkAbortBusy s).trim = s.trim ∧ (State.checkAbortBusy s).fuses = s.fuses := by
  unfold State.checkAbortBusy
  (repeat' split) <;> simp
@[simp] theorem State.markRetired_config (s : State) (q : Nat) (seq : Word) (tag : BitVec 32) (status : BitVec 8) (executed : Nat) (accepted : Bool) :
    (State.markRetired s q seq tag status executed accepted).pending = s.pending ∧ (State.markRetired s q seq tag status executed accepted).trim = s.trim ∧ (State.markRetired s q seq tag status executed accepted).fuses = s.fuses := by
  unfold State.markRetired
  simp
@[simp] theorem State.writeQueue_config (s : State) (q : Nat) (y : Queue) :
    (State.writeQueue s q y).pending = s.pending ∧ (State.writeQueue s q y).trim = s.trim ∧ (State.writeQueue s q y).fuses = s.fuses := by
  dsimp only [State.writeQueue]
  (repeat' split) <;> simp
@[simp] theorem State.advanceQueue_config (s : State) (q : Nat) :
    (State.advanceQueue s q).pending = s.pending ∧ (State.advanceQueue s q).trim = s.trim ∧ (State.advanceQueue s q).fuses = s.fuses := by
  dsimp only [State.advanceQueue]
  (repeat' split) <;> simp
@[simp] theorem State.retireSeq_config (s : State) (q : Nat) (seq : Word) (tag : BitVec 32) (gen : BitVec 12) (fin : Final) (node : Option Nat) :
    (State.retireSeq s q seq tag gen fin node).pending = s.pending ∧ (State.retireSeq s q seq tag gen fin node).trim = s.trim ∧ (State.retireSeq s q seq tag gen fin node).fuses = s.fuses := by
  dsimp only [State.retireSeq]
  (repeat' split) <;> simp
@[simp] theorem State.queueScale_config (s : State) (d : Node) :
    (State.queueScale s d).pending = s.pending ∧ (State.queueScale s d).trim = s.trim ∧ (State.queueScale s d).fuses = s.fuses := by
  unfold State.queueScale
  (repeat' split) <;> simp
@[simp] theorem State.removeEntries_config (s : State) (p : Entry → Bool) :
    (State.removeEntries s p).pending = s.pending ∧ (State.removeEntries s p).trim = s.trim ∧ (State.removeEntries s p).fuses = s.fuses := by
  unfold State.removeEntries
  simp
@[simp] theorem State.tallyEnd_config (s : State) (d : Node) :
    (State.tallyEnd s d).pending = s.pending ∧ (State.tallyEnd s d).trim = s.trim ∧ (State.tallyEnd s d).fuses = s.fuses := by
  unfold State.tallyEnd
  (repeat' split) <;> simp
@[simp] theorem State.retireQueued_config (s : State) (n : Nat) (d : Node) (fin : Final) :
    (State.retireQueued s n d fin).pending = s.pending ∧ (State.retireQueued s n d fin).trim = s.trim ∧ (State.retireQueued s n d fin).fuses = s.fuses := by
  unfold State.retireQueued
  simp
@[simp] theorem State.putPort_config (s : State) (k i : Nat) (p : Option Port) :
    (State.putPort s k i p).pending = s.pending ∧ (State.putPort s k i p).trim = s.trim ∧ (State.putPort s k i p).fuses = s.fuses := by
  unfold State.putPort
  simp
@[simp] theorem State.wakeSync_config (s : State) (k : Nat) :
    (State.wakeSync s k).pending = s.pending ∧ (State.wakeSync s k).trim = s.trim ∧ (State.wakeSync s k).fuses = s.fuses := by
  dsimp only [State.wakeSync]
  repeat' first | split | (with_reducible apply State.when_config_of <;> intros) | (with_reducible apply State.sbAnswer_config_of <;> intros) | (with_reducible apply State.deliver_config_of <;> intros) | (with_reducible apply State.withLines_config_of <;> intros) | (with_reducible apply State.withReads_config_of <;> intros) | (with_reducible apply State.whenHeld_config_of <;> intros) | (with_reducible apply State.lookup_config_of <;> intros) | (with_reducible apply State.hostRead_config_of <;> intros) | (with_reducible apply State.hostWrite_config_of <;> intros) | (with_reducible apply State.delivery_config_of <;> intros) | (with_reducible apply State.pageRead_config_of <;> intros) | (with_reducible apply State.pageWrite_config_of <;> intros) | (with_reducible apply State.stewardLines_config_of <;> intros) | (with_reducible apply State.choiceLines_config_of <;> intros) | (with_reducible apply State.preloadRead_config_of <;> intros) | (with_reducible apply State.opStep_config_of <;> intros) | (with_reducible apply State.receive_config_of <;> intros) | (with_reducible apply State.onObject_config_of <;> intros) | (with_reducible apply State.endOwner_config_of <;> intros) | (with_reducible apply State.chipWide_config_of <;> intros) | (with_reducible apply State.kernelStep_config_of <;> intros) | (with_reducible apply State.coreInstr_config_of <;> intros) | (with_reducible apply State.endArrival_config_of <;> intros) | (with_reducible apply State.notice_config_of <;> intros) | (with_reducible apply State.fenceNotice_config_of <;> intros) | (with_reducible apply State.handleStep_config_of <;> intros) | (with_reducible apply State.sysStep_config_of <;> intros) | (with_reducible apply State.forAll_config_of <;> intros) | (with_reducible apply foldl_config_of <;> intros)
  all_goals simp
@[simp] theorem State.setPort_config (s : State) (k i : Nat) (p : Option Port) :
    (State.setPort s k i p).pending = s.pending ∧ (State.setPort s k i p).trim = s.trim ∧ (State.setPort s k i p).fuses = s.fuses := by
  unfold State.setPort
  simp
@[simp] theorem State.wakeCredit_config (s : State) (k i : Nat) :
    (State.wakeCredit s k i).pending = s.pending ∧ (State.wakeCredit s k i).trim = s.trim ∧ (State.wakeCredit s k i).fuses = s.fuses := by
  unfold State.wakeCredit
  (repeat' split) <;> simp
@[simp] theorem State.streamEnd_config (s : State) (d : Node) (committed : Bool) :
    (State.streamEnd s d committed).pending = s.pending ∧ (State.streamEnd s d committed).trim = s.trim ∧ (State.streamEnd s d committed).fuses = s.fuses := by
  unfold State.streamEnd
  (repeat' split) <;> simp
@[simp] theorem State.issueDone_config (s : State) (k call i : Nat) (res : BitVec 8 × BitVec 16) :
    (State.issueDone s k call i res).pending = s.pending ∧ (State.issueDone s k call i res).trim = s.trim ∧ (State.issueDone s k call i res).fuses = s.fuses := by
  dsimp only [State.issueDone]
  (repeat' split) <;> simp
@[simp] theorem State.endCall_config (s : State) (call : Nat) :
    (State.endCall s call).pending = s.pending ∧ (State.endCall s call).trim = s.trim ∧ (State.endCall s call).fuses = s.fuses := by
  unfold State.endCall
  (repeat' split) <;> simp
@[simp] theorem State.retireChild_config (s : State) (n : Nat) (d : Node) (call i : Nat) (fin : Final) :
    (State.retireChild s n d call i fin).pending = s.pending ∧ (State.retireChild s n d call i fin).trim = s.trim ∧ (State.retireChild s n d call i fin).fuses = s.fuses := by
  unfold State.retireChild
  simp
@[simp] theorem State.retire_config (s : State) (n : Nat) (fin : Final) :
    (State.retire s n fin).pending = s.pending ∧ (State.retire s n fin).trim = s.trim ∧ (State.retire s n fin).fuses = s.fuses := by
  unfold State.retire
  (repeat' split) <;> simp
@[simp] theorem State.retireWith_config (s : State) (n : Nat) (status : BitVec 8) (executed : Nat) (detail : BitVec 32) :
    (State.retireWith s n status executed detail).pending = s.pending ∧ (State.retireWith s n status executed detail).trim = s.trim ∧ (State.retireWith s n status executed detail).fuses = s.fuses := by
  unfold State.retireWith
  simp
@[simp] theorem State.refuse_config (s : State) (n : Nat) (d : Node) (w b : Nat) :
    (State.refuse s n d w b).pending = s.pending ∧ (State.refuse s n d w b).trim = s.trim ∧ (State.refuse s n d w b).fuses = s.fuses := by
  unfold State.refuse
  simp
@[simp] theorem State.doom_config (s : State) (n : Nat) (d : Node) (fin : Final) (e : Event) :
    (State.doom s n d fin e).pending = s.pending ∧ (State.doom s n d fin e).trim = s.trim ∧ (State.doom s n d fin e).fuses = s.fuses := by
  unfold State.doom
  simp
@[simp] theorem State.inform_config (s : State) (n : Nat) (d : Node) (status : BitVec 8) (executed : Nat) (detail : BitVec 32) (furrow : BitVec 10) :
    (State.inform s n d status executed detail furrow).pending = s.pending ∧ (State.inform s n d status executed detail furrow).trim = s.trim ∧ (State.inform s n d status executed detail furrow).fuses = s.fuses := by
  unfold State.inform
  simp
@[simp] theorem State.drainHeld_config (s : State) (q k : Nat) :
    (s.drainHeld q k).pending = s.pending ∧ (s.drainHeld q k).trim = s.trim ∧ (s.drainHeld q k).fuses = s.fuses := by
  induction k generalizing s with
  | zero => exact ⟨rfl, rfl, rfl⟩
  | succ k ih =>
    unfold State.drainHeld
    dsimp only
    (repeat' split) <;> simp [ih]
@[simp] theorem State.recack_config (s : State) (q : Nat) (v : Word) :
    (State.recack s q v).pending = s.pending ∧ (State.recack s q v).trim = s.trim ∧ (State.recack s q v).fuses = s.fuses := by
  dsimp only [State.recack]
  (repeat' split) <;> simp
theorem execEdgeRegistration_config (n i : Nat) (s : State) (t0 : State) (h0 : execEdgeRegistration n i s = .next t0) :
    (t0).pending = s.pending ∧ (t0).trim = s.trim ∧ (t0).fuses = s.fuses := by
  obtain ⟨_, rfl⟩ := ok_next h0
  clear h0
  try dsimp only
  repeat' first | split | (with_reducible apply State.when_config_of <;> intros) | (with_reducible apply State.sbAnswer_config_of <;> intros) | (with_reducible apply State.deliver_config_of <;> intros) | (with_reducible apply State.withLines_config_of <;> intros) | (with_reducible apply State.withReads_config_of <;> intros) | (with_reducible apply State.whenHeld_config_of <;> intros) | (with_reducible apply State.lookup_config_of <;> intros) | (with_reducible apply State.hostRead_config_of <;> intros) | (with_reducible apply State.hostWrite_config_of <;> intros) | (with_reducible apply State.delivery_config_of <;> intros) | (with_reducible apply State.pageRead_config_of <;> intros) | (with_reducible apply State.pageWrite_config_of <;> intros) | (with_reducible apply State.stewardLines_config_of <;> intros) | (with_reducible apply State.choiceLines_config_of <;> intros) | (with_reducible apply State.preloadRead_config_of <;> intros) | (with_reducible apply State.opStep_config_of <;> intros) | (with_reducible apply State.receive_config_of <;> intros) | (with_reducible apply State.onObject_config_of <;> intros) | (with_reducible apply State.endOwner_config_of <;> intros) | (with_reducible apply State.chipWide_config_of <;> intros) | (with_reducible apply State.kernelStep_config_of <;> intros) | (with_reducible apply State.coreInstr_config_of <;> intros) | (with_reducible apply State.endArrival_config_of <;> intros) | (with_reducible apply State.notice_config_of <;> intros) | (with_reducible apply State.fenceNotice_config_of <;> intros) | (with_reducible apply State.handleStep_config_of <;> intros) | (with_reducible apply State.sysStep_config_of <;> intros) | (with_reducible apply State.forAll_config_of <;> intros) | (with_reducible apply foldl_config_of <;> intros)
  all_goals simp
theorem execRetireNotice_config (q : Nat) (seq : Word) (s : State) (t0 : State) (h0 : execRetireNotice q seq s = .next t0) :
    (t0).pending = s.pending ∧ (t0).trim = s.trim ∧ (t0).fuses = s.fuses := by
  obtain ⟨_, rfl⟩ := ok_next h0
  clear h0
  simp
@[simp] theorem State.hold_config (s : State) (c : Instr) :
    (State.hold s c).pending = s.pending ∧ (State.hold s c).trim = s.trim ∧ (State.hold s c).fuses = s.fuses := by
  unfold State.hold
  simp
@[simp] theorem State.hostRead_config (s : State) (c : Instr) (f : State → State) (h2 : ∀ (x0 : State), (f x0).pending = x0.pending ∧ (f x0).trim = x0.trim ∧ (f x0).fuses = x0.fuses) :
    (State.hostRead s c f).pending = s.pending ∧ (State.hostRead s c f).trim = s.trim ∧ (State.hostRead s c f).fuses = s.fuses := by
  unfold State.hostRead
  (repeat' split) <;> simp [*]
theorem State.hostRead_config_of (s : State) (c : Instr) (f : State → State) (u : State) (h2 : ∀ (x0 : State), (f x0).pending = x0.pending ∧ (f x0).trim = x0.trim ∧ (f x0).fuses = x0.fuses) (hu : (s).pending = u.pending ∧ (s).trim = u.trim ∧ (s).fuses = u.fuses) :
    (State.hostRead s c f).pending = u.pending ∧ (State.hostRead s c f).trim = u.trim ∧ (State.hostRead s c f).fuses = u.fuses := by
  have := State.hostRead_config s c f h2
  simp only [this, hu, and_self]
@[simp] theorem State.hostWrite_config (s : State) (c : Instr) (f : State → State) (h2 : ∀ (x0 : State), (f x0).pending = x0.pending ∧ (f x0).trim = x0.trim ∧ (f x0).fuses = x0.fuses) :
    (State.hostWrite s c f).pending = s.pending ∧ (State.hostWrite s c f).trim = s.trim ∧ (State.hostWrite s c f).fuses = s.fuses := by
  unfold State.hostWrite
  (repeat' split) <;> simp [*]
theorem State.hostWrite_config_of (s : State) (c : Instr) (f : State → State) (u : State) (h2 : ∀ (x0 : State), (f x0).pending = x0.pending ∧ (f x0).trim = x0.trim ∧ (f x0).fuses = x0.fuses) (hu : (s).pending = u.pending ∧ (s).trim = u.trim ∧ (s).fuses = u.fuses) :
    (State.hostWrite s c f).pending = u.pending ∧ (State.hostWrite s c f).trim = u.trim ∧ (State.hostWrite s c f).fuses = u.fuses := by
  have := State.hostWrite_config s c f h2
  simp only [this, hu, and_self]
@[simp] theorem State.park_config (s : State) (c : Instr) :
    (State.park s c).pending = s.pending ∧ (State.park s c).trim = s.trim ∧ (State.park s c).fuses = s.fuses := by
  unfold State.park
  (repeat' split) <;> simp
@[simp] theorem State.delivery_config (s : State) (c : Instr) (f : State → State) (h2 : ∀ (x0 : State), (f x0).pending = x0.pending ∧ (f x0).trim = x0.trim ∧ (f x0).fuses = x0.fuses) :
    (State.delivery s c f).pending = s.pending ∧ (State.delivery s c f).trim = s.trim ∧ (State.delivery s c f).fuses = s.fuses := by
  unfold State.delivery
  (repeat' split) <;> simp [*]
theorem State.delivery_config_of (s : State) (c : Instr) (f : State → State) (u : State) (h2 : ∀ (x0 : State), (f x0).pending = x0.pending ∧ (f x0).trim = x0.trim ∧ (f x0).fuses = x0.fuses) (hu : (s).pending = u.pending ∧ (s).trim = u.trim ∧ (s).fuses = u.fuses) :
    (State.delivery s c f).pending = u.pending ∧ (State.delivery s c f).trim = u.trim ∧ (State.delivery s c f).fuses = u.fuses := by
  have := State.delivery_config s c f h2
  simp only [this, hu, and_self]
@[simp] theorem State.busErr_config (s : State) :
    (State.busErr s).pending = s.pending ∧ (State.busErr s).trim = s.trim ∧ (State.busErr s).fuses = s.fuses := by
  unfold State.busErr
  simp
@[simp] theorem State.answerRead_config (s : State) (fn : Fn) (v : Word) :
    (State.answerRead s fn v).pending = s.pending ∧ (State.answerRead s fn v).trim = s.trim ∧ (State.answerRead s fn v).fuses = s.fuses := by
  unfold State.answerRead
  simp
@[simp] theorem State.abortRead_config (s : State) (fn : Fn) :
    (State.abortRead s fn).pending = s.pending ∧ (State.abortRead s fn).trim = s.trim ∧ (State.abortRead s fn).fuses = s.fuses := by
  unfold State.abortRead
  simp
@[simp] theorem State.dropLatch_config (s : State) (fn : Fn) (r : Nat) :
    (State.dropLatch s fn r).pending = s.pending ∧ (State.dropLatch s fn r).trim = s.trim ∧ (State.dropLatch s fn r).fuses = s.fuses := by
  unfold State.dropLatch
  simp
@[simp] theorem State.setLatch_config (s : State) (fn : Fn) (r : Nat) (ws : List Word) :
    (State.setLatch s fn r ws).pending = s.pending ∧ (State.setLatch s fn r ws).trim = s.trim ∧ (State.setLatch s fn r ws).fuses = s.fuses := by
  unfold State.setLatch
  simp
@[simp] theorem State.freshPage_config (s : State) (q : Nat) :
    (State.freshPage s q).pending = s.pending ∧ (State.freshPage s q).trim = s.trim ∧ (State.freshPage s q).fuses = s.fuses := by
  unfold State.freshPage
  simp
@[simp] theorem State.readPart_config (s : State) (fn : Fn) (v : Word) (part : Part) :
    (State.readPart s fn v part).pending = s.pending ∧ (State.readPart s fn v part).trim = s.trim ∧ (State.readPart s fn v part).fuses = s.fuses := by
  unfold State.readPart
  simp
@[simp] theorem State.readCounter_config (s : State) (fn : Fn) (r : CountReg) (part : Part) :
    (State.readCounter s fn r part).pending = s.pending ∧ (State.readCounter s fn r part).trim = s.trim ∧ (State.readCounter s fn r part).fuses = s.fuses := by
  unfold State.readCounter
  (repeat' split) <;> simp
@[simp] theorem State.pageRead_config (s : State) (fn : Fn) (q : Nat) (f : State → State) (h3 : ∀ (x0 : State), (f x0).pending = x0.pending ∧ (f x0).trim = x0.trim ∧ (f x0).fuses = x0.fuses) :
    (State.pageRead s fn q f).pending = s.pending ∧ (State.pageRead s fn q f).trim = s.trim ∧ (State.pageRead s fn q f).fuses = s.fuses := by
  unfold State.pageRead
  (repeat' split) <;> simp [*]
theorem State.pageRead_config_of (s : State) (fn : Fn) (q : Nat) (f : State → State) (u : State) (h3 : ∀ (x0 : State), (f x0).pending = x0.pending ∧ (f x0).trim = x0.trim ∧ (f x0).fuses = x0.fuses) (hu : (s).pending = u.pending ∧ (s).trim = u.trim ∧ (s).fuses = u.fuses) :
    (State.pageRead s fn q f).pending = u.pending ∧ (State.pageRead s fn q f).trim = u.trim ∧ (State.pageRead s fn q f).fuses = u.fuses := by
  have := State.pageRead_config s fn q f h3
  simp only [this, hu, and_self]
@[simp] theorem State.pageWrite_config (s : State) (fn : Fn) (q : Nat) (wide : Bool) (f : State → State) (h4 : ∀ (x0 : State), (f x0).pending = x0.pending ∧ (f x0).trim = x0.trim ∧ (f x0).fuses = x0.fuses) :
    (State.pageWrite s fn q wide f).pending = s.pending ∧ (State.pageWrite s fn q wide f).trim = s.trim ∧ (State.pageWrite s fn q wide f).fuses = s.fuses := by
  unfold State.pageWrite
  (repeat' split) <;> simp [*]
theorem State.pageWrite_config_of (s : State) (fn : Fn) (q : Nat) (wide : Bool) (f : State → State) (u : State) (h4 : ∀ (x0 : State), (f x0).pending = x0.pending ∧ (f x0).trim = x0.trim ∧ (f x0).fuses = x0.fuses) (hu : (s).pending = u.pending ∧ (s).trim = u.trim ∧ (s).fuses = u.fuses) :
    (State.pageWrite s fn q wide f).pending = u.pending ∧ (State.pageWrite s fn q wide f).trim = u.trim ∧ (State.pageWrite s fn q wide f).fuses = u.fuses := by
  have := State.pageWrite_config s fn q wide f h4
  simp only [this, hu, and_self]
@[simp] theorem State.doorbell_config (s : State) (q : Nat) (v : Word) :
    (State.doorbell s q v).pending = s.pending ∧ (State.doorbell s q v).trim = s.trim ∧ (State.doorbell s q v).fuses = s.fuses := by
  unfold State.doorbell
  (repeat' split) <;> simp
@[simp] theorem State.recackWrite_config (s : State) (q : Nat) (v : Word) :
    (State.recackWrite s q v).pending = s.pending ∧ (State.recackWrite s q v).trim = s.trim ∧ (State.recackWrite s q v).fuses = s.fuses := by
  unfold State.recackWrite
  (repeat' split) <;> simp
@[simp] theorem State.doDoorbell_config (s : State) (fn : Fn) (q : Nat) (wide : Bool) (v : Word) :
    (State.doDoorbell s fn q wide v).pending = s.pending ∧ (State.doDoorbell s fn q wide v).trim = s.trim ∧ (State.doDoorbell s fn q wide v).fuses = s.fuses := by
  unfold State.doDoorbell
  simp
@[simp] theorem State.doRecack_config (s : State) (fn : Fn) (q : Nat) (wide : Bool) (v : Word) :
    (State.doRecack s fn q wide v).pending = s.pending ∧ (State.doRecack s fn q wide v).trim = s.trim ∧ (State.doRecack s fn q wide v).fuses = s.fuses := by
  unfold State.doRecack
  simp
theorem execDoorbellWrite_config (fn : Fn) (q : Nat) (wide : Bool) (v : Word) (s : State) (t0 : State) (h0 : execDoorbellWrite fn q wide v s = .next t0) :
    (t0).pending = s.pending ∧ (t0).trim = s.trim ∧ (t0).fuses = s.fuses := by
  obtain ⟨_, rfl⟩ := ok_next h0
  clear h0
  (repeat' split) <;> simp
theorem execRecackWrite_config (fn : Fn) (q : Nat) (wide : Bool) (v : Word) (s : State) (t0 : State) (h0 : execRecackWrite fn q wide v s = .next t0) :
    (t0).pending = s.pending ∧ (t0).trim = s.trim ∧ (t0).fuses = s.fuses := by
  obtain ⟨_, rfl⟩ := ok_next h0
  clear h0
  simp
theorem execRetiredRead_config (fn : Fn) (q : Nat) (wide : Bool) (s : State) (t0 : State) (h0 : execRetiredRead fn q wide s = .next t0) :
    (t0).pending = s.pending ∧ (t0).trim = s.trim ∧ (t0).fuses = s.fuses := by
  obtain ⟨_, rfl⟩ := ok_next h0
  clear h0
  simp
@[simp] theorem State.queueErrorOf_config (s : State) (q : Nat) (err : BitVec 8) (tag : BitVec 32) (status : BitVec 8) (detail : BitVec 32) :
    (State.queueErrorOf s q err tag status detail).pending = s.pending ∧ (State.queueErrorOf s q err tag status detail).trim = s.trim ∧ (State.queueErrorOf s q err tag status detail).fuses = s.fuses := by
  unfold State.queueErrorOf
  simp
@[simp] theorem State.queueError_config (s : State) (q : Nat) (err : BitVec 8) :
    (State.queueError s q err).pending = s.pending ∧ (State.queueError s q err).trim = s.trim ∧ (State.queueError s q err).fuses = s.fuses := by
  unfold State.queueError
  simp
@[simp] theorem State.tailRead_config (s : State) (q : Nat) :
    (State.tailRead s q).pending = s.pending ∧ (State.tailRead s q).trim = s.trim ∧ (State.tailRead s q).fuses = s.fuses := by
  dsimp only [State.tailRead]
  (repeat' split) <;> simp
theorem execTailRead_config (q : Nat) (s : State) (t0 : State) (h0 : execTailRead q s = .next t0) :
    (t0).pending = s.pending ∧ (t0).trim = s.trim ∧ (t0).fuses = s.fuses := by
  obtain ⟨_, rfl⟩ := ok_next h0
  clear h0
  simp
@[simp] theorem State.traceAccept_config (s : State) (q : Nat) (ls : List Line) (n : Nat) :
    (State.traceAccept s q ls n).pending = s.pending ∧ (State.traceAccept s q ls n).trim = s.trim ∧ (State.traceAccept s q ls n).fuses = s.fuses := by
  unfold State.traceAccept
  simp
@[simp] theorem State.consume_config (s : State) (q n : Nat) :
    (State.consume s q n).pending = s.pending ∧ (State.consume s q n).trim = s.trim ∧ (State.consume s q n).fuses = s.fuses := by
  unfold State.consume
  simp
@[simp] theorem State.retireAtAcceptance_config (s : State) (q : Nat) (ls : List Line) (fin : Final) :
    (State.retireAtAcceptance s q ls fin).pending = s.pending ∧ (State.retireAtAcceptance s q ls fin).trim = s.trim ∧ (State.retireAtAcceptance s q ls fin).fuses = s.fuses := by
  unfold State.retireAtAcceptance
  simp
@[simp] theorem State.accept_config (s : State) (q n : Nat) (ls : List Line) :
    (State.accept s q n ls).pending = s.pending ∧ (State.accept s q n ls).trim = s.trim ∧ (State.accept s q n ls).fuses = s.fuses := by
  unfold State.accept
  simp
@[simp] theorem State.acceptConfig_config (s : State) (q : Nat) (ls : List Line) :
    (State.acceptConfig s q ls).pending = s.pending ∧ (State.acceptConfig s q ls).trim = s.trim ∧ (State.acceptConfig s q ls).fuses = s.fuses := by
  unfold State.acceptConfig
  (repeat' split) <;> simp
@[simp] theorem State.drain_config (s : State) (q k : Nat) :
    (s.drain q k).pending = s.pending ∧ (s.drain q k).trim = s.trim ∧ (s.drain q k).fuses = s.fuses := by
  induction k generalizing s with
  | zero => exact ⟨rfl, rfl, rfl⟩
  | succ k ih =>
    unfold State.drain
    dsimp only
    (repeat' split) <;> simp [ih]
@[simp] theorem State.issueFetch_config (s : State) (q : Nat) :
    (State.issueFetch s q).pending = s.pending ∧ (State.issueFetch s q).trim = s.trim ∧ (State.issueFetch s q).fuses = s.fuses := by
  dsimp only [State.issueFetch]
  (repeat' split) <;> simp
theorem execFetchGrant_config (h : Nat) (s : State) (t0 : State) (h0 : execFetchGrant h s = .next t0) :
    (t0).pending = s.pending ∧ (t0).trim = s.trim ∧ (t0).fuses = s.fuses := by
  obtain ⟨_, rfl⟩ := ok_next h0
  clear h0
  try dsimp only
  repeat' first | split | (with_reducible apply State.when_config_of <;> intros) | (with_reducible apply State.sbAnswer_config_of <;> intros) | (with_reducible apply State.deliver_config_of <;> intros) | (with_reducible apply State.withLines_config_of <;> intros) | (with_reducible apply State.withReads_config_of <;> intros) | (with_reducible apply State.whenHeld_config_of <;> intros) | (with_reducible apply State.lookup_config_of <;> intros) | (with_reducible apply State.hostRead_config_of <;> intros) | (with_reducible apply State.hostWrite_config_of <;> intros) | (with_reducible apply State.delivery_config_of <;> intros) | (with_reducible apply State.pageRead_config_of <;> intros) | (with_reducible apply State.pageWrite_config_of <;> intros) | (with_reducible apply State.stewardLines_config_of <;> intros) | (with_reducible apply State.choiceLines_config_of <;> intros) | (with_reducible apply State.preloadRead_config_of <;> intros) | (with_reducible apply State.opStep_config_of <;> intros) | (with_reducible apply State.receive_config_of <;> intros) | (with_reducible apply State.onObject_config_of <;> intros) | (with_reducible apply State.endOwner_config_of <;> intros) | (with_reducible apply State.chipWide_config_of <;> intros) | (with_reducible apply State.kernelStep_config_of <;> intros) | (with_reducible apply State.coreInstr_config_of <;> intros) | (with_reducible apply State.endArrival_config_of <;> intros) | (with_reducible apply State.notice_config_of <;> intros) | (with_reducible apply State.fenceNotice_config_of <;> intros) | (with_reducible apply State.handleStep_config_of <;> intros) | (with_reducible apply State.sysStep_config_of <;> intros) | (with_reducible apply State.forAll_config_of <;> intros) | (with_reducible apply foldl_config_of <;> intros)
  all_goals simp
theorem execRingFetchComplete_config (q : Nat) (a : RingReply) (s : State) (t0 : State) (h0 : execRingFetchComplete q a s = .next t0) :
    (t0).pending = s.pending ∧ (t0).trim = s.trim ∧ (t0).fuses = s.fuses := by
  obtain ⟨_, rfl⟩ := ok_next h0
  clear h0
  try dsimp only
  repeat' first | split | (with_reducible apply State.when_config_of <;> intros) | (with_reducible apply State.sbAnswer_config_of <;> intros) | (with_reducible apply State.deliver_config_of <;> intros) | (with_reducible apply State.withLines_config_of <;> intros) | (with_reducible apply State.withReads_config_of <;> intros) | (with_reducible apply State.whenHeld_config_of <;> intros) | (with_reducible apply State.lookup_config_of <;> intros) | (with_reducible apply State.hostRead_config_of <;> intros) | (with_reducible apply State.hostWrite_config_of <;> intros) | (with_reducible apply State.delivery_config_of <;> intros) | (with_reducible apply State.pageRead_config_of <;> intros) | (with_reducible apply State.pageWrite_config_of <;> intros) | (with_reducible apply State.stewardLines_config_of <;> intros) | (with_reducible apply State.choiceLines_config_of <;> intros) | (with_reducible apply State.preloadRead_config_of <;> intros) | (with_reducible apply State.opStep_config_of <;> intros) | (with_reducible apply State.receive_config_of <;> intros) | (with_reducible apply State.onObject_config_of <;> intros) | (with_reducible apply State.endOwner_config_of <;> intros) | (with_reducible apply State.chipWide_config_of <;> intros) | (with_reducible apply State.kernelStep_config_of <;> intros) | (with_reducible apply State.coreInstr_config_of <;> intros) | (with_reducible apply State.endArrival_config_of <;> intros) | (with_reducible apply State.notice_config_of <;> intros) | (with_reducible apply State.fenceNotice_config_of <;> intros) | (with_reducible apply State.handleStep_config_of <;> intros) | (with_reducible apply State.sysStep_config_of <;> intros) | (with_reducible apply State.forAll_config_of <;> intros) | (with_reducible apply foldl_config_of <;> intros)
  all_goals simp
theorem execConfig_config (q : Nat) (s : State) (t0 : State) (h0 : execConfig q s = .next t0) :
    (t0).pending = s.pending ∧ (t0).trim = s.trim ∧ (t0).fuses = s.fuses := by
  obtain ⟨_, rfl⟩ := ok_next h0
  clear h0
  try dsimp only
  repeat' first | split | (with_reducible apply State.when_config_of <;> intros) | (with_reducible apply State.sbAnswer_config_of <;> intros) | (with_reducible apply State.deliver_config_of <;> intros) | (with_reducible apply State.withLines_config_of <;> intros) | (with_reducible apply State.withReads_config_of <;> intros) | (with_reducible apply State.whenHeld_config_of <;> intros) | (with_reducible apply State.lookup_config_of <;> intros) | (with_reducible apply State.hostRead_config_of <;> intros) | (with_reducible apply State.hostWrite_config_of <;> intros) | (with_reducible apply State.delivery_config_of <;> intros) | (with_reducible apply State.pageRead_config_of <;> intros) | (with_reducible apply State.pageWrite_config_of <;> intros) | (with_reducible apply State.stewardLines_config_of <;> intros) | (with_reducible apply State.choiceLines_config_of <;> intros) | (with_reducible apply State.preloadRead_config_of <;> intros) | (with_reducible apply State.opStep_config_of <;> intros) | (with_reducible apply State.receive_config_of <;> intros) | (with_reducible apply State.onObject_config_of <;> intros) | (with_reducible apply State.endOwner_config_of <;> intros) | (with_reducible apply State.chipWide_config_of <;> intros) | (with_reducible apply State.kernelStep_config_of <;> intros) | (with_reducible apply State.coreInstr_config_of <;> intros) | (with_reducible apply State.endArrival_config_of <;> intros) | (with_reducible apply State.notice_config_of <;> intros) | (with_reducible apply State.fenceNotice_config_of <;> intros) | (with_reducible apply State.handleStep_config_of <;> intros) | (with_reducible apply State.sysStep_config_of <;> intros) | (with_reducible apply State.forAll_config_of <;> intros) | (with_reducible apply foldl_config_of <;> intros)
  all_goals simp
@[simp] theorem State.tenantBlock_config (s : State) (n : Nat) (d : Node) (source obj : Nat) :
    (State.tenantBlock s n d source obj).pending = s.pending ∧ (State.tenantBlock s n d source obj).trim = s.trim ∧ (State.tenantBlock s n d source obj).fuses = s.fuses := by
  unfold State.tenantBlock
  simp
@[simp] theorem State.emitToken_config (s : State) (d : Node) (own : Nat) :
    (State.emitToken s d own).pending = s.pending ∧ (State.emitToken s d own).trim = s.trim ∧ (State.emitToken s d own).fuses = s.fuses := by
  dsimp only [State.emitToken]
  (repeat' split) <;> simp
@[simp] theorem State.decideBranch_config (s : State) (q seq : Nat) (r : Decision) :
    (State.decideBranch s q seq r).pending = s.pending ∧ (State.decideBranch s q seq r).trim = s.trim ∧ (State.decideBranch s q seq r).fuses = s.fuses := by
  unfold State.decideBranch
  simp
@[simp] theorem State.skip_config (s : State) (n : Nat) (d : Node) :
    (State.skip s n d).pending = s.pending ∧ (State.skip s n d).trim = s.trim ∧ (State.skip s n d).fuses = s.fuses := by
  unfold State.skip
  (repeat' split) <;> simp
@[simp] theorem State.branchEnds_config (s : State) (d : Node) (r : Decision) :
    (State.branchEnds s d r).pending = s.pending ∧ (State.branchEnds s d r).trim = s.trim ∧ (State.branchEnds s d r).fuses = s.fuses := by
  unfold State.branchEnds
  (repeat' split) <;> simp
@[simp] theorem State.afterRelease_config (s : State) (n : Nat) (d : Node) :
    (State.afterRelease s n d).pending = s.pending ∧ (State.afterRelease s n d).trim = s.trim ∧ (State.afterRelease s n d).fuses = s.fuses := by
  dsimp only [State.afterRelease]
  (repeat' split) <;> simp
@[simp] theorem State.release1_config (s : State) (n : Nat) (d : Node) :
    (State.release1 s n d).pending = s.pending ∧ (State.release1 s n d).trim = s.trim ∧ (State.release1 s n d).fuses = s.fuses := by
  dsimp only [State.release1]
  (repeat' split) <;> simp
@[simp] theorem State.releaseSheaf_config (s : State) (n : Nat) (d : Node) :
    (State.releaseSheaf s n d).pending = s.pending ∧ (State.releaseSheaf s n d).trim = s.trim ∧ (State.releaseSheaf s n d).fuses = s.fuses := by
  dsimp only [State.releaseSheaf]
  (repeat' split) <;> simp
theorem execSheafRelease_config (n : Nat) (s : State) (t0 : State) (h0 : execSheafRelease n s = .next t0) :
    (t0).pending = s.pending ∧ (t0).trim = s.trim ∧ (t0).fuses = s.fuses := by
  obtain ⟨_, rfl⟩ := ok_next h0
  clear h0
  try dsimp only
  repeat' first | split | (with_reducible apply State.when_config_of <;> intros) | (with_reducible apply State.sbAnswer_config_of <;> intros) | (with_reducible apply State.deliver_config_of <;> intros) | (with_reducible apply State.withLines_config_of <;> intros) | (with_reducible apply State.withReads_config_of <;> intros) | (with_reducible apply State.whenHeld_config_of <;> intros) | (with_reducible apply State.lookup_config_of <;> intros) | (with_reducible apply State.hostRead_config_of <;> intros) | (with_reducible apply State.hostWrite_config_of <;> intros) | (with_reducible apply State.delivery_config_of <;> intros) | (with_reducible apply State.pageRead_config_of <;> intros) | (with_reducible apply State.pageWrite_config_of <;> intros) | (with_reducible apply State.stewardLines_config_of <;> intros) | (with_reducible apply State.choiceLines_config_of <;> intros) | (with_reducible apply State.preloadRead_config_of <;> intros) | (with_reducible apply State.opStep_config_of <;> intros) | (with_reducible apply State.receive_config_of <;> intros) | (with_reducible apply State.onObject_config_of <;> intros) | (with_reducible apply State.endOwner_config_of <;> intros) | (with_reducible apply State.chipWide_config_of <;> intros) | (with_reducible apply State.kernelStep_config_of <;> intros) | (with_reducible apply State.coreInstr_config_of <;> intros) | (with_reducible apply State.endArrival_config_of <;> intros) | (with_reducible apply State.notice_config_of <;> intros) | (with_reducible apply State.fenceNotice_config_of <;> intros) | (with_reducible apply State.handleStep_config_of <;> intros) | (with_reducible apply State.sysStep_config_of <;> intros) | (with_reducible apply State.forAll_config_of <;> intros) | (with_reducible apply foldl_config_of <;> intros)
  all_goals simp
@[simp] theorem State.askAdmit_config (s : State) (f : Nat) (e : Entry) (front : Bool) :
    (State.askAdmit s f e front).pending = s.pending ∧ (State.askAdmit s f e front).trim = s.trim ∧ (State.askAdmit s f e front).fuses = s.fuses := by
  unfold State.askAdmit
  simp
@[simp] theorem State.metaFail_config (s : State) (n : Nat) (d : Node) (img : Tbl Word) (reg executed : Nat) (ordinal : Option Nat) :
    (State.metaFail s n d img reg executed ordinal).pending = s.pending ∧ (State.metaFail s n d img reg executed ordinal).trim = s.trim ∧ (State.metaFail s n d img reg executed ordinal).fuses = s.fuses := by
  unfold State.metaFail
  simp
@[simp] theorem State.launch_config (s : State) (n : Nat) (d : Node) :
    (State.launch s n d).pending = s.pending ∧ (State.launch s n d).trim = s.trim ∧ (State.launch s n d).fuses = s.fuses := by
  dsimp only [State.launch]
  (repeat' split) <;> simp
@[simp] theorem State.launchOf_config (s : State) (c : Instr) (n : Nat) (d : Node) :
    (State.launchOf s c n d).pending = s.pending ∧ (State.launchOf s c n d).trim = s.trim ∧ (State.launchOf s c n d).fuses = s.fuses := by
  unfold State.launchOf
  simp
@[simp] theorem State.writeSlot_config (s : State) (i : Nat) (x : Slot) :
    (State.writeSlot s i x).pending = s.pending ∧ (State.writeSlot s i x).trim = s.trim ∧ (State.writeSlot s i x).fuses = s.fuses := by
  dsimp only [State.writeSlot]
  (repeat' split) <;> simp
@[simp] theorem State.scaleBlock_config (s : State) (n : Nat) (d : Node) :
    (State.scaleBlock s n d).pending = s.pending ∧ (State.scaleBlock s n d).trim = s.trim ∧ (State.scaleBlock s n d).fuses = s.fuses := by
  unfold State.scaleBlock
  simp
@[simp] theorem State.writeExp_config (s : State) (d : Node) (x : Slot) (e : Int) :
    ((State.writeExp s d x e).1).pending = s.pending ∧ ((State.writeExp s d x e).1).trim = s.trim ∧ ((State.writeExp s d x e).1).fuses = s.fuses := by
  unfold State.writeExp
  simp
@[simp] theorem State.askPass_config (s : State) (n : Nat) (d : Node) :
    (State.askPass s n d).pending = s.pending ∧ (State.askPass s n d).trim = s.trim ∧ (State.askPass s n d).fuses = s.fuses := by
  dsimp only [State.askPass]
  (repeat' split) <;> simp
@[simp] theorem State.steward_config (s : State) (n : Nat) (d : Node) :
    (State.steward s n d).pending = s.pending ∧ (State.steward s n d).trim = s.trim ∧ (State.steward s n d).fuses = s.fuses := by
  dsimp only [State.steward]
  repeat' first | split | (with_reducible apply State.when_config_of <;> intros) | (with_reducible apply State.sbAnswer_config_of <;> intros) | (with_reducible apply State.deliver_config_of <;> intros) | (with_reducible apply State.withLines_config_of <;> intros) | (with_reducible apply State.withReads_config_of <;> intros) | (with_reducible apply State.whenHeld_config_of <;> intros) | (with_reducible apply State.lookup_config_of <;> intros) | (with_reducible apply State.hostRead_config_of <;> intros) | (with_reducible apply State.hostWrite_config_of <;> intros) | (with_reducible apply State.delivery_config_of <;> intros) | (with_reducible apply State.pageRead_config_of <;> intros) | (with_reducible apply State.pageWrite_config_of <;> intros) | (with_reducible apply State.stewardLines_config_of <;> intros) | (with_reducible apply State.choiceLines_config_of <;> intros) | (with_reducible apply State.preloadRead_config_of <;> intros) | (with_reducible apply State.opStep_config_of <;> intros) | (with_reducible apply State.receive_config_of <;> intros) | (with_reducible apply State.onObject_config_of <;> intros) | (with_reducible apply State.endOwner_config_of <;> intros) | (with_reducible apply State.chipWide_config_of <;> intros) | (with_reducible apply State.kernelStep_config_of <;> intros) | (with_reducible apply State.coreInstr_config_of <;> intros) | (with_reducible apply State.endArrival_config_of <;> intros) | (with_reducible apply State.notice_config_of <;> intros) | (with_reducible apply State.fenceNotice_config_of <;> intros) | (with_reducible apply State.handleStep_config_of <;> intros) | (with_reducible apply State.sysStep_config_of <;> intros) | (with_reducible apply State.forAll_config_of <;> intros) | (with_reducible apply foldl_config_of <;> intros)
  all_goals simp
@[simp] theorem State.stewardLines_config (s : State) (n : Nat) (d : Node) (f : State → State) (h3 : ∀ (x0 : State), (f x0).pending = x0.pending ∧ (f x0).trim = x0.trim ∧ (f x0).fuses = x0.fuses) :
    (State.stewardLines s n d f).pending = s.pending ∧ (State.stewardLines s n d f).trim = s.trim ∧ (State.stewardLines s n d f).fuses = s.fuses := by
  dsimp only [State.stewardLines]
  (repeat' split) <;> simp [*]
theorem State.stewardLines_config_of (s : State) (n : Nat) (d : Node) (f : State → State) (u : State) (h3 : ∀ (x0 : State), (f x0).pending = x0.pending ∧ (f x0).trim = x0.trim ∧ (f x0).fuses = x0.fuses) (hu : (s).pending = u.pending ∧ (s).trim = u.trim ∧ (s).fuses = u.fuses) :
    (State.stewardLines s n d f).pending = u.pending ∧ (State.stewardLines s n d f).trim = u.trim ∧ (State.stewardLines s n d f).fuses = u.fuses := by
  have := State.stewardLines_config s n d f h3
  simp only [this, hu, and_self]
theorem execStewardStep_config (n : Nat) (s : State) (t0 : State) (h0 : execStewardStep n s = .next t0) :
    (t0).pending = s.pending ∧ (t0).trim = s.trim ∧ (t0).fuses = s.fuses := by
  obtain ⟨_, rfl⟩ := ok_next h0
  clear h0
  try dsimp only
  repeat' first | split | (with_reducible apply State.when_config_of <;> intros) | (with_reducible apply State.sbAnswer_config_of <;> intros) | (with_reducible apply State.deliver_config_of <;> intros) | (with_reducible apply State.withLines_config_of <;> intros) | (with_reducible apply State.withReads_config_of <;> intros) | (with_reducible apply State.whenHeld_config_of <;> intros) | (with_reducible apply State.lookup_config_of <;> intros) | (with_reducible apply State.hostRead_config_of <;> intros) | (with_reducible apply State.hostWrite_config_of <;> intros) | (with_reducible apply State.delivery_config_of <;> intros) | (with_reducible apply State.pageRead_config_of <;> intros) | (with_reducible apply State.pageWrite_config_of <;> intros) | (with_reducible apply State.stewardLines_config_of <;> intros) | (with_reducible apply State.choiceLines_config_of <;> intros) | (with_reducible apply State.preloadRead_config_of <;> intros) | (with_reducible apply State.opStep_config_of <;> intros) | (with_reducible apply State.receive_config_of <;> intros) | (with_reducible apply State.onObject_config_of <;> intros) | (with_reducible apply State.endOwner_config_of <;> intros) | (with_reducible apply State.chipWide_config_of <;> intros) | (with_reducible apply State.kernelStep_config_of <;> intros) | (with_reducible apply State.coreInstr_config_of <;> intros) | (with_reducible apply State.endArrival_config_of <;> intros) | (with_reducible apply State.notice_config_of <;> intros) | (with_reducible apply State.fenceNotice_config_of <;> intros) | (with_reducible apply State.handleStep_config_of <;> intros) | (with_reducible apply State.sysStep_config_of <;> intros) | (with_reducible apply State.forAll_config_of <;> intros) | (with_reducible apply foldl_config_of <;> intros)
  all_goals simp
@[simp] theorem State.completeChoice_config (s : State) (n : Nat) (d : Node) :
    (State.completeChoice s n d).pending = s.pending ∧ (State.completeChoice s n d).trim = s.trim ∧ (State.completeChoice s n d).fuses = s.fuses := by
  dsimp only [State.completeChoice]
  repeat' first | split | (with_reducible apply State.when_config_of <;> intros) | (with_reducible apply State.sbAnswer_config_of <;> intros) | (with_reducible apply State.deliver_config_of <;> intros) | (with_reducible apply State.withLines_config_of <;> intros) | (with_reducible apply State.withReads_config_of <;> intros) | (with_reducible apply State.whenHeld_config_of <;> intros) | (with_reducible apply State.lookup_config_of <;> intros) | (with_reducible apply State.hostRead_config_of <;> intros) | (with_reducible apply State.hostWrite_config_of <;> intros) | (with_reducible apply State.delivery_config_of <;> intros) | (with_reducible apply State.pageRead_config_of <;> intros) | (with_reducible apply State.pageWrite_config_of <;> intros) | (with_reducible apply State.stewardLines_config_of <;> intros) | (with_reducible apply State.choiceLines_config_of <;> intros) | (with_reducible apply State.preloadRead_config_of <;> intros) | (with_reducible apply State.opStep_config_of <;> intros) | (with_reducible apply State.receive_config_of <;> intros) | (with_reducible apply State.onObject_config_of <;> intros) | (with_reducible apply State.endOwner_config_of <;> intros) | (with_reducible apply State.chipWide_config_of <;> intros) | (with_reducible apply State.kernelStep_config_of <;> intros) | (with_reducible apply State.coreInstr_config_of <;> intros) | (with_reducible apply State.endArrival_config_of <;> intros) | (with_reducible apply State.notice_config_of <;> intros) | (with_reducible apply State.fenceNotice_config_of <;> intros) | (with_reducible apply State.handleStep_config_of <;> intros) | (with_reducible apply State.sysStep_config_of <;> intros) | (with_reducible apply State.forAll_config_of <;> intros) | (with_reducible apply foldl_config_of <;> intros)
  all_goals simp
@[simp] theorem State.choiceLines_config (s : State) (n : Nat) (d : Node) (f : State → State) (h3 : ∀ (x0 : State), (f x0).pending = x0.pending ∧ (f x0).trim = x0.trim ∧ (f x0).fuses = x0.fuses) :
    (State.choiceLines s n d f).pending = s.pending ∧ (State.choiceLines s n d f).trim = s.trim ∧ (State.choiceLines s n d f).fuses = s.fuses := by
  unfold State.choiceLines
  (repeat' split) <;> simp [*]
theorem State.choiceLines_config_of (s : State) (n : Nat) (d : Node) (f : State → State) (u : State) (h3 : ∀ (x0 : State), (f x0).pending = x0.pending ∧ (f x0).trim = x0.trim ∧ (f x0).fuses = x0.fuses) (hu : (s).pending = u.pending ∧ (s).trim = u.trim ∧ (s).fuses = u.fuses) :
    (State.choiceLines s n d f).pending = u.pending ∧ (State.choiceLines s n d f).trim = u.trim ∧ (State.choiceLines s n d f).fuses = u.fuses := by
  have := State.choiceLines_config s n d f h3
  simp only [this, hu, and_self]
theorem execMeasureChoice_config (n : Nat) (s : State) (t0 : State) (h0 : execMeasureChoice n s = .next t0) :
    (t0).pending = s.pending ∧ (t0).trim = s.trim ∧ (t0).fuses = s.fuses := by
  obtain ⟨_, rfl⟩ := ok_next h0
  clear h0
  try dsimp only
  repeat' first | split | (with_reducible apply State.when_config_of <;> intros) | (with_reducible apply State.sbAnswer_config_of <;> intros) | (with_reducible apply State.deliver_config_of <;> intros) | (with_reducible apply State.withLines_config_of <;> intros) | (with_reducible apply State.withReads_config_of <;> intros) | (with_reducible apply State.whenHeld_config_of <;> intros) | (with_reducible apply State.lookup_config_of <;> intros) | (with_reducible apply State.hostRead_config_of <;> intros) | (with_reducible apply State.hostWrite_config_of <;> intros) | (with_reducible apply State.delivery_config_of <;> intros) | (with_reducible apply State.pageRead_config_of <;> intros) | (with_reducible apply State.pageWrite_config_of <;> intros) | (with_reducible apply State.stewardLines_config_of <;> intros) | (with_reducible apply State.choiceLines_config_of <;> intros) | (with_reducible apply State.preloadRead_config_of <;> intros) | (with_reducible apply State.opStep_config_of <;> intros) | (with_reducible apply State.receive_config_of <;> intros) | (with_reducible apply State.onObject_config_of <;> intros) | (with_reducible apply State.endOwner_config_of <;> intros) | (with_reducible apply State.chipWide_config_of <;> intros) | (with_reducible apply State.kernelStep_config_of <;> intros) | (with_reducible apply State.coreInstr_config_of <;> intros) | (with_reducible apply State.endArrival_config_of <;> intros) | (with_reducible apply State.notice_config_of <;> intros) | (with_reducible apply State.fenceNotice_config_of <;> intros) | (with_reducible apply State.handleStep_config_of <;> intros) | (with_reducible apply State.sysStep_config_of <;> intros) | (with_reducible apply State.forAll_config_of <;> intros) | (with_reducible apply foldl_config_of <;> intros)
  all_goals simp
@[simp] theorem State.scaleRecord_config (s : State) (r : ScaleRec) :
    (State.scaleRecord s r).pending = s.pending ∧ (State.scaleRecord s r).trim = s.trim ∧ (State.scaleRecord s r).fuses = s.fuses := by
  unfold State.scaleRecord
  (repeat' split) <;> simp
theorem execScaleRecord_config (s : State) (t0 : State) (h0 : execScaleRecord s = .next t0) :
    (t0).pending = s.pending ∧ (t0).trim = s.trim ∧ (t0).fuses = s.fuses := by
  obtain ⟨_, rfl⟩ := ok_next h0
  clear h0
  try dsimp only
  repeat' first | split | (with_reducible apply State.when_config_of <;> intros) | (with_reducible apply State.sbAnswer_config_of <;> intros) | (with_reducible apply State.deliver_config_of <;> intros) | (with_reducible apply State.withLines_config_of <;> intros) | (with_reducible apply State.withReads_config_of <;> intros) | (with_reducible apply State.whenHeld_config_of <;> intros) | (with_reducible apply State.lookup_config_of <;> intros) | (with_reducible apply State.hostRead_config_of <;> intros) | (with_reducible apply State.hostWrite_config_of <;> intros) | (with_reducible apply State.delivery_config_of <;> intros) | (with_reducible apply State.pageRead_config_of <;> intros) | (with_reducible apply State.pageWrite_config_of <;> intros) | (with_reducible apply State.stewardLines_config_of <;> intros) | (with_reducible apply State.choiceLines_config_of <;> intros) | (with_reducible apply State.preloadRead_config_of <;> intros) | (with_reducible apply State.opStep_config_of <;> intros) | (with_reducible apply State.receive_config_of <;> intros) | (with_reducible apply State.onObject_config_of <;> intros) | (with_reducible apply State.endOwner_config_of <;> intros) | (with_reducible apply State.chipWide_config_of <;> intros) | (with_reducible apply State.kernelStep_config_of <;> intros) | (with_reducible apply State.coreInstr_config_of <;> intros) | (with_reducible apply State.endArrival_config_of <;> intros) | (with_reducible apply State.notice_config_of <;> intros) | (with_reducible apply State.fenceNotice_config_of <;> intros) | (with_reducible apply State.handleStep_config_of <;> intros) | (with_reducible apply State.sysStep_config_of <;> intros) | (with_reducible apply State.forAll_config_of <;> intros) | (with_reducible apply foldl_config_of <;> intros)
  all_goals simp
@[simp] theorem State.enterFurrow_config (s : State) (f : Nat) (e : Entry) (front : Bool) :
    (State.enterFurrow s f e front).pending = s.pending ∧ (State.enterFurrow s f e front).trim = s.trim ∧ (State.enterFurrow s f e front).fuses = s.fuses := by
  unfold State.enterFurrow
  simp
@[simp] theorem State.admit1_config (s : State) (a : Admit) :
    (State.admit1 s a).pending = s.pending ∧ (State.admit1 s a).trim = s.trim ∧ (State.admit1 s a).fuses = s.fuses := by
  unfold State.admit1
  simp
theorem execFurrowAdmit_config (f : Nat) (s : State) (t0 : State) (h0 : execFurrowAdmit f s = .next t0) :
    (t0).pending = s.pending ∧ (t0).trim = s.trim ∧ (t0).fuses = s.fuses := by
  obtain ⟨_, rfl⟩ := ok_next h0
  clear h0
  try dsimp only
  repeat' first | split | (with_reducible apply State.when_config_of <;> intros) | (with_reducible apply State.sbAnswer_config_of <;> intros) | (with_reducible apply State.deliver_config_of <;> intros) | (with_reducible apply State.withLines_config_of <;> intros) | (with_reducible apply State.withReads_config_of <;> intros) | (with_reducible apply State.whenHeld_config_of <;> intros) | (with_reducible apply State.lookup_config_of <;> intros) | (with_reducible apply State.hostRead_config_of <;> intros) | (with_reducible apply State.hostWrite_config_of <;> intros) | (with_reducible apply State.delivery_config_of <;> intros) | (with_reducible apply State.pageRead_config_of <;> intros) | (with_reducible apply State.pageWrite_config_of <;> intros) | (with_reducible apply State.stewardLines_config_of <;> intros) | (with_reducible apply State.choiceLines_config_of <;> intros) | (with_reducible apply State.preloadRead_config_of <;> intros) | (with_reducible apply State.opStep_config_of <;> intros) | (with_reducible apply State.receive_config_of <;> intros) | (with_reducible apply State.onObject_config_of <;> intros) | (with_reducible apply State.endOwner_config_of <;> intros) | (with_reducible apply State.chipWide_config_of <;> intros) | (with_reducible apply State.kernelStep_config_of <;> intros) | (with_reducible apply State.coreInstr_config_of <;> intros) | (with_reducible apply State.endArrival_config_of <;> intros) | (with_reducible apply State.notice_config_of <;> intros) | (with_reducible apply State.fenceNotice_config_of <;> intros) | (with_reducible apply State.handleStep_config_of <;> intros) | (with_reducible apply State.sysStep_config_of <;> intros) | (with_reducible apply State.forAll_config_of <;> intros) | (with_reducible apply foldl_config_of <;> intros)
  all_goals simp
@[simp] theorem State.carryLine_config (s : State) (port : Nat) :
    (State.carryLine s port).pending = s.pending ∧ (State.carryLine s port).trim = s.trim ∧ (State.carryLine s port).fuses = s.fuses := by
  unfold State.carryLine
  (repeat' split) <;> simp
@[simp] theorem State.carryLines_config (s : State) (port k : Nat) :
    (s.carryLines port k).pending = s.pending ∧ (s.carryLines port k).trim = s.trim ∧ (s.carryLines port k).fuses = s.fuses := by
  induction k generalizing s with
  | zero => exact ⟨rfl, rfl, rfl⟩
  | succ k ih =>
    unfold State.carryLines
    simp [ih]
theorem State.carryTo_config (s : State) (f k : Nat) {t : State} (h : s.carryTo f k = some t) :
    (t).pending = s.pending ∧ (t).trim = s.trim ∧ (t).fuses = s.fuses := by
  induction k generalizing s with
  | zero => cases h
  | succ k ih =>
    unfold State.carryTo at h
    dsimp only at h
    split at h
    · exact Option.some.inj h ▸ ⟨rfl, rfl, rfl⟩
    · split at h
      · cases h
      · have := ih _ h; simpa using this
@[simp] theorem State.carrySome_config (s : State) (port : Nat) :
    (State.carrySome s port).pending = s.pending ∧ (State.carrySome s port).trim = s.trim ∧ (State.carrySome s port).fuses = s.fuses := by
  dsimp only [State.carrySome]
  (repeat' split) <;> simp
@[simp] theorem State.preload_config (s : State) (f : Nat) (x : Furrow) (e : Entry) (parked : Bool) :
    (State.preload s f x e parked).pending = s.pending ∧ (State.preload s f x e parked).trim = s.trim ∧ (State.preload s f x e parked).fuses = s.fuses := by
  dsimp only [State.preload]
  (repeat' split) <;> simp
@[simp] theorem State.grantWith_config (s : State) (f : Nat) (chain : Bool) :
    (State.grantWith s f chain).pending = s.pending ∧ (State.grantWith s f chain).trim = s.trim ∧ (State.grantWith s f chain).fuses = s.fuses := by
  dsimp only [State.grantWith]
  (repeat' split) <;> simp
@[simp] theorem State.grant_config (s : State) (f : Nat) :
    (State.grant s f).pending = s.pending ∧ (State.grant s f).trim = s.trim ∧ (State.grant s f).fuses = s.fuses := by
  dsimp only [State.grant]
  (repeat' split) <;> simp
theorem execArbiterGrant_config (f : Nat) (s : State) (t0 : State) (h0 : execArbiterGrant f s = .next t0) :
    (t0).pending = s.pending ∧ (t0).trim = s.trim ∧ (t0).fuses = s.fuses := by
  obtain ⟨_, rfl⟩ := ok_next h0
  clear h0
  simp
@[simp] theorem State.sheafEcc_config (s : State) (n : Nat) (d : Node) (source : Nat) (detail : BitVec 32) (furrow : BitVec 10) :
    (State.sheafEcc s n d source detail furrow).pending = s.pending ∧ (State.sheafEcc s n d source detail furrow).trim = s.trim ∧ (State.sheafEcc s n d source detail furrow).fuses = s.fuses := by
  unfold State.sheafEcc
  simp
@[simp] theorem State.eccEvent_config (s : State) (d : Node) (source : Nat) (furrow : BitVec 10) (fin : Option Final) :
    (State.eccEvent s d source furrow fin).pending = s.pending ∧ (State.eccEvent s d source furrow fin).trim = s.trim ∧ (State.eccEvent s d source furrow fin).fuses = s.fuses := by
  unfold State.eccEvent
  simp
@[simp] theorem State.loadBank_config (s : State) (f : Nat) :
    (State.loadBank s f).pending = s.pending ∧ (State.loadBank s f).trim = s.trim ∧ (State.loadBank s f).fuses = s.fuses := by
  unfold State.loadBank
  simp
@[simp] theorem State.preloadRead_config (s : State) (f : Nat) (err : Option (Bool × PreloadError)) (n : Nat) (d : Node) (g : State → State) (h5 : ∀ (x0 : State), (g x0).pending = x0.pending ∧ (g x0).trim = x0.trim ∧ (g x0).fuses = x0.fuses) :
    (State.preloadRead s f err n d g).pending = s.pending ∧ (State.preloadRead s f err n d g).trim = s.trim ∧ (State.preloadRead s f err n d g).fuses = s.fuses := by
  unfold State.preloadRead
  simp [*]
theorem State.preloadRead_config_of (s : State) (f : Nat) (err : Option (Bool × PreloadError)) (n : Nat) (d : Node) (g : State → State) (u : State) (h5 : ∀ (x0 : State), (g x0).pending = x0.pending ∧ (g x0).trim = x0.trim ∧ (g x0).fuses = x0.fuses) (hu : (s).pending = u.pending ∧ (s).trim = u.trim ∧ (s).fuses = u.fuses) :
    (State.preloadRead s f err n d g).pending = u.pending ∧ (State.preloadRead s f err n d g).trim = u.trim ∧ (State.preloadRead s f err n d g).fuses = u.fuses := by
  have := State.preloadRead_config s f err n d g h5
  simp only [this, hu, and_self]
theorem execPreloadComplete_config (f : Nat) (err : Option (Bool × PreloadError)) (s : State) (t0 : State) (h0 : execPreloadComplete f err s = .next t0) :
    (t0).pending = s.pending ∧ (t0).trim = s.trim ∧ (t0).fuses = s.fuses := by
  obtain ⟨_, rfl⟩ := ok_next h0
  clear h0
  refine State.when_config _ _ _ fun u => ?_
  repeat' first | split | (with_reducible apply State.preloadRead_config_of <;> intros)
  all_goals first
    | (rename_i h; have := State.carryTo_config _ _ _ h; simp [this]; done)
    | simp
@[simp] theorem State.streamStart_config (s : State) (f : Nat) (d : Node) :
    (State.streamStart s f d).pending = s.pending ∧ (State.streamStart s f d).trim = s.trim ∧ (State.streamStart s f d).fuses = s.fuses := by
  unfold State.streamStart
  (repeat' split) <;> simp
@[simp] theorem State.startBudget_config (s : State) (d : Node) :
    (State.startBudget s d).pending = s.pending ∧ (State.startBudget s d).trim = s.trim ∧ (State.startBudget s d).fuses = s.fuses := by
  unfold State.startBudget
  (repeat' split) <;> simp
@[simp] theorem State.traceStart_config (s : State) (f : Nat) (d : Node) (member : Option Nat) :
    (State.traceStart s f d member).pending = s.pending ∧ (State.traceStart s f d member).trim = s.trim ∧ (State.traceStart s f d member).fuses = s.fuses := by
  unfold State.traceStart
  simp
@[simp] theorem State.startTimers_config (s : State) (n : Nat) (d : Node) :
    (State.startTimers s n d).pending = s.pending ∧ (State.startTimers s n d).trim = s.trim ∧ (State.startTimers s n d).fuses = s.fuses := by
  unfold State.startTimers
  (repeat' split) <;> simp
@[simp] theorem State.countLatency_config (s : State) (d : Node) (e : Entry) :
    (State.countLatency s d e).pending = s.pending ∧ (State.countLatency s d e).trim = s.trim ∧ (State.countLatency s d e).fuses = s.fuses := by
  unfold State.countLatency
  (repeat' split) <;> simp
@[simp] theorem State.start1_config (s : State) (f : Nat) (sh : Shadow) (d : Node) :
    (State.start1 s f sh d).pending = s.pending ∧ (State.start1 s f sh d).trim = s.trim ∧ (State.start1 s f sh d).fuses = s.fuses := by
  dsimp only [State.start1]
  (repeat' split) <;> simp
@[simp] theorem State.nextHeld_config (s : State) (f : Nat) (r : EngineRun) (d : Node) :
    (State.nextHeld s f r d).pending = s.pending ∧ (State.nextHeld s f r d).trim = s.trim ∧ (State.nextHeld s f r d).fuses = s.fuses := by
  unfold State.nextHeld
  simp
theorem execEngineStart_config (f : Nat) (s : State) (t0 : State) (h0 : execEngineStart f s = .next t0) :
    (t0).pending = s.pending ∧ (t0).trim = s.trim ∧ (t0).fuses = s.fuses := by
  obtain ⟨_, rfl⟩ := ok_next h0
  clear h0
  try dsimp only
  repeat' first | split | (with_reducible apply State.when_config_of <;> intros) | (with_reducible apply State.sbAnswer_config_of <;> intros) | (with_reducible apply State.deliver_config_of <;> intros) | (with_reducible apply State.withLines_config_of <;> intros) | (with_reducible apply State.withReads_config_of <;> intros) | (with_reducible apply State.whenHeld_config_of <;> intros) | (with_reducible apply State.lookup_config_of <;> intros) | (with_reducible apply State.hostRead_config_of <;> intros) | (with_reducible apply State.hostWrite_config_of <;> intros) | (with_reducible apply State.delivery_config_of <;> intros) | (with_reducible apply State.pageRead_config_of <;> intros) | (with_reducible apply State.pageWrite_config_of <;> intros) | (with_reducible apply State.stewardLines_config_of <;> intros) | (with_reducible apply State.choiceLines_config_of <;> intros) | (with_reducible apply State.preloadRead_config_of <;> intros) | (with_reducible apply State.opStep_config_of <;> intros) | (with_reducible apply State.receive_config_of <;> intros) | (with_reducible apply State.onObject_config_of <;> intros) | (with_reducible apply State.endOwner_config_of <;> intros) | (with_reducible apply State.chipWide_config_of <;> intros) | (with_reducible apply State.kernelStep_config_of <;> intros) | (with_reducible apply State.coreInstr_config_of <;> intros) | (with_reducible apply State.endArrival_config_of <;> intros) | (with_reducible apply State.notice_config_of <;> intros) | (with_reducible apply State.fenceNotice_config_of <;> intros) | (with_reducible apply State.handleStep_config_of <;> intros) | (with_reducible apply State.sysStep_config_of <;> intros) | (with_reducible apply State.forAll_config_of <;> intros) | (with_reducible apply foldl_config_of <;> intros)
  all_goals simp
theorem execCycleBudgetExpiry_config (q : Nat) (s : State) (t0 : State) (h0 : execCycleBudgetExpiry q s = .next t0) :
    (t0).pending = s.pending ∧ (t0).trim = s.trim ∧ (t0).fuses = s.fuses := by
  obtain ⟨_, rfl⟩ := ok_next h0
  clear h0
  try dsimp only
  repeat' first | split | (with_reducible apply State.when_config_of <;> intros) | (with_reducible apply State.sbAnswer_config_of <;> intros) | (with_reducible apply State.deliver_config_of <;> intros) | (with_reducible apply State.withLines_config_of <;> intros) | (with_reducible apply State.withReads_config_of <;> intros) | (with_reducible apply State.whenHeld_config_of <;> intros) | (with_reducible apply State.lookup_config_of <;> intros) | (with_reducible apply State.hostRead_config_of <;> intros) | (with_reducible apply State.hostWrite_config_of <;> intros) | (with_reducible apply State.delivery_config_of <;> intros) | (with_reducible apply State.pageRead_config_of <;> intros) | (with_reducible apply State.pageWrite_config_of <;> intros) | (with_reducible apply State.stewardLines_config_of <;> intros) | (with_reducible apply State.choiceLines_config_of <;> intros) | (with_reducible apply State.preloadRead_config_of <;> intros) | (with_reducible apply State.opStep_config_of <;> intros) | (with_reducible apply State.receive_config_of <;> intros) | (with_reducible apply State.onObject_config_of <;> intros) | (with_reducible apply State.endOwner_config_of <;> intros) | (with_reducible apply State.chipWide_config_of <;> intros) | (with_reducible apply State.kernelStep_config_of <;> intros) | (with_reducible apply State.coreInstr_config_of <;> intros) | (with_reducible apply State.endArrival_config_of <;> intros) | (with_reducible apply State.notice_config_of <;> intros) | (with_reducible apply State.fenceNotice_config_of <;> intros) | (with_reducible apply State.handleStep_config_of <;> intros) | (with_reducible apply State.sysStep_config_of <;> intros) | (with_reducible apply State.forAll_config_of <;> intros) | (with_reducible apply foldl_config_of <;> intros)
  all_goals simp
@[simp] theorem State.unpark_config (s : State) (f : Nat) :
    (State.unpark s f).pending = s.pending ∧ (State.unpark s f).trim = s.trim ∧ (State.unpark s f).fuses = s.fuses := by
  dsimp only [State.unpark]
  (repeat' split) <;> simp
@[simp] theorem State.landToken_config (s : State) (f c : Nat) (gen : BitVec 12) (v : BitVec 16) :
    (State.landToken s f c gen v).pending = s.pending ∧ (State.landToken s f c gen v).trim = s.trim ∧ (State.landToken s f c gen v).fuses = s.fuses := by
  unfold State.landToken
  (repeat' split) <;> simp
theorem execTokenDelivery_config (f c : Nat) (g : Gens) (v : BitVec 16) (remote : Bool) (s : State) (t0 : State) (h0 : execTokenDelivery f c g v remote s = .next t0) :
    (t0).pending = s.pending ∧ (t0).trim = s.trim ∧ (t0).fuses = s.fuses := by
  obtain ⟨_, rfl⟩ := ok_next h0
  clear h0
  try dsimp only
  repeat' first | split | (with_reducible apply State.when_config_of <;> intros) | (with_reducible apply State.sbAnswer_config_of <;> intros) | (with_reducible apply State.deliver_config_of <;> intros) | (with_reducible apply State.withLines_config_of <;> intros) | (with_reducible apply State.withReads_config_of <;> intros) | (with_reducible apply State.whenHeld_config_of <;> intros) | (with_reducible apply State.lookup_config_of <;> intros) | (with_reducible apply State.hostRead_config_of <;> intros) | (with_reducible apply State.hostWrite_config_of <;> intros) | (with_reducible apply State.delivery_config_of <;> intros) | (with_reducible apply State.pageRead_config_of <;> intros) | (with_reducible apply State.pageWrite_config_of <;> intros) | (with_reducible apply State.stewardLines_config_of <;> intros) | (with_reducible apply State.choiceLines_config_of <;> intros) | (with_reducible apply State.preloadRead_config_of <;> intros) | (with_reducible apply State.opStep_config_of <;> intros) | (with_reducible apply State.receive_config_of <;> intros) | (with_reducible apply State.onObject_config_of <;> intros) | (with_reducible apply State.endOwner_config_of <;> intros) | (with_reducible apply State.chipWide_config_of <;> intros) | (with_reducible apply State.kernelStep_config_of <;> intros) | (with_reducible apply State.coreInstr_config_of <;> intros) | (with_reducible apply State.endArrival_config_of <;> intros) | (with_reducible apply State.notice_config_of <;> intros) | (with_reducible apply State.fenceNotice_config_of <;> intros) | (with_reducible apply State.handleStep_config_of <;> intros) | (with_reducible apply State.sysStep_config_of <;> intros) | (with_reducible apply State.forAll_config_of <;> intros) | (with_reducible apply foldl_config_of <;> intros)
  all_goals simp
theorem execLendMark_config (core : Nat) (s : State) (t0 : State) (h0 : execLendMark core s = .next t0) :
    (t0).pending = s.pending ∧ (t0).trim = s.trim ∧ (t0).fuses = s.fuses := by
  obtain ⟨_, rfl⟩ := ok_next h0
  clear h0
  try dsimp only
  repeat' first | split | (with_reducible apply State.when_config_of <;> intros) | (with_reducible apply State.sbAnswer_config_of <;> intros) | (with_reducible apply State.deliver_config_of <;> intros) | (with_reducible apply State.withLines_config_of <;> intros) | (with_reducible apply State.withReads_config_of <;> intros) | (with_reducible apply State.whenHeld_config_of <;> intros) | (with_reducible apply State.lookup_config_of <;> intros) | (with_reducible apply State.hostRead_config_of <;> intros) | (with_reducible apply State.hostWrite_config_of <;> intros) | (with_reducible apply State.delivery_config_of <;> intros) | (with_reducible apply State.pageRead_config_of <;> intros) | (with_reducible apply State.pageWrite_config_of <;> intros) | (with_reducible apply State.stewardLines_config_of <;> intros) | (with_reducible apply State.choiceLines_config_of <;> intros) | (with_reducible apply State.preloadRead_config_of <;> intros) | (with_reducible apply State.opStep_config_of <;> intros) | (with_reducible apply State.receive_config_of <;> intros) | (with_reducible apply State.onObject_config_of <;> intros) | (with_reducible apply State.endOwner_config_of <;> intros) | (with_reducible apply State.chipWide_config_of <;> intros) | (with_reducible apply State.kernelStep_config_of <;> intros) | (with_reducible apply State.coreInstr_config_of <;> intros) | (with_reducible apply State.endArrival_config_of <;> intros) | (with_reducible apply State.notice_config_of <;> intros) | (with_reducible apply State.fenceNotice_config_of <;> intros) | (with_reducible apply State.handleStep_config_of <;> intros) | (with_reducible apply State.sysStep_config_of <;> intros) | (with_reducible apply State.forAll_config_of <;> intros) | (with_reducible apply foldl_config_of <;> intros)
  all_goals simp
@[simp] theorem State.portViolation_config (s : State) (f : Nat) :
    (State.portViolation s f).pending = s.pending ∧ (State.portViolation s f).trim = s.trim ∧ (State.portViolation s f).fuses = s.fuses := by
  unfold State.portViolation
  simp
@[simp] theorem State.reportFor_config (s : State) (f : Nat) (st : Stamp) (k : EngineRun → State)
    (hk : ∀ r, (k r).pending = s.pending ∧ (k r).trim = s.trim ∧ (k r).fuses = s.fuses) : (s.reportFor f st k).pending = s.pending ∧ (s.reportFor f st k).trim = s.trim ∧ (s.reportFor f st k).fuses = s.fuses := by
  unfold State.reportFor
  (repeat' split) <;> simp [hk]
theorem State.reportFor_config_of (s u : State) (f : Nat) (st : Stamp) (k : EngineRun → State)
    (hu : (s).pending = u.pending ∧ (s).trim = u.trim ∧ (s).fuses = u.fuses) (hk : ∀ r, (k r).pending = u.pending ∧ (k r).trim = u.trim ∧ (k r).fuses = u.fuses) : (s.reportFor f st k).pending = u.pending ∧ (s.reportFor f st k).trim = u.trim ∧ (s.reportFor f st k).fuses = u.fuses := by
  unfold State.reportFor
  (repeat' split) <;> simp [hk, hu]
@[simp] theorem State.account_config (s : State) (f : Nat) (r : EngineRun) (rep : EngineReport) (lost : Bool) :
    (State.account s f r rep lost).pending = s.pending ∧ (State.account s f r rep lost).trim = s.trim ∧ (State.account s f r rep lost).fuses = s.fuses := by
  unfold State.account
  (repeat' split) <;> simp
@[simp] theorem State.clearRun_config (s : State) (f : Nat) :
    (State.clearRun s f).pending = s.pending ∧ (State.clearRun s f).trim = s.trim ∧ (State.clearRun s f).fuses = s.fuses := by
  unfold State.clearRun
  simp
@[simp] theorem State.chainCommit_config (s : State) (f : Nat) (d : Node) :
    (State.chainCommit s f d).pending = s.pending ∧ (State.chainCommit s f d).trim = s.trim ∧ (State.chainCommit s f d).fuses = s.fuses := by
  dsimp only [State.chainCommit]
  (repeat' split) <;> simp
@[simp] theorem State.chainBreak_config (s : State) (d : Node) :
    (State.chainBreak s d).pending = s.pending ∧ (State.chainBreak s d).trim = s.trim ∧ (State.chainBreak s d).fuses = s.fuses := by
  unfold State.chainBreak
  (repeat' split) <;> simp
@[simp] theorem State.sendReport_config (s : State) (n : Nat) (d : Node) (fin : Final) :
    (State.sendReport s n d fin).pending = s.pending ∧ (State.sendReport s n d fin).trim = s.trim ∧ (State.sendReport s n d fin).fuses = s.fuses := by
  unfold State.sendReport
  simp
@[simp] theorem State.templateEnd_config (s : State) (n : Nat) (f : Nat) :
    (State.templateEnd s n f).pending = s.pending ∧ (State.templateEnd s n f).trim = s.trim ∧ (State.templateEnd s n f).fuses = s.fuses := by
  unfold State.templateEnd
  (repeat' split) <;> simp
@[simp] theorem State.requeue_config (s : State) (f : Nat) (e : Entry) :
    (State.requeue s f e).pending = s.pending ∧ (State.requeue s f e).trim = s.trim ∧ (State.requeue s f e).fuses = s.fuses := by
  unfold State.requeue
  (repeat' split) <;> simp
@[simp] theorem State.commitPass_config (s : State) (n : Nat) (d : Node) (r : EngineRun) (rep : EngineReport) :
    (State.commitPass s n d r rep).pending = s.pending ∧ (State.commitPass s n d r rep).trim = s.trim ∧ (State.commitPass s n d r rep).fuses = s.fuses := by
  unfold State.commitPass
  (repeat' split) <;> simp
@[simp] theorem State.commitMember_config (s : State) (f n : Nat) (d : Node) (k : Nat) (rep : EngineReport) :
    (State.commitMember s f n d k rep).pending = s.pending ∧ (State.commitMember s f n d k rep).trim = s.trim ∧ (State.commitMember s f n d k rep).fuses = s.fuses := by
  unfold State.commitMember
  simp
@[simp] theorem State.nextIteration_config (s : State) (f n : Nat) (d : Node) (r : EngineRun) :
    (State.nextIteration s f n d r).pending = s.pending ∧ (State.nextIteration s f n d r).trim = s.trim ∧ (State.nextIteration s f n d r).fuses = s.fuses := by
  dsimp only [State.nextIteration]
  (repeat' split) <;> simp
@[simp] theorem State.commitIteration_config (s : State) (f n : Nat) (d : Node) (r : EngineRun) (rep : EngineReport) :
    (State.commitIteration s f n d r rep).pending = s.pending ∧ (State.commitIteration s f n d r rep).trim = s.trim ∧ (State.commitIteration s f n d r rep).fuses = s.fuses := by
  dsimp only [State.commitIteration]
  (repeat' split) <;> simp
@[simp] theorem State.commitOrphan_config (s : State) (f : Nat) (r : EngineRun) :
    (State.commitOrphan s f r).pending = s.pending ∧ (State.commitOrphan s f r).trim = s.trim ∧ (State.commitOrphan s f r).fuses = s.fuses := by
  dsimp only [State.commitOrphan]
  (repeat' split) <;> simp
@[simp] theorem State.commitRun_config (s : State) (f : Nat) (r : EngineRun) (rep : EngineReport) :
    (State.commitRun s f r rep).pending = s.pending ∧ (State.commitRun s f r rep).trim = s.trim ∧ (State.commitRun s f r rep).fuses = s.fuses := by
  dsimp only [State.commitRun]
  (repeat' split) <;> simp
@[simp] theorem State.commitEcc_config (s : State) (f : Nat) (r : EngineRun) (rep : EngineReport) :
    (State.commitEcc s f r rep).pending = s.pending ∧ (State.commitEcc s f r rep).trim = s.trim ∧ (State.commitEcc s f r rep).fuses = s.fuses := by
  dsimp only [State.commitEcc]
  (repeat' split) <;> simp
theorem execCommitHandshake_config (f : Nat) (rep : EngineReport) (s : State) (t0 : State) (h0 : execCommitHandshake f rep s = .next t0) :
    (t0).pending = s.pending ∧ (t0).trim = s.trim ∧ (t0).fuses = s.fuses := by
  obtain ⟨_, rfl⟩ := ok_next h0
  clear h0
  refine State.when_config _ _ _ fun u => ?_
  refine State.reportFor_config _ _ _ _ fun r => ?_
  try dsimp only
  (repeat' split) <;> simp
theorem execCommitReport_config (n : Nat) (s : State) (t0 : State) (h0 : execCommitReport n s = .next t0) :
    (t0).pending = s.pending ∧ (t0).trim = s.trim ∧ (t0).fuses = s.fuses := by
  obtain ⟨_, rfl⟩ := ok_next h0
  clear h0
  try dsimp only
  repeat' first | split | (with_reducible apply State.when_config_of <;> intros) | (with_reducible apply State.sbAnswer_config_of <;> intros) | (with_reducible apply State.deliver_config_of <;> intros) | (with_reducible apply State.withLines_config_of <;> intros) | (with_reducible apply State.withReads_config_of <;> intros) | (with_reducible apply State.whenHeld_config_of <;> intros) | (with_reducible apply State.lookup_config_of <;> intros) | (with_reducible apply State.hostRead_config_of <;> intros) | (with_reducible apply State.hostWrite_config_of <;> intros) | (with_reducible apply State.delivery_config_of <;> intros) | (with_reducible apply State.pageRead_config_of <;> intros) | (with_reducible apply State.pageWrite_config_of <;> intros) | (with_reducible apply State.stewardLines_config_of <;> intros) | (with_reducible apply State.choiceLines_config_of <;> intros) | (with_reducible apply State.preloadRead_config_of <;> intros) | (with_reducible apply State.opStep_config_of <;> intros) | (with_reducible apply State.receive_config_of <;> intros) | (with_reducible apply State.onObject_config_of <;> intros) | (with_reducible apply State.endOwner_config_of <;> intros) | (with_reducible apply State.chipWide_config_of <;> intros) | (with_reducible apply State.kernelStep_config_of <;> intros) | (with_reducible apply State.coreInstr_config_of <;> intros) | (with_reducible apply State.endArrival_config_of <;> intros) | (with_reducible apply State.notice_config_of <;> intros) | (with_reducible apply State.fenceNotice_config_of <;> intros) | (with_reducible apply State.handleStep_config_of <;> intros) | (with_reducible apply State.sysStep_config_of <;> intros) | (with_reducible apply State.forAll_config_of <;> intros) | (with_reducible apply foldl_config_of <;> intros)
  all_goals simp
theorem execProgressReport_config (p : PortReport) (s : State) (t0 : State) (h0 : execProgressReport p s = .next t0) :
    (t0).pending = s.pending ∧ (t0).trim = s.trim ∧ (t0).fuses = s.fuses := by
  obtain ⟨_, rfl⟩ := ok_next h0
  clear h0
  refine State.when_config _ _ _ fun u => ?_
  refine State.reportFor_config _ _ _ _ fun r => ?_
  try dsimp only
  (repeat' split) <;> simp
@[simp] theorem State.satRecord_config (s : State) (f n : Nat) (d : Node) (r : EngineRun) :
    (State.satRecord s f n d r).pending = s.pending ∧ (State.satRecord s f n d r).trim = s.trim ∧ (State.satRecord s f n d r).fuses = s.fuses := by
  unfold State.satRecord
  (repeat' split) <;> simp
theorem execSaturationHandshake_config (p : PortReport) (s : State) (t0 : State) (h0 : execSaturationHandshake p s = .next t0) :
    (t0).pending = s.pending ∧ (t0).trim = s.trim ∧ (t0).fuses = s.fuses := by
  obtain ⟨_, rfl⟩ := ok_next h0
  clear h0
  refine State.when_config _ _ _ fun u => ?_
  refine State.reportFor_config _ _ _ _ fun r => ?_
  try dsimp only
  (repeat' split) <;> simp
@[simp] theorem State.returnToken_config (s : State) (f : Nat) (d : Node) (e : Entry) :
    ((State.returnToken s f d e).1).pending = s.pending ∧ ((State.returnToken s f d e).1).trim = s.trim ∧ ((State.returnToken s f d e).1).fuses = s.fuses := by
  dsimp only [State.returnToken]
  (repeat' split) <;> simp
@[simp] theorem State.requestAborted_config (s : State) (f : Nat) (d : Node) (r : EngineRun) :
    (State.requestAborted s f d r).pending = s.pending ∧ (State.requestAborted s f d r).trim = s.trim ∧ (State.requestAborted s f d r).fuses = s.fuses := by
  unfold State.requestAborted
  (repeat' split) <;> simp
@[simp] theorem State.preempted_config (s : State) (f : Nat) (d : Node) (r : EngineRun) :
    (State.preempted s f d r).pending = s.pending ∧ (State.preempted s f d r).trim = s.trim ∧ (State.preempted s f d r).fuses = s.fuses := by
  dsimp only [State.preempted]
  repeat' first | split | (with_reducible apply State.when_config_of <;> intros) | (with_reducible apply State.sbAnswer_config_of <;> intros) | (with_reducible apply State.deliver_config_of <;> intros) | (with_reducible apply State.withLines_config_of <;> intros) | (with_reducible apply State.withReads_config_of <;> intros) | (with_reducible apply State.whenHeld_config_of <;> intros) | (with_reducible apply State.lookup_config_of <;> intros) | (with_reducible apply State.hostRead_config_of <;> intros) | (with_reducible apply State.hostWrite_config_of <;> intros) | (with_reducible apply State.delivery_config_of <;> intros) | (with_reducible apply State.pageRead_config_of <;> intros) | (with_reducible apply State.pageWrite_config_of <;> intros) | (with_reducible apply State.stewardLines_config_of <;> intros) | (with_reducible apply State.choiceLines_config_of <;> intros) | (with_reducible apply State.preloadRead_config_of <;> intros) | (with_reducible apply State.opStep_config_of <;> intros) | (with_reducible apply State.receive_config_of <;> intros) | (with_reducible apply State.onObject_config_of <;> intros) | (with_reducible apply State.endOwner_config_of <;> intros) | (with_reducible apply State.chipWide_config_of <;> intros) | (with_reducible apply State.kernelStep_config_of <;> intros) | (with_reducible apply State.coreInstr_config_of <;> intros) | (with_reducible apply State.endArrival_config_of <;> intros) | (with_reducible apply State.notice_config_of <;> intros) | (with_reducible apply State.fenceNotice_config_of <;> intros) | (with_reducible apply State.handleStep_config_of <;> intros) | (with_reducible apply State.sysStep_config_of <;> intros) | (with_reducible apply State.forAll_config_of <;> intros) | (with_reducible apply foldl_config_of <;> intros)
  all_goals simp
theorem execAbortHandshake_config (f : Nat) (rep : EngineReport) (s : State) (t0 : State) (h0 : execAbortHandshake f rep s = .next t0) :
    (t0).pending = s.pending ∧ (t0).trim = s.trim ∧ (t0).fuses = s.fuses := by
  obtain ⟨_, rfl⟩ := ok_next h0
  clear h0
  refine State.when_config _ _ _ fun u => ?_
  refine State.reportFor_config _ _ _ _ fun r => ?_
  try dsimp only
  (repeat' split) <;> simp
theorem execPreempt_config (f : Nat) (s : State) (t0 : State) (h0 : execPreempt f s = .next t0) :
    (t0).pending = s.pending ∧ (t0).trim = s.trim ∧ (t0).fuses = s.fuses := by
  obtain ⟨_, rfl⟩ := ok_next h0
  clear h0
  try dsimp only
  repeat' first | split | (with_reducible apply State.when_config_of <;> intros) | (with_reducible apply State.sbAnswer_config_of <;> intros) | (with_reducible apply State.deliver_config_of <;> intros) | (with_reducible apply State.withLines_config_of <;> intros) | (with_reducible apply State.withReads_config_of <;> intros) | (with_reducible apply State.whenHeld_config_of <;> intros) | (with_reducible apply State.lookup_config_of <;> intros) | (with_reducible apply State.hostRead_config_of <;> intros) | (with_reducible apply State.hostWrite_config_of <;> intros) | (with_reducible apply State.delivery_config_of <;> intros) | (with_reducible apply State.pageRead_config_of <;> intros) | (with_reducible apply State.pageWrite_config_of <;> intros) | (with_reducible apply State.stewardLines_config_of <;> intros) | (with_reducible apply State.choiceLines_config_of <;> intros) | (with_reducible apply State.preloadRead_config_of <;> intros) | (with_reducible apply State.opStep_config_of <;> intros) | (with_reducible apply State.receive_config_of <;> intros) | (with_reducible apply State.onObject_config_of <;> intros) | (with_reducible apply State.endOwner_config_of <;> intros) | (with_reducible apply State.chipWide_config_of <;> intros) | (with_reducible apply State.kernelStep_config_of <;> intros) | (with_reducible apply State.coreInstr_config_of <;> intros) | (with_reducible apply State.endArrival_config_of <;> intros) | (with_reducible apply State.notice_config_of <;> intros) | (with_reducible apply State.fenceNotice_config_of <;> intros) | (with_reducible apply State.handleStep_config_of <;> intros) | (with_reducible apply State.sysStep_config_of <;> intros) | (with_reducible apply State.forAll_config_of <;> intros) | (with_reducible apply foldl_config_of <;> intros)
  all_goals simp
@[simp] theorem State.hung_config (s : State) (d : Node) (f : Nat) :
    (State.hung s d f).pending = s.pending ∧ (State.hung s d f).trim = s.trim ∧ (State.hung s d f).fuses = s.fuses := by
  unfold State.hung
  simp
@[simp] theorem State.timeout_config (s : State) (n : Nat) (d : Node) (detail : BitVec 32) (f : BitVec 10) :
    (State.timeout s n d detail f).pending = s.pending ∧ (State.timeout s n d detail f).trim = s.trim ∧ (State.timeout s n d detail f).fuses = s.fuses := by
  unfold State.timeout
  simp
@[simp] theorem State.opStep_config (s : State) (n : Nat) (p : Node → Bool) (f : State → Node → State) (h3 : ∀ (x0 : State) (x1 : Node), (f x0 x1).pending = x0.pending ∧ (f x0 x1).trim = x0.trim ∧ (f x0 x1).fuses = x0.fuses) :
    (State.opStep s n p f).pending = s.pending ∧ (State.opStep s n p f).trim = s.trim ∧ (State.opStep s n p f).fuses = s.fuses := by
  unfold State.opStep
  (repeat' split) <;> simp [*]
theorem State.opStep_config_of (s : State) (n : Nat) (p : Node → Bool) (f : State → Node → State) (u : State) (h3 : ∀ (x0 : State) (x1 : Node), (f x0 x1).pending = x0.pending ∧ (f x0 x1).trim = x0.trim ∧ (f x0 x1).fuses = x0.fuses) (hu : (s).pending = u.pending ∧ (s).trim = u.trim ∧ (s).fuses = u.fuses) :
    (State.opStep s n p f).pending = u.pending ∧ (State.opStep s n p f).trim = u.trim ∧ (State.opStep s n p f).fuses = u.fuses := by
  have := State.opStep_config s n p f h3
  simp only [this, hu, and_self]
@[simp] theorem State.readTable_config (s : State) (n : Nat) (d : Node) :
    (State.readTable s n d).pending = s.pending ∧ (State.readTable s n d).trim = s.trim ∧ (State.readTable s n d).fuses = s.fuses := by
  unfold State.readTable
  simp
theorem execFanout_config (n : Nat) (s : State) (t0 : State) (h0 : execFanout n s = .next t0) :
    (t0).pending = s.pending ∧ (t0).trim = s.trim ∧ (t0).fuses = s.fuses := by
  obtain ⟨_, rfl⟩ := ok_next h0
  clear h0
  simp
theorem execMasked_config (n : Nat) (s : State) (t0 : State) (h0 : execMasked n s = .next t0) :
    (t0).pending = s.pending ∧ (t0).trim = s.trim ∧ (t0).fuses = s.fuses := by
  obtain ⟨_, rfl⟩ := ok_next h0
  clear h0
  simp
@[simp] theorem State.tableEcc_config (s : State) (n : Nat) (d : Node) (line : Nat) :
    (State.tableEcc s n d line).pending = s.pending ∧ (State.tableEcc s n d line).trim = s.trim ∧ (State.tableEcc s n d line).fuses = s.fuses := by
  unfold State.tableEcc
  simp
@[simp] theorem State.tableArrives_config (s : State) (n : Nat) (d : Node) (r : ReadResult) :
    (State.tableArrives s n d r).pending = s.pending ∧ (State.tableArrives s n d r).trim = s.trim ∧ (State.tableArrives s n d r).fuses = s.fuses := by
  dsimp only [State.tableArrives]
  (repeat' split) <;> simp
theorem execTableReadComplete_config (n : Nat) (a : FabricReply) (s : State) (t0 : State) (h0 : execTableReadComplete n a s = .next t0) :
    (t0).pending = s.pending ∧ (t0).trim = s.trim ∧ (t0).fuses = s.fuses := by
  obtain ⟨_, rfl⟩ := ok_next h0
  clear h0
  try dsimp only
  repeat' first | split | (with_reducible apply State.when_config_of <;> intros) | (with_reducible apply State.sbAnswer_config_of <;> intros) | (with_reducible apply State.deliver_config_of <;> intros) | (with_reducible apply State.withLines_config_of <;> intros) | (with_reducible apply State.withReads_config_of <;> intros) | (with_reducible apply State.whenHeld_config_of <;> intros) | (with_reducible apply State.lookup_config_of <;> intros) | (with_reducible apply State.hostRead_config_of <;> intros) | (with_reducible apply State.hostWrite_config_of <;> intros) | (with_reducible apply State.delivery_config_of <;> intros) | (with_reducible apply State.pageRead_config_of <;> intros) | (with_reducible apply State.pageWrite_config_of <;> intros) | (with_reducible apply State.stewardLines_config_of <;> intros) | (with_reducible apply State.choiceLines_config_of <;> intros) | (with_reducible apply State.preloadRead_config_of <;> intros) | (with_reducible apply State.opStep_config_of <;> intros) | (with_reducible apply State.receive_config_of <;> intros) | (with_reducible apply State.onObject_config_of <;> intros) | (with_reducible apply State.endOwner_config_of <;> intros) | (with_reducible apply State.chipWide_config_of <;> intros) | (with_reducible apply State.kernelStep_config_of <;> intros) | (with_reducible apply State.coreInstr_config_of <;> intros) | (with_reducible apply State.endArrival_config_of <;> intros) | (with_reducible apply State.notice_config_of <;> intros) | (with_reducible apply State.fenceNotice_config_of <;> intros) | (with_reducible apply State.handleStep_config_of <;> intros) | (with_reducible apply State.sysStep_config_of <;> intros) | (with_reducible apply State.forAll_config_of <;> intros) | (with_reducible apply foldl_config_of <;> intros)
  all_goals simp
@[simp] theorem State.createMember_config (s : State) (n : Nat) (d : Node) (id : Nat) (a0 a1 : Word) (rest : List (Nat × Word × Word)) :
    (State.createMember s n d id a0 a1 rest).pending = s.pending ∧ (State.createMember s n d id a0 a1 rest).trim = s.trim ∧ (State.createMember s n d id a0 a1 rest).fuses = s.fuses := by
  dsimp only [State.createMember]
  (repeat' split) <;> simp
theorem execMemberCreate_config (n : Nat) (s : State) (t0 : State) (h0 : execMemberCreate n s = .next t0) :
    (t0).pending = s.pending ∧ (t0).trim = s.trim ∧ (t0).fuses = s.fuses := by
  obtain ⟨_, rfl⟩ := ok_next h0
  clear h0
  try dsimp only
  repeat' first | split | (with_reducible apply State.when_config_of <;> intros) | (with_reducible apply State.sbAnswer_config_of <;> intros) | (with_reducible apply State.deliver_config_of <;> intros) | (with_reducible apply State.withLines_config_of <;> intros) | (with_reducible apply State.withReads_config_of <;> intros) | (with_reducible apply State.whenHeld_config_of <;> intros) | (with_reducible apply State.lookup_config_of <;> intros) | (with_reducible apply State.hostRead_config_of <;> intros) | (with_reducible apply State.hostWrite_config_of <;> intros) | (with_reducible apply State.delivery_config_of <;> intros) | (with_reducible apply State.pageRead_config_of <;> intros) | (with_reducible apply State.pageWrite_config_of <;> intros) | (with_reducible apply State.stewardLines_config_of <;> intros) | (with_reducible apply State.choiceLines_config_of <;> intros) | (with_reducible apply State.preloadRead_config_of <;> intros) | (with_reducible apply State.opStep_config_of <;> intros) | (with_reducible apply State.receive_config_of <;> intros) | (with_reducible apply State.onObject_config_of <;> intros) | (with_reducible apply State.endOwner_config_of <;> intros) | (with_reducible apply State.chipWide_config_of <;> intros) | (with_reducible apply State.kernelStep_config_of <;> intros) | (with_reducible apply State.coreInstr_config_of <;> intros) | (with_reducible apply State.endArrival_config_of <;> intros) | (with_reducible apply State.notice_config_of <;> intros) | (with_reducible apply State.fenceNotice_config_of <;> intros) | (with_reducible apply State.handleStep_config_of <;> intros) | (with_reducible apply State.sysStep_config_of <;> intros) | (with_reducible apply State.forAll_config_of <;> intros) | (with_reducible apply foldl_config_of <;> intros)
  all_goals simp
theorem execNop_config (n : Nat) (s : State) (t0 : State) (h0 : execNop n s = .next t0) :
    (t0).pending = s.pending ∧ (t0).trim = s.trim ∧ (t0).fuses = s.fuses := by
  obtain ⟨_, rfl⟩ := ok_next h0
  clear h0
  simp
theorem execStart_config (n : Nat) (s : State) (t0 : State) (h0 : execStart n s = .next t0) :
    (t0).pending = s.pending ∧ (t0).trim = s.trim ∧ (t0).fuses = s.fuses := by
  obtain ⟨_, rfl⟩ := ok_next h0
  clear h0
  simp
theorem execCfgstart_config (n : Nat) (s : State) (t0 : State) (h0 : execCfgstart n s = .next t0) :
    (t0).pending = s.pending ∧ (t0).trim = s.trim ∧ (t0).fuses = s.fuses := by
  obtain ⟨_, rfl⟩ := ok_next h0
  clear h0
  simp
theorem execCombine_config (n : Nat) (s : State) (t0 : State) (h0 : execCombine n s = .next t0) :
    (t0).pending = s.pending ∧ (t0).trim = s.trim ∧ (t0).fuses = s.fuses := by
  obtain ⟨_, rfl⟩ := ok_next h0
  clear h0
  simp
theorem execMeasure_config (n : Nat) (s : State) (t0 : State) (h0 : execMeasure n s = .next t0) :
    (t0).pending = s.pending ∧ (t0).trim = s.trim ∧ (t0).fuses = s.fuses := by
  obtain ⟨_, rfl⟩ := ok_next h0
  clear h0
  simp
@[simp] theorem State.branchObject_config (s : State) (n : Nat) (d : Node) :
    (State.branchObject s n d).pending = s.pending ∧ (State.branchObject s n d).trim = s.trim ∧ (State.branchObject s n d).fuses = s.fuses := by
  dsimp only [State.branchObject]
  (repeat' split) <;> simp
theorem execBranchObject_config (n : Nat) (s : State) (t0 : State) (h0 : execBranchObject n s = .next t0) :
    (t0).pending = s.pending ∧ (t0).trim = s.trim ∧ (t0).fuses = s.fuses := by
  obtain ⟨_, rfl⟩ := ok_next h0
  clear h0
  try dsimp only
  repeat' first | split | (with_reducible apply State.when_config_of <;> intros) | (with_reducible apply State.sbAnswer_config_of <;> intros) | (with_reducible apply State.deliver_config_of <;> intros) | (with_reducible apply State.withLines_config_of <;> intros) | (with_reducible apply State.withReads_config_of <;> intros) | (with_reducible apply State.whenHeld_config_of <;> intros) | (with_reducible apply State.lookup_config_of <;> intros) | (with_reducible apply State.hostRead_config_of <;> intros) | (with_reducible apply State.hostWrite_config_of <;> intros) | (with_reducible apply State.delivery_config_of <;> intros) | (with_reducible apply State.pageRead_config_of <;> intros) | (with_reducible apply State.pageWrite_config_of <;> intros) | (with_reducible apply State.stewardLines_config_of <;> intros) | (with_reducible apply State.choiceLines_config_of <;> intros) | (with_reducible apply State.preloadRead_config_of <;> intros) | (with_reducible apply State.opStep_config_of <;> intros) | (with_reducible apply State.receive_config_of <;> intros) | (with_reducible apply State.onObject_config_of <;> intros) | (with_reducible apply State.endOwner_config_of <;> intros) | (with_reducible apply State.chipWide_config_of <;> intros) | (with_reducible apply State.kernelStep_config_of <;> intros) | (with_reducible apply State.coreInstr_config_of <;> intros) | (with_reducible apply State.endArrival_config_of <;> intros) | (with_reducible apply State.notice_config_of <;> intros) | (with_reducible apply State.fenceNotice_config_of <;> intros) | (with_reducible apply State.handleStep_config_of <;> intros) | (with_reducible apply State.sysStep_config_of <;> intros) | (with_reducible apply State.forAll_config_of <;> intros) | (with_reducible apply foldl_config_of <;> intros)
  all_goals simp
theorem execBranchDeadline_config (n : Nat) (s : State) (t0 : State) (h0 : execBranchDeadline n s = .next t0) :
    (t0).pending = s.pending ∧ (t0).trim = s.trim ∧ (t0).fuses = s.fuses := by
  obtain ⟨_, rfl⟩ := ok_next h0
  clear h0
  simp
@[simp] theorem State.takeFallback_config (s : State) (n : Nat) (d : Node) (excess : Nat) :
    (State.takeFallback s n d excess).pending = s.pending ∧ (State.takeFallback s n d excess).trim = s.trim ∧ (State.takeFallback s n d excess).fuses = s.fuses := by
  unfold State.takeFallback
  simp
@[simp] theorem State.evaluate_config (s : State) (n : Nat) (d : Node) :
    (State.evaluate s n d).pending = s.pending ∧ (State.evaluate s n d).trim = s.trim ∧ (State.evaluate s n d).fuses = s.fuses := by
  dsimp only [State.evaluate]
  (repeat' split) <;> simp
theorem execDeadlineEvaluation_config (n : Nat) (s : State) (t0 : State) (h0 : execDeadlineEvaluation n s = .next t0) :
    (t0).pending = s.pending ∧ (t0).trim = s.trim ∧ (t0).fuses = s.fuses := by
  obtain ⟨_, rfl⟩ := ok_next h0
  clear h0
  try dsimp only
  repeat' first | split | (with_reducible apply State.when_config_of <;> intros) | (with_reducible apply State.sbAnswer_config_of <;> intros) | (with_reducible apply State.deliver_config_of <;> intros) | (with_reducible apply State.withLines_config_of <;> intros) | (with_reducible apply State.withReads_config_of <;> intros) | (with_reducible apply State.whenHeld_config_of <;> intros) | (with_reducible apply State.lookup_config_of <;> intros) | (with_reducible apply State.hostRead_config_of <;> intros) | (with_reducible apply State.hostWrite_config_of <;> intros) | (with_reducible apply State.delivery_config_of <;> intros) | (with_reducible apply State.pageRead_config_of <;> intros) | (with_reducible apply State.pageWrite_config_of <;> intros) | (with_reducible apply State.stewardLines_config_of <;> intros) | (with_reducible apply State.choiceLines_config_of <;> intros) | (with_reducible apply State.preloadRead_config_of <;> intros) | (with_reducible apply State.opStep_config_of <;> intros) | (with_reducible apply State.receive_config_of <;> intros) | (with_reducible apply State.onObject_config_of <;> intros) | (with_reducible apply State.endOwner_config_of <;> intros) | (with_reducible apply State.chipWide_config_of <;> intros) | (with_reducible apply State.kernelStep_config_of <;> intros) | (with_reducible apply State.coreInstr_config_of <;> intros) | (with_reducible apply State.endArrival_config_of <;> intros) | (with_reducible apply State.notice_config_of <;> intros) | (with_reducible apply State.fenceNotice_config_of <;> intros) | (with_reducible apply State.handleStep_config_of <;> intros) | (with_reducible apply State.sysStep_config_of <;> intros) | (with_reducible apply State.forAll_config_of <;> intros) | (with_reducible apply foldl_config_of <;> intros)
  all_goals simp
@[simp] theorem State.fenceOrigin_config (s : State) (q : Nat) :
    (State.fenceOrigin s q).pending = s.pending ∧ (State.fenceOrigin s q).trim = s.trim ∧ (State.fenceOrigin s q).fuses = s.fuses := by
  unfold State.fenceOrigin
  simp
theorem execFenceQueue_config (n : Nat) (s : State) (t0 : State) (h0 : execFenceQueue n s = .next t0) :
    (t0).pending = s.pending ∧ (t0).trim = s.trim ∧ (t0).fuses = s.fuses := by
  obtain ⟨_, rfl⟩ := ok_next h0
  clear h0
  simp
@[simp] theorem State.sendHive_config (s : State) (p : Nat) (m : HiveFrame) :
    (State.sendHive s p m).pending = s.pending ∧ (State.sendHive s p m).trim = s.trim ∧ (State.sendHive s p m).fuses = s.fuses := by
  unfold State.sendHive
  (repeat' split) <;> simp
@[simp] theorem State.takeMsgid_config (s : State) :
    (State.takeMsgid s).pending = s.pending ∧ (State.takeMsgid s).trim = s.trim ∧ (State.takeMsgid s).fuses = s.fuses := by
  unfold State.takeMsgid
  simp
@[simp] theorem State.reply_config (s : State) (p typ : Nat) (dest : BitVec 14) (result : Nat) (msgid : BitVec 32) (obj : Nat) (w2 : Word) :
    (State.reply s p typ dest result msgid obj w2).pending = s.pending ∧ (State.reply s p typ dest result msgid obj w2).trim = s.trim ∧ (State.reply s p typ dest result msgid obj w2).fuses = s.fuses := by
  unfold State.reply
  simp
@[simp] theorem State.sendTierarrive_config (s : State) (n round : Nat) :
    (State.sendTierarrive s n round).pending = s.pending ∧ (State.sendTierarrive s n round).trim = s.trim ∧ (State.sendTierarrive s n round).fuses = s.fuses := by
  unfold State.sendTierarrive
  (repeat' split) <;> simp
@[simp] theorem State.sendTierrelease_config (s : State) (n round : Nat) :
    (State.sendTierrelease s n round).pending = s.pending ∧ (State.sendTierrelease s n round).trim = s.trim ∧ (State.sendTierrelease s n round).fuses = s.fuses := by
  dsimp only [State.sendTierrelease]
  (repeat' split) <;> simp
@[simp] theorem State.dropWaiters_config (s : State) (p : Waiter → Bool) :
    (State.dropWaiters s p).pending = s.pending ∧ (State.dropWaiters s p).trim = s.trim ∧ (State.dropWaiters s p).fuses = s.fuses := by
  unfold State.dropWaiters
  simp
@[simp] theorem State.finishRun_config (s : State) (k fr rd : Nat) (v : Word) :
    (State.finishRun s k fr rd v).pending = s.pending ∧ (State.finishRun s k fr rd v).trim = s.trim ∧ (State.finishRun s k fr rd v).fuses = s.fuses := by
  unfold State.finishRun
  (repeat' split) <;> simp
@[simp] theorem State.wakeSheaf_config (s : State) (n : Nat) :
    (State.wakeSheaf s n).pending = s.pending ∧ (State.wakeSheaf s n).trim = s.trim ∧ (State.wakeSheaf s n).fuses = s.fuses := by
  unfold State.wakeSheaf
  (repeat' split) <;> simp
@[simp] theorem State.releaseWaiter_config (s : State) (n : Nat) (w : Waiter) :
    (State.releaseWaiter s n w).pending = s.pending ∧ (State.releaseWaiter s n w).trim = s.trim ∧ (State.releaseWaiter s n w).fuses = s.fuses := by
  unfold State.releaseWaiter
  (repeat' split) <;> simp
@[simp] theorem State.wakeWaiters_config (s : State) (n : Nat) :
    (State.wakeWaiters s n).pending = s.pending ∧ (State.wakeWaiters s n).trim = s.trim ∧ (State.wakeWaiters s n).fuses = s.fuses := by
  unfold State.wakeWaiters
  simp
@[simp] theorem State.addWaiter_config (s : State) (n : Nat) (w : Waiter) :
    (State.addWaiter s n w).pending = s.pending ∧ (State.addWaiter s n w).trim = s.trim ∧ (State.addWaiter s n w).fuses = s.fuses := by
  unfold State.addWaiter
  simp
@[simp] theorem State.countArrival_config (s : State) (n : Nat) (o : Obj) (g : Signer) (completes report : Bool) :
    (State.countArrival s n o g completes report).pending = s.pending ∧ (State.countArrival s n o g completes report).trim = s.trim ∧ (State.countArrival s n o g completes report).fuses = s.fuses := by
  unfold State.countArrival
  (repeat' split) <;> simp
@[simp] theorem State.localOp_config (s : State) (a : Actor) (op : HiveOp) (n round : Nat) (operand : Word) :
    ((State.localOp s a op n round operand).1).pending = s.pending ∧ ((State.localOp s a op n round operand).1).trim = s.trim ∧ ((State.localOp s a op n round operand).1).fuses = s.fuses := by
  dsimp only [State.localOp]
  repeat' first | split | (with_reducible apply State.when_config_of <;> intros) | (with_reducible apply State.sbAnswer_config_of <;> intros) | (with_reducible apply State.deliver_config_of <;> intros) | (with_reducible apply State.withLines_config_of <;> intros) | (with_reducible apply State.withReads_config_of <;> intros) | (with_reducible apply State.whenHeld_config_of <;> intros) | (with_reducible apply State.lookup_config_of <;> intros) | (with_reducible apply State.hostRead_config_of <;> intros) | (with_reducible apply State.hostWrite_config_of <;> intros) | (with_reducible apply State.delivery_config_of <;> intros) | (with_reducible apply State.pageRead_config_of <;> intros) | (with_reducible apply State.pageWrite_config_of <;> intros) | (with_reducible apply State.stewardLines_config_of <;> intros) | (with_reducible apply State.choiceLines_config_of <;> intros) | (with_reducible apply State.preloadRead_config_of <;> intros) | (with_reducible apply State.opStep_config_of <;> intros) | (with_reducible apply State.receive_config_of <;> intros) | (with_reducible apply State.onObject_config_of <;> intros) | (with_reducible apply State.endOwner_config_of <;> intros) | (with_reducible apply State.chipWide_config_of <;> intros) | (with_reducible apply State.kernelStep_config_of <;> intros) | (with_reducible apply State.coreInstr_config_of <;> intros) | (with_reducible apply State.endArrival_config_of <;> intros) | (with_reducible apply State.notice_config_of <;> intros) | (with_reducible apply State.fenceNotice_config_of <;> intros) | (with_reducible apply State.handleStep_config_of <;> intros) | (with_reducible apply State.sysStep_config_of <;> intros) | (with_reducible apply State.forAll_config_of <;> intros) | (with_reducible apply foldl_config_of <;> intros)
  all_goals (try simp)
  all_goals (repeat' first | split | (with_reducible apply State.when_config_of <;> intros) | (with_reducible apply State.sbAnswer_config_of <;> intros) | (with_reducible apply State.deliver_config_of <;> intros) | (with_reducible apply State.withLines_config_of <;> intros) | (with_reducible apply State.withReads_config_of <;> intros) | (with_reducible apply State.whenHeld_config_of <;> intros) | (with_reducible apply State.lookup_config_of <;> intros) | (with_reducible apply State.hostRead_config_of <;> intros) | (with_reducible apply State.hostWrite_config_of <;> intros) | (with_reducible apply State.delivery_config_of <;> intros) | (with_reducible apply State.pageRead_config_of <;> intros) | (with_reducible apply State.pageWrite_config_of <;> intros) | (with_reducible apply State.stewardLines_config_of <;> intros) | (with_reducible apply State.choiceLines_config_of <;> intros) | (with_reducible apply State.preloadRead_config_of <;> intros) | (with_reducible apply State.opStep_config_of <;> intros) | (with_reducible apply State.receive_config_of <;> intros) | (with_reducible apply State.onObject_config_of <;> intros) | (with_reducible apply State.endOwner_config_of <;> intros) | (with_reducible apply State.chipWide_config_of <;> intros) | (with_reducible apply State.kernelStep_config_of <;> intros) | (with_reducible apply State.coreInstr_config_of <;> intros) | (with_reducible apply State.endArrival_config_of <;> intros) | (with_reducible apply State.notice_config_of <;> intros) | (with_reducible apply State.fenceNotice_config_of <;> intros) | (with_reducible apply State.handleStep_config_of <;> intros) | (with_reducible apply State.sysStep_config_of <;> intros) | (with_reducible apply State.forAll_config_of <;> intros) | (with_reducible apply foldl_config_of <;> intros))
  all_goals simp
@[simp] theorem State.sendOp_config (s : State) (a : Actor) (chip : BitVec 14) (n typ op : Nat) (w1 : Word) (wait : Bool) :
    (State.sendOp s a chip n typ op w1 wait).pending = s.pending ∧ (State.sendOp s a chip n typ op w1 wait).trim = s.trim ∧ (State.sendOp s a chip n typ op w1 wait).fuses = s.fuses := by
  unfold State.sendOp
  simp
@[simp] theorem State.remoteOp_config (s : State) (a : Actor) (op : HiveOp) (chip : BitVec 14) (n round : Nat) (operand : Word) :
    ((State.remoteOp s a op chip n round operand).1).pending = s.pending ∧ ((State.remoteOp s a op chip n round operand).1).trim = s.trim ∧ ((State.remoteOp s a op chip n round operand).1).fuses = s.fuses := by
  unfold State.remoteOp
  (repeat' split) <;> simp
@[simp] theorem State.hiveOp_config (s : State) (a : Actor) (op : HiveOp) (ref round : Nat) (operand : Word) :
    ((State.hiveOp s a op ref round operand).1).pending = s.pending ∧ ((State.hiveOp s a op ref round operand).1).trim = s.trim ∧ ((State.hiveOp s a op ref round operand).1).fuses = s.fuses := by
  unfold State.hiveOp
  (repeat' split) <;> simp
@[simp] theorem State.misuseEnd_config (s : State) (n : Nat) (d : Node) (source obj reason : Nat) :
    (State.misuseEnd s n d source obj reason).pending = s.pending ∧ (State.misuseEnd s n d source obj reason).trim = s.trim ∧ (State.misuseEnd s n d source obj reason).fuses = s.fuses := by
  unfold State.misuseEnd
  simp
@[simp] theorem State.peerLostEnd_config (s : State) (n : Nat) (d : Node) (source : Nat) (detail : BitVec 32) :
    (State.peerLostEnd s n d source detail).pending = s.pending ∧ (State.peerLostEnd s n d source detail).trim = s.trim ∧ (State.peerLostEnd s n d source detail).fuses = s.fuses := by
  unfold State.peerLostEnd
  simp
@[simp] theorem State.hiveDone_config (s : State) (n : Nat) (d : Node) (op : HiveOp) (operand : Word) :
    (State.hiveDone s n d op operand).pending = s.pending ∧ (State.hiveDone s n d op operand).trim = s.trim ∧ (State.hiveDone s n d op operand).fuses = s.fuses := by
  dsimp only [State.hiveDone]
  (repeat' split) <;> simp
@[simp] theorem State.hiveSheaf_config (s : State) (c : Instr) (n : Nat) (d : Node) (op : HiveOp) (operand : Word) :
    (State.hiveSheaf s c n d op operand).pending = s.pending ∧ (State.hiveSheaf s c n d op operand).trim = s.trim ∧ (State.hiveSheaf s c n d op operand).fuses = s.fuses := by
  dsimp only [State.hiveSheaf]
  repeat' first | split | (with_reducible apply State.when_config_of <;> intros) | (with_reducible apply State.sbAnswer_config_of <;> intros) | (with_reducible apply State.deliver_config_of <;> intros) | (with_reducible apply State.withLines_config_of <;> intros) | (with_reducible apply State.withReads_config_of <;> intros) | (with_reducible apply State.whenHeld_config_of <;> intros) | (with_reducible apply State.lookup_config_of <;> intros) | (with_reducible apply State.hostRead_config_of <;> intros) | (with_reducible apply State.hostWrite_config_of <;> intros) | (with_reducible apply State.delivery_config_of <;> intros) | (with_reducible apply State.pageRead_config_of <;> intros) | (with_reducible apply State.pageWrite_config_of <;> intros) | (with_reducible apply State.stewardLines_config_of <;> intros) | (with_reducible apply State.choiceLines_config_of <;> intros) | (with_reducible apply State.preloadRead_config_of <;> intros) | (with_reducible apply State.opStep_config_of <;> intros) | (with_reducible apply State.receive_config_of <;> intros) | (with_reducible apply State.onObject_config_of <;> intros) | (with_reducible apply State.endOwner_config_of <;> intros) | (with_reducible apply State.chipWide_config_of <;> intros) | (with_reducible apply State.kernelStep_config_of <;> intros) | (with_reducible apply State.coreInstr_config_of <;> intros) | (with_reducible apply State.endArrival_config_of <;> intros) | (with_reducible apply State.notice_config_of <;> intros) | (with_reducible apply State.fenceNotice_config_of <;> intros) | (with_reducible apply State.handleStep_config_of <;> intros) | (with_reducible apply State.sysStep_config_of <;> intros) | (with_reducible apply State.forAll_config_of <;> intros) | (with_reducible apply foldl_config_of <;> intros)
  all_goals simp
theorem execWait_config (n : Nat) (s : State) (t0 : State) (h0 : execWait n s = .next t0) :
    (t0).pending = s.pending ∧ (t0).trim = s.trim ∧ (t0).fuses = s.fuses := by
  obtain ⟨_, rfl⟩ := ok_next h0
  clear h0
  simp
theorem execSignalAdd_config (n : Nat) (s : State) (t0 : State) (h0 : execSignalAdd n s = .next t0) :
    (t0).pending = s.pending ∧ (t0).trim = s.trim ∧ (t0).fuses = s.fuses := by
  obtain ⟨_, rfl⟩ := ok_next h0
  clear h0
  simp
theorem execSignalSet_config (n : Nat) (s : State) (t0 : State) (h0 : execSignalSet n s = .next t0) :
    (t0).pending = s.pending ∧ (t0).trim = s.trim ∧ (t0).fuses = s.fuses := by
  obtain ⟨_, rfl⟩ := ok_next h0
  clear h0
  simp
theorem execSignalOr_config (n : Nat) (s : State) (t0 : State) (h0 : execSignalOr n s = .next t0) :
    (t0).pending = s.pending ∧ (t0).trim = s.trim ∧ (t0).fuses = s.fuses := by
  obtain ⟨_, rfl⟩ := ok_next h0
  clear h0
  simp
theorem execStileArrive_config (n : Nat) (s : State) (t0 : State) (h0 : execStileArrive n s = .next t0) :
    (t0).pending = s.pending ∧ (t0).trim = s.trim ∧ (t0).fuses = s.fuses := by
  obtain ⟨_, rfl⟩ := ok_next h0
  clear h0
  simp
theorem execStileArriveNowait_config (n : Nat) (s : State) (t0 : State) (h0 : execStileArriveNowait n s = .next t0) :
    (t0).pending = s.pending ∧ (t0).trim = s.trim ∧ (t0).fuses = s.fuses := by
  obtain ⟨_, rfl⟩ := ok_next h0
  clear h0
  simp
theorem execStileInit_config (n : Nat) (s : State) (t0 : State) (h0 : execStileInit n s = .next t0) :
    (t0).pending = s.pending ∧ (t0).trim = s.trim ∧ (t0).fuses = s.fuses := by
  obtain ⟨_, rfl⟩ := ok_next h0
  clear h0
  simp
theorem execStileReset_config (n : Nat) (s : State) (t0 : State) (h0 : execStileReset n s = .next t0) :
    (t0).pending = s.pending ∧ (t0).trim = s.trim ∧ (t0).fuses = s.fuses := by
  obtain ⟨_, rfl⟩ := ok_next h0
  clear h0
  simp
@[simp] theorem State.cancelWaits_config (s : State) (p : Owner → Bool) :
    (State.cancelWaits s p).pending = s.pending ∧ (State.cancelWaits s p).trim = s.trim ∧ (State.cancelWaits s p).fuses = s.fuses := by
  unfold State.cancelWaits
  simp
@[simp] theorem State.flushLine_config (s : State) (k i : Nat) :
    (State.flushLine s k i).pending = s.pending ∧ (State.flushLine s k i).trim = s.trim ∧ (State.flushLine s k i).fuses = s.fuses := by
  unfold State.flushLine
  (repeat' split) <;> simp
@[simp] theorem State.endPort_config (s : State) (k i : Nat) :
    (State.endPort s k i).pending = s.pending ∧ (State.endPort s k i).trim = s.trim ∧ (State.endPort s k i).fuses = s.fuses := by
  unfold State.endPort
  (repeat' split) <;> simp
@[simp] theorem State.endRun_config (s : State) (k fr : Nat) :
    (State.endRun s k fr).pending = s.pending ∧ (State.endRun s k fr).trim = s.trim ∧ (State.endRun s k fr).fuses = s.fuses := by
  dsimp only [State.endRun]
  (repeat' split) <;> simp
@[simp] theorem State.stopCall_config (s : State) (n : Nat) (d : Node) :
    (State.stopCall s n d).pending = s.pending ∧ (State.stopCall s n d).trim = s.trim ∧ (State.stopCall s n d).fuses = s.fuses := by
  dsimp only [State.stopCall]
  (repeat' split) <;> simp
@[simp] theorem State.freePorts_config (s : State) (n : Nat) (d : Node) :
    (State.freePorts s n d).pending = s.pending ∧ (State.freePorts s n d).trim = s.trim ∧ (State.freePorts s n d).fuses = s.fuses := by
  unfold State.freePorts
  simp
@[simp] theorem State.stopOwner_config (s : State) (o : Owner) :
    (State.stopOwner s o).pending = s.pending ∧ (State.stopOwner s o).trim = s.trim ∧ (State.stopOwner s o).fuses = s.fuses := by
  unfold State.stopOwner
  (repeat' split) <;> simp
@[simp] theorem State.hiveDrop_config (s : State) (source : Nat) :
    (State.hiveDrop s source).pending = s.pending ∧ (State.hiveDrop s source).trim = s.trim ∧ (State.hiveDrop s source).fuses = s.fuses := by
  unfold State.hiveDrop
  simp
@[simp] theorem State.countStale_config (s : State) :
    (State.countStale s).pending = s.pending ∧ (State.countStale s).trim = s.trim ∧ (State.countStale s).fuses = s.fuses := by
  unfold State.countStale
  simp
@[simp] theorem State.receive_config (s : State) (c : Instr) (m : HiveFrame) (typ : Nat) (f : State → State) (h4 : ∀ (x0 : State), (f x0).pending = x0.pending ∧ (f x0).trim = x0.trim ∧ (f x0).fuses = x0.fuses) :
    (State.receive s c m typ f).pending = s.pending ∧ (State.receive s c m typ f).trim = s.trim ∧ (State.receive s c m typ f).fuses = s.fuses := by
  dsimp only [State.receive]
  repeat' first | split | (with_reducible apply State.when_config_of <;> intros) | (with_reducible apply State.sbAnswer_config_of <;> intros) | (with_reducible apply State.deliver_config_of <;> intros) | (with_reducible apply State.withLines_config_of <;> intros) | (with_reducible apply State.withReads_config_of <;> intros) | (with_reducible apply State.whenHeld_config_of <;> intros) | (with_reducible apply State.lookup_config_of <;> intros) | (with_reducible apply State.hostRead_config_of <;> intros) | (with_reducible apply State.hostWrite_config_of <;> intros) | (with_reducible apply State.delivery_config_of <;> intros) | (with_reducible apply State.pageRead_config_of <;> intros) | (with_reducible apply State.pageWrite_config_of <;> intros) | (with_reducible apply State.stewardLines_config_of <;> intros) | (with_reducible apply State.choiceLines_config_of <;> intros) | (with_reducible apply State.preloadRead_config_of <;> intros) | (with_reducible apply State.opStep_config_of <;> intros) | (with_reducible apply State.receive_config_of <;> intros) | (with_reducible apply State.onObject_config_of <;> intros) | (with_reducible apply State.endOwner_config_of <;> intros) | (with_reducible apply State.chipWide_config_of <;> intros) | (with_reducible apply State.kernelStep_config_of <;> intros) | (with_reducible apply State.coreInstr_config_of <;> intros) | (with_reducible apply State.endArrival_config_of <;> intros) | (with_reducible apply State.notice_config_of <;> intros) | (with_reducible apply State.fenceNotice_config_of <;> intros) | (with_reducible apply State.handleStep_config_of <;> intros) | (with_reducible apply State.sysStep_config_of <;> intros) | (with_reducible apply State.forAll_config_of <;> intros) | (with_reducible apply foldl_config_of <;> intros)
  all_goals simp [*]
theorem State.receive_config_of (s : State) (c : Instr) (m : HiveFrame) (typ : Nat) (f : State → State) (u : State) (h4 : ∀ (x0 : State), (f x0).pending = x0.pending ∧ (f x0).trim = x0.trim ∧ (f x0).fuses = x0.fuses) (hu : (s).pending = u.pending ∧ (s).trim = u.trim ∧ (s).fuses = u.fuses) :
    (State.receive s c m typ f).pending = u.pending ∧ (State.receive s c m typ f).trim = u.trim ∧ (State.receive s c m typ f).fuses = u.fuses := by
  have := State.receive_config s c m typ f h4
  simp only [this, hu, and_self]
@[simp] theorem State.answerMsg_config (s : State) (m : HiveFrame) (typ result : Nat) :
    (State.answerMsg s m typ result).pending = s.pending ∧ (State.answerMsg s m typ result).trim = s.trim ∧ (State.answerMsg s m typ result).fuses = s.fuses := by
  unfold State.answerMsg
  simp
@[simp] theorem State.onObject_config (s : State) (c : Instr) (m : HiveFrame) (ops : Nat) (f : State → State) (h4 : ∀ (x0 : State), (f x0).pending = x0.pending ∧ (f x0).trim = x0.trim ∧ (f x0).fuses = x0.fuses) :
    (State.onObject s c m ops f).pending = s.pending ∧ (State.onObject s c m ops f).trim = s.trim ∧ (State.onObject s c m ops f).fuses = s.fuses := by
  unfold State.onObject
  simp [*]
theorem State.onObject_config_of (s : State) (c : Instr) (m : HiveFrame) (ops : Nat) (f : State → State) (u : State) (h4 : ∀ (x0 : State), (f x0).pending = x0.pending ∧ (f x0).trim = x0.trim ∧ (f x0).fuses = x0.fuses) (hu : (s).pending = u.pending ∧ (s).trim = u.trim ∧ (s).fuses = u.fuses) :
    (State.onObject s c m ops f).pending = u.pending ∧ (State.onObject s c m ops f).trim = u.trim ∧ (State.onObject s c m ops f).fuses = u.fuses := by
  have := State.onObject_config s c m ops f h4
  simp only [this, hu, and_self]
@[simp] theorem State.signalArrives_config (s : State) (m : HiveFrame) :
    (State.signalArrives s m).pending = s.pending ∧ (State.signalArrives s m).trim = s.trim ∧ (State.signalArrives s m).fuses = s.fuses := by
  dsimp only [State.signalArrives]
  (repeat' split) <;> simp
theorem execSignalMessage_config (m : HiveFrame) (s : State) (t0 : State) (h0 : execSignalMessage m s = .next t0) :
    (t0).pending = s.pending ∧ (t0).trim = s.trim ∧ (t0).fuses = s.fuses := by
  obtain ⟨_, rfl⟩ := ok_next h0
  clear h0
  simp
@[simp] theorem State.waitregArrives_config (s : State) (m : HiveFrame) :
    (State.waitregArrives s m).pending = s.pending ∧ (State.waitregArrives s m).trim = s.trim ∧ (State.waitregArrives s m).fuses = s.fuses := by
  dsimp only [State.waitregArrives]
  (repeat' split) <;> simp
theorem execWaitreg_config (m : HiveFrame) (s : State) (t0 : State) (h0 : execWaitreg m s = .next t0) :
    (t0).pending = s.pending ∧ (t0).trim = s.trim ∧ (t0).fuses = s.fuses := by
  obtain ⟨_, rfl⟩ := ok_next h0
  clear h0
  simp
theorem execCancel_config (m : HiveFrame) (s : State) (t0 : State) (h0 : execCancel m s = .next t0) :
    (t0).pending = s.pending ∧ (t0).trim = s.trim ∧ (t0).fuses = s.fuses := by
  obtain ⟨_, rfl⟩ := ok_next h0
  clear h0
  simp
@[simp] theorem State.endOwner_config (s : State) (o : Owner) (f : State → Nat → Node → State) (h2 : ∀ (x0 : State) (x1 : Nat) (x2 : Node), (f x0 x1 x2).pending = x0.pending ∧ (f x0 x1 x2).trim = x0.trim ∧ (f x0 x1 x2).fuses = x0.fuses) :
    (State.endOwner s o f).pending = s.pending ∧ (State.endOwner s o f).trim = s.trim ∧ (State.endOwner s o f).fuses = s.fuses := by
  unfold State.endOwner
  (repeat' split) <;> simp [*]
theorem State.endOwner_config_of (s : State) (o : Owner) (f : State → Nat → Node → State) (u : State) (h2 : ∀ (x0 : State) (x1 : Nat) (x2 : Node), (f x0 x1 x2).pending = x0.pending ∧ (f x0 x1 x2).trim = x0.trim ∧ (f x0 x1 x2).fuses = x0.fuses) (hu : (s).pending = u.pending ∧ (s).trim = u.trim ∧ (s).fuses = u.fuses) :
    (State.endOwner s o f).pending = u.pending ∧ (State.endOwner s o f).trim = u.trim ∧ (State.endOwner s o f).fuses = u.fuses := by
  have := State.endOwner_config s o f h2
  simp only [this, hu, and_self]
@[simp] theorem State.ownerBlocked_config (s : State) (o : Owner) (obj : Nat) :
    (State.ownerBlocked s o obj).pending = s.pending ∧ (State.ownerBlocked s o obj).trim = s.trim ∧ (State.ownerBlocked s o obj).fuses = s.fuses := by
  unfold State.ownerBlocked
  (repeat' split) <;> simp
@[simp] theorem State.opAnswered_config (s : State) (r : RemoteOp) (result : Nat) :
    (State.opAnswered s r result).pending = s.pending ∧ (State.opAnswered s r result).trim = s.trim ∧ (State.opAnswered s r result).fuses = s.fuses := by
  dsimp only [State.opAnswered]
  (repeat' split) <;> simp
theorem execHiveAck_config (m : HiveFrame) (s : State) (t0 : State) (h0 : execHiveAck m s = .next t0) :
    (t0).pending = s.pending ∧ (t0).trim = s.trim ∧ (t0).fuses = s.fuses := by
  obtain ⟨_, rfl⟩ := ok_next h0
  clear h0
  try dsimp only
  repeat' first | split | (with_reducible apply State.when_config_of <;> intros) | (with_reducible apply State.sbAnswer_config_of <;> intros) | (with_reducible apply State.deliver_config_of <;> intros) | (with_reducible apply State.withLines_config_of <;> intros) | (with_reducible apply State.withReads_config_of <;> intros) | (with_reducible apply State.whenHeld_config_of <;> intros) | (with_reducible apply State.lookup_config_of <;> intros) | (with_reducible apply State.hostRead_config_of <;> intros) | (with_reducible apply State.hostWrite_config_of <;> intros) | (with_reducible apply State.delivery_config_of <;> intros) | (with_reducible apply State.pageRead_config_of <;> intros) | (with_reducible apply State.pageWrite_config_of <;> intros) | (with_reducible apply State.stewardLines_config_of <;> intros) | (with_reducible apply State.choiceLines_config_of <;> intros) | (with_reducible apply State.preloadRead_config_of <;> intros) | (with_reducible apply State.opStep_config_of <;> intros) | (with_reducible apply State.receive_config_of <;> intros) | (with_reducible apply State.onObject_config_of <;> intros) | (with_reducible apply State.endOwner_config_of <;> intros) | (with_reducible apply State.chipWide_config_of <;> intros) | (with_reducible apply State.kernelStep_config_of <;> intros) | (with_reducible apply State.coreInstr_config_of <;> intros) | (with_reducible apply State.endArrival_config_of <;> intros) | (with_reducible apply State.notice_config_of <;> intros) | (with_reducible apply State.fenceNotice_config_of <;> intros) | (with_reducible apply State.handleStep_config_of <;> intros) | (with_reducible apply State.sysStep_config_of <;> intros) | (with_reducible apply State.forAll_config_of <;> intros) | (with_reducible apply foldl_config_of <;> intros)
  all_goals simp
theorem execWake_config (m : HiveFrame) (s : State) (t0 : State) (h0 : execWake m s = .next t0) :
    (t0).pending = s.pending ∧ (t0).trim = s.trim ∧ (t0).fuses = s.fuses := by
  obtain ⟨_, rfl⟩ := ok_next h0
  clear h0
  try dsimp only
  repeat' first | split | (with_reducible apply State.when_config_of <;> intros) | (with_reducible apply State.sbAnswer_config_of <;> intros) | (with_reducible apply State.deliver_config_of <;> intros) | (with_reducible apply State.withLines_config_of <;> intros) | (with_reducible apply State.withReads_config_of <;> intros) | (with_reducible apply State.whenHeld_config_of <;> intros) | (with_reducible apply State.lookup_config_of <;> intros) | (with_reducible apply State.hostRead_config_of <;> intros) | (with_reducible apply State.hostWrite_config_of <;> intros) | (with_reducible apply State.delivery_config_of <;> intros) | (with_reducible apply State.pageRead_config_of <;> intros) | (with_reducible apply State.pageWrite_config_of <;> intros) | (with_reducible apply State.stewardLines_config_of <;> intros) | (with_reducible apply State.choiceLines_config_of <;> intros) | (with_reducible apply State.preloadRead_config_of <;> intros) | (with_reducible apply State.opStep_config_of <;> intros) | (with_reducible apply State.receive_config_of <;> intros) | (with_reducible apply State.onObject_config_of <;> intros) | (with_reducible apply State.endOwner_config_of <;> intros) | (with_reducible apply State.chipWide_config_of <;> intros) | (with_reducible apply State.kernelStep_config_of <;> intros) | (with_reducible apply State.coreInstr_config_of <;> intros) | (with_reducible apply State.endArrival_config_of <;> intros) | (with_reducible apply State.notice_config_of <;> intros) | (with_reducible apply State.fenceNotice_config_of <;> intros) | (with_reducible apply State.handleStep_config_of <;> intros) | (with_reducible apply State.sysStep_config_of <;> intros) | (with_reducible apply State.forAll_config_of <;> intros) | (with_reducible apply foldl_config_of <;> intros)
  all_goals simp
theorem execWaitregRetry_config (msgid : BitVec 32) (s : State) (t0 : State) (h0 : execWaitregRetry msgid s = .next t0) :
    (t0).pending = s.pending ∧ (t0).trim = s.trim ∧ (t0).fuses = s.fuses := by
  obtain ⟨_, rfl⟩ := ok_next h0
  clear h0
  try dsimp only
  repeat' first | split | (with_reducible apply State.when_config_of <;> intros) | (with_reducible apply State.sbAnswer_config_of <;> intros) | (with_reducible apply State.deliver_config_of <;> intros) | (with_reducible apply State.withLines_config_of <;> intros) | (with_reducible apply State.withReads_config_of <;> intros) | (with_reducible apply State.whenHeld_config_of <;> intros) | (with_reducible apply State.lookup_config_of <;> intros) | (with_reducible apply State.hostRead_config_of <;> intros) | (with_reducible apply State.hostWrite_config_of <;> intros) | (with_reducible apply State.delivery_config_of <;> intros) | (with_reducible apply State.pageRead_config_of <;> intros) | (with_reducible apply State.pageWrite_config_of <;> intros) | (with_reducible apply State.stewardLines_config_of <;> intros) | (with_reducible apply State.choiceLines_config_of <;> intros) | (with_reducible apply State.preloadRead_config_of <;> intros) | (with_reducible apply State.opStep_config_of <;> intros) | (with_reducible apply State.receive_config_of <;> intros) | (with_reducible apply State.onObject_config_of <;> intros) | (with_reducible apply State.endOwner_config_of <;> intros) | (with_reducible apply State.chipWide_config_of <;> intros) | (with_reducible apply State.kernelStep_config_of <;> intros) | (with_reducible apply State.coreInstr_config_of <;> intros) | (with_reducible apply State.endArrival_config_of <;> intros) | (with_reducible apply State.notice_config_of <;> intros) | (with_reducible apply State.fenceNotice_config_of <;> intros) | (with_reducible apply State.handleStep_config_of <;> intros) | (with_reducible apply State.sysStep_config_of <;> intros) | (with_reducible apply State.forAll_config_of <;> intros) | (with_reducible apply foldl_config_of <;> intros)
  all_goals simp
@[simp] theorem State.blockMsg_config (s : State) (n : Nat) :
    (State.blockMsg s n).pending = s.pending ∧ (State.blockMsg s n).trim = s.trim ∧ (State.blockMsg s n).fuses = s.fuses := by
  unfold State.blockMsg
  simp
@[simp] theorem State.tierArrives_config (s : State) (m : HiveFrame) :
    (State.tierArrives s m).pending = s.pending ∧ (State.tierArrives s m).trim = s.trim ∧ (State.tierArrives s m).fuses = s.fuses := by
  dsimp only [State.tierArrives]
  (repeat' split) <;> simp
theorem execTierarrive_config (m : HiveFrame) (s : State) (t0 : State) (h0 : execTierarrive m s = .next t0) :
    (t0).pending = s.pending ∧ (t0).trim = s.trim ∧ (t0).fuses = s.fuses := by
  obtain ⟨_, rfl⟩ := ok_next h0
  clear h0
  simp
@[simp] theorem State.tierReleased_config (s : State) (m : HiveFrame) :
    (State.tierReleased s m).pending = s.pending ∧ (State.tierReleased s m).trim = s.trim ∧ (State.tierReleased s m).fuses = s.fuses := by
  dsimp only [State.tierReleased]
  (repeat' split) <;> simp
theorem execTierrelease_config (m : HiveFrame) (s : State) (t0 : State) (h0 : execTierrelease m s = .next t0) :
    (t0).pending = s.pending ∧ (t0).trim = s.trim ∧ (t0).fuses = s.fuses := by
  obtain ⟨_, rfl⟩ := ok_next h0
  clear h0
  simp
@[simp] theorem State.dropReport_config (s : State) (n : Nat) (w0 w2 : Word) :
    (State.dropReport s n w0 w2).pending = s.pending ∧ (State.dropReport s n w0 w2).trim = s.trim ∧ (State.dropReport s n w0 w2).fuses = s.fuses := by
  unfold State.dropReport
  simp
@[simp] theorem State.misuseReport_config (s : State) (n : Nat) (w0 w2 : Word) :
    (State.misuseReport s n w0 w2).pending = s.pending ∧ (State.misuseReport s n w0 w2).trim = s.trim ∧ (State.misuseReport s n w0 w2).fuses = s.fuses := by
  unfold State.misuseReport
  simp
@[simp] theorem State.signalReport_config (s : State) (w0 w1 w2 : Word) :
    (State.signalReport s w0 w1 w2).pending = s.pending ∧ (State.signalReport s w0 w1 w2).trim = s.trim ∧ (State.signalReport s w0 w1 w2).fuses = s.fuses := by
  dsimp only [State.signalReport]
  (repeat' split) <;> simp
theorem execSignalReport_config (f : Nat) (w0 w1 w2 : Word) (s : State) (t0 : State) (h0 : execSignalReport f w0 w1 w2 s = .next t0) :
    (t0).pending = s.pending ∧ (t0).trim = s.trim ∧ (t0).fuses = s.fuses := by
  obtain ⟨_, rfl⟩ := ok_next h0
  clear h0
  try dsimp only
  repeat' first | split | (with_reducible apply State.when_config_of <;> intros) | (with_reducible apply State.sbAnswer_config_of <;> intros) | (with_reducible apply State.deliver_config_of <;> intros) | (with_reducible apply State.withLines_config_of <;> intros) | (with_reducible apply State.withReads_config_of <;> intros) | (with_reducible apply State.whenHeld_config_of <;> intros) | (with_reducible apply State.lookup_config_of <;> intros) | (with_reducible apply State.hostRead_config_of <;> intros) | (with_reducible apply State.hostWrite_config_of <;> intros) | (with_reducible apply State.delivery_config_of <;> intros) | (with_reducible apply State.pageRead_config_of <;> intros) | (with_reducible apply State.pageWrite_config_of <;> intros) | (with_reducible apply State.stewardLines_config_of <;> intros) | (with_reducible apply State.choiceLines_config_of <;> intros) | (with_reducible apply State.preloadRead_config_of <;> intros) | (with_reducible apply State.opStep_config_of <;> intros) | (with_reducible apply State.receive_config_of <;> intros) | (with_reducible apply State.onObject_config_of <;> intros) | (with_reducible apply State.endOwner_config_of <;> intros) | (with_reducible apply State.chipWide_config_of <;> intros) | (with_reducible apply State.kernelStep_config_of <;> intros) | (with_reducible apply State.coreInstr_config_of <;> intros) | (with_reducible apply State.endArrival_config_of <;> intros) | (with_reducible apply State.notice_config_of <;> intros) | (with_reducible apply State.fenceNotice_config_of <;> intros) | (with_reducible apply State.handleStep_config_of <;> intros) | (with_reducible apply State.sysStep_config_of <;> intros) | (with_reducible apply State.forAll_config_of <;> intros) | (with_reducible apply foldl_config_of <;> intros)
  all_goals simp
@[simp] theorem State.dropCommand_config (s : State) (n : Nat) :
    (State.dropCommand s n).pending = s.pending ∧ (State.dropCommand s n).trim = s.trim ∧ (State.dropCommand s n).fuses = s.fuses := by
  unfold State.dropCommand
  simp
@[simp] theorem State.settleWithdrawn_config (s : State) (q : Nat) (seq : Word) (zero : Bool) :
    (State.settleWithdrawn s q seq zero).pending = s.pending ∧ (State.settleWithdrawn s q seq zero).trim = s.trim ∧ (State.settleWithdrawn s q seq zero).fuses = s.fuses := by
  unfold State.settleWithdrawn
  (repeat' split) <;> simp
@[simp] theorem State.withdraw1_config (s : State) (n : Nat) :
    (State.withdraw1 s n).pending = s.pending ∧ (State.withdraw1 s n).trim = s.trim ∧ (State.withdraw1 s n).fuses = s.fuses := by
  unfold State.withdraw1
  (repeat' split) <;> simp
@[simp] theorem State.withdrawQueue_config (s : State) (q : Nat) (detail : BitVec 32) :
    (State.withdrawQueue s q detail).pending = s.pending ∧ (State.withdrawQueue s q detail).trim = s.trim ∧ (State.withdrawQueue s q detail).fuses = s.fuses := by
  dsimp only [State.withdrawQueue]
  (repeat' split) <;> simp
@[simp] theorem State.abortRuns_config (s : State) (p : Entry → Bool) (cause : AbortCause) :
    (State.abortRuns s p cause).pending = s.pending ∧ (State.abortRuns s p cause).trim = s.trim ∧ (State.abortRuns s p cause).fuses = s.fuses := by
  dsimp only [State.abortRuns]
  repeat' first | split | (with_reducible apply State.when_config_of <;> intros) | (with_reducible apply State.sbAnswer_config_of <;> intros) | (with_reducible apply State.deliver_config_of <;> intros) | (with_reducible apply State.withLines_config_of <;> intros) | (with_reducible apply State.withReads_config_of <;> intros) | (with_reducible apply State.whenHeld_config_of <;> intros) | (with_reducible apply State.lookup_config_of <;> intros) | (with_reducible apply State.hostRead_config_of <;> intros) | (with_reducible apply State.hostWrite_config_of <;> intros) | (with_reducible apply State.delivery_config_of <;> intros) | (with_reducible apply State.pageRead_config_of <;> intros) | (with_reducible apply State.pageWrite_config_of <;> intros) | (with_reducible apply State.stewardLines_config_of <;> intros) | (with_reducible apply State.choiceLines_config_of <;> intros) | (with_reducible apply State.preloadRead_config_of <;> intros) | (with_reducible apply State.opStep_config_of <;> intros) | (with_reducible apply State.receive_config_of <;> intros) | (with_reducible apply State.onObject_config_of <;> intros) | (with_reducible apply State.endOwner_config_of <;> intros) | (with_reducible apply State.chipWide_config_of <;> intros) | (with_reducible apply State.kernelStep_config_of <;> intros) | (with_reducible apply State.coreInstr_config_of <;> intros) | (with_reducible apply State.endArrival_config_of <;> intros) | (with_reducible apply State.notice_config_of <;> intros) | (with_reducible apply State.fenceNotice_config_of <;> intros) | (with_reducible apply State.handleStep_config_of <;> intros) | (with_reducible apply State.sysStep_config_of <;> intros) | (with_reducible apply State.forAll_config_of <;> intros) | (with_reducible apply foldl_config_of <;> intros)
  all_goals simp
@[simp] theorem State.stopSheaves_config (s : State) (ns : List Nat) :
    (State.stopSheaves s ns).pending = s.pending ∧ (State.stopSheaves s ns).trim = s.trim ∧ (State.stopSheaves s ns).fuses = s.fuses := by
  dsimp only [State.stopSheaves]
  repeat' first | split | (with_reducible apply State.when_config_of <;> intros) | (with_reducible apply State.sbAnswer_config_of <;> intros) | (with_reducible apply State.deliver_config_of <;> intros) | (with_reducible apply State.withLines_config_of <;> intros) | (with_reducible apply State.withReads_config_of <;> intros) | (with_reducible apply State.whenHeld_config_of <;> intros) | (with_reducible apply State.lookup_config_of <;> intros) | (with_reducible apply State.hostRead_config_of <;> intros) | (with_reducible apply State.hostWrite_config_of <;> intros) | (with_reducible apply State.delivery_config_of <;> intros) | (with_reducible apply State.pageRead_config_of <;> intros) | (with_reducible apply State.pageWrite_config_of <;> intros) | (with_reducible apply State.stewardLines_config_of <;> intros) | (with_reducible apply State.choiceLines_config_of <;> intros) | (with_reducible apply State.preloadRead_config_of <;> intros) | (with_reducible apply State.opStep_config_of <;> intros) | (with_reducible apply State.receive_config_of <;> intros) | (with_reducible apply State.onObject_config_of <;> intros) | (with_reducible apply State.endOwner_config_of <;> intros) | (with_reducible apply State.chipWide_config_of <;> intros) | (with_reducible apply State.kernelStep_config_of <;> intros) | (with_reducible apply State.coreInstr_config_of <;> intros) | (with_reducible apply State.endArrival_config_of <;> intros) | (with_reducible apply State.notice_config_of <;> intros) | (with_reducible apply State.fenceNotice_config_of <;> intros) | (with_reducible apply State.handleStep_config_of <;> intros) | (with_reducible apply State.sysStep_config_of <;> intros) | (with_reducible apply State.forAll_config_of <;> intros) | (with_reducible apply foldl_config_of <;> intros)
  all_goals simp
@[simp] theorem State.tearStop_config (s : State) (c : Nat) :
    (State.tearStop s c).pending = s.pending ∧ (State.tearStop s c).trim = s.trim ∧ (State.tearStop s c).fuses = s.fuses := by
  unfold State.tearStop
  simp
@[simp] theorem State.refuseSetwin_config (s : State) (c : Nat) :
    (State.refuseSetwin s c).pending = s.pending ∧ (State.refuseSetwin s c).trim = s.trim ∧ (State.refuseSetwin s c).fuses = s.fuses := by
  dsimp only [State.refuseSetwin]
  (repeat' split) <;> simp
@[simp] theorem State.tearRemove_config (s : State) (c : Nat) :
    (State.tearRemove s c).pending = s.pending ∧ (State.tearRemove s c).trim = s.trim ∧ (State.tearRemove s c).fuses = s.fuses := by
  unfold State.tearRemove
  simp
@[simp] theorem State.retireDoomed_config (s : State) (p : Node → Bool) :
    (State.retireDoomed s p).pending = s.pending ∧ (State.retireDoomed s p).trim = s.trim ∧ (State.retireDoomed s p).fuses = s.fuses := by
  dsimp only [State.retireDoomed]
  repeat' first | split | (with_reducible apply State.when_config_of <;> intros) | (with_reducible apply State.sbAnswer_config_of <;> intros) | (with_reducible apply State.deliver_config_of <;> intros) | (with_reducible apply State.withLines_config_of <;> intros) | (with_reducible apply State.withReads_config_of <;> intros) | (with_reducible apply State.whenHeld_config_of <;> intros) | (with_reducible apply State.lookup_config_of <;> intros) | (with_reducible apply State.hostRead_config_of <;> intros) | (with_reducible apply State.hostWrite_config_of <;> intros) | (with_reducible apply State.delivery_config_of <;> intros) | (with_reducible apply State.pageRead_config_of <;> intros) | (with_reducible apply State.pageWrite_config_of <;> intros) | (with_reducible apply State.stewardLines_config_of <;> intros) | (with_reducible apply State.choiceLines_config_of <;> intros) | (with_reducible apply State.preloadRead_config_of <;> intros) | (with_reducible apply State.opStep_config_of <;> intros) | (with_reducible apply State.receive_config_of <;> intros) | (with_reducible apply State.onObject_config_of <;> intros) | (with_reducible apply State.endOwner_config_of <;> intros) | (with_reducible apply State.chipWide_config_of <;> intros) | (with_reducible apply State.kernelStep_config_of <;> intros) | (with_reducible apply State.coreInstr_config_of <;> intros) | (with_reducible apply State.endArrival_config_of <;> intros) | (with_reducible apply State.notice_config_of <;> intros) | (with_reducible apply State.fenceNotice_config_of <;> intros) | (with_reducible apply State.handleStep_config_of <;> intros) | (with_reducible apply State.sysStep_config_of <;> intros) | (with_reducible apply State.forAll_config_of <;> intros) | (with_reducible apply foldl_config_of <;> intros)
  all_goals simp
@[simp] theorem State.tearDone_config (s : State) (c : Nat) :
    (State.tearDone s c).pending = s.pending ∧ (State.tearDone s c).trim = s.trim ∧ (State.tearDone s c).fuses = s.fuses := by
  unfold State.tearDone
  simp
@[simp] theorem State.teardown_config (s : State) (c : Nat) (cause : BitVec 8) :
    (State.teardown s c cause).pending = s.pending ∧ (State.teardown s c cause).trim = s.trim ∧ (State.teardown s c cause).fuses = s.fuses := by
  dsimp only [State.teardown]
  (repeat' split) <;> simp
theorem execTeardown_config (c : Nat) (s : State) (t0 : State) (h0 : execTeardown c s = .next t0) :
    (t0).pending = s.pending ∧ (t0).trim = s.trim ∧ (t0).fuses = s.fuses := by
  obtain ⟨_, rfl⟩ := ok_next h0
  clear h0
  try dsimp only
  repeat' first | split | (with_reducible apply State.when_config_of <;> intros) | (with_reducible apply State.sbAnswer_config_of <;> intros) | (with_reducible apply State.deliver_config_of <;> intros) | (with_reducible apply State.withLines_config_of <;> intros) | (with_reducible apply State.withReads_config_of <;> intros) | (with_reducible apply State.whenHeld_config_of <;> intros) | (with_reducible apply State.lookup_config_of <;> intros) | (with_reducible apply State.hostRead_config_of <;> intros) | (with_reducible apply State.hostWrite_config_of <;> intros) | (with_reducible apply State.delivery_config_of <;> intros) | (with_reducible apply State.pageRead_config_of <;> intros) | (with_reducible apply State.pageWrite_config_of <;> intros) | (with_reducible apply State.stewardLines_config_of <;> intros) | (with_reducible apply State.choiceLines_config_of <;> intros) | (with_reducible apply State.preloadRead_config_of <;> intros) | (with_reducible apply State.opStep_config_of <;> intros) | (with_reducible apply State.receive_config_of <;> intros) | (with_reducible apply State.onObject_config_of <;> intros) | (with_reducible apply State.endOwner_config_of <;> intros) | (with_reducible apply State.chipWide_config_of <;> intros) | (with_reducible apply State.kernelStep_config_of <;> intros) | (with_reducible apply State.coreInstr_config_of <;> intros) | (with_reducible apply State.endArrival_config_of <;> intros) | (with_reducible apply State.notice_config_of <;> intros) | (with_reducible apply State.fenceNotice_config_of <;> intros) | (with_reducible apply State.handleStep_config_of <;> intros) | (with_reducible apply State.sysStep_config_of <;> intros) | (with_reducible apply State.forAll_config_of <;> intros) | (with_reducible apply foldl_config_of <;> intros)
  all_goals simp
@[simp] theorem State.dropPageLatches_config (s : State) (q : Nat) :
    (State.dropPageLatches s q).pending = s.pending ∧ (State.dropPageLatches s q).trim = s.trim ∧ (State.dropPageLatches s q).fuses = s.fuses := by
  unfold State.dropPageLatches
  simp
@[simp] theorem State.queueFree_config (s : State) (q : Nat) :
    (State.queueFree s q).pending = s.pending ∧ (State.queueFree s q).trim = s.trim ∧ (State.queueFree s q).fuses = s.fuses := by
  unfold State.queueFree
  simp
@[simp] theorem State.destroyQueue_config (s : State) (q : Nat) :
    (State.destroyQueue s q).pending = s.pending ∧ (State.destroyQueue s q).trim = s.trim ∧ (State.destroyQueue s q).fuses = s.fuses := by
  dsimp only [State.destroyQueue]
  (repeat' split) <;> simp
theorem execTeardownAck_config (scope : AckScope) (port : Nat) (s : State) (t0 : State) (h0 : execTeardownAck scope port s = .next t0) :
    (t0).pending = s.pending ∧ (t0).trim = s.trim ∧ (t0).fuses = s.fuses := by
  obtain ⟨_, rfl⟩ := ok_next h0
  clear h0
  try dsimp only
  repeat' first | split | (with_reducible apply State.when_config_of <;> intros) | (with_reducible apply State.sbAnswer_config_of <;> intros) | (with_reducible apply State.deliver_config_of <;> intros) | (with_reducible apply State.withLines_config_of <;> intros) | (with_reducible apply State.withReads_config_of <;> intros) | (with_reducible apply State.whenHeld_config_of <;> intros) | (with_reducible apply State.lookup_config_of <;> intros) | (with_reducible apply State.hostRead_config_of <;> intros) | (with_reducible apply State.hostWrite_config_of <;> intros) | (with_reducible apply State.delivery_config_of <;> intros) | (with_reducible apply State.pageRead_config_of <;> intros) | (with_reducible apply State.pageWrite_config_of <;> intros) | (with_reducible apply State.stewardLines_config_of <;> intros) | (with_reducible apply State.choiceLines_config_of <;> intros) | (with_reducible apply State.preloadRead_config_of <;> intros) | (with_reducible apply State.opStep_config_of <;> intros) | (with_reducible apply State.receive_config_of <;> intros) | (with_reducible apply State.onObject_config_of <;> intros) | (with_reducible apply State.endOwner_config_of <;> intros) | (with_reducible apply State.chipWide_config_of <;> intros) | (with_reducible apply State.kernelStep_config_of <;> intros) | (with_reducible apply State.coreInstr_config_of <;> intros) | (with_reducible apply State.endArrival_config_of <;> intros) | (with_reducible apply State.notice_config_of <;> intros) | (with_reducible apply State.fenceNotice_config_of <;> intros) | (with_reducible apply State.handleStep_config_of <;> intros) | (with_reducible apply State.sysStep_config_of <;> intros) | (with_reducible apply State.forAll_config_of <;> intros) | (with_reducible apply foldl_config_of <;> intros)
  all_goals simp
@[simp] theorem State.writeLanded_config (s : State) (c : Nat) :
    (State.writeLanded s c).pending = s.pending ∧ (State.writeLanded s c).trim = s.trim ∧ (State.writeLanded s c).fuses = s.fuses := by
  dsimp only [State.writeLanded]
  (repeat' split) <;> simp
theorem execWriteAck_config (a : DrainAck) (s : State) (t0 : State) (h0 : execWriteAck a s = .next t0) :
    (t0).pending = s.pending ∧ (t0).trim = s.trim ∧ (t0).fuses = s.fuses := by
  obtain ⟨_, rfl⟩ := ok_next h0
  clear h0
  try dsimp only
  repeat' first | split | (with_reducible apply State.when_config_of <;> intros) | (with_reducible apply State.sbAnswer_config_of <;> intros) | (with_reducible apply State.deliver_config_of <;> intros) | (with_reducible apply State.withLines_config_of <;> intros) | (with_reducible apply State.withReads_config_of <;> intros) | (with_reducible apply State.whenHeld_config_of <;> intros) | (with_reducible apply State.lookup_config_of <;> intros) | (with_reducible apply State.hostRead_config_of <;> intros) | (with_reducible apply State.hostWrite_config_of <;> intros) | (with_reducible apply State.delivery_config_of <;> intros) | (with_reducible apply State.pageRead_config_of <;> intros) | (with_reducible apply State.pageWrite_config_of <;> intros) | (with_reducible apply State.stewardLines_config_of <;> intros) | (with_reducible apply State.choiceLines_config_of <;> intros) | (with_reducible apply State.preloadRead_config_of <;> intros) | (with_reducible apply State.opStep_config_of <;> intros) | (with_reducible apply State.receive_config_of <;> intros) | (with_reducible apply State.onObject_config_of <;> intros) | (with_reducible apply State.endOwner_config_of <;> intros) | (with_reducible apply State.chipWide_config_of <;> intros) | (with_reducible apply State.kernelStep_config_of <;> intros) | (with_reducible apply State.coreInstr_config_of <;> intros) | (with_reducible apply State.endArrival_config_of <;> intros) | (with_reducible apply State.notice_config_of <;> intros) | (with_reducible apply State.fenceNotice_config_of <;> intros) | (with_reducible apply State.handleStep_config_of <;> intros) | (with_reducible apply State.sysStep_config_of <;> intros) | (with_reducible apply State.forAll_config_of <;> intros) | (with_reducible apply foldl_config_of <;> intros)
  all_goals simp
theorem execQuarantine_config (c : Nat) (s : State) (t0 : State) (h0 : execQuarantine c s = .next t0) :
    (t0).pending = s.pending ∧ (t0).trim = s.trim ∧ (t0).fuses = s.fuses := by
  obtain ⟨_, rfl⟩ := ok_next h0
  clear h0
  try dsimp only
  repeat' first | split | (with_reducible apply State.when_config_of <;> intros) | (with_reducible apply State.sbAnswer_config_of <;> intros) | (with_reducible apply State.deliver_config_of <;> intros) | (with_reducible apply State.withLines_config_of <;> intros) | (with_reducible apply State.withReads_config_of <;> intros) | (with_reducible apply State.whenHeld_config_of <;> intros) | (with_reducible apply State.lookup_config_of <;> intros) | (with_reducible apply State.hostRead_config_of <;> intros) | (with_reducible apply State.hostWrite_config_of <;> intros) | (with_reducible apply State.delivery_config_of <;> intros) | (with_reducible apply State.pageRead_config_of <;> intros) | (with_reducible apply State.pageWrite_config_of <;> intros) | (with_reducible apply State.stewardLines_config_of <;> intros) | (with_reducible apply State.choiceLines_config_of <;> intros) | (with_reducible apply State.preloadRead_config_of <;> intros) | (with_reducible apply State.opStep_config_of <;> intros) | (with_reducible apply State.receive_config_of <;> intros) | (with_reducible apply State.onObject_config_of <;> intros) | (with_reducible apply State.endOwner_config_of <;> intros) | (with_reducible apply State.chipWide_config_of <;> intros) | (with_reducible apply State.kernelStep_config_of <;> intros) | (with_reducible apply State.coreInstr_config_of <;> intros) | (with_reducible apply State.endArrival_config_of <;> intros) | (with_reducible apply State.notice_config_of <;> intros) | (with_reducible apply State.fenceNotice_config_of <;> intros) | (with_reducible apply State.handleStep_config_of <;> intros) | (with_reducible apply State.sysStep_config_of <;> intros) | (with_reducible apply State.forAll_config_of <;> intros) | (with_reducible apply foldl_config_of <;> intros)
  all_goals simp
@[simp] theorem State.loadCheckers_config (s : State) (c : Nat) :
    (State.loadCheckers s c).pending = s.pending ∧ (State.loadCheckers s c).trim = s.trim ∧ (State.loadCheckers s c).fuses = s.fuses := by
  unfold State.loadCheckers
  simp
theorem execWindowViolation_config (p : PortReport) (addr : Word) (write : Bool) (s : State) (t0 : State) (h0 : execWindowViolation p addr write s = .next t0) :
    (t0).pending = s.pending ∧ (t0).trim = s.trim ∧ (t0).fuses = s.fuses := by
  obtain ⟨_, rfl⟩ := ok_next h0
  clear h0
  refine State.when_config _ _ _ fun u => ?_
  refine State.reportFor_config _ _ _ _ fun r => ?_
  try dsimp only
  (repeat' split) <;> simp
theorem execRemoteWriteDrop_config (f c : Nat) (addr : Word) (s : State) (t0 : State) (h0 : execRemoteWriteDrop f c addr s = .next t0) :
    (t0).pending = s.pending ∧ (t0).trim = s.trim ∧ (t0).fuses = s.fuses := by
  obtain ⟨_, rfl⟩ := ok_next h0
  clear h0
  try dsimp only
  repeat' first | split | (with_reducible apply State.when_config_of <;> intros) | (with_reducible apply State.sbAnswer_config_of <;> intros) | (with_reducible apply State.deliver_config_of <;> intros) | (with_reducible apply State.withLines_config_of <;> intros) | (with_reducible apply State.withReads_config_of <;> intros) | (with_reducible apply State.whenHeld_config_of <;> intros) | (with_reducible apply State.lookup_config_of <;> intros) | (with_reducible apply State.hostRead_config_of <;> intros) | (with_reducible apply State.hostWrite_config_of <;> intros) | (with_reducible apply State.delivery_config_of <;> intros) | (with_reducible apply State.pageRead_config_of <;> intros) | (with_reducible apply State.pageWrite_config_of <;> intros) | (with_reducible apply State.stewardLines_config_of <;> intros) | (with_reducible apply State.choiceLines_config_of <;> intros) | (with_reducible apply State.preloadRead_config_of <;> intros) | (with_reducible apply State.opStep_config_of <;> intros) | (with_reducible apply State.receive_config_of <;> intros) | (with_reducible apply State.onObject_config_of <;> intros) | (with_reducible apply State.endOwner_config_of <;> intros) | (with_reducible apply State.chipWide_config_of <;> intros) | (with_reducible apply State.kernelStep_config_of <;> intros) | (with_reducible apply State.coreInstr_config_of <;> intros) | (with_reducible apply State.endArrival_config_of <;> intros) | (with_reducible apply State.notice_config_of <;> intros) | (with_reducible apply State.fenceNotice_config_of <;> intros) | (with_reducible apply State.handleStep_config_of <;> intros) | (with_reducible apply State.sysStep_config_of <;> intros) | (with_reducible apply State.forAll_config_of <;> intros) | (with_reducible apply foldl_config_of <;> intros)
  all_goals simp
@[simp] theorem State.requestAbort_config (s : State) (n : Nat) :
    (State.requestAbort s n).pending = s.pending ∧ (State.requestAbort s n).trim = s.trim ∧ (State.requestAbort s n).fuses = s.fuses := by
  unfold State.requestAbort
  simp
@[simp] theorem State.abortWaiting_config (s : State) (n : Nat) (d : Node) :
    (State.abortWaiting s n d).pending = s.pending ∧ (State.abortWaiting s n d).trim = s.trim ∧ (State.abortWaiting s n d).fuses = s.fuses := by
  unfold State.abortWaiting
  (repeat' split) <;> simp
@[simp] theorem State.abortTemplate_config (s : State) (n : Nat) (d : Node) :
    (State.abortTemplate s n d).pending = s.pending ∧ (State.abortTemplate s n d).trim = s.trim ∧ (State.abortTemplate s n d).fuses = s.fuses := by
  dsimp only [State.abortTemplate]
  (repeat' split) <;> simp
@[simp] theorem State.abortSheaf_config (s : State) (n : Nat) :
    (State.abortSheaf s n).pending = s.pending ∧ (State.abortSheaf s n).trim = s.trim ∧ (State.abortSheaf s n).fuses = s.fuses := by
  unfold State.abortSheaf
  (repeat' split) <;> simp
@[simp] theorem State.abortCall_config (s : State) (n : Nat) (d : Node) :
    (State.abortCall s n d).pending = s.pending ∧ (State.abortCall s n d).trim = s.trim ∧ (State.abortCall s n d).fuses = s.fuses := by
  unfold State.abortCall
  (repeat' split) <;> simp
@[simp] theorem State.abortQueue_config (s : State) (q : Nat) :
    (State.abortQueue s q).pending = s.pending ∧ (State.abortQueue s q).trim = s.trim ∧ (State.abortQueue s q).fuses = s.fuses := by
  dsimp only [State.abortQueue]
  repeat' first | split | (with_reducible apply State.when_config_of <;> intros) | (with_reducible apply State.sbAnswer_config_of <;> intros) | (with_reducible apply State.deliver_config_of <;> intros) | (with_reducible apply State.withLines_config_of <;> intros) | (with_reducible apply State.withReads_config_of <;> intros) | (with_reducible apply State.whenHeld_config_of <;> intros) | (with_reducible apply State.lookup_config_of <;> intros) | (with_reducible apply State.hostRead_config_of <;> intros) | (with_reducible apply State.hostWrite_config_of <;> intros) | (with_reducible apply State.delivery_config_of <;> intros) | (with_reducible apply State.pageRead_config_of <;> intros) | (with_reducible apply State.pageWrite_config_of <;> intros) | (with_reducible apply State.stewardLines_config_of <;> intros) | (with_reducible apply State.choiceLines_config_of <;> intros) | (with_reducible apply State.preloadRead_config_of <;> intros) | (with_reducible apply State.opStep_config_of <;> intros) | (with_reducible apply State.receive_config_of <;> intros) | (with_reducible apply State.onObject_config_of <;> intros) | (with_reducible apply State.endOwner_config_of <;> intros) | (with_reducible apply State.chipWide_config_of <;> intros) | (with_reducible apply State.kernelStep_config_of <;> intros) | (with_reducible apply State.coreInstr_config_of <;> intros) | (with_reducible apply State.endArrival_config_of <;> intros) | (with_reducible apply State.notice_config_of <;> intros) | (with_reducible apply State.fenceNotice_config_of <;> intros) | (with_reducible apply State.handleStep_config_of <;> intros) | (with_reducible apply State.sysStep_config_of <;> intros) | (with_reducible apply State.forAll_config_of <;> intros) | (with_reducible apply foldl_config_of <;> intros)
  all_goals (try simp)
  all_goals (repeat' first | split | (with_reducible apply State.when_config_of <;> intros) | (with_reducible apply State.sbAnswer_config_of <;> intros) | (with_reducible apply State.deliver_config_of <;> intros) | (with_reducible apply State.withLines_config_of <;> intros) | (with_reducible apply State.withReads_config_of <;> intros) | (with_reducible apply State.whenHeld_config_of <;> intros) | (with_reducible apply State.lookup_config_of <;> intros) | (with_reducible apply State.hostRead_config_of <;> intros) | (with_reducible apply State.hostWrite_config_of <;> intros) | (with_reducible apply State.delivery_config_of <;> intros) | (with_reducible apply State.pageRead_config_of <;> intros) | (with_reducible apply State.pageWrite_config_of <;> intros) | (with_reducible apply State.stewardLines_config_of <;> intros) | (with_reducible apply State.choiceLines_config_of <;> intros) | (with_reducible apply State.preloadRead_config_of <;> intros) | (with_reducible apply State.opStep_config_of <;> intros) | (with_reducible apply State.receive_config_of <;> intros) | (with_reducible apply State.onObject_config_of <;> intros) | (with_reducible apply State.endOwner_config_of <;> intros) | (with_reducible apply State.chipWide_config_of <;> intros) | (with_reducible apply State.kernelStep_config_of <;> intros) | (with_reducible apply State.coreInstr_config_of <;> intros) | (with_reducible apply State.endArrival_config_of <;> intros) | (with_reducible apply State.notice_config_of <;> intros) | (with_reducible apply State.fenceNotice_config_of <;> intros) | (with_reducible apply State.handleStep_config_of <;> intros) | (with_reducible apply State.sysStep_config_of <;> intros) | (with_reducible apply State.forAll_config_of <;> intros) | (with_reducible apply foldl_config_of <;> intros))
  all_goals simp
@[simp] theorem State.timerFires_config (s : State) (n : Nat) (d : Node) :
    (State.timerFires s n d).pending = s.pending ∧ (State.timerFires s n d).trim = s.trim ∧ (State.timerFires s n d).fuses = s.fuses := by
  unfold State.timerFires
  (repeat' split) <;> simp
theorem execQueueTimeout_config (n : Nat) (s : State) (t0 : State) (h0 : execQueueTimeout n s = .next t0) :
    (t0).pending = s.pending ∧ (t0).trim = s.trim ∧ (t0).fuses = s.fuses := by
  obtain ⟨_, rfl⟩ := ok_next h0
  clear h0
  try dsimp only
  repeat' first | split | (with_reducible apply State.when_config_of <;> intros) | (with_reducible apply State.sbAnswer_config_of <;> intros) | (with_reducible apply State.deliver_config_of <;> intros) | (with_reducible apply State.withLines_config_of <;> intros) | (with_reducible apply State.withReads_config_of <;> intros) | (with_reducible apply State.whenHeld_config_of <;> intros) | (with_reducible apply State.lookup_config_of <;> intros) | (with_reducible apply State.hostRead_config_of <;> intros) | (with_reducible apply State.hostWrite_config_of <;> intros) | (with_reducible apply State.delivery_config_of <;> intros) | (with_reducible apply State.pageRead_config_of <;> intros) | (with_reducible apply State.pageWrite_config_of <;> intros) | (with_reducible apply State.stewardLines_config_of <;> intros) | (with_reducible apply State.choiceLines_config_of <;> intros) | (with_reducible apply State.preloadRead_config_of <;> intros) | (with_reducible apply State.opStep_config_of <;> intros) | (with_reducible apply State.receive_config_of <;> intros) | (with_reducible apply State.onObject_config_of <;> intros) | (with_reducible apply State.endOwner_config_of <;> intros) | (with_reducible apply State.chipWide_config_of <;> intros) | (with_reducible apply State.kernelStep_config_of <;> intros) | (with_reducible apply State.coreInstr_config_of <;> intros) | (with_reducible apply State.endArrival_config_of <;> intros) | (with_reducible apply State.notice_config_of <;> intros) | (with_reducible apply State.fenceNotice_config_of <;> intros) | (with_reducible apply State.handleStep_config_of <;> intros) | (with_reducible apply State.sysStep_config_of <;> intros) | (with_reducible apply State.forAll_config_of <;> intros) | (with_reducible apply foldl_config_of <;> intros)
  all_goals simp
@[simp] theorem State.auditCmd_config (s : State) (d : Node) (ignored : Bool) :
    (State.auditCmd s d ignored).pending = s.pending ∧ (State.auditCmd s d ignored).trim = s.trim ∧ (State.auditCmd s d ignored).fuses = s.fuses := by
  unfold State.auditCmd
  simp
@[simp] theorem State.chipWide_config (s : State) (n : Nat) (d : Node) (consent : Bool) (cs : List (Bool × Nat × Nat)) (f : State → State) (h5 : ∀ (x0 : State), (f x0).pending = x0.pending ∧ (f x0).trim = x0.trim ∧ (f x0).fuses = x0.fuses) :
    (State.chipWide s n d consent cs f).pending = s.pending ∧ (State.chipWide s n d consent cs f).trim = s.trim ∧ (State.chipWide s n d consent cs f).fuses = s.fuses := by
  unfold State.chipWide
  (repeat' split) <;> simp [*]
theorem State.chipWide_config_of (s : State) (n : Nat) (d : Node) (consent : Bool) (cs : List (Bool × Nat × Nat)) (f : State → State) (u : State) (h5 : ∀ (x0 : State), (f x0).pending = x0.pending ∧ (f x0).trim = x0.trim ∧ (f x0).fuses = x0.fuses) (hu : (s).pending = u.pending ∧ (s).trim = u.trim ∧ (s).fuses = u.fuses) :
    (State.chipWide s n d consent cs f).pending = u.pending ∧ (State.chipWide s n d consent cs f).trim = u.trim ∧ (State.chipWide s n d consent cs f).fuses = u.fuses := by
  have := State.chipWide_config s n d consent cs f h5
  simp only [this, hu, and_self]
@[simp] theorem State.kernelStep_config (s : State) (n o sub : Nat) (f : State → Node → State) (h4 : ∀ (x0 : State) (x1 : Node), (f x0 x1).pending = x0.pending ∧ (f x0 x1).trim = x0.trim ∧ (f x0 x1).fuses = x0.fuses) :
    (State.kernelStep s n o sub f).pending = s.pending ∧ (State.kernelStep s n o sub f).trim = s.trim ∧ (State.kernelStep s n o sub f).fuses = s.fuses := by
  unfold State.kernelStep
  simp [*]
theorem State.kernelStep_config_of (s : State) (n o sub : Nat) (f : State → Node → State) (u : State) (h4 : ∀ (x0 : State) (x1 : Node), (f x0 x1).pending = x0.pending ∧ (f x0 x1).trim = x0.trim ∧ (f x0 x1).fuses = x0.fuses) (hu : (s).pending = u.pending ∧ (s).trim = u.trim ∧ (s).fuses = u.fuses) :
    (State.kernelStep s n o sub f).pending = u.pending ∧ (State.kernelStep s n o sub f).trim = u.trim ∧ (State.kernelStep s n o sub f).fuses = u.fuses := by
  have := State.kernelStep_config s n o sub f h4
  simp only [this, hu, and_self]
@[simp] theorem State.createQueue_config (s : State) (n : Nat) (d : Node) :
    (State.createQueue s n d).pending = s.pending ∧ (State.createQueue s n d).trim = s.trim ∧ (State.createQueue s n d).fuses = s.fuses := by
  dsimp only [State.createQueue]
  (repeat' split) <;> simp
theorem execQctlCreate_config (n : Nat) (s : State) (t0 : State) (h0 : execQctlCreate n s = .next t0) :
    (t0).pending = s.pending ∧ (t0).trim = s.trim ∧ (t0).fuses = s.fuses := by
  obtain ⟨_, rfl⟩ := ok_next h0
  clear h0
  simp
theorem execQctlDestroy_config (n : Nat) (s : State) (t0 : State) (h0 : execQctlDestroy n s = .next t0) :
    (t0).pending = s.pending ∧ (t0).trim = s.trim ∧ (t0).fuses = s.fuses := by
  obtain ⟨_, rfl⟩ := ok_next h0
  clear h0
  try dsimp only
  repeat' first | split | (with_reducible apply State.when_config_of <;> intros) | (with_reducible apply State.sbAnswer_config_of <;> intros) | (with_reducible apply State.deliver_config_of <;> intros) | (with_reducible apply State.withLines_config_of <;> intros) | (with_reducible apply State.withReads_config_of <;> intros) | (with_reducible apply State.whenHeld_config_of <;> intros) | (with_reducible apply State.lookup_config_of <;> intros) | (with_reducible apply State.hostRead_config_of <;> intros) | (with_reducible apply State.hostWrite_config_of <;> intros) | (with_reducible apply State.delivery_config_of <;> intros) | (with_reducible apply State.pageRead_config_of <;> intros) | (with_reducible apply State.pageWrite_config_of <;> intros) | (with_reducible apply State.stewardLines_config_of <;> intros) | (with_reducible apply State.choiceLines_config_of <;> intros) | (with_reducible apply State.preloadRead_config_of <;> intros) | (with_reducible apply State.opStep_config_of <;> intros) | (with_reducible apply State.receive_config_of <;> intros) | (with_reducible apply State.onObject_config_of <;> intros) | (with_reducible apply State.endOwner_config_of <;> intros) | (with_reducible apply State.chipWide_config_of <;> intros) | (with_reducible apply State.kernelStep_config_of <;> intros) | (with_reducible apply State.coreInstr_config_of <;> intros) | (with_reducible apply State.endArrival_config_of <;> intros) | (with_reducible apply State.notice_config_of <;> intros) | (with_reducible apply State.fenceNotice_config_of <;> intros) | (with_reducible apply State.handleStep_config_of <;> intros) | (with_reducible apply State.sysStep_config_of <;> intros) | (with_reducible apply State.forAll_config_of <;> intros) | (with_reducible apply foldl_config_of <;> intros)
  all_goals simp
theorem execQctlRestart_config (n : Nat) (s : State) (t0 : State) (h0 : execQctlRestart n s = .next t0) :
    (t0).pending = s.pending ∧ (t0).trim = s.trim ∧ (t0).fuses = s.fuses := by
  obtain ⟨_, rfl⟩ := ok_next h0
  clear h0
  try dsimp only
  repeat' first | split | (with_reducible apply State.when_config_of <;> intros) | (with_reducible apply State.sbAnswer_config_of <;> intros) | (with_reducible apply State.deliver_config_of <;> intros) | (with_reducible apply State.withLines_config_of <;> intros) | (with_reducible apply State.withReads_config_of <;> intros) | (with_reducible apply State.whenHeld_config_of <;> intros) | (with_reducible apply State.lookup_config_of <;> intros) | (with_reducible apply State.hostRead_config_of <;> intros) | (with_reducible apply State.hostWrite_config_of <;> intros) | (with_reducible apply State.delivery_config_of <;> intros) | (with_reducible apply State.pageRead_config_of <;> intros) | (with_reducible apply State.pageWrite_config_of <;> intros) | (with_reducible apply State.stewardLines_config_of <;> intros) | (with_reducible apply State.choiceLines_config_of <;> intros) | (with_reducible apply State.preloadRead_config_of <;> intros) | (with_reducible apply State.opStep_config_of <;> intros) | (with_reducible apply State.receive_config_of <;> intros) | (with_reducible apply State.onObject_config_of <;> intros) | (with_reducible apply State.endOwner_config_of <;> intros) | (with_reducible apply State.chipWide_config_of <;> intros) | (with_reducible apply State.kernelStep_config_of <;> intros) | (with_reducible apply State.coreInstr_config_of <;> intros) | (with_reducible apply State.endArrival_config_of <;> intros) | (with_reducible apply State.notice_config_of <;> intros) | (with_reducible apply State.fenceNotice_config_of <;> intros) | (with_reducible apply State.handleStep_config_of <;> intros) | (with_reducible apply State.sysStep_config_of <;> intros) | (with_reducible apply State.forAll_config_of <;> intros) | (with_reducible apply foldl_config_of <;> intros)
  all_goals simp
theorem execCtxctlCreate_config (n : Nat) (s : State) (t0 : State) (h0 : execCtxctlCreate n s = .next t0) :
    (t0).pending = s.pending ∧ (t0).trim = s.trim ∧ (t0).fuses = s.fuses := by
  obtain ⟨_, rfl⟩ := ok_next h0
  clear h0
  try dsimp only
  repeat' first | split | (with_reducible apply State.when_config_of <;> intros) | (with_reducible apply State.sbAnswer_config_of <;> intros) | (with_reducible apply State.deliver_config_of <;> intros) | (with_reducible apply State.withLines_config_of <;> intros) | (with_reducible apply State.withReads_config_of <;> intros) | (with_reducible apply State.whenHeld_config_of <;> intros) | (with_reducible apply State.lookup_config_of <;> intros) | (with_reducible apply State.hostRead_config_of <;> intros) | (with_reducible apply State.hostWrite_config_of <;> intros) | (with_reducible apply State.delivery_config_of <;> intros) | (with_reducible apply State.pageRead_config_of <;> intros) | (with_reducible apply State.pageWrite_config_of <;> intros) | (with_reducible apply State.stewardLines_config_of <;> intros) | (with_reducible apply State.choiceLines_config_of <;> intros) | (with_reducible apply State.preloadRead_config_of <;> intros) | (with_reducible apply State.opStep_config_of <;> intros) | (with_reducible apply State.receive_config_of <;> intros) | (with_reducible apply State.onObject_config_of <;> intros) | (with_reducible apply State.endOwner_config_of <;> intros) | (with_reducible apply State.chipWide_config_of <;> intros) | (with_reducible apply State.kernelStep_config_of <;> intros) | (with_reducible apply State.coreInstr_config_of <;> intros) | (with_reducible apply State.endArrival_config_of <;> intros) | (with_reducible apply State.notice_config_of <;> intros) | (with_reducible apply State.fenceNotice_config_of <;> intros) | (with_reducible apply State.handleStep_config_of <;> intros) | (with_reducible apply State.sysStep_config_of <;> intros) | (with_reducible apply State.forAll_config_of <;> intros) | (with_reducible apply foldl_config_of <;> intros)
  all_goals simp
theorem execCtxctlTeardown_config (n : Nat) (s : State) (t0 : State) (h0 : execCtxctlTeardown n s = .next t0) :
    (t0).pending = s.pending ∧ (t0).trim = s.trim ∧ (t0).fuses = s.fuses := by
  obtain ⟨_, rfl⟩ := ok_next h0
  clear h0
  try dsimp only
  repeat' first | split | (with_reducible apply State.when_config_of <;> intros) | (with_reducible apply State.sbAnswer_config_of <;> intros) | (with_reducible apply State.deliver_config_of <;> intros) | (with_reducible apply State.withLines_config_of <;> intros) | (with_reducible apply State.withReads_config_of <;> intros) | (with_reducible apply State.whenHeld_config_of <;> intros) | (with_reducible apply State.lookup_config_of <;> intros) | (with_reducible apply State.hostRead_config_of <;> intros) | (with_reducible apply State.hostWrite_config_of <;> intros) | (with_reducible apply State.delivery_config_of <;> intros) | (with_reducible apply State.pageRead_config_of <;> intros) | (with_reducible apply State.pageWrite_config_of <;> intros) | (with_reducible apply State.stewardLines_config_of <;> intros) | (with_reducible apply State.choiceLines_config_of <;> intros) | (with_reducible apply State.preloadRead_config_of <;> intros) | (with_reducible apply State.opStep_config_of <;> intros) | (with_reducible apply State.receive_config_of <;> intros) | (with_reducible apply State.onObject_config_of <;> intros) | (with_reducible apply State.endOwner_config_of <;> intros) | (with_reducible apply State.chipWide_config_of <;> intros) | (with_reducible apply State.kernelStep_config_of <;> intros) | (with_reducible apply State.coreInstr_config_of <;> intros) | (with_reducible apply State.endArrival_config_of <;> intros) | (with_reducible apply State.notice_config_of <;> intros) | (with_reducible apply State.fenceNotice_config_of <;> intros) | (with_reducible apply State.handleStep_config_of <;> intros) | (with_reducible apply State.sysStep_config_of <;> intros) | (with_reducible apply State.forAll_config_of <;> intros) | (with_reducible apply foldl_config_of <;> intros)
  all_goals simp
theorem execCtxctlSetwindows_config (n : Nat) (s : State) (t0 : State) (h0 : execCtxctlSetwindows n s = .next t0) :
    (t0).pending = s.pending ∧ (t0).trim = s.trim ∧ (t0).fuses = s.fuses := by
  obtain ⟨_, rfl⟩ := ok_next h0
  clear h0
  try dsimp only
  repeat' first | split | (with_reducible apply State.when_config_of <;> intros) | (with_reducible apply State.sbAnswer_config_of <;> intros) | (with_reducible apply State.deliver_config_of <;> intros) | (with_reducible apply State.withLines_config_of <;> intros) | (with_reducible apply State.withReads_config_of <;> intros) | (with_reducible apply State.whenHeld_config_of <;> intros) | (with_reducible apply State.lookup_config_of <;> intros) | (with_reducible apply State.hostRead_config_of <;> intros) | (with_reducible apply State.hostWrite_config_of <;> intros) | (with_reducible apply State.delivery_config_of <;> intros) | (with_reducible apply State.pageRead_config_of <;> intros) | (with_reducible apply State.pageWrite_config_of <;> intros) | (with_reducible apply State.stewardLines_config_of <;> intros) | (with_reducible apply State.choiceLines_config_of <;> intros) | (with_reducible apply State.preloadRead_config_of <;> intros) | (with_reducible apply State.opStep_config_of <;> intros) | (with_reducible apply State.receive_config_of <;> intros) | (with_reducible apply State.onObject_config_of <;> intros) | (with_reducible apply State.endOwner_config_of <;> intros) | (with_reducible apply State.chipWide_config_of <;> intros) | (with_reducible apply State.kernelStep_config_of <;> intros) | (with_reducible apply State.coreInstr_config_of <;> intros) | (with_reducible apply State.endArrival_config_of <;> intros) | (with_reducible apply State.notice_config_of <;> intros) | (with_reducible apply State.fenceNotice_config_of <;> intros) | (with_reducible apply State.handleStep_config_of <;> intros) | (with_reducible apply State.sysStep_config_of <;> intros) | (with_reducible apply State.forAll_config_of <;> intros) | (with_reducible apply foldl_config_of <;> intros)
  all_goals simp
theorem execWindowCheckersLoaded_config (n : Nat) (s : State) (t0 : State) (h0 : execWindowCheckersLoaded n s = .next t0) :
    (t0).pending = s.pending ∧ (t0).trim = s.trim ∧ (t0).fuses = s.fuses := by
  obtain ⟨_, rfl⟩ := ok_next h0
  clear h0
  try dsimp only
  repeat' first | split | (with_reducible apply State.when_config_of <;> intros) | (with_reducible apply State.sbAnswer_config_of <;> intros) | (with_reducible apply State.deliver_config_of <;> intros) | (with_reducible apply State.withLines_config_of <;> intros) | (with_reducible apply State.withReads_config_of <;> intros) | (with_reducible apply State.whenHeld_config_of <;> intros) | (with_reducible apply State.lookup_config_of <;> intros) | (with_reducible apply State.hostRead_config_of <;> intros) | (with_reducible apply State.hostWrite_config_of <;> intros) | (with_reducible apply State.delivery_config_of <;> intros) | (with_reducible apply State.pageRead_config_of <;> intros) | (with_reducible apply State.pageWrite_config_of <;> intros) | (with_reducible apply State.stewardLines_config_of <;> intros) | (with_reducible apply State.choiceLines_config_of <;> intros) | (with_reducible apply State.preloadRead_config_of <;> intros) | (with_reducible apply State.opStep_config_of <;> intros) | (with_reducible apply State.receive_config_of <;> intros) | (with_reducible apply State.onObject_config_of <;> intros) | (with_reducible apply State.endOwner_config_of <;> intros) | (with_reducible apply State.chipWide_config_of <;> intros) | (with_reducible apply State.kernelStep_config_of <;> intros) | (with_reducible apply State.coreInstr_config_of <;> intros) | (with_reducible apply State.endArrival_config_of <;> intros) | (with_reducible apply State.notice_config_of <;> intros) | (with_reducible apply State.fenceNotice_config_of <;> intros) | (with_reducible apply State.handleStep_config_of <;> intros) | (with_reducible apply State.sysStep_config_of <;> intros) | (with_reducible apply State.forAll_config_of <;> intros) | (with_reducible apply foldl_config_of <;> intros)
  all_goals simp
theorem execCtxctlReadacct_config (n : Nat) (s : State) (t0 : State) (h0 : execCtxctlReadacct n s = .next t0) :
    (t0).pending = s.pending ∧ (t0).trim = s.trim ∧ (t0).fuses = s.fuses := by
  obtain ⟨_, rfl⟩ := ok_next h0
  clear h0
  try dsimp only
  repeat' first | split | (with_reducible apply State.when_config_of <;> intros) | (with_reducible apply State.sbAnswer_config_of <;> intros) | (with_reducible apply State.deliver_config_of <;> intros) | (with_reducible apply State.withLines_config_of <;> intros) | (with_reducible apply State.withReads_config_of <;> intros) | (with_reducible apply State.whenHeld_config_of <;> intros) | (with_reducible apply State.lookup_config_of <;> intros) | (with_reducible apply State.hostRead_config_of <;> intros) | (with_reducible apply State.hostWrite_config_of <;> intros) | (with_reducible apply State.delivery_config_of <;> intros) | (with_reducible apply State.pageRead_config_of <;> intros) | (with_reducible apply State.pageWrite_config_of <;> intros) | (with_reducible apply State.stewardLines_config_of <;> intros) | (with_reducible apply State.choiceLines_config_of <;> intros) | (with_reducible apply State.preloadRead_config_of <;> intros) | (with_reducible apply State.opStep_config_of <;> intros) | (with_reducible apply State.receive_config_of <;> intros) | (with_reducible apply State.onObject_config_of <;> intros) | (with_reducible apply State.endOwner_config_of <;> intros) | (with_reducible apply State.chipWide_config_of <;> intros) | (with_reducible apply State.kernelStep_config_of <;> intros) | (with_reducible apply State.coreInstr_config_of <;> intros) | (with_reducible apply State.endArrival_config_of <;> intros) | (with_reducible apply State.notice_config_of <;> intros) | (with_reducible apply State.fenceNotice_config_of <;> intros) | (with_reducible apply State.handleStep_config_of <;> intros) | (with_reducible apply State.sysStep_config_of <;> intros) | (with_reducible apply State.forAll_config_of <;> intros) | (with_reducible apply foldl_config_of <;> intros)
  all_goals simp
@[simp] theorem State.loadSlot_config (s : State) (n i length : Nat) (img : List (BitVec 32)) :
    (State.loadSlot s n i length img).pending = s.pending ∧ (State.loadSlot s n i length img).trim = s.trim ∧ (State.loadSlot s n i length img).fuses = s.fuses := by
  unfold State.loadSlot
  simp
@[simp] theorem State.readImage_config (s : State) (d : Node) :
    (State.readImage s d).pending = s.pending ∧ (State.readImage s d).trim = s.trim ∧ (State.readImage s d).fuses = s.fuses := by
  unfold State.readImage
  simp
theorem execLoadroutine_config (n : Nat) (s : State) (t0 : State) (h0 : execLoadroutine n s = .next t0) :
    (t0).pending = s.pending ∧ (t0).trim = s.trim ∧ (t0).fuses = s.fuses := by
  obtain ⟨_, rfl⟩ := ok_next h0
  clear h0
  try dsimp only
  repeat' first | split | (with_reducible apply State.when_config_of <;> intros) | (with_reducible apply State.sbAnswer_config_of <;> intros) | (with_reducible apply State.deliver_config_of <;> intros) | (with_reducible apply State.withLines_config_of <;> intros) | (with_reducible apply State.withReads_config_of <;> intros) | (with_reducible apply State.whenHeld_config_of <;> intros) | (with_reducible apply State.lookup_config_of <;> intros) | (with_reducible apply State.hostRead_config_of <;> intros) | (with_reducible apply State.hostWrite_config_of <;> intros) | (with_reducible apply State.delivery_config_of <;> intros) | (with_reducible apply State.pageRead_config_of <;> intros) | (with_reducible apply State.pageWrite_config_of <;> intros) | (with_reducible apply State.stewardLines_config_of <;> intros) | (with_reducible apply State.choiceLines_config_of <;> intros) | (with_reducible apply State.preloadRead_config_of <;> intros) | (with_reducible apply State.opStep_config_of <;> intros) | (with_reducible apply State.receive_config_of <;> intros) | (with_reducible apply State.onObject_config_of <;> intros) | (with_reducible apply State.endOwner_config_of <;> intros) | (with_reducible apply State.chipWide_config_of <;> intros) | (with_reducible apply State.kernelStep_config_of <;> intros) | (with_reducible apply State.coreInstr_config_of <;> intros) | (with_reducible apply State.endArrival_config_of <;> intros) | (with_reducible apply State.notice_config_of <;> intros) | (with_reducible apply State.fenceNotice_config_of <;> intros) | (with_reducible apply State.handleStep_config_of <;> intros) | (with_reducible apply State.sysStep_config_of <;> intros) | (with_reducible apply State.forAll_config_of <;> intros) | (with_reducible apply foldl_config_of <;> intros)
  all_goals simp
theorem execRoutineImageRead_config (n : Nat) (a : FabricReply) (s : State) (t0 : State) (h0 : execRoutineImageRead n a s = .next t0) :
    (t0).pending = s.pending ∧ (t0).trim = s.trim ∧ (t0).fuses = s.fuses := by
  obtain ⟨_, rfl⟩ := ok_next h0
  clear h0
  try dsimp only
  repeat' first | split | (with_reducible apply State.when_config_of <;> intros) | (with_reducible apply State.sbAnswer_config_of <;> intros) | (with_reducible apply State.deliver_config_of <;> intros) | (with_reducible apply State.withLines_config_of <;> intros) | (with_reducible apply State.withReads_config_of <;> intros) | (with_reducible apply State.whenHeld_config_of <;> intros) | (with_reducible apply State.lookup_config_of <;> intros) | (with_reducible apply State.hostRead_config_of <;> intros) | (with_reducible apply State.hostWrite_config_of <;> intros) | (with_reducible apply State.delivery_config_of <;> intros) | (with_reducible apply State.pageRead_config_of <;> intros) | (with_reducible apply State.pageWrite_config_of <;> intros) | (with_reducible apply State.stewardLines_config_of <;> intros) | (with_reducible apply State.choiceLines_config_of <;> intros) | (with_reducible apply State.preloadRead_config_of <;> intros) | (with_reducible apply State.opStep_config_of <;> intros) | (with_reducible apply State.receive_config_of <;> intros) | (with_reducible apply State.onObject_config_of <;> intros) | (with_reducible apply State.endOwner_config_of <;> intros) | (with_reducible apply State.chipWide_config_of <;> intros) | (with_reducible apply State.kernelStep_config_of <;> intros) | (with_reducible apply State.coreInstr_config_of <;> intros) | (with_reducible apply State.endArrival_config_of <;> intros) | (with_reducible apply State.notice_config_of <;> intros) | (with_reducible apply State.fenceNotice_config_of <;> intros) | (with_reducible apply State.handleStep_config_of <;> intros) | (with_reducible apply State.sysStep_config_of <;> intros) | (with_reducible apply State.forAll_config_of <;> intros) | (with_reducible apply foldl_config_of <;> intros)
  all_goals simp
@[simp] theorem State.tallyWrites_config (s : State) (d : Node) :
    (State.tallyWrites s d).pending = s.pending ∧ (State.tallyWrites s d).trim = s.trim ∧ (State.tallyWrites s d).fuses = s.fuses := by
  unfold State.tallyWrites
  simp
@[simp] theorem State.writeTally_config (s : State) (d : Node) :
    (State.writeTally s d).pending = s.pending ∧ (State.writeTally s d).trim = s.trim ∧ (State.writeTally s d).fuses = s.fuses := by
  unfold State.writeTally
  simp
@[simp] theorem State.tally_config (s : State) (n : Nat) (d : Node) :
    (State.tally s n d).pending = s.pending ∧ (State.tally s n d).trim = s.trim ∧ (State.tally s n d).fuses = s.fuses := by
  dsimp only [State.tally]
  (repeat' split) <;> simp
theorem execTallyWrite_config (n : Nat) (s : State) (t0 : State) (h0 : execTallyWrite n s = .next t0) :
    (t0).pending = s.pending ∧ (t0).trim = s.trim ∧ (t0).fuses = s.fuses := by
  obtain ⟨_, rfl⟩ := ok_next h0
  clear h0
  simp
theorem execTallyWriteNotify_config (n : Nat) (s : State) (t0 : State) (h0 : execTallyWriteNotify n s = .next t0) :
    (t0).pending = s.pending ∧ (t0).trim = s.trim ∧ (t0).fuses = s.fuses := by
  obtain ⟨_, rfl⟩ := ok_next h0
  clear h0
  simp
theorem execTallyReadCompletion_config (n : Nat) (a : HostReply) (s : State) (t0 : State) (h0 : execTallyReadCompletion n a s = .next t0) :
    (t0).pending = s.pending ∧ (t0).trim = s.trim ∧ (t0).fuses = s.fuses := by
  obtain ⟨_, rfl⟩ := ok_next h0
  clear h0
  try dsimp only
  repeat' first | split | (with_reducible apply State.when_config_of <;> intros) | (with_reducible apply State.sbAnswer_config_of <;> intros) | (with_reducible apply State.deliver_config_of <;> intros) | (with_reducible apply State.withLines_config_of <;> intros) | (with_reducible apply State.withReads_config_of <;> intros) | (with_reducible apply State.whenHeld_config_of <;> intros) | (with_reducible apply State.lookup_config_of <;> intros) | (with_reducible apply State.hostRead_config_of <;> intros) | (with_reducible apply State.hostWrite_config_of <;> intros) | (with_reducible apply State.delivery_config_of <;> intros) | (with_reducible apply State.pageRead_config_of <;> intros) | (with_reducible apply State.pageWrite_config_of <;> intros) | (with_reducible apply State.stewardLines_config_of <;> intros) | (with_reducible apply State.choiceLines_config_of <;> intros) | (with_reducible apply State.preloadRead_config_of <;> intros) | (with_reducible apply State.opStep_config_of <;> intros) | (with_reducible apply State.receive_config_of <;> intros) | (with_reducible apply State.onObject_config_of <;> intros) | (with_reducible apply State.endOwner_config_of <;> intros) | (with_reducible apply State.chipWide_config_of <;> intros) | (with_reducible apply State.kernelStep_config_of <;> intros) | (with_reducible apply State.coreInstr_config_of <;> intros) | (with_reducible apply State.endArrival_config_of <;> intros) | (with_reducible apply State.notice_config_of <;> intros) | (with_reducible apply State.fenceNotice_config_of <;> intros) | (with_reducible apply State.handleStep_config_of <;> intros) | (with_reducible apply State.sysStep_config_of <;> intros) | (with_reducible apply State.forAll_config_of <;> intros) | (with_reducible apply foldl_config_of <;> intros)
  all_goals simp
@[simp] theorem State.clearObj_config (s : State) (n : Nat) :
    (State.clearObj s n).pending = s.pending ∧ (State.clearObj s n).trim = s.trim ∧ (State.clearObj s n).fuses = s.fuses := by
  unfold State.clearObj
  simp
@[simp] theorem State.clearRange_config (s : State) (p : Nat) :
    (State.clearRange s p).pending = s.pending ∧ (State.clearRange s p).trim = s.trim ∧ (State.clearRange s p).fuses = s.fuses := by
  unfold State.clearRange
  simp
@[simp] theorem State.releasePart_config (s : State) (n p : Nat) :
    (State.releasePart s n p).pending = s.pending ∧ (State.releasePart s n p).trim = s.trim ∧ (State.releasePart s n p).fuses = s.fuses := by
  dsimp only [State.releasePart]
  (repeat' split) <;> simp
theorem execPartctlDefine_config (n : Nat) (s : State) (t0 : State) (h0 : execPartctlDefine n s = .next t0) :
    (t0).pending = s.pending ∧ (t0).trim = s.trim ∧ (t0).fuses = s.fuses := by
  obtain ⟨_, rfl⟩ := ok_next h0
  clear h0
  try dsimp only
  repeat' first | split | (with_reducible apply State.when_config_of <;> intros) | (with_reducible apply State.sbAnswer_config_of <;> intros) | (with_reducible apply State.deliver_config_of <;> intros) | (with_reducible apply State.withLines_config_of <;> intros) | (with_reducible apply State.withReads_config_of <;> intros) | (with_reducible apply State.whenHeld_config_of <;> intros) | (with_reducible apply State.lookup_config_of <;> intros) | (with_reducible apply State.hostRead_config_of <;> intros) | (with_reducible apply State.hostWrite_config_of <;> intros) | (with_reducible apply State.delivery_config_of <;> intros) | (with_reducible apply State.pageRead_config_of <;> intros) | (with_reducible apply State.pageWrite_config_of <;> intros) | (with_reducible apply State.stewardLines_config_of <;> intros) | (with_reducible apply State.choiceLines_config_of <;> intros) | (with_reducible apply State.preloadRead_config_of <;> intros) | (with_reducible apply State.opStep_config_of <;> intros) | (with_reducible apply State.receive_config_of <;> intros) | (with_reducible apply State.onObject_config_of <;> intros) | (with_reducible apply State.endOwner_config_of <;> intros) | (with_reducible apply State.chipWide_config_of <;> intros) | (with_reducible apply State.kernelStep_config_of <;> intros) | (with_reducible apply State.coreInstr_config_of <;> intros) | (with_reducible apply State.endArrival_config_of <;> intros) | (with_reducible apply State.notice_config_of <;> intros) | (with_reducible apply State.fenceNotice_config_of <;> intros) | (with_reducible apply State.handleStep_config_of <;> intros) | (with_reducible apply State.sysStep_config_of <;> intros) | (with_reducible apply State.forAll_config_of <;> intros) | (with_reducible apply foldl_config_of <;> intros)
  all_goals simp
theorem execPartctlRelease_config (n : Nat) (s : State) (t0 : State) (h0 : execPartctlRelease n s = .next t0) :
    (t0).pending = s.pending ∧ (t0).trim = s.trim ∧ (t0).fuses = s.fuses := by
  obtain ⟨_, rfl⟩ := ok_next h0
  clear h0
  try dsimp only
  repeat' first | split | (with_reducible apply State.when_config_of <;> intros) | (with_reducible apply State.sbAnswer_config_of <;> intros) | (with_reducible apply State.deliver_config_of <;> intros) | (with_reducible apply State.withLines_config_of <;> intros) | (with_reducible apply State.withReads_config_of <;> intros) | (with_reducible apply State.whenHeld_config_of <;> intros) | (with_reducible apply State.lookup_config_of <;> intros) | (with_reducible apply State.hostRead_config_of <;> intros) | (with_reducible apply State.hostWrite_config_of <;> intros) | (with_reducible apply State.delivery_config_of <;> intros) | (with_reducible apply State.pageRead_config_of <;> intros) | (with_reducible apply State.pageWrite_config_of <;> intros) | (with_reducible apply State.stewardLines_config_of <;> intros) | (with_reducible apply State.choiceLines_config_of <;> intros) | (with_reducible apply State.preloadRead_config_of <;> intros) | (with_reducible apply State.opStep_config_of <;> intros) | (with_reducible apply State.receive_config_of <;> intros) | (with_reducible apply State.onObject_config_of <;> intros) | (with_reducible apply State.endOwner_config_of <;> intros) | (with_reducible apply State.chipWide_config_of <;> intros) | (with_reducible apply State.kernelStep_config_of <;> intros) | (with_reducible apply State.coreInstr_config_of <;> intros) | (with_reducible apply State.endArrival_config_of <;> intros) | (with_reducible apply State.notice_config_of <;> intros) | (with_reducible apply State.fenceNotice_config_of <;> intros) | (with_reducible apply State.handleStep_config_of <;> intros) | (with_reducible apply State.sysStep_config_of <;> intros) | (with_reducible apply State.forAll_config_of <;> intros) | (with_reducible apply foldl_config_of <;> intros)
  all_goals simp
theorem execFaultctlThreshold_config (n : Nat) (s : State) (t0 : State) (h0 : execFaultctlThreshold n s = .next t0) :
    (t0).pending = s.pending ∧ (t0).trim = s.trim ∧ (t0).fuses = s.fuses := by
  obtain ⟨_, rfl⟩ := ok_next h0
  clear h0
  try dsimp only
  repeat' first | split | (with_reducible apply State.when_config_of <;> intros) | (with_reducible apply State.sbAnswer_config_of <;> intros) | (with_reducible apply State.deliver_config_of <;> intros) | (with_reducible apply State.withLines_config_of <;> intros) | (with_reducible apply State.withReads_config_of <;> intros) | (with_reducible apply State.whenHeld_config_of <;> intros) | (with_reducible apply State.lookup_config_of <;> intros) | (with_reducible apply State.hostRead_config_of <;> intros) | (with_reducible apply State.hostWrite_config_of <;> intros) | (with_reducible apply State.delivery_config_of <;> intros) | (with_reducible apply State.pageRead_config_of <;> intros) | (with_reducible apply State.pageWrite_config_of <;> intros) | (with_reducible apply State.stewardLines_config_of <;> intros) | (with_reducible apply State.choiceLines_config_of <;> intros) | (with_reducible apply State.preloadRead_config_of <;> intros) | (with_reducible apply State.opStep_config_of <;> intros) | (with_reducible apply State.receive_config_of <;> intros) | (with_reducible apply State.onObject_config_of <;> intros) | (with_reducible apply State.endOwner_config_of <;> intros) | (with_reducible apply State.chipWide_config_of <;> intros) | (with_reducible apply State.kernelStep_config_of <;> intros) | (with_reducible apply State.coreInstr_config_of <;> intros) | (with_reducible apply State.endArrival_config_of <;> intros) | (with_reducible apply State.notice_config_of <;> intros) | (with_reducible apply State.fenceNotice_config_of <;> intros) | (with_reducible apply State.handleStep_config_of <;> intros) | (with_reducible apply State.sysStep_config_of <;> intros) | (with_reducible apply State.forAll_config_of <;> intros) | (with_reducible apply foldl_config_of <;> intros)
  all_goals simp
theorem execFaultctlAcklog_config (n : Nat) (s : State) (t0 : State) (h0 : execFaultctlAcklog n s = .next t0) :
    (t0).pending = s.pending ∧ (t0).trim = s.trim ∧ (t0).fuses = s.fuses := by
  obtain ⟨_, rfl⟩ := ok_next h0
  clear h0
  try dsimp only
  repeat' first | split | (with_reducible apply State.when_config_of <;> intros) | (with_reducible apply State.sbAnswer_config_of <;> intros) | (with_reducible apply State.deliver_config_of <;> intros) | (with_reducible apply State.withLines_config_of <;> intros) | (with_reducible apply State.withReads_config_of <;> intros) | (with_reducible apply State.whenHeld_config_of <;> intros) | (with_reducible apply State.lookup_config_of <;> intros) | (with_reducible apply State.hostRead_config_of <;> intros) | (with_reducible apply State.hostWrite_config_of <;> intros) | (with_reducible apply State.delivery_config_of <;> intros) | (with_reducible apply State.pageRead_config_of <;> intros) | (with_reducible apply State.pageWrite_config_of <;> intros) | (with_reducible apply State.stewardLines_config_of <;> intros) | (with_reducible apply State.choiceLines_config_of <;> intros) | (with_reducible apply State.preloadRead_config_of <;> intros) | (with_reducible apply State.opStep_config_of <;> intros) | (with_reducible apply State.receive_config_of <;> intros) | (with_reducible apply State.onObject_config_of <;> intros) | (with_reducible apply State.endOwner_config_of <;> intros) | (with_reducible apply State.chipWide_config_of <;> intros) | (with_reducible apply State.kernelStep_config_of <;> intros) | (with_reducible apply State.coreInstr_config_of <;> intros) | (with_reducible apply State.endArrival_config_of <;> intros) | (with_reducible apply State.notice_config_of <;> intros) | (with_reducible apply State.fenceNotice_config_of <;> intros) | (with_reducible apply State.handleStep_config_of <;> intros) | (with_reducible apply State.sysStep_config_of <;> intros) | (with_reducible apply State.forAll_config_of <;> intros) | (with_reducible apply foldl_config_of <;> intros)
  all_goals simp
@[simp] theorem State.queueRun_config (s : State) (n : Nat) (d : Node) :
    (State.queueRun s n d).pending = s.pending ∧ (State.queueRun s n d).trim = s.trim ∧ (State.queueRun s n d).fuses = s.fuses := by
  unfold State.queueRun
  simp
theorem execCall_config (n : Nat) (s : State) (t0 : State) (h0 : execCall n s = .next t0) :
    (t0).pending = s.pending ∧ (t0).trim = s.trim ∧ (t0).fuses = s.fuses := by
  obtain ⟨_, rfl⟩ := ok_next h0
  clear h0
  try dsimp only
  repeat' first | split | (with_reducible apply State.when_config_of <;> intros) | (with_reducible apply State.sbAnswer_config_of <;> intros) | (with_reducible apply State.deliver_config_of <;> intros) | (with_reducible apply State.withLines_config_of <;> intros) | (with_reducible apply State.withReads_config_of <;> intros) | (with_reducible apply State.whenHeld_config_of <;> intros) | (with_reducible apply State.lookup_config_of <;> intros) | (with_reducible apply State.hostRead_config_of <;> intros) | (with_reducible apply State.hostWrite_config_of <;> intros) | (with_reducible apply State.delivery_config_of <;> intros) | (with_reducible apply State.pageRead_config_of <;> intros) | (with_reducible apply State.pageWrite_config_of <;> intros) | (with_reducible apply State.stewardLines_config_of <;> intros) | (with_reducible apply State.choiceLines_config_of <;> intros) | (with_reducible apply State.preloadRead_config_of <;> intros) | (with_reducible apply State.opStep_config_of <;> intros) | (with_reducible apply State.receive_config_of <;> intros) | (with_reducible apply State.onObject_config_of <;> intros) | (with_reducible apply State.endOwner_config_of <;> intros) | (with_reducible apply State.chipWide_config_of <;> intros) | (with_reducible apply State.kernelStep_config_of <;> intros) | (with_reducible apply State.coreInstr_config_of <;> intros) | (with_reducible apply State.endArrival_config_of <;> intros) | (with_reducible apply State.notice_config_of <;> intros) | (with_reducible apply State.fenceNotice_config_of <;> intros) | (with_reducible apply State.handleStep_config_of <;> intros) | (with_reducible apply State.sysStep_config_of <;> intros) | (with_reducible apply State.forAll_config_of <;> intros) | (with_reducible apply foldl_config_of <;> intros)
  all_goals simp
theorem execRunStart_config (k : Nat) (s : State) (t0 : State) (h0 : execRunStart k s = .next t0) :
    (t0).pending = s.pending ∧ (t0).trim = s.trim ∧ (t0).fuses = s.fuses := by
  obtain ⟨_, rfl⟩ := ok_next h0
  clear h0
  try dsimp only
  repeat' first | split | (with_reducible apply State.when_config_of <;> intros) | (with_reducible apply State.sbAnswer_config_of <;> intros) | (with_reducible apply State.deliver_config_of <;> intros) | (with_reducible apply State.withLines_config_of <;> intros) | (with_reducible apply State.withReads_config_of <;> intros) | (with_reducible apply State.whenHeld_config_of <;> intros) | (with_reducible apply State.lookup_config_of <;> intros) | (with_reducible apply State.hostRead_config_of <;> intros) | (with_reducible apply State.hostWrite_config_of <;> intros) | (with_reducible apply State.delivery_config_of <;> intros) | (with_reducible apply State.pageRead_config_of <;> intros) | (with_reducible apply State.pageWrite_config_of <;> intros) | (with_reducible apply State.stewardLines_config_of <;> intros) | (with_reducible apply State.choiceLines_config_of <;> intros) | (with_reducible apply State.preloadRead_config_of <;> intros) | (with_reducible apply State.opStep_config_of <;> intros) | (with_reducible apply State.receive_config_of <;> intros) | (with_reducible apply State.onObject_config_of <;> intros) | (with_reducible apply State.endOwner_config_of <;> intros) | (with_reducible apply State.chipWide_config_of <;> intros) | (with_reducible apply State.kernelStep_config_of <;> intros) | (with_reducible apply State.coreInstr_config_of <;> intros) | (with_reducible apply State.endArrival_config_of <;> intros) | (with_reducible apply State.notice_config_of <;> intros) | (with_reducible apply State.fenceNotice_config_of <;> intros) | (with_reducible apply State.handleStep_config_of <;> intros) | (with_reducible apply State.sysStep_config_of <;> intros) | (with_reducible apply State.forAll_config_of <;> intros) | (with_reducible apply foldl_config_of <;> intros)
  all_goals simp
theorem execFrameClearComplete_config (k fr : Nat) (s : State) (t0 : State) (h0 : execFrameClearComplete k fr s = .next t0) :
    (t0).pending = s.pending ∧ (t0).trim = s.trim ∧ (t0).fuses = s.fuses := by
  obtain ⟨_, rfl⟩ := ok_next h0
  clear h0
  try dsimp only
  repeat' first | split | (with_reducible apply State.when_config_of <;> intros) | (with_reducible apply State.sbAnswer_config_of <;> intros) | (with_reducible apply State.deliver_config_of <;> intros) | (with_reducible apply State.withLines_config_of <;> intros) | (with_reducible apply State.withReads_config_of <;> intros) | (with_reducible apply State.whenHeld_config_of <;> intros) | (with_reducible apply State.lookup_config_of <;> intros) | (with_reducible apply State.hostRead_config_of <;> intros) | (with_reducible apply State.hostWrite_config_of <;> intros) | (with_reducible apply State.delivery_config_of <;> intros) | (with_reducible apply State.pageRead_config_of <;> intros) | (with_reducible apply State.pageWrite_config_of <;> intros) | (with_reducible apply State.stewardLines_config_of <;> intros) | (with_reducible apply State.choiceLines_config_of <;> intros) | (with_reducible apply State.preloadRead_config_of <;> intros) | (with_reducible apply State.opStep_config_of <;> intros) | (with_reducible apply State.receive_config_of <;> intros) | (with_reducible apply State.onObject_config_of <;> intros) | (with_reducible apply State.endOwner_config_of <;> intros) | (with_reducible apply State.chipWide_config_of <;> intros) | (with_reducible apply State.kernelStep_config_of <;> intros) | (with_reducible apply State.coreInstr_config_of <;> intros) | (with_reducible apply State.endArrival_config_of <;> intros) | (with_reducible apply State.notice_config_of <;> intros) | (with_reducible apply State.fenceNotice_config_of <;> intros) | (with_reducible apply State.handleStep_config_of <;> intros) | (with_reducible apply State.sysStep_config_of <;> intros) | (with_reducible apply State.forAll_config_of <;> intros) | (with_reducible apply foldl_config_of <;> intros)
  all_goals simp
theorem execQuantumExpiry_config (k : Nat) (s : State) (t0 : State) (h0 : execQuantumExpiry k s = .next t0) :
    (t0).pending = s.pending ∧ (t0).trim = s.trim ∧ (t0).fuses = s.fuses := by
  obtain ⟨_, rfl⟩ := ok_next h0
  clear h0
  try dsimp only
  repeat' first | split | (with_reducible apply State.when_config_of <;> intros) | (with_reducible apply State.sbAnswer_config_of <;> intros) | (with_reducible apply State.deliver_config_of <;> intros) | (with_reducible apply State.withLines_config_of <;> intros) | (with_reducible apply State.withReads_config_of <;> intros) | (with_reducible apply State.whenHeld_config_of <;> intros) | (with_reducible apply State.lookup_config_of <;> intros) | (with_reducible apply State.hostRead_config_of <;> intros) | (with_reducible apply State.hostWrite_config_of <;> intros) | (with_reducible apply State.delivery_config_of <;> intros) | (with_reducible apply State.pageRead_config_of <;> intros) | (with_reducible apply State.pageWrite_config_of <;> intros) | (with_reducible apply State.stewardLines_config_of <;> intros) | (with_reducible apply State.choiceLines_config_of <;> intros) | (with_reducible apply State.preloadRead_config_of <;> intros) | (with_reducible apply State.opStep_config_of <;> intros) | (with_reducible apply State.receive_config_of <;> intros) | (with_reducible apply State.onObject_config_of <;> intros) | (with_reducible apply State.endOwner_config_of <;> intros) | (with_reducible apply State.chipWide_config_of <;> intros) | (with_reducible apply State.kernelStep_config_of <;> intros) | (with_reducible apply State.coreInstr_config_of <;> intros) | (with_reducible apply State.endArrival_config_of <;> intros) | (with_reducible apply State.notice_config_of <;> intros) | (with_reducible apply State.fenceNotice_config_of <;> intros) | (with_reducible apply State.handleStep_config_of <;> intros) | (with_reducible apply State.sysStep_config_of <;> intros) | (with_reducible apply State.forAll_config_of <;> intros) | (with_reducible apply foldl_config_of <;> intros)
  all_goals simp
@[simp] theorem State.blockRun_config (s : State) (k fr : Nat) (r : Run) (st : RunState) :
    (State.blockRun s k fr r st).pending = s.pending ∧ (State.blockRun s k fr r st).trim = s.trim ∧ (State.blockRun s k fr r st).fuses = s.fuses := by
  unfold State.blockRun
  simp
@[simp] theorem State.doneRun_config (s : State) (k fr : Nat) (r : Run) :
    (State.doneRun s k fr r).pending = s.pending ∧ (State.doneRun s k fr r).trim = s.trim ∧ (State.doneRun s k fr r).fuses = s.fuses := by
  unfold State.doneRun
  simp
@[simp] theorem State.trap_config (s : State) (k fr : Nat) (r : Run) (t : Trap) :
    (State.trap s k fr r t).pending = s.pending ∧ (State.trap s k fr r t).trim = s.trim ∧ (State.trap s k fr r t).fuses = s.fuses := by
  unfold State.trap
  (repeat' split) <;> simp
@[simp] theorem State.endCallWith_config (s : State) (k fr : Nat) (r : Run) (status : BitVec 8) (detail : BitVec 32) (e : Event) :
    (State.endCallWith s k fr r status detail e).pending = s.pending ∧ (State.endCallWith s k fr r status detail e).trim = s.trim ∧ (State.endCallWith s k fr r status detail e).fuses = s.fuses := by
  dsimp only [State.endCallWith]
  (repeat' split) <;> simp
@[simp] theorem State.settleCore_config (s : State) (k : Nat) :
    (State.settleCore s k).pending = s.pending ∧ (State.settleCore s k).trim = s.trim ∧ (State.settleCore s k).fuses = s.fuses := by
  dsimp only [State.settleCore]
  (repeat' split) <;> simp
@[simp] theorem State.exitRun_config (s : State) (k fr : Nat) (r : Run) :
    (State.exitRun s k fr r).pending = s.pending ∧ (State.exitRun s k fr r).trim = s.trim ∧ (State.exitRun s k fr r).fuses = s.fuses := by
  dsimp only [State.exitRun]
  (repeat' split) <;> simp
theorem State.shippedTurn_config (s : State) (k fr : Nat) (r : Run) (u : State) (h : s.shippedTurn k fr r = some u) :
    (u).pending = s.pending ∧ (u).trim = s.trim ∧ (u).fuses = s.fuses := by
  unfold State.shippedTurn at h
  dsimp only at h
  (repeat' split at h) <;> first
    | (simp only [reduceCtorEq] at h; done)
    | (simp only [Option.some.injEq] at h; subst h; simp [])
@[simp] theorem State.coreInstr_config (s : State) (k : Nat) (w : BitVec 32) (f : State → Nat → Run → State)
    (h3 : ∀ (x0 : State) (x1 : Nat) (x2 : Run), (f x0 x1 x2).pending = x0.pending ∧ (f x0 x1 x2).trim = x0.trim ∧ (f x0 x1 x2).fuses = x0.fuses) :
    (State.coreInstr s k w f).pending = s.pending ∧ (State.coreInstr s k w f).trim = s.trim ∧ (State.coreInstr s k w f).fuses = s.fuses := by
  unfold State.coreInstr
  dsimp only
  repeat' split
  all_goals first
    | (rename_i h; have := State.shippedTurn_config _ _ _ _ _ h; simp [this]; done)
    | simp [*]
theorem State.coreInstr_config_of (s : State) (k : Nat) (w : BitVec 32) (f : State → Nat → Run → State) (u : State)
    (h3 : ∀ (x0 : State) (x1 : Nat) (x2 : Run), (f x0 x1 x2).pending = x0.pending ∧ (f x0 x1 x2).trim = x0.trim ∧ (f x0 x1 x2).fuses = x0.fuses) (hu : (s).pending = u.pending ∧ (s).trim = u.trim ∧ (s).fuses = u.fuses) :
    (State.coreInstr s k w f).pending = u.pending ∧ (State.coreInstr s k w f).trim = u.trim ∧ (State.coreInstr s k w f).fuses = u.fuses := by
  have := State.coreInstr_config s k w f h3
  simp only [this, hu, and_self]

@[simp] theorem State.aluStep_config (s : State) (k rd ra rb fn : Nat) (g : Word → Word → Word) :
    (State.aluStep s k rd ra rb fn g).pending = s.pending ∧ (State.aluStep s k rd ra rb fn g).trim = s.trim ∧ (State.aluStep s k rd ra rb fn g).fuses = s.fuses := by
  unfold State.aluStep
  simp
theorem execAdd_config (k rd ra rb : Nat) (s : State) (t0 : State) (h0 : execAdd k rd ra rb s = .next t0) :
    (t0).pending = s.pending ∧ (t0).trim = s.trim ∧ (t0).fuses = s.fuses := by
  obtain ⟨_, rfl⟩ := ok_next h0
  clear h0
  simp
theorem execSub_config (k rd ra rb : Nat) (s : State) (t0 : State) (h0 : execSub k rd ra rb s = .next t0) :
    (t0).pending = s.pending ∧ (t0).trim = s.trim ∧ (t0).fuses = s.fuses := by
  obtain ⟨_, rfl⟩ := ok_next h0
  clear h0
  simp
theorem execAnd_config (k rd ra rb : Nat) (s : State) (t0 : State) (h0 : execAnd k rd ra rb s = .next t0) :
    (t0).pending = s.pending ∧ (t0).trim = s.trim ∧ (t0).fuses = s.fuses := by
  obtain ⟨_, rfl⟩ := ok_next h0
  clear h0
  simp
theorem execOr_config (k rd ra rb : Nat) (s : State) (t0 : State) (h0 : execOr k rd ra rb s = .next t0) :
    (t0).pending = s.pending ∧ (t0).trim = s.trim ∧ (t0).fuses = s.fuses := by
  obtain ⟨_, rfl⟩ := ok_next h0
  clear h0
  simp
theorem execXor_config (k rd ra rb : Nat) (s : State) (t0 : State) (h0 : execXor k rd ra rb s = .next t0) :
    (t0).pending = s.pending ∧ (t0).trim = s.trim ∧ (t0).fuses = s.fuses := by
  obtain ⟨_, rfl⟩ := ok_next h0
  clear h0
  simp
theorem execSll_config (k rd ra rb : Nat) (s : State) (t0 : State) (h0 : execSll k rd ra rb s = .next t0) :
    (t0).pending = s.pending ∧ (t0).trim = s.trim ∧ (t0).fuses = s.fuses := by
  obtain ⟨_, rfl⟩ := ok_next h0
  clear h0
  simp
theorem execSrl_config (k rd ra rb : Nat) (s : State) (t0 : State) (h0 : execSrl k rd ra rb s = .next t0) :
    (t0).pending = s.pending ∧ (t0).trim = s.trim ∧ (t0).fuses = s.fuses := by
  obtain ⟨_, rfl⟩ := ok_next h0
  clear h0
  simp
theorem execSra_config (k rd ra rb : Nat) (s : State) (t0 : State) (h0 : execSra k rd ra rb s = .next t0) :
    (t0).pending = s.pending ∧ (t0).trim = s.trim ∧ (t0).fuses = s.fuses := by
  obtain ⟨_, rfl⟩ := ok_next h0
  clear h0
  simp
theorem execMul_config (k rd ra rb : Nat) (s : State) (t0 : State) (h0 : execMul k rd ra rb s = .next t0) :
    (t0).pending = s.pending ∧ (t0).trim = s.trim ∧ (t0).fuses = s.fuses := by
  obtain ⟨_, rfl⟩ := ok_next h0
  clear h0
  simp
theorem execMulhu_config (k rd ra rb : Nat) (s : State) (t0 : State) (h0 : execMulhu k rd ra rb s = .next t0) :
    (t0).pending = s.pending ∧ (t0).trim = s.trim ∧ (t0).fuses = s.fuses := by
  obtain ⟨_, rfl⟩ := ok_next h0
  clear h0
  simp
theorem execSlt_config (k rd ra rb : Nat) (s : State) (t0 : State) (h0 : execSlt k rd ra rb s = .next t0) :
    (t0).pending = s.pending ∧ (t0).trim = s.trim ∧ (t0).fuses = s.fuses := by
  obtain ⟨_, rfl⟩ := ok_next h0
  clear h0
  simp
theorem execSltu_config (k rd ra rb : Nat) (s : State) (t0 : State) (h0 : execSltu k rd ra rb s = .next t0) :
    (t0).pending = s.pending ∧ (t0).trim = s.trim ∧ (t0).fuses = s.fuses := by
  obtain ⟨_, rfl⟩ := ok_next h0
  clear h0
  simp
theorem execMin_config (k rd ra rb : Nat) (s : State) (t0 : State) (h0 : execMin k rd ra rb s = .next t0) :
    (t0).pending = s.pending ∧ (t0).trim = s.trim ∧ (t0).fuses = s.fuses := by
  obtain ⟨_, rfl⟩ := ok_next h0
  clear h0
  simp
theorem execMax_config (k rd ra rb : Nat) (s : State) (t0 : State) (h0 : execMax k rd ra rb s = .next t0) :
    (t0).pending = s.pending ∧ (t0).trim = s.trim ∧ (t0).fuses = s.fuses := by
  obtain ⟨_, rfl⟩ := ok_next h0
  clear h0
  simp
theorem execMinu_config (k rd ra rb : Nat) (s : State) (t0 : State) (h0 : execMinu k rd ra rb s = .next t0) :
    (t0).pending = s.pending ∧ (t0).trim = s.trim ∧ (t0).fuses = s.fuses := by
  obtain ⟨_, rfl⟩ := ok_next h0
  clear h0
  simp
theorem execMaxu_config (k rd ra rb : Nat) (s : State) (t0 : State) (h0 : execMaxu k rd ra rb s = .next t0) :
    (t0).pending = s.pending ∧ (t0).trim = s.trim ∧ (t0).fuses = s.fuses := by
  obtain ⟨_, rfl⟩ := ok_next h0
  clear h0
  simp
theorem execClz_config (k rd ra rb : Nat) (s : State) (t0 : State) (h0 : execClz k rd ra rb s = .next t0) :
    (t0).pending = s.pending ∧ (t0).trim = s.trim ∧ (t0).fuses = s.fuses := by
  obtain ⟨_, rfl⟩ := ok_next h0
  clear h0
  simp
theorem execPopc_config (k rd ra rb : Nat) (s : State) (t0 : State) (h0 : execPopc k rd ra rb s = .next t0) :
    (t0).pending = s.pending ∧ (t0).trim = s.trim ∧ (t0).fuses = s.fuses := by
  obtain ⟨_, rfl⟩ := ok_next h0
  clear h0
  simp
@[simp] theorem State.immStep_config (s : State) (k maj rd ra : Nat) (imm : BitVec 16) (g : Word → Word) :
    (State.immStep s k maj rd ra imm g).pending = s.pending ∧ (State.immStep s k maj rd ra imm g).trim = s.trim ∧ (State.immStep s k maj rd ra imm g).fuses = s.fuses := by
  unfold State.immStep
  simp
theorem execAddi_config (k rd ra : Nat) (imm : BitVec 16) (s : State) (t0 : State) (h0 : execAddi k rd ra imm s = .next t0) :
    (t0).pending = s.pending ∧ (t0).trim = s.trim ∧ (t0).fuses = s.fuses := by
  obtain ⟨_, rfl⟩ := ok_next h0
  clear h0
  simp
theorem execAndi_config (k rd ra : Nat) (imm : BitVec 16) (s : State) (t0 : State) (h0 : execAndi k rd ra imm s = .next t0) :
    (t0).pending = s.pending ∧ (t0).trim = s.trim ∧ (t0).fuses = s.fuses := by
  obtain ⟨_, rfl⟩ := ok_next h0
  clear h0
  simp
theorem execOri_config (k rd ra : Nat) (imm : BitVec 16) (s : State) (t0 : State) (h0 : execOri k rd ra imm s = .next t0) :
    (t0).pending = s.pending ∧ (t0).trim = s.trim ∧ (t0).fuses = s.fuses := by
  obtain ⟨_, rfl⟩ := ok_next h0
  clear h0
  simp
theorem execXori_config (k rd ra : Nat) (imm : BitVec 16) (s : State) (t0 : State) (h0 : execXori k rd ra imm s = .next t0) :
    (t0).pending = s.pending ∧ (t0).trim = s.trim ∧ (t0).fuses = s.fuses := by
  obtain ⟨_, rfl⟩ := ok_next h0
  clear h0
  simp
theorem execShifti_config (k rd ra : Nat) (imm : BitVec 16) (s : State) (t0 : State) (h0 : execShifti k rd ra imm s = .next t0) :
    (t0).pending = s.pending ∧ (t0).trim = s.trim ∧ (t0).fuses = s.fuses := by
  obtain ⟨_, rfl⟩ := ok_next h0
  clear h0
  simp
theorem execLui_config (k rd ra : Nat) (imm : BitVec 16) (s : State) (t0 : State) (h0 : execLui k rd ra imm s = .next t0) :
    (t0).pending = s.pending ∧ (t0).trim = s.trim ∧ (t0).fuses = s.fuses := by
  obtain ⟨_, rfl⟩ := ok_next h0
  clear h0
  simp
theorem execShori_config (k rd ra : Nat) (imm : BitVec 16) (s : State) (t0 : State) (h0 : execShori k rd ra imm s = .next t0) :
    (t0).pending = s.pending ∧ (t0).trim = s.trim ∧ (t0).fuses = s.fuses := by
  obtain ⟨_, rfl⟩ := ok_next h0
  clear h0
  simp
@[simp] theorem State.loadStep_config (s : State) (k maj rd ra : Nat) (imm : BitVec 16) (n : Nat) :
    (State.loadStep s k maj rd ra imm n).pending = s.pending ∧ (State.loadStep s k maj rd ra imm n).trim = s.trim ∧ (State.loadStep s k maj rd ra imm n).fuses = s.fuses := by
  dsimp only [State.loadStep]
  repeat' first | split | (with_reducible apply State.when_config_of <;> intros) | (with_reducible apply State.sbAnswer_config_of <;> intros) | (with_reducible apply State.deliver_config_of <;> intros) | (with_reducible apply State.withLines_config_of <;> intros) | (with_reducible apply State.withReads_config_of <;> intros) | (with_reducible apply State.whenHeld_config_of <;> intros) | (with_reducible apply State.lookup_config_of <;> intros) | (with_reducible apply State.hostRead_config_of <;> intros) | (with_reducible apply State.hostWrite_config_of <;> intros) | (with_reducible apply State.delivery_config_of <;> intros) | (with_reducible apply State.pageRead_config_of <;> intros) | (with_reducible apply State.pageWrite_config_of <;> intros) | (with_reducible apply State.stewardLines_config_of <;> intros) | (with_reducible apply State.choiceLines_config_of <;> intros) | (with_reducible apply State.preloadRead_config_of <;> intros) | (with_reducible apply State.opStep_config_of <;> intros) | (with_reducible apply State.receive_config_of <;> intros) | (with_reducible apply State.onObject_config_of <;> intros) | (with_reducible apply State.endOwner_config_of <;> intros) | (with_reducible apply State.chipWide_config_of <;> intros) | (with_reducible apply State.kernelStep_config_of <;> intros) | (with_reducible apply State.coreInstr_config_of <;> intros) | (with_reducible apply State.endArrival_config_of <;> intros) | (with_reducible apply State.notice_config_of <;> intros) | (with_reducible apply State.fenceNotice_config_of <;> intros) | (with_reducible apply State.handleStep_config_of <;> intros) | (with_reducible apply State.sysStep_config_of <;> intros) | (with_reducible apply State.forAll_config_of <;> intros) | (with_reducible apply foldl_config_of <;> intros)
  all_goals simp
@[simp] theorem State.storeStep_config (s : State) (k maj rd ra : Nat) (imm : BitVec 16) (n : Nat) :
    (State.storeStep s k maj rd ra imm n).pending = s.pending ∧ (State.storeStep s k maj rd ra imm n).trim = s.trim ∧ (State.storeStep s k maj rd ra imm n).fuses = s.fuses := by
  dsimp only [State.storeStep]
  repeat' first | split | (with_reducible apply State.when_config_of <;> intros) | (with_reducible apply State.sbAnswer_config_of <;> intros) | (with_reducible apply State.deliver_config_of <;> intros) | (with_reducible apply State.withLines_config_of <;> intros) | (with_reducible apply State.withReads_config_of <;> intros) | (with_reducible apply State.whenHeld_config_of <;> intros) | (with_reducible apply State.lookup_config_of <;> intros) | (with_reducible apply State.hostRead_config_of <;> intros) | (with_reducible apply State.hostWrite_config_of <;> intros) | (with_reducible apply State.delivery_config_of <;> intros) | (with_reducible apply State.pageRead_config_of <;> intros) | (with_reducible apply State.pageWrite_config_of <;> intros) | (with_reducible apply State.stewardLines_config_of <;> intros) | (with_reducible apply State.choiceLines_config_of <;> intros) | (with_reducible apply State.preloadRead_config_of <;> intros) | (with_reducible apply State.opStep_config_of <;> intros) | (with_reducible apply State.receive_config_of <;> intros) | (with_reducible apply State.onObject_config_of <;> intros) | (with_reducible apply State.endOwner_config_of <;> intros) | (with_reducible apply State.chipWide_config_of <;> intros) | (with_reducible apply State.kernelStep_config_of <;> intros) | (with_reducible apply State.coreInstr_config_of <;> intros) | (with_reducible apply State.endArrival_config_of <;> intros) | (with_reducible apply State.notice_config_of <;> intros) | (with_reducible apply State.fenceNotice_config_of <;> intros) | (with_reducible apply State.handleStep_config_of <;> intros) | (with_reducible apply State.sysStep_config_of <;> intros) | (with_reducible apply State.forAll_config_of <;> intros) | (with_reducible apply foldl_config_of <;> intros)
  all_goals simp
theorem execLd_config (k rd ra : Nat) (imm : BitVec 16) (s : State) (t0 : State) (h0 : execLd k rd ra imm s = .next t0) :
    (t0).pending = s.pending ∧ (t0).trim = s.trim ∧ (t0).fuses = s.fuses := by
  obtain ⟨_, rfl⟩ := ok_next h0
  clear h0
  simp
theorem execLw_config (k rd ra : Nat) (imm : BitVec 16) (s : State) (t0 : State) (h0 : execLw k rd ra imm s = .next t0) :
    (t0).pending = s.pending ∧ (t0).trim = s.trim ∧ (t0).fuses = s.fuses := by
  obtain ⟨_, rfl⟩ := ok_next h0
  clear h0
  simp
theorem execLb_config (k rd ra : Nat) (imm : BitVec 16) (s : State) (t0 : State) (h0 : execLb k rd ra imm s = .next t0) :
    (t0).pending = s.pending ∧ (t0).trim = s.trim ∧ (t0).fuses = s.fuses := by
  obtain ⟨_, rfl⟩ := ok_next h0
  clear h0
  simp
theorem execSt_config (k rd ra : Nat) (imm : BitVec 16) (s : State) (t0 : State) (h0 : execSt k rd ra imm s = .next t0) :
    (t0).pending = s.pending ∧ (t0).trim = s.trim ∧ (t0).fuses = s.fuses := by
  obtain ⟨_, rfl⟩ := ok_next h0
  clear h0
  simp
theorem execSw_config (k rd ra : Nat) (imm : BitVec 16) (s : State) (t0 : State) (h0 : execSw k rd ra imm s = .next t0) :
    (t0).pending = s.pending ∧ (t0).trim = s.trim ∧ (t0).fuses = s.fuses := by
  obtain ⟨_, rfl⟩ := ok_next h0
  clear h0
  simp
theorem execSb_config (k rd ra : Nat) (imm : BitVec 16) (s : State) (t0 : State) (h0 : execSb k rd ra imm s = .next t0) :
    (t0).pending = s.pending ∧ (t0).trim = s.trim ∧ (t0).fuses = s.fuses := by
  obtain ⟨_, rfl⟩ := ok_next h0
  clear h0
  simp
@[simp] theorem State.loopStep_config (s : State) (k ra rb : Nat) (off : BitVec 16) :
    (State.loopStep s k ra rb off).pending = s.pending ∧ (State.loopStep s k ra rb off).trim = s.trim ∧ (State.loopStep s k ra rb off).fuses = s.fuses := by
  dsimp only [State.loopStep]
  repeat' first | split | (with_reducible apply State.when_config_of <;> intros) | (with_reducible apply State.sbAnswer_config_of <;> intros) | (with_reducible apply State.deliver_config_of <;> intros) | (with_reducible apply State.withLines_config_of <;> intros) | (with_reducible apply State.withReads_config_of <;> intros) | (with_reducible apply State.whenHeld_config_of <;> intros) | (with_reducible apply State.lookup_config_of <;> intros) | (with_reducible apply State.hostRead_config_of <;> intros) | (with_reducible apply State.hostWrite_config_of <;> intros) | (with_reducible apply State.delivery_config_of <;> intros) | (with_reducible apply State.pageRead_config_of <;> intros) | (with_reducible apply State.pageWrite_config_of <;> intros) | (with_reducible apply State.stewardLines_config_of <;> intros) | (with_reducible apply State.choiceLines_config_of <;> intros) | (with_reducible apply State.preloadRead_config_of <;> intros) | (with_reducible apply State.opStep_config_of <;> intros) | (with_reducible apply State.receive_config_of <;> intros) | (with_reducible apply State.onObject_config_of <;> intros) | (with_reducible apply State.endOwner_config_of <;> intros) | (with_reducible apply State.chipWide_config_of <;> intros) | (with_reducible apply State.kernelStep_config_of <;> intros) | (with_reducible apply State.coreInstr_config_of <;> intros) | (with_reducible apply State.endArrival_config_of <;> intros) | (with_reducible apply State.notice_config_of <;> intros) | (with_reducible apply State.fenceNotice_config_of <;> intros) | (with_reducible apply State.handleStep_config_of <;> intros) | (with_reducible apply State.sysStep_config_of <;> intros) | (with_reducible apply State.forAll_config_of <;> intros) | (with_reducible apply foldl_config_of <;> intros)
  all_goals simp
theorem execLoop_config (k ra rb : Nat) (off : BitVec 16) (s : State) (t0 : State) (h0 : execLoop k ra rb off s = .next t0) :
    (t0).pending = s.pending ∧ (t0).trim = s.trim ∧ (t0).fuses = s.fuses := by
  obtain ⟨_, rfl⟩ := ok_next h0
  clear h0
  simp
@[simp] theorem State.branchStep_config (s : State) (k maj ra rb : Nat) (off : BitVec 16) (g : Word → Word → Bool) :
    (State.branchStep s k maj ra rb off g).pending = s.pending ∧ (State.branchStep s k maj ra rb off g).trim = s.trim ∧ (State.branchStep s k maj ra rb off g).fuses = s.fuses := by
  dsimp only [State.branchStep]
  repeat' first | split | (with_reducible apply State.when_config_of <;> intros) | (with_reducible apply State.sbAnswer_config_of <;> intros) | (with_reducible apply State.deliver_config_of <;> intros) | (with_reducible apply State.withLines_config_of <;> intros) | (with_reducible apply State.withReads_config_of <;> intros) | (with_reducible apply State.whenHeld_config_of <;> intros) | (with_reducible apply State.lookup_config_of <;> intros) | (with_reducible apply State.hostRead_config_of <;> intros) | (with_reducible apply State.hostWrite_config_of <;> intros) | (with_reducible apply State.delivery_config_of <;> intros) | (with_reducible apply State.pageRead_config_of <;> intros) | (with_reducible apply State.pageWrite_config_of <;> intros) | (with_reducible apply State.stewardLines_config_of <;> intros) | (with_reducible apply State.choiceLines_config_of <;> intros) | (with_reducible apply State.preloadRead_config_of <;> intros) | (with_reducible apply State.opStep_config_of <;> intros) | (with_reducible apply State.receive_config_of <;> intros) | (with_reducible apply State.onObject_config_of <;> intros) | (with_reducible apply State.endOwner_config_of <;> intros) | (with_reducible apply State.chipWide_config_of <;> intros) | (with_reducible apply State.kernelStep_config_of <;> intros) | (with_reducible apply State.coreInstr_config_of <;> intros) | (with_reducible apply State.endArrival_config_of <;> intros) | (with_reducible apply State.notice_config_of <;> intros) | (with_reducible apply State.fenceNotice_config_of <;> intros) | (with_reducible apply State.handleStep_config_of <;> intros) | (with_reducible apply State.sysStep_config_of <;> intros) | (with_reducible apply State.forAll_config_of <;> intros) | (with_reducible apply foldl_config_of <;> intros)
  all_goals simp
theorem execBeq_config (k ra rb : Nat) (off : BitVec 16) (s : State) (t0 : State) (h0 : execBeq k ra rb off s = .next t0) :
    (t0).pending = s.pending ∧ (t0).trim = s.trim ∧ (t0).fuses = s.fuses := by
  obtain ⟨_, rfl⟩ := ok_next h0
  clear h0
  simp
theorem execBne_config (k ra rb : Nat) (off : BitVec 16) (s : State) (t0 : State) (h0 : execBne k ra rb off s = .next t0) :
    (t0).pending = s.pending ∧ (t0).trim = s.trim ∧ (t0).fuses = s.fuses := by
  obtain ⟨_, rfl⟩ := ok_next h0
  clear h0
  simp
theorem execBlt_config (k ra rb : Nat) (off : BitVec 16) (s : State) (t0 : State) (h0 : execBlt k ra rb off s = .next t0) :
    (t0).pending = s.pending ∧ (t0).trim = s.trim ∧ (t0).fuses = s.fuses := by
  obtain ⟨_, rfl⟩ := ok_next h0
  clear h0
  simp
theorem execBge_config (k ra rb : Nat) (off : BitVec 16) (s : State) (t0 : State) (h0 : execBge k ra rb off s = .next t0) :
    (t0).pending = s.pending ∧ (t0).trim = s.trim ∧ (t0).fuses = s.fuses := by
  obtain ⟨_, rfl⟩ := ok_next h0
  clear h0
  simp
theorem execBltu_config (k ra rb : Nat) (off : BitVec 16) (s : State) (t0 : State) (h0 : execBltu k ra rb off s = .next t0) :
    (t0).pending = s.pending ∧ (t0).trim = s.trim ∧ (t0).fuses = s.fuses := by
  obtain ⟨_, rfl⟩ := ok_next h0
  clear h0
  simp
theorem execBgeu_config (k ra rb : Nat) (off : BitVec 16) (s : State) (t0 : State) (h0 : execBgeu k ra rb off s = .next t0) :
    (t0).pending = s.pending ∧ (t0).trim = s.trim ∧ (t0).fuses = s.fuses := by
  obtain ⟨_, rfl⟩ := ok_next h0
  clear h0
  simp
theorem execJal_config (k : Nat) (off : BitVec 26) (s : State) (t0 : State) (h0 : execJal k off s = .next t0) :
    (t0).pending = s.pending ∧ (t0).trim = s.trim ∧ (t0).fuses = s.fuses := by
  obtain ⟨_, rfl⟩ := ok_next h0
  clear h0
  simp
theorem execJ_config (k : Nat) (off : BitVec 26) (s : State) (t0 : State) (h0 : execJ k off s = .next t0) :
    (t0).pending = s.pending ∧ (t0).trim = s.trim ∧ (t0).fuses = s.fuses := by
  obtain ⟨_, rfl⟩ := ok_next h0
  clear h0
  simp
theorem execJalr_config (k rd ra rb : Nat) (s : State) (t0 : State) (h0 : execJalr k rd ra rb s = .next t0) :
    (t0).pending = s.pending ∧ (t0).trim = s.trim ∧ (t0).fuses = s.fuses := by
  obtain ⟨_, rfl⟩ := ok_next h0
  clear h0
  try dsimp only
  repeat' first | split | (with_reducible apply State.when_config_of <;> intros) | (with_reducible apply State.sbAnswer_config_of <;> intros) | (with_reducible apply State.deliver_config_of <;> intros) | (with_reducible apply State.withLines_config_of <;> intros) | (with_reducible apply State.withReads_config_of <;> intros) | (with_reducible apply State.whenHeld_config_of <;> intros) | (with_reducible apply State.lookup_config_of <;> intros) | (with_reducible apply State.hostRead_config_of <;> intros) | (with_reducible apply State.hostWrite_config_of <;> intros) | (with_reducible apply State.delivery_config_of <;> intros) | (with_reducible apply State.pageRead_config_of <;> intros) | (with_reducible apply State.pageWrite_config_of <;> intros) | (with_reducible apply State.stewardLines_config_of <;> intros) | (with_reducible apply State.choiceLines_config_of <;> intros) | (with_reducible apply State.preloadRead_config_of <;> intros) | (with_reducible apply State.opStep_config_of <;> intros) | (with_reducible apply State.receive_config_of <;> intros) | (with_reducible apply State.onObject_config_of <;> intros) | (with_reducible apply State.endOwner_config_of <;> intros) | (with_reducible apply State.chipWide_config_of <;> intros) | (with_reducible apply State.kernelStep_config_of <;> intros) | (with_reducible apply State.coreInstr_config_of <;> intros) | (with_reducible apply State.endArrival_config_of <;> intros) | (with_reducible apply State.notice_config_of <;> intros) | (with_reducible apply State.fenceNotice_config_of <;> intros) | (with_reducible apply State.handleStep_config_of <;> intros) | (with_reducible apply State.sysStep_config_of <;> intros) | (with_reducible apply State.forAll_config_of <;> intros) | (with_reducible apply foldl_config_of <;> intros)
  all_goals simp
@[simp] theorem State.loadStale_config (s : State) (e : Stale) :
    (State.loadStale s e).pending = s.pending ∧ (State.loadStale s e).trim = s.trim ∧ (State.loadStale s e).fuses = s.fuses := by
  unfold State.loadStale
  simp
@[simp] theorem State.dropStale_config (s : State) (e : Stale) :
    (State.dropStale s e).pending = s.pending ∧ (State.dropStale s e).trim = s.trim ∧ (State.dropStale s e).fuses = s.fuses := by
  unfold State.dropStale
  simp
@[simp] theorem State.addStale_config (s : State) (e : Stale) :
    (State.addStale s e).pending = s.pending ∧ (State.addStale s e).trim = s.trim ∧ (State.addStale s e).fuses = s.fuses := by
  unfold State.addStale
  (repeat' split) <;> simp
@[simp] theorem State.replaceStale_config (s : State) (p : Nat) (x : BitVec 14) (k : StaleKind) (due : Nat) :
    (State.replaceStale s p x k due).pending = s.pending ∧ (State.replaceStale s p x k due).trim = s.trim ∧ (State.replaceStale s p x k due).fuses = s.fuses := by
  unfold State.replaceStale
  simp
@[simp] theorem State.countFence_config (s : State) (n : Nat) :
    (State.countFence s n).pending = s.pending ∧ (State.countFence s n).trim = s.trim ∧ (State.countFence s n).fuses = s.fuses := by
  dsimp only [State.countFence]
  (repeat' split) <;> simp
@[simp] theorem State.countReady_config (s : State) (x : Nat) :
    (State.countReady s x).pending = s.pending ∧ (State.countReady s x).trim = s.trim ∧ (State.countReady s x).fuses = s.fuses := by
  unfold State.countReady
  (repeat' split) <;> simp
@[simp] theorem State.sendFall_config (s : State) (seq : BitVec 48) :
    (State.sendFall s seq).pending = s.pending ∧ (State.sendFall s seq).trim = s.trim ∧ (State.sendFall s seq).fuses = s.fuses := by
  unfold State.sendFall
  simp
@[simp] theorem State.endArrival_config (s : State) (n : Nat) (f : State → Node → State) (h2 : ∀ (x0 : State) (x1 : Node), (f x0 x1).pending = x0.pending ∧ (f x0 x1).trim = x0.trim ∧ (f x0 x1).fuses = x0.fuses) :
    (State.endArrival s n f).pending = s.pending ∧ (State.endArrival s n f).trim = s.trim ∧ (State.endArrival s n f).fuses = s.fuses := by
  unfold State.endArrival
  (repeat' split) <;> simp [*]
theorem State.endArrival_config_of (s : State) (n : Nat) (f : State → Node → State) (u : State) (h2 : ∀ (x0 : State) (x1 : Node), (f x0 x1).pending = x0.pending ∧ (f x0 x1).trim = x0.trim ∧ (f x0 x1).fuses = x0.fuses) (hu : (s).pending = u.pending ∧ (s).trim = u.trim ∧ (s).fuses = u.fuses) :
    (State.endArrival s n f).pending = u.pending ∧ (State.endArrival s n f).trim = u.trim ∧ (State.endArrival s n f).fuses = u.fuses := by
  have := State.endArrival_config s n f h2
  simp only [this, hu, and_self]
@[simp] theorem State.fenceFalls_config (s : State) :
    (State.fenceFalls s).pending = s.pending ∧ (State.fenceFalls s).trim = s.trim ∧ (State.fenceFalls s).fuses = s.fuses := by
  dsimp only [State.fenceFalls]
  (repeat' split) <;> simp
@[simp] theorem State.fenceDue_config (s : State) :
    (State.fenceDue s).pending = s.pending ∧ (State.fenceDue s).trim = s.trim ∧ (State.fenceDue s).fuses = s.fuses := by
  unfold State.fenceDue
  (repeat' split) <;> simp
@[simp] theorem State.sendReady_config (s : State) :
    (State.sendReady s).pending = s.pending ∧ (State.sendReady s).trim = s.trim ∧ (State.sendReady s).fuses = s.fuses := by
  unfold State.sendReady
  simp
@[simp] theorem State.settleFence_config (s : State) (k : Nat) :
    (s.settleFence k).pending = s.pending ∧ (s.settleFence k).trim = s.trim ∧ (s.settleFence k).fuses = s.fuses := by
  induction k generalizing s with
  | zero => exact ⟨rfl, rfl, rfl⟩
  | succ k ih =>
    unfold State.settleFence
    dsimp only
    (repeat' split) <;> simp [ih]
@[simp] theorem State.fenceFollow_config (s : State) :
    (State.fenceFollow s).pending = s.pending ∧ (State.fenceFollow s).trim = s.trim ∧ (State.fenceFollow s).fuses = s.fuses := by
  unfold State.fenceFollow
  simp
@[simp] theorem State.fenceStep_config (s : State) (n : Nat) (d : Node) :
    (State.fenceStep s n d).pending = s.pending ∧ (State.fenceStep s n d).trim = s.trim ∧ (State.fenceStep s n d).fuses = s.fuses := by
  unfold State.fenceStep
  (repeat' split) <;> simp
theorem execFenceStep_config (n : Nat) (s : State) (t0 : State) (h0 : execFenceStep n s = .next t0) :
    (t0).pending = s.pending ∧ (t0).trim = s.trim ∧ (t0).fuses = s.fuses := by
  obtain ⟨_, rfl⟩ := ok_next h0
  clear h0
  simp
@[simp] theorem State.losesFence_config (s : State) (detail : BitVec 32) (n : Nat) :
    (State.losesFence s detail n).pending = s.pending ∧ (State.losesFence s detail n).trim = s.trim ∧ (State.losesFence s detail n).fuses = s.fuses := by
  unfold State.losesFence
  simp
@[simp] theorem State.abandonFence_config (s : State) (detail : BitVec 32) :
    (State.abandonFence s detail).pending = s.pending ∧ (State.abandonFence s detail).trim = s.trim ∧ (State.abandonFence s detail).fuses = s.fuses := by
  unfold State.abandonFence
  simp
@[simp] theorem State.sendAbandon_config (s : State) :
    (State.sendAbandon s).pending = s.pending ∧ (State.sendAbandon s).trim = s.trim ∧ (State.sendAbandon s).fuses = s.fuses := by
  unfold State.sendAbandon
  simp
@[simp] theorem State.peerFence_config (s : State) (p : Nat) (x : BitVec 14) (detail : BitVec 32) :
    (State.peerFence s p x detail).pending = s.pending ∧ (State.peerFence s p x detail).trim = s.trim ∧ (State.peerFence s p x detail).fuses = s.fuses := by
  dsimp only [State.peerFence]
  (repeat' split) <;> simp
@[simp] theorem State.fenceRepeat_config (s : State) :
    (State.fenceRepeat s).pending = s.pending ∧ (State.fenceRepeat s).trim = s.trim ∧ (State.fenceRepeat s).fuses = s.fuses := by
  unfold State.fenceRepeat
  (repeat' split) <;> simp
@[simp] theorem State.loseOwner_config (s : State) (o : Owner) (src : Nat → Nat) (detail : BitVec 32) :
    (State.loseOwner s o src detail).pending = s.pending ∧ (State.loseOwner s o src detail).trim = s.trim ∧ (State.loseOwner s o src detail).fuses = s.fuses := by
  unfold State.loseOwner
  (repeat' split) <;> simp
@[simp] theorem State.breakObject_config (s : State) (x : BitVec 14) (chipgen : BitVec 8) (n : Nat) :
    (State.breakObject s x chipgen n).pending = s.pending ∧ (State.breakObject s x chipgen n).trim = s.trim ∧ (State.breakObject s x chipgen n).fuses = s.fuses := by
  dsimp only [State.breakObject]
  (repeat' split) <;> simp
@[simp] theorem State.breakHeld_config (s : State) (x : BitVec 14) (chipgen : BitVec 8) (n : Nat) :
    (State.breakHeld s x chipgen n).pending = s.pending ∧ (State.breakHeld s x chipgen n).trim = s.trim ∧ (State.breakHeld s x chipgen n).fuses = s.fuses := by
  unfold State.breakHeld
  simp
@[simp] theorem State.loseWaits_config (s : State) (p : Nat) (ns : List Nat) (detail : BitVec 32) :
    (State.loseWaits s p ns detail).pending = s.pending ∧ (State.loseWaits s p ns detail).trim = s.trim ∧ (State.loseWaits s p ns detail).fuses = s.fuses := by
  unfold State.loseWaits
  simp
@[simp] theorem State.losePeer_config (s : State) (p : Nat) (x : BitVec 14) (chipgen : BitVec 8) :
    (State.losePeer s p x chipgen).pending = s.pending ∧ (State.losePeer s p x chipgen).trim = s.trim ∧ (State.losePeer s p x chipgen).fuses = s.fuses := by
  unfold State.losePeer
  simp
@[simp] theorem State.notice_config (s : State) (c : Instr) (m : Notice) (typ : Nat) (f : State → State) (h4 : ∀ (x0 : State), (f x0).pending = x0.pending ∧ (f x0).trim = x0.trim ∧ (f x0).fuses = x0.fuses) :
    (State.notice s c m typ f).pending = s.pending ∧ (State.notice s c m typ f).trim = s.trim ∧ (State.notice s c m typ f).fuses = s.fuses := by
  dsimp only [State.notice]
  repeat' first | split | (with_reducible apply State.when_config_of <;> intros) | (with_reducible apply State.sbAnswer_config_of <;> intros) | (with_reducible apply State.deliver_config_of <;> intros) | (with_reducible apply State.withLines_config_of <;> intros) | (with_reducible apply State.withReads_config_of <;> intros) | (with_reducible apply State.whenHeld_config_of <;> intros) | (with_reducible apply State.lookup_config_of <;> intros) | (with_reducible apply State.hostRead_config_of <;> intros) | (with_reducible apply State.hostWrite_config_of <;> intros) | (with_reducible apply State.delivery_config_of <;> intros) | (with_reducible apply State.pageRead_config_of <;> intros) | (with_reducible apply State.pageWrite_config_of <;> intros) | (with_reducible apply State.stewardLines_config_of <;> intros) | (with_reducible apply State.choiceLines_config_of <;> intros) | (with_reducible apply State.preloadRead_config_of <;> intros) | (with_reducible apply State.opStep_config_of <;> intros) | (with_reducible apply State.receive_config_of <;> intros) | (with_reducible apply State.onObject_config_of <;> intros) | (with_reducible apply State.endOwner_config_of <;> intros) | (with_reducible apply State.chipWide_config_of <;> intros) | (with_reducible apply State.kernelStep_config_of <;> intros) | (with_reducible apply State.coreInstr_config_of <;> intros) | (with_reducible apply State.endArrival_config_of <;> intros) | (with_reducible apply State.notice_config_of <;> intros) | (with_reducible apply State.fenceNotice_config_of <;> intros) | (with_reducible apply State.handleStep_config_of <;> intros) | (with_reducible apply State.sysStep_config_of <;> intros) | (with_reducible apply State.forAll_config_of <;> intros) | (with_reducible apply foldl_config_of <;> intros)
  all_goals simp [*]
theorem State.notice_config_of (s : State) (c : Instr) (m : Notice) (typ : Nat) (f : State → State) (u : State) (h4 : ∀ (x0 : State), (f x0).pending = x0.pending ∧ (f x0).trim = x0.trim ∧ (f x0).fuses = x0.fuses) (hu : (s).pending = u.pending ∧ (s).trim = u.trim ∧ (s).fuses = u.fuses) :
    (State.notice s c m typ f).pending = u.pending ∧ (State.notice s c m typ f).trim = u.trim ∧ (State.notice s c m typ f).fuses = u.fuses := by
  have := State.notice_config s c m typ f h4
  simp only [this, hu, and_self]
@[simp] theorem State.doPeerlost_config (s : State) (m : Notice) :
    (State.doPeerlost s m).pending = s.pending ∧ (State.doPeerlost s m).trim = s.trim ∧ (State.doPeerlost s m).fuses = s.fuses := by
  dsimp only [State.doPeerlost]
  (repeat' split) <;> simp
theorem execPeerlost_config (m : Notice) (s : State) (t0 : State) (h0 : execPeerlost m s = .next t0) :
    (t0).pending = s.pending ∧ (t0).trim = s.trim ∧ (t0).fuses = s.fuses := by
  obtain ⟨_, rfl⟩ := ok_next h0
  clear h0
  simp
theorem execChipFault_config (m : Notice) (s : State) (t0 : State) (h0 : execChipFault m s = .next t0) :
    (t0).pending = s.pending ∧ (t0).trim = s.trim ∧ (t0).fuses = s.fuses := by
  obtain ⟨_, rfl⟩ := ok_next h0
  clear h0
  simp
@[simp] theorem State.doWithdraw_config (s : State) (m : Notice) :
    (State.doWithdraw s m).pending = s.pending ∧ (State.doWithdraw s m).trim = s.trim ∧ (State.doWithdraw s m).fuses = s.fuses := by
  dsimp only [State.doWithdraw]
  (repeat' split) <;> simp
theorem execWithdraw_config (m : Notice) (s : State) (t0 : State) (h0 : execWithdraw m s = .next t0) :
    (t0).pending = s.pending ∧ (t0).trim = s.trim ∧ (t0).fuses = s.fuses := by
  obtain ⟨_, rfl⟩ := ok_next h0
  clear h0
  simp
@[simp] theorem State.fenceNotice_config (s : State) (c : Instr) (m : Notice) (ftype : Nat) (f : State → State) (h4 : ∀ (x0 : State), (f x0).pending = x0.pending ∧ (f x0).trim = x0.trim ∧ (f x0).fuses = x0.fuses) :
    (State.fenceNotice s c m ftype f).pending = s.pending ∧ (State.fenceNotice s c m ftype f).trim = s.trim ∧ (State.fenceNotice s c m ftype f).fuses = s.fuses := by
  dsimp only [State.fenceNotice]
  repeat' first | split | (with_reducible apply State.when_config_of <;> intros) | (with_reducible apply State.sbAnswer_config_of <;> intros) | (with_reducible apply State.deliver_config_of <;> intros) | (with_reducible apply State.withLines_config_of <;> intros) | (with_reducible apply State.withReads_config_of <;> intros) | (with_reducible apply State.whenHeld_config_of <;> intros) | (with_reducible apply State.lookup_config_of <;> intros) | (with_reducible apply State.hostRead_config_of <;> intros) | (with_reducible apply State.hostWrite_config_of <;> intros) | (with_reducible apply State.delivery_config_of <;> intros) | (with_reducible apply State.pageRead_config_of <;> intros) | (with_reducible apply State.pageWrite_config_of <;> intros) | (with_reducible apply State.stewardLines_config_of <;> intros) | (with_reducible apply State.choiceLines_config_of <;> intros) | (with_reducible apply State.preloadRead_config_of <;> intros) | (with_reducible apply State.opStep_config_of <;> intros) | (with_reducible apply State.receive_config_of <;> intros) | (with_reducible apply State.onObject_config_of <;> intros) | (with_reducible apply State.endOwner_config_of <;> intros) | (with_reducible apply State.chipWide_config_of <;> intros) | (with_reducible apply State.kernelStep_config_of <;> intros) | (with_reducible apply State.coreInstr_config_of <;> intros) | (with_reducible apply State.endArrival_config_of <;> intros) | (with_reducible apply State.notice_config_of <;> intros) | (with_reducible apply State.fenceNotice_config_of <;> intros) | (with_reducible apply State.handleStep_config_of <;> intros) | (with_reducible apply State.sysStep_config_of <;> intros) | (with_reducible apply State.forAll_config_of <;> intros) | (with_reducible apply foldl_config_of <;> intros)
  all_goals simp [*]
theorem State.fenceNotice_config_of (s : State) (c : Instr) (m : Notice) (ftype : Nat) (f : State → State) (u : State) (h4 : ∀ (x0 : State), (f x0).pending = x0.pending ∧ (f x0).trim = x0.trim ∧ (f x0).fuses = x0.fuses) (hu : (s).pending = u.pending ∧ (s).trim = u.trim ∧ (s).fuses = u.fuses) :
    (State.fenceNotice s c m ftype f).pending = u.pending ∧ (State.fenceNotice s c m ftype f).trim = u.trim ∧ (State.fenceNotice s c m ftype f).fuses = u.fuses := by
  have := State.fenceNotice_config s c m ftype f h4
  simp only [this, hu, and_self]
@[simp] theorem State.fenceMismatch_config (s : State) :
    (State.fenceMismatch s).pending = s.pending ∧ (State.fenceMismatch s).trim = s.trim ∧ (State.fenceMismatch s).fuses = s.fuses := by
  unfold State.fenceMismatch
  simp
theorem execFenceReady_config (m : Notice) (s : State) (t0 : State) (h0 : execFenceReady m s = .next t0) :
    (t0).pending = s.pending ∧ (t0).trim = s.trim ∧ (t0).fuses = s.fuses := by
  obtain ⟨_, rfl⟩ := ok_next h0
  clear h0
  try dsimp only
  repeat' first | split | (with_reducible apply State.when_config_of <;> intros) | (with_reducible apply State.sbAnswer_config_of <;> intros) | (with_reducible apply State.deliver_config_of <;> intros) | (with_reducible apply State.withLines_config_of <;> intros) | (with_reducible apply State.withReads_config_of <;> intros) | (with_reducible apply State.whenHeld_config_of <;> intros) | (with_reducible apply State.lookup_config_of <;> intros) | (with_reducible apply State.hostRead_config_of <;> intros) | (with_reducible apply State.hostWrite_config_of <;> intros) | (with_reducible apply State.delivery_config_of <;> intros) | (with_reducible apply State.pageRead_config_of <;> intros) | (with_reducible apply State.pageWrite_config_of <;> intros) | (with_reducible apply State.stewardLines_config_of <;> intros) | (with_reducible apply State.choiceLines_config_of <;> intros) | (with_reducible apply State.preloadRead_config_of <;> intros) | (with_reducible apply State.opStep_config_of <;> intros) | (with_reducible apply State.receive_config_of <;> intros) | (with_reducible apply State.onObject_config_of <;> intros) | (with_reducible apply State.endOwner_config_of <;> intros) | (with_reducible apply State.chipWide_config_of <;> intros) | (with_reducible apply State.kernelStep_config_of <;> intros) | (with_reducible apply State.coreInstr_config_of <;> intros) | (with_reducible apply State.endArrival_config_of <;> intros) | (with_reducible apply State.notice_config_of <;> intros) | (with_reducible apply State.fenceNotice_config_of <;> intros) | (with_reducible apply State.handleStep_config_of <;> intros) | (with_reducible apply State.sysStep_config_of <;> intros) | (with_reducible apply State.forAll_config_of <;> intros) | (with_reducible apply foldl_config_of <;> intros)
  all_goals simp
theorem execFenceFall_config (m : Notice) (s : State) (t0 : State) (h0 : execFenceFall m s = .next t0) :
    (t0).pending = s.pending ∧ (t0).trim = s.trim ∧ (t0).fuses = s.fuses := by
  obtain ⟨_, rfl⟩ := ok_next h0
  clear h0
  try dsimp only
  repeat' first | split | (with_reducible apply State.when_config_of <;> intros) | (with_reducible apply State.sbAnswer_config_of <;> intros) | (with_reducible apply State.deliver_config_of <;> intros) | (with_reducible apply State.withLines_config_of <;> intros) | (with_reducible apply State.withReads_config_of <;> intros) | (with_reducible apply State.whenHeld_config_of <;> intros) | (with_reducible apply State.lookup_config_of <;> intros) | (with_reducible apply State.hostRead_config_of <;> intros) | (with_reducible apply State.hostWrite_config_of <;> intros) | (with_reducible apply State.delivery_config_of <;> intros) | (with_reducible apply State.pageRead_config_of <;> intros) | (with_reducible apply State.pageWrite_config_of <;> intros) | (with_reducible apply State.stewardLines_config_of <;> intros) | (with_reducible apply State.choiceLines_config_of <;> intros) | (with_reducible apply State.preloadRead_config_of <;> intros) | (with_reducible apply State.opStep_config_of <;> intros) | (with_reducible apply State.receive_config_of <;> intros) | (with_reducible apply State.onObject_config_of <;> intros) | (with_reducible apply State.endOwner_config_of <;> intros) | (with_reducible apply State.chipWide_config_of <;> intros) | (with_reducible apply State.kernelStep_config_of <;> intros) | (with_reducible apply State.coreInstr_config_of <;> intros) | (with_reducible apply State.endArrival_config_of <;> intros) | (with_reducible apply State.notice_config_of <;> intros) | (with_reducible apply State.fenceNotice_config_of <;> intros) | (with_reducible apply State.handleStep_config_of <;> intros) | (with_reducible apply State.sysStep_config_of <;> intros) | (with_reducible apply State.forAll_config_of <;> intros) | (with_reducible apply foldl_config_of <;> intros)
  all_goals simp
theorem execFenceAbandon_config (m : Notice) (s : State) (t0 : State) (h0 : execFenceAbandon m s = .next t0) :
    (t0).pending = s.pending ∧ (t0).trim = s.trim ∧ (t0).fuses = s.fuses := by
  obtain ⟨_, rfl⟩ := ok_next h0
  clear h0
  try dsimp only
  repeat' first | split | (with_reducible apply State.when_config_of <;> intros) | (with_reducible apply State.sbAnswer_config_of <;> intros) | (with_reducible apply State.deliver_config_of <;> intros) | (with_reducible apply State.withLines_config_of <;> intros) | (with_reducible apply State.withReads_config_of <;> intros) | (with_reducible apply State.whenHeld_config_of <;> intros) | (with_reducible apply State.lookup_config_of <;> intros) | (with_reducible apply State.hostRead_config_of <;> intros) | (with_reducible apply State.hostWrite_config_of <;> intros) | (with_reducible apply State.delivery_config_of <;> intros) | (with_reducible apply State.pageRead_config_of <;> intros) | (with_reducible apply State.pageWrite_config_of <;> intros) | (with_reducible apply State.stewardLines_config_of <;> intros) | (with_reducible apply State.choiceLines_config_of <;> intros) | (with_reducible apply State.preloadRead_config_of <;> intros) | (with_reducible apply State.opStep_config_of <;> intros) | (with_reducible apply State.receive_config_of <;> intros) | (with_reducible apply State.onObject_config_of <;> intros) | (with_reducible apply State.endOwner_config_of <;> intros) | (with_reducible apply State.chipWide_config_of <;> intros) | (with_reducible apply State.kernelStep_config_of <;> intros) | (with_reducible apply State.coreInstr_config_of <;> intros) | (with_reducible apply State.endArrival_config_of <;> intros) | (with_reducible apply State.notice_config_of <;> intros) | (with_reducible apply State.fenceNotice_config_of <;> intros) | (with_reducible apply State.handleStep_config_of <;> intros) | (with_reducible apply State.sysStep_config_of <;> intros) | (with_reducible apply State.forAll_config_of <;> intros) | (with_reducible apply foldl_config_of <;> intros)
  all_goals simp
@[simp] theorem State.recordEdge_config (s : State) :
    (State.recordEdge s).pending = s.pending ∧ (State.recordEdge s).trim = s.trim ∧ (State.recordEdge s).fuses = s.fuses := by
  unfold State.recordEdge
  simp
theorem execStepsyncEdge_config (s : State) (t0 : State) (h0 : execStepsyncEdge s = .next t0) :
    (t0).pending = s.pending ∧ (t0).trim = s.trim ∧ (t0).fuses = s.fuses := by
  obtain ⟨_, rfl⟩ := ok_next h0
  clear h0
  try dsimp only
  repeat' first | split | (with_reducible apply State.when_config_of <;> intros) | (with_reducible apply State.sbAnswer_config_of <;> intros) | (with_reducible apply State.deliver_config_of <;> intros) | (with_reducible apply State.withLines_config_of <;> intros) | (with_reducible apply State.withReads_config_of <;> intros) | (with_reducible apply State.whenHeld_config_of <;> intros) | (with_reducible apply State.lookup_config_of <;> intros) | (with_reducible apply State.hostRead_config_of <;> intros) | (with_reducible apply State.hostWrite_config_of <;> intros) | (with_reducible apply State.delivery_config_of <;> intros) | (with_reducible apply State.pageRead_config_of <;> intros) | (with_reducible apply State.pageWrite_config_of <;> intros) | (with_reducible apply State.stewardLines_config_of <;> intros) | (with_reducible apply State.choiceLines_config_of <;> intros) | (with_reducible apply State.preloadRead_config_of <;> intros) | (with_reducible apply State.opStep_config_of <;> intros) | (with_reducible apply State.receive_config_of <;> intros) | (with_reducible apply State.onObject_config_of <;> intros) | (with_reducible apply State.endOwner_config_of <;> intros) | (with_reducible apply State.chipWide_config_of <;> intros) | (with_reducible apply State.kernelStep_config_of <;> intros) | (with_reducible apply State.coreInstr_config_of <;> intros) | (with_reducible apply State.endArrival_config_of <;> intros) | (with_reducible apply State.notice_config_of <;> intros) | (with_reducible apply State.fenceNotice_config_of <;> intros) | (with_reducible apply State.handleStep_config_of <;> intros) | (with_reducible apply State.sysStep_config_of <;> intros) | (with_reducible apply State.forAll_config_of <;> intros) | (with_reducible apply foldl_config_of <;> intros)
  all_goals simp
theorem execStepsyncWindowExpiry_config (s : State) (t0 : State) (h0 : execStepsyncWindowExpiry s = .next t0) :
    (t0).pending = s.pending ∧ (t0).trim = s.trim ∧ (t0).fuses = s.fuses := by
  obtain ⟨_, rfl⟩ := ok_next h0
  clear h0
  try dsimp only
  repeat' first | split | (with_reducible apply State.when_config_of <;> intros) | (with_reducible apply State.sbAnswer_config_of <;> intros) | (with_reducible apply State.deliver_config_of <;> intros) | (with_reducible apply State.withLines_config_of <;> intros) | (with_reducible apply State.withReads_config_of <;> intros) | (with_reducible apply State.whenHeld_config_of <;> intros) | (with_reducible apply State.lookup_config_of <;> intros) | (with_reducible apply State.hostRead_config_of <;> intros) | (with_reducible apply State.hostWrite_config_of <;> intros) | (with_reducible apply State.delivery_config_of <;> intros) | (with_reducible apply State.pageRead_config_of <;> intros) | (with_reducible apply State.pageWrite_config_of <;> intros) | (with_reducible apply State.stewardLines_config_of <;> intros) | (with_reducible apply State.choiceLines_config_of <;> intros) | (with_reducible apply State.preloadRead_config_of <;> intros) | (with_reducible apply State.opStep_config_of <;> intros) | (with_reducible apply State.receive_config_of <;> intros) | (with_reducible apply State.onObject_config_of <;> intros) | (with_reducible apply State.endOwner_config_of <;> intros) | (with_reducible apply State.chipWide_config_of <;> intros) | (with_reducible apply State.kernelStep_config_of <;> intros) | (with_reducible apply State.coreInstr_config_of <;> intros) | (with_reducible apply State.endArrival_config_of <;> intros) | (with_reducible apply State.notice_config_of <;> intros) | (with_reducible apply State.fenceNotice_config_of <;> intros) | (with_reducible apply State.handleStep_config_of <;> intros) | (with_reducible apply State.sysStep_config_of <;> intros) | (with_reducible apply State.forAll_config_of <;> intros) | (with_reducible apply foldl_config_of <;> intros)
  all_goals simp
theorem execStaleEntryExpiry_config (i : Nat) (s : State) (t0 : State) (h0 : execStaleEntryExpiry i s = .next t0) :
    (t0).pending = s.pending ∧ (t0).trim = s.trim ∧ (t0).fuses = s.fuses := by
  obtain ⟨_, rfl⟩ := ok_next h0
  clear h0
  try dsimp only
  repeat' first | split | (with_reducible apply State.when_config_of <;> intros) | (with_reducible apply State.sbAnswer_config_of <;> intros) | (with_reducible apply State.deliver_config_of <;> intros) | (with_reducible apply State.withLines_config_of <;> intros) | (with_reducible apply State.withReads_config_of <;> intros) | (with_reducible apply State.whenHeld_config_of <;> intros) | (with_reducible apply State.lookup_config_of <;> intros) | (with_reducible apply State.hostRead_config_of <;> intros) | (with_reducible apply State.hostWrite_config_of <;> intros) | (with_reducible apply State.delivery_config_of <;> intros) | (with_reducible apply State.pageRead_config_of <;> intros) | (with_reducible apply State.pageWrite_config_of <;> intros) | (with_reducible apply State.stewardLines_config_of <;> intros) | (with_reducible apply State.choiceLines_config_of <;> intros) | (with_reducible apply State.preloadRead_config_of <;> intros) | (with_reducible apply State.opStep_config_of <;> intros) | (with_reducible apply State.receive_config_of <;> intros) | (with_reducible apply State.onObject_config_of <;> intros) | (with_reducible apply State.endOwner_config_of <;> intros) | (with_reducible apply State.chipWide_config_of <;> intros) | (with_reducible apply State.kernelStep_config_of <;> intros) | (with_reducible apply State.coreInstr_config_of <;> intros) | (with_reducible apply State.endArrival_config_of <;> intros) | (with_reducible apply State.notice_config_of <;> intros) | (with_reducible apply State.fenceNotice_config_of <;> intros) | (with_reducible apply State.handleStep_config_of <;> intros) | (with_reducible apply State.sysStep_config_of <;> intros) | (with_reducible apply State.forAll_config_of <;> intros) | (with_reducible apply foldl_config_of <;> intros)
  all_goals simp
@[simp] theorem State.sendPeerlost_config (s : State) (p : Nat) :
    (State.sendPeerlost s p).pending = s.pending ∧ (State.sendPeerlost s p).trim = s.trim ∧ (State.sendPeerlost s p).fuses = s.fuses := by
  unfold State.sendPeerlost
  simp
@[simp] theorem State.badSheaf_config (s : State) (n : Nat) (source code line : Nat) (member : Option Nat) (furrow : BitVec 10) (info addr : Word) :
    (State.badSheaf s n source code line member furrow info addr).pending = s.pending ∧ (State.badSheaf s n source code line member furrow info addr).trim = s.trim ∧ (State.badSheaf s n source code line member furrow info addr).fuses = s.fuses := by
  unfold State.badSheaf
  (repeat' split) <;> simp
@[simp] theorem State.badRun_config (s : State) (source : Nat) (k fr : Option Nat) (info addr : Word) :
    (State.badRun s source k fr info addr).pending = s.pending ∧ (State.badRun s source k fr info addr).trim = s.trim ∧ (State.badRun s source k fr info addr).fuses = s.fuses := by
  unfold State.badRun
  (repeat' split) <;> simp
@[simp] theorem State.clearHeld_config (s : State) (n : Nat) :
    (State.clearHeld s n).pending = s.pending ∧ (State.clearHeld s n).trim = s.trim ∧ (State.clearHeld s n).fuses = s.fuses := by
  unfold State.clearHeld
  simp
@[simp] theorem State.badObjects_config (s : State) (source : Nat) (ns : List Nat) (info addr : Word) :
    (State.badObjects s source ns info addr).pending = s.pending ∧ (State.badObjects s source ns info addr).trim = s.trim ∧ (State.badObjects s source ns info addr).fuses = s.fuses := by
  dsimp only [State.badObjects]
  (repeat' split) <;> simp
@[simp] theorem State.uncorrectable_config (s : State) (w : Storage) (info addr : Word) :
    (State.uncorrectable s w info addr).pending = s.pending ∧ (State.uncorrectable s w info addr).trim = s.trim ∧ (State.uncorrectable s w info addr).fuses = s.fuses := by
  unfold State.uncorrectable
  (repeat' split) <;> simp
theorem execPatrolScrub_config (w : Storage) (bad : Option Found) (s : State) (t0 : State) (h0 : execPatrolScrub w bad s = .next t0) :
    (t0).pending = s.pending ∧ (t0).trim = s.trim ∧ (t0).fuses = s.fuses := by
  obtain ⟨_, rfl⟩ := ok_next h0
  clear h0
  (repeat' split) <;> simp
@[simp] theorem State.restartChipWide_config (s : State) :
    (State.restartChipWide s).pending = s.pending ∧ (State.restartChipWide s).trim = s.trim ∧ (State.restartChipWide s).fuses = s.fuses := by
  dsimp only [State.restartChipWide]
  repeat' first | split | (with_reducible apply State.when_config_of <;> intros) | (with_reducible apply State.sbAnswer_config_of <;> intros) | (with_reducible apply State.deliver_config_of <;> intros) | (with_reducible apply State.withLines_config_of <;> intros) | (with_reducible apply State.withReads_config_of <;> intros) | (with_reducible apply State.whenHeld_config_of <;> intros) | (with_reducible apply State.lookup_config_of <;> intros) | (with_reducible apply State.hostRead_config_of <;> intros) | (with_reducible apply State.hostWrite_config_of <;> intros) | (with_reducible apply State.delivery_config_of <;> intros) | (with_reducible apply State.pageRead_config_of <;> intros) | (with_reducible apply State.pageWrite_config_of <;> intros) | (with_reducible apply State.stewardLines_config_of <;> intros) | (with_reducible apply State.choiceLines_config_of <;> intros) | (with_reducible apply State.preloadRead_config_of <;> intros) | (with_reducible apply State.opStep_config_of <;> intros) | (with_reducible apply State.receive_config_of <;> intros) | (with_reducible apply State.onObject_config_of <;> intros) | (with_reducible apply State.endOwner_config_of <;> intros) | (with_reducible apply State.chipWide_config_of <;> intros) | (with_reducible apply State.kernelStep_config_of <;> intros) | (with_reducible apply State.coreInstr_config_of <;> intros) | (with_reducible apply State.endArrival_config_of <;> intros) | (with_reducible apply State.notice_config_of <;> intros) | (with_reducible apply State.fenceNotice_config_of <;> intros) | (with_reducible apply State.handleStep_config_of <;> intros) | (with_reducible apply State.sysStep_config_of <;> intros) | (with_reducible apply State.forAll_config_of <;> intros) | (with_reducible apply foldl_config_of <;> intros)
  all_goals (try simp)
  all_goals (repeat' first | split | (with_reducible apply State.when_config_of <;> intros) | (with_reducible apply State.sbAnswer_config_of <;> intros) | (with_reducible apply State.deliver_config_of <;> intros) | (with_reducible apply State.withLines_config_of <;> intros) | (with_reducible apply State.withReads_config_of <;> intros) | (with_reducible apply State.whenHeld_config_of <;> intros) | (with_reducible apply State.lookup_config_of <;> intros) | (with_reducible apply State.hostRead_config_of <;> intros) | (with_reducible apply State.hostWrite_config_of <;> intros) | (with_reducible apply State.delivery_config_of <;> intros) | (with_reducible apply State.pageRead_config_of <;> intros) | (with_reducible apply State.pageWrite_config_of <;> intros) | (with_reducible apply State.stewardLines_config_of <;> intros) | (with_reducible apply State.choiceLines_config_of <;> intros) | (with_reducible apply State.preloadRead_config_of <;> intros) | (with_reducible apply State.opStep_config_of <;> intros) | (with_reducible apply State.receive_config_of <;> intros) | (with_reducible apply State.onObject_config_of <;> intros) | (with_reducible apply State.endOwner_config_of <;> intros) | (with_reducible apply State.chipWide_config_of <;> intros) | (with_reducible apply State.kernelStep_config_of <;> intros) | (with_reducible apply State.coreInstr_config_of <;> intros) | (with_reducible apply State.endArrival_config_of <;> intros) | (with_reducible apply State.notice_config_of <;> intros) | (with_reducible apply State.fenceNotice_config_of <;> intros) | (with_reducible apply State.handleStep_config_of <;> intros) | (with_reducible apply State.sysStep_config_of <;> intros) | (with_reducible apply State.forAll_config_of <;> intros) | (with_reducible apply foldl_config_of <;> intros))
  all_goals simp
@[simp] theorem State.moveCharge_config (s : State) (h : Nat) :
    (State.moveCharge s h).pending = s.pending ∧ (State.moveCharge s h).trim = s.trim ∧ (State.moveCharge s h).fuses = s.fuses := by
  unfold State.moveCharge
  simp
@[simp] theorem State.yieldCharge_config (s : State) (h answer : Nat) :
    (State.yieldCharge s h answer).pending = s.pending ∧ (State.yieldCharge s h answer).trim = s.trim ∧ (State.yieldCharge s h answer).fuses = s.fuses := by
  dsimp only [State.yieldCharge]
  (repeat' split) <;> simp
theorem execChargeCheck_config (h out0 out1 : Nat) (s : State) (t0 : State) (h0 : execChargeCheck h out0 out1 s = .next t0) :
    (t0).pending = s.pending ∧ (t0).trim = s.trim ∧ (t0).fuses = s.fuses := by
  obtain ⟨_, rfl⟩ := ok_next h0
  clear h0
  try dsimp only
  repeat' first | split | (with_reducible apply State.when_config_of <;> intros) | (with_reducible apply State.sbAnswer_config_of <;> intros) | (with_reducible apply State.deliver_config_of <;> intros) | (with_reducible apply State.withLines_config_of <;> intros) | (with_reducible apply State.withReads_config_of <;> intros) | (with_reducible apply State.whenHeld_config_of <;> intros) | (with_reducible apply State.lookup_config_of <;> intros) | (with_reducible apply State.hostRead_config_of <;> intros) | (with_reducible apply State.hostWrite_config_of <;> intros) | (with_reducible apply State.delivery_config_of <;> intros) | (with_reducible apply State.pageRead_config_of <;> intros) | (with_reducible apply State.pageWrite_config_of <;> intros) | (with_reducible apply State.stewardLines_config_of <;> intros) | (with_reducible apply State.choiceLines_config_of <;> intros) | (with_reducible apply State.preloadRead_config_of <;> intros) | (with_reducible apply State.opStep_config_of <;> intros) | (with_reducible apply State.receive_config_of <;> intros) | (with_reducible apply State.onObject_config_of <;> intros) | (with_reducible apply State.endOwner_config_of <;> intros) | (with_reducible apply State.chipWide_config_of <;> intros) | (with_reducible apply State.kernelStep_config_of <;> intros) | (with_reducible apply State.coreInstr_config_of <;> intros) | (with_reducible apply State.endArrival_config_of <;> intros) | (with_reducible apply State.notice_config_of <;> intros) | (with_reducible apply State.fenceNotice_config_of <;> intros) | (with_reducible apply State.handleStep_config_of <;> intros) | (with_reducible apply State.sysStep_config_of <;> intros) | (with_reducible apply State.forAll_config_of <;> intros) | (with_reducible apply foldl_config_of <;> intros)
  all_goals simp
theorem execHangSnapshot_config (s : State) (t0 : State) (h0 : execHangSnapshot s = .next t0) :
    (t0).pending = s.pending ∧ (t0).trim = s.trim ∧ (t0).fuses = s.fuses := by
  obtain ⟨_, rfl⟩ := ok_next h0
  clear h0
  simp
@[simp] theorem State.killWaiting_config (s : State) (es : List (HangId × HangId)) (bad : List HangId) (a : HangId) :
    (State.killWaiting s es bad a).pending = s.pending ∧ (State.killWaiting s es bad a).trim = s.trim ∧ (State.killWaiting s es bad a).fuses = s.fuses := by
  unfold State.killWaiting
  (repeat' split) <;> simp
@[simp] theorem State.killCycles_config (s : State) (es : List (HangId × HangId)) (cycs : List (List HangId)) :
    (State.killCycles s es cycs).pending = s.pending ∧ (State.killCycles s es cycs).trim = s.trim ∧ (State.killCycles s es cycs).fuses = s.fuses := by
  dsimp only [State.killCycles]
  repeat' first | split | (with_reducible apply State.when_config_of <;> intros) | (with_reducible apply State.sbAnswer_config_of <;> intros) | (with_reducible apply State.deliver_config_of <;> intros) | (with_reducible apply State.withLines_config_of <;> intros) | (with_reducible apply State.withReads_config_of <;> intros) | (with_reducible apply State.whenHeld_config_of <;> intros) | (with_reducible apply State.lookup_config_of <;> intros) | (with_reducible apply State.hostRead_config_of <;> intros) | (with_reducible apply State.hostWrite_config_of <;> intros) | (with_reducible apply State.delivery_config_of <;> intros) | (with_reducible apply State.pageRead_config_of <;> intros) | (with_reducible apply State.pageWrite_config_of <;> intros) | (with_reducible apply State.stewardLines_config_of <;> intros) | (with_reducible apply State.choiceLines_config_of <;> intros) | (with_reducible apply State.preloadRead_config_of <;> intros) | (with_reducible apply State.opStep_config_of <;> intros) | (with_reducible apply State.receive_config_of <;> intros) | (with_reducible apply State.onObject_config_of <;> intros) | (with_reducible apply State.endOwner_config_of <;> intros) | (with_reducible apply State.chipWide_config_of <;> intros) | (with_reducible apply State.kernelStep_config_of <;> intros) | (with_reducible apply State.coreInstr_config_of <;> intros) | (with_reducible apply State.endArrival_config_of <;> intros) | (with_reducible apply State.notice_config_of <;> intros) | (with_reducible apply State.fenceNotice_config_of <;> intros) | (with_reducible apply State.handleStep_config_of <;> intros) | (with_reducible apply State.sysStep_config_of <;> intros) | (with_reducible apply State.forAll_config_of <;> intros) | (with_reducible apply foldl_config_of <;> intros)
  all_goals simp
theorem execHangScanComplete_config (s : State) (t0 : State) (h0 : execHangScanComplete s = .next t0) :
    (t0).pending = s.pending ∧ (t0).trim = s.trim ∧ (t0).fuses = s.fuses := by
  obtain ⟨_, rfl⟩ := ok_next h0
  clear h0
  try dsimp only
  repeat' first | split | (with_reducible apply State.when_config_of <;> intros) | (with_reducible apply State.sbAnswer_config_of <;> intros) | (with_reducible apply State.deliver_config_of <;> intros) | (with_reducible apply State.withLines_config_of <;> intros) | (with_reducible apply State.withReads_config_of <;> intros) | (with_reducible apply State.whenHeld_config_of <;> intros) | (with_reducible apply State.lookup_config_of <;> intros) | (with_reducible apply State.hostRead_config_of <;> intros) | (with_reducible apply State.hostWrite_config_of <;> intros) | (with_reducible apply State.delivery_config_of <;> intros) | (with_reducible apply State.pageRead_config_of <;> intros) | (with_reducible apply State.pageWrite_config_of <;> intros) | (with_reducible apply State.stewardLines_config_of <;> intros) | (with_reducible apply State.choiceLines_config_of <;> intros) | (with_reducible apply State.preloadRead_config_of <;> intros) | (with_reducible apply State.opStep_config_of <;> intros) | (with_reducible apply State.receive_config_of <;> intros) | (with_reducible apply State.onObject_config_of <;> intros) | (with_reducible apply State.endOwner_config_of <;> intros) | (with_reducible apply State.chipWide_config_of <;> intros) | (with_reducible apply State.kernelStep_config_of <;> intros) | (with_reducible apply State.coreInstr_config_of <;> intros) | (with_reducible apply State.endArrival_config_of <;> intros) | (with_reducible apply State.notice_config_of <;> intros) | (with_reducible apply State.fenceNotice_config_of <;> intros) | (with_reducible apply State.handleStep_config_of <;> intros) | (with_reducible apply State.sysStep_config_of <;> intros) | (with_reducible apply State.forAll_config_of <;> intros) | (with_reducible apply foldl_config_of <;> intros)
  all_goals simp
theorem execHeartbeatPeriodEnd_config (s : State) (t0 : State) (h0 : execHeartbeatPeriodEnd s = .next t0) :
    (t0).pending = s.pending ∧ (t0).trim = s.trim ∧ (t0).fuses = s.fuses := by
  obtain ⟨_, rfl⟩ := ok_next h0
  clear h0
  try dsimp only
  repeat' first | split | (with_reducible apply State.when_config_of <;> intros) | (with_reducible apply State.sbAnswer_config_of <;> intros) | (with_reducible apply State.deliver_config_of <;> intros) | (with_reducible apply State.withLines_config_of <;> intros) | (with_reducible apply State.withReads_config_of <;> intros) | (with_reducible apply State.whenHeld_config_of <;> intros) | (with_reducible apply State.lookup_config_of <;> intros) | (with_reducible apply State.hostRead_config_of <;> intros) | (with_reducible apply State.hostWrite_config_of <;> intros) | (with_reducible apply State.delivery_config_of <;> intros) | (with_reducible apply State.pageRead_config_of <;> intros) | (with_reducible apply State.pageWrite_config_of <;> intros) | (with_reducible apply State.stewardLines_config_of <;> intros) | (with_reducible apply State.choiceLines_config_of <;> intros) | (with_reducible apply State.preloadRead_config_of <;> intros) | (with_reducible apply State.opStep_config_of <;> intros) | (with_reducible apply State.receive_config_of <;> intros) | (with_reducible apply State.onObject_config_of <;> intros) | (with_reducible apply State.endOwner_config_of <;> intros) | (with_reducible apply State.chipWide_config_of <;> intros) | (with_reducible apply State.kernelStep_config_of <;> intros) | (with_reducible apply State.coreInstr_config_of <;> intros) | (with_reducible apply State.endArrival_config_of <;> intros) | (with_reducible apply State.notice_config_of <;> intros) | (with_reducible apply State.fenceNotice_config_of <;> intros) | (with_reducible apply State.handleStep_config_of <;> intros) | (with_reducible apply State.sysStep_config_of <;> intros) | (with_reducible apply State.forAll_config_of <;> intros) | (with_reducible apply foldl_config_of <;> intros)
  all_goals simp
@[simp] theorem State.resetCaptures_config (s : State) :
    (State.resetCaptures s).pending = s.pending ∧ (State.resetCaptures s).trim = s.trim ∧ (State.resetCaptures s).fuses = s.fuses := by
  unfold State.resetCaptures
  simp
@[simp] theorem State.countRuns_config (s : State) (fd : ResetFindings) :
    (State.countRuns s fd).pending = s.pending ∧ (State.countRuns s fd).trim = s.trim ∧ (State.countRuns s fd).fuses = s.fuses := by
  dsimp only [State.countRuns]
  repeat' first | split | (with_reducible apply State.when_config_of <;> intros) | (with_reducible apply State.sbAnswer_config_of <;> intros) | (with_reducible apply State.deliver_config_of <;> intros) | (with_reducible apply State.withLines_config_of <;> intros) | (with_reducible apply State.withReads_config_of <;> intros) | (with_reducible apply State.whenHeld_config_of <;> intros) | (with_reducible apply State.lookup_config_of <;> intros) | (with_reducible apply State.hostRead_config_of <;> intros) | (with_reducible apply State.hostWrite_config_of <;> intros) | (with_reducible apply State.delivery_config_of <;> intros) | (with_reducible apply State.pageRead_config_of <;> intros) | (with_reducible apply State.pageWrite_config_of <;> intros) | (with_reducible apply State.stewardLines_config_of <;> intros) | (with_reducible apply State.choiceLines_config_of <;> intros) | (with_reducible apply State.preloadRead_config_of <;> intros) | (with_reducible apply State.opStep_config_of <;> intros) | (with_reducible apply State.receive_config_of <;> intros) | (with_reducible apply State.onObject_config_of <;> intros) | (with_reducible apply State.endOwner_config_of <;> intros) | (with_reducible apply State.chipWide_config_of <;> intros) | (with_reducible apply State.kernelStep_config_of <;> intros) | (with_reducible apply State.coreInstr_config_of <;> intros) | (with_reducible apply State.endArrival_config_of <;> intros) | (with_reducible apply State.notice_config_of <;> intros) | (with_reducible apply State.fenceNotice_config_of <;> intros) | (with_reducible apply State.handleStep_config_of <;> intros) | (with_reducible apply State.sysStep_config_of <;> intros) | (with_reducible apply State.forAll_config_of <;> intros) | (with_reducible apply foldl_config_of <;> intros)
  all_goals simp
@[simp] theorem State.resetAborts_config (s : State) (fd : ResetFindings) :
    (State.resetAborts s fd).pending = s.pending ∧ (State.resetAborts s fd).trim = s.trim ∧ (State.resetAborts s fd).fuses = s.fuses := by
  dsimp only [State.resetAborts]
  repeat' first | split | (with_reducible apply State.when_config_of <;> intros) | (with_reducible apply State.sbAnswer_config_of <;> intros) | (with_reducible apply State.deliver_config_of <;> intros) | (with_reducible apply State.withLines_config_of <;> intros) | (with_reducible apply State.withReads_config_of <;> intros) | (with_reducible apply State.whenHeld_config_of <;> intros) | (with_reducible apply State.lookup_config_of <;> intros) | (with_reducible apply State.hostRead_config_of <;> intros) | (with_reducible apply State.hostWrite_config_of <;> intros) | (with_reducible apply State.delivery_config_of <;> intros) | (with_reducible apply State.pageRead_config_of <;> intros) | (with_reducible apply State.pageWrite_config_of <;> intros) | (with_reducible apply State.stewardLines_config_of <;> intros) | (with_reducible apply State.choiceLines_config_of <;> intros) | (with_reducible apply State.preloadRead_config_of <;> intros) | (with_reducible apply State.opStep_config_of <;> intros) | (with_reducible apply State.receive_config_of <;> intros) | (with_reducible apply State.onObject_config_of <;> intros) | (with_reducible apply State.endOwner_config_of <;> intros) | (with_reducible apply State.chipWide_config_of <;> intros) | (with_reducible apply State.kernelStep_config_of <;> intros) | (with_reducible apply State.coreInstr_config_of <;> intros) | (with_reducible apply State.endArrival_config_of <;> intros) | (with_reducible apply State.notice_config_of <;> intros) | (with_reducible apply State.fenceNotice_config_of <;> intros) | (with_reducible apply State.handleStep_config_of <;> intros) | (with_reducible apply State.sysStep_config_of <;> intros) | (with_reducible apply State.forAll_config_of <;> intros) | (with_reducible apply foldl_config_of <;> intros)
  all_goals (try simp)
  all_goals (repeat' first | split | (with_reducible apply State.when_config_of <;> intros) | (with_reducible apply State.sbAnswer_config_of <;> intros) | (with_reducible apply State.deliver_config_of <;> intros) | (with_reducible apply State.withLines_config_of <;> intros) | (with_reducible apply State.withReads_config_of <;> intros) | (with_reducible apply State.whenHeld_config_of <;> intros) | (with_reducible apply State.lookup_config_of <;> intros) | (with_reducible apply State.hostRead_config_of <;> intros) | (with_reducible apply State.hostWrite_config_of <;> intros) | (with_reducible apply State.delivery_config_of <;> intros) | (with_reducible apply State.pageRead_config_of <;> intros) | (with_reducible apply State.pageWrite_config_of <;> intros) | (with_reducible apply State.stewardLines_config_of <;> intros) | (with_reducible apply State.choiceLines_config_of <;> intros) | (with_reducible apply State.preloadRead_config_of <;> intros) | (with_reducible apply State.opStep_config_of <;> intros) | (with_reducible apply State.receive_config_of <;> intros) | (with_reducible apply State.onObject_config_of <;> intros) | (with_reducible apply State.endOwner_config_of <;> intros) | (with_reducible apply State.chipWide_config_of <;> intros) | (with_reducible apply State.kernelStep_config_of <;> intros) | (with_reducible apply State.coreInstr_config_of <;> intros) | (with_reducible apply State.endArrival_config_of <;> intros) | (with_reducible apply State.notice_config_of <;> intros) | (with_reducible apply State.fenceNotice_config_of <;> intros) | (with_reducible apply State.handleStep_config_of <;> intros) | (with_reducible apply State.sysStep_config_of <;> intros) | (with_reducible apply State.forAll_config_of <;> intros) | (with_reducible apply foldl_config_of <;> intros))
  all_goals simp
@[simp] theorem State.takeSample_config (s : State) :
    (State.takeSample s).pending = s.pending ∧ (State.takeSample s).trim = s.trim ∧ (State.takeSample s).fuses = s.fuses := by
  unfold State.takeSample
  simp
@[simp] theorem State.partDump_config (s : State) (r : ResetReq) :
    (State.partDump s r).pending = s.pending ∧ (State.partDump s r).trim = s.trim ∧ (State.partDump s r).fuses = s.fuses := by
  unfold State.partDump
  simp
@[simp] theorem State.dumpFails_config (s : State) :
    (State.dumpFails s).pending = s.pending ∧ (State.dumpFails s).trim = s.trim ∧ (State.dumpFails s).fuses = s.fuses := by
  unfold State.dumpFails
  simp
@[simp] theorem State.resetClears_config (s : State) :
    (State.resetClears s).pending = s.pending ∧ (State.resetClears s).trim = s.trim ∧ (State.resetClears s).fuses = s.fuses := by
  unfold State.resetClears
  simp
@[simp] theorem State.spareCores_config (s : State) (cores failed : List (Nat × Nat)) :
    (State.spareCores s cores failed).pending = s.pending ∧ (State.spareCores s cores failed).trim = s.trim ∧ (State.spareCores s cores failed).fuses = s.fuses := by
  unfold State.spareCores
  simp
@[simp] theorem State.resetCharge_config (s : State) :
    (State.resetCharge s).pending = s.pending ∧ (State.resetCharge s).trim = s.trim ∧ (State.resetCharge s).fuses = s.fuses := by
  dsimp only [State.resetCharge]
  (repeat' split) <;> simp
@[simp] theorem State.loseHalf_config (s : State) (injected : Bool) (h : Nat) :
    (State.loseHalf s injected h).pending = s.pending ∧ (State.loseHalf s injected h).trim = s.trim ∧ (State.loseHalf s injected h).fuses = s.fuses := by
  unfold State.loseHalf
  simp
@[simp] theorem State.repairImem_config (s : State) (bad : List (Nat × Nat)) (spared : List Nat) :
    (State.repairImem s bad spared).pending = s.pending ∧ (State.repairImem s bad spared).trim = s.trim ∧ (State.repairImem s bad spared).fuses = s.fuses := by
  unfold State.repairImem
  (repeat' split) <;> simp
@[simp] theorem State.testCorrected_config (s : State) (ps : List Nat) :
    (State.testCorrected s ps).pending = s.pending ∧ (State.testCorrected s ps).trim = s.trim ∧ (State.testCorrected s ps).fuses = s.fuses := by
  unfold State.testCorrected
  simp
@[simp] theorem State.resetTests_config (s : State) (fd : ResetFindings) :
    (State.resetTests s fd).pending = s.pending ∧ (State.resetTests s fd).trim = s.trim ∧ (State.resetTests s fd).fuses = s.fuses := by
  dsimp only [State.resetTests]
  (repeat' split) <;> simp
@[simp] theorem State.resetStep6_config (s : State) (fd : ResetFindings) :
    (State.resetStep6 s fd).pending = s.pending ∧ (State.resetStep6 s fd).trim = s.trim ∧ (State.resetStep6 s fd).fuses = s.fuses := by
  unfold State.resetStep6
  simp
@[simp] theorem State.resetDump_config (s : State) (r : ResetReq) (fd : ResetFindings) :
    (State.resetDump s r fd).pending = s.pending ∧ (State.resetDump s r fd).trim = s.trim ∧ (State.resetDump s r fd).fuses = s.fuses := by
  dsimp only [State.resetDump]
  (repeat' split) <;> simp
theorem execComputeReset_config (fd : ResetFindings) (s : State) (t0 : State) (h0 : execComputeReset fd s = .next t0) :
    (t0).pending = s.pending ∧ (t0).trim = s.trim ∧ (t0).fuses = s.fuses := by
  obtain ⟨_, rfl⟩ := ok_next h0
  clear h0
  try dsimp only
  repeat' first | split | (with_reducible apply State.when_config_of <;> intros) | (with_reducible apply State.sbAnswer_config_of <;> intros) | (with_reducible apply State.deliver_config_of <;> intros) | (with_reducible apply State.withLines_config_of <;> intros) | (with_reducible apply State.withReads_config_of <;> intros) | (with_reducible apply State.whenHeld_config_of <;> intros) | (with_reducible apply State.lookup_config_of <;> intros) | (with_reducible apply State.hostRead_config_of <;> intros) | (with_reducible apply State.hostWrite_config_of <;> intros) | (with_reducible apply State.delivery_config_of <;> intros) | (with_reducible apply State.pageRead_config_of <;> intros) | (with_reducible apply State.pageWrite_config_of <;> intros) | (with_reducible apply State.stewardLines_config_of <;> intros) | (with_reducible apply State.choiceLines_config_of <;> intros) | (with_reducible apply State.preloadRead_config_of <;> intros) | (with_reducible apply State.opStep_config_of <;> intros) | (with_reducible apply State.receive_config_of <;> intros) | (with_reducible apply State.onObject_config_of <;> intros) | (with_reducible apply State.endOwner_config_of <;> intros) | (with_reducible apply State.chipWide_config_of <;> intros) | (with_reducible apply State.kernelStep_config_of <;> intros) | (with_reducible apply State.coreInstr_config_of <;> intros) | (with_reducible apply State.endArrival_config_of <;> intros) | (with_reducible apply State.notice_config_of <;> intros) | (with_reducible apply State.fenceNotice_config_of <;> intros) | (with_reducible apply State.handleStep_config_of <;> intros) | (with_reducible apply State.sysStep_config_of <;> intros) | (with_reducible apply State.forAll_config_of <;> intros) | (with_reducible apply foldl_config_of <;> intros)
  all_goals simp
theorem execDumpTimeout_config (s : State) (t0 : State) (h0 : execDumpTimeout s = .next t0) :
    (t0).pending = s.pending ∧ (t0).trim = s.trim ∧ (t0).fuses = s.fuses := by
  obtain ⟨_, rfl⟩ := ok_next h0
  clear h0
  try dsimp only
  repeat' first | split | (with_reducible apply State.when_config_of <;> intros) | (with_reducible apply State.sbAnswer_config_of <;> intros) | (with_reducible apply State.deliver_config_of <;> intros) | (with_reducible apply State.withLines_config_of <;> intros) | (with_reducible apply State.withReads_config_of <;> intros) | (with_reducible apply State.whenHeld_config_of <;> intros) | (with_reducible apply State.lookup_config_of <;> intros) | (with_reducible apply State.hostRead_config_of <;> intros) | (with_reducible apply State.hostWrite_config_of <;> intros) | (with_reducible apply State.delivery_config_of <;> intros) | (with_reducible apply State.pageRead_config_of <;> intros) | (with_reducible apply State.pageWrite_config_of <;> intros) | (with_reducible apply State.stewardLines_config_of <;> intros) | (with_reducible apply State.choiceLines_config_of <;> intros) | (with_reducible apply State.preloadRead_config_of <;> intros) | (with_reducible apply State.opStep_config_of <;> intros) | (with_reducible apply State.receive_config_of <;> intros) | (with_reducible apply State.onObject_config_of <;> intros) | (with_reducible apply State.endOwner_config_of <;> intros) | (with_reducible apply State.chipWide_config_of <;> intros) | (with_reducible apply State.kernelStep_config_of <;> intros) | (with_reducible apply State.coreInstr_config_of <;> intros) | (with_reducible apply State.endArrival_config_of <;> intros) | (with_reducible apply State.notice_config_of <;> intros) | (with_reducible apply State.fenceNotice_config_of <;> intros) | (with_reducible apply State.handleStep_config_of <;> intros) | (with_reducible apply State.sysStep_config_of <;> intros) | (with_reducible apply State.forAll_config_of <;> intros) | (with_reducible apply foldl_config_of <;> intros)
  all_goals simp
theorem execResetOverrun_config (s : State) (t0 : State) (h0 : execResetOverrun s = .next t0) :
    (t0).pending = s.pending ∧ (t0).trim = s.trim ∧ (t0).fuses = s.fuses := by
  obtain ⟨_, rfl⟩ := ok_next h0
  clear h0
  simp
theorem execRecoveryWindowExpiry_config (s : State) (t0 : State) (h0 : execRecoveryWindowExpiry s = .next t0) :
    (t0).pending = s.pending ∧ (t0).trim = s.trim ∧ (t0).fuses = s.fuses := by
  obtain ⟨_, rfl⟩ := ok_next h0
  clear h0
  simp
@[simp] theorem State.forceWire_config (s : State) (old v : Word) :
    (State.forceWire s old v).pending = s.pending ∧ (State.forceWire s old v).trim = s.trim ∧ (State.forceWire s old v).fuses = s.fuses := by
  dsimp only [State.forceWire]
  (repeat' split) <;> simp
@[simp] theorem State.writeInject_config (s : State) (v : Word) :
    (State.writeInject s v).pending = s.pending ∧ (State.writeInject s v).trim = s.trim ∧ (State.writeInject s v).fuses = s.fuses := by
  unfold State.writeInject
  (repeat' split) <;> simp
theorem execInjectFire_config (v : Word) (s : State) (t0 : State) (h0 : execInjectFire v s = .next t0) :
    (t0).pending = s.pending ∧ (t0).trim = s.trim ∧ (t0).fuses = s.fuses := by
  obtain ⟨_, rfl⟩ := ok_next h0
  clear h0
  simp
theorem execInjectWire_config (v : Word) (s : State) (t0 : State) (h0 : execInjectWire v s = .next t0) :
    (t0).pending = s.pending ∧ (t0).trim = s.trim ∧ (t0).fuses = s.fuses := by
  obtain ⟨_, rfl⟩ := ok_next h0
  clear h0
  simp
@[simp] theorem State.auditedWrite_config (s : State) (offset : Nat) (w : Written) (hs : w.s.pending = s.pending)
    (ha : ∀ t, (w.after t).pending = t.pending) : (s.auditedWrite offset w).pending = s.pending := by
  unfold State.auditedWrite
  split <;> simp [hs, ha]
@[simp] theorem State.modRegs_config (s : State) (f : Regs → Regs) :
    (State.modRegs s f).pending = s.pending ∧ (State.modRegs s f).trim = s.trim ∧ (State.modRegs s f).fuses = s.fuses := by
  unfold State.modRegs
  simp
@[simp] theorem State.writeCharge_config (s : State) (m v : Word) :
    (s.writeCharge m v).s.pending = s.pending ∧ ∀ t, ((s.writeCharge m v).after t).pending = t.pending := by
  unfold State.writeCharge
  (try dsimp only)
  (repeat' split) <;> (refine ⟨?_, fun t => ?_⟩ <;> (try dsimp only [id]) <;> (try (repeat' split)) <;> (try simp))
@[simp] theorem State.writeReserve_config (s : State) (m v : Word) :
    (s.writeReserve m v).s.pending = s.pending ∧ ∀ t, ((s.writeReserve m v).after t).pending = t.pending := by
  unfold State.writeReserve
  (try dsimp only)
  (repeat' split) <;> (refine ⟨?_, fun t => ?_⟩ <;> (try dsimp only [id]) <;> (try (repeat' split)) <;> (try simp))
@[simp] theorem State.writeHangmode_config (s : State) (m v : Word) :
    (s.writeHangmode m v).s.pending = s.pending ∧ ∀ t, ((s.writeHangmode m v).after t).pending = t.pending := by
  unfold State.writeHangmode
  (try dsimp only)
  (repeat' split) <;> (refine ⟨?_, fun t => ?_⟩ <;> (try dsimp only [id]) <;> (try (repeat' split)) <;> (try simp))
@[simp] theorem State.writeTrim_config (s : State) (part : Part) (m v : Word) :
    (s.writeTrim part m v).s.pending = s.pending ∧ ∀ t, ((s.writeTrim part m v).after t).pending = t.pending := by
  unfold State.writeTrim
  (try dsimp only)
  (repeat' split) <;> (refine ⟨?_, fun t => ?_⟩ <;> (try dsimp only [id]) <;> (try (repeat' split)) <;> (try simp))
@[simp] theorem State.writeClksrc_config (s : State) (m : Word) :
    (s.writeClksrc m).s.pending = s.pending ∧ ∀ t, ((s.writeClksrc m).after t).pending = t.pending := by
  unfold State.writeClksrc
  (try dsimp only)
  (repeat' split) <;> (refine ⟨?_, fun t => ?_⟩ <;> (try dsimp only [id]) <;> (try (repeat' split)) <;> (try simp))
@[simp] theorem State.writeClken_config (s : State) (m v : Word) :
    (s.writeClken m v).s.pending = s.pending ∧ ∀ t, ((s.writeClken m v).after t).pending = t.pending := by
  unfold State.writeClken
  (try dsimp only)
  (repeat' split) <;> (refine ⟨?_, fun t => ?_⟩ <;> (try dsimp only [id]) <;> (try (repeat' split)) <;> (try simp))
@[simp] theorem State.writeFencectl_config (s : State) (m v : Word) :
    (s.writeFencectl m v).s.pending = s.pending ∧ ∀ t, ((s.writeFencectl m v).after t).pending = t.pending := by
  unfold State.writeFencectl
  (try dsimp only)
  (repeat' split) <;> (refine ⟨?_, fun t => ?_⟩ <;> (try dsimp only [id]) <;> (try (repeat' split)) <;> (try simp))
@[simp] theorem State.writeFaultsrc_config (s : State) (m : Word) :
    (s.writeFaultsrc m).s.pending = s.pending ∧ ∀ t, ((s.writeFaultsrc m).after t).pending = t.pending := by
  unfold State.writeFaultsrc
  (try dsimp only)
  (repeat' split) <;> (refine ⟨?_, fun t => ?_⟩ <;> (try dsimp only [id]) <;> (try (repeat' split)) <;> (try simp))
@[simp] theorem State.writeHivepart_config (s : State) (p : Nat) (m v : Word) :
    (s.writeHivepart p m v).s.pending = s.pending ∧ ∀ t, ((s.writeHivepart p m v).after t).pending = t.pending := by
  unfold State.writeHivepart
  (try dsimp only)
  (repeat' split) <;> (refine ⟨?_, fun t => ?_⟩ <;> (try dsimp only [id]) <;> (try (repeat' split)) <;> (try simp))
@[simp] theorem State.writeGroup_config (s : State) (p : Nat) (m v : Word) :
    (s.writeGroup p m v).s.pending = s.pending ∧ ∀ t, ((s.writeGroup p m v).after t).pending = t.pending := by
  unfold State.writeGroup
  (try dsimp only)
  (repeat' split) <;> (refine ⟨?_, fun t => ?_⟩ <;> (try dsimp only [id]) <;> (try (repeat' split)) <;> (try simp))
@[simp] theorem State.writeVerneg_config (s : State) (m : Word) :
    (s.writeVerneg m).s.pending = s.pending ∧ ∀ t, ((s.writeVerneg m).after t).pending = t.pending := by
  unfold State.writeVerneg
  (try dsimp only)
  (repeat' split) <;> (refine ⟨?_, fun t => ?_⟩ <;> (try dsimp only [id]) <;> (try (repeat' split)) <;> (try simp))
@[simp] theorem State.bootContext_config (s : State) (h : Nat) :
    (State.bootContext s h).pending = s.pending ∧ (State.bootContext s h).trim = s.trim ∧ (State.bootContext s h).fuses = s.fuses := by
  dsimp only [State.bootContext]
  (repeat' split) <;> simp
@[simp] theorem State.writeBootq_config (s : State) (h : Nat) (m v : Word) :
    (s.writeBootq h m v).s.pending = s.pending ∧ ∀ t, ((s.writeBootq h m v).after t).pending = t.pending := by
  unfold State.writeBootq
  (try dsimp only)
  (repeat' split) <;> (refine ⟨?_, fun t => ?_⟩ <;> (try dsimp only [id]) <;> (try (repeat' split)) <;> (try simp))
@[simp] theorem State.writeResetctl_config (s : State) (v : Word) :
    (s.writeResetctl v).s.pending = s.pending ∧ ∀ t, ((s.writeResetctl v).after t).pending = t.pending := by
  unfold State.writeResetctl
  (try dsimp only)
  (repeat' split) <;> (refine ⟨?_, fun t => ?_⟩ <;> (try dsimp only [id]) <;> (try (repeat' split)) <;> (try simp))
@[simp] theorem State.writeAbortq_config (s : State) (part : Part) (v : Word) :
    (s.writeAbortq part v).s.pending = s.pending ∧ ∀ t, ((s.writeAbortq part v).after t).pending = t.pending := by
  unfold State.writeAbortq
  (try dsimp only)
  (repeat' split) <;> (refine ⟨?_, fun t => ?_⟩ <;> (try dsimp only [id]) <;> (try (repeat' split)) <;> (try simp))
@[simp] theorem State.writeFenceseq_config (s : State) (m : Word) :
    (s.writeFenceseq m).s.pending = s.pending ∧ ∀ t, ((s.writeFenceseq m).after t).pending = t.pending := by
  unfold State.writeFenceseq
  (try dsimp only)
  (repeat' split) <;> (refine ⟨?_, fun t => ?_⟩ <;> (try dsimp only [id]) <;> (try (repeat' split)) <;> (try simp))
@[simp] theorem State.writeFaultlog_config (s : State) (m : Word) :
    (s.writeFaultlog m).s.pending = s.pending ∧ ∀ t, ((s.writeFaultlog m).after t).pending = t.pending := by
  unfold State.writeFaultlog
  (try dsimp only)
  (repeat' split) <;> (refine ⟨?_, fun t => ?_⟩ <;> (try dsimp only [id]) <;> (try (repeat' split)) <;> (try simp))
@[simp] theorem State.writeTracectl_config (s : State) (m v : Word) :
    (s.writeTracectl m v).s.pending = s.pending ∧ ∀ t, ((s.writeTracectl m v).after t).pending = t.pending := by
  unfold State.writeTracectl
  (try dsimp only)
  (repeat' split) <;> (refine ⟨?_, fun t => ?_⟩ <;> (try dsimp only [id]) <;> (try (repeat' split)) <;> (try simp))
@[simp] theorem State.endPause_config (s : State) (c : Nat) :
    (State.endPause s c).pending = s.pending ∧ (State.endPause s c).trim = s.trim ∧ (State.endPause s c).fuses = s.fuses := by
  dsimp only [State.endPause]
  repeat' first | split | (with_reducible apply State.when_config_of <;> intros) | (with_reducible apply State.sbAnswer_config_of <;> intros) | (with_reducible apply State.deliver_config_of <;> intros) | (with_reducible apply State.withLines_config_of <;> intros) | (with_reducible apply State.withReads_config_of <;> intros) | (with_reducible apply State.whenHeld_config_of <;> intros) | (with_reducible apply State.lookup_config_of <;> intros) | (with_reducible apply State.hostRead_config_of <;> intros) | (with_reducible apply State.hostWrite_config_of <;> intros) | (with_reducible apply State.delivery_config_of <;> intros) | (with_reducible apply State.pageRead_config_of <;> intros) | (with_reducible apply State.pageWrite_config_of <;> intros) | (with_reducible apply State.stewardLines_config_of <;> intros) | (with_reducible apply State.choiceLines_config_of <;> intros) | (with_reducible apply State.preloadRead_config_of <;> intros) | (with_reducible apply State.opStep_config_of <;> intros) | (with_reducible apply State.receive_config_of <;> intros) | (with_reducible apply State.onObject_config_of <;> intros) | (with_reducible apply State.endOwner_config_of <;> intros) | (with_reducible apply State.chipWide_config_of <;> intros) | (with_reducible apply State.kernelStep_config_of <;> intros) | (with_reducible apply State.coreInstr_config_of <;> intros) | (with_reducible apply State.endArrival_config_of <;> intros) | (with_reducible apply State.notice_config_of <;> intros) | (with_reducible apply State.fenceNotice_config_of <;> intros) | (with_reducible apply State.handleStep_config_of <;> intros) | (with_reducible apply State.sysStep_config_of <;> intros) | (with_reducible apply State.forAll_config_of <;> intros) | (with_reducible apply foldl_config_of <;> intros)
  all_goals simp
@[simp] theorem State.writeBreakctl_config (s : State) (u : Nat) (m v : Word) :
    (s.writeBreakctl u m v).s.pending = s.pending ∧ ∀ t, ((s.writeBreakctl u m v).after t).pending = t.pending := by
  unfold State.writeBreakctl
  (try dsimp only)
  (repeat' split) <;> (refine ⟨?_, fun t => ?_⟩ <;> (try dsimp only [id]) <;> (try (repeat' split)) <;> (try simp))
@[simp] theorem State.writeBreakval_config (s : State) (u : Nat) (m : Word) :
    (s.writeBreakval u m).s.pending = s.pending ∧ ∀ t, ((s.writeBreakval u m).after t).pending = t.pending := by
  unfold State.writeBreakval
  (try dsimp only)
  (repeat' split) <;> (refine ⟨?_, fun t => ?_⟩ <;> (try dsimp only [id]) <;> (try (repeat' split)) <;> (try simp))
/-- What a register rule may do to the queue of commands: nothing, at once or after the audit. -/
def Written.keepsPending (s : State) (w : Written) : Prop :=
  w.s.pending = s.pending ∧ ∀ t, (w.after t).pending = t.pending
theorem ite_some_elim {c : Prop} [Decidable c] {s : State} {a w : Written} {x : Option Written}
    (ha : a.keepsPending s) (hx : x = some w → w.keepsPending s) :
    (if c then some a else x) = some w → w.keepsPending s := by
  by_cases hc : c
  · rw [if_pos hc]; intro h; exact Option.some.inj h ▸ ha
  · rw [if_neg hc]; exact hx
theorem State.installerRule_config {s : State} {off : Nat} {part : Part} {m v : Word} {w : Written} (h : s.installerRule off part m v = some w) :
    w.keepsPending s := by
  revert h
  unfold State.installerRule
  (try dsimp only)
  repeat' (with_reducible refine ite_some_elim ?_ ?_)
  all_goals first
    | (refine ⟨?_, fun t => ?_⟩ <;> (try split) <;> simp; done)
    | exact fun h => by cases h
theorem State.operatorRule_config {s : State} {off : Nat} {part : Part} {m v : Word} {w : Written} (h : s.operatorRule off part m v = some w) :
    w.keepsPending s := by
  revert h
  unfold State.operatorRule
  (try dsimp only)
  repeat' (with_reducible refine ite_some_elim ?_ ?_)
  all_goals first
    | (refine ⟨?_, fun t => ?_⟩ <;> (try split) <;> simp; done)
    | exact fun h => by cases h
@[simp] theorem State.hiveSnapshot_config (s : State) (m : Word) :
    (State.hiveSnapshot s m).pending = s.pending ∧ (State.hiveSnapshot s m).trim = s.trim ∧ (State.hiveSnapshot s m).fuses = s.fuses := by
  unfold State.hiveSnapshot
  simp
@[simp] theorem State.flushMsix_config (s : State) (v : Nat) :
    (State.flushMsix s v).pending = s.pending ∧ (State.flushMsix s v).trim = s.trim ∧ (State.flushMsix s v).fuses = s.fuses := by
  unfold State.flushMsix
  (repeat' split) <;> simp
@[simp] theorem State.writeMsix_config (s : State) (i : Nat) (m : Word) :
    (State.writeMsix s i m).pending = s.pending ∧ (State.writeMsix s i m).trim = s.trim ∧ (State.writeMsix s i m).fuses = s.fuses := by
  dsimp only [State.writeMsix]
  (repeat' split) <;> simp
@[simp] theorem State.writeMsixCap_config (s : State) (m : Word) :
    (State.writeMsixCap s m).pending = s.pending ∧ (State.writeMsixCap s m).trim = s.trim ∧ (State.writeMsixCap s m).fuses = s.fuses := by
  unfold State.writeMsixCap
  simp
theorem State.ruleAt_config {s : State} {off : Nat} {part : Part} {m v : Word} {w : Written}
    (h : s.ruleAt off part m v = some w) : w.keepsPending s := by
  unfold State.ruleAt at h
  split at h
  · exact State.installerRule_config h
  · split at h
    · exact State.operatorRule_config h
    · cases h
@[simp] theorem State.ignoredWrite_config (s : State) (off : Nat) : (s.ignoredWrite off).pending = s.pending := by
  unfold State.ignoredWrite
  split
  · exact State.auditedWrite_config _ _ _ rfl fun _ => rfl
  · rfl
theorem ite_pending {c : Prop} [Decidable c] {a b u : State} (ha : a.pending = u.pending)
    (hb : b.pending = u.pending) : (if c then a else b).pending = u.pending := by
  by_cases hc : c
  · rw [if_pos hc]; exact ha
  · rw [if_neg hc]; exact hb
@[simp] theorem State.performWrite_config (s : State) (off : Nat) (part : Part) (v : Word) :
    (s.performWrite off part v).pending = s.pending := by
  unfold State.performWrite
  refine ite_pending (by simp) (ite_pending (by simp) ?_)
  refine ite_pending (by simp) (ite_pending ?_ (ite_pending (by split <;> simp) (ite_pending (by simp) (ite_pending ?_ rfl))))
  · split
    · rename_i h; have := State.ruleAt_config h; simp [this.1, this.2]
    · rfl
  · exact ite_pending (by simp) (ite_pending (by simp) (ite_pending (by simp) rfl))
@[simp] theorem State.privWrite_config (s : State) (c : Instr) (off : Nat) (part : Part) (v : Word) :
    (s.privWrite c off part v).pending = s.pending := by
  unfold State.privWrite State.hostWrite
  (repeat' split) <;> simp
theorem execHiveDebugSelWrite_config (part : Part) (v : Word) (s : State) (t0 : State) (h0 : execHiveDebugSelWrite part v s = .next t0) :
    (t0).pending = s.pending := by
  obtain ⟨_, rfl⟩ := ok_next h0
  clear h0
  simp
theorem execAbortqWrite_config (part : Part) (v : Word) (s : State) (t0 : State) (h0 : execAbortqWrite part v s = .next t0) :
    (t0).pending = s.pending := by
  obtain ⟨_, rfl⟩ := ok_next h0
  clear h0
  simp
theorem execResetRequest_config (part : Part) (v : Word) (s : State) (t0 : State) (h0 : execResetRequest part v s = .next t0) :
    (t0).pending = s.pending := by
  obtain ⟨_, rfl⟩ := ok_next h0
  clear h0
  simp
theorem execFaultsrcWrite_config (part : Part) (v : Word) (s : State) (t0 : State) (h0 : execFaultsrcWrite part v s = .next t0) :
    (t0).pending = s.pending := by
  obtain ⟨_, rfl⟩ := ok_next h0
  clear h0
  simp
theorem execGroupWrite_config (p : Nat) (part : Part) (v : Word) (s : State) (t0 : State) (h0 : execGroupWrite p part v s = .next t0) :
    (t0).pending = s.pending := by
  obtain ⟨_, rfl⟩ := ok_next h0
  clear h0
  simp
theorem execFencectlWrite_config (part : Part) (v : Word) (s : State) (t0 : State) (h0 : execFencectlWrite part v s = .next t0) :
    (t0).pending = s.pending := by
  obtain ⟨_, rfl⟩ := ok_next h0
  clear h0
  simp
theorem execFenceseqWrite_config (part : Part) (v : Word) (s : State) (t0 : State) (h0 : execFenceseqWrite part v s = .next t0) :
    (t0).pending = s.pending := by
  obtain ⟨_, rfl⟩ := ok_next h0
  clear h0
  simp
theorem execHivepartWrite_config (p : Nat) (part : Part) (v : Word) (s : State) (t0 : State) (h0 : execHivepartWrite p part v s = .next t0) :
    (t0).pending = s.pending := by
  obtain ⟨_, rfl⟩ := ok_next h0
  clear h0
  simp
theorem execReserveWrite_config (part : Part) (v : Word) (s : State) (t0 : State) (h0 : execReserveWrite part v s = .next t0) :
    (t0).pending = s.pending := by
  obtain ⟨_, rfl⟩ := ok_next h0
  clear h0
  simp
theorem execHangmodeWrite_config (part : Part) (v : Word) (s : State) (t0 : State) (h0 : execHangmodeWrite part v s = .next t0) :
    (t0).pending = s.pending := by
  obtain ⟨_, rfl⟩ := ok_next h0
  clear h0
  simp
theorem execVernegOfferWrite_config (part : Part) (v : Word) (s : State) (t0 : State) (h0 : execVernegOfferWrite part v s = .next t0) :
    (t0).pending = s.pending := by
  obtain ⟨_, rfl⟩ := ok_next h0
  clear h0
  simp
theorem execBootqEnable_config (h : Nat) (part : Part) (v : Word) (s : State) (t0 : State) (h0 : execBootqEnable h part v s = .next t0) :
    (t0).pending = s.pending := by
  obtain ⟨_, rfl⟩ := ok_next h0
  clear h0
  simp
theorem execClkenWrite_config (part : Part) (v : Word) (s : State) (t0 : State) (h0 : execClkenWrite part v s = .next t0) :
    (t0).pending = s.pending := by
  obtain ⟨_, rfl⟩ := ok_next h0
  clear h0
  simp
theorem execTrimWrite_config (part : Part) (v : Word) (s : State) (t0 : State) (h0 : execTrimWrite part v s = .next t0) :
    (t0).pending = s.pending := by
  obtain ⟨_, rfl⟩ := ok_next h0
  clear h0
  simp
theorem execBreakctlWrite_config (u : Nat) (part : Part) (v : Word) (s : State) (t0 : State) (h0 : execBreakctlWrite u part v s = .next t0) :
    (t0).pending = s.pending := by
  obtain ⟨_, rfl⟩ := ok_next h0
  clear h0
  simp
theorem execBreakResume_config (u : Nat) (s : State) (t0 : State) (h0 : execBreakResume u s = .next t0) :
    (t0).pending = s.pending := by
  obtain ⟨_, rfl⟩ := ok_next h0
  clear h0
  simp
theorem execTraceClear_config (part : Part) (v : Word) (s : State) (t0 : State) (h0 : execTraceClear part v s = .next t0) :
    (t0).pending = s.pending := by
  obtain ⟨_, rfl⟩ := ok_next h0
  clear h0
  simp
theorem execFlush_config (part : Part) (v : Word) (s : State) (t0 : State) (h0 : execFlush part v s = .next t0) :
    (t0).pending = s.pending := by
  obtain ⟨_, rfl⟩ := ok_next h0
  clear h0
  simp
theorem execRegisterWrite_config (offset : Nat) (part : Part) (v : Word) (s : State) (t0 : State) (h0 : execRegisterWrite offset part v s = .next t0) :
    t0.pending = s.pending := by
  obtain ⟨_, rfl⟩ := ok_next h0
  clear h0
  unfold State.hostRead
  (repeat' split) <;> simp
@[simp] theorem State.doLatchedRead_config (s : State) (fn : Fn) (r : LatchReg) (part : Part) :
    (State.doLatchedRead s fn r part).pending = s.pending ∧ (State.doLatchedRead s fn r part).trim = s.trim ∧ (State.doLatchedRead s fn r part).fuses = s.fuses := by
  unfold State.doLatchedRead
  (repeat' split) <;> simp
theorem execLatchedDataRead_config (fn : Fn) (r : LatchRead) (s : State) (t0 : State) (h0 : execLatchedDataRead fn r s = .next t0) :
    (t0).pending = s.pending ∧ (t0).trim = s.trim ∧ (t0).fuses = s.fuses := by
  obtain ⟨_, rfl⟩ := ok_next h0
  clear h0
  simp
@[simp] theorem State.readPage_config (s : State) (fn : Fn) (q off : Nat) (part : Part) :
    (State.readPage s fn q off part).pending = s.pending ∧ (State.readPage s fn q off part).trim = s.trim ∧ (State.readPage s fn q off part).fuses = s.fuses := by
  unfold State.readPage
  (repeat' split) <;> simp
@[simp] theorem State.readRegs_config (s : State) (off : Nat) :
    (State.readRegs s off).pending = s.pending ∧ (State.readRegs s off).trim = s.trim ∧ (State.readRegs s off).fuses = s.fuses := by
  unfold State.readRegs
  (repeat' split) <;> simp
@[simp] theorem State.readBar_config (s : State) (off : Nat) (part : Part) :
    (State.readBar s off part).pending = s.pending ∧ (State.readBar s off part).trim = s.trim ∧ (State.readBar s off part).fuses = s.fuses := by
  dsimp only [State.readBar]
  (repeat' split) <;> simp
@[simp] theorem State.doRead_config (s : State) (fn : Fn) (r : CountReg) (part : Part) :
    (State.doRead s fn r part).pending = s.pending ∧ (State.doRead s fn r part).trim = s.trim ∧ (State.doRead s fn r part).fuses = s.fuses := by
  unfold State.doRead
  (repeat' split) <;> simp
theorem execLowHalfRead_config (fn : Fn) (r : CountReg) (part : Part) (s : State) (t0 : State) (h0 : execLowHalfRead fn r part s = .next t0) :
    (t0).pending = s.pending ∧ (t0).trim = s.trim ∧ (t0).fuses = s.fuses := by
  obtain ⟨_, rfl⟩ := ok_next h0
  clear h0
  simp
@[simp] theorem State.placcessWrite_config (s : State) (addr : Nat) (v : Word) :
    (State.placcessWrite s addr v).pending = s.pending := by
  unfold State.placcessWrite
  (repeat' split) <;> simp
theorem execPlaccessUpdate_config (addr : Nat) (v : Word) (s : State) (t0 : State) (h0 : execPlaccessUpdate addr v s = .next t0) :
    (t0).pending = s.pending := by
  obtain ⟨_, rfl⟩ := ok_next h0
  clear h0
  simp
theorem execPlaccessRead_config (addr : Nat) (s : State) (t0 : State) (h0 : execPlaccessRead addr s = .next t0) :
    t0.pending = s.pending := by
  obtain ⟨_, rfl⟩ := ok_next h0
  clear h0
  unfold State.when
  dsimp only
  (repeat' split) <;> rfl
@[simp] theorem State.unpowered_config (s : State) :
    (State.unpowered s).pending = s.pending := by
  unfold State.unpowered
  simp
@[simp] theorem State.supplyGood_config (s : State) (factory : Bool) :
    (State.supplyGood s factory).pending = s.pending := by
  unfold State.supplyGood
  simp
theorem execPowerUp_config (factory : Bool) (s : State) (t0 : State) (h0 : execPowerUp factory s = .next t0) :
    t0.pending = s.pending := by
  obtain ⟨_, rfl⟩ := ok_next h0
  clear h0
  unfold State.when
  (repeat' split) <;> simp
theorem execPowerRemoval_config (s : State) (t0 : State) (h0 : execPowerRemoval s = .next t0) :
    (t0).pending = s.pending := by
  obtain ⟨_, rfl⟩ := ok_next h0
  clear h0
  simp
theorem execStabilityWindow_config (count : Nat) (s : State) (t0 : State) (h0 : execStabilityWindow count s = .next t0) :
    (t0).pending = s.pending := by
  obtain ⟨_, rfl⟩ := ok_next h0
  clear h0
  (repeat' split) <;> simp
theorem execStabilityTimeout_config (s : State) (t0 : State) (h0 : execStabilityTimeout s = .next t0) :
    (t0).pending = s.pending ∧ (t0).trim = s.trim ∧ (t0).fuses = s.fuses := by
  obtain ⟨_, rfl⟩ := ok_next h0
  clear h0
  (repeat' split) <;> simp
@[simp] theorem State.settleXing_config (s : State) :
    (State.settleXing s).pending = s.pending := by
  unfold State.settleXing
  simp
@[simp] theorem State.enterTrim_config (s : State) (st : TrimState) :
    (State.enterTrim s st).pending = s.pending := by
  unfold State.enterTrim
  simp
@[simp] theorem State.measureGate_config (s : State) (count : Nat) :
    (State.measureGate s count).pending = s.pending := by
  dsimp only [State.measureGate]
  (repeat' split) <;> simp
@[simp] theorem State.applyTrim_config (s : State) :
    (State.applyTrim s).pending = s.pending := by
  dsimp only [State.applyTrim]
  (repeat' split) <;> simp
theorem execTrimGate_config (count : Nat) (s : State) (t0 : State) (h0 : execTrimGate count s = .next t0) :
    t0.pending = s.pending := by
  obtain ⟨_, rfl⟩ := ok_next h0
  unfold State.when
  dsimp only
  split
  · split <;> simp
  · rfl
theorem execReferenceLoss_config (s : State) (t0 : State) (h0 : execReferenceLoss s = .next t0) :
    t0.pending = s.pending := by
  obtain ⟨_, rfl⟩ := ok_next h0
  clear h0
  unfold State.when
  dsimp only
  (repeat' split) <;> simp
theorem execReferenceReturn_config (s : State) (t0 : State) (h0 : execReferenceReturn s = .next t0) :
    t0.pending = s.pending := by
  obtain ⟨_, rfl⟩ := ok_next h0
  clear h0
  unfold State.when
  dsimp only
  (repeat' split) <;> simp
theorem execHoldoverExpiry_config (s : State) (t0 : State) (h0 : execHoldoverExpiry s = .next t0) :
    t0.pending = s.pending := by
  obtain ⟨_, rfl⟩ := ok_next h0
  clear h0
  unfold State.when
  (repeat' split) <;> simp
theorem execLinkClockLoss_config (s : State) (t0 : State) (h0 : execLinkClockLoss s = .next t0) :
    (t0).pending = s.pending ∧ (t0).trim = s.trim ∧ (t0).fuses = s.fuses := by
  obtain ⟨_, rfl⟩ := ok_next h0
  clear h0
  simp
theorem execLinkClockReturn_config (s : State) (t0 : State) (h0 : execLinkClockReturn s = .next t0) :
    (t0).pending = s.pending ∧ (t0).trim = s.trim ∧ (t0).fuses = s.fuses := by
  obtain ⟨_, rfl⟩ := ok_next h0
  clear h0
  simp
theorem execIdleEntry_config (s : State) (t0 : State) (h0 : execIdleEntry s = .next t0) :
    (t0).pending = s.pending ∧ (t0).trim = s.trim ∧ (t0).fuses = s.fuses := by
  obtain ⟨_, rfl⟩ := ok_next h0
  clear h0
  try dsimp only
  repeat' first | split | (with_reducible apply State.when_config_of <;> intros) | (with_reducible apply State.sbAnswer_config_of <;> intros) | (with_reducible apply State.deliver_config_of <;> intros) | (with_reducible apply State.withLines_config_of <;> intros) | (with_reducible apply State.withReads_config_of <;> intros) | (with_reducible apply State.whenHeld_config_of <;> intros) | (with_reducible apply State.lookup_config_of <;> intros) | (with_reducible apply State.hostRead_config_of <;> intros) | (with_reducible apply State.hostWrite_config_of <;> intros) | (with_reducible apply State.delivery_config_of <;> intros) | (with_reducible apply State.pageRead_config_of <;> intros) | (with_reducible apply State.pageWrite_config_of <;> intros) | (with_reducible apply State.stewardLines_config_of <;> intros) | (with_reducible apply State.choiceLines_config_of <;> intros) | (with_reducible apply State.preloadRead_config_of <;> intros) | (with_reducible apply State.opStep_config_of <;> intros) | (with_reducible apply State.receive_config_of <;> intros) | (with_reducible apply State.onObject_config_of <;> intros) | (with_reducible apply State.endOwner_config_of <;> intros) | (with_reducible apply State.chipWide_config_of <;> intros) | (with_reducible apply State.kernelStep_config_of <;> intros) | (with_reducible apply State.coreInstr_config_of <;> intros) | (with_reducible apply State.endArrival_config_of <;> intros) | (with_reducible apply State.notice_config_of <;> intros) | (with_reducible apply State.fenceNotice_config_of <;> intros) | (with_reducible apply State.handleStep_config_of <;> intros) | (with_reducible apply State.sysStep_config_of <;> intros) | (with_reducible apply State.forAll_config_of <;> intros) | (with_reducible apply foldl_config_of <;> intros)
  all_goals simp
theorem execIdleWake_config (s : State) (t0 : State) (h0 : execIdleWake s = .next t0) :
    (t0).pending = s.pending ∧ (t0).trim = s.trim ∧ (t0).fuses = s.fuses := by
  obtain ⟨_, rfl⟩ := ok_next h0
  clear h0
  (repeat' split) <;> simp
theorem execPlaliveToggle_config (s : State) (t0 : State) (h0 : execPlaliveToggle s = .next t0) :
    (t0).pending = s.pending ∧ (t0).trim = s.trim ∧ (t0).fuses = s.fuses := by
  obtain ⟨_, rfl⟩ := ok_next h0
  clear h0
  simp
theorem execEnergyCalibrated_config (f : Nat) (s : State) (t0 : State) (h0 : execEnergyCalibrated f s = .next t0) :
    (t0).pending = s.pending ∧ (t0).trim = s.trim ∧ (t0).fuses = s.fuses := by
  obtain ⟨_, rfl⟩ := ok_next h0
  clear h0
  try dsimp only
  repeat' first | split | (with_reducible apply State.when_config_of <;> intros) | (with_reducible apply State.sbAnswer_config_of <;> intros) | (with_reducible apply State.deliver_config_of <;> intros) | (with_reducible apply State.withLines_config_of <;> intros) | (with_reducible apply State.withReads_config_of <;> intros) | (with_reducible apply State.whenHeld_config_of <;> intros) | (with_reducible apply State.lookup_config_of <;> intros) | (with_reducible apply State.hostRead_config_of <;> intros) | (with_reducible apply State.hostWrite_config_of <;> intros) | (with_reducible apply State.delivery_config_of <;> intros) | (with_reducible apply State.pageRead_config_of <;> intros) | (with_reducible apply State.pageWrite_config_of <;> intros) | (with_reducible apply State.stewardLines_config_of <;> intros) | (with_reducible apply State.choiceLines_config_of <;> intros) | (with_reducible apply State.preloadRead_config_of <;> intros) | (with_reducible apply State.opStep_config_of <;> intros) | (with_reducible apply State.receive_config_of <;> intros) | (with_reducible apply State.onObject_config_of <;> intros) | (with_reducible apply State.endOwner_config_of <;> intros) | (with_reducible apply State.chipWide_config_of <;> intros) | (with_reducible apply State.kernelStep_config_of <;> intros) | (with_reducible apply State.coreInstr_config_of <;> intros) | (with_reducible apply State.endArrival_config_of <;> intros) | (with_reducible apply State.notice_config_of <;> intros) | (with_reducible apply State.fenceNotice_config_of <;> intros) | (with_reducible apply State.handleStep_config_of <;> intros) | (with_reducible apply State.sysStep_config_of <;> intros) | (with_reducible apply State.forAll_config_of <;> intros) | (with_reducible apply foldl_config_of <;> intros)
  all_goals simp
theorem execTemperatureReport_config (celsius : Int) (s : State) (t0 : State) (h0 : execTemperatureReport celsius s = .next t0) :
    (t0).pending = s.pending ∧ (t0).trim = s.trim ∧ (t0).fuses = s.fuses := by
  obtain ⟨_, rfl⟩ := ok_next h0
  clear h0
  simp
theorem execTransferEnd_config (f : Nat) (tag : BitVec 32) (dest : BitVec 14) (packets : Nat) (s : State) (t0 : State) (h0 : execTransferEnd f tag dest packets s = .next t0) :
    (t0).pending = s.pending ∧ (t0).trim = s.trim ∧ (t0).fuses = s.fuses := by
  obtain ⟨_, rfl⟩ := ok_next h0
  clear h0
  simp
@[simp] theorem State.blockWindow_config (s : State) (k fr : Nat) (r : Run) (addr : Word) :
    (State.blockWindow s k fr r addr).pending = s.pending ∧ (State.blockWindow s k fr r addr).trim = s.trim ∧ (State.blockWindow s k fr r addr).fuses = s.fuses := by
  unfold State.blockWindow
  (repeat' split) <;> simp
@[simp] theorem State.blockStep_config (s : State) (k rd ra rb lines op : Nat) :
    (State.blockStep s k rd ra rb lines op).pending = s.pending ∧ (State.blockStep s k rd ra rb lines op).trim = s.trim ∧ (State.blockStep s k rd ra rb lines op).fuses = s.fuses := by
  dsimp only [State.blockStep]
  repeat' first | split | (with_reducible apply State.when_config_of <;> intros) | (with_reducible apply State.sbAnswer_config_of <;> intros) | (with_reducible apply State.deliver_config_of <;> intros) | (with_reducible apply State.withLines_config_of <;> intros) | (with_reducible apply State.withReads_config_of <;> intros) | (with_reducible apply State.whenHeld_config_of <;> intros) | (with_reducible apply State.lookup_config_of <;> intros) | (with_reducible apply State.hostRead_config_of <;> intros) | (with_reducible apply State.hostWrite_config_of <;> intros) | (with_reducible apply State.delivery_config_of <;> intros) | (with_reducible apply State.pageRead_config_of <;> intros) | (with_reducible apply State.pageWrite_config_of <;> intros) | (with_reducible apply State.stewardLines_config_of <;> intros) | (with_reducible apply State.choiceLines_config_of <;> intros) | (with_reducible apply State.preloadRead_config_of <;> intros) | (with_reducible apply State.opStep_config_of <;> intros) | (with_reducible apply State.receive_config_of <;> intros) | (with_reducible apply State.onObject_config_of <;> intros) | (with_reducible apply State.endOwner_config_of <;> intros) | (with_reducible apply State.chipWide_config_of <;> intros) | (with_reducible apply State.kernelStep_config_of <;> intros) | (with_reducible apply State.coreInstr_config_of <;> intros) | (with_reducible apply State.endArrival_config_of <;> intros) | (with_reducible apply State.notice_config_of <;> intros) | (with_reducible apply State.fenceNotice_config_of <;> intros) | (with_reducible apply State.handleStep_config_of <;> intros) | (with_reducible apply State.sysStep_config_of <;> intros) | (with_reducible apply State.forAll_config_of <;> intros) | (with_reducible apply foldl_config_of <;> intros)
  all_goals simp
theorem execMfill_config (k rd ra rb lines : Nat) (s : State) (t0 : State) (h0 : execMfill k rd ra rb lines s = .next t0) :
    (t0).pending = s.pending ∧ (t0).trim = s.trim ∧ (t0).fuses = s.fuses := by
  obtain ⟨_, rfl⟩ := ok_next h0
  clear h0
  simp
theorem execMdrain_config (k rd ra rb lines : Nat) (s : State) (t0 : State) (h0 : execMdrain k rd ra rb lines s = .next t0) :
    (t0).pending = s.pending ∧ (t0).trim = s.trim ∧ (t0).fuses = s.fuses := by
  obtain ⟨_, rfl⟩ := ok_next h0
  clear h0
  simp
@[simp] theorem State.fillEcc_config (s : State) (k fr : Nat) (r : Run) (x : Transfer) (line : Nat) :
    (State.fillEcc s k fr r x line).pending = s.pending ∧ (State.fillEcc s k fr r x line).trim = s.trim ∧ (State.fillEcc s k fr r x line).fuses = s.fuses := by
  unfold State.fillEcc
  (repeat' split) <;> simp
theorem execBlockTransferComplete_config (k fr : Nat) (a : FabricReply) (s : State) (t0 : State) (h0 : execBlockTransferComplete k fr a s = .next t0) :
    (t0).pending = s.pending ∧ (t0).trim = s.trim ∧ (t0).fuses = s.fuses := by
  obtain ⟨_, rfl⟩ := ok_next h0
  clear h0
  try dsimp only
  repeat' first | split | (with_reducible apply State.when_config_of <;> intros) | (with_reducible apply State.sbAnswer_config_of <;> intros) | (with_reducible apply State.deliver_config_of <;> intros) | (with_reducible apply State.withLines_config_of <;> intros) | (with_reducible apply State.withReads_config_of <;> intros) | (with_reducible apply State.whenHeld_config_of <;> intros) | (with_reducible apply State.lookup_config_of <;> intros) | (with_reducible apply State.hostRead_config_of <;> intros) | (with_reducible apply State.hostWrite_config_of <;> intros) | (with_reducible apply State.delivery_config_of <;> intros) | (with_reducible apply State.pageRead_config_of <;> intros) | (with_reducible apply State.pageWrite_config_of <;> intros) | (with_reducible apply State.stewardLines_config_of <;> intros) | (with_reducible apply State.choiceLines_config_of <;> intros) | (with_reducible apply State.preloadRead_config_of <;> intros) | (with_reducible apply State.opStep_config_of <;> intros) | (with_reducible apply State.receive_config_of <;> intros) | (with_reducible apply State.onObject_config_of <;> intros) | (with_reducible apply State.endOwner_config_of <;> intros) | (with_reducible apply State.chipWide_config_of <;> intros) | (with_reducible apply State.kernelStep_config_of <;> intros) | (with_reducible apply State.coreInstr_config_of <;> intros) | (with_reducible apply State.endArrival_config_of <;> intros) | (with_reducible apply State.notice_config_of <;> intros) | (with_reducible apply State.fenceNotice_config_of <;> intros) | (with_reducible apply State.handleStep_config_of <;> intros) | (with_reducible apply State.sysStep_config_of <;> intros) | (with_reducible apply State.forAll_config_of <;> intros) | (with_reducible apply foldl_config_of <;> intros)
  all_goals simp
@[simp] theorem State.stallRun_config (s : State) (k fr : Nat) (r : Run) (x : LineAccess) :
    (State.stallRun s k fr r x).pending = s.pending ∧ (State.stallRun s k fr r x).trim = s.trim ∧ (State.stallRun s k fr r x).fuses = s.fuses := by
  unfold State.stallRun
  (repeat' split) <;> simp
@[simp] theorem State.loadWord_config (s : State) (k fr rd : Nat) (r : Run) (v : Word) (bad : Option Found) :
    (State.loadWord s k fr rd r v bad).pending = s.pending ∧ (State.loadWord s k fr rd r v bad).trim = s.trim ∧ (State.loadWord s k fr rd r v bad).fuses = s.fuses := by
  unfold State.loadWord
  (repeat' split) <;> simp
theorem execTld_config (x : CoreRead) (rd ra rb : Nat) (s : State) (t0 : State) (h0 : execTld x rd ra rb s = .next t0) :
    (t0).pending = s.pending ∧ (t0).trim = s.trim ∧ (t0).fuses = s.fuses := by
  obtain ⟨_, rfl⟩ := ok_next h0
  clear h0
  try dsimp only
  repeat' first | split | (with_reducible apply State.when_config_of <;> intros) | (with_reducible apply State.sbAnswer_config_of <;> intros) | (with_reducible apply State.deliver_config_of <;> intros) | (with_reducible apply State.withLines_config_of <;> intros) | (with_reducible apply State.withReads_config_of <;> intros) | (with_reducible apply State.whenHeld_config_of <;> intros) | (with_reducible apply State.lookup_config_of <;> intros) | (with_reducible apply State.hostRead_config_of <;> intros) | (with_reducible apply State.hostWrite_config_of <;> intros) | (with_reducible apply State.delivery_config_of <;> intros) | (with_reducible apply State.pageRead_config_of <;> intros) | (with_reducible apply State.pageWrite_config_of <;> intros) | (with_reducible apply State.stewardLines_config_of <;> intros) | (with_reducible apply State.choiceLines_config_of <;> intros) | (with_reducible apply State.preloadRead_config_of <;> intros) | (with_reducible apply State.opStep_config_of <;> intros) | (with_reducible apply State.receive_config_of <;> intros) | (with_reducible apply State.onObject_config_of <;> intros) | (with_reducible apply State.endOwner_config_of <;> intros) | (with_reducible apply State.chipWide_config_of <;> intros) | (with_reducible apply State.kernelStep_config_of <;> intros) | (with_reducible apply State.coreInstr_config_of <;> intros) | (with_reducible apply State.endArrival_config_of <;> intros) | (with_reducible apply State.notice_config_of <;> intros) | (with_reducible apply State.fenceNotice_config_of <;> intros) | (with_reducible apply State.handleStep_config_of <;> intros) | (with_reducible apply State.sysStep_config_of <;> intros) | (with_reducible apply State.forAll_config_of <;> intros) | (with_reducible apply foldl_config_of <;> intros)
  all_goals simp
theorem execTst_config (k rd ra rb : Nat) (s : State) (t0 : State) (h0 : execTst k rd ra rb s = .next t0) :
    (t0).pending = s.pending ∧ (t0).trim = s.trim ∧ (t0).fuses = s.fuses := by
  obtain ⟨_, rfl⟩ := ok_next h0
  clear h0
  try dsimp only
  repeat' first | split | (with_reducible apply State.when_config_of <;> intros) | (with_reducible apply State.sbAnswer_config_of <;> intros) | (with_reducible apply State.deliver_config_of <;> intros) | (with_reducible apply State.withLines_config_of <;> intros) | (with_reducible apply State.withReads_config_of <;> intros) | (with_reducible apply State.whenHeld_config_of <;> intros) | (with_reducible apply State.lookup_config_of <;> intros) | (with_reducible apply State.hostRead_config_of <;> intros) | (with_reducible apply State.hostWrite_config_of <;> intros) | (with_reducible apply State.delivery_config_of <;> intros) | (with_reducible apply State.pageRead_config_of <;> intros) | (with_reducible apply State.pageWrite_config_of <;> intros) | (with_reducible apply State.stewardLines_config_of <;> intros) | (with_reducible apply State.choiceLines_config_of <;> intros) | (with_reducible apply State.preloadRead_config_of <;> intros) | (with_reducible apply State.opStep_config_of <;> intros) | (with_reducible apply State.receive_config_of <;> intros) | (with_reducible apply State.onObject_config_of <;> intros) | (with_reducible apply State.endOwner_config_of <;> intros) | (with_reducible apply State.chipWide_config_of <;> intros) | (with_reducible apply State.kernelStep_config_of <;> intros) | (with_reducible apply State.coreInstr_config_of <;> intros) | (with_reducible apply State.endArrival_config_of <;> intros) | (with_reducible apply State.notice_config_of <;> intros) | (with_reducible apply State.fenceNotice_config_of <;> intros) | (with_reducible apply State.handleStep_config_of <;> intros) | (with_reducible apply State.sysStep_config_of <;> intros) | (with_reducible apply State.forAll_config_of <;> intros) | (with_reducible apply foldl_config_of <;> intros)
  all_goals simp
theorem execSbind_config (k rd ra rb : Nat) (s : State) (t0 : State) (h0 : execSbind k rd ra rb s = .next t0) :
    (t0).pending = s.pending ∧ (t0).trim = s.trim ∧ (t0).fuses = s.fuses := by
  obtain ⟨_, rfl⟩ := ok_next h0
  clear h0
  try dsimp only
  repeat' first | split | (with_reducible apply State.when_config_of <;> intros) | (with_reducible apply State.sbAnswer_config_of <;> intros) | (with_reducible apply State.deliver_config_of <;> intros) | (with_reducible apply State.withLines_config_of <;> intros) | (with_reducible apply State.withReads_config_of <;> intros) | (with_reducible apply State.whenHeld_config_of <;> intros) | (with_reducible apply State.lookup_config_of <;> intros) | (with_reducible apply State.hostRead_config_of <;> intros) | (with_reducible apply State.hostWrite_config_of <;> intros) | (with_reducible apply State.delivery_config_of <;> intros) | (with_reducible apply State.pageRead_config_of <;> intros) | (with_reducible apply State.pageWrite_config_of <;> intros) | (with_reducible apply State.stewardLines_config_of <;> intros) | (with_reducible apply State.choiceLines_config_of <;> intros) | (with_reducible apply State.preloadRead_config_of <;> intros) | (with_reducible apply State.opStep_config_of <;> intros) | (with_reducible apply State.receive_config_of <;> intros) | (with_reducible apply State.onObject_config_of <;> intros) | (with_reducible apply State.endOwner_config_of <;> intros) | (with_reducible apply State.chipWide_config_of <;> intros) | (with_reducible apply State.kernelStep_config_of <;> intros) | (with_reducible apply State.coreInstr_config_of <;> intros) | (with_reducible apply State.endArrival_config_of <;> intros) | (with_reducible apply State.notice_config_of <;> intros) | (with_reducible apply State.fenceNotice_config_of <;> intros) | (with_reducible apply State.handleStep_config_of <;> intros) | (with_reducible apply State.sysStep_config_of <;> intros) | (with_reducible apply State.forAll_config_of <;> intros) | (with_reducible apply foldl_config_of <;> intros)
  all_goals simp
@[simp] theorem State.pushStep_config (s : State) (k rd ra rb fn : Nat) (e : Run → Option Word) :
    (State.pushStep s k rd ra rb fn e).pending = s.pending ∧ (State.pushStep s k rd ra rb fn e).trim = s.trim ∧ (State.pushStep s k rd ra rb fn e).fuses = s.fuses := by
  dsimp only [State.pushStep]
  repeat' first | split | (with_reducible apply State.when_config_of <;> intros) | (with_reducible apply State.sbAnswer_config_of <;> intros) | (with_reducible apply State.deliver_config_of <;> intros) | (with_reducible apply State.withLines_config_of <;> intros) | (with_reducible apply State.withReads_config_of <;> intros) | (with_reducible apply State.whenHeld_config_of <;> intros) | (with_reducible apply State.lookup_config_of <;> intros) | (with_reducible apply State.hostRead_config_of <;> intros) | (with_reducible apply State.hostWrite_config_of <;> intros) | (with_reducible apply State.delivery_config_of <;> intros) | (with_reducible apply State.pageRead_config_of <;> intros) | (with_reducible apply State.pageWrite_config_of <;> intros) | (with_reducible apply State.stewardLines_config_of <;> intros) | (with_reducible apply State.choiceLines_config_of <;> intros) | (with_reducible apply State.preloadRead_config_of <;> intros) | (with_reducible apply State.opStep_config_of <;> intros) | (with_reducible apply State.receive_config_of <;> intros) | (with_reducible apply State.onObject_config_of <;> intros) | (with_reducible apply State.endOwner_config_of <;> intros) | (with_reducible apply State.chipWide_config_of <;> intros) | (with_reducible apply State.kernelStep_config_of <;> intros) | (with_reducible apply State.coreInstr_config_of <;> intros) | (with_reducible apply State.endArrival_config_of <;> intros) | (with_reducible apply State.notice_config_of <;> intros) | (with_reducible apply State.fenceNotice_config_of <;> intros) | (with_reducible apply State.handleStep_config_of <;> intros) | (with_reducible apply State.sysStep_config_of <;> intros) | (with_reducible apply State.forAll_config_of <;> intros) | (with_reducible apply foldl_config_of <;> intros)
  all_goals simp
theorem execSpush_config (k rd ra rb : Nat) (s : State) (t0 : State) (h0 : execSpush k rd ra rb s = .next t0) :
    (t0).pending = s.pending ∧ (t0).trim = s.trim ∧ (t0).fuses = s.fuses := by
  obtain ⟨_, rfl⟩ := ok_next h0
  clear h0
  simp
theorem execSend_config (k rd ra rb : Nat) (s : State) (t0 : State) (h0 : execSend k rd ra rb s = .next t0) :
    (t0).pending = s.pending ∧ (t0).trim = s.trim ∧ (t0).fuses = s.fuses := by
  obtain ⟨_, rfl⟩ := ok_next h0
  clear h0
  simp
theorem execScred_config (k rd ra rb : Nat) (s : State) (t0 : State) (h0 : execScred k rd ra rb s = .next t0) :
    (t0).pending = s.pending ∧ (t0).trim = s.trim ∧ (t0).fuses = s.fuses := by
  obtain ⟨_, rfl⟩ := ok_next h0
  clear h0
  try dsimp only
  repeat' first | split | (with_reducible apply State.when_config_of <;> intros) | (with_reducible apply State.sbAnswer_config_of <;> intros) | (with_reducible apply State.deliver_config_of <;> intros) | (with_reducible apply State.withLines_config_of <;> intros) | (with_reducible apply State.withReads_config_of <;> intros) | (with_reducible apply State.whenHeld_config_of <;> intros) | (with_reducible apply State.lookup_config_of <;> intros) | (with_reducible apply State.hostRead_config_of <;> intros) | (with_reducible apply State.hostWrite_config_of <;> intros) | (with_reducible apply State.delivery_config_of <;> intros) | (with_reducible apply State.pageRead_config_of <;> intros) | (with_reducible apply State.pageWrite_config_of <;> intros) | (with_reducible apply State.stewardLines_config_of <;> intros) | (with_reducible apply State.choiceLines_config_of <;> intros) | (with_reducible apply State.preloadRead_config_of <;> intros) | (with_reducible apply State.opStep_config_of <;> intros) | (with_reducible apply State.receive_config_of <;> intros) | (with_reducible apply State.onObject_config_of <;> intros) | (with_reducible apply State.endOwner_config_of <;> intros) | (with_reducible apply State.chipWide_config_of <;> intros) | (with_reducible apply State.kernelStep_config_of <;> intros) | (with_reducible apply State.coreInstr_config_of <;> intros) | (with_reducible apply State.endArrival_config_of <;> intros) | (with_reducible apply State.notice_config_of <;> intros) | (with_reducible apply State.fenceNotice_config_of <;> intros) | (with_reducible apply State.handleStep_config_of <;> intros) | (with_reducible apply State.sysStep_config_of <;> intros) | (with_reducible apply State.forAll_config_of <;> intros) | (with_reducible apply foldl_config_of <;> intros)
  all_goals simp
theorem execStreamLineTimeout_config (k fr port : Nat) (s : State) (t0 : State) (h0 : execStreamLineTimeout k fr port s = .next t0) :
    (t0).pending = s.pending ∧ (t0).trim = s.trim ∧ (t0).fuses = s.fuses := by
  obtain ⟨_, rfl⟩ := ok_next h0
  clear h0
  try dsimp only
  repeat' first | split | (with_reducible apply State.when_config_of <;> intros) | (with_reducible apply State.sbAnswer_config_of <;> intros) | (with_reducible apply State.deliver_config_of <;> intros) | (with_reducible apply State.withLines_config_of <;> intros) | (with_reducible apply State.withReads_config_of <;> intros) | (with_reducible apply State.whenHeld_config_of <;> intros) | (with_reducible apply State.lookup_config_of <;> intros) | (with_reducible apply State.hostRead_config_of <;> intros) | (with_reducible apply State.hostWrite_config_of <;> intros) | (with_reducible apply State.delivery_config_of <;> intros) | (with_reducible apply State.pageRead_config_of <;> intros) | (with_reducible apply State.pageWrite_config_of <;> intros) | (with_reducible apply State.stewardLines_config_of <;> intros) | (with_reducible apply State.choiceLines_config_of <;> intros) | (with_reducible apply State.preloadRead_config_of <;> intros) | (with_reducible apply State.opStep_config_of <;> intros) | (with_reducible apply State.receive_config_of <;> intros) | (with_reducible apply State.onObject_config_of <;> intros) | (with_reducible apply State.endOwner_config_of <;> intros) | (with_reducible apply State.chipWide_config_of <;> intros) | (with_reducible apply State.kernelStep_config_of <;> intros) | (with_reducible apply State.coreInstr_config_of <;> intros) | (with_reducible apply State.endArrival_config_of <;> intros) | (with_reducible apply State.notice_config_of <;> intros) | (with_reducible apply State.fenceNotice_config_of <;> intros) | (with_reducible apply State.handleStep_config_of <;> intros) | (with_reducible apply State.sysStep_config_of <;> intros) | (with_reducible apply State.forAll_config_of <;> intros) | (with_reducible apply foldl_config_of <;> intros)
  all_goals simp
@[simp] theorem State.returnCredit_config (s : State) (k j : Nat) (p : Port) :
    (State.returnCredit s k j p).pending = s.pending ∧ (State.returnCredit s k j p).trim = s.trim ∧ (State.returnCredit s k j p).fuses = s.fuses := by
  unfold State.returnCredit
  (repeat' split) <;> simp
theorem execStreamCreditReturn_config (p : PortReport) (s : State) (t0 : State) (h0 : execStreamCreditReturn p s = .next t0) :
    (t0).pending = s.pending ∧ (t0).trim = s.trim ∧ (t0).fuses = s.fuses := by
  obtain ⟨_, rfl⟩ := ok_next h0
  clear h0
  refine State.when_config _ _ _ fun u => ?_
  refine State.reportFor_config _ _ _ _ fun r => ?_
  try dsimp only
  (repeat' split) <;> simp
@[simp] theorem State.issue_config (s : State) (k fr rd : Nat) (r : Run) (d : Node) (n num : Nat) (ls cfg : List Line) (pred : Option Handle) :
    (State.issue s k fr rd r d n num ls cfg pred).pending = s.pending ∧ (State.issue s k fr rd r d n num ls cfg pred).trim = s.trim ∧ (State.issue s k fr rd r d n num ls cfg pred).fuses = s.fuses := by
  unfold State.issue
  simp
theorem execEmit_config (k rd ra rb : Nat) (s : State) (t0 : State) (h0 : execEmit k rd ra rb s = .next t0) :
    (t0).pending = s.pending ∧ (t0).trim = s.trim ∧ (t0).fuses = s.fuses := by
  obtain ⟨_, rfl⟩ := ok_next h0
  clear h0
  try dsimp only
  repeat' first | split | (with_reducible apply State.when_config_of <;> intros) | (with_reducible apply State.sbAnswer_config_of <;> intros) | (with_reducible apply State.deliver_config_of <;> intros) | (with_reducible apply State.withLines_config_of <;> intros) | (with_reducible apply State.withReads_config_of <;> intros) | (with_reducible apply State.whenHeld_config_of <;> intros) | (with_reducible apply State.lookup_config_of <;> intros) | (with_reducible apply State.hostRead_config_of <;> intros) | (with_reducible apply State.hostWrite_config_of <;> intros) | (with_reducible apply State.delivery_config_of <;> intros) | (with_reducible apply State.pageRead_config_of <;> intros) | (with_reducible apply State.pageWrite_config_of <;> intros) | (with_reducible apply State.stewardLines_config_of <;> intros) | (with_reducible apply State.choiceLines_config_of <;> intros) | (with_reducible apply State.preloadRead_config_of <;> intros) | (with_reducible apply State.opStep_config_of <;> intros) | (with_reducible apply State.receive_config_of <;> intros) | (with_reducible apply State.onObject_config_of <;> intros) | (with_reducible apply State.endOwner_config_of <;> intros) | (with_reducible apply State.chipWide_config_of <;> intros) | (with_reducible apply State.kernelStep_config_of <;> intros) | (with_reducible apply State.coreInstr_config_of <;> intros) | (with_reducible apply State.endArrival_config_of <;> intros) | (with_reducible apply State.notice_config_of <;> intros) | (with_reducible apply State.fenceNotice_config_of <;> intros) | (with_reducible apply State.handleStep_config_of <;> intros) | (with_reducible apply State.sysStep_config_of <;> intros) | (with_reducible apply State.forAll_config_of <;> intros) | (with_reducible apply foldl_config_of <;> intros)
  all_goals simp
theorem execReemit_config (k rd ra rb : Nat) (s : State) (t0 : State) (h0 : execReemit k rd ra rb s = .next t0) :
    (t0).pending = s.pending ∧ (t0).trim = s.trim ∧ (t0).fuses = s.fuses := by
  obtain ⟨_, rfl⟩ := ok_next h0
  clear h0
  try dsimp only
  repeat' first | split | (with_reducible apply State.when_config_of <;> intros) | (with_reducible apply State.sbAnswer_config_of <;> intros) | (with_reducible apply State.deliver_config_of <;> intros) | (with_reducible apply State.withLines_config_of <;> intros) | (with_reducible apply State.withReads_config_of <;> intros) | (with_reducible apply State.whenHeld_config_of <;> intros) | (with_reducible apply State.lookup_config_of <;> intros) | (with_reducible apply State.hostRead_config_of <;> intros) | (with_reducible apply State.hostWrite_config_of <;> intros) | (with_reducible apply State.delivery_config_of <;> intros) | (with_reducible apply State.pageRead_config_of <;> intros) | (with_reducible apply State.pageWrite_config_of <;> intros) | (with_reducible apply State.stewardLines_config_of <;> intros) | (with_reducible apply State.choiceLines_config_of <;> intros) | (with_reducible apply State.preloadRead_config_of <;> intros) | (with_reducible apply State.opStep_config_of <;> intros) | (with_reducible apply State.receive_config_of <;> intros) | (with_reducible apply State.onObject_config_of <;> intros) | (with_reducible apply State.endOwner_config_of <;> intros) | (with_reducible apply State.chipWide_config_of <;> intros) | (with_reducible apply State.kernelStep_config_of <;> intros) | (with_reducible apply State.coreInstr_config_of <;> intros) | (with_reducible apply State.endArrival_config_of <;> intros) | (with_reducible apply State.notice_config_of <;> intros) | (with_reducible apply State.fenceNotice_config_of <;> intros) | (with_reducible apply State.handleStep_config_of <;> intros) | (with_reducible apply State.sysStep_config_of <;> intros) | (with_reducible apply State.forAll_config_of <;> intros) | (with_reducible apply foldl_config_of <;> intros)
  all_goals simp
@[simp] theorem State.handleStep_config (s : State) (k rd ra rb fn : Nat) (f : State → Nat → Run → Handle → State) (h6 : ∀ (x0 : State) (x1 : Nat) (x2 : Run) (x3 : Handle), (f x0 x1 x2 x3).pending = x0.pending ∧ (f x0 x1 x2 x3).trim = x0.trim ∧ (f x0 x1 x2 x3).fuses = x0.fuses) :
    (State.handleStep s k rd ra rb fn f).pending = s.pending ∧ (State.handleStep s k rd ra rb fn f).trim = s.trim ∧ (State.handleStep s k rd ra rb fn f).fuses = s.fuses := by
  dsimp only [State.handleStep]
  repeat' first | split | (with_reducible apply State.when_config_of <;> intros) | (with_reducible apply State.sbAnswer_config_of <;> intros) | (with_reducible apply State.deliver_config_of <;> intros) | (with_reducible apply State.withLines_config_of <;> intros) | (with_reducible apply State.withReads_config_of <;> intros) | (with_reducible apply State.whenHeld_config_of <;> intros) | (with_reducible apply State.lookup_config_of <;> intros) | (with_reducible apply State.hostRead_config_of <;> intros) | (with_reducible apply State.hostWrite_config_of <;> intros) | (with_reducible apply State.delivery_config_of <;> intros) | (with_reducible apply State.pageRead_config_of <;> intros) | (with_reducible apply State.pageWrite_config_of <;> intros) | (with_reducible apply State.stewardLines_config_of <;> intros) | (with_reducible apply State.choiceLines_config_of <;> intros) | (with_reducible apply State.preloadRead_config_of <;> intros) | (with_reducible apply State.opStep_config_of <;> intros) | (with_reducible apply State.receive_config_of <;> intros) | (with_reducible apply State.onObject_config_of <;> intros) | (with_reducible apply State.endOwner_config_of <;> intros) | (with_reducible apply State.chipWide_config_of <;> intros) | (with_reducible apply State.kernelStep_config_of <;> intros) | (with_reducible apply State.coreInstr_config_of <;> intros) | (with_reducible apply State.endArrival_config_of <;> intros) | (with_reducible apply State.notice_config_of <;> intros) | (with_reducible apply State.fenceNotice_config_of <;> intros) | (with_reducible apply State.handleStep_config_of <;> intros) | (with_reducible apply State.sysStep_config_of <;> intros) | (with_reducible apply State.forAll_config_of <;> intros) | (with_reducible apply foldl_config_of <;> intros)
  all_goals simp [*]
theorem State.handleStep_config_of (s : State) (k rd ra rb fn : Nat) (f : State → Nat → Run → Handle → State) (u : State) (h6 : ∀ (x0 : State) (x1 : Nat) (x2 : Run) (x3 : Handle), (f x0 x1 x2 x3).pending = x0.pending ∧ (f x0 x1 x2 x3).trim = x0.trim ∧ (f x0 x1 x2 x3).fuses = x0.fuses) (hu : (s).pending = u.pending ∧ (s).trim = u.trim ∧ (s).fuses = u.fuses) :
    (State.handleStep s k rd ra rb fn f).pending = u.pending ∧ (State.handleStep s k rd ra rb fn f).trim = u.trim ∧ (State.handleStep s k rd ra rb fn f).fuses = u.fuses := by
  have := State.handleStep_config s k rd ra rb fn f h6
  simp only [this, hu, and_self]
theorem execCwait_config (k rd ra rb : Nat) (s : State) (t0 : State) (h0 : execCwait k rd ra rb s = .next t0) :
    (t0).pending = s.pending ∧ (t0).trim = s.trim ∧ (t0).fuses = s.fuses := by
  obtain ⟨_, rfl⟩ := ok_next h0
  clear h0
  try dsimp only
  repeat' first | split | (with_reducible apply State.when_config_of <;> intros) | (with_reducible apply State.sbAnswer_config_of <;> intros) | (with_reducible apply State.deliver_config_of <;> intros) | (with_reducible apply State.withLines_config_of <;> intros) | (with_reducible apply State.withReads_config_of <;> intros) | (with_reducible apply State.whenHeld_config_of <;> intros) | (with_reducible apply State.lookup_config_of <;> intros) | (with_reducible apply State.hostRead_config_of <;> intros) | (with_reducible apply State.hostWrite_config_of <;> intros) | (with_reducible apply State.delivery_config_of <;> intros) | (with_reducible apply State.pageRead_config_of <;> intros) | (with_reducible apply State.pageWrite_config_of <;> intros) | (with_reducible apply State.stewardLines_config_of <;> intros) | (with_reducible apply State.choiceLines_config_of <;> intros) | (with_reducible apply State.preloadRead_config_of <;> intros) | (with_reducible apply State.opStep_config_of <;> intros) | (with_reducible apply State.receive_config_of <;> intros) | (with_reducible apply State.onObject_config_of <;> intros) | (with_reducible apply State.endOwner_config_of <;> intros) | (with_reducible apply State.chipWide_config_of <;> intros) | (with_reducible apply State.kernelStep_config_of <;> intros) | (with_reducible apply State.coreInstr_config_of <;> intros) | (with_reducible apply State.endArrival_config_of <;> intros) | (with_reducible apply State.notice_config_of <;> intros) | (with_reducible apply State.fenceNotice_config_of <;> intros) | (with_reducible apply State.handleStep_config_of <;> intros) | (with_reducible apply State.sysStep_config_of <;> intros) | (with_reducible apply State.forAll_config_of <;> intros) | (with_reducible apply foldl_config_of <;> intros)
  all_goals simp
theorem execDrop_config (k rd ra rb : Nat) (s : State) (t0 : State) (h0 : execDrop k rd ra rb s = .next t0) :
    (t0).pending = s.pending ∧ (t0).trim = s.trim ∧ (t0).fuses = s.fuses := by
  obtain ⟨_, rfl⟩ := ok_next h0
  clear h0
  simp
theorem execCpoll_config (k rd ra rb : Nat) (s : State) (t0 : State) (h0 : execCpoll k rd ra rb s = .next t0) :
    (t0).pending = s.pending ∧ (t0).trim = s.trim ∧ (t0).fuses = s.fuses := by
  obtain ⟨_, rfl⟩ := ok_next h0
  clear h0
  simp
@[simp] theorem State.hiveAnswer_config (s : State) (k fr rd : Nat) (r : Run) (n : Nat) (d : Node) (src obj : Nat) (e : HiveEnd) :
    (State.hiveAnswer s k fr rd r n d src obj e).pending = s.pending ∧ (State.hiveAnswer s k fr rd r n d src obj e).trim = s.trim ∧ (State.hiveAnswer s k fr rd r n d src obj e).fuses = s.fuses := by
  unfold State.hiveAnswer
  (repeat' split) <;> simp
@[simp] theorem State.hiveStep_config (s : State) (c : Instr) (k rd ra rb fn : Nat) (op : HiveOp) :
    (State.hiveStep s c k rd ra rb fn op).pending = s.pending ∧ (State.hiveStep s c k rd ra rb fn op).trim = s.trim ∧ (State.hiveStep s c k rd ra rb fn op).fuses = s.fuses := by
  dsimp only [State.hiveStep]
  repeat' first | split | (with_reducible apply State.when_config_of <;> intros) | (with_reducible apply State.sbAnswer_config_of <;> intros) | (with_reducible apply State.deliver_config_of <;> intros) | (with_reducible apply State.withLines_config_of <;> intros) | (with_reducible apply State.withReads_config_of <;> intros) | (with_reducible apply State.whenHeld_config_of <;> intros) | (with_reducible apply State.lookup_config_of <;> intros) | (with_reducible apply State.hostRead_config_of <;> intros) | (with_reducible apply State.hostWrite_config_of <;> intros) | (with_reducible apply State.delivery_config_of <;> intros) | (with_reducible apply State.pageRead_config_of <;> intros) | (with_reducible apply State.pageWrite_config_of <;> intros) | (with_reducible apply State.stewardLines_config_of <;> intros) | (with_reducible apply State.choiceLines_config_of <;> intros) | (with_reducible apply State.preloadRead_config_of <;> intros) | (with_reducible apply State.opStep_config_of <;> intros) | (with_reducible apply State.receive_config_of <;> intros) | (with_reducible apply State.onObject_config_of <;> intros) | (with_reducible apply State.endOwner_config_of <;> intros) | (with_reducible apply State.chipWide_config_of <;> intros) | (with_reducible apply State.kernelStep_config_of <;> intros) | (with_reducible apply State.coreInstr_config_of <;> intros) | (with_reducible apply State.endArrival_config_of <;> intros) | (with_reducible apply State.notice_config_of <;> intros) | (with_reducible apply State.fenceNotice_config_of <;> intros) | (with_reducible apply State.handleStep_config_of <;> intros) | (with_reducible apply State.sysStep_config_of <;> intros) | (with_reducible apply State.forAll_config_of <;> intros) | (with_reducible apply foldl_config_of <;> intros)
  all_goals simp
theorem execHadd_config (k rd ra rb : Nat) (s : State) (t0 : State) (h0 : execHadd k rd ra rb s = .next t0) :
    (t0).pending = s.pending ∧ (t0).trim = s.trim ∧ (t0).fuses = s.fuses := by
  obtain ⟨_, rfl⟩ := ok_next h0
  clear h0
  simp
theorem execHset_config (k rd ra rb : Nat) (s : State) (t0 : State) (h0 : execHset k rd ra rb s = .next t0) :
    (t0).pending = s.pending ∧ (t0).trim = s.trim ∧ (t0).fuses = s.fuses := by
  obtain ⟨_, rfl⟩ := ok_next h0
  clear h0
  simp
theorem execHor_config (k rd ra rb : Nat) (s : State) (t0 : State) (h0 : execHor k rd ra rb s = .next t0) :
    (t0).pending = s.pending ∧ (t0).trim = s.trim ∧ (t0).fuses = s.fuses := by
  obtain ⟨_, rfl⟩ := ok_next h0
  clear h0
  simp
theorem execHwait_config (k cmp rd ra rb : Nat) (s : State) (t0 : State) (h0 : execHwait k cmp rd ra rb s = .next t0) :
    (t0).pending = s.pending ∧ (t0).trim = s.trim ∧ (t0).fuses = s.fuses := by
  obtain ⟨_, rfl⟩ := ok_next h0
  clear h0
  simp
theorem execHarrive_config (k rd ra rb : Nat) (s : State) (t0 : State) (h0 : execHarrive k rd ra rb s = .next t0) :
    (t0).pending = s.pending ∧ (t0).trim = s.trim ∧ (t0).fuses = s.fuses := by
  obtain ⟨_, rfl⟩ := ok_next h0
  clear h0
  simp
theorem execHarrivenw_config (k rd ra rb : Nat) (s : State) (t0 : State) (h0 : execHarrivenw k rd ra rb s = .next t0) :
    (t0).pending = s.pending ∧ (t0).trim = s.trim ∧ (t0).fuses = s.fuses := by
  obtain ⟨_, rfl⟩ := ok_next h0
  clear h0
  simp
@[simp] theorem State.sysStep_config (s : State) (k rd ra rb fn : Nat) (f : State → Nat → Run → State) (h6 : ∀ (x0 : State) (x1 : Nat) (x2 : Run), (f x0 x1 x2).pending = x0.pending ∧ (f x0 x1 x2).trim = x0.trim ∧ (f x0 x1 x2).fuses = x0.fuses) :
    (State.sysStep s k rd ra rb fn f).pending = s.pending ∧ (State.sysStep s k rd ra rb fn f).trim = s.trim ∧ (State.sysStep s k rd ra rb fn f).fuses = s.fuses := by
  unfold State.sysStep
  simp [*]
theorem State.sysStep_config_of (s : State) (k rd ra rb fn : Nat) (f : State → Nat → Run → State) (u : State) (h6 : ∀ (x0 : State) (x1 : Nat) (x2 : Run), (f x0 x1 x2).pending = x0.pending ∧ (f x0 x1 x2).trim = x0.trim ∧ (f x0 x1 x2).fuses = x0.fuses) (hu : (s).pending = u.pending ∧ (s).trim = u.trim ∧ (s).fuses = u.fuses) :
    (State.sysStep s k rd ra rb fn f).pending = u.pending ∧ (State.sysStep s k rd ra rb fn f).trim = u.trim ∧ (State.sysStep s k rd ra rb fn f).fuses = u.fuses := by
  have := State.sysStep_config s k rd ra rb fn f h6
  simp only [this, hu, and_self]
theorem execExit_config (k rd ra rb : Nat) (s : State) (t0 : State) (h0 : execExit k rd ra rb s = .next t0) :
    (t0).pending = s.pending ∧ (t0).trim = s.trim ∧ (t0).fuses = s.fuses := by
  obtain ⟨_, rfl⟩ := ok_next h0
  clear h0
  try dsimp only
  repeat' first | split | (with_reducible apply State.when_config_of <;> intros) | (with_reducible apply State.sbAnswer_config_of <;> intros) | (with_reducible apply State.deliver_config_of <;> intros) | (with_reducible apply State.withLines_config_of <;> intros) | (with_reducible apply State.withReads_config_of <;> intros) | (with_reducible apply State.whenHeld_config_of <;> intros) | (with_reducible apply State.lookup_config_of <;> intros) | (with_reducible apply State.hostRead_config_of <;> intros) | (with_reducible apply State.hostWrite_config_of <;> intros) | (with_reducible apply State.delivery_config_of <;> intros) | (with_reducible apply State.pageRead_config_of <;> intros) | (with_reducible apply State.pageWrite_config_of <;> intros) | (with_reducible apply State.stewardLines_config_of <;> intros) | (with_reducible apply State.choiceLines_config_of <;> intros) | (with_reducible apply State.preloadRead_config_of <;> intros) | (with_reducible apply State.opStep_config_of <;> intros) | (with_reducible apply State.receive_config_of <;> intros) | (with_reducible apply State.onObject_config_of <;> intros) | (with_reducible apply State.endOwner_config_of <;> intros) | (with_reducible apply State.chipWide_config_of <;> intros) | (with_reducible apply State.kernelStep_config_of <;> intros) | (with_reducible apply State.coreInstr_config_of <;> intros) | (with_reducible apply State.endArrival_config_of <;> intros) | (with_reducible apply State.notice_config_of <;> intros) | (with_reducible apply State.fenceNotice_config_of <;> intros) | (with_reducible apply State.handleStep_config_of <;> intros) | (with_reducible apply State.sysStep_config_of <;> intros) | (with_reducible apply State.forAll_config_of <;> intros) | (with_reducible apply foldl_config_of <;> intros)
  all_goals simp
theorem execSysTrap_config (k rd ra rb : Nat) (s : State) (t0 : State) (h0 : execSysTrap k rd ra rb s = .next t0) :
    (t0).pending = s.pending ∧ (t0).trim = s.trim ∧ (t0).fuses = s.fuses := by
  obtain ⟨_, rfl⟩ := ok_next h0
  clear h0
  simp
theorem execYield_config (k rd ra rb : Nat) (s : State) (t0 : State) (h0 : execYield k rd ra rb s = .next t0) :
    (t0).pending = s.pending ∧ (t0).trim = s.trim ∧ (t0).fuses = s.fuses := by
  obtain ⟨_, rfl⟩ := ok_next h0
  clear h0
  try dsimp only
  repeat' first | split | (with_reducible apply State.when_config_of <;> intros) | (with_reducible apply State.sbAnswer_config_of <;> intros) | (with_reducible apply State.deliver_config_of <;> intros) | (with_reducible apply State.withLines_config_of <;> intros) | (with_reducible apply State.withReads_config_of <;> intros) | (with_reducible apply State.whenHeld_config_of <;> intros) | (with_reducible apply State.lookup_config_of <;> intros) | (with_reducible apply State.hostRead_config_of <;> intros) | (with_reducible apply State.hostWrite_config_of <;> intros) | (with_reducible apply State.delivery_config_of <;> intros) | (with_reducible apply State.pageRead_config_of <;> intros) | (with_reducible apply State.pageWrite_config_of <;> intros) | (with_reducible apply State.stewardLines_config_of <;> intros) | (with_reducible apply State.choiceLines_config_of <;> intros) | (with_reducible apply State.preloadRead_config_of <;> intros) | (with_reducible apply State.opStep_config_of <;> intros) | (with_reducible apply State.receive_config_of <;> intros) | (with_reducible apply State.onObject_config_of <;> intros) | (with_reducible apply State.endOwner_config_of <;> intros) | (with_reducible apply State.chipWide_config_of <;> intros) | (with_reducible apply State.kernelStep_config_of <;> intros) | (with_reducible apply State.coreInstr_config_of <;> intros) | (with_reducible apply State.endArrival_config_of <;> intros) | (with_reducible apply State.notice_config_of <;> intros) | (with_reducible apply State.fenceNotice_config_of <;> intros) | (with_reducible apply State.handleStep_config_of <;> intros) | (with_reducible apply State.sysStep_config_of <;> intros) | (with_reducible apply State.forAll_config_of <;> intros) | (with_reducible apply foldl_config_of <;> intros)
  all_goals simp
@[simp] theorem State.heartbeat_config (s : State) :
    (State.heartbeat s).pending = s.pending ∧ (State.heartbeat s).trim = s.trim ∧ (State.heartbeat s).fuses = s.fuses := by
  unfold State.heartbeat
  simp
theorem execSysHeartbeat_config (k rd ra rb : Nat) (s : State) (t0 : State) (h0 : execSysHeartbeat k rd ra rb s = .next t0) :
    (t0).pending = s.pending ∧ (t0).trim = s.trim ∧ (t0).fuses = s.fuses := by
  obtain ⟨_, rfl⟩ := ok_next h0
  clear h0
  try dsimp only
  repeat' first | split | (with_reducible apply State.when_config_of <;> intros) | (with_reducible apply State.sbAnswer_config_of <;> intros) | (with_reducible apply State.deliver_config_of <;> intros) | (with_reducible apply State.withLines_config_of <;> intros) | (with_reducible apply State.withReads_config_of <;> intros) | (with_reducible apply State.whenHeld_config_of <;> intros) | (with_reducible apply State.lookup_config_of <;> intros) | (with_reducible apply State.hostRead_config_of <;> intros) | (with_reducible apply State.hostWrite_config_of <;> intros) | (with_reducible apply State.delivery_config_of <;> intros) | (with_reducible apply State.pageRead_config_of <;> intros) | (with_reducible apply State.pageWrite_config_of <;> intros) | (with_reducible apply State.stewardLines_config_of <;> intros) | (with_reducible apply State.choiceLines_config_of <;> intros) | (with_reducible apply State.preloadRead_config_of <;> intros) | (with_reducible apply State.opStep_config_of <;> intros) | (with_reducible apply State.receive_config_of <;> intros) | (with_reducible apply State.onObject_config_of <;> intros) | (with_reducible apply State.endOwner_config_of <;> intros) | (with_reducible apply State.chipWide_config_of <;> intros) | (with_reducible apply State.kernelStep_config_of <;> intros) | (with_reducible apply State.coreInstr_config_of <;> intros) | (with_reducible apply State.endArrival_config_of <;> intros) | (with_reducible apply State.notice_config_of <;> intros) | (with_reducible apply State.fenceNotice_config_of <;> intros) | (with_reducible apply State.handleStep_config_of <;> intros) | (with_reducible apply State.sysStep_config_of <;> intros) | (with_reducible apply State.forAll_config_of <;> intros) | (with_reducible apply foldl_config_of <;> intros)
  all_goals simp
theorem execMfs_config (k rd ra rb : Nat) (s : State) (t0 : State) (h0 : execMfs k rd ra rb s = .next t0) :
    (t0).pending = s.pending ∧ (t0).trim = s.trim ∧ (t0).fuses = s.fuses := by
  obtain ⟨_, rfl⟩ := ok_next h0
  clear h0
  (repeat' split) <;> simp
theorem execMts_config (k rd ra rb : Nat) (s : State) (t0 : State) (h0 : execMts k rd ra rb s = .next t0) :
    (t0).pending = s.pending ∧ (t0).trim = s.trim ∧ (t0).fuses = s.fuses := by
  obtain ⟨_, rfl⟩ := ok_next h0
  clear h0
  simp
theorem execSync_config (k rd ra rb : Nat) (s : State) (t0 : State) (h0 : execSync k rd ra rb s = .next t0) :
    (t0).pending = s.pending ∧ (t0).trim = s.trim ∧ (t0).fuses = s.fuses := by
  obtain ⟨_, rfl⟩ := ok_next h0
  clear h0
  try dsimp only
  repeat' first | split | (with_reducible apply State.when_config_of <;> intros) | (with_reducible apply State.sbAnswer_config_of <;> intros) | (with_reducible apply State.deliver_config_of <;> intros) | (with_reducible apply State.withLines_config_of <;> intros) | (with_reducible apply State.withReads_config_of <;> intros) | (with_reducible apply State.whenHeld_config_of <;> intros) | (with_reducible apply State.lookup_config_of <;> intros) | (with_reducible apply State.hostRead_config_of <;> intros) | (with_reducible apply State.hostWrite_config_of <;> intros) | (with_reducible apply State.delivery_config_of <;> intros) | (with_reducible apply State.pageRead_config_of <;> intros) | (with_reducible apply State.pageWrite_config_of <;> intros) | (with_reducible apply State.stewardLines_config_of <;> intros) | (with_reducible apply State.choiceLines_config_of <;> intros) | (with_reducible apply State.preloadRead_config_of <;> intros) | (with_reducible apply State.opStep_config_of <;> intros) | (with_reducible apply State.receive_config_of <;> intros) | (with_reducible apply State.onObject_config_of <;> intros) | (with_reducible apply State.endOwner_config_of <;> intros) | (with_reducible apply State.chipWide_config_of <;> intros) | (with_reducible apply State.kernelStep_config_of <;> intros) | (with_reducible apply State.coreInstr_config_of <;> intros) | (with_reducible apply State.endArrival_config_of <;> intros) | (with_reducible apply State.notice_config_of <;> intros) | (with_reducible apply State.fenceNotice_config_of <;> intros) | (with_reducible apply State.handleStep_config_of <;> intros) | (with_reducible apply State.sysStep_config_of <;> intros) | (with_reducible apply State.forAll_config_of <;> intros) | (with_reducible apply foldl_config_of <;> intros)
  all_goals simp
theorem execSysTrace_config (k rd ra rb : Nat) (s : State) (t0 : State) (h0 : execSysTrace k rd ra rb s = .next t0) :
    (t0).pending = s.pending ∧ (t0).trim = s.trim ∧ (t0).fuses = s.fuses := by
  obtain ⟨_, rfl⟩ := ok_next h0
  clear h0
  simp
theorem State.redo_config (s : State) (c : Instr) (t : State) (h : s.redo c = .next t) : t.pending = s.pending := by
  unfold State.redo at h
  cases c
  case doorbellWrite => exact (execDoorbellWrite_config _ _ _ _ _ _ h).1
  case recackWrite => exact (execRecackWrite_config _ _ _ _ _ _ h).1
  case retiredRead => exact (execRetiredRead_config _ _ _ _ _ h).1
  case lowHalfRead => exact (execLowHalfRead_config _ _ _ _ _ h).1
  case latchedDataRead => exact (execLatchedDataRead_config _ _ _ _ h).1
  case registerWrite => exact execRegisterWrite_config _ _ _ _ _ h
  case hiveDebugSelWrite => exact execHiveDebugSelWrite_config _ _ _ _ h
  case abortqWrite => exact execAbortqWrite_config _ _ _ _ h
  case resetRequest => exact execResetRequest_config _ _ _ _ h
  case faultsrcWrite => exact execFaultsrcWrite_config _ _ _ _ h
  case groupWrite => exact execGroupWrite_config _ _ _ _ _ h
  case fencectlWrite => exact execFencectlWrite_config _ _ _ _ h
  case fenceseqWrite => exact execFenceseqWrite_config _ _ _ _ h
  case hivepartWrite => exact execHivepartWrite_config _ _ _ _ _ h
  case reserveWrite => exact execReserveWrite_config _ _ _ _ h
  case hangmodeWrite => exact execHangmodeWrite_config _ _ _ _ h
  case vernegOfferWrite => exact execVernegOfferWrite_config _ _ _ _ h
  case bootqEnable => exact execBootqEnable_config _ _ _ _ _ h
  case clkenWrite => exact execClkenWrite_config _ _ _ _ h
  case trimWrite => exact execTrimWrite_config _ _ _ _ h
  case breakctlWrite => exact execBreakctlWrite_config _ _ _ _ _ h
  case breakResume => exact execBreakResume_config _ _ _ h
  case traceClear => exact execTraceClear_config _ _ _ _ h
  case flush => exact execFlush_config _ _ _ _ h
  case tokenDelivery => exact (execTokenDelivery_config _ _ _ _ _ _ _ h).1
  case signalReport => exact (execSignalReport_config _ _ _ _ _ _ h).1
  case signalMessage => exact (execSignalMessage_config _ _ _ h).1
  case hiveAck => exact (execHiveAck_config _ _ _ h).1
  case waitreg => exact (execWaitreg_config _ _ _ h).1
  case wake => exact (execWake_config _ _ _ h).1
  case cancel => exact (execCancel_config _ _ _ h).1
  case tierarrive => exact (execTierarrive_config _ _ _ h).1
  case tierrelease => exact (execTierrelease_config _ _ _ h).1
  case peerlost => exact (execPeerlost_config _ _ _ h).1
  case chipFault => exact (execChipFault_config _ _ _ h).1
  case withdraw => exact (execWithdraw_config _ _ _ h).1
  case fenceReady => exact (execFenceReady_config _ _ _ h).1
  case fenceFall => exact (execFenceFall_config _ _ _ h).1
  case fenceAbandon => exact (execFenceAbandon_config _ _ _ h).1
  case remoteWriteDrop => exact (execRemoteWriteDrop_config _ _ _ _ _ h).1
  case writeAck => exact (execWriteAck_config _ _ _ h).1
  case sheafRelease => exact (execSheafRelease_config _ _ _ h).1
  case stewardStep => exact (execStewardStep_config _ _ _ h).1
  case measureChoice => exact (execMeasureChoice_config _ _ _ h).1
  case memberCreate => exact (execMemberCreate_config _ _ _ h).1
  case start => exact (execStart_config _ _ _ h).1
  case cfgstart => exact (execCfgstart_config _ _ _ h).1
  case combine => exact (execCombine_config _ _ _ h).1
  case measure => exact (execMeasure_config _ _ _ h).1
  case branchObject => exact (execBranchObject_config _ _ _ h).1
  case partctlRelease => exact (execPartctlRelease_config _ _ _ h).1
  case wait => exact (execWait_config _ _ _ h).1
  case signalAdd => exact (execSignalAdd_config _ _ _ h).1
  case signalSet => exact (execSignalSet_config _ _ _ h).1
  case signalOr => exact (execSignalOr_config _ _ _ h).1
  case stileArrive => exact (execStileArrive_config _ _ _ h).1
  case stileArriveNowait => exact (execStileArriveNowait_config _ _ _ h).1
  case stileInit => exact (execStileInit_config _ _ _ h).1
  case stileReset => exact (execStileReset_config _ _ _ h).1
  case preloadComplete => exact (execPreloadComplete_config _ _ _ _ h).1
  case hadd => exact (execHadd_config _ _ _ _ _ _ h).1
  case hset => exact (execHset_config _ _ _ _ _ _ h).1
  case hor => exact (execHor_config _ _ _ _ _ _ h).1
  case harrive => exact (execHarrive_config _ _ _ _ _ _ h).1
  case harrivenw => exact (execHarrivenw_config _ _ _ _ _ _ h).1
  case hwait => exact (execHwait_config _ _ _ _ _ _ _ h).1
  all_goals exact Host.Outcome.next.inj h ▸ rfl
@[simp] theorem State.perform_config (s : State) (c : Nat × Instr) : (s.perform c).pending = s.pending := by
  unfold State.perform
  split
  · rename_i h; have := State.redo_config _ _ _ h; exact this
  · rfl
@[simp] theorem State.performHeld_config (s : State) : s.performHeld.pending = s.pending := by
  have h : ∀ (cs : List (Nat × Instr)) (s : State), (cs.foldl State.perform s).pending = s.pending := by
    intro cs
    induction cs with
    | nil => intro s; rfl
    | cons c cs ih => intro s; simp [ih]
  simp [State.performHeld, h]
theorem execPowerUpComplete_config (x : PowerFindings) (s : State) (t0 : State) (h0 : execPowerUpComplete x s = .next t0) :
    t0.pending = s.pending := by
  obtain ⟨_, rfl⟩ := ok_next h0
  clear h0
  unfold State.when
  (repeat' split) <;> simp
theorem execWakeComplete_config (s : State) (t0 : State) (h0 : execWakeComplete s = .next t0) :
    t0.pending = s.pending := by
  obtain ⟨_, rfl⟩ := ok_next h0
  clear h0
  unfold State.when
  (repeat' split) <;> simp
theorem execComputeResetComplete_config (s : State) (t0 : State) (h0 : execComputeResetComplete s = .next t0) :
    t0.pending = s.pending := by
  obtain ⟨_, rfl⟩ := ok_next h0
  clear h0
  unfold State.when
  (repeat' split) <;> simp
@[simp] theorem State.finishAccess_config (s : State) (a : Nat) (l : CohLine) :
    (State.finishAccess s a l).pending = s.pending ∧ (State.finishAccess s a l).trim = s.trim ∧ (State.finishAccess s a l).fuses = s.fuses := by
  dsimp only [State.finishAccess]
  (repeat' split) <;> simp
@[simp] theorem State.doWork_config (s : State) (w : LineWork) :
    (State.doWork s w).pending = s.pending ∧ (State.doWork s w).trim = s.trim ∧ (State.doWork s w).fuses = s.fuses := by
  unfold State.doWork
  (repeat' split) <;> simp
@[simp] theorem State.resume_config (s : State) : s.resume.pending = s.pending := by
  unfold State.resume
  rw [State.performHeld_config, (foldl_config _ _ _ fun _ _ => State.doWork_config _ _).1]
  exact (State.askReads_config s).1

@[simp] theorem State.atGrant_config (s : State) (a : Nat) (l : CohLine) :
    (State.atGrant s a l).pending = s.pending := by
  unfold State.atGrant
  (repeat' split) <;> simp
theorem execData_config (a : Nat) (x : LineData) (s : State) (t0 : State) (h0 : execData a x s = .next t0) : t0.pending = s.pending := by
  obtain ⟨_, rfl⟩ := ok_next h0
  clear h0
  unfold State.when State.deliver
  dsimp only
  (repeat' split) <;> simp
theorem execGnt_config (a : Nat) (l : CohLine) (s : State) (t0 : State) (h0 : execGnt a l s = .next t0) : t0.pending = s.pending := by
  obtain ⟨_, rfl⟩ := ok_next h0
  clear h0
  unfold State.when State.deliver
  dsimp only
  (repeat' split) <;> simp
theorem execCoherenceAck_config (a : Nat) (l : CohLine) (s : State) (t0 : State) (h0 : execCoherenceAck a l s = .next t0) :
    (t0).pending = s.pending ∧ (t0).trim = s.trim ∧ (t0).fuses = s.fuses := by
  obtain ⟨_, rfl⟩ := ok_next h0
  clear h0
  simp
@[simp] theorem State.fackArrives_config (s : State) (a : Nat) (l : CohLine) :
    (State.fackArrives s a l).pending = s.pending ∧ (State.fackArrives s a l).trim = s.trim ∧ (State.fackArrives s a l).fuses = s.fuses := by
  unfold State.fackArrives
  (repeat' split) <;> simp
@[simp] theorem State.wbackArrives_config (s : State) (a : Nat) (l : CohLine) :
    (State.wbackArrives s a l).pending = s.pending ∧ (State.wbackArrives s a l).trim = s.trim ∧ (State.wbackArrives s a l).fuses = s.fuses := by
  unfold State.wbackArrives
  (repeat' split) <;> simp
@[simp] theorem State.carried_config (s : State) (l : CohLine) (bad : Option Found) :
    (State.carried s l bad).pending = s.pending ∧ (State.carried s l bad).trim = s.trim ∧ (State.carried s l bad).fuses = s.fuses := by
  unfold State.carried
  (repeat' split) <;> simp
theorem execWbd_config (a : Nat) (h : LineBack) (s : State) (t0 : State) (h0 : execWbd a h s = .next t0) :
    (t0).pending = s.pending ∧ (t0).trim = s.trim ∧ (t0).fuses = s.fuses := by
  obtain ⟨_, rfl⟩ := ok_next h0
  clear h0
  try dsimp only
  repeat' first | split | (with_reducible apply State.when_config_of <;> intros) | (with_reducible apply State.sbAnswer_config_of <;> intros) | (with_reducible apply State.deliver_config_of <;> intros) | (with_reducible apply State.withLines_config_of <;> intros) | (with_reducible apply State.withReads_config_of <;> intros) | (with_reducible apply State.whenHeld_config_of <;> intros) | (with_reducible apply State.lookup_config_of <;> intros) | (with_reducible apply State.hostRead_config_of <;> intros) | (with_reducible apply State.hostWrite_config_of <;> intros) | (with_reducible apply State.delivery_config_of <;> intros) | (with_reducible apply State.pageRead_config_of <;> intros) | (with_reducible apply State.pageWrite_config_of <;> intros) | (with_reducible apply State.stewardLines_config_of <;> intros) | (with_reducible apply State.choiceLines_config_of <;> intros) | (with_reducible apply State.preloadRead_config_of <;> intros) | (with_reducible apply State.opStep_config_of <;> intros) | (with_reducible apply State.receive_config_of <;> intros) | (with_reducible apply State.onObject_config_of <;> intros) | (with_reducible apply State.endOwner_config_of <;> intros) | (with_reducible apply State.chipWide_config_of <;> intros) | (with_reducible apply State.kernelStep_config_of <;> intros) | (with_reducible apply State.coreInstr_config_of <;> intros) | (with_reducible apply State.endArrival_config_of <;> intros) | (with_reducible apply State.notice_config_of <;> intros) | (with_reducible apply State.fenceNotice_config_of <;> intros) | (with_reducible apply State.handleStep_config_of <;> intros) | (with_reducible apply State.sysStep_config_of <;> intros) | (with_reducible apply State.forAll_config_of <;> intros) | (with_reducible apply foldl_config_of <;> intros)
  all_goals simp
theorem execFack_config (a : Nat) (x : LineData) (s : State) (t0 : State) (h0 : execFack a x s = .next t0) :
    (t0).pending = s.pending ∧ (t0).trim = s.trim ∧ (t0).fuses = s.fuses := by
  obtain ⟨_, rfl⟩ := ok_next h0
  clear h0
  try dsimp only
  repeat' first | split | (with_reducible apply State.when_config_of <;> intros) | (with_reducible apply State.sbAnswer_config_of <;> intros) | (with_reducible apply State.deliver_config_of <;> intros) | (with_reducible apply State.withLines_config_of <;> intros) | (with_reducible apply State.withReads_config_of <;> intros) | (with_reducible apply State.whenHeld_config_of <;> intros) | (with_reducible apply State.lookup_config_of <;> intros) | (with_reducible apply State.hostRead_config_of <;> intros) | (with_reducible apply State.hostWrite_config_of <;> intros) | (with_reducible apply State.delivery_config_of <;> intros) | (with_reducible apply State.pageRead_config_of <;> intros) | (with_reducible apply State.pageWrite_config_of <;> intros) | (with_reducible apply State.stewardLines_config_of <;> intros) | (with_reducible apply State.choiceLines_config_of <;> intros) | (with_reducible apply State.preloadRead_config_of <;> intros) | (with_reducible apply State.opStep_config_of <;> intros) | (with_reducible apply State.receive_config_of <;> intros) | (with_reducible apply State.onObject_config_of <;> intros) | (with_reducible apply State.endOwner_config_of <;> intros) | (with_reducible apply State.chipWide_config_of <;> intros) | (with_reducible apply State.kernelStep_config_of <;> intros) | (with_reducible apply State.coreInstr_config_of <;> intros) | (with_reducible apply State.endArrival_config_of <;> intros) | (with_reducible apply State.notice_config_of <;> intros) | (with_reducible apply State.fenceNotice_config_of <;> intros) | (with_reducible apply State.handleStep_config_of <;> intros) | (with_reducible apply State.sysStep_config_of <;> intros) | (with_reducible apply State.forAll_config_of <;> intros) | (with_reducible apply foldl_config_of <;> intros)
  all_goals simp
theorem execWback_config (a : Nat) (l : CohLine) (s : State) (t0 : State) (h0 : execWback a l s = .next t0) : t0.pending = s.pending := by
  obtain ⟨_, rfl⟩ := ok_next h0
  clear h0
  unfold State.when State.deliver
  dsimp only
  (repeat' split) <;> simp
end Sys2Proof.Machine
end

