-- ==== Sys2Proof/Laws/Contracts.lean ====
section
/-! SUPPORT. The contracts of the shipped routines (R244): a routine of slots 64 to 127 has none, a check of the arguments
that fails allows no instruction, and an act that is allowed is the next of its contract. -/

namespace Sys2Proof.Machine

/-- A loaded routine has no contract to keep. -/
theorem State.keeps_of_loaded {r : Run} (h : 64 ≤ r.slot) (s : State) (w : BitVec 32) : s.keeps r w = true := by
  simp only [State.keeps, h, if_true]

/-- A loaded routine notes nothing. -/
theorem State.acted_of_loaded {r : Run} (h : 64 ≤ r.slot) (s : State) (w : BitVec 32) : s.acted r w = r := by
  simp only [State.acted, h, if_true]

/-- With arguments that a check refuses, no instruction keeps the contract. -/
theorem State.keepsContract_refused {s : State} {d : Node} {r : Run} {w : BitVec 32}
    (hc : d.argCode r.slot ≠ 0) : s.keepsContract d r w = false := by
  simp [State.keepsContract, hc]

/-- An instruction that keeps the contract comes after the checks and before the end, is no trap of the routine's own,
and its act is one that the contract has now; EXIT comes when the contract is met. -/
theorem State.keepsContract_acts {s : State} {d : Node} {r : Run} {w : BitVec 32}
    (h : s.keepsContract d r w = true) :
    d.argCode r.slot = 0 ∧ s.endsNow d r = false ∧ r.ownTrap w = false ∧
      (∀ x, r.actOf w = some x → (s.actFits d r x).isSome = true) ∧ (isExit w = true → s.contractMet d r = true) := by
  simp only [State.keepsContract, Bool.and_eq_true, Bool.or_eq_true, Bool.not_eq_true', beq_iff_eq] at h
  obtain ⟨⟨⟨⟨hc, he⟩, ho⟩, ha⟩, hx⟩ := h
  refine ⟨hc, he, ho, fun x h => by simpa only [h] using ha, fun h => ?_⟩
  rcases hx with hx | hx
  · rw [h] at hx; cases hx
  · exact hx

/-- A loaded routine does nothing of itself. -/
theorem State.shippedTurn_of_loaded {r : Run} (h : 64 ≤ r.slot) (s : State) (k fr : Nat) :
    s.shippedTurn k fr r = none := by
  simp only [State.shippedTurn, h, if_true]

/-- While an instruction keeps the contract, a shipped routine does nothing of itself. -/
theorem State.shippedTurn_of_keeps {s : State} {r : Run} {d : Node} {w : BitVec 32} (hn : s.node r.call = some d)
    (h : s.keeps r w = true) (k fr : Nat) : s.shippedTurn k fr r = none := by
  unfold State.shippedTurn
  split
  · rfl
  · rename_i hs
    simp only [State.keeps, hs, if_false, hn] at h
    obtain ⟨hc, he, -⟩ := State.keepsContract_acts h
    simp [hn, hc, he]

end Sys2Proof.Machine
end

