-- ==== Sys2Proof/Laws/Faults.lean ====
section
/-! SUPPORT. What raising an event leaves alone (R330-R343): everything but the collector, the requests it makes of
the rest of Pliat, the trace, the lifetime records, and, for a GRAVE event, the furrows and the idle state. -/

set_option linter.all false
namespace Sys2Proof.Machine
theorem State.forAll_keep {α : Type} (g : State → α) (s : State) (ns : List Nat) (f : State → Nat → State)
    (h : ∀ (x0 : State) (x1 : Nat), g (f x0 x1) = g x0) : g (s.forAll ns f) = g s := by
  induction ns generalizing s with
  | nil => rfl
  | cons n ns ih => exact (ih (f s n)).trans (h s n)
theorem State.driveAll_keep {α : Type} (g : State → α) (s : State) (os : List Out)
    (h : ∀ (x0 : State) (x1 : Out), g (x0.drive x1) = g x0) : g (s.driveAll os) = g s := by
  induction os generalizing s with
  | nil => rfl
  | cons n ns ih => exact (ih (s.drive n)).trans (h s n)
@[simp] theorem State.driveAll_pending (s : State) (os : List Out) : (s.driveAll os).pending = s.pending := State.driveAll_keep (·.pending) s os fun _ _ => by simp
@[simp] theorem State.driveAll_heldCmds (s : State) (os : List Out) : (s.driveAll os).heldCmds = s.heldCmds := State.driveAll_keep (·.heldCmds) s os fun _ _ => by simp
@[simp] theorem State.driveAll_stamp (s : State) (os : List Out) : (s.driveAll os).stamp = s.stamp := State.driveAll_keep (·.stamp) s os fun _ _ => by simp
@[simp] theorem State.driveAll_power (s : State) (os : List Out) : (s.driveAll os).power = s.power := State.driveAll_keep (·.power) s os fun _ _ => by simp
@[simp] theorem State.driveAll_usec (s : State) (os : List Out) : (s.driveAll os).usec = s.usec := State.driveAll_keep (·.usec) s os fun _ _ => by simp
@[simp] theorem State.driveAll_fuses (s : State) (os : List Out) : (s.driveAll os).fuses = s.fuses := State.driveAll_keep (·.fuses) s os fun _ _ => by simp
@[simp] theorem State.driveAll_trim (s : State) (os : List Out) : (s.driveAll os).trim = s.trim := State.driveAll_keep (·.trim) s os fun _ _ => by simp
@[simp] theorem State.driveAll_charge (s : State) (os : List Out) : (s.driveAll os).charge = s.charge := State.driveAll_keep (·.charge) s os fun _ _ => by simp
@[simp] theorem State.driveAll_latches (s : State) (os : List Out) : (s.driveAll os).latches = s.latches := State.driveAll_keep (·.latches) s os fun _ _ => by simp
@[simp] theorem State.driveAll_queues (s : State) (os : List Out) : (s.driveAll os).queues = s.queues := State.driveAll_keep (·.queues) s os fun _ _ => by simp
@[simp] theorem State.driveAll_nodes (s : State) (os : List Out) : (s.driveAll os).nodes = s.nodes := State.driveAll_keep (·.nodes) s os fun _ _ => by simp
@[simp] theorem State.driveAll_reports (s : State) (os : List Out) : (s.driveAll os).reports = s.reports := State.driveAll_keep (·.reports) s os fun _ _ => by simp
@[simp] theorem State.driveAll_nextIssue (s : State) (os : List Out) : (s.driveAll os).nextIssue = s.nextIssue := State.driveAll_keep (·.nextIssue) s os fun _ _ => by simp
@[simp] theorem State.driveAll_slots (s : State) (os : List Out) : (s.driveAll os).slots = s.slots := State.driveAll_keep (·.slots) s os fun _ _ => by simp
@[simp] theorem State.driveAll_stewardQ (s : State) (os : List Out) : (s.driveAll os).stewardQ = s.stewardQ := State.driveAll_keep (·.stewardQ) s os fun _ _ => by simp
@[simp] theorem State.driveAll_objects (s : State) (os : List Out) : (s.driveAll os).objects = s.objects := State.driveAll_keep (·.objects) s os fun _ _ => by simp
@[simp] theorem State.driveAll_waiters (s : State) (os : List Out) : (s.driveAll os).waiters = s.waiters := State.driveAll_keep (·.waiters) s os fun _ _ => by simp
@[simp] theorem State.driveAll_remoteOps (s : State) (os : List Out) : (s.driveAll os).remoteOps = s.remoteOps := State.driveAll_keep (·.remoteOps) s os fun _ _ => by simp
@[simp] theorem State.driveAll_ctxs (s : State) (os : List Out) : (s.driveAll os).ctxs = s.ctxs := State.driveAll_keep (·.ctxs) s os fun _ _ => by simp
@[simp] theorem State.driveAll_parts (s : State) (os : List Out) : (s.driveAll os).parts = s.parts := State.driveAll_keep (·.parts) s os fun _ _ => by simp
@[simp] theorem State.driveAll_cores (s : State) (os : List Out) : (s.driveAll os).cores = s.cores := State.driveAll_keep (·.cores) s os fun _ _ => by simp
@[simp] theorem State.driveAll_routines (s : State) (os : List Out) : (s.driveAll os).routines = s.routines := State.driveAll_keep (·.routines) s os fun _ _ => by simp
@[simp] theorem State.driveAll_agents (s : State) (os : List Out) : (s.driveAll os).agents = s.agents := State.driveAll_keep (·.agents) s os fun _ _ => by simp
@[simp] theorem State.driveAll_dirs (s : State) (os : List Out) : (s.driveAll os).dirs = s.dirs := State.driveAll_keep (·.dirs) s os fun _ _ => by simp
@[simp] theorem State.driveAll_net (s : State) (os : List Out) : (s.driveAll os).net = s.net := State.driveAll_keep (·.net) s os fun _ _ => by simp
@[simp] theorem State.driveAll_groups (s : State) (os : List Out) : (s.driveAll os).groups = s.groups := State.driveAll_keep (·.groups) s os fun _ _ => by simp
@[simp] theorem State.driveAll_stale (s : State) (os : List Out) : (s.driveAll os).stale = s.stale := State.driveAll_keep (·.stale) s os fun _ _ => by simp
@[simp] theorem State.driveAll_fence (s : State) (os : List Out) : (s.driveAll os).fence = s.fence := State.driveAll_keep (·.fence) s os fun _ _ => by simp
@[simp] theorem State.driveAll_audit (s : State) (os : List Out) : (s.driveAll os).audit = s.audit := State.driveAll_keep (·.audit) s os fun _ _ => by simp
@[simp] theorem State.driveAll_breaks (s : State) (os : List Out) : (s.driveAll os).breaks = s.breaks := State.driveAll_keep (·.breaks) s os fun _ _ => by simp
theorem foldl_keep {α β : Type} (g : State → β) (f : State → α → State) (h : ∀ x a, g (f x a) = g x) (l : List α)
    (s : State) : g (l.foldl f s) = g s := by
  induction l generalizing s with
  | nil => rfl
  | cons a l ih => exact (ih (f s a)).trans (h s a)

@[simp] theorem State.wakeUp_keeps (s : State) :
    (State.wakeUp s).pending = s.pending ∧ (State.wakeUp s).heldCmds = s.heldCmds ∧ (State.wakeUp s).stamp = s.stamp ∧ (State.wakeUp s).power = s.power ∧ (State.wakeUp s).usec = s.usec ∧ (State.wakeUp s).fuses = s.fuses ∧ (State.wakeUp s).trim = s.trim ∧ (State.wakeUp s).charge = s.charge ∧ (State.wakeUp s).latches = s.latches ∧ (State.wakeUp s).queues = s.queues ∧ (State.wakeUp s).nodes = s.nodes ∧ (State.wakeUp s).reports = s.reports ∧ (State.wakeUp s).nextIssue = s.nextIssue ∧ (State.wakeUp s).slots = s.slots ∧ (State.wakeUp s).stewardQ = s.stewardQ ∧ (State.wakeUp s).objects = s.objects ∧ (State.wakeUp s).waiters = s.waiters ∧ (State.wakeUp s).remoteOps = s.remoteOps ∧ (State.wakeUp s).ctxs = s.ctxs ∧ (State.wakeUp s).parts = s.parts ∧ (State.wakeUp s).cores = s.cores ∧ (State.wakeUp s).routines = s.routines ∧ (State.wakeUp s).agents = s.agents ∧ (State.wakeUp s).dirs = s.dirs ∧ (State.wakeUp s).net = s.net ∧ (State.wakeUp s).groups = s.groups ∧ (State.wakeUp s).stale = s.stale ∧ (State.wakeUp s).fence = s.fence ∧ (State.wakeUp s).audit = s.audit ∧ (State.wakeUp s).breaks = s.breaks := by
  unfold State.wakeUp
  (repeat' split) <;> simp
@[simp] theorem State.traceRec_keeps (s : State) (kind queue : Nat) (c : Option Nat) (w1 : Word) :
    (State.traceRec s kind queue c w1).pending = s.pending ∧ (State.traceRec s kind queue c w1).heldCmds = s.heldCmds ∧ (State.traceRec s kind queue c w1).stamp = s.stamp ∧ (State.traceRec s kind queue c w1).power = s.power ∧ (State.traceRec s kind queue c w1).usec = s.usec ∧ (State.traceRec s kind queue c w1).fuses = s.fuses ∧ (State.traceRec s kind queue c w1).trim = s.trim ∧ (State.traceRec s kind queue c w1).charge = s.charge ∧ (State.traceRec s kind queue c w1).latches = s.latches ∧ (State.traceRec s kind queue c w1).queues = s.queues ∧ (State.traceRec s kind queue c w1).nodes = s.nodes ∧ (State.traceRec s kind queue c w1).reports = s.reports ∧ (State.traceRec s kind queue c w1).nextIssue = s.nextIssue ∧ (State.traceRec s kind queue c w1).slots = s.slots ∧ (State.traceRec s kind queue c w1).stewardQ = s.stewardQ ∧ (State.traceRec s kind queue c w1).objects = s.objects ∧ (State.traceRec s kind queue c w1).waiters = s.waiters ∧ (State.traceRec s kind queue c w1).remoteOps = s.remoteOps ∧ (State.traceRec s kind queue c w1).ctxs = s.ctxs ∧ (State.traceRec s kind queue c w1).parts = s.parts ∧ (State.traceRec s kind queue c w1).cores = s.cores ∧ (State.traceRec s kind queue c w1).routines = s.routines ∧ (State.traceRec s kind queue c w1).agents = s.agents ∧ (State.traceRec s kind queue c w1).dirs = s.dirs ∧ (State.traceRec s kind queue c w1).net = s.net ∧ (State.traceRec s kind queue c w1).groups = s.groups ∧ (State.traceRec s kind queue c w1).stale = s.stale ∧ (State.traceRec s kind queue c w1).fence = s.fence ∧ (State.traceRec s kind queue c w1).audit = s.audit ∧ (State.traceRec s kind queue c w1).breaks = s.breaks := by
  unfold State.traceRec
  try dsimp only
  (repeat' split) <;> simp
@[simp] theorem State.traceEnd_keeps (s : State) (f : Nat) (r : EngineRun) (noCommit : Bool) :
    (State.traceEnd s f r noCommit).pending = s.pending ∧ (State.traceEnd s f r noCommit).heldCmds = s.heldCmds ∧ (State.traceEnd s f r noCommit).stamp = s.stamp ∧ (State.traceEnd s f r noCommit).power = s.power ∧ (State.traceEnd s f r noCommit).usec = s.usec ∧ (State.traceEnd s f r noCommit).fuses = s.fuses ∧ (State.traceEnd s f r noCommit).trim = s.trim ∧ (State.traceEnd s f r noCommit).charge = s.charge ∧ (State.traceEnd s f r noCommit).latches = s.latches ∧ (State.traceEnd s f r noCommit).queues = s.queues ∧ (State.traceEnd s f r noCommit).nodes = s.nodes ∧ (State.traceEnd s f r noCommit).reports = s.reports ∧ (State.traceEnd s f r noCommit).nextIssue = s.nextIssue ∧ (State.traceEnd s f r noCommit).slots = s.slots ∧ (State.traceEnd s f r noCommit).stewardQ = s.stewardQ ∧ (State.traceEnd s f r noCommit).objects = s.objects ∧ (State.traceEnd s f r noCommit).waiters = s.waiters ∧ (State.traceEnd s f r noCommit).remoteOps = s.remoteOps ∧ (State.traceEnd s f r noCommit).ctxs = s.ctxs ∧ (State.traceEnd s f r noCommit).parts = s.parts ∧ (State.traceEnd s f r noCommit).cores = s.cores ∧ (State.traceEnd s f r noCommit).routines = s.routines ∧ (State.traceEnd s f r noCommit).agents = s.agents ∧ (State.traceEnd s f r noCommit).dirs = s.dirs ∧ (State.traceEnd s f r noCommit).net = s.net ∧ (State.traceEnd s f r noCommit).groups = s.groups ∧ (State.traceEnd s f r noCommit).stale = s.stale ∧ (State.traceEnd s f r noCommit).fence = s.fence ∧ (State.traceEnd s f r noCommit).audit = s.audit ∧ (State.traceEnd s f r noCommit).breaks = s.breaks := by
  unfold State.traceEnd
  simp
@[simp] theorem State.lifeAdd_keeps (s : State) (i n : Nat) :
    (State.lifeAdd s i n).pending = s.pending ∧ (State.lifeAdd s i n).heldCmds = s.heldCmds ∧ (State.lifeAdd s i n).stamp = s.stamp ∧ (State.lifeAdd s i n).power = s.power ∧ (State.lifeAdd s i n).usec = s.usec ∧ (State.lifeAdd s i n).fuses = s.fuses ∧ (State.lifeAdd s i n).trim = s.trim ∧ (State.lifeAdd s i n).charge = s.charge ∧ (State.lifeAdd s i n).latches = s.latches ∧ (State.lifeAdd s i n).queues = s.queues ∧ (State.lifeAdd s i n).nodes = s.nodes ∧ (State.lifeAdd s i n).reports = s.reports ∧ (State.lifeAdd s i n).nextIssue = s.nextIssue ∧ (State.lifeAdd s i n).slots = s.slots ∧ (State.lifeAdd s i n).stewardQ = s.stewardQ ∧ (State.lifeAdd s i n).objects = s.objects ∧ (State.lifeAdd s i n).waiters = s.waiters ∧ (State.lifeAdd s i n).remoteOps = s.remoteOps ∧ (State.lifeAdd s i n).ctxs = s.ctxs ∧ (State.lifeAdd s i n).parts = s.parts ∧ (State.lifeAdd s i n).cores = s.cores ∧ (State.lifeAdd s i n).routines = s.routines ∧ (State.lifeAdd s i n).agents = s.agents ∧ (State.lifeAdd s i n).dirs = s.dirs ∧ (State.lifeAdd s i n).net = s.net ∧ (State.lifeAdd s i n).groups = s.groups ∧ (State.lifeAdd s i n).stale = s.stale ∧ (State.lifeAdd s i n).fence = s.fence ∧ (State.lifeAdd s i n).audit = s.audit ∧ (State.lifeAdd s i n).breaks = s.breaks := by
  unfold State.lifeAdd
  simp
@[simp] theorem State.lifeFault_keeps (s : State) (source : Nat) (c : Class) :
    (State.lifeFault s source c).pending = s.pending ∧ (State.lifeFault s source c).heldCmds = s.heldCmds ∧ (State.lifeFault s source c).stamp = s.stamp ∧ (State.lifeFault s source c).power = s.power ∧ (State.lifeFault s source c).usec = s.usec ∧ (State.lifeFault s source c).fuses = s.fuses ∧ (State.lifeFault s source c).trim = s.trim ∧ (State.lifeFault s source c).charge = s.charge ∧ (State.lifeFault s source c).latches = s.latches ∧ (State.lifeFault s source c).queues = s.queues ∧ (State.lifeFault s source c).nodes = s.nodes ∧ (State.lifeFault s source c).reports = s.reports ∧ (State.lifeFault s source c).nextIssue = s.nextIssue ∧ (State.lifeFault s source c).slots = s.slots ∧ (State.lifeFault s source c).stewardQ = s.stewardQ ∧ (State.lifeFault s source c).objects = s.objects ∧ (State.lifeFault s source c).waiters = s.waiters ∧ (State.lifeFault s source c).remoteOps = s.remoteOps ∧ (State.lifeFault s source c).ctxs = s.ctxs ∧ (State.lifeFault s source c).parts = s.parts ∧ (State.lifeFault s source c).cores = s.cores ∧ (State.lifeFault s source c).routines = s.routines ∧ (State.lifeFault s source c).agents = s.agents ∧ (State.lifeFault s source c).dirs = s.dirs ∧ (State.lifeFault s source c).net = s.net ∧ (State.lifeFault s source c).groups = s.groups ∧ (State.lifeFault s source c).stale = s.stale ∧ (State.lifeFault s source c).fence = s.fence ∧ (State.lifeFault s source c).audit = s.audit ∧ (State.lifeFault s source c).breaks = s.breaks := by
  unfold State.lifeFault
  simp
@[simp] theorem State.sendMsix_keeps (s : State) (v : Nat) :
    (State.sendMsix s v).pending = s.pending ∧ (State.sendMsix s v).heldCmds = s.heldCmds ∧ (State.sendMsix s v).stamp = s.stamp ∧ (State.sendMsix s v).power = s.power ∧ (State.sendMsix s v).usec = s.usec ∧ (State.sendMsix s v).fuses = s.fuses ∧ (State.sendMsix s v).trim = s.trim ∧ (State.sendMsix s v).charge = s.charge ∧ (State.sendMsix s v).latches = s.latches ∧ (State.sendMsix s v).queues = s.queues ∧ (State.sendMsix s v).nodes = s.nodes ∧ (State.sendMsix s v).reports = s.reports ∧ (State.sendMsix s v).nextIssue = s.nextIssue ∧ (State.sendMsix s v).slots = s.slots ∧ (State.sendMsix s v).stewardQ = s.stewardQ ∧ (State.sendMsix s v).objects = s.objects ∧ (State.sendMsix s v).waiters = s.waiters ∧ (State.sendMsix s v).remoteOps = s.remoteOps ∧ (State.sendMsix s v).ctxs = s.ctxs ∧ (State.sendMsix s v).parts = s.parts ∧ (State.sendMsix s v).cores = s.cores ∧ (State.sendMsix s v).routines = s.routines ∧ (State.sendMsix s v).agents = s.agents ∧ (State.sendMsix s v).dirs = s.dirs ∧ (State.sendMsix s v).net = s.net ∧ (State.sendMsix s v).groups = s.groups ∧ (State.sendMsix s v).stale = s.stale ∧ (State.sendMsix s v).fence = s.fence ∧ (State.sendMsix s v).audit = s.audit ∧ (State.sendMsix s v).breaks = s.breaks := by
  unfold State.sendMsix
  (repeat' split) <;> simp
@[simp] theorem State.sbSend_keeps (s : State) (st : Sideband) :
    (State.sbSend s st).pending = s.pending ∧ (State.sbSend s st).heldCmds = s.heldCmds ∧ (State.sbSend s st).stamp = s.stamp ∧ (State.sbSend s st).power = s.power ∧ (State.sbSend s st).usec = s.usec ∧ (State.sbSend s st).fuses = s.fuses ∧ (State.sbSend s st).trim = s.trim ∧ (State.sbSend s st).charge = s.charge ∧ (State.sbSend s st).latches = s.latches ∧ (State.sbSend s st).queues = s.queues ∧ (State.sbSend s st).nodes = s.nodes ∧ (State.sbSend s st).reports = s.reports ∧ (State.sbSend s st).nextIssue = s.nextIssue ∧ (State.sbSend s st).slots = s.slots ∧ (State.sbSend s st).stewardQ = s.stewardQ ∧ (State.sbSend s st).objects = s.objects ∧ (State.sbSend s st).waiters = s.waiters ∧ (State.sbSend s st).remoteOps = s.remoteOps ∧ (State.sbSend s st).ctxs = s.ctxs ∧ (State.sbSend s st).parts = s.parts ∧ (State.sbSend s st).cores = s.cores ∧ (State.sbSend s st).routines = s.routines ∧ (State.sbSend s st).agents = s.agents ∧ (State.sbSend s st).dirs = s.dirs ∧ (State.sbSend s st).net = s.net ∧ (State.sbSend s st).groups = s.groups ∧ (State.sbSend s st).stale = s.stale ∧ (State.sbSend s st).fence = s.fence ∧ (State.sbSend s st).audit = s.audit ∧ (State.sbSend s st).breaks = s.breaks := by
  unfold State.sbSend
  try dsimp only
  (repeat' split) <;> simp
@[simp] theorem State.startLoad_keeps (s : State) :
    (State.startLoad s).pending = s.pending ∧ (State.startLoad s).heldCmds = s.heldCmds ∧ (State.startLoad s).stamp = s.stamp ∧ (State.startLoad s).power = s.power ∧ (State.startLoad s).usec = s.usec ∧ (State.startLoad s).fuses = s.fuses ∧ (State.startLoad s).trim = s.trim ∧ (State.startLoad s).charge = s.charge ∧ (State.startLoad s).latches = s.latches ∧ (State.startLoad s).queues = s.queues ∧ (State.startLoad s).nodes = s.nodes ∧ (State.startLoad s).reports = s.reports ∧ (State.startLoad s).nextIssue = s.nextIssue ∧ (State.startLoad s).slots = s.slots ∧ (State.startLoad s).stewardQ = s.stewardQ ∧ (State.startLoad s).objects = s.objects ∧ (State.startLoad s).waiters = s.waiters ∧ (State.startLoad s).remoteOps = s.remoteOps ∧ (State.startLoad s).ctxs = s.ctxs ∧ (State.startLoad s).parts = s.parts ∧ (State.startLoad s).cores = s.cores ∧ (State.startLoad s).routines = s.routines ∧ (State.startLoad s).agents = s.agents ∧ (State.startLoad s).dirs = s.dirs ∧ (State.startLoad s).net = s.net ∧ (State.startLoad s).groups = s.groups ∧ (State.startLoad s).stale = s.stale ∧ (State.startLoad s).fence = s.fence ∧ (State.startLoad s).audit = s.audit ∧ (State.startLoad s).breaks = s.breaks := by
  unfold State.startLoad
  simp
@[simp] theorem State.countSeconds_keeps (s : State) :
    (State.countSeconds s).pending = s.pending ∧ (State.countSeconds s).heldCmds = s.heldCmds ∧ (State.countSeconds s).stamp = s.stamp ∧ (State.countSeconds s).power = s.power ∧ (State.countSeconds s).usec = s.usec ∧ (State.countSeconds s).fuses = s.fuses ∧ (State.countSeconds s).trim = s.trim ∧ (State.countSeconds s).charge = s.charge ∧ (State.countSeconds s).latches = s.latches ∧ (State.countSeconds s).queues = s.queues ∧ (State.countSeconds s).nodes = s.nodes ∧ (State.countSeconds s).reports = s.reports ∧ (State.countSeconds s).nextIssue = s.nextIssue ∧ (State.countSeconds s).slots = s.slots ∧ (State.countSeconds s).stewardQ = s.stewardQ ∧ (State.countSeconds s).objects = s.objects ∧ (State.countSeconds s).waiters = s.waiters ∧ (State.countSeconds s).remoteOps = s.remoteOps ∧ (State.countSeconds s).ctxs = s.ctxs ∧ (State.countSeconds s).parts = s.parts ∧ (State.countSeconds s).cores = s.cores ∧ (State.countSeconds s).routines = s.routines ∧ (State.countSeconds s).agents = s.agents ∧ (State.countSeconds s).dirs = s.dirs ∧ (State.countSeconds s).net = s.net ∧ (State.countSeconds s).groups = s.groups ∧ (State.countSeconds s).stale = s.stale ∧ (State.countSeconds s).fence = s.fence ∧ (State.countSeconds s).audit = s.audit ∧ (State.countSeconds s).breaks = s.breaks := by
  unfold State.countSeconds
  simp
@[simp] theorem State.stampImage_keeps (s : State) :
    (State.stampImage s).pending = s.pending ∧ (State.stampImage s).heldCmds = s.heldCmds ∧ (State.stampImage s).stamp = s.stamp ∧ (State.stampImage s).power = s.power ∧ (State.stampImage s).usec = s.usec ∧ (State.stampImage s).fuses = s.fuses ∧ (State.stampImage s).trim = s.trim ∧ (State.stampImage s).charge = s.charge ∧ (State.stampImage s).latches = s.latches ∧ (State.stampImage s).queues = s.queues ∧ (State.stampImage s).nodes = s.nodes ∧ (State.stampImage s).reports = s.reports ∧ (State.stampImage s).nextIssue = s.nextIssue ∧ (State.stampImage s).slots = s.slots ∧ (State.stampImage s).stewardQ = s.stewardQ ∧ (State.stampImage s).objects = s.objects ∧ (State.stampImage s).waiters = s.waiters ∧ (State.stampImage s).remoteOps = s.remoteOps ∧ (State.stampImage s).ctxs = s.ctxs ∧ (State.stampImage s).parts = s.parts ∧ (State.stampImage s).cores = s.cores ∧ (State.stampImage s).routines = s.routines ∧ (State.stampImage s).agents = s.agents ∧ (State.stampImage s).dirs = s.dirs ∧ (State.stampImage s).net = s.net ∧ (State.stampImage s).groups = s.groups ∧ (State.stampImage s).stale = s.stale ∧ (State.stampImage s).fence = s.fence ∧ (State.stampImage s).audit = s.audit ∧ (State.stampImage s).breaks = s.breaks := by
  unfold State.stampImage
  simp
@[simp] theorem State.startFlush_keeps (s : State) :
    (State.startFlush s).pending = s.pending ∧ (State.startFlush s).heldCmds = s.heldCmds ∧ (State.startFlush s).stamp = s.stamp ∧ (State.startFlush s).power = s.power ∧ (State.startFlush s).usec = s.usec ∧ (State.startFlush s).fuses = s.fuses ∧ (State.startFlush s).trim = s.trim ∧ (State.startFlush s).charge = s.charge ∧ (State.startFlush s).latches = s.latches ∧ (State.startFlush s).queues = s.queues ∧ (State.startFlush s).nodes = s.nodes ∧ (State.startFlush s).reports = s.reports ∧ (State.startFlush s).nextIssue = s.nextIssue ∧ (State.startFlush s).slots = s.slots ∧ (State.startFlush s).stewardQ = s.stewardQ ∧ (State.startFlush s).objects = s.objects ∧ (State.startFlush s).waiters = s.waiters ∧ (State.startFlush s).remoteOps = s.remoteOps ∧ (State.startFlush s).ctxs = s.ctxs ∧ (State.startFlush s).parts = s.parts ∧ (State.startFlush s).cores = s.cores ∧ (State.startFlush s).routines = s.routines ∧ (State.startFlush s).agents = s.agents ∧ (State.startFlush s).dirs = s.dirs ∧ (State.startFlush s).net = s.net ∧ (State.startFlush s).groups = s.groups ∧ (State.startFlush s).stale = s.stale ∧ (State.startFlush s).fence = s.fence ∧ (State.startFlush s).audit = s.audit ∧ (State.startFlush s).breaks = s.breaks := by
  unfold State.startFlush
  simp
@[simp] theorem State.requestFlush_keeps (s : State) :
    (State.requestFlush s).pending = s.pending ∧ (State.requestFlush s).heldCmds = s.heldCmds ∧ (State.requestFlush s).stamp = s.stamp ∧ (State.requestFlush s).power = s.power ∧ (State.requestFlush s).usec = s.usec ∧ (State.requestFlush s).fuses = s.fuses ∧ (State.requestFlush s).trim = s.trim ∧ (State.requestFlush s).charge = s.charge ∧ (State.requestFlush s).latches = s.latches ∧ (State.requestFlush s).queues = s.queues ∧ (State.requestFlush s).nodes = s.nodes ∧ (State.requestFlush s).reports = s.reports ∧ (State.requestFlush s).nextIssue = s.nextIssue ∧ (State.requestFlush s).slots = s.slots ∧ (State.requestFlush s).stewardQ = s.stewardQ ∧ (State.requestFlush s).objects = s.objects ∧ (State.requestFlush s).waiters = s.waiters ∧ (State.requestFlush s).remoteOps = s.remoteOps ∧ (State.requestFlush s).ctxs = s.ctxs ∧ (State.requestFlush s).parts = s.parts ∧ (State.requestFlush s).cores = s.cores ∧ (State.requestFlush s).routines = s.routines ∧ (State.requestFlush s).agents = s.agents ∧ (State.requestFlush s).dirs = s.dirs ∧ (State.requestFlush s).net = s.net ∧ (State.requestFlush s).groups = s.groups ∧ (State.requestFlush s).stale = s.stale ∧ (State.requestFlush s).fence = s.fence ∧ (State.requestFlush s).audit = s.audit ∧ (State.requestFlush s).breaks = s.breaks := by
  unfold State.requestFlush
  (repeat' split) <;> simp
@[simp] theorem State.sendNotice_keeps (s : State) (p : Nat) (dest : BitVec 14) (n0 n1 : Word) :
    (State.sendNotice s p dest n0 n1).pending = s.pending ∧ (State.sendNotice s p dest n0 n1).heldCmds = s.heldCmds ∧ (State.sendNotice s p dest n0 n1).stamp = s.stamp ∧ (State.sendNotice s p dest n0 n1).power = s.power ∧ (State.sendNotice s p dest n0 n1).usec = s.usec ∧ (State.sendNotice s p dest n0 n1).fuses = s.fuses ∧ (State.sendNotice s p dest n0 n1).trim = s.trim ∧ (State.sendNotice s p dest n0 n1).charge = s.charge ∧ (State.sendNotice s p dest n0 n1).latches = s.latches ∧ (State.sendNotice s p dest n0 n1).queues = s.queues ∧ (State.sendNotice s p dest n0 n1).nodes = s.nodes ∧ (State.sendNotice s p dest n0 n1).reports = s.reports ∧ (State.sendNotice s p dest n0 n1).nextIssue = s.nextIssue ∧ (State.sendNotice s p dest n0 n1).slots = s.slots ∧ (State.sendNotice s p dest n0 n1).stewardQ = s.stewardQ ∧ (State.sendNotice s p dest n0 n1).objects = s.objects ∧ (State.sendNotice s p dest n0 n1).waiters = s.waiters ∧ (State.sendNotice s p dest n0 n1).remoteOps = s.remoteOps ∧ (State.sendNotice s p dest n0 n1).ctxs = s.ctxs ∧ (State.sendNotice s p dest n0 n1).parts = s.parts ∧ (State.sendNotice s p dest n0 n1).cores = s.cores ∧ (State.sendNotice s p dest n0 n1).routines = s.routines ∧ (State.sendNotice s p dest n0 n1).agents = s.agents ∧ (State.sendNotice s p dest n0 n1).dirs = s.dirs ∧ (State.sendNotice s p dest n0 n1).net = s.net ∧ (State.sendNotice s p dest n0 n1).groups = s.groups ∧ (State.sendNotice s p dest n0 n1).stale = s.stale ∧ (State.sendNotice s p dest n0 n1).fence = s.fence ∧ (State.sendNotice s p dest n0 n1).audit = s.audit ∧ (State.sendNotice s p dest n0 n1).breaks = s.breaks := by
  unfold State.sendNotice
  (repeat' split) <;> simp
@[simp] theorem State.noticeAll_keeps (s : State) (n0 : Word) :
    (s.noticeAll n0).pending = s.pending ∧ (s.noticeAll n0).heldCmds = s.heldCmds ∧ (s.noticeAll n0).stamp = s.stamp ∧ (s.noticeAll n0).power = s.power ∧ (s.noticeAll n0).usec = s.usec ∧ (s.noticeAll n0).fuses = s.fuses ∧ (s.noticeAll n0).trim = s.trim ∧ (s.noticeAll n0).charge = s.charge ∧ (s.noticeAll n0).latches = s.latches ∧ (s.noticeAll n0).queues = s.queues ∧ (s.noticeAll n0).nodes = s.nodes ∧ (s.noticeAll n0).reports = s.reports ∧ (s.noticeAll n0).nextIssue = s.nextIssue ∧ (s.noticeAll n0).slots = s.slots ∧ (s.noticeAll n0).stewardQ = s.stewardQ ∧ (s.noticeAll n0).objects = s.objects ∧ (s.noticeAll n0).waiters = s.waiters ∧ (s.noticeAll n0).remoteOps = s.remoteOps ∧ (s.noticeAll n0).ctxs = s.ctxs ∧ (s.noticeAll n0).parts = s.parts ∧ (s.noticeAll n0).cores = s.cores ∧ (s.noticeAll n0).routines = s.routines ∧ (s.noticeAll n0).agents = s.agents ∧ (s.noticeAll n0).dirs = s.dirs ∧ (s.noticeAll n0).net = s.net ∧ (s.noticeAll n0).groups = s.groups ∧ (s.noticeAll n0).stale = s.stale ∧ (s.noticeAll n0).fence = s.fence ∧ (s.noticeAll n0).audit = s.audit ∧ (s.noticeAll n0).breaks = s.breaks :=
  ⟨State.forAll_keep (·.pending) _ _ _ fun _ _ => by simp, State.forAll_keep (·.heldCmds) _ _ _ fun _ _ => by simp, State.forAll_keep (·.stamp) _ _ _ fun _ _ => by simp, State.forAll_keep (·.power) _ _ _ fun _ _ => by simp, State.forAll_keep (·.usec) _ _ _ fun _ _ => by simp, State.forAll_keep (·.fuses) _ _ _ fun _ _ => by simp, State.forAll_keep (·.trim) _ _ _ fun _ _ => by simp, State.forAll_keep (·.charge) _ _ _ fun _ _ => by simp, State.forAll_keep (·.latches) _ _ _ fun _ _ => by simp, State.forAll_keep (·.queues) _ _ _ fun _ _ => by simp, State.forAll_keep (·.nodes) _ _ _ fun _ _ => by simp, State.forAll_keep (·.reports) _ _ _ fun _ _ => by simp, State.forAll_keep (·.nextIssue) _ _ _ fun _ _ => by simp, State.forAll_keep (·.slots) _ _ _ fun _ _ => by simp, State.forAll_keep (·.stewardQ) _ _ _ fun _ _ => by simp, State.forAll_keep (·.objects) _ _ _ fun _ _ => by simp, State.forAll_keep (·.waiters) _ _ _ fun _ _ => by simp, State.forAll_keep (·.remoteOps) _ _ _ fun _ _ => by simp, State.forAll_keep (·.ctxs) _ _ _ fun _ _ => by simp, State.forAll_keep (·.parts) _ _ _ fun _ _ => by simp, State.forAll_keep (·.cores) _ _ _ fun _ _ => by simp, State.forAll_keep (·.routines) _ _ _ fun _ _ => by simp, State.forAll_keep (·.agents) _ _ _ fun _ _ => by simp, State.forAll_keep (·.dirs) _ _ _ fun _ _ => by simp, State.forAll_keep (·.net) _ _ _ fun _ _ => by simp, State.forAll_keep (·.groups) _ _ _ fun _ _ => by simp, State.forAll_keep (·.stale) _ _ _ fun _ _ => by simp, State.forAll_keep (·.fence) _ _ _ fun _ _ => by simp, State.forAll_keep (·.audit) _ _ _ fun _ _ => by simp, State.forAll_keep (·.breaks) _ _ _ fun _ _ => by simp⟩
@[simp] theorem State.openRecord_keeps (s : State) (e : Event) (c : Class) (esc : Bool) :
    (State.openRecord s e c esc).pending = s.pending ∧ (State.openRecord s e c esc).heldCmds = s.heldCmds ∧ (State.openRecord s e c esc).stamp = s.stamp ∧ (State.openRecord s e c esc).power = s.power ∧ (State.openRecord s e c esc).usec = s.usec ∧ (State.openRecord s e c esc).fuses = s.fuses ∧ (State.openRecord s e c esc).trim = s.trim ∧ (State.openRecord s e c esc).charge = s.charge ∧ (State.openRecord s e c esc).latches = s.latches ∧ (State.openRecord s e c esc).queues = s.queues ∧ (State.openRecord s e c esc).nodes = s.nodes ∧ (State.openRecord s e c esc).reports = s.reports ∧ (State.openRecord s e c esc).nextIssue = s.nextIssue ∧ (State.openRecord s e c esc).slots = s.slots ∧ (State.openRecord s e c esc).stewardQ = s.stewardQ ∧ (State.openRecord s e c esc).objects = s.objects ∧ (State.openRecord s e c esc).waiters = s.waiters ∧ (State.openRecord s e c esc).remoteOps = s.remoteOps ∧ (State.openRecord s e c esc).ctxs = s.ctxs ∧ (State.openRecord s e c esc).parts = s.parts ∧ (State.openRecord s e c esc).cores = s.cores ∧ (State.openRecord s e c esc).routines = s.routines ∧ (State.openRecord s e c esc).agents = s.agents ∧ (State.openRecord s e c esc).dirs = s.dirs ∧ (State.openRecord s e c esc).net = s.net ∧ (State.openRecord s e c esc).groups = s.groups ∧ (State.openRecord s e c esc).stale = s.stale ∧ (State.openRecord s e c esc).fence = s.fence ∧ (State.openRecord s e c esc).audit = s.audit ∧ (State.openRecord s e c esc).breaks = s.breaks := by
  unfold State.openRecord
  try dsimp only
  (repeat' split) <;> simp
@[simp] theorem State.askTeardown_keeps (s : State) (c : Nat) (cause : BitVec 8) (node : Option Nat) :
    (State.askTeardown s c cause node).pending = s.pending ∧ (State.askTeardown s c cause node).heldCmds = s.heldCmds ∧ (State.askTeardown s c cause node).stamp = s.stamp ∧ (State.askTeardown s c cause node).power = s.power ∧ (State.askTeardown s c cause node).usec = s.usec ∧ (State.askTeardown s c cause node).fuses = s.fuses ∧ (State.askTeardown s c cause node).trim = s.trim ∧ (State.askTeardown s c cause node).charge = s.charge ∧ (State.askTeardown s c cause node).latches = s.latches ∧ (State.askTeardown s c cause node).queues = s.queues ∧ (State.askTeardown s c cause node).nodes = s.nodes ∧ (State.askTeardown s c cause node).reports = s.reports ∧ (State.askTeardown s c cause node).nextIssue = s.nextIssue ∧ (State.askTeardown s c cause node).slots = s.slots ∧ (State.askTeardown s c cause node).stewardQ = s.stewardQ ∧ (State.askTeardown s c cause node).objects = s.objects ∧ (State.askTeardown s c cause node).waiters = s.waiters ∧ (State.askTeardown s c cause node).remoteOps = s.remoteOps ∧ (State.askTeardown s c cause node).ctxs = s.ctxs ∧ (State.askTeardown s c cause node).parts = s.parts ∧ (State.askTeardown s c cause node).cores = s.cores ∧ (State.askTeardown s c cause node).routines = s.routines ∧ (State.askTeardown s c cause node).agents = s.agents ∧ (State.askTeardown s c cause node).dirs = s.dirs ∧ (State.askTeardown s c cause node).net = s.net ∧ (State.askTeardown s c cause node).groups = s.groups ∧ (State.askTeardown s c cause node).stale = s.stale ∧ (State.askTeardown s c cause node).fence = s.fence ∧ (State.askTeardown s c cause node).audit = s.audit ∧ (State.askTeardown s c cause node).breaks = s.breaks := by
  unfold State.askTeardown
  (repeat' split) <;> simp
@[simp] theorem State.askReset_keeps (s : State) (r : ResetReq) :
    (State.askReset s r).pending = s.pending ∧ (State.askReset s r).heldCmds = s.heldCmds ∧ (State.askReset s r).stamp = s.stamp ∧ (State.askReset s r).power = s.power ∧ (State.askReset s r).usec = s.usec ∧ (State.askReset s r).fuses = s.fuses ∧ (State.askReset s r).trim = s.trim ∧ (State.askReset s r).charge = s.charge ∧ (State.askReset s r).latches = s.latches ∧ (State.askReset s r).queues = s.queues ∧ (State.askReset s r).nodes = s.nodes ∧ (State.askReset s r).reports = s.reports ∧ (State.askReset s r).nextIssue = s.nextIssue ∧ (State.askReset s r).slots = s.slots ∧ (State.askReset s r).stewardQ = s.stewardQ ∧ (State.askReset s r).objects = s.objects ∧ (State.askReset s r).waiters = s.waiters ∧ (State.askReset s r).remoteOps = s.remoteOps ∧ (State.askReset s r).ctxs = s.ctxs ∧ (State.askReset s r).parts = s.parts ∧ (State.askReset s r).cores = s.cores ∧ (State.askReset s r).routines = s.routines ∧ (State.askReset s r).agents = s.agents ∧ (State.askReset s r).dirs = s.dirs ∧ (State.askReset s r).net = s.net ∧ (State.askReset s r).groups = s.groups ∧ (State.askReset s r).stale = s.stale ∧ (State.askReset s r).fence = s.fence ∧ (State.askReset s r).audit = s.audit ∧ (State.askReset s r).breaks = s.breaks := by
  unfold State.askReset
  (repeat' split) <;> simp
@[simp] theorem State.abortAll_keeps (s : State) (ended : Nat → Bool) :
    (s.abortAll ended).pending = s.pending ∧ (s.abortAll ended).heldCmds = s.heldCmds ∧ (s.abortAll ended).stamp = s.stamp ∧ (s.abortAll ended).power = s.power ∧ (s.abortAll ended).usec = s.usec ∧ (s.abortAll ended).fuses = s.fuses ∧ (s.abortAll ended).trim = s.trim ∧ (s.abortAll ended).charge = s.charge ∧ (s.abortAll ended).latches = s.latches ∧ (s.abortAll ended).queues = s.queues ∧ (s.abortAll ended).nodes = s.nodes ∧ (s.abortAll ended).reports = s.reports ∧ (s.abortAll ended).nextIssue = s.nextIssue ∧ (s.abortAll ended).slots = s.slots ∧ (s.abortAll ended).stewardQ = s.stewardQ ∧ (s.abortAll ended).objects = s.objects ∧ (s.abortAll ended).waiters = s.waiters ∧ (s.abortAll ended).remoteOps = s.remoteOps ∧ (s.abortAll ended).ctxs = s.ctxs ∧ (s.abortAll ended).parts = s.parts ∧ (s.abortAll ended).cores = s.cores ∧ (s.abortAll ended).routines = s.routines ∧ (s.abortAll ended).agents = s.agents ∧ (s.abortAll ended).dirs = s.dirs ∧ (s.abortAll ended).net = s.net ∧ (s.abortAll ended).groups = s.groups ∧ (s.abortAll ended).stale = s.stale ∧ (s.abortAll ended).fence = s.fence ∧ (s.abortAll ended).audit = s.audit ∧ (s.abortAll ended).breaks = s.breaks := by
  unfold State.abortAll
  refine ⟨foldl_keep (·.pending) _ (fun x a => by (repeat' split) <;> simp) _ _, foldl_keep (·.heldCmds) _ (fun x a => by (repeat' split) <;> simp) _ _, foldl_keep (·.stamp) _ (fun x a => by (repeat' split) <;> simp) _ _, foldl_keep (·.power) _ (fun x a => by (repeat' split) <;> simp) _ _, foldl_keep (·.usec) _ (fun x a => by (repeat' split) <;> simp) _ _, foldl_keep (·.fuses) _ (fun x a => by (repeat' split) <;> simp) _ _, foldl_keep (·.trim) _ (fun x a => by (repeat' split) <;> simp) _ _, foldl_keep (·.charge) _ (fun x a => by (repeat' split) <;> simp) _ _, foldl_keep (·.latches) _ (fun x a => by (repeat' split) <;> simp) _ _, foldl_keep (·.queues) _ (fun x a => by (repeat' split) <;> simp) _ _, foldl_keep (·.nodes) _ (fun x a => by (repeat' split) <;> simp) _ _, foldl_keep (·.reports) _ (fun x a => by (repeat' split) <;> simp) _ _, foldl_keep (·.nextIssue) _ (fun x a => by (repeat' split) <;> simp) _ _, foldl_keep (·.slots) _ (fun x a => by (repeat' split) <;> simp) _ _, foldl_keep (·.stewardQ) _ (fun x a => by (repeat' split) <;> simp) _ _, foldl_keep (·.objects) _ (fun x a => by (repeat' split) <;> simp) _ _, foldl_keep (·.waiters) _ (fun x a => by (repeat' split) <;> simp) _ _, foldl_keep (·.remoteOps) _ (fun x a => by (repeat' split) <;> simp) _ _, foldl_keep (·.ctxs) _ (fun x a => by (repeat' split) <;> simp) _ _, foldl_keep (·.parts) _ (fun x a => by (repeat' split) <;> simp) _ _, foldl_keep (·.cores) _ (fun x a => by (repeat' split) <;> simp) _ _, foldl_keep (·.routines) _ (fun x a => by (repeat' split) <;> simp) _ _, foldl_keep (·.agents) _ (fun x a => by (repeat' split) <;> simp) _ _, foldl_keep (·.dirs) _ (fun x a => by (repeat' split) <;> simp) _ _, foldl_keep (·.net) _ (fun x a => by (repeat' split) <;> simp) _ _, foldl_keep (·.groups) _ (fun x a => by (repeat' split) <;> simp) _ _, foldl_keep (·.stale) _ (fun x a => by (repeat' split) <;> simp) _ _, foldl_keep (·.fence) _ (fun x a => by (repeat' split) <;> simp) _ _, foldl_keep (·.audit) _ (fun x a => by (repeat' split) <;> simp) _ _, foldl_keep (·.breaks) _ (fun x a => by (repeat' split) <;> simp) _ _⟩
@[simp] theorem State.enterSafe_keeps (s : State) :
    (State.enterSafe s).pending = s.pending ∧ (State.enterSafe s).heldCmds = s.heldCmds ∧ (State.enterSafe s).stamp = s.stamp ∧ (State.enterSafe s).power = s.power ∧ (State.enterSafe s).usec = s.usec ∧ (State.enterSafe s).fuses = s.fuses ∧ (State.enterSafe s).trim = s.trim ∧ (State.enterSafe s).charge = s.charge ∧ (State.enterSafe s).latches = s.latches ∧ (State.enterSafe s).queues = s.queues ∧ (State.enterSafe s).nodes = s.nodes ∧ (State.enterSafe s).reports = s.reports ∧ (State.enterSafe s).nextIssue = s.nextIssue ∧ (State.enterSafe s).slots = s.slots ∧ (State.enterSafe s).stewardQ = s.stewardQ ∧ (State.enterSafe s).objects = s.objects ∧ (State.enterSafe s).waiters = s.waiters ∧ (State.enterSafe s).remoteOps = s.remoteOps ∧ (State.enterSafe s).ctxs = s.ctxs ∧ (State.enterSafe s).parts = s.parts ∧ (State.enterSafe s).cores = s.cores ∧ (State.enterSafe s).routines = s.routines ∧ (State.enterSafe s).agents = s.agents ∧ (State.enterSafe s).dirs = s.dirs ∧ (State.enterSafe s).net = s.net ∧ (State.enterSafe s).groups = s.groups ∧ (State.enterSafe s).stale = s.stale ∧ (State.enterSafe s).fence = s.fence ∧ (State.enterSafe s).audit = s.audit ∧ (State.enterSafe s).breaks = s.breaks := by
  unfold State.enterSafe
  (repeat' split) <;> simp
@[simp] theorem State.act_keeps (s : State) (e : Event) (c : Class) (rec : Nat) (full : Bool) :
    (State.act s e c rec full).pending = s.pending ∧ (State.act s e c rec full).heldCmds = s.heldCmds ∧ (State.act s e c rec full).stamp = s.stamp ∧ (State.act s e c rec full).power = s.power ∧ (State.act s e c rec full).usec = s.usec ∧ (State.act s e c rec full).fuses = s.fuses ∧ (State.act s e c rec full).trim = s.trim ∧ (State.act s e c rec full).charge = s.charge ∧ (State.act s e c rec full).latches = s.latches ∧ (State.act s e c rec full).queues = s.queues ∧ (State.act s e c rec full).nodes = s.nodes ∧ (State.act s e c rec full).reports = s.reports ∧ (State.act s e c rec full).nextIssue = s.nextIssue ∧ (State.act s e c rec full).slots = s.slots ∧ (State.act s e c rec full).stewardQ = s.stewardQ ∧ (State.act s e c rec full).objects = s.objects ∧ (State.act s e c rec full).waiters = s.waiters ∧ (State.act s e c rec full).remoteOps = s.remoteOps ∧ (State.act s e c rec full).ctxs = s.ctxs ∧ (State.act s e c rec full).parts = s.parts ∧ (State.act s e c rec full).cores = s.cores ∧ (State.act s e c rec full).routines = s.routines ∧ (State.act s e c rec full).agents = s.agents ∧ (State.act s e c rec full).dirs = s.dirs ∧ (State.act s e c rec full).net = s.net ∧ (State.act s e c rec full).groups = s.groups ∧ (State.act s e c rec full).stale = s.stale ∧ (State.act s e c rec full).fence = s.fence ∧ (State.act s e c rec full).audit = s.audit ∧ (State.act s e c rec full).breaks = s.breaks := by
  unfold State.act
  (repeat' split) <;> simp
@[simp] theorem State.lifeEvent_keeps (s : State) (e : Event) (c : Class) :
    (State.lifeEvent s e c).pending = s.pending ∧ (State.lifeEvent s e c).heldCmds = s.heldCmds ∧ (State.lifeEvent s e c).stamp = s.stamp ∧ (State.lifeEvent s e c).power = s.power ∧ (State.lifeEvent s e c).usec = s.usec ∧ (State.lifeEvent s e c).fuses = s.fuses ∧ (State.lifeEvent s e c).trim = s.trim ∧ (State.lifeEvent s e c).charge = s.charge ∧ (State.lifeEvent s e c).latches = s.latches ∧ (State.lifeEvent s e c).queues = s.queues ∧ (State.lifeEvent s e c).nodes = s.nodes ∧ (State.lifeEvent s e c).reports = s.reports ∧ (State.lifeEvent s e c).nextIssue = s.nextIssue ∧ (State.lifeEvent s e c).slots = s.slots ∧ (State.lifeEvent s e c).stewardQ = s.stewardQ ∧ (State.lifeEvent s e c).objects = s.objects ∧ (State.lifeEvent s e c).waiters = s.waiters ∧ (State.lifeEvent s e c).remoteOps = s.remoteOps ∧ (State.lifeEvent s e c).ctxs = s.ctxs ∧ (State.lifeEvent s e c).parts = s.parts ∧ (State.lifeEvent s e c).cores = s.cores ∧ (State.lifeEvent s e c).routines = s.routines ∧ (State.lifeEvent s e c).agents = s.agents ∧ (State.lifeEvent s e c).dirs = s.dirs ∧ (State.lifeEvent s e c).net = s.net ∧ (State.lifeEvent s e c).groups = s.groups ∧ (State.lifeEvent s e c).stale = s.stale ∧ (State.lifeEvent s e c).fence = s.fence ∧ (State.lifeEvent s e c).audit = s.audit ∧ (State.lifeEvent s e c).breaks = s.breaks := by
  unfold State.lifeEvent
  (repeat' split) <;> simp
@[simp] theorem State.countEvent_keeps (s : State) (e : Event) (esc : Bool) :
    (State.countEvent s e esc).pending = s.pending ∧ (State.countEvent s e esc).heldCmds = s.heldCmds ∧ (State.countEvent s e esc).stamp = s.stamp ∧ (State.countEvent s e esc).power = s.power ∧ (State.countEvent s e esc).usec = s.usec ∧ (State.countEvent s e esc).fuses = s.fuses ∧ (State.countEvent s e esc).trim = s.trim ∧ (State.countEvent s e esc).charge = s.charge ∧ (State.countEvent s e esc).latches = s.latches ∧ (State.countEvent s e esc).queues = s.queues ∧ (State.countEvent s e esc).nodes = s.nodes ∧ (State.countEvent s e esc).reports = s.reports ∧ (State.countEvent s e esc).nextIssue = s.nextIssue ∧ (State.countEvent s e esc).slots = s.slots ∧ (State.countEvent s e esc).stewardQ = s.stewardQ ∧ (State.countEvent s e esc).objects = s.objects ∧ (State.countEvent s e esc).waiters = s.waiters ∧ (State.countEvent s e esc).remoteOps = s.remoteOps ∧ (State.countEvent s e esc).ctxs = s.ctxs ∧ (State.countEvent s e esc).parts = s.parts ∧ (State.countEvent s e esc).cores = s.cores ∧ (State.countEvent s e esc).routines = s.routines ∧ (State.countEvent s e esc).agents = s.agents ∧ (State.countEvent s e esc).dirs = s.dirs ∧ (State.countEvent s e esc).net = s.net ∧ (State.countEvent s e esc).groups = s.groups ∧ (State.countEvent s e esc).stale = s.stale ∧ (State.countEvent s e esc).fence = s.fence ∧ (State.countEvent s e esc).audit = s.audit ∧ (State.countEvent s e esc).breaks = s.breaks := by
  unfold State.countEvent
  simp
@[simp] theorem State.windowAfter_keeps (s : State) (e : Event) :
    (State.windowAfter s e).pending = s.pending ∧ (State.windowAfter s e).heldCmds = s.heldCmds ∧ (State.windowAfter s e).stamp = s.stamp ∧ (State.windowAfter s e).power = s.power ∧ (State.windowAfter s e).usec = s.usec ∧ (State.windowAfter s e).fuses = s.fuses ∧ (State.windowAfter s e).trim = s.trim ∧ (State.windowAfter s e).charge = s.charge ∧ (State.windowAfter s e).latches = s.latches ∧ (State.windowAfter s e).queues = s.queues ∧ (State.windowAfter s e).nodes = s.nodes ∧ (State.windowAfter s e).reports = s.reports ∧ (State.windowAfter s e).nextIssue = s.nextIssue ∧ (State.windowAfter s e).slots = s.slots ∧ (State.windowAfter s e).stewardQ = s.stewardQ ∧ (State.windowAfter s e).objects = s.objects ∧ (State.windowAfter s e).waiters = s.waiters ∧ (State.windowAfter s e).remoteOps = s.remoteOps ∧ (State.windowAfter s e).ctxs = s.ctxs ∧ (State.windowAfter s e).parts = s.parts ∧ (State.windowAfter s e).cores = s.cores ∧ (State.windowAfter s e).routines = s.routines ∧ (State.windowAfter s e).agents = s.agents ∧ (State.windowAfter s e).dirs = s.dirs ∧ (State.windowAfter s e).net = s.net ∧ (State.windowAfter s e).groups = s.groups ∧ (State.windowAfter s e).stale = s.stale ∧ (State.windowAfter s e).fence = s.fence ∧ (State.windowAfter s e).audit = s.audit ∧ (State.windowAfter s e).breaks = s.breaks := by
  simp [State.windowAfter]
@[simp] theorem State.raise_keeps (s : State) (e : Event) :
    (State.raise s e).pending = s.pending ∧ (State.raise s e).heldCmds = s.heldCmds ∧ (State.raise s e).stamp = s.stamp ∧ (State.raise s e).power = s.power ∧ (State.raise s e).usec = s.usec ∧ (State.raise s e).fuses = s.fuses ∧ (State.raise s e).trim = s.trim ∧ (State.raise s e).charge = s.charge ∧ (State.raise s e).latches = s.latches ∧ (State.raise s e).queues = s.queues ∧ (State.raise s e).nodes = s.nodes ∧ (State.raise s e).reports = s.reports ∧ (State.raise s e).nextIssue = s.nextIssue ∧ (State.raise s e).slots = s.slots ∧ (State.raise s e).stewardQ = s.stewardQ ∧ (State.raise s e).objects = s.objects ∧ (State.raise s e).waiters = s.waiters ∧ (State.raise s e).remoteOps = s.remoteOps ∧ (State.raise s e).ctxs = s.ctxs ∧ (State.raise s e).parts = s.parts ∧ (State.raise s e).cores = s.cores ∧ (State.raise s e).routines = s.routines ∧ (State.raise s e).agents = s.agents ∧ (State.raise s e).dirs = s.dirs ∧ (State.raise s e).net = s.net ∧ (State.raise s e).groups = s.groups ∧ (State.raise s e).stale = s.stale ∧ (State.raise s e).fence = s.fence ∧ (State.raise s e).audit = s.audit ∧ (State.raise s e).breaks = s.breaks := by
  unfold State.raise
  try dsimp only
  (repeat' split) <;> simp
end Sys2Proof.Machine
end

