-- ==== Sys2Proof/Laws/Lines.lean ====
section
/-! SUPPORT. Accesses of the hive caches and descriptor caches (R317): when one acts and when it waits, and what asking
for its lines leaves alone. -/

namespace Sys2Proof.Machine

/-- With every line held the access acts, on the state in which its writes have made M of E. -/
theorem State.withLines_held {s : State} {xs : List LineNeed} (wait f : State → State)
    (h : xs.all s.lineHeld = true) : s.withLines xs wait f = f (xs.foldl State.askLine s) := by
  simp only [State.withLines, h, if_true]

/-- With a line that is not held the access waits, and what it lacks has been asked for. -/
theorem State.withLines_asks {s : State} {xs : List LineNeed} (wait f : State → State)
    (h : xs.all s.lineHeld = false) :
    s.withLines xs wait f = wait ((xs.filter fun x => !s.lineHeld x).foldl State.askLine s) := by
  simp only [State.withLines, h, Bool.false_eq_true, if_false]

/-- An access that needs no line acts. -/
@[simp] theorem State.withLines_nil (s : State) (wait f : State → State) : s.withLines [] wait f = f s := (rfl)

/-- Asking for a line changes only the agents and the messages on their way. -/
theorem State.askLine_eq (s : State) (x : LineNeed) :
    s.askLine x = { s with agents := (s.askLine x).agents, net := (s.askLine x).net } := by
  unfold State.askLine State.localWrite State.localRead
  dsimp only
  repeat' split
  all_goals rfl

/-- So does asking for several. -/
theorem State.askLines_eq (xs : List LineNeed) (s : State) :
    xs.foldl State.askLine s =
      { s with agents := (xs.foldl State.askLine s).agents, net := (xs.foldl State.askLine s).net } := by
  induction xs generalizing s with
  | nil => rfl
  | cons x xs ih =>
    rw [List.foldl_cons, ih (s.askLine x), s.askLine_eq x]

/-- With every line held the command that reads them is performed, and reads nothing more. -/
theorem State.withReads_held {s : State} {xs : List LineNeed} (c : Instr) (wait f : State → State)
    (h : xs.all s.lineHeld = true) :
    s.withReads c xs wait f = f { s with reads := s.reads.filter fun e => e.1 != c } := by
  have h' : ∀ x ∈ xs, s.lineHeld x = true := List.all_eq_true.mp h
  unfold State.withReads
  dsimp only
  rw [if_pos]
  split
  · exact List.all_eq_true.mpr fun x hx => h' x (List.mem_filter.mp hx).1
  · exact h

/-- The lines that a command has read are not read again: it is performed once those that were left are held. -/
theorem State.withReads_rest {s : State} {xs : List LineNeed} {c d : Instr} {ls : List CohLine}
    (wait f : State → State) (hr : s.reads.find? (fun e => e.1 == c) = some (d, ls))
    (h : ∀ x ∈ xs, x.line ∈ ls → s.lineHeld x = true) :
    s.withReads c xs wait f = f { s with reads := s.reads.filter fun e => e.1 != c } := by
  unfold State.withReads
  simp only [hr]
  rw [if_pos]
  refine List.all_eq_true.mpr fun x hx => ?_
  obtain ⟨hx, hl⟩ := List.mem_filter.mp hx
  exact h x hx (by simpa using hl)

end Sys2Proof.Machine
end

