-- ==== Sys2Proof/Laws/Retire.lean ====
section
/-! SUPPORT. What the retirement of a sheaf leaves alone (R71, R108-R110): objects and their waiters, scale slots,
routines, groups, the stale table, the step fence, latches and the queue of commands. Everything a retirement is made
of has its lemma, named after it. -/

set_option linter.all false
namespace Sys2Proof.Machine
theorem State.forAll_frame (s : State) (ns : List Nat) (f : State → Nat → State)
    (h : ∀ (x0 : State) (x1 : Nat), (f x0 x1).pending = x0.pending ∧ (f x0 x1).heldCmds = x0.heldCmds ∧ (f x0 x1).power = x0.power ∧ (f x0 x1).usec = x0.usec ∧ (f x0 x1).fuses = x0.fuses ∧ (f x0 x1).trim = x0.trim ∧ (f x0 x1).latches = x0.latches ∧ (f x0 x1).slots = x0.slots ∧ (f x0 x1).objects = x0.objects ∧ (f x0 x1).waiters = x0.waiters ∧ (f x0 x1).remoteOps = x0.remoteOps ∧ (f x0 x1).parts = x0.parts ∧ (f x0 x1).routines = x0.routines ∧ (f x0 x1).groups = x0.groups ∧ (f x0 x1).stale = x0.stale ∧ (f x0 x1).fence = x0.fence ∧ (f x0 x1).audit = x0.audit) :
    (s.forAll ns f).pending = s.pending ∧ (s.forAll ns f).heldCmds = s.heldCmds ∧ (s.forAll ns f).power = s.power ∧ (s.forAll ns f).usec = s.usec ∧ (s.forAll ns f).fuses = s.fuses ∧ (s.forAll ns f).trim = s.trim ∧ (s.forAll ns f).latches = s.latches ∧ (s.forAll ns f).slots = s.slots ∧ (s.forAll ns f).objects = s.objects ∧ (s.forAll ns f).waiters = s.waiters ∧ (s.forAll ns f).remoteOps = s.remoteOps ∧ (s.forAll ns f).parts = s.parts ∧ (s.forAll ns f).routines = s.routines ∧ (s.forAll ns f).groups = s.groups ∧ (s.forAll ns f).stale = s.stale ∧ (s.forAll ns f).fence = s.fence ∧ (s.forAll ns f).audit = s.audit := by
  induction ns generalizing s with
  | nil => simp [State.forAll]
  | cons n ns ih =>
    have e : s.forAll (n :: ns) f = (f s n).forAll ns f := rfl
    have i := ih (f s n)
    have j := h s n
    rw [e]
    simp only [i, j, and_self]

@[simp] theorem State.modQueue_frame (s : State) (q : Nat) (f : Queue → Queue) :
    (State.modQueue s q f).pending = s.pending ∧ (State.modQueue s q f).heldCmds = s.heldCmds ∧ (State.modQueue s q f).power = s.power ∧ (State.modQueue s q f).usec = s.usec ∧ (State.modQueue s q f).fuses = s.fuses ∧ (State.modQueue s q f).trim = s.trim ∧ (State.modQueue s q f).latches = s.latches ∧ (State.modQueue s q f).slots = s.slots ∧ (State.modQueue s q f).objects = s.objects ∧ (State.modQueue s q f).waiters = s.waiters ∧ (State.modQueue s q f).remoteOps = s.remoteOps ∧ (State.modQueue s q f).parts = s.parts ∧ (State.modQueue s q f).routines = s.routines ∧ (State.modQueue s q f).groups = s.groups ∧ (State.modQueue s q f).stale = s.stale ∧ (State.modQueue s q f).fence = s.fence ∧ (State.modQueue s q f).audit = s.audit := by
  unfold State.modQueue
  simp
@[simp] theorem State.modNode_frame (s : State) (n : Nat) (f : Node → Node) :
    (State.modNode s n f).pending = s.pending ∧ (State.modNode s n f).heldCmds = s.heldCmds ∧ (State.modNode s n f).power = s.power ∧ (State.modNode s n f).usec = s.usec ∧ (State.modNode s n f).fuses = s.fuses ∧ (State.modNode s n f).trim = s.trim ∧ (State.modNode s n f).latches = s.latches ∧ (State.modNode s n f).slots = s.slots ∧ (State.modNode s n f).objects = s.objects ∧ (State.modNode s n f).waiters = s.waiters ∧ (State.modNode s n f).remoteOps = s.remoteOps ∧ (State.modNode s n f).parts = s.parts ∧ (State.modNode s n f).routines = s.routines ∧ (State.modNode s n f).groups = s.groups ∧ (State.modNode s n f).stale = s.stale ∧ (State.modNode s n f).fence = s.fence ∧ (State.modNode s n f).audit = s.audit := by
  unfold State.modNode
  simp
@[simp] theorem State.modFurrow_frame (s : State) (f : Nat) (g : Furrow → Furrow) :
    (State.modFurrow s f g).pending = s.pending ∧ (State.modFurrow s f g).heldCmds = s.heldCmds ∧ (State.modFurrow s f g).power = s.power ∧ (State.modFurrow s f g).usec = s.usec ∧ (State.modFurrow s f g).fuses = s.fuses ∧ (State.modFurrow s f g).trim = s.trim ∧ (State.modFurrow s f g).latches = s.latches ∧ (State.modFurrow s f g).slots = s.slots ∧ (State.modFurrow s f g).objects = s.objects ∧ (State.modFurrow s f g).waiters = s.waiters ∧ (State.modFurrow s f g).remoteOps = s.remoteOps ∧ (State.modFurrow s f g).parts = s.parts ∧ (State.modFurrow s f g).routines = s.routines ∧ (State.modFurrow s f g).groups = s.groups ∧ (State.modFurrow s f g).stale = s.stale ∧ (State.modFurrow s f g).fence = s.fence ∧ (State.modFurrow s f g).audit = s.audit := by
  unfold State.modFurrow
  simp
@[simp] theorem State.modCtx_frame (s : State) (c : Nat) (f : Ctx → Ctx) :
    (State.modCtx s c f).pending = s.pending ∧ (State.modCtx s c f).heldCmds = s.heldCmds ∧ (State.modCtx s c f).power = s.power ∧ (State.modCtx s c f).usec = s.usec ∧ (State.modCtx s c f).fuses = s.fuses ∧ (State.modCtx s c f).trim = s.trim ∧ (State.modCtx s c f).latches = s.latches ∧ (State.modCtx s c f).slots = s.slots ∧ (State.modCtx s c f).objects = s.objects ∧ (State.modCtx s c f).waiters = s.waiters ∧ (State.modCtx s c f).remoteOps = s.remoteOps ∧ (State.modCtx s c f).parts = s.parts ∧ (State.modCtx s c f).routines = s.routines ∧ (State.modCtx s c f).groups = s.groups ∧ (State.modCtx s c f).stale = s.stale ∧ (State.modCtx s c f).fence = s.fence ∧ (State.modCtx s c f).audit = s.audit := by
  unfold State.modCtx
  simp
@[simp] theorem State.modAcct_frame (s : State) (c : Nat) (f : Acct → Acct) :
    (State.modAcct s c f).pending = s.pending ∧ (State.modAcct s c f).heldCmds = s.heldCmds ∧ (State.modAcct s c f).power = s.power ∧ (State.modAcct s c f).usec = s.usec ∧ (State.modAcct s c f).fuses = s.fuses ∧ (State.modAcct s c f).trim = s.trim ∧ (State.modAcct s c f).latches = s.latches ∧ (State.modAcct s c f).slots = s.slots ∧ (State.modAcct s c f).objects = s.objects ∧ (State.modAcct s c f).waiters = s.waiters ∧ (State.modAcct s c f).remoteOps = s.remoteOps ∧ (State.modAcct s c f).parts = s.parts ∧ (State.modAcct s c f).routines = s.routines ∧ (State.modAcct s c f).groups = s.groups ∧ (State.modAcct s c f).stale = s.stale ∧ (State.modAcct s c f).fence = s.fence ∧ (State.modAcct s c f).audit = s.audit := by
  unfold State.modAcct
  simp
@[simp] theorem State.modCore_frame (s : State) (k : Nat) (f : Core → Core) :
    (State.modCore s k f).pending = s.pending ∧ (State.modCore s k f).heldCmds = s.heldCmds ∧ (State.modCore s k f).power = s.power ∧ (State.modCore s k f).usec = s.usec ∧ (State.modCore s k f).fuses = s.fuses ∧ (State.modCore s k f).trim = s.trim ∧ (State.modCore s k f).latches = s.latches ∧ (State.modCore s k f).slots = s.slots ∧ (State.modCore s k f).objects = s.objects ∧ (State.modCore s k f).waiters = s.waiters ∧ (State.modCore s k f).remoteOps = s.remoteOps ∧ (State.modCore s k f).parts = s.parts ∧ (State.modCore s k f).routines = s.routines ∧ (State.modCore s k f).groups = s.groups ∧ (State.modCore s k f).stale = s.stale ∧ (State.modCore s k f).fence = s.fence ∧ (State.modCore s k f).audit = s.audit := by
  unfold State.modCore
  simp
@[simp] theorem State.setRun_frame (s : State) (k fr : Nat) (r : Run) :
    (State.setRun s k fr r).pending = s.pending ∧ (State.setRun s k fr r).heldCmds = s.heldCmds ∧ (State.setRun s k fr r).power = s.power ∧ (State.setRun s k fr r).usec = s.usec ∧ (State.setRun s k fr r).fuses = s.fuses ∧ (State.setRun s k fr r).trim = s.trim ∧ (State.setRun s k fr r).latches = s.latches ∧ (State.setRun s k fr r).slots = s.slots ∧ (State.setRun s k fr r).objects = s.objects ∧ (State.setRun s k fr r).waiters = s.waiters ∧ (State.setRun s k fr r).remoteOps = s.remoteOps ∧ (State.setRun s k fr r).parts = s.parts ∧ (State.setRun s k fr r).routines = s.routines ∧ (State.setRun s k fr r).groups = s.groups ∧ (State.setRun s k fr r).stale = s.stale ∧ (State.setRun s k fr r).fence = s.fence ∧ (State.setRun s k fr r).audit = s.audit := by
  unfold State.setRun
  simp
@[simp] theorem State.send_frame (s : State) (src dst : Nat) (l : CohLine) (k : MsgKind) :
    (State.send s src dst l k).pending = s.pending ∧ (State.send s src dst l k).heldCmds = s.heldCmds ∧ (State.send s src dst l k).power = s.power ∧ (State.send s src dst l k).usec = s.usec ∧ (State.send s src dst l k).fuses = s.fuses ∧ (State.send s src dst l k).trim = s.trim ∧ (State.send s src dst l k).latches = s.latches ∧ (State.send s src dst l k).slots = s.slots ∧ (State.send s src dst l k).objects = s.objects ∧ (State.send s src dst l k).waiters = s.waiters ∧ (State.send s src dst l k).remoteOps = s.remoteOps ∧ (State.send s src dst l k).parts = s.parts ∧ (State.send s src dst l k).routines = s.routines ∧ (State.send s src dst l k).groups = s.groups ∧ (State.send s src dst l k).stale = s.stale ∧ (State.send s src dst l k).fence = s.fence ∧ (State.send s src dst l k).audit = s.audit := by
  unfold State.send
  simp
@[simp] theorem State.writeHome_frame (s : State) (l : CohLine) :
    (State.writeHome s l).pending = s.pending ∧ (State.writeHome s l).heldCmds = s.heldCmds ∧ (State.writeHome s l).power = s.power ∧ (State.writeHome s l).usec = s.usec ∧ (State.writeHome s l).fuses = s.fuses ∧ (State.writeHome s l).trim = s.trim ∧ (State.writeHome s l).latches = s.latches ∧ (State.writeHome s l).slots = s.slots ∧ (State.writeHome s l).objects = s.objects ∧ (State.writeHome s l).waiters = s.waiters ∧ (State.writeHome s l).remoteOps = s.remoteOps ∧ (State.writeHome s l).parts = s.parts ∧ (State.writeHome s l).routines = s.routines ∧ (State.writeHome s l).groups = s.groups ∧ (State.writeHome s l).stale = s.stale ∧ (State.writeHome s l).fence = s.fence ∧ (State.writeHome s l).audit = s.audit := by
  unfold State.writeHome
  (repeat' split) <;> simp
@[simp] theorem State.invAll_frame (s : State) (l : CohLine) (v : List Nat) :
    (State.invAll s l v).pending = s.pending ∧ (State.invAll s l v).heldCmds = s.heldCmds ∧ (State.invAll s l v).power = s.power ∧ (State.invAll s l v).usec = s.usec ∧ (State.invAll s l v).fuses = s.fuses ∧ (State.invAll s l v).trim = s.trim ∧ (State.invAll s l v).latches = s.latches ∧ (State.invAll s l v).slots = s.slots ∧ (State.invAll s l v).objects = s.objects ∧ (State.invAll s l v).waiters = s.waiters ∧ (State.invAll s l v).remoteOps = s.remoteOps ∧ (State.invAll s l v).parts = s.parts ∧ (State.invAll s l v).routines = s.routines ∧ (State.invAll s l v).groups = s.groups ∧ (State.invAll s l v).stale = s.stale ∧ (State.invAll s l v).fence = s.fence ∧ (State.invAll s l v).audit = s.audit := by
  unfold State.invAll
  (repeat' split) <;> first | exact State.forAll_frame _ _ _ (fun x n => by (try dsimp only); (repeat' split) <;> simp) | simp
@[simp] theorem State.serve_frame (s : State) (l : CohLine) (r : Nat) (q : Req) (shared : Bool) :
    (State.serve s l r q shared).pending = s.pending ∧ (State.serve s l r q shared).heldCmds = s.heldCmds ∧ (State.serve s l r q shared).power = s.power ∧ (State.serve s l r q shared).usec = s.usec ∧ (State.serve s l r q shared).fuses = s.fuses ∧ (State.serve s l r q shared).trim = s.trim ∧ (State.serve s l r q shared).latches = s.latches ∧ (State.serve s l r q shared).slots = s.slots ∧ (State.serve s l r q shared).objects = s.objects ∧ (State.serve s l r q shared).waiters = s.waiters ∧ (State.serve s l r q shared).remoteOps = s.remoteOps ∧ (State.serve s l r q shared).parts = s.parts ∧ (State.serve s l r q shared).routines = s.routines ∧ (State.serve s l r q shared).groups = s.groups ∧ (State.serve s l r q shared).stale = s.stale ∧ (State.serve s l r q shared).fence = s.fence ∧ (State.serve s l r q shared).audit = s.audit := by
  unfold State.serve
  (try dsimp only)
  (repeat' split) <;> simp [State.setDir, State.setAline]
@[simp] theorem State.takeBack_frame (s : State) (l : CohLine) :
    (State.takeBack s l).pending = s.pending ∧ (State.takeBack s l).heldCmds = s.heldCmds ∧ (State.takeBack s l).power = s.power ∧ (State.takeBack s l).usec = s.usec ∧ (State.takeBack s l).fuses = s.fuses ∧ (State.takeBack s l).trim = s.trim ∧ (State.takeBack s l).latches = s.latches ∧ (State.takeBack s l).slots = s.slots ∧ (State.takeBack s l).objects = s.objects ∧ (State.takeBack s l).waiters = s.waiters ∧ (State.takeBack s l).remoteOps = s.remoteOps ∧ (State.takeBack s l).parts = s.parts ∧ (State.takeBack s l).routines = s.routines ∧ (State.takeBack s l).groups = s.groups ∧ (State.takeBack s l).stale = s.stale ∧ (State.takeBack s l).fence = s.fence ∧ (State.takeBack s l).audit = s.audit := by
  unfold State.takeBack
  (try dsimp only)
  (repeat' split) <;> simp [State.setDir, State.setAline]
@[simp] theorem State.serveNext_frame (s : State) (l : CohLine) (k : Nat) :
    (s.serveNext l k).pending = s.pending ∧ (s.serveNext l k).heldCmds = s.heldCmds ∧ (s.serveNext l k).power = s.power ∧ (s.serveNext l k).usec = s.usec ∧ (s.serveNext l k).fuses = s.fuses ∧ (s.serveNext l k).trim = s.trim ∧ (s.serveNext l k).latches = s.latches ∧ (s.serveNext l k).slots = s.slots ∧ (s.serveNext l k).objects = s.objects ∧ (s.serveNext l k).waiters = s.waiters ∧ (s.serveNext l k).remoteOps = s.remoteOps ∧ (s.serveNext l k).parts = s.parts ∧ (s.serveNext l k).routines = s.routines ∧ (s.serveNext l k).groups = s.groups ∧ (s.serveNext l k).stale = s.stale ∧ (s.serveNext l k).fence = s.fence ∧ (s.serveNext l k).audit = s.audit := by
  induction k generalizing s with
  | zero => simp [State.serveNext]
  | succ n ih => unfold State.serveNext; dsimp only; (repeat' split) <;> simp [ih, State.setDir]
@[simp] theorem State.endTxn_frame (s : State) (l : CohLine) (st : DState) :
    (State.endTxn s l st).pending = s.pending ∧ (State.endTxn s l st).heldCmds = s.heldCmds ∧ (State.endTxn s l st).power = s.power ∧ (State.endTxn s l st).usec = s.usec ∧ (State.endTxn s l st).fuses = s.fuses ∧ (State.endTxn s l st).trim = s.trim ∧ (State.endTxn s l st).latches = s.latches ∧ (State.endTxn s l st).slots = s.slots ∧ (State.endTxn s l st).objects = s.objects ∧ (State.endTxn s l st).waiters = s.waiters ∧ (State.endTxn s l st).remoteOps = s.remoteOps ∧ (State.endTxn s l st).parts = s.parts ∧ (State.endTxn s l st).routines = s.routines ∧ (State.endTxn s l st).groups = s.groups ∧ (State.endTxn s l st).stale = s.stale ∧ (State.endTxn s l st).fence = s.fence ∧ (State.endTxn s l st).audit = s.audit := by
  unfold State.endTxn
  (try dsimp only)
  (repeat' split) <;> simp [State.setDir, State.setAline]
@[simp] theorem State.finishFetch_frame (s : State) (l : CohLine) :
    (State.finishFetch s l).pending = s.pending ∧ (State.finishFetch s l).heldCmds = s.heldCmds ∧ (State.finishFetch s l).power = s.power ∧ (State.finishFetch s l).usec = s.usec ∧ (State.finishFetch s l).fuses = s.fuses ∧ (State.finishFetch s l).trim = s.trim ∧ (State.finishFetch s l).latches = s.latches ∧ (State.finishFetch s l).slots = s.slots ∧ (State.finishFetch s l).objects = s.objects ∧ (State.finishFetch s l).waiters = s.waiters ∧ (State.finishFetch s l).remoteOps = s.remoteOps ∧ (State.finishFetch s l).parts = s.parts ∧ (State.finishFetch s l).routines = s.routines ∧ (State.finishFetch s l).groups = s.groups ∧ (State.finishFetch s l).stale = s.stale ∧ (State.finishFetch s l).fence = s.fence ∧ (State.finishFetch s l).audit = s.audit := by
  unfold State.finishFetch
  (try dsimp only)
  (repeat' split) <;> simp [State.setDir, State.setAline]
@[simp] theorem State.finishStore_frame (s : State) (l : CohLine) :
    (State.finishStore s l).pending = s.pending ∧ (State.finishStore s l).heldCmds = s.heldCmds ∧ (State.finishStore s l).power = s.power ∧ (State.finishStore s l).usec = s.usec ∧ (State.finishStore s l).fuses = s.fuses ∧ (State.finishStore s l).trim = s.trim ∧ (State.finishStore s l).latches = s.latches ∧ (State.finishStore s l).slots = s.slots ∧ (State.finishStore s l).objects = s.objects ∧ (State.finishStore s l).waiters = s.waiters ∧ (State.finishStore s l).remoteOps = s.remoteOps ∧ (State.finishStore s l).parts = s.parts ∧ (State.finishStore s l).routines = s.routines ∧ (State.finishStore s l).groups = s.groups ∧ (State.finishStore s l).stale = s.stale ∧ (State.finishStore s l).fence = s.fence ∧ (State.finishStore s l).audit = s.audit := by
  unfold State.finishStore
  (repeat' split) <;> simp
@[simp] theorem State.settleDir_frame (s : State) (l : CohLine) :
    (State.settleDir s l).pending = s.pending ∧ (State.settleDir s l).heldCmds = s.heldCmds ∧ (State.settleDir s l).power = s.power ∧ (State.settleDir s l).usec = s.usec ∧ (State.settleDir s l).fuses = s.fuses ∧ (State.settleDir s l).trim = s.trim ∧ (State.settleDir s l).latches = s.latches ∧ (State.settleDir s l).slots = s.slots ∧ (State.settleDir s l).objects = s.objects ∧ (State.settleDir s l).waiters = s.waiters ∧ (State.settleDir s l).remoteOps = s.remoteOps ∧ (State.settleDir s l).parts = s.parts ∧ (State.settleDir s l).routines = s.routines ∧ (State.settleDir s l).groups = s.groups ∧ (State.settleDir s l).stale = s.stale ∧ (State.settleDir s l).fence = s.fence ∧ (State.settleDir s l).audit = s.audit := by
  unfold State.settleDir
  (repeat' split) <;> simp
@[simp] theorem State.reissue_frame (s : State) (l : CohLine) (r : Nat) (q : Req) :
    (State.reissue s l r q).pending = s.pending ∧ (State.reissue s l r q).heldCmds = s.heldCmds ∧ (State.reissue s l r q).power = s.power ∧ (State.reissue s l r q).usec = s.usec ∧ (State.reissue s l r q).fuses = s.fuses ∧ (State.reissue s l r q).trim = s.trim ∧ (State.reissue s l r q).latches = s.latches ∧ (State.reissue s l r q).slots = s.slots ∧ (State.reissue s l r q).objects = s.objects ∧ (State.reissue s l r q).waiters = s.waiters ∧ (State.reissue s l r q).remoteOps = s.remoteOps ∧ (State.reissue s l r q).parts = s.parts ∧ (State.reissue s l r q).routines = s.routines ∧ (State.reissue s l r q).groups = s.groups ∧ (State.reissue s l r q).stale = s.stale ∧ (State.reissue s l r q).fence = s.fence ∧ (State.reissue s l r q).audit = s.audit := by
  unfold State.reissue
  (try dsimp only)
  (repeat' split) <;> simp [State.setDir, State.setAline]
@[simp] theorem State.allocLines_frame (s : State) (n len : Nat) :
    (State.allocLines s n len).pending = s.pending ∧ (State.allocLines s n len).heldCmds = s.heldCmds ∧ (State.allocLines s n len).power = s.power ∧ (State.allocLines s n len).usec = s.usec ∧ (State.allocLines s n len).fuses = s.fuses ∧ (State.allocLines s n len).trim = s.trim ∧ (State.allocLines s n len).latches = s.latches ∧ (State.allocLines s n len).slots = s.slots ∧ (State.allocLines s n len).objects = s.objects ∧ (State.allocLines s n len).waiters = s.waiters ∧ (State.allocLines s n len).remoteOps = s.remoteOps ∧ (State.allocLines s n len).parts = s.parts ∧ (State.allocLines s n len).routines = s.routines ∧ (State.allocLines s n len).groups = s.groups ∧ (State.allocLines s n len).stale = s.stale ∧ (State.allocLines s n len).fence = s.fence ∧ (State.allocLines s n len).audit = s.audit := by
  unfold State.allocLines
  (try dsimp only)
  exact State.forAll_frame _ _ _ (fun x n => by (try dsimp only); (repeat' split) <;> simp [State.setDir, State.setAline])
@[simp] theorem State.freeLines_frame (s : State) (n len : Nat) :
    (State.freeLines s n len).pending = s.pending ∧ (State.freeLines s n len).heldCmds = s.heldCmds ∧ (State.freeLines s n len).power = s.power ∧ (State.freeLines s n len).usec = s.usec ∧ (State.freeLines s n len).fuses = s.fuses ∧ (State.freeLines s n len).trim = s.trim ∧ (State.freeLines s n len).latches = s.latches ∧ (State.freeLines s n len).slots = s.slots ∧ (State.freeLines s n len).objects = s.objects ∧ (State.freeLines s n len).waiters = s.waiters ∧ (State.freeLines s n len).remoteOps = s.remoteOps ∧ (State.freeLines s n len).parts = s.parts ∧ (State.freeLines s n len).routines = s.routines ∧ (State.freeLines s n len).groups = s.groups ∧ (State.freeLines s n len).stale = s.stale ∧ (State.freeLines s n len).fence = s.fence ∧ (State.freeLines s n len).audit = s.audit := by
  unfold State.freeLines
  (try dsimp only)
  exact State.forAll_frame _ _ _ (fun x n => by (try dsimp only); (repeat' split) <;> simp [State.setDir, State.setAline])
@[simp] theorem State.onFurrow_frame (s : State) (f : Nat) (g : Furrow → Furrow) :
    (State.onFurrow s f g).pending = s.pending ∧ (State.onFurrow s f g).heldCmds = s.heldCmds ∧ (State.onFurrow s f g).power = s.power ∧ (State.onFurrow s f g).usec = s.usec ∧ (State.onFurrow s f g).fuses = s.fuses ∧ (State.onFurrow s f g).trim = s.trim ∧ (State.onFurrow s f g).latches = s.latches ∧ (State.onFurrow s f g).slots = s.slots ∧ (State.onFurrow s f g).objects = s.objects ∧ (State.onFurrow s f g).waiters = s.waiters ∧ (State.onFurrow s f g).remoteOps = s.remoteOps ∧ (State.onFurrow s f g).parts = s.parts ∧ (State.onFurrow s f g).routines = s.routines ∧ (State.onFurrow s f g).groups = s.groups ∧ (State.onFurrow s f g).stale = s.stale ∧ (State.onFurrow s f g).fence = s.fence ∧ (State.onFurrow s f g).audit = s.audit := by
  unfold State.onFurrow
  simp
@[simp] theorem State.wakeLent_frame (s : State) :
    (State.wakeLent s).pending = s.pending ∧ (State.wakeLent s).heldCmds = s.heldCmds ∧ (State.wakeLent s).power = s.power ∧ (State.wakeLent s).usec = s.usec ∧ (State.wakeLent s).fuses = s.fuses ∧ (State.wakeLent s).trim = s.trim ∧ (State.wakeLent s).latches = s.latches ∧ (State.wakeLent s).slots = s.slots ∧ (State.wakeLent s).objects = s.objects ∧ (State.wakeLent s).waiters = s.waiters ∧ (State.wakeLent s).remoteOps = s.remoteOps ∧ (State.wakeLent s).parts = s.parts ∧ (State.wakeLent s).routines = s.routines ∧ (State.wakeLent s).groups = s.groups ∧ (State.wakeLent s).stale = s.stale ∧ (State.wakeLent s).fence = s.fence ∧ (State.wakeLent s).audit = s.audit := by
  unfold State.wakeLent
  simp
@[simp] theorem State.writeRecord_frame (s : State) (r : Record) :
    (State.writeRecord s r).pending = s.pending ∧ (State.writeRecord s r).heldCmds = s.heldCmds ∧ (State.writeRecord s r).power = s.power ∧ (State.writeRecord s r).usec = s.usec ∧ (State.writeRecord s r).fuses = s.fuses ∧ (State.writeRecord s r).trim = s.trim ∧ (State.writeRecord s r).latches = s.latches ∧ (State.writeRecord s r).slots = s.slots ∧ (State.writeRecord s r).objects = s.objects ∧ (State.writeRecord s r).waiters = s.waiters ∧ (State.writeRecord s r).remoteOps = s.remoteOps ∧ (State.writeRecord s r).parts = s.parts ∧ (State.writeRecord s r).routines = s.routines ∧ (State.writeRecord s r).groups = s.groups ∧ (State.writeRecord s r).stale = s.stale ∧ (State.writeRecord s r).fence = s.fence ∧ (State.writeRecord s r).audit = s.audit := by
  unfold State.writeRecord
  simp
@[simp] theorem State.putRecord_frame (s : State) (r : Record) :
    (State.putRecord s r).pending = s.pending ∧ (State.putRecord s r).heldCmds = s.heldCmds ∧ (State.putRecord s r).power = s.power ∧ (State.putRecord s r).usec = s.usec ∧ (State.putRecord s r).fuses = s.fuses ∧ (State.putRecord s r).trim = s.trim ∧ (State.putRecord s r).latches = s.latches ∧ (State.putRecord s r).slots = s.slots ∧ (State.putRecord s r).objects = s.objects ∧ (State.putRecord s r).waiters = s.waiters ∧ (State.putRecord s r).remoteOps = s.remoteOps ∧ (State.putRecord s r).parts = s.parts ∧ (State.putRecord s r).routines = s.routines ∧ (State.putRecord s r).groups = s.groups ∧ (State.putRecord s r).stale = s.stale ∧ (State.putRecord s r).fence = s.fence ∧ (State.putRecord s r).audit = s.audit := by
  unfold State.putRecord
  try dsimp only
  (repeat' split) <;> simp
@[simp] theorem State.restartTimer_frame (s : State) (n : Nat) :
    (State.restartTimer s n).pending = s.pending ∧ (State.restartTimer s n).heldCmds = s.heldCmds ∧ (State.restartTimer s n).power = s.power ∧ (State.restartTimer s n).usec = s.usec ∧ (State.restartTimer s n).fuses = s.fuses ∧ (State.restartTimer s n).trim = s.trim ∧ (State.restartTimer s n).latches = s.latches ∧ (State.restartTimer s n).slots = s.slots ∧ (State.restartTimer s n).objects = s.objects ∧ (State.restartTimer s n).waiters = s.waiters ∧ (State.restartTimer s n).remoteOps = s.remoteOps ∧ (State.restartTimer s n).parts = s.parts ∧ (State.restartTimer s n).routines = s.routines ∧ (State.restartTimer s n).groups = s.groups ∧ (State.restartTimer s n).stale = s.stale ∧ (State.restartTimer s n).fence = s.fence ∧ (State.restartTimer s n).audit = s.audit := by
  unfold State.restartTimer
  simp
@[simp] theorem State.discard_frame (s : State) (f : Nat) :
    (State.discard s f).pending = s.pending ∧ (State.discard s f).heldCmds = s.heldCmds ∧ (State.discard s f).power = s.power ∧ (State.discard s f).usec = s.usec ∧ (State.discard s f).fuses = s.fuses ∧ (State.discard s f).trim = s.trim ∧ (State.discard s f).latches = s.latches ∧ (State.discard s f).slots = s.slots ∧ (State.discard s f).objects = s.objects ∧ (State.discard s f).waiters = s.waiters ∧ (State.discard s f).remoteOps = s.remoteOps ∧ (State.discard s f).parts = s.parts ∧ (State.discard s f).routines = s.routines ∧ (State.discard s f).groups = s.groups ∧ (State.discard s f).stale = s.stale ∧ (State.discard s f).fence = s.fence ∧ (State.discard s f).audit = s.audit := by
  unfold State.discard
  (repeat' split) <;> simp
@[simp] theorem State.discardWhere_frame (s : State) (p : Entry → Bool) :
    (State.discardWhere s p).pending = s.pending ∧ (State.discardWhere s p).heldCmds = s.heldCmds ∧ (State.discardWhere s p).power = s.power ∧ (State.discardWhere s p).usec = s.usec ∧ (State.discardWhere s p).fuses = s.fuses ∧ (State.discardWhere s p).trim = s.trim ∧ (State.discardWhere s p).latches = s.latches ∧ (State.discardWhere s p).slots = s.slots ∧ (State.discardWhere s p).objects = s.objects ∧ (State.discardWhere s p).waiters = s.waiters ∧ (State.discardWhere s p).remoteOps = s.remoteOps ∧ (State.discardWhere s p).parts = s.parts ∧ (State.discardWhere s p).routines = s.routines ∧ (State.discardWhere s p).groups = s.groups ∧ (State.discardWhere s p).stale = s.stale ∧ (State.discardWhere s p).fence = s.fence ∧ (State.discardWhere s p).audit = s.audit := by
  unfold State.discardWhere
  (repeat' split) <;> first | exact State.forAll_frame _ _ _ (fun x n => by (try dsimp only); (repeat' split) <;> simp) | simp
@[simp] theorem State.beginPause_frame (s : State) (c : Nat) :
    (State.beginPause s c).pending = s.pending ∧ (State.beginPause s c).heldCmds = s.heldCmds ∧ (State.beginPause s c).power = s.power ∧ (State.beginPause s c).usec = s.usec ∧ (State.beginPause s c).fuses = s.fuses ∧ (State.beginPause s c).trim = s.trim ∧ (State.beginPause s c).latches = s.latches ∧ (State.beginPause s c).slots = s.slots ∧ (State.beginPause s c).objects = s.objects ∧ (State.beginPause s c).waiters = s.waiters ∧ (State.beginPause s c).remoteOps = s.remoteOps ∧ (State.beginPause s c).parts = s.parts ∧ (State.beginPause s c).routines = s.routines ∧ (State.beginPause s c).groups = s.groups ∧ (State.beginPause s c).stale = s.stale ∧ (State.beginPause s c).fence = s.fence ∧ (State.beginPause s c).audit = s.audit := by
  unfold State.beginPause
  simp
@[simp] theorem State.fireBreak_frame (s : State) (u : Nat) :
    (State.fireBreak s u).pending = s.pending ∧ (State.fireBreak s u).heldCmds = s.heldCmds ∧ (State.fireBreak s u).power = s.power ∧ (State.fireBreak s u).usec = s.usec ∧ (State.fireBreak s u).fuses = s.fuses ∧ (State.fireBreak s u).trim = s.trim ∧ (State.fireBreak s u).latches = s.latches ∧ (State.fireBreak s u).slots = s.slots ∧ (State.fireBreak s u).objects = s.objects ∧ (State.fireBreak s u).waiters = s.waiters ∧ (State.fireBreak s u).remoteOps = s.remoteOps ∧ (State.fireBreak s u).parts = s.parts ∧ (State.fireBreak s u).routines = s.routines ∧ (State.fireBreak s u).groups = s.groups ∧ (State.fireBreak s u).stale = s.stale ∧ (State.fireBreak s u).fence = s.fence ∧ (State.fireBreak s u).audit = s.audit := by
  unfold State.fireBreak
  simp
@[simp] theorem State.countBreaks_frame (s : State) (q n : Nat) :
    (State.countBreaks s q n).pending = s.pending ∧ (State.countBreaks s q n).heldCmds = s.heldCmds ∧ (State.countBreaks s q n).power = s.power ∧ (State.countBreaks s q n).usec = s.usec ∧ (State.countBreaks s q n).fuses = s.fuses ∧ (State.countBreaks s q n).trim = s.trim ∧ (State.countBreaks s q n).latches = s.latches ∧ (State.countBreaks s q n).slots = s.slots ∧ (State.countBreaks s q n).objects = s.objects ∧ (State.countBreaks s q n).waiters = s.waiters ∧ (State.countBreaks s q n).remoteOps = s.remoteOps ∧ (State.countBreaks s q n).parts = s.parts ∧ (State.countBreaks s q n).routines = s.routines ∧ (State.countBreaks s q n).groups = s.groups ∧ (State.countBreaks s q n).stale = s.stale ∧ (State.countBreaks s q n).fence = s.fence ∧ (State.countBreaks s q n).audit = s.audit := by
  unfold State.countBreaks
  (repeat' split) <;> first | exact State.forAll_frame _ _ _ (fun x n => by (try dsimp only); (repeat' split) <;> simp) | simp
@[simp] theorem State.settleEdges_frame (s : State) (hit : EdgeTarget → Bool) (zero : Bool) :
    (State.settleEdges s hit zero).pending = s.pending ∧ (State.settleEdges s hit zero).heldCmds = s.heldCmds ∧ (State.settleEdges s hit zero).power = s.power ∧ (State.settleEdges s hit zero).usec = s.usec ∧ (State.settleEdges s hit zero).fuses = s.fuses ∧ (State.settleEdges s hit zero).trim = s.trim ∧ (State.settleEdges s hit zero).latches = s.latches ∧ (State.settleEdges s hit zero).slots = s.slots ∧ (State.settleEdges s hit zero).objects = s.objects ∧ (State.settleEdges s hit zero).waiters = s.waiters ∧ (State.settleEdges s hit zero).remoteOps = s.remoteOps ∧ (State.settleEdges s hit zero).parts = s.parts ∧ (State.settleEdges s hit zero).routines = s.routines ∧ (State.settleEdges s hit zero).groups = s.groups ∧ (State.settleEdges s hit zero).stale = s.stale ∧ (State.settleEdges s hit zero).fence = s.fence ∧ (State.settleEdges s hit zero).audit = s.audit := by
  unfold State.settleEdges
  simp
@[simp] theorem State.makeCurrent_frame (s : State) (k fr : Nat) :
    (State.makeCurrent s k fr).pending = s.pending ∧ (State.makeCurrent s k fr).heldCmds = s.heldCmds ∧ (State.makeCurrent s k fr).power = s.power ∧ (State.makeCurrent s k fr).usec = s.usec ∧ (State.makeCurrent s k fr).fuses = s.fuses ∧ (State.makeCurrent s k fr).trim = s.trim ∧ (State.makeCurrent s k fr).latches = s.latches ∧ (State.makeCurrent s k fr).slots = s.slots ∧ (State.makeCurrent s k fr).objects = s.objects ∧ (State.makeCurrent s k fr).waiters = s.waiters ∧ (State.makeCurrent s k fr).remoteOps = s.remoteOps ∧ (State.makeCurrent s k fr).parts = s.parts ∧ (State.makeCurrent s k fr).routines = s.routines ∧ (State.makeCurrent s k fr).groups = s.groups ∧ (State.makeCurrent s k fr).stale = s.stale ∧ (State.makeCurrent s k fr).fence = s.fence ∧ (State.makeCurrent s k fr).audit = s.audit := by
  unfold State.makeCurrent
  simp
@[simp] theorem State.pickRun_frame (s : State) (k : Nat) :
    (State.pickRun s k).pending = s.pending ∧ (State.pickRun s k).heldCmds = s.heldCmds ∧ (State.pickRun s k).power = s.power ∧ (State.pickRun s k).usec = s.usec ∧ (State.pickRun s k).fuses = s.fuses ∧ (State.pickRun s k).trim = s.trim ∧ (State.pickRun s k).latches = s.latches ∧ (State.pickRun s k).slots = s.slots ∧ (State.pickRun s k).objects = s.objects ∧ (State.pickRun s k).waiters = s.waiters ∧ (State.pickRun s k).remoteOps = s.remoteOps ∧ (State.pickRun s k).parts = s.parts ∧ (State.pickRun s k).routines = s.routines ∧ (State.pickRun s k).groups = s.groups ∧ (State.pickRun s k).stale = s.stale ∧ (State.pickRun s k).fence = s.fence ∧ (State.pickRun s k).audit = s.audit := by
  unfold State.pickRun
  (repeat' split) <;> simp
@[simp] theorem State.leaveCore_frame (s : State) (k : Nat) :
    (State.leaveCore s k).pending = s.pending ∧ (State.leaveCore s k).heldCmds = s.heldCmds ∧ (State.leaveCore s k).power = s.power ∧ (State.leaveCore s k).usec = s.usec ∧ (State.leaveCore s k).fuses = s.fuses ∧ (State.leaveCore s k).trim = s.trim ∧ (State.leaveCore s k).latches = s.latches ∧ (State.leaveCore s k).slots = s.slots ∧ (State.leaveCore s k).objects = s.objects ∧ (State.leaveCore s k).waiters = s.waiters ∧ (State.leaveCore s k).remoteOps = s.remoteOps ∧ (State.leaveCore s k).parts = s.parts ∧ (State.leaveCore s k).routines = s.routines ∧ (State.leaveCore s k).groups = s.groups ∧ (State.leaveCore s k).stale = s.stale ∧ (State.leaveCore s k).fence = s.fence ∧ (State.leaveCore s k).audit = s.audit := by
  unfold State.leaveCore
  (repeat' split) <;> simp
@[simp] theorem State.readyRun_frame (s : State) (k fr : Nat) :
    (State.readyRun s k fr).pending = s.pending ∧ (State.readyRun s k fr).heldCmds = s.heldCmds ∧ (State.readyRun s k fr).power = s.power ∧ (State.readyRun s k fr).usec = s.usec ∧ (State.readyRun s k fr).fuses = s.fuses ∧ (State.readyRun s k fr).trim = s.trim ∧ (State.readyRun s k fr).latches = s.latches ∧ (State.readyRun s k fr).slots = s.slots ∧ (State.readyRun s k fr).objects = s.objects ∧ (State.readyRun s k fr).waiters = s.waiters ∧ (State.readyRun s k fr).remoteOps = s.remoteOps ∧ (State.readyRun s k fr).parts = s.parts ∧ (State.readyRun s k fr).routines = s.routines ∧ (State.readyRun s k fr).groups = s.groups ∧ (State.readyRun s k fr).stale = s.stale ∧ (State.readyRun s k fr).fence = s.fence ∧ (State.readyRun s k fr).audit = s.audit := by
  unfold State.readyRun
  (repeat' split) <;> simp
@[simp] theorem State.wakeIssuers_frame (s : State) :
    (s.wakeIssuers).pending = s.pending ∧ (s.wakeIssuers).heldCmds = s.heldCmds ∧ (s.wakeIssuers).power = s.power ∧ (s.wakeIssuers).usec = s.usec ∧ (s.wakeIssuers).fuses = s.fuses ∧ (s.wakeIssuers).trim = s.trim ∧ (s.wakeIssuers).latches = s.latches ∧ (s.wakeIssuers).slots = s.slots ∧ (s.wakeIssuers).objects = s.objects ∧ (s.wakeIssuers).waiters = s.waiters ∧ (s.wakeIssuers).remoteOps = s.remoteOps ∧ (s.wakeIssuers).parts = s.parts ∧ (s.wakeIssuers).routines = s.routines ∧ (s.wakeIssuers).groups = s.groups ∧ (s.wakeIssuers).stale = s.stale ∧ (s.wakeIssuers).fence = s.fence ∧ (s.wakeIssuers).audit = s.audit := by
  unfold State.wakeIssuers
  exact State.forAll_frame _ _ _ fun x k => State.forAll_frame _ _ _ fun y fr => by
    (repeat' split) <;> simp
@[simp] theorem State.freeNode_frame (s : State) (n : Nat) :
    (State.freeNode s n).pending = s.pending ∧ (State.freeNode s n).heldCmds = s.heldCmds ∧ (State.freeNode s n).power = s.power ∧ (State.freeNode s n).usec = s.usec ∧ (State.freeNode s n).fuses = s.fuses ∧ (State.freeNode s n).trim = s.trim ∧ (State.freeNode s n).latches = s.latches ∧ (State.freeNode s n).slots = s.slots ∧ (State.freeNode s n).objects = s.objects ∧ (State.freeNode s n).waiters = s.waiters ∧ (State.freeNode s n).remoteOps = s.remoteOps ∧ (State.freeNode s n).parts = s.parts ∧ (State.freeNode s n).routines = s.routines ∧ (State.freeNode s n).groups = s.groups ∧ (State.freeNode s n).stale = s.stale ∧ (State.freeNode s n).fence = s.fence ∧ (State.freeNode s n).audit = s.audit := by
  unfold State.freeNode
  (repeat' split) <;> (try simp) <;> split <;> simp
@[simp] theorem State.checkAbortBusy_frame (s : State) :
    (State.checkAbortBusy s).pending = s.pending ∧ (State.checkAbortBusy s).heldCmds = s.heldCmds ∧ (State.checkAbortBusy s).power = s.power ∧ (State.checkAbortBusy s).usec = s.usec ∧ (State.checkAbortBusy s).fuses = s.fuses ∧ (State.checkAbortBusy s).trim = s.trim ∧ (State.checkAbortBusy s).latches = s.latches ∧ (State.checkAbortBusy s).slots = s.slots ∧ (State.checkAbortBusy s).objects = s.objects ∧ (State.checkAbortBusy s).waiters = s.waiters ∧ (State.checkAbortBusy s).remoteOps = s.remoteOps ∧ (State.checkAbortBusy s).parts = s.parts ∧ (State.checkAbortBusy s).routines = s.routines ∧ (State.checkAbortBusy s).groups = s.groups ∧ (State.checkAbortBusy s).stale = s.stale ∧ (State.checkAbortBusy s).fence = s.fence ∧ (State.checkAbortBusy s).audit = s.audit := by
  unfold State.checkAbortBusy
  (repeat' split) <;> simp
@[simp] theorem State.markRetired_frame (s : State) (q : Nat) (seq : Word) (tag : BitVec 32) (status : BitVec 8) (executed : Nat) (accepted : Bool) :
    (State.markRetired s q seq tag status executed accepted).pending = s.pending ∧ (State.markRetired s q seq tag status executed accepted).heldCmds = s.heldCmds ∧ (State.markRetired s q seq tag status executed accepted).power = s.power ∧ (State.markRetired s q seq tag status executed accepted).usec = s.usec ∧ (State.markRetired s q seq tag status executed accepted).fuses = s.fuses ∧ (State.markRetired s q seq tag status executed accepted).trim = s.trim ∧ (State.markRetired s q seq tag status executed accepted).latches = s.latches ∧ (State.markRetired s q seq tag status executed accepted).slots = s.slots ∧ (State.markRetired s q seq tag status executed accepted).objects = s.objects ∧ (State.markRetired s q seq tag status executed accepted).waiters = s.waiters ∧ (State.markRetired s q seq tag status executed accepted).remoteOps = s.remoteOps ∧ (State.markRetired s q seq tag status executed accepted).parts = s.parts ∧ (State.markRetired s q seq tag status executed accepted).routines = s.routines ∧ (State.markRetired s q seq tag status executed accepted).groups = s.groups ∧ (State.markRetired s q seq tag status executed accepted).stale = s.stale ∧ (State.markRetired s q seq tag status executed accepted).fence = s.fence ∧ (State.markRetired s q seq tag status executed accepted).audit = s.audit := by
  unfold State.markRetired
  simp
@[simp] theorem State.writeQueue_frame (s : State) (q : Nat) (y : Queue) :
    (State.writeQueue s q y).pending = s.pending ∧ (State.writeQueue s q y).heldCmds = s.heldCmds ∧ (State.writeQueue s q y).power = s.power ∧ (State.writeQueue s q y).usec = s.usec ∧ (State.writeQueue s q y).fuses = s.fuses ∧ (State.writeQueue s q y).trim = s.trim ∧ (State.writeQueue s q y).latches = s.latches ∧ (State.writeQueue s q y).slots = s.slots ∧ (State.writeQueue s q y).objects = s.objects ∧ (State.writeQueue s q y).waiters = s.waiters ∧ (State.writeQueue s q y).remoteOps = s.remoteOps ∧ (State.writeQueue s q y).parts = s.parts ∧ (State.writeQueue s q y).routines = s.routines ∧ (State.writeQueue s q y).groups = s.groups ∧ (State.writeQueue s q y).stale = s.stale ∧ (State.writeQueue s q y).fence = s.fence ∧ (State.writeQueue s q y).audit = s.audit := by
  unfold State.writeQueue
  try dsimp only
  (repeat' split) <;> simp
@[simp] theorem State.advanceQueue_frame (s : State) (q : Nat) :
    (State.advanceQueue s q).pending = s.pending ∧ (State.advanceQueue s q).heldCmds = s.heldCmds ∧ (State.advanceQueue s q).power = s.power ∧ (State.advanceQueue s q).usec = s.usec ∧ (State.advanceQueue s q).fuses = s.fuses ∧ (State.advanceQueue s q).trim = s.trim ∧ (State.advanceQueue s q).latches = s.latches ∧ (State.advanceQueue s q).slots = s.slots ∧ (State.advanceQueue s q).objects = s.objects ∧ (State.advanceQueue s q).waiters = s.waiters ∧ (State.advanceQueue s q).remoteOps = s.remoteOps ∧ (State.advanceQueue s q).parts = s.parts ∧ (State.advanceQueue s q).routines = s.routines ∧ (State.advanceQueue s q).groups = s.groups ∧ (State.advanceQueue s q).stale = s.stale ∧ (State.advanceQueue s q).fence = s.fence ∧ (State.advanceQueue s q).audit = s.audit := by
  unfold State.advanceQueue
  simp
@[simp] theorem State.retireSeq_frame (s : State) (q : Nat) (seq : Word) (tag : BitVec 32) (gen : BitVec 12) (fin : Final) (node : Option Nat) :
    (State.retireSeq s q seq tag gen fin node).pending = s.pending ∧ (State.retireSeq s q seq tag gen fin node).heldCmds = s.heldCmds ∧ (State.retireSeq s q seq tag gen fin node).power = s.power ∧ (State.retireSeq s q seq tag gen fin node).usec = s.usec ∧ (State.retireSeq s q seq tag gen fin node).fuses = s.fuses ∧ (State.retireSeq s q seq tag gen fin node).trim = s.trim ∧ (State.retireSeq s q seq tag gen fin node).latches = s.latches ∧ (State.retireSeq s q seq tag gen fin node).slots = s.slots ∧ (State.retireSeq s q seq tag gen fin node).objects = s.objects ∧ (State.retireSeq s q seq tag gen fin node).waiters = s.waiters ∧ (State.retireSeq s q seq tag gen fin node).remoteOps = s.remoteOps ∧ (State.retireSeq s q seq tag gen fin node).parts = s.parts ∧ (State.retireSeq s q seq tag gen fin node).routines = s.routines ∧ (State.retireSeq s q seq tag gen fin node).groups = s.groups ∧ (State.retireSeq s q seq tag gen fin node).stale = s.stale ∧ (State.retireSeq s q seq tag gen fin node).fence = s.fence ∧ (State.retireSeq s q seq tag gen fin node).audit = s.audit := by
  unfold State.retireSeq
  try dsimp only
  (repeat' split) <;> simp
@[simp] theorem State.queueScale_frame (s : State) (d : Node) :
    (State.queueScale s d).pending = s.pending ∧ (State.queueScale s d).heldCmds = s.heldCmds ∧ (State.queueScale s d).power = s.power ∧ (State.queueScale s d).usec = s.usec ∧ (State.queueScale s d).fuses = s.fuses ∧ (State.queueScale s d).trim = s.trim ∧ (State.queueScale s d).latches = s.latches ∧ (State.queueScale s d).slots = s.slots ∧ (State.queueScale s d).objects = s.objects ∧ (State.queueScale s d).waiters = s.waiters ∧ (State.queueScale s d).remoteOps = s.remoteOps ∧ (State.queueScale s d).parts = s.parts ∧ (State.queueScale s d).routines = s.routines ∧ (State.queueScale s d).groups = s.groups ∧ (State.queueScale s d).stale = s.stale ∧ (State.queueScale s d).fence = s.fence ∧ (State.queueScale s d).audit = s.audit := by
  unfold State.queueScale
  (repeat' split) <;> simp
@[simp] theorem State.removeEntries_frame (s : State) (p : Entry → Bool) :
    (State.removeEntries s p).pending = s.pending ∧ (State.removeEntries s p).heldCmds = s.heldCmds ∧ (State.removeEntries s p).power = s.power ∧ (State.removeEntries s p).usec = s.usec ∧ (State.removeEntries s p).fuses = s.fuses ∧ (State.removeEntries s p).trim = s.trim ∧ (State.removeEntries s p).latches = s.latches ∧ (State.removeEntries s p).slots = s.slots ∧ (State.removeEntries s p).objects = s.objects ∧ (State.removeEntries s p).waiters = s.waiters ∧ (State.removeEntries s p).remoteOps = s.remoteOps ∧ (State.removeEntries s p).parts = s.parts ∧ (State.removeEntries s p).routines = s.routines ∧ (State.removeEntries s p).groups = s.groups ∧ (State.removeEntries s p).stale = s.stale ∧ (State.removeEntries s p).fence = s.fence ∧ (State.removeEntries s p).audit = s.audit := by
  unfold State.removeEntries
  simp
@[simp] theorem State.tallyEnd_frame (s : State) (d : Node) :
    (State.tallyEnd s d).pending = s.pending ∧ (State.tallyEnd s d).heldCmds = s.heldCmds ∧ (State.tallyEnd s d).power = s.power ∧ (State.tallyEnd s d).usec = s.usec ∧ (State.tallyEnd s d).fuses = s.fuses ∧ (State.tallyEnd s d).trim = s.trim ∧ (State.tallyEnd s d).latches = s.latches ∧ (State.tallyEnd s d).slots = s.slots ∧ (State.tallyEnd s d).objects = s.objects ∧ (State.tallyEnd s d).waiters = s.waiters ∧ (State.tallyEnd s d).remoteOps = s.remoteOps ∧ (State.tallyEnd s d).parts = s.parts ∧ (State.tallyEnd s d).routines = s.routines ∧ (State.tallyEnd s d).groups = s.groups ∧ (State.tallyEnd s d).stale = s.stale ∧ (State.tallyEnd s d).fence = s.fence ∧ (State.tallyEnd s d).audit = s.audit := by
  unfold State.tallyEnd
  (repeat' split) <;> simp
@[simp] theorem State.retireQueued_frame (s : State) (n : Nat) (d : Node) (fin : Final) :
    (State.retireQueued s n d fin).pending = s.pending ∧ (State.retireQueued s n d fin).heldCmds = s.heldCmds ∧ (State.retireQueued s n d fin).power = s.power ∧ (State.retireQueued s n d fin).usec = s.usec ∧ (State.retireQueued s n d fin).fuses = s.fuses ∧ (State.retireQueued s n d fin).trim = s.trim ∧ (State.retireQueued s n d fin).latches = s.latches ∧ (State.retireQueued s n d fin).slots = s.slots ∧ (State.retireQueued s n d fin).objects = s.objects ∧ (State.retireQueued s n d fin).waiters = s.waiters ∧ (State.retireQueued s n d fin).remoteOps = s.remoteOps ∧ (State.retireQueued s n d fin).parts = s.parts ∧ (State.retireQueued s n d fin).routines = s.routines ∧ (State.retireQueued s n d fin).groups = s.groups ∧ (State.retireQueued s n d fin).stale = s.stale ∧ (State.retireQueued s n d fin).fence = s.fence ∧ (State.retireQueued s n d fin).audit = s.audit := by
  unfold State.retireQueued
  simp
@[simp] theorem State.putPort_frame (s : State) (k i : Nat) (p : Option Port) :
    (State.putPort s k i p).pending = s.pending ∧ (State.putPort s k i p).heldCmds = s.heldCmds ∧ (State.putPort s k i p).power = s.power ∧ (State.putPort s k i p).usec = s.usec ∧ (State.putPort s k i p).fuses = s.fuses ∧ (State.putPort s k i p).trim = s.trim ∧ (State.putPort s k i p).latches = s.latches ∧ (State.putPort s k i p).slots = s.slots ∧ (State.putPort s k i p).objects = s.objects ∧ (State.putPort s k i p).waiters = s.waiters ∧ (State.putPort s k i p).remoteOps = s.remoteOps ∧ (State.putPort s k i p).parts = s.parts ∧ (State.putPort s k i p).routines = s.routines ∧ (State.putPort s k i p).groups = s.groups ∧ (State.putPort s k i p).stale = s.stale ∧ (State.putPort s k i p).fence = s.fence ∧ (State.putPort s k i p).audit = s.audit := by
  unfold State.putPort
  simp
@[simp] theorem State.wakeSync_frame (s : State) (k : Nat) :
    (State.wakeSync s k).pending = s.pending ∧ (State.wakeSync s k).heldCmds = s.heldCmds ∧ (State.wakeSync s k).power = s.power ∧ (State.wakeSync s k).usec = s.usec ∧ (State.wakeSync s k).fuses = s.fuses ∧ (State.wakeSync s k).trim = s.trim ∧ (State.wakeSync s k).latches = s.latches ∧ (State.wakeSync s k).slots = s.slots ∧ (State.wakeSync s k).objects = s.objects ∧ (State.wakeSync s k).waiters = s.waiters ∧ (State.wakeSync s k).remoteOps = s.remoteOps ∧ (State.wakeSync s k).parts = s.parts ∧ (State.wakeSync s k).routines = s.routines ∧ (State.wakeSync s k).groups = s.groups ∧ (State.wakeSync s k).stale = s.stale ∧ (State.wakeSync s k).fence = s.fence ∧ (State.wakeSync s k).audit = s.audit := by
  unfold State.wakeSync
  exact State.forAll_frame _ _ _ fun x fr => by (repeat' split) <;> simp
@[simp] theorem State.setPort_frame (s : State) (k i : Nat) (p : Option Port) :
    (State.setPort s k i p).pending = s.pending ∧ (State.setPort s k i p).heldCmds = s.heldCmds ∧ (State.setPort s k i p).power = s.power ∧ (State.setPort s k i p).usec = s.usec ∧ (State.setPort s k i p).fuses = s.fuses ∧ (State.setPort s k i p).trim = s.trim ∧ (State.setPort s k i p).latches = s.latches ∧ (State.setPort s k i p).slots = s.slots ∧ (State.setPort s k i p).objects = s.objects ∧ (State.setPort s k i p).waiters = s.waiters ∧ (State.setPort s k i p).remoteOps = s.remoteOps ∧ (State.setPort s k i p).parts = s.parts ∧ (State.setPort s k i p).routines = s.routines ∧ (State.setPort s k i p).groups = s.groups ∧ (State.setPort s k i p).stale = s.stale ∧ (State.setPort s k i p).fence = s.fence ∧ (State.setPort s k i p).audit = s.audit := by
  unfold State.setPort
  simp
@[simp] theorem State.wakeCredit_frame (s : State) (k i : Nat) :
    (State.wakeCredit s k i).pending = s.pending ∧ (State.wakeCredit s k i).heldCmds = s.heldCmds ∧ (State.wakeCredit s k i).power = s.power ∧ (State.wakeCredit s k i).usec = s.usec ∧ (State.wakeCredit s k i).fuses = s.fuses ∧ (State.wakeCredit s k i).trim = s.trim ∧ (State.wakeCredit s k i).latches = s.latches ∧ (State.wakeCredit s k i).slots = s.slots ∧ (State.wakeCredit s k i).objects = s.objects ∧ (State.wakeCredit s k i).waiters = s.waiters ∧ (State.wakeCredit s k i).remoteOps = s.remoteOps ∧ (State.wakeCredit s k i).parts = s.parts ∧ (State.wakeCredit s k i).routines = s.routines ∧ (State.wakeCredit s k i).groups = s.groups ∧ (State.wakeCredit s k i).stale = s.stale ∧ (State.wakeCredit s k i).fence = s.fence ∧ (State.wakeCredit s k i).audit = s.audit := by
  unfold State.wakeCredit
  (repeat' split) <;> simp
@[simp] theorem State.streamEnd_frame (s : State) (d : Node) (committed : Bool) :
    (State.streamEnd s d committed).pending = s.pending ∧ (State.streamEnd s d committed).heldCmds = s.heldCmds ∧ (State.streamEnd s d committed).power = s.power ∧ (State.streamEnd s d committed).usec = s.usec ∧ (State.streamEnd s d committed).fuses = s.fuses ∧ (State.streamEnd s d committed).trim = s.trim ∧ (State.streamEnd s d committed).latches = s.latches ∧ (State.streamEnd s d committed).slots = s.slots ∧ (State.streamEnd s d committed).objects = s.objects ∧ (State.streamEnd s d committed).waiters = s.waiters ∧ (State.streamEnd s d committed).remoteOps = s.remoteOps ∧ (State.streamEnd s d committed).parts = s.parts ∧ (State.streamEnd s d committed).routines = s.routines ∧ (State.streamEnd s d committed).groups = s.groups ∧ (State.streamEnd s d committed).stale = s.stale ∧ (State.streamEnd s d committed).fence = s.fence ∧ (State.streamEnd s d committed).audit = s.audit := by
  unfold State.streamEnd
  (repeat' split) <;> simp
@[simp] theorem State.issueDone_frame (s : State) (k call i : Nat) (res : BitVec 8 × BitVec 16) :
    (State.issueDone s k call i res).pending = s.pending ∧ (State.issueDone s k call i res).heldCmds = s.heldCmds ∧ (State.issueDone s k call i res).power = s.power ∧ (State.issueDone s k call i res).usec = s.usec ∧ (State.issueDone s k call i res).fuses = s.fuses ∧ (State.issueDone s k call i res).trim = s.trim ∧ (State.issueDone s k call i res).latches = s.latches ∧ (State.issueDone s k call i res).slots = s.slots ∧ (State.issueDone s k call i res).objects = s.objects ∧ (State.issueDone s k call i res).waiters = s.waiters ∧ (State.issueDone s k call i res).remoteOps = s.remoteOps ∧ (State.issueDone s k call i res).parts = s.parts ∧ (State.issueDone s k call i res).routines = s.routines ∧ (State.issueDone s k call i res).groups = s.groups ∧ (State.issueDone s k call i res).stale = s.stale ∧ (State.issueDone s k call i res).fence = s.fence ∧ (State.issueDone s k call i res).audit = s.audit := by
  unfold State.issueDone
  try dsimp only
  (repeat' split) <;> simp
@[simp] theorem State.endCall_frame (s : State) (call : Nat) :
    (State.endCall s call).pending = s.pending ∧ (State.endCall s call).heldCmds = s.heldCmds ∧ (State.endCall s call).power = s.power ∧ (State.endCall s call).usec = s.usec ∧ (State.endCall s call).fuses = s.fuses ∧ (State.endCall s call).trim = s.trim ∧ (State.endCall s call).latches = s.latches ∧ (State.endCall s call).slots = s.slots ∧ (State.endCall s call).objects = s.objects ∧ (State.endCall s call).waiters = s.waiters ∧ (State.endCall s call).remoteOps = s.remoteOps ∧ (State.endCall s call).parts = s.parts ∧ (State.endCall s call).routines = s.routines ∧ (State.endCall s call).groups = s.groups ∧ (State.endCall s call).stale = s.stale ∧ (State.endCall s call).fence = s.fence ∧ (State.endCall s call).audit = s.audit := by
  unfold State.endCall
  (repeat' split) <;> simp
@[simp] theorem State.retireChild_frame (s : State) (n : Nat) (d : Node) (call i : Nat) (fin : Final) :
    (State.retireChild s n d call i fin).pending = s.pending ∧ (State.retireChild s n d call i fin).heldCmds = s.heldCmds ∧ (State.retireChild s n d call i fin).power = s.power ∧ (State.retireChild s n d call i fin).usec = s.usec ∧ (State.retireChild s n d call i fin).fuses = s.fuses ∧ (State.retireChild s n d call i fin).trim = s.trim ∧ (State.retireChild s n d call i fin).latches = s.latches ∧ (State.retireChild s n d call i fin).slots = s.slots ∧ (State.retireChild s n d call i fin).objects = s.objects ∧ (State.retireChild s n d call i fin).waiters = s.waiters ∧ (State.retireChild s n d call i fin).remoteOps = s.remoteOps ∧ (State.retireChild s n d call i fin).parts = s.parts ∧ (State.retireChild s n d call i fin).routines = s.routines ∧ (State.retireChild s n d call i fin).groups = s.groups ∧ (State.retireChild s n d call i fin).stale = s.stale ∧ (State.retireChild s n d call i fin).fence = s.fence ∧ (State.retireChild s n d call i fin).audit = s.audit := by
  unfold State.retireChild
  simp
@[simp] theorem State.retire_frame (s : State) (n : Nat) (fin : Final) :
    (State.retire s n fin).pending = s.pending ∧ (State.retire s n fin).heldCmds = s.heldCmds ∧ (State.retire s n fin).power = s.power ∧ (State.retire s n fin).usec = s.usec ∧ (State.retire s n fin).fuses = s.fuses ∧ (State.retire s n fin).trim = s.trim ∧ (State.retire s n fin).latches = s.latches ∧ (State.retire s n fin).slots = s.slots ∧ (State.retire s n fin).objects = s.objects ∧ (State.retire s n fin).waiters = s.waiters ∧ (State.retire s n fin).remoteOps = s.remoteOps ∧ (State.retire s n fin).parts = s.parts ∧ (State.retire s n fin).routines = s.routines ∧ (State.retire s n fin).groups = s.groups ∧ (State.retire s n fin).stale = s.stale ∧ (State.retire s n fin).fence = s.fence ∧ (State.retire s n fin).audit = s.audit := by
  unfold State.retire
  (repeat' split) <;> simp
@[simp] theorem State.retireWith_frame (s : State) (n : Nat) (status : BitVec 8) (executed : Nat) (detail : BitVec 32) :
    (State.retireWith s n status executed detail).pending = s.pending ∧ (State.retireWith s n status executed detail).heldCmds = s.heldCmds ∧ (State.retireWith s n status executed detail).power = s.power ∧ (State.retireWith s n status executed detail).usec = s.usec ∧ (State.retireWith s n status executed detail).fuses = s.fuses ∧ (State.retireWith s n status executed detail).trim = s.trim ∧ (State.retireWith s n status executed detail).latches = s.latches ∧ (State.retireWith s n status executed detail).slots = s.slots ∧ (State.retireWith s n status executed detail).objects = s.objects ∧ (State.retireWith s n status executed detail).waiters = s.waiters ∧ (State.retireWith s n status executed detail).remoteOps = s.remoteOps ∧ (State.retireWith s n status executed detail).parts = s.parts ∧ (State.retireWith s n status executed detail).routines = s.routines ∧ (State.retireWith s n status executed detail).groups = s.groups ∧ (State.retireWith s n status executed detail).stale = s.stale ∧ (State.retireWith s n status executed detail).fence = s.fence ∧ (State.retireWith s n status executed detail).audit = s.audit := by
  unfold State.retireWith
  simp
@[simp] theorem State.doom_frame (s : State) (n : Nat) (d : Node) (fin : Final) (e : Event) :
    (State.doom s n d fin e).pending = s.pending ∧ (State.doom s n d fin e).heldCmds = s.heldCmds ∧ (State.doom s n d fin e).power = s.power ∧ (State.doom s n d fin e).usec = s.usec ∧ (State.doom s n d fin e).fuses = s.fuses ∧ (State.doom s n d fin e).trim = s.trim ∧ (State.doom s n d fin e).latches = s.latches ∧ (State.doom s n d fin e).slots = s.slots ∧ (State.doom s n d fin e).objects = s.objects ∧ (State.doom s n d fin e).waiters = s.waiters ∧ (State.doom s n d fin e).remoteOps = s.remoteOps ∧ (State.doom s n d fin e).parts = s.parts ∧ (State.doom s n d fin e).routines = s.routines ∧ (State.doom s n d fin e).groups = s.groups ∧ (State.doom s n d fin e).stale = s.stale ∧ (State.doom s n d fin e).fence = s.fence ∧ (State.doom s n d fin e).audit = s.audit := by
  unfold State.doom
  simp
@[simp] theorem State.inform_frame (s : State) (n : Nat) (d : Node) (status : BitVec 8) (executed : Nat) (detail : BitVec 32) (furrow : BitVec 10) :
    (State.inform s n d status executed detail furrow).pending = s.pending ∧ (State.inform s n d status executed detail furrow).heldCmds = s.heldCmds ∧ (State.inform s n d status executed detail furrow).power = s.power ∧ (State.inform s n d status executed detail furrow).usec = s.usec ∧ (State.inform s n d status executed detail furrow).fuses = s.fuses ∧ (State.inform s n d status executed detail furrow).trim = s.trim ∧ (State.inform s n d status executed detail furrow).latches = s.latches ∧ (State.inform s n d status executed detail furrow).slots = s.slots ∧ (State.inform s n d status executed detail furrow).objects = s.objects ∧ (State.inform s n d status executed detail furrow).waiters = s.waiters ∧ (State.inform s n d status executed detail furrow).remoteOps = s.remoteOps ∧ (State.inform s n d status executed detail furrow).parts = s.parts ∧ (State.inform s n d status executed detail furrow).routines = s.routines ∧ (State.inform s n d status executed detail furrow).groups = s.groups ∧ (State.inform s n d status executed detail furrow).stale = s.stale ∧ (State.inform s n d status executed detail furrow).fence = s.fence ∧ (State.inform s n d status executed detail furrow).audit = s.audit := by
  unfold State.inform
  simp
/-! ## Releasing a waiter (R252) -/

@[simp] theorem State.sendHive_objects (s : State) (p : Nat) (m : HiveFrame) :
    (s.sendHive p m).objects = s.objects ∧ (s.sendHive p m).waiters = s.waiters := by
  unfold State.sendHive
  split <;> simp
@[simp] theorem State.reply_objects (s : State) (p typ : Nat) (dest : BitVec 14) (result : Nat) (msgid : BitVec 32)
    (obj : Nat) (w2 : Word) :
    (s.reply p typ dest result msgid obj w2).objects = s.objects ∧ (s.reply p typ dest result msgid obj w2).waiters = s.waiters := by
  unfold State.reply
  simp
@[simp] theorem State.finishRun_objects (s : State) (k fr rd : Nat) (v : Word) :
    (s.finishRun k fr rd v).objects = s.objects ∧ (s.finishRun k fr rd v).waiters = s.waiters := by
  unfold State.finishRun
  split <;> simp
@[simp] theorem State.wakeSheaf_objects (s : State) (n : Nat) :
    (s.wakeSheaf n).objects = s.objects ∧ (s.wakeSheaf n).waiters = s.waiters := by
  unfold State.wakeSheaf
  (repeat' split) <;> simp
@[simp] theorem State.releaseWaiter_objects (s : State) (n : Nat) (w : Waiter) :
    (s.releaseWaiter n w).objects = s.objects ∧ (s.releaseWaiter n w).waiters = s.waiters := by
  unfold State.releaseWaiter
  dsimp only
  split <;> simp
theorem State.releaseWaiters_objects (s : State) (n : Nat) (ws : List Waiter) :
    (ws.foldl (fun s w => s.releaseWaiter n w) s).objects = s.objects ∧ (ws.foldl (fun s w => s.releaseWaiter n w) s).waiters = s.waiters := by
  induction ws generalizing s with
  | nil => simp
  | cons w ws ih =>
    have i := ih (s.releaseWaiter n w)
    simp only [List.foldl_cons, i, State.releaseWaiter_objects, and_self]
/-- Testing the waiters of an object changes no object and, besides the object's own waiters, no waiter. -/
theorem State.wakeWaiters_objects (s : State) (n : Nat) :
    (s.wakeWaiters n).objects = s.objects ∧
    (s.wakeWaiters n).waiters =
      (s.setWaiters n ((s.waitersOf n).filter fun w => !w.released (s.obj n))).waiters := by
  unfold State.wakeWaiters
  exact State.releaseWaiters_objects _ _ _

end Sys2Proof.Machine
end

