-- ==== Sys2Proof/Tests/Slice0.lean ====
section
/-! SUPPORT. Tests: a command outside each range of WellFormed is refused; a few single steps with results worked out by
hand from the rules; and for every statement with hypotheses a state and operands that meet them. -/

open Sys2Proof Sys2Proof.Machine Sys2Proof.Claim

namespace Sys2Proof.Tests

/-- A running Pliat: the power-up sequence is complete and every clock gate is open. -/
def on : State := { State.reset with
  power := .run, plaliveOn := true, clocks := { State.reset.clocks with enables := 0x1FFFF } }

/-- A sheaf of two lines with an opcode, word 1, word 2 and an ARG line. -/
def sheaf (op : Nat) (w1 w2 : Nat) (arg : Line) : List Line :=
  [[BitVec.ofNat 64 (0x11 * 2 ^ 32 + 4096 + op * 16 + 1), BitVec.ofNat 64 w1, BitVec.ofNat 64 w2, 0, 0, 0, 0, 0], arg]

/-- A sheaf's node in a phase, of queue 0 and system context 0. -/
def nodeOf (ls : List Line) (ph : Phase) : Node where
  queue := 0
  seq := 0
  child := none
  half := 0
  ctx := 0
  gen := 0
  prio := 1
  fmt := 1
  tag := 0x11
  lines := ls
  cfg := []
  phase := ph
  edges := []
  chained := false
  chainEarly := false
  order := 0
  relOrder := 0
  timer := none
  started := false
  tokenTaken := false
  iter := 0
  furrow := none
  acc32 := false
  satRecorded := false
  outexp := none
  scaled := false
  fold := {}
  preempted := 0
  aborted := false
  plan := []
  members := []
  reading := 0
  coreNo := 0
  runsDone := 0
  final := none

/-- A running Pliat whose node slot 5 holds a node. -/
def holds (d : Node) : State := on.setNode 5 (some d)

/-- The node of a released sheaf with an opcode and an ARG line, and with REPEAT 1. -/
def rel (op : Nat) (arg : Line) : Node := nodeOf (sheaf op 0x100000 1 arg) .ready

/-- The hive cache of half 0 holds the line of object 8 writable, and the descriptor cache of half 0 that of line 0 of
node slot 5, and line 1 for reading. -/
def held (s : State) : State :=
  ((s.setAline 2 (hiveLineOf 8) { st := .m }).setAline 0 (descLine 5 0) { st := .m }).setAline 0 (descLine 5 1)
    { st := .s }

/-- An ARG line of a SUB, the rest of word 0, and three further words. -/
def argLine (sub rest : Nat) (w1 w2 w3 : Word) : Line :=
  [BitVec.ofNat 64 (2 + sub * 256 + rest), w1, w2, w3, 0, 0, 0, 0]

/-- A queue with eight lines of ring, ACTIVE. -/
def queueOf (st : QState) : Queue :=
  { state := st, kind := .pf, fmt := 1, logSize := 6, timeout := 1000, maxInflight := 100 }

/-! ## Witnesses of the statements' hypotheses -/

theorem test_witness_EmptyQueueIsOneMicrosecond :
    on.pending = [] ∧ on.power ≠ .off ∧ State.reset.pending = [] ∧ State.reset.power = .off := by decide

theorem test_witness_DoorbellPagesAct :
    let s := on.setQueue 3 { queueOf .active with recAck := 2, recWritten := 5 }
    (PageOpen s .pf 3 ∧ s.qstate 3 ≠ .free ∧ s.qstate 3 ≠ .offline ∧ s.Canonical) ∧
    ((s.queue 3).recAck.toNat ≤ 5 ∧ 5 ≤ (s.queue 3).recWritten.toNat) ∧
    ((1 < (s.queue 3).recAck.toNat) ∧ ((s.queue 3).recWritten.toNat < 6)) ∧
    (PageOpen on .pf 4095 ∧ on.qstate 4095 = .free) ∧
    (s.working = true ∧ s.pageGated 3 = false ∧ s.pageLive (.vf 11) 3 = false) := by
  refine ⟨⟨⟨by decide, by decide, by decide, by decide, by decide⟩, by decide, by decide, ?_⟩, by decide, by decide,
    ⟨⟨by decide, by decide, by decide, by decide, by decide⟩, by decide⟩, by decide⟩
  unfold State.Canonical
  decide

theorem test_witness_CountReadsLatch : PageOpen on .pf 3 ∧ on.working = true := by
  simp only [PageOpen]; and_intros <;> decide

/-- Queue 3 of half 0 with a TAIL that has been read and lines to fetch. -/
def fetching : State := on.setQueue 3 { queueOf .active with tail := 8, tailSeen := 8 }

theorem test_witness_FetchFollowsTheTail :
    (let s := on.setQueue 3 { queueOf .active with tail := 8 };
      isQueue 3 ∧ s.working = true ∧ s.qstate 3 = .active ∧ (s.queue 3).caughtUp = true ∧ s.Canonical) ∧
    (isHalf 0 ∧ fetching.working = true ∧ fetching.inService 0 = true ∧ fetching.grantChoice 0 = some 3 ∧
      fetching.sheafWaits 3 = false ∧ fetching.Canonical) ∧
    (let s := on.setQueue 3 { queueOf .active with tail := 8, tailSeen := 8, reading := 1 };
      isQueue 3 ∧ s.working = true ∧ s.qstate 3 = .active ∧ [[(0 : Word)]].length = (s.queue 3).reading ∧
        (s.queue 3).reading ≠ 0) := by
  simp only [State.Canonical]; and_intros <;> decide

/-- A CONFIG with one REGLOAD line of one register, as the rules of format want it. -/
def configSheaf : List Line :=
  [[BitVec.ofNat 64 (0x11 * 2 ^ 32 + 4096 + 0x01 * 16 + 1), 0x5000, 1, 0, 0, 0, 0, 0],
    [BitVec.ofNat 64 (1 + 1 * 256 + 2 * 65536), 7, 0, 0, 0, 0, 0, 0]]

theorem test_witness_ConfigReplacesRecordedConfiguration :
    let s := on.setQueue 3 { queueOf .active with tail := 8, tailSeen := 8, fetched := configSheaf }
    isQueue 3 ∧ s.working = true ∧ s.qstate 3 = .active ∧ s.mayFetch 3 = true ∧
      (s.queue 3).nextSheaf = .sheaf configSheaf ∧ hOp configSheaf = opConfig ∧
      checkSheaf s 3 configSheaf = .accept ∧ s.Canonical := by
  simp only [State.Canonical]; and_intros <;> decide

theorem test_witness_RetirementFreesTheNodeSlot :
    let d := nodeOf (sheaf 0x00 0x105000 1 []) .ready
    let s := (holds d).setQueue 0 (queueOf .active)
    s.Canonical ∧ s.node 5 = some d ∧ d.child = none ∧ (s.queue d.queue).recFull = false ∧
      (let t := s.setQueue 0 { queueOf .active with recWritten := 64 };
        t.Canonical ∧ (t.queue 0).recFull = true ∧ (t.queue 0).records stDone = true ∧
          (t.queue 0).retired.toNat ≤ d.seq.toNat) ∧
      (let t := s.setQueue 0 { queueOf .active with recWritten := 64, except := true };
        (t.queue 0).recFull = true ∧ (t.queue 0).records stDone = false) := by
  simp only [State.Canonical]; and_intros <;> decide

theorem test_witness_RoomWritesTheHeldRecord :
    let d := nodeOf (sheaf 0x00 0x105000 1 []) .heldRecord
    let r := retireRecord 3 0 0x11 0 { status := stDone, executed := 1, detail := 0, furrow := noFurrow } (some 5)
    let s := (holds d).setQueue 3 { queueOf .active with recWritten := 64, held := [r] }
    PageOpen s .pf 3 ∧ s.Canonical ∧ s.qstate 3 ≠ .free ∧ s.qstate 3 ≠ .offline ∧ (s.queue 3).recFull = true ∧
      (s.queue 3).recAck.toNat < (1 : Word).toNat ∧ (1 : Word).toNat ≤ (s.queue 3).recWritten.toNat ∧
      (s.queue 3).held = [r] ∧ r.node = some 5 ∧ s.node 5 = some d := by
  simp only [PageOpen, State.Canonical]; and_intros <;> decide

/-- A held sheaf that waits for sequence number 9 of queue 2048, as `st` says. -/
def edged (st : EdgeState) : Node :=
  { nodeOf (sheaf 0x00 0x105000 1 []) .held with edges := [{ target := .seq 2048 9, st := st }] }

theorem test_witness_SheavesAreReleased :
    (let s := (holds (edged .unregistered)).setQueue 2048 (queueOf .active);
      isNode 5 ∧ s.up = true ∧ s.node 5 = some (edged .unregistered) ∧
        (edged .unregistered).edges[0]? = some { target := .seq 2048 9, st := .unregistered } ∧
        (s.queue 2048).state ≠ .free) ∧
    (let s := holds (edged (.noticed true));
      isQueue 2048 ∧ s.up = true ∧ s.Canonical ∧ s.node 5 = some (edged (.noticed true)) ∧
        (edged (.noticed true)).edges[0]? = some { target := .seq 2048 (9 : Word).toNat, st := .noticed true }) ∧
    (let d := nodeOf (sheaf 0x00 0x105000 1 []) .held;
      let s := (holds d).setQueue 0 (queueOf .active);
      isNode 5 ∧ s.working = true ∧ s.Canonical ∧ s.node 5 = some d ∧ s.releasable d = true ∧
        s.tagBreaks d.queue d.tag = [] ∧ (s.queue d.queue).onAborted d.seq.toNat = false ∧
        (s.queue d.queue).notTaken d.seq.toNat = false ∧ s.predicate d = some true ∧ hRepeat d.lines ≠ 0 ∧
        (fSkipok d.lines && d.allZero) = false ∧ Holds s (s.releaseNeeds d) ∧ d.chainEarly = false) := by
  simp only [State.Canonical]; and_intros <;> decide

theorem test_witness_NopRetiresDone : Released (holds (rel opNop [])) 5 (rel opNop []) opNop := by
  simp only [Released]; and_intros <;> decide

theorem test_witness_OwnStepsReachTheirUnits :
    (∀ op ∈ [opStart, opCfgstart, opCombine, opMeasure, opFence, opCall],
      Released (holds (rel op [])) 5 (rel op []) op ∧ Released (held (holds (rel op []))) 5 (rel op []) op ∧
        ∀ c ∈ [Instr.start 5, .cfgstart 5, .combine 5, .measure 5],
          Holds (held (holds (rel op []))) (unread (held (holds (rel op []))) c (sheafNeeds 5 2)) ∧
            ¬ Holds (holds (rel op [])) (unread (holds (rel op [])) c (sheafNeeds 5 2))) ∧
    (let s := { holds (rel opStart []) with reads := [(.start 5, [descLine 5 1])] };
      Released s 5 (rel opStart []) opStart ∧ ¬ Holds s (unread s (.start 5) (sheafNeeds 5 2)) ∧
        Holds (s.setAline 0 (descLine 5 1) { st := .s })
          (unread (s.setAline 0 (descLine 5 1) { st := .s }) (.start 5) (sheafNeeds 5 2))) ∧
    aSub (rel opFence []).lines = 0 ∧
    (let d := rel opCall (argLine 64 0 0 0 0);
      let s := { holds d with routines := [(64, { image := [0] })] };
      Released s 5 d opCall ∧ s.slotLength (aSub d.lines) ≠ 0) ∧
    (let d := rel opFence (argLine 1 0 0 0 0);
      Released (holds d) 5 d opFence ∧ aSub d.lines = 1 ∧ (holds d).fence.en = false) ∧
    (let d := rel opFence (argLine 1 0 0 0 0);
      let s := { holds d with fence := { on.fence with en := true } };
      Released s 5 d opFence ∧ s.fence.en = true ∧ isSystem d.ctx = true) := by
  simp only [Released]; and_intros <;> decide

/-- Queue 0 is a user queue, and a break unit pauses its context. -/
def paused (s : State) : State :=
  { s.setQueue 0 { s.queue 0 with kind := .user } with breaks := [(0, { hit := true })] }

theorem test_witness_BranchesDecide :
    (let d := rel opBranch (argLine 1 0 0 0x3FFFF 7);
      let s := (holds d).setAline 3 (hiveLineOf 0x3FFFF) { st := .s };
      Released s 5 d opBranch ∧ aSub d.lines = 1 ∧ refObj (fld (aw d.lines 2) 31 0) = 0x3FFFF ∧
        s.objAllowed d.ctx 0x3FFFF = true ∧ Holds s [hiveNeed 0x3FFFF false]) ∧
    (let d := rel opBranch (argLine 0 0 0 0 0);
      Released (holds d) 5 d opBranch ∧ aSub d.lines = 0) ∧
    (let d := nodeOf (sheaf opBranch 0x105000 1 (argLine 0 0 0 0 0)) .branch;
      let s := (holds d).setQueue 0 { queueOf .active with nextSeq := 1 };
      isNode 5 ∧ s.working = true ∧ s.node 5 = some d ∧ d.phase = .branch ∧
        d.seq.toNat + fld (aw d.lines 0) 31 16 < (s.queue d.queue).nextSeq.toNat ∧ s.deadlineLimit d = none ∧
        s.frozen d = false ∧ (paused s).frozen d = true) := by
  simp only [Released]; and_intros <;> decide

theorem test_witness_TemplatesExpandTheirTable :
    (∀ op ∈ [opFanout, opMasked], Released (holds (rel op [])) 5 (rel op []) op) ∧
    (let d := { nodeOf (sheaf opMasked 0x100000 1 (argLine 0 0 0 0 0)) .table with reading := 1 };
      let s := { holds d with ctxs := [(0, { state := .live, windows := [(0, { valid := true })] })] };
      isNode 5 ∧ s.working = true ∧ s.node 5 = some d ∧ d.phase = .table ∧ 0 < d.reading ∧
        [[(0 : Word)]].length = d.reading ∧ s.insideMem d.ctx d.tableArea.1 (64 * d.tableArea.2) false = true ∧
        s.frozen d = false ∧ d.planOf [[(0 : Word)]] = [] ∧ d.planOf [[(1 : Word)]] ≠ [] ∧
        (paused s).working = true ∧ (paused s).node 5 = some d ∧ (paused s).frozen d = true ∧
        (paused s).insideMem d.ctx d.tableArea.1 (64 * d.tableArea.2) false = true) ∧
    (let d := { nodeOf (sheaf opFanout 0x101000 1 []) .expand with plan := [(4, 8, 0)] };
      isNode 5 ∧ (∀ s ∈ [holds d, held (holds d)], s.working = true ∧ s.node 5 = some d ∧ s.frozen d = false) ∧
        d.phase = .expand ∧ d.plan = (4, 8, 0) :: [] ∧ d.kind ≠ 0 ∧
        Holds (held (holds d)) (unread (held (holds d)) (.memberCreate 5) (sheafNeeds 5 d.lines.length)) ∧
        ¬ Holds (holds d) (unread (holds d) (.memberCreate 5) (sheafNeeds 5 d.lines.length))) := by
  simp only [Released]; and_intros <;> decide

/-- An entry of node slot 5 in a furrow, of priority 1. -/
def entry5 : Entry :=
  { node := 5, member := none, measure := false, after := false, ctx := 0, gen := 0, prio := 1, queue := 0
    charge := 1, waittok := 0, order := 0 }

/-- Slot 9 bound to context 0, with a history. -/
def slot9 : Slot := { count := 3, margin := 2, bound := some 0, ref := 5 }

theorem test_witness_ScaleExponents :
    (let d := nodeOf (sheaf opStart 0x101000 (9 * 65536 + 1) []) .steward;
      let s := (holds d).setSlot 9 slot9;
      let x := ((s.slot (hScaleslot d.lines)).bindTo d.ctx).control (regOf d.loaded rSlotctl);
      let t := held s;
      isNode 5 ∧ t.working = true ∧ t.Canonical ∧ t.node 5 = some d ∧ d.phase = .steward ∧ t.frozen d = false ∧
        t.slotBlocked d.ctx (hScaleslot d.lines) = false ∧ hOp d.lines ≠ opMeasure ∧ Holds t [patchNeed 5 d] ∧
        ¬ Holds s [patchNeed 5 d] ∧ (exponent x d).isSome = true) ∧
    (let d := nodeOf (sheaf opStart 0x101000 (0x80 * 2 ^ 32 + 9 * 65536 + 1) []) .steward;
      let t := held (holds d);
      let x := ((t.slot (hScaleslot d.lines)).bindTo d.ctx).control (regOf d.loaded rSlotctl);
      t.node 5 = some d ∧ t.Canonical ∧ t.slotBlocked d.ctx (hScaleslot d.lines) = false ∧ hOp d.lines ≠ opMeasure ∧
        opTemplate (hOp d.lines) = false ∧ exponent x d = none ∧ t.sheafMeta d = none ∧
        Holds t (unread t (.stewardStep 5) (sheafNeeds 5 d.lines.length)) ∧
        ¬ Holds (holds d) (unread (holds d) (.stewardStep 5) (sheafNeeds 5 d.lines.length))) ∧
    (let d := nodeOf (sheaf opMeasure 0x101000 (9 * 65536 + 1) []) .steward;
      let t := holds d;
      t.node 5 = some d ∧ t.Canonical ∧ t.slotBlocked d.ctx (hScaleslot d.lines) = false ∧ hOp d.lines = opMeasure) ∧
    (let d := nodeOf (sheaf opCombine 0x101000 1 (argLine 0 0 0 0 0)) .steward;
      (exponent { pendmax := some 4, margin := 2 } d).isSome = true) ∧
    (let d := { nodeOf (sheaf opMeasure 0x101000 (9 * 65536 + 1) []) .choice with furrow := some 1 };
      let s := (holds d).setSlot 9 slot9;
      isNode 5 ∧ s.working = true ∧ s.Canonical ∧ s.node 5 = some d ∧ d.phase = .choice ∧
        s.slotBlocked d.ctx (hScaleslot d.lines) = false ∧ opTemplate (hOp d.lines) = false ∧ d.furrow = some 1 ∧
        s.imageHeld 1 5 = false ∧ ¬ Holds s [patchNeed 5 d] ∧ (held s).Canonical ∧ Holds (held s) [patchNeed 5 d] ∧
        (let t := s.setFurrow 1 { shadow := some { entry := entry5, loaded := true, parked := false } };
          t.Canonical ∧ t.imageHeld 1 5 = true)) ∧
    (let d := nodeOf (sheaf opMasked 0x101000 (9 * 65536 + 1) []) .choice;
      let s := (holds d).setSlot 9 slot9;
      s.Canonical ∧ s.node 5 = some d ∧ s.slotBlocked d.ctx (hScaleslot d.lines) = false ∧
        opTemplate (hOp d.lines) = true ∧ ¬ Holds s [patchNeed 5 d] ∧ Holds (held s) [patchNeed 5 d]) ∧
    (let r : ScaleRec := { slot := 9, ctx := 0, gen := 0, fold := { any := true, maxexp := some 4 }
                           acc32fmt := false, combine := false };
      let s := { on.setSlot 9 slot9 with stewardQ := [r] };
      s.working = true ∧ s.stewardQ = r :: [] ∧ r.fold.any = true ∧ r.fold.maxexp = some 4 ∧
        (s.ctx r.ctx).gen = r.gen ∧ s.slotOwned r.ctx r.slot = true) ∧
    (let r : ScaleRec := { slot := 9, ctx := 0, gen := 0, fold := {}, acc32fmt := false, combine := false };
      r.fold.any = false) := by
  simp only [State.Canonical]; and_intros <;> decide

/-- A start of furrow 1 in phase ph. -/
def start1 (ph : Phase) : Node := nodeOf (sheaf opStart 0x101001 1 []) ph

theorem test_witness_FurrowsFeedTheirEngines :
    (let a : Admit := { furrow := 1, entry := entry5, front := false };
      let s := { holds (start1 .admission) with admits := [a] };
      isFurrow 1 ∧ s.working = true ∧ s.Canonical ∧
        firstAdmit (s.admits.filter fun b => b.furrow == 1 && s.enterable b) = some a ∧ a.furrow = 1 ∧
        s.node a.entry.node = some (start1 .admission) ∧ a.entry.member = none ∧ a.entry.measure = false) ∧
    (let s := (holds (start1 .furrow)).setFurrow 1 { entries := [entry5], deficits := [(0, 4)] };
      isFurrow 1 ∧ s.working = true ∧ s.Canonical ∧ (s.furrow 1).shadow = none ∧ (s.furrow 1).chainFrom = none ∧
        (s.furrow 1).heads.filter (fun e => s.grantable (s.furrow 1) e) = [entry5] ∧
        (s.furrow 1).eligible entry5 = true ∧ entry5.prio ≤ 3 ∧
        (entry5.charge : Int) ≤ Tbl.get 0 (s.furrow 1).deficits entry5.ctx) ∧
    (let sh : Shadow := { entry := entry5, loaded := false, parked := false };
      let s := (holds (start1 .furrow)).setFurrow 1 { entries := [entry5], shadow := some sh };
      isFurrow 1 ∧ s.working = true ∧ (s.furrow 1).shadow = some sh ∧ sh.loaded = false ∧
        s.node sh.entry.node = some (start1 .furrow) ∧
        Holds (held s) (unread (held s) (.preloadComplete 1 none) (sheafNeeds 5 2)) ∧
        ¬ Holds s (unread s (.preloadComplete 1 none) (sheafNeeds 5 2)) ∧
        (let t := { s with reads := [(.preloadComplete 1 none, [])] };
          Holds t (unread t (.preloadComplete 1 none) (sheafNeeds 5 2)))) ∧
    (let sh : Shadow := { entry := entry5, loaded := true, parked := false };
      let s := (holds (start1 .furrow)).setFurrow 1 { entries := [entry5], shadow := some sh };
      isFurrow 1 ∧ s.working = true ∧ s.Canonical ∧ (s.furrow 1).run = none ∧ (s.furrow 1).shadow = some sh ∧
        s.node sh.entry.node = some (start1 .furrow) ∧ s.canStart (s.furrow 1) sh (start1 .furrow) = true ∧
        sh.entry.member = none ∧ sh.entry.measure = false ∧ (start1 .furrow).child = none) := by
  simp only [State.Canonical]; and_intros <;> decide

theorem test_witness_TokensAndBudgets :
    (isQueue 3 ∧ on.working = true) ∧
    (let s := { on with flying := [{ furrow := 1, ctx := 0, gen := 0, value := 7 }] };
      isFurrow 1 ∧ isCtx 0 ∧ s.working = true ∧ s.Canonical ∧ (s.ctx 0).gen = 0 ∧
        (s.furrow 1).addTok 0 0 7 = some { tokens := [{ ctx := 0, gen := 0, value := 7, count := 1 }] } ∧
        { furrow := 1, ctx := 0, gen := 0, value := 7 } ∈ s.flying) ∧
    (isFurrow 1 ∧ isCtx 0 ∧ on.working = true ∧ (on.ctx 0).gen ≠ 5) := by
  simp only [State.Canonical]; and_intros <;> decide

/-- The run of start1 on furrow 1. -/
def run1 : EngineRun := { entry := entry5, abort := none, acc16 := true, iter := 0 }

/-- Furrow 1 runs a node. -/
def runs (d : Node) (r : EngineRun) : State := (holds d).setFurrow 1 { run := some r }

theorem test_witness_CommitsCount :
    (let d := start1 .running;
      RunsSheaf (runs d run1) 1 run1 d ∧ hRepeat d.lines ≤ d.iter + 1 ∧ hSigtok d.lines = 0 ∧
        fChain d.lines = false ∧ opTemplate (hOp d.lines) = false ∧ hOp d.lines ≠ opCall) ∧
    (let d := nodeOf (sheaf opStart 0x101001 2 []) .running;
      RunsSheaf (runs d run1) 1 run1 d ∧ d.iter + 1 < hRepeat d.lines ∧ run1.abort = none ∧ fChain d.lines = false ∧
        d.fmt ≠ 0) ∧
    (let r : Report := { node := 5, gen := 0, order := 0, final :=
        { status := 0, executed := 1, detail := 0, furrow := 1 } };
      let s := { holds (start1 .committed) with reports := [r] };
      let t := { holds { start1 .committed with order := 4 } with reports := [r] };
      isNode 5 ∧ s.working = true ∧ s.reports.find? (fun r => r.node == 5) = some r ∧
        s.node 5 = some (start1 .committed) ∧ (s.ctx (start1 .committed).ctx).gen = r.gen ∧
        (start1 .committed).order = r.order ∧ t.node 5 = some { start1 .committed with order := 4 } ∧
        ({ start1 .committed with order := 4 } : Node).order ≠ r.order) := by
  simp only [RunsSheaf, State.Canonical]; and_intros <;> decide

theorem test_witness_RunsReportInBetween :
    (RunsSheaf (runs (start1 .running) run1) 1 run1 (start1 .running) ∧ run1.acc16 = true) ∧
    (isFurrow 599 ∧ on.working = true ∧ (on.furrow 599).run = none) := by
  simp only [RunsSheaf, State.Canonical]; and_intros <;> decide

theorem test_witness_RunsAreAborted :
    (let r := { run1 with abort := some .request };
      let d := start1 .running;
      RunsSheaf (runs d r) 1 r d ∧ r.abort = some .request ∧ ((runs d r).queue d.queue).recFull = false ∧
        opTemplate (hOp d.lines) = false ∧ hOp d.lines ≠ opCall) ∧
    (let d := start1 .running;
      let sh : Shadow := { entry := { entry5 with node := 6, prio := 0 }, loaded := true, parked := false };
      let s := { (holds d).setFurrow 1 { run := some run1, shadow := some sh, urgentSince := some (0, true) } with
        usec := 10, regs := { on.regs with preemptEn := true, preemptDelay := 1, preemptVictim := 1 } };
      RunsSheaf s 1 run1 d ∧ s.mayPreempt (s.furrow 1) run1 d = true ∧ (s.furrow 1).shadow = some sh ∧
        sh.entry.prio = 0 ∧ (s.furrow 1).eligible sh.entry = true) ∧
    (∀ ph ∈ [Phase.held, .steward, .ready],
      let d := { start1 ph with timer := some 0 };
      isNode 5 ∧ (holds d).working = true ∧ (holds d).Canonical ∧ (holds d).node 5 = some d ∧ d.timer = some 0 ∧
        0 ≤ (holds d).now ∧ d.child = none) ∧
    (let d := { start1 .running with timer := some 0 };
      isNode 5 ∧ (runs d run1).working = true ∧ (runs d run1).Canonical ∧ (runs d run1).node 5 = some d ∧
        d.phase = .running ∧ (runs d run1).runningOn 5 = some 1) := by
  simp only [RunsSheaf, State.Canonical]; and_intros <;> decide

/-- W0 of a stile with one participant more than `pm1`, after `arr` arrivals in round 4. -/
def stileObj (pm1 arr : Nat) : Obj := { w0 := stileWord 4 pm1 arr 0, w1 := signedBy 1 (rel opNop []) }

/-- A stile's ARG line for object o of this chip, its round being `r`. -/
def hiveArg (sub o : Nat) (r : Nat) (w1 : Word) : Line :=
  [BitVec.ofNat 64 (2 + sub * 256 + (0x3FFF * 2 ^ 18 + o) * 2 ^ 16 + r * 2 ^ 48), w1, 0, 0, 0, 0, 0, 0]

theorem test_witness_HiveSheavesActOnObjects :
    (∀ sub ∈ [0, 1, 2], let d := rel opSignal (hiveArg sub 8 0 1); (on.obj 8).kind = 0 ∧
      OnObject (held (holds d)) 5 d opSignal sub 8 ∧ AtOwnObject (holds d) 5 d opSignal sub 8 ∧
      ¬ Holds (holds d) [hiveNeed 8 true] ∧
      (let s := (held (holds d)).setObj 8 (stileObj 1 0); OnObject s 5 d opSignal sub 8 ∧ (s.obj 8).kind ≠ 0)) ∧
    (let d := rel opWait (hiveArg 0 8 0 1); OnObject (held (holds d)) 5 d opWait (aSub d.lines) 8 ∧
      ((holds d).obj 8).kind ≠ 3) ∧
    (∀ sub ∈ [0, 1], ∀ arr ∈ [0, 1],
      let d := rel opStile (hiveArg sub 8 4 0);
      let s := (held (holds d)).setObj 8 (stileObj 1 arr);
      (s.obj 8).kind = 1 ∧ fld (aw d.lines 0) 63 48 = (s.obj 8).round ∧ OnObject s 5 d opStile sub 8 ∧
        ((s.obj 8).arrived = arr ∧ (s.obj 8).pminus1 = 1)) ∧
    (∀ sub ∈ [2, 3],
      let d := rel opStile (hiveArg sub 8 0 2);
      (holds d).waitersOf 8 = [] ∧ OnObject (held (holds d)) 5 d opStile sub 8 ∧
        ((holds d).inTier 8 = true → (aw d.lines 1).toNat ≠ 65536)) := by
  simp only [OnObject, AtOwnObject, Released]; and_intros <;> decide

/-- An object of a kind in round 4, of P participants more than one, with so many arrivals and early ones. -/
def objOf (kind pm1 arr next : Nat) : Obj :=
  { w0 := stileWord 4 pm1 arr next, w1 := signedBy kind (rel opNop []) }

theorem test_witness_OtherArrivals :
    ∀ sub ∈ [0, 1], ∀ k ∈ [(0, 0, 4), (3, 0, 4), (1, 1, 5), (1, 0, 5), (1, 0, 6), (1, 0, 3)],
      let d := rel opStile (hiveArg sub 8 k.2.2 0);
      let s := (held (holds d)).setObj 8 (objOf k.1 1 0 k.2.1);
      OnObject s 5 d opStile sub 8 ∧ (s.obj 8).kind = k.1 ∧ (s.obj 8).next = k.2.1 ∧
        (fld (aw d.lines 0) 63 48 + 65536 - (s.obj 8).round) % 65536 = (k.2.2 + 65536 - 4) % 65536 := by
  simp only [OnObject, AtOwnObject, Released]; decide

/-- Object 8 lies in the tier range of a worker of partition 2's group, or of its manager. -/
def tierState (mgr : BitVec 14) (arr : Nat) (d : Node) : State :=
  { (held (holds { d with ctx := 9 })).setObj 8 (objOf 2 1 arr 0) with
    ctxs := [(9, { state := .live, part := 2 })]
    groups := [(2, { en := true, size := 4, mgr := mgr, num := 1 })]
    regs := { on.regs with hivepart := [(2, BitVec.ofNat 64 (100 * 2 ^ 22))], tierCount := 100 } }

theorem test_witness_TierArrivals :
    ∀ sub ∈ [0, 1], ∀ mgr ∈ [(0 : BitVec 14), 1],
      ∀ k ∈ [(4, 0, 0), (4, 1, 0), (4, 2, 0), (5, 0, 0), (5, 0, 1), (5, 0, 2), (6, 0, 0)],
      let d := rel opStile (hiveArg sub 8 k.1 0);
      let s := (tierState mgr k.2.1 d).setObj 8 (objOf 2 1 k.2.1 k.2.2);
      OnObject s 5 { d with ctx := 9 } opStile sub 8 ∧ (s.obj 8).kind = 2 ∧ (s.obj 8).arrived = k.2.1 ∧
        (s.obj 8).next = k.2.2 ∧ (s.obj 8).pminus1 = 1 ∧ s.objWorker 8 = decide (mgr = 0) ∧
        (fld (aw d.lines 0) 63 48 + 65536 - (s.obj 8).round) % 65536 = k.1 - 4 := by
  simp only [List.forall_mem_cons, List.not_mem_nil, false_imp_iff, implies_true, and_true, OnObject, AtOwnObject,
    Released]
  and_intros <;> decide

theorem test_witness_InitAndResetRefuse :
    (∀ sub ∈ [2, 3],
      let d := rel opStile (hiveArg sub 8 0 2);
      let s := (held (holds d)).setWaiters 8
        [{ test := .cmp 0 7, owner := .node 6, ctx := 0, gen := 0, queue := 0, chip := 0x3FFF, chipgen := 0 }];
      OnObject s 5 d opStile sub 8 ∧ s.waitersOf 8 ≠ [] ∧ (s.obj 8).kind ≠ 3) ∧
    (let d := rel opStile (hiveArg 2 8 0 65536);
      let s := tierState 0 0 d;
      OnObject s 5 { d with ctx := 9 } opStile 2 8 ∧ s.waitersOf 8 = [] ∧ s.inTier 8 = true ∧
        (aw d.lines 1).toNat = 65536) := by
  simp only [OnObject, AtOwnObject, Released]; and_intros <;> decide

theorem test_witness_WakeReleasesExactly : on.Canonical := by
  unfold State.Canonical; and_intros <;> decide

/-- A released kernel command of an opcode with an ARG line. -/
def kern (op : Nat) (arg : Line) : Node := nodeOf (sheaf op 0x105000 1 arg) .ready

/-- A kernel command that waits, being carried out. -/
def kernWaits (op : Nat) (arg : Line) : Node := nodeOf (sheaf op 0x105000 1 arg) .kernel

/-- A CREATE's ARG line for queue 4 of the PF and context 0, FMT 1, with 64 ring lines. -/
def createArg : Line :=
  [BitVec.ofNat 64 (2 + 4 * 65536 + 2 ^ 40 + 6 * 2 ^ 44), 0x10000, 0x20000, BitVec.ofNat 64 (100 + 2 ^ 32), 0, 0, 0, 0]

theorem test_witness_QctlActsOnItsQueue :
    (∀ sub ∈ [1, 2], let d := kern opQctl (argLine sub (4 * 65536) 3 5 0);
      let s := (holds d).setQueue 4 { queueOf .stopped with err := 1, head := 2 };
      Kernel s 5 d opQctl sub ∧ s.qstate 4 = .stopped ∧ (s.queue 4).err ≠ 0x06 ∧
        fld (aw d.lines 0) 27 16 = 4 ∧ (s.queue 4).head.toNat ≤ (aw d.lines 1).toNat ∧
        (aw d.lines 1).toNat ≤ (aw d.lines 2).toNat ∧
        (aw d.lines 2).toNat ≤ 2 ^ (s.queue 4).logSize + (aw d.lines 1).toNat ∧ 4 ≠ d.queue) ∧
    (let d := kern opQctl createArg;
      let s := { (holds d).setCtx 0 { state := .live } with regs := { on.regs with agreed := 1 } };
      let x := createdQueue d;
      Kernel s 5 d opQctl 0 ∧ firstRefusal (s.createRefusals d) = none ∧
        s.ringOk x x.ringHost x.ringBase (64 * 2 ^ x.logSize) = true ∧
        s.ringOk x x.recHost x.recBase 2048 = true) := by
  simp only [Kernel, Released]; and_intros <;> decide

/-- Context 9 LIVE in partition 2, which has cluster 0. -/
def live9 (d : Node) : State :=
  (((holds d).setCtx 9 { state := .live, part := 2 }).setPart 2 { defined := true, clusters := 1 })

theorem test_witness_CtxctlActsOnItsContext :
    (let d := kern opCtxctl (argLine 0 (9 * 65536 + 2 * 2 ^ 26) 0 0 0);
      let s := (holds d).setPart 2 { defined := true, clusters := 1 };
      Kernel s 5 d opCtxctl 0 ∧ isSystem (fld (aw d.lines 0) 25 16) = false ∧ (s.ctx 9).state = .free ∧
        fld (aw d.lines 0) 25 16 = 9 ∧ fld (aw d.lines 0) 29 26 = 2 ∧ s.ctxNamed 9 = false ∧
        s.inService (halfOfCtx 9) = true ∧ (s.part 2).defined = true ∧ s.badWindow 9 2 d.lines = none) ∧
    (∀ sub ∈ [1, 2], let d := kern opCtxctl (argLine sub (9 * 65536) 0 0 0);
      Kernel (live9 d) 5 d opCtxctl sub ∧ fld (aw d.lines 0) 25 16 = 9 ∧ 9 ≠ d.ctx ∧
        (live9 d).inService (halfOfCtx 9) = true ∧ ((live9 d).ctx 9).state = .live ∧
        (live9 d).tears.any (fun t => t.ctx == 9) = false ∧
        (live9 d).badWindow 9 ((live9 d).ctx 9).part d.lines = none ∧ ((live9 d).ctx 9).setwin = none) ∧
    (let d := kern opCtxctl (argLine 3 (9 * 65536) 0x1000 0 0);
      let s := (live9 d).setQueue 0 (queueOf .active);
      Kernel s 5 d opCtxctl 3 ∧ s.inService (halfOfCtx 9) = true ∧ (s.queue d.queue).kind = .pf ∧
        s.inDevice (aw d.lines 1).toNat 128 = true) ∧
    (let d := kernWaits opCtxctl (argLine 0 (9 * 65536) 0 0 0);
      isNode 5 ∧ (live9 d).working = true ∧ (live9 d).node 5 = some d ∧ d.phase = .kernel ∧
        hOp d.lines = opCtxctl ∧ aSub d.lines = 0) ∧
    (let d := kernWaits opCtxctl (argLine 2 (9 * 65536) 0 0 0);
      let s := (live9 d).setCtx 9 { state := .live, part := 2, setwin := some 5 };
      isNode 5 ∧ s.working = true ∧ s.node 5 = some d ∧ d.phase = .kernel ∧ hOp d.lines = opCtxctl ∧
        aSub d.lines = 2 ∧ (s.ctx 9).setwin = some 5 ∧ s.runsWhere (fun e => e.ctx == 9) = []) := by
  simp only [Kernel, Released]; and_intros <;> decide

theorem test_witness_InstallersCommandsAct :
    (let d := kern opLoadroutine (argLine 64 (16 * 65536) 0x1000 0 0);
      let s := { holds d with regs := { on.regs with kcmden := 7 } };
      Released s 5 d opLoadroutine ∧ bit s.regs.kcmden 0 = true ∧ fld (aw d.lines 0) 31 16 ≤ 8192 ∧
        pagesFor (fld (aw d.lines 0) 31 16) ≤ s.freePages.length + (s.rslot (aSub d.lines)).pages.length) ∧
    (let d := { kernWaits opLoadroutine (argLine 64 (16 * 65536) 0x1000 0 0) with reading := 1 };
      let s := { holds d with routines := [(64, { loading := [(5, [2])] })] };
      isNode 5 ∧ s.working = true ∧ s.node 5 = some d ∧ d.phase = .kernel ∧ hOp d.lines = opLoadroutine ∧
        (s.rslot (aSub d.lines)).loading = [(5, [2])] ∧ [[(0 : Word)]].length = d.reading) ∧
    (∀ sub ∈ [0, 1], let d := kern opTally (argLine sub 0 0x10000 0 0);
      Kernel (holds d) 5 d opTally sub ∧ aw d.lines 1 ≠ 0) ∧
    (let d := kernWaits opTally (argLine 1 0 0x10000 0 0);
      isNode 5 ∧ (holds d).working = true ∧ (holds d).node 5 = some d ∧ d.phase = .kernel ∧ hOp d.lines = opTally ∧
        aw d.lines 1 ≠ 0) ∧
    (∀ sub ∈ [0, 1], let d := kern opPartctl (argLine sub (2 * 65536 + 2 ^ 32) 0 0 0);
      let s := { holds d with regs := { on.regs with kcmden := 7 } };
      Kernel s 5 d opPartctl sub ∧ bit s.regs.kcmden 1 = true ∧ s.partCtxs (fld (aw d.lines 0) 19 16) = [] ∧
        BitVec.ofNat 12 (fld (aw d.lines 0) 43 32) ≠ 0 ∧ s.parts = []) ∧
    (∀ sub ∈ [0, 1], let d := kern opFaultctl (argLine sub (0x20 * 65536 + 3 * 2 ^ 32) 0 0 0);
      let s := { holds d with regs := { on.regs with kcmden := 7 } };
      Kernel s 5 d opFaultctl sub ∧ bit s.regs.kcmden 2 = true ∧ sourceListed (fld (aw d.lines 0) 31 16) = true ∧
        fld (aw d.lines 1) 31 0 ≤ (s.faults.written - s.faults.acked).toNat) := by
  simp only [Kernel, Released]; and_intros <;> decide

theorem test_witness_TeardownStopsTheContext :
    let r : TearReq := { ctx := 9, cause := 0x12, node := none }
    let s := { (live9 (rel opNop [])).setQueue 3 { queueOf .active with ctx := 9 } with tears := [r] }
    isCtx 9 ∧ s.working = true ∧ s.tears.find? (fun t => t.ctx == 9) = some r ∧ s.Canonical ∧
      (s.queue 3).ctx = 9 ∧ (s.queue 3).state ≠ .free ∧ (s.queue 3).state ≠ .busy := by
  simp only [State.Canonical]; and_intros <;> decide

theorem test_witness_ContextsDrainToFree :
    (∀ acks ∈ [[601], [600, 601]], let s := on.setCtx 9 { state := .teardown, acks := acks };
      isCtx 9 ∧ isPort 601 ∧ s.working = true ∧ (s.ctx 9).state = .teardown ∧ (s.ctx 9).acks.contains 601 = true ∧
        (s.furrow 601).run = none) ∧
    (∀ dr ∈ [1, 2], let s := on.setCtx 1023 { state := .draining, drain := dr };
      isCtx 1023 ∧ s.working = true ∧ (s.ctx 1023).drain ≠ 0) ∧
    (let s := on.setCtx 9 { state := .draining, drain := 1, drainDue := 0 };
      isCtx 9 ∧ s.working = true ∧ (s.ctx 9).state = .draining ∧ (s.ctx 9).drainDue ≤ s.now) ∧
    RunsSheaf (runs (start1 .running) run1) 1 run1 (start1 .running) ∧
    (isFurrow 599 ∧ isCtx 1023 ∧ on.working = true) := by
  simp only [RunsSheaf, State.Canonical]; and_intros <;> decide

/-- A run of a CALL at node slot 5 that executes routine slot 64. -/
def runOf (pc : Nat) (regs : Tbl Word) : Run where
  call := 5
  slot := 64
  iter := 0
  queue := 0
  ctx := 0
  gen := 0
  prio := 1
  regs := regs
  pc := pc
  loops := []
  lc := 3
  handles := []
  mem := []
  st := .ready
  xfer := none
  readyAt := 0

/-- The node of a CALL of slot 64 that runs on core 2. -/
def callNode : Node := { nodeOf (sheaf opCall 0x104002 1 (argLine 64 0 0 0 0)) .core with coreNo := 2 }

/-- Node slot 6 holds the issue 4 of the CALL at node slot 5: a START of furrow 2. -/
def withIssue (s : State) : State :=
  s.setNode 6 (some { start1 .held with
    lines := [[BitVec.ofNat 64 (0x11 * 2 ^ 32 + opStart * 16 + 1), 0x2002, 1, 0, 0, 0, 0, 0]], child := some (5, 4) })

/-- Core 2 runs r in frame 0, from a slot of four instructions of which the first is w, with these ports. -/
def coreRuns (r : Run) (w : BitVec 32) (ports : Tbl (Option Port)) : State :=
  { (withIssue (holds callNode)).setCore 2 { frames := [(0, .run r)], current := some 0, ports := ports } with
    routines := [(64, { image := [w, 0, 0, 0] })] }

/-- A run with registers and handles at the first instruction of its routine. -/
def runAt0 (regs : Tbl Word) (hs : List Handle) : Run := { runOf 0 regs with handles := hs }

/-- Core 2 executes any legal instruction that stands at the run's PC. -/
theorem executes_run (r : Run) (w : BitVec 32) (ports : Tbl (Option Port)) (hc : r.call = 5) (hs : r.slot = 64)
    (hp : r.pc = 0) (hn : r.stall = none) (h : legalWord w = true) : Executes (coreRuns r w ports) 2 0 r w :=
  ⟨by decide, by simp [State.coreOn, State.working, State.up, State.inService, coreRuns, withIssue, holds, on,
    State.setCore,
      State.setNode, State.reset, halfOfCore],
    by simp [State.currentRun, State.core, State.runAt, Core.frame, FrameState.run?, State.callLive, State.node,
      coreRuns,
      withIssue, holds, on, State.setCore, State.setNode, State.reset, callNode, nodeOf, Tbl.get, Tbl.set, Tbl.ins, hc],
    hn,
    by simp [State.fetched, State.slotLength, State.rslot, coreRuns, Tbl.get, hs, hp],
    by simp [State.keeps, hs], h⟩

theorem executes_core (regs : Tbl Word) (hs : List Handle) (w : BitVec 32) (ports : Tbl (Option Port))
    (h : legalWord w = true) : Executes (coreRuns (runAt0 regs hs) w ports) 2 0 (runAt0 regs hs) w :=
  executes_run _ w ports rfl rfl rfl rfl h

/-- What a core executes of a routine that no contract binds does not depend on the hive. -/
theorem executes_hive {s t : State} {k fr : Nat} {r : Run} {w : BitVec 32} (h : Executes s k fr r w) (hr : 64 ≤ r.slot)
    (ht : t = { s with objects := t.objects, agents := t.agents, waiters := t.waiters, groups := t.groups }) :
    Executes t k fr r w := by
  rw [ht]
  have hf := h.2.2.2.2.1
  rw [if_neg (Nat.not_lt.mpr hr)] at hf
  exact ⟨h.1, h.2.1, h.2.2.1, h.2.2.2.1, by rw [if_neg (Nat.not_lt.mpr hr)]; exact hf, by simp [State.keeps, hr],
    h.2.2.2.2.2.2⟩

theorem test_witness_RunsShareTheCore :
    (let q : RunReq := { call := 5, prio := 1, order := 0 };
      let s := (holds callNode).setCore 2 { runq := [q] };
      isCore 2 ∧ s.coreOn 2 = true ∧ ((s.core 2).runq.find? fun r => match s.node r.call with
        | some d => !s.qPaused d.queue
        | none => false) = some q ∧
        Tbl.firstFree (s.core 2).frames 0 8 = some 0 ∧ s.node q.call = some callNode) ∧
    (let s := on.setCore 2 { frames := [(7, .clearing)] };
      isCore 2 ∧ isFrame 7 ∧ s.up = true ∧ (s.core 2).frame 7 = .clearing) ∧
    (let s := { coreRuns (runOf 0 []) 0 [] with usec := 20 };
      isCore 2 ∧ s.working = true ∧ (s.core 2).current = some 0 ∧ s.runAt 2 0 = some (runOf 0 []) ∧
        (s.core 2).currentAt + 20 ≤ s.now) := by
  and_intros <;> decide

theorem test_witness_CoreOperationsWriteTheirResult :
    (areRegs 31 31 0 ∧ ∀ fn ∈ List.range 18, Executes (coreRuns (runAt0 [] []) (encReg 0x00 31 31 0 fn) []) 2 0
      (runAt0 [] []) (encReg 0x00 31 31 0 fn)) ∧
    (isReg 31 ∧ ∀ maj ∈ [0x01, 0x02, 0x03, 0x04, 0x06, 0x07],
      Executes (coreRuns (runAt0 [] []) (encImm maj 31 0 0xFFFF) []) 2 0 (runAt0 [] []) (encImm maj 31 0 0xFFFF)) ∧
    (∀ imm ∈ [(0x3F : BitVec 16), 0x7F, 0xBF],
      Executes (coreRuns (runAt0 [] []) (encImm 0x05 31 31 imm) []) 2 0 (runAt0 [] []) (encImm 0x05 31 31 imm)) ∧
    Tbl.wf (0 : Word) (runOf 0 [(1, 4)]).regs = true := by
  have a : (List.range 18).all (fun fn => legalWord (encReg 0x00 31 31 0 fn)) = true := by decide
  have b : [0x01, 0x02, 0x03, 0x04, 0x06, 0x07].all (fun maj => legalWord (encImm maj 31 0 0xFFFF)) = true := by
    decide
  have c : [(0x3F : BitVec 16), 0x7F, 0xBF].all (fun imm => legalWord (encImm 0x05 31 31 imm)) = true := by decide
  exact ⟨⟨by decide, fun _ h => executes_core _ _ _ _ (List.all_eq_true.mp a _ h)⟩,
    ⟨by decide, fun _ h => executes_core _ _ _ _ (List.all_eq_true.mp b _ h)⟩,
    fun _ h => executes_core _ _ _ _ (List.all_eq_true.mp c _ h), by decide⟩

theorem test_witness_FrameAccesses :
    isReg 31 ∧ ∀ maj ∈ [0x08, 0x09, 0x0A, 0x0C, 0x0D, 0x0E], ∀ imm ∈ [(0x7DF8 : BitVec 16), 0x7E00],
      Executes (coreRuns (runAt0 [] []) (encImm maj 31 0 imm) []) 2 0 (runAt0 [] []) (encImm maj 31 0 imm) := by
  have a : [0x08, 0x09, 0x0A, 0x0C, 0x0D, 0x0E].all (fun maj => [(0x7DF8 : BitVec 16), 0x7E00].all
      fun imm => legalWord (encImm maj 31 0 imm)) = true := by decide
  exact ⟨by decide, fun _ h _ g => executes_core _ _ _ _ (List.all_eq_true.mp (List.all_eq_true.mp a _ h) _ g)⟩

theorem test_witness_StoredBytesReadBack : Memory.wf [(4, 1), (9, 255)] = true := by decide

theorem test_witness_ControlTransfers :
    (isReg 1 ∧ isReg 0 ∧ ∀ maj ∈ [0x18, 0x20, 0x21, 0x22, 0x23, 0x24, 0x25],
      Executes (coreRuns (runAt0 [(1, 2)] []) (encBrn maj 1 0 2) []) 2 0 (runAt0 [(1, 2)] []) (encBrn maj 1 0 2)) ∧
    (∀ maj ∈ [0x28, 0x29],
      Executes (coreRuns (runAt0 [] []) (encLng maj 3) []) 2 0 (runAt0 [] []) (encLng maj 3)) ∧
    (areRegs 31 1 0 ∧ Executes (coreRuns (runAt0 [] []) (encReg 0x2A 31 1 0 0) []) 2 0 (runAt0 [] [])
      (encReg 0x2A 31 1 0 0)) := by
  have a : [0x18, 0x20, 0x21, 0x22, 0x23, 0x24, 0x25].all (fun maj => legalWord (encBrn maj 1 0 2)) = true := by
    decide
  have b : [0x28, 0x29].all (fun maj => legalWord (encLng maj 3)) = true := by decide
  exact ⟨⟨by decide, by decide, fun _ h => executes_core _ _ _ _ (List.all_eq_true.mp a _ h)⟩,
    fun _ h => executes_core _ _ _ _ (List.all_eq_true.mp b _ h), by decide, executes_core _ _ _ _ (by decide)⟩

theorem test_witness_LoopsCountDown :
    (1 < (2 : Word).toNat ∧ (1 : Word).toNat ≤ 1) ∧
    (areRegs 0 1 0 ∧ Executes (coreRuns (runAt0 [] []) (encReg 0x3F 0 1 0 5) []) 2 0 (runAt0 [] [])
      (encReg 0x3F 0 1 0 5)) ∧
    (isReg 0 ∧ Executes (coreRuns (runAt0 [] []) (encBrn 0x18 0 0 2) []) 2 0 (runAt0 [] []) (encBrn 0x18 0 0 2) ∧
      (runAt0 [] []).loops.length < 4 ∧ 1 ≤ (2 : BitVec 16).toInt ∧ (runAt0 [] []).lc ≠ 0 ∧
      (BitVec.ofNat 64 (runAt0 [] []).pc + 4 * (2 : BitVec 16).signExtend 64).toNat / 4 <
        (coreRuns (runAt0 [] []) 0 []).slotLength (runAt0 [] []).slot) := by
  exact ⟨by decide, ⟨by decide, executes_core _ _ _ _ (by decide)⟩, by decide, executes_core _ _ _ _ (by decide),
    by decide, by decide, by decide, by decide⟩

/-- A state whose context 0 has one window from address 0, of two pages. -/
def windowed (s : State) : State :=
  s.setCtx 0 { state := .live, windows := [(0, { valid := true, limit := 1, write := true })] }

/-- Registers with g1 = v. -/
def g1 (v : Word) : Tbl Word := [(1, v)]

/-- A handle of a START, whose issue has retired or not. -/
def handle1 (res : Option (BitVec 8 × BitVec 16)) : Handle :=
  { num := 1, slot := 6, lines := sheaf opStart 0x101001 1 [], cfg := [], issue := 4, res := res }

/-- A handle whose issue 9 has no node any more. -/
def handle9 : Handle := { handle1 none with issue := 9 }

theorem test_witness_BlocksAndTablesMove :
    (areRegs 0 1 2 ∧ ∀ lines ∈ [1, 64], ∀ fn ∈ [0, 1], 1 ≤ lines ∧ lines ≤ 64 ∧
      Executes (coreRuns (runAt0 [] []) (encReg 0x0F 0 1 2 (fn + 32 * (lines - 1))) []) 2 0 (runAt0 [] [])
        (encReg 0x0F 0 1 2 (fn + 32 * (lines - 1))) ∧ blockCause 0 0 lines = none) ∧
    (let s := windowed (coreRuns (runAt0 [] []) 0 []);
      s.insideMem 0 0 4096 true = true ∧ s.insideMem 0 0 4096 false = true) ∧
    (let r := { runOf 0 [] with st := .block, xfer := some { fill := true, frame := 64, lines := 1, addr := 0 } };
      let s := coreRuns r 0 [];
      isCore 2 ∧ isFrame 0 ∧ s.coreOn 2 = true ∧ s.runAt 2 0 = some r ∧ s.callLive r = true ∧
        r.xfer = some { fill := true, frame := 64, lines := 1, addr := 0 } ∧
          [([0, 0, 0, 0, 0, 0, 0, 0] : Line)].length = 1) ∧
    (areRegs 3 1 0 ∧ ∀ v : Word, Executes (coreRuns (runAt0 (g1 v) []) (encReg 0x10 3 1 0 0) []) 2 0
      (runAt0 (g1 v) []) (encReg 0x10 3 1 0 0)) ∧
    (let r := runAt0 (g1 0x1000000000000008) [];
      let l : CohLine := { table := .hive, index := 2 };
      let s := ({ coreRuns r 0 [] with objects := [(8, { w0 := 6 })] }).setAline ((coreRuns r 0 []).coreAgent 2) l
        { st := .s };
      s.tableRead r (r.reg 1) = some { line := l, value := 6 } ∧ s.readable (s.coreAgent 2) l = true) ∧
    (let r := runAt0 (g1 0xF000000000000000) [];
      (coreRuns r 0 []).tableRead r (r.reg 1) = none ∧ State.tableTarget r (r.reg 1) = none) ∧
    (areRegs 0 1 2 ∧ ∀ v : Word, Executes (coreRuns (runAt0 (g1 v) [handle9]) (encReg 0x10 0 1 2 1) []) 2 0
      (runAt0 (g1 v) [handle9]) (encReg 0x10 0 1 2 1)) ∧
    (let r := runAt0 (g1 0x0000010000000008) [handle9];
      State.tableTarget r (r.reg 1) = some (handle9, 0, 1) ∧
        (coreRuns r 0 []).issueNode r.call 9 = none ∧
        (coreRuns r 0 []).writable ((coreRuns r 0 []).coreAgent 2) (descLine handle9.slot 0) = false) := by
  have a : ∀ lines ∈ [1, 64], ∀ fn ∈ [0, 1], legalWord (encReg 0x0F 0 1 2 (fn + 32 * (lines - 1))) = true ∧
      1 ≤ lines ∧ lines ≤ 64 ∧ blockCause 0 0 lines = none := by decide
  exact ⟨⟨by decide, fun _ h _ g => ⟨(a _ h _ g).2.1, (a _ h _ g).2.2.1, executes_core _ _ _ _ (a _ h _ g).1,
      (a _ h _ g).2.2.2⟩⟩, by decide, by decide, ⟨by decide, fun _ => executes_core _ _ _ _ (by decide)⟩,
    by decide, by decide, ⟨by decide, fun _ => executes_core _ _ _ _ (by decide)⟩, by decide⟩

/-- A port of the CALL at node slot 5. -/
def portOf5 (started : Bool) : Port :=
  { call := 5, bound := some 4, started := started, prefill := [], credits := 256, line := [], ended := false
    dead := false }

theorem test_witness_StreamsCarryEntries :
    (areRegs 0 1 2 ∧
      (let r := runAt0 [(1, 3), (2, 1)] [handle1 none];
        Executes (coreRuns r (encReg 0x11 0 1 2 0) []) 2 0 r (encReg 0x11 0 1 2 0) ∧ (r.reg 1).toNat < 4 ∧
          r.handle (r.reg 2).toNat = some (handle1 none))) ∧
    (let r := runAt0 [(1, 3), (2, 1)] [handle1 none];
      let s := coreRuns r 0 [];
      Tbl.get none (s.core 2).ports 3 = none ∧ (s.issueNode r.call (handle1 none).issue).map (·.1) = some 6 ∧
        (s.issueNode r.call (handle1 none).issue).map (fun p => bindable p.2) = some true) ∧
    (∀ fn ∈ [1, 2, 3], ∀ st ∈ [true, false],
      Executes (coreRuns (runAt0 (g1 3) []) (encReg 0x11 0 1 2 fn) [(3, some (portOf5 st))]) 2 0 (runAt0 (g1 3) [])
        (encReg 0x11 0 1 2 fn)) ∧
    (∀ st ∈ [true, false],
      let p := portOf5 st;
      let s := coreRuns (runAt0 (g1 3) []) 0 [(3, some p)];
      s.runPort 2 (runAt0 (g1 3) []) 1 = some (3, p) ∧ p.dead = false ∧ p.ended = false ∧ p.started = st ∧
        p.prefill.length < 32 ∧ p.credits ≠ 0 ∧ p.line.length < 7) ∧
    (let s := coreRuns (runAt0 [] []) 0 [(3, some (portOf5 true))];
      isCore 2 ∧ isFrame 0 ∧ 3 < 4 ∧ s.coreOn 2 = true ∧ Tbl.get none (s.core 2).ports 3 = some (portOf5 true) ∧
        (portOf5 true).call = (runAt0 [] []).call ∧ s.runAt 2 0 = some (runAt0 [] [])) ∧
    (let s := (coreRuns (runAt0 [] []) 0 [(3, some (portOf5 true))]).setFurrow 2
        { run := some { run1 with entry := { entry5 with node := 6 } } };
      isFurrow 2 ∧ s.working = true ∧ (s.furrow 2).run = some { run1 with entry := { entry5 with node := 6 } } ∧
        (s.runNode { run1 with entry := { entry5 with node := 6 } }).map (·.child) = some (some (5, 4)) ∧
        s.portOf 5 4 = some (3, portOf5 true)) := by
  have a : [1, 2, 3].all (fun fn => legalWord (encReg 0x11 0 1 2 fn)) = true := by decide
  exact ⟨⟨by decide, executes_core _ _ _ _ (by decide), by decide, by decide⟩, by decide,
    fun _ h _ _ => executes_core _ _ _ _ (List.all_eq_true.mp a _ h), by decide, by decide, by decide⟩

/-- A one-line NOP, and frame bytes that hold it at address 0. -/
def nopLine : Line := [1, 0x5000, 1, 0, 0, 0, 0, 0]

def nopFrame : List Host.Cell := [(0, 1), (9, 0x50), (16, 1)]

/-- A live handle of a NOP. -/
def nopHandle (res : Option (BitVec 8 × BitVec 16)) : Handle :=
  { num := 1, slot := 6, lines := [nopLine], cfg := [], issue := 4, res := res }

theorem test_witness_ChildrenOfACall :
    (areRegs 3 1 0 ∧
      (let r := { runAt0 [] [] with mem := nopFrame };
        Executes (coreRuns r (encReg 0x12 3 1 0 0) []) 2 0 r (encReg 0x12 3 1 0 0))) ∧
    (let r := { runAt0 [] [] with mem := nopFrame };
      let s := coreRuns r 0 [];
      s.node r.call = some callNode ∧ r.pred 0 = some none ∧ r.imageAt (r.reg 1).toNat = (0, [nopLine]) ∧
        s.childErrors r callNode.seq [nopLine] = none ∧ r.freeHandle = some 1 ∧ s.slotAvailable r.queue = true ∧
        s.freeSlot (halfOfQueue r.queue) = some 0) ∧
    (∀ fn ∈ [1, 2, 3, 4], ∀ res ∈ [none, some ((0 : BitVec 8), (1 : BitVec 16))],
      Executes (coreRuns (runAt0 (g1 1) [nopHandle res]) (encReg 0x12 3 1 0 fn) []) 2 0 (runAt0 (g1 1) [nopHandle res])
        (encReg 0x12 3 1 0 fn)) ∧
    (let h := nopHandle (some (0, 1));
      let r := runAt0 (g1 1) [h];
      r.handle (r.reg 1).toNat = some h ∧ h.res.isSome = true ∧
        (coreRuns r 0 []).childErrors r callNode.seq h.lines = none) := by
  have a : [1, 2, 3, 4].all (fun fn => legalWord (encReg 0x12 3 1 0 fn)) = true := by decide
  exact ⟨⟨by decide, executes_run _ _ _ rfl rfl rfl rfl (by decide)⟩, by decide,
    fun _ h _ _ => executes_core _ _ _ _ (List.all_eq_true.mp a _ h), by decide⟩

/-- An OBJREF of object 8 of this chip. -/
def ref8 : Word := BitVec.ofNat 64 (0x3FFF * 2 ^ 18 + 8)

theorem test_witness_HiveInstructions :
    (areRegs 3 1 2 ∧ ∀ fn ∈ [0, 1, 2, 8, 9, 10, 11, 12, 13],
      Executes (coreRuns (runAt0 (g1 ref8) []) (encReg 0x13 3 1 2 fn) []) 2 0 (runAt0 (g1 ref8) [])
        (encReg 0x13 3 1 2 fn)) ∧
    (∀ fn ∈ [16, 17],
      Executes (held ((coreRuns (runAt0 [(1, ref8), (2, 4)] []) (encReg 0x13 3 1 2 fn) []).setObj 8 (stileObj 1 0))) 2 0
        (runAt0 [(1, ref8), (2, 4)] []) (encReg 0x13 3 1 2 fn)) ∧
    (let r := runAt0 [(1, ref8), (2, 4)] [];
      let s := held (coreRuns r 0 []);
      HiveRun s r 1 8 callNode ∧ Holds s [hiveNeed 8 true] ∧ ¬ Holds (coreRuns r 0 []) [hiveNeed 8 true] ∧
        (s.obj 8).kind = 0) ∧
    ((stileObj 1 0).kind = 1 ∧ fld (4 : Word) 15 0 = (stileObj 1 0).round ∧
      (stileObj 1 0).arrived ≠ (stileObj 1 0).pminus1) := by
  have a : [0, 1, 2, 8, 9, 10, 11, 12, 13].all (fun fn => legalWord (encReg 0x13 3 1 2 fn)) = true := by decide
  have b : [16, 17].all (fun fn => legalWord (encReg 0x13 3 1 2 fn)) = true := by decide
  exact ⟨⟨by decide, fun _ h => executes_core _ _ _ _ (List.all_eq_true.mp a _ h)⟩,
    fun _ h => executes_hive (executes_core _ _ _ _ (List.all_eq_true.mp b _ h)) (by decide) rfl,
    ⟨⟨by decide, by decide, by decide, by decide, by decide, by decide⟩, by decide, by decide, by decide⟩, by decide⟩

theorem test_witness_SysFunctions :
    (areRegs 3 1 0 ∧ ∀ fn ∈ List.range 8,
      Executes (coreRuns (runAt0 [] []) (encReg 0x3F 3 1 0 fn) []) 2 0 (runAt0 [] []) (encReg 0x3F 3 1 0 fn)) ∧
    (coreRuns (runAt0 [] []) 0 []).node (runAt0 [] []).call = some callNode ∧
    (coreRuns (runAt0 [] []) 0 []).core 2 = { frames := [(0, .run (runAt0 [] []))], current := some 0 } := by
  have a : (List.range 8).all (fun fn => legalWord (encReg 0x3F 3 1 0 fn)) = true := by decide
  exact ⟨⟨by decide, fun _ h => executes_core _ _ _ _ (List.all_eq_true.mp a _ h)⟩, by decide, by decide⟩

/-- Chip 1 of the group of partition 2, of four chips, whose manager is chip `mgr`; the partition has objects 0-99. -/
def grouped (mgr : BitVec 14) : State :=
  { on with
    groups := [(2, { en := true, size := 4, mgr := mgr, num := 1 })]
    regs := { on.regs with hivepart := [(2, BitVec.ofNat 64 (100 * 2 ^ 22))] }
    fence := { on.fence with part := 2 } }

/-- A port word of a class: from chip 2 to chip 1 in partition 2. -/
def portWord (cls : Nat) : Word := BitVec.ofNat 64 (cls * 2 ^ 62 + 2 ^ 48 + 2 * 2 ^ 34 + 2 * 2 ^ 30)

/-- A hive message of a type and a RESULT, for object 8. -/
def msg (typ result op : Nat) (w1 : Word) : HiveFrame :=
  { port := portWord 0, header := BitVec.ofNat 64 (typ * 2 ^ 60 + result * 2 ^ 32 + 7)
    w0 := BitVec.ofNat 64 (op * 2 ^ 19 + 8), w1 := w1, w2 := 0 }

/-- A notice of a type and a fence type, with word 1. -/
def note (typ ftype : Nat) (n1 : Word) : Notice :=
  { port := portWord 1, n0 := BitVec.ofNat 64 (typ * 2 ^ 60 + ftype * 2 ^ 58), n1 := n1 }

/-- A remote operation with MSGID 7 of the sheaf at node slot 5. -/
def op7 (wait : Bool) (retry : Option Nat) : RemoteOp :=
  { msgid := 7, owner := .node 5, wait := wait, part := 2, chip := 2, obj := 8, ctx := 0
    frame := msg 0 0 0 0, retryDue := retry }

theorem test_witness_ReportsAndMessagesAct :
    (let w0 : Word := BitVec.ofNat 64 (2 * 2 ^ 19 + 8);
      let w2 : Word := BitVec.ofNat 64 (0x3FFF * 2 ^ 50);
      isFurrow 1 ∧ on.working = true ∧ fld w0 17 0 = 8 ∧ fld w0 21 19 < 3 ∧ on.reportStale w2 = false ∧
        on.inService (halfOfObj 8) = true ∧ on.reportTenant 8 w2 = true ∧ (on.obj 8).kind = 0 ∧
        on.engineOn = true ∧ on.hiveOn (halfOfObj 8) = true ∧ ¬ Holds on [hiveNeed 8 true] ∧
        (held on).reportTenant 8 w2 = true ∧ Holds (held on) [hiveNeed 8 true] ∧
        on.reportStale (w2 ||| 5 <<< 28) = true) ∧
    (∀ op ∈ [0, 1, 2], HiveArrives (grouped 0) (msg 0 0 op 3) 0 ∧ msgOp (msg 0 0 op 3) < 3) ∧
    (HiveArrives (grouped 0) (msg 2 0 5 3) 2 ∧ msgOp (msg 2 0 5 3) < 6) ∧
    HiveArrives (grouped 0) (msg 6 0 0 0) 6 ∧
    (AtObject (held (grouped 0)) (msg 0 0 0 3) 8 ∧ HiveArrives (held (grouped 0)) (msg 0 0 0 3) 0 ∧
      ((held (grouped 0)).obj 8).kind = 0) ∧
    (let x : Obj := { w0 := stileWord 4 3 0 0, w1 := signedBy 2 (rel opNop []) };
      let s := held ((grouped 0).setObj 8 x);
      HiveArrives s (msg 4 0 0 4) 4 ∧ AtObject s (msg 4 0 0 4) 8 ∧ (s.obj 8).kind = 2 ∧
        classifyArrival x (fld (msg 4 0 0 4).w1 15 0) (s.objWorker 8) =
          .counted { x with w0 := stileWord 4 3 1 0 } false false ∧
        HiveArrives s (msg 5 0 0 4) 5 ∧ (s.obj 8).round = fld (msg 5 0 0 4).w1 15 0 ∧ s.objWorker 8 = true ∧
        x.complete.arrived ≠ x.complete.pminus1 + 1) ∧
    (let d := { rel opSignal [] with phase := .hive };
      let s := { (grouped 0).setNode 5 (some d) with remoteOps := [op7 false none] };
      s.node 5 = some d ∧ d.phase = .hive ∧ HiveArrives s (msg 1 0 0 0) 1 ∧
        s.pendingOp (msg 1 0 0 0) false = some (op7 false none) ∧
        msgResult (msg 1 0 0 0) = 0 ∧ (s.waitersOf 8).any (fun w => decide (w.owner = .node 5)) = false) ∧
    (∀ r ∈ [0, 0xFF], let s := { grouped 0 with remoteOps := [op7 true none] };
      HiveArrives s (msg 3 r 0 0) 3 ∧ s.pendingOp (msg 3 r 0 0) true = some (op7 true none) ∧
        msgResult (msg 3 r 0 0) = r) ∧
    (let s := { grouped 0 with remoteOps := [op7 true (some 0)] };
      s.working = true ∧ s.remoteOps.find? (fun r => r.msgid == 7) = some (op7 true (some 0)) ∧
        (op7 true (some 0)).retryDue = some 0 ∧ 0 ≤ s.now) := by
  simp only [HiveArrives, AtObject]; and_intros <;> decide

theorem test_witness_NoticesEnterTheStaleTable :
    (NoticeArrives (grouped 0) (note 0 0 0) 0 ∧
      (grouped 0).stale.any (fun e => e.part == 2 && e.chip == 2 && e.kind == .chip 0) = false) ∧
    NoticeArrives (grouped 0) (note 1 0 0) 1 ∧
    (NoticeArrives (grouped 0) (note 2 0 0) 2 ∧ (grouped 0).stale.length < 512 ∧
      (grouped 0).staleCtx 2 2 0 0 0 = false) ∧
    (let e : Stale := { part := 2, chip := 2, kind := .chip 3, due := 0 };
      let s := { grouped 0 with stale := [e] };
      0 < 512 ∧ s.working = true ∧ s.stale[0]? = some e ∧ e.isFailed = false ∧ e.due ≤ s.now) := by
  simp only [NoticeArrives]; and_intros <;> decide

theorem test_witness_StepFenceFalls :
    (NoticeArrives (grouped 1) (note 3 0 1) 3 ∧ portPart (note 3 0 1).port = (grouped 1).fence.part.toNat ∧
      noticeFtype (note 3 0 1) = 0 ∧ (grouped 1).fenceManager = true) ∧
    (∀ ft ∈ [1, 2], NoticeArrives (grouped 0) (note 3 ft 1) 3 ∧
      portPart (note 3 ft 1).port = (grouped 0).fence.part.toNat ∧ noticeFtype (note 3 ft 1) = ft ∧
      (grouped 0).fenceManager = false ∧ noticeSeq (note 3 ft 1) = (grouped 0).fence.seq) ∧
    (on.working = true ∧ on.fenceManager = true ∧ on.fence.lastEdge = none ∧ on.fence.due = none) ∧
    ((grouped 1).fenceManager = true ∧ ((grouped 1).group (grouped 1).fence.part.toNat).en = true ∧
      (grouped 1).recov.safe = false) ∧
    (let s := { on with usec := 9, fence := { on.fence with lastEdge := some 0, due := some 9 } };
      s.working = true ∧ s.now < 0 + 10 ∧ s.fence.due = some 9 ∧ s.now ≤ 9 ∧ 9 ≤ s.now) := by
  simp only [NoticeArrives]; and_intros <;> decide

theorem test_witness_AFallOpensTheNextFence :
    ∀ mgr ∈ [(0 : BitVec 14), 1],
      let d := { rel opFence (argLine 1 0 0 0 0) with phase := .hive };
      let s := { (grouped mgr).setNode 5 (some d) with
        fence := { (grouped mgr).fence with openNodes := [5], arrived := 1 } };
      s.fence.openNodes = [5] ∧ s.fence.held = [] ∧ s.node 5 = some d ∧ d.phase = .hive ∧
        s.fenceManager = decide (mgr = 1) := by
  simp only [List.forall_mem_cons, List.not_mem_nil, false_imp_iff, implies_true, and_true]
  and_intros <;> decide

/-- HIVE line 2, whose home is half 0. -/
def line2 : CohLine := { table := .hive, index := 2 }

/-- Cache 2's view of line 2 is x, the directory's is d, and one message is in flight. -/
def cohState (x : ALine) (d : Dir) (net : List Msg) : State :=
  { (on.setAline 2 line2 x).setDir line2 d with net := net }

theorem test_witness_CoherenceRequests :
    (let s := cohState {} {} [];
      Coherent s 2 line2 ∧ s.Canonical ∧ s.net = [] ∧ (s.aline 2 line2).st = .i ∧ mayHold 2 line2 = true ∧
        mayWrite 2 line2 = true ∧ s.reservedUsed 2 (lineHome line2) < 2 ∧ s.dir line2 = {} ∧
        s.sharedUsed (lineHome line2) < 68) ∧
    (let s := cohState { st := .s } { st := .s [2] } [];
      Coherent s 2 line2 ∧ s.Canonical ∧ (s.aline 2 line2).st = .s ∧ s.dir line2 = { st := .s [2] }) ∧
    ((cohState {} { txn := some (.homeWrite [1]) } []).dir line2).txn.isSome = true ∧
    (∀ st ∈ [AState.s, .e, .m], let s := cohState { st := st } {} [];
      Coherent s 2 line2 ∧ (s.aline 2 line2).hold = false ∧ (s.aline 2 line2).st = st) ∧
    (∀ k ∈ [MsgKind.wbd, .wbc],
      let m : Msg := { src := 2, dst := homeEnd line2, line := line2, kind := k };
      let s := cohState { st := .mi } { st := .x 2 } [m];
      Coherent s 2 line2 ∧ s.dir line2 = { st := .x 2 } ∧ s.Canonical ∧
        takeMsg (fun m => m.src == 2 && m.line == line2 && m.kind == k) [] s.net = some (m, [])) ∧
    (∀ st ∈ [AState.ei, .mi],
      let m : Msg := { src := homeEnd line2, dst := 2, line := line2, kind := .wback };
      let s := cohState { st := st } {} [m];
      Coherent s 2 line2 ∧ (s.aline 2 line2).st = st ∧
        takeMsg (fun m => m.dst == 2 && m.line == line2 && m.kind == .wback) [] s.net = some (m, [])) := by
  simp only [Coherent, State.Canonical]; and_intros <;> decide

theorem test_witness_CoherenceAnswers :
    (∀ p ∈ [(AState.is, Grant.e), (.im, .m), (.sm, .m), (.is, .s)],
      let m : Msg := { src := homeEnd line2, dst := 2, line := line2, kind := .data p.2 };
      let s := cohState { st := p.1 } {} [m];
      Coherent s 2 line2 ∧ s.Canonical ∧ (s.aline 2 line2).st = p.1 ∧ (s.aline 2 line2).kept = [] ∧
        (s.aline 2 line2).hold = false ∧
        takeMsg (fun m => m.dst == 2 && m.line == line2 && m.kind.grant.isSome) [] s.net = some (m, [])) ∧
    (let m : Msg := { src := homeEnd line2, dst := 2, line := line2, kind := .gnt };
      let s := cohState { st := .sm } {} [m];
      Coherent s 2 line2 ∧ (s.aline 2 line2).st = .sm ∧
        takeMsg (fun m => m.dst == 2 && m.line == line2 && m.kind == .gnt) [] s.net = some (m, [])) ∧
    (let m : Msg := { src := homeEnd line2, dst := 2, line := line2, kind := .retry };
      let s := cohState { st := .is } {} [m];
      takeMsg (fun m => m.dst == 2 && m.line == line2 && m.kind == .retry) [] s.net = some (m, []) ∧
        (s.aline 2 line2).st.request = some .rds) ∧
    ((cohState { st := .e, hold := true } {} []).aline 2 line2).hold = true ∧
    (∀ st ∈ [AState.e, .m],
      let m : Msg := { src := homeEnd line2, dst := 2, line := line2, kind := .fwdS 3 };
      let x : Msg := { src := homeEnd line2, dst := 2, line := line2, kind := .fwdX 3 };
      let s := cohState { st := st } {} [m];
      let t := cohState { st := st } {} [x];
      Coherent s 2 line2 ∧ (s.aline 2 line2).st = st ∧
        takeMsg (fun m => m.dst == 2 && m.line == line2 && m.kind.isFwdS) [] s.net = some (m, []) ∧
        takeMsg (fun m => m.dst == 2 && m.line == line2 && m.kind.isFwdX) [] t.net = some (x, [])) ∧
    (let m : Msg := { src := homeEnd line2, dst := 2, line := line2, kind := .inv };
      let s := cohState { st := .s } {} [m];
      (s.aline 2 line2).st = .s ∧
        takeMsg (fun m => m.dst == 2 && m.line == line2 && m.kind == .inv) [] s.net = some (m, [])) ∧
    (∀ b ∈ [true, false],
      let m : Msg := { src := 2, dst := homeEnd line2, line := line2, kind := .fack true };
      let s := cohState {} { st := .x 2, txn := some (.forward 3 b false) } [m];
      Coherent s 2 line2 ∧ (s.dir line2).retry = [] ∧ (s.dir line2).freed = false ∧ s.Canonical ∧
        (s.dir line2).txn = some (.forward 3 b false) ∧
        takeMsg (fun m => m.src == 2 && m.line == line2 && (m.kind == .fack true || m.kind == .fack false)) [] s.net =
          some (m, [])) ∧
    (∀ left ∈ [[2], [2, 4]],
      let m : Msg := { src := 2, dst := homeEnd line2, line := line2, kind := .ack };
      let s := cohState {} { st := .s left, txn := some (.inval 3 false left false) } [m];
      Coherent s 2 line2 ∧ s.Canonical ∧ (s.dir line2).txn = some (.inval 3 false left false) ∧
        takeMsg (fun m => m.src == 2 && m.line == line2 && m.kind == .ack) [] s.net = some (m, [])) ∧
    (let l : CohLine := { table := .queue, index := 24 };
      let s := on.setDir l { st := .s [3] };
      isLine l ∧ s.homeUp l = true ∧ l.table = .queue ∧ s.Canonical ∧ s.dir l = { st := .s [3] }) ∧
    (let s := cohState {} { txn := some (.homeWrite [1]) } [];
      isLine line2 ∧ s.homeUp line2 = true ∧ (s.dir line2).txn.isSome = true) := by
  simp only [Coherent, State.Canonical]; and_intros <;> decide

theorem test_witness_ScrubReportsErrors : on.working = true ∧ on.allocated .auditStore = true := by decide

/-- An event of a source that names context 9. -/
def eventOf (cls : Machine.Class) : Event :=
  { source := srcCore 0 0, kind := kTrap, cls := cls, ctx := some (9, 0) }

theorem test_witness_BrokenWireMasksThePair :
    (sourceListed srcCollector = true ∧ on.power ≠ .off ∧ (on.source srcCollector).masked = false) ∧
    (let s := on.setSource (srcCore 0 0) { masked := true };
      (s.source (eventOf .note).source).masked = true ∧ (eventOf .note).kind ≠ kBrokenWire ∧
        sourceListed (eventOf .note).source = true) := by
  and_intros <;> decide

theorem test_witness_EventsAskForTheirAction :
    (∀ cls ∈ [Class.grave, .severe, .contain, .note],
      let e := eventOf cls;
      let s := live9 (rel opNop []);
      s.recov.safe = false ∧ (s.source e.source).masked = false ∧
        (s.source e.source).count s.now < (s.source e.source).n.toNat ∧ s.recov.window = false ∧
        s.recov.inprogress = false ∧ s.recov.request = none ∧ s.tears = [] ∧ e.cls = cls ∧ e.kind ≠ kCharge ∧
        e.ctx = some (9, 0) ∧ (s.ctx 9).state = .live) ∧
    ({ on with recov := { on.recov with safe := true } } : State).recov.safe = true := by
  and_intros <;> decide

theorem test_witness_MonitorsOfHangAndCharge :
    (∀ h ∈ [0, 1], isHalf h ∧ on.working = true ∧ on.chargeable h = true ∧ on.belief h = decide (0 = h) ∧
      on.belief h ≠ decide (1 = h)) ∧
    (on.working = true ∧ on.recov.mode = false ∧ on.recov.scanDue ≤ on.now) ∧
    (let s := { on with recov := { on.recov with snapshot := some [] } };
      s.recov.snapshot = some [] ∧ s.recov.suspects = []) ∧
    (let s := { on with recov := { on.recov with mode := true, armed := true, misses := 2 } };
      s.working = true ∧ s.recov.mode = true ∧ s.recov.armed = true ∧ s.recov.beatDue ≤ s.now ∧
        s.recov.misses + 1 = 3) := by
  and_intros <;> decide

/-- A Pliat whose compute reset a trigger has begun (R355). -/
def begun : State := { on with recov := { on.recov with
  request := some { cause := 0, recno := 0 }, inprogress := true, chipgen := 1, resetDue := 12000, dumpDue := 2500 } }

theorem test_witness_ComputeResetClears :
    (let s := { on with recov := { on.recov with inprogress := true, dumping := true } };
      s.recov.safe = false ∧ s.recov.inprogress = true ∧ s.recov.dumping = true ∧ s.recov.dumpDue ≤ s.now ∧
        s.recov.resetDue ≤ s.now) ∧
    (let s := { on with recov := { on.recov with inprogress := true } };
      s.recov.inprogress = true ∧ s.recov.dumping = false ∧ s.heldCmds = []) ∧
    (let s := { on with recov := { on.recov with window := true } };
      s.working = true ∧ s.recov.window = true ∧ s.recov.windowDue ≤ s.now) := by
  and_intros <;> decide

/-- A Pliat in factory test mode. -/
def factory : State := { on with fuses := { on.fuses with factory := true } }

theorem test_witness_FactoryTestModeGates :
    (131071 < 131072 ∧ on.fuses.factory = false ∧ on.power ≠ .off) ∧
    (factory.power ≠ .off ∧ factory.fuses.factory = true ∧ factory.recov.safe = false ∧ 0x100 ≤ 0x1FF ∧
      Tbl.wf (0 : Word) factory.fuses.words = true) := by
  and_intros <;> decide

theorem test_witness_HostAccessesAreServed :
    (on.working = true ∧ (∃ p, p < 12 ∧ (Instr.groupWrite 11 .whole 5, 0x10258) =
      (Instr.groupWrite p .whole 5, 0x10200 + 8 * p))) ∧
    (let s := { on with recov := { on.recov with inprogress := true } };
      s.power = .run ∧ s.recov.safe = false ∧ s.clocks.idle = .none ∧ s.recov.inprogress = true) ∧
    (let s := { on with recov := { on.recov with safe := true } }; s.power = .run ∧ s.recov.safe = true) ∧
    (let s := { on with regs := { on.regs with agreed := 1 } };
      let v : Word := 0x100806;
      isHalf 0 ∧ s.working = true ∧ s.Canonical ∧ s.regGated 0x20008 = false ∧ bit v 11 = true ∧
        s.clocks.pendfail = false ∧ s.bootOk 0 (v &&& 0xFFFFFFFFFFFFF41F) = true) ∧
    (isBreak 7 ∧ on.working = true ∧ ∀ r ∈ [LatchReg.scaledata0, .faultrec0, .auditdata0, .tracedata0],
      on.regGated (latchOffset r) = false) := by
  simp only [State.Canonical]
  refine ⟨⟨by decide, 11, by decide, rfl⟩, by decide, by decide, ?_, by decide⟩
  and_intros <;> decide

theorem test_witness_RegisterRulesWrite :
    (let v : Word := BitVec.ofNat 64 (100 * 2 ^ 22);
      Tbl.wf (0 : Word) on.regs.hivepart = true ∧ fld v 17 0 + fld v 40 22 ≤ 262144 ∧
        on.hiveClash 2 (fld v 17 0) (fld v 40 22) = false ∧ on.partCtxs 2 = []) ∧
    (let v : Word := BitVec.ofNat 64 (262143 + 2 * 2 ^ 22);
      (fld v 17 0, fld v 40 22) ≠ on.hiveRange 2 ∧ 262144 < fld v 17 0 + fld v 40 22) ∧
    (on.onlyBoot = true ∧ fld (2 : Word) 15 0 ≠ 0 ∧ on.regs.groupchips.toNat ≠ fld (0 : Word) 15 0) ∧
    (let s := { on with fence := { on.fence with en := true, openNodes := [5], arrived := 1 } };
      s.fenceWaits = true ∧ fld (BitVec.ofNat 64 (3 * 2 ^ 48) : Word) 51 48 ≠ s.fence.part.toNat) ∧
    (let s := { on with clocks := State.reset.clocks };
      s.inService 0 = true ∧ s.enabled 0 = false) := by
  and_intros <;> decide

theorem test_witness_PowerUpSequence :
    (State.reset.power = .off ∧ State.reset.fuses.blown = false) ∧
    (∀ good ∈ [0, 62, 63], ({ State.reset with power := .stability good } : State).power = .stability good) ∧
    (1567 < 1568 ∧ 1568 ≤ 1632 ∧ 1632 < 1633) ∧
    (let s := { State.reset with power := .init };
      s.power = .init ∧ (∀ p ∈ (some srcCollector : Option Nat), sourceListed p = true) ∧ s.heldCmds = []) := by
  and_intros <;> decide

/-- A running Pliat whose trim loop is in a state, with three good gates. -/
def trimmed3 (st : TrimState) : State := { on with trim := { on.trim with state := st, good := 3 } }

theorem test_witness_ClocksFollowTheirReference :
    (∀ st ∈ [TrimState.acquire, .locked], (trimmed3 st).power = .run ∧ (trimmed3 st).trim.refLost = false ∧
      (trimmed3 st).trim.ref ≠ 2 ∧ (trimmed3 st).trim.waiting = none ∧ 3 ≤ (trimmed3 st).trim.good ∧
      (trimmed3 st).trim.state = st) ∧
    (((1600800 : Nat) : Int) - 1600000).natAbs ≤ 800 ∧
    (let s := { on with trim := { on.trim with refLost := true } };
      s.trim.refLost = true ∧ s.trim.state = .untrimmed) ∧
    (let s := { on with trim := { on.trim with state := .holdover } };
      s.trim.state = .holdover ∧ s.trim.holdDue ≤ s.now) ∧
    on.power ≠ .off := by
  and_intros <;> decide

theorem test_witness_IdleStatesAndMonitors :
    (let s := { on with recov := { on.recov with scans := 2 } }; s.mayIdle = true ∧ s.idleChoice ≠ .none) ∧
    (let s := { on with clocks := { on.clocks with idle := .nap, waking := true } };
      s.clocks.idle ≠ .none ∧ s.clocks.waking = true ∧ s.heldCmds = []) ∧
    (let s := { on with usec := 60, regs := { on.regs with lendEn := true } }; 191 < 192 ∧ s.working = true ∧
      s.lendableNow 0 = true) ∧
    (1 < 576 ∧ on.power ≠ .off ∧ on.furrowPresent 1 = true) ∧
    Tbl.wf (0 : Word) on.life.image = true ∧ (isFurrow 2 ∧ 2 ≤ kindOfFurrow 2 ∧ on.working = true) := by
  and_intros <;> decide

/-- A sideband frame of a type with SEQ 0, without payload. -/
def frameOf (typ : Nat) : SidebandFrame := sbFrame (sbHeader typ 0 0 0 0) []

theorem test_witness_LifetimeImageTravels :
    (on.power ≠ .off ∧ on.life.flushDue ≤ on.now) ∧
    (∀ line ∈ [1, 267, 0],
      let s := { on with life := { on.life with sideband := .flush line } };
      s.life.sideband = .flush line ∧ s.life.waiting = false ∧ line ≤ 267) ∧
    (let s := { on with life := { on.life with sideband := .flush 0 } };
      s.life.request.isSome = true ∧ ∀ typ ∈ [2, 3, 4], Answers s (frameOf typ) typ) ∧
    (sbSound (frameOf 5) = true ∧ sbType (frameOf 5) = 5) := by
  simp only [Answers]; and_intros <;> decide +kernel

theorem test_witness_PlaliveStopsOnlyInTheSafeState :
    State.reset.power = .off ∧
    (let s := { State.reset with power := .init }; s.power = .init ∧ s.heldCmds = [] ∧ s.recov.safe = false) ∧
    (on.power = .run ∧ on.plaliveOn = true ∧ on.aliveDue ≤ on.now) ∧ step on = .next on.idleTick ∧
    (let s := { on with recov := { on.recov with safe := true }, plaliveOn := false, plfault := true };
      s.recov.safe = true ∧ s.plaliveOn = false ∧ s.plfault = true ∧ step s = .next s.idleTick) := by
  refine ⟨by decide, by decide, by decide, rfl, by decide, by decide, by decide, rfl⟩

theorem test_witness_StepKeepsTablesCanonical : on.Canonical ∧ step on = .next on.idleTick := by
  refine ⟨?_, rfl⟩
  unfold State.Canonical
  decide

theorem test_witness_CommandsComplete : Sound { on with pending := [.linkClockLoss, .dumpTimeout] } := by
  intro c hc
  simp only [List.mem_cons, List.not_mem_nil, or_false] at hc
  rcases hc with rfl | rfl <;> simp [WellFormed]

theorem test_witness_StepKeepsTrimSound :
    TrimSound (trimmed3 .locked) ∧ step (trimmed3 .locked) = .next (trimmed3 .locked).idleTick := by
  refine ⟨⟨by decide, by decide, ?_⟩, rfl⟩
  intro _ _ h
  cases h

theorem test_witness_SafeStateKeepsTheWork :
    let s := { on with recov := { on.recov with safe := true } };
    s.power = .run ∧ s.recov.safe = true ∧ Instr.brokenWire srcCollector true ≠ .powerRemoval := by
  and_intros <;> decide

theorem test_witness_WithoutPowerNothingHappens :
    State.reset.power = .off ∧ (∀ b, Instr.idleWake ≠ .powerUp b) ∧ Instr.idleWake ≠ .powerRemoval ∧
      exec .idleWake State.reset = .next State.reset := by
  and_intros
  · decide
  · intro b h; cases h
  · decide
  · rfl

/-! ## Witnesses of the further clauses -/

theorem test_witness_GrantReadsRingLines_stale :
    (let s := on.setQueue 3 { queueOf .active with reading := 2, tailSeen := 8 };
      isQueue 3 ∧ s.working = true ∧ s.qstate 3 = .active ∧ 0 < [[(0 : Word)]].length ∧
        [[(0 : Word)]].length ≤ (s.queue 3).reading) ∧
    ({ ctx := some (0, 1), chipgen := 0 } : Stamp) ≠ on.stampOf (on.queue 3).ctx (on.ctx (on.queue 3).ctx).gen := by
  and_intros <;> decide

/-- Queue 2048 BUSY, with the sheaf of sequence number 9 withdrawn at order stamp 3. -/
def withdrawn9 : Queue :=
  { queueOf .busy with record := [(9, some { zero := true, tag := 0, status := stWithdrawn, stamp := 3 })] }

theorem test_witness_SheavesAreReleased_registrations :
    (((holds (edged .unregistered)).queue 2048).state = .free) ∧
    WithdrawnSince ((holds (edged .unregistered)).setQueue 2048 withdrawn9) 2048 9 (edged .unregistered) ∧
    (((holds (edged .unregistered)).setQueue 2048 (queueOf .active)).queue 2048).state ≠ .free ∧
    ¬ WithdrawnSince ((holds (edged .unregistered)).setQueue 2048 (queueOf .active)) 2048 9 (edged .unregistered) :=
  ⟨by decide, ⟨by decide, _, rfl, by decide, by decide⟩, by decide, fun h => absurd h.1 (by decide)⟩

theorem test_witness_FenceStepArrives_counts :
    let d := rel opFence (argLine 1 0 0 0 0);
    let s := { holds d with fence := { on.fence with en := true } };
    (Kernel s 5 d opFence 1 ∧ s.fence.en = true ∧ isSystem d.ctx = true ∧ s.holderActs = true ∧
      (s.ctx d.ctx).drain = 0) ∧
    (let t := s.setCtx 0 { state := .live, drain := 1 };
      Kernel t 5 d opFence 1 ∧ t.fence.en = true ∧ (t.ctx d.ctx).drain ≠ 0) ∧
    (Kernel (holds d) 5 d opFence 1 ∧ (holds d).fence.en = false) := by
  simp only [Kernel, Released]; and_intros <;> decide

theorem test_witness_BranchDeadlineIsEvaluated_limit :
    let d := nodeOf (sheaf opBranch 0x105000 1 (argLine 0 0 0 0 0)) .branch
    let s := (holds d).setQueue 0 { queueOf .active with nextSeq := 1, deadline := 100, origin := some 0 }
    isNode 5 ∧ s.working = true ∧ s.node 5 = some d ∧ d.phase = .branch ∧
      d.seq.toNat + fld (aw d.lines 0) 31 16 < (s.queue d.queue).nextSeq.toNat ∧ (s.deadlineLimit d).isSome = true := by
  and_intros <;> decide

theorem test_witness_ScaleReportsAreRecorded_owner :
    (on.setSlot 9 slot9).slotOwned 0 9 = true ∧ on.slotOwned 0 9 = false ∧
    ((on.setCtx 9 { state := .live, part := 2 }).setSlot 9 { slot9 with bound := some 9 }).slotOwned 0 9 = false := by
  and_intros <;> decide

/-- A preload of node slot 5 with so many lines to carry. -/
def bank (left : Nat) : Shadow := { entry := entry5, loaded := false, parked := false, left := left }

theorem test_witness_PreloadFillsTheShadowBank_errors :
    (let s := (holds (start1 .furrow)).setFurrow 1 { entries := [entry5], shadow := some (bank 0) };
      s.working = true ∧ (s.furrow 1).shadow = some (bank 0) ∧ (bank 0).loaded = false ∧ (bank 0).left = 0 ∧
        s.node (bank 0).entry.node = some (start1 .furrow) ∧ s.errorFits 1 entry5 (start1 .furrow) .nodeSlot = true ∧
        s.errorFits 1 entry5 (start1 .furrow) (.descriptor 0) = true ∧ s.server 1 = (start1 .furrow).half) ∧
    (let s := (holds (start1 .furrow)).setFurrow 1 { entries := [entry5], shadow := some (bank 1) };
      (s.carryTo 1 20000).isSome = true) ∧
    (let s := ((holds (start1 .furrow)).setFurrow 1 { entries := [entry5], shadow := some (bank 3) }).setFurrow 2
        { shadow := some (bank 0) };
      (bank 3).left ≠ 0 ∧ Tbl.wf {} s.furrows = true ∧ (s.furrow 2).shadow = some (bank 0) ∧
        fabricPort 2 = fabricPort 1) ∧
    (let s := { on with charge := { on.charge with inService1 := false } }; s.inService 1 = false) := by
  and_intros <;> decide

/-- A START of FMT 0 with REPEAT 3, on furrow 1. -/
def start0 (ph : Phase) : Node := { nodeOf (sheaf opStart 0x101001 3 []) ph with fmt := 0 }

theorem test_witness_CycleBudgetHoldsAndReleases :
    (let sh : Shadow := { bank 0 with loaded := true };
      let s := (holds (start0 .furrow)).setFurrow 1 { entries := [entry5], shadow := some sh };
      let t := s.setQueue 0 { queueOf .active with cycHold := true };
      s.working = true ∧ s.Canonical ∧ (s.furrow 1).run = none ∧ (s.furrow 1).shadow = some sh ∧
        s.node sh.entry.node = some (start0 .furrow) ∧ (start0 .furrow).fmt = 0 ∧
        s.canStart (s.furrow 1) sh (start0 .furrow) = true ∧ sh.entry.member = none ∧ sh.entry.measure = false ∧
        (start0 .furrow).child = none ∧
        (t.queue (start0 .furrow).queue).cycHold = true ∧ t.cycVoid (start0 .furrow) = false) ∧
    (let r : EngineRun := { entry := entry5, abort := none, acc16 := true, iter := 1, held := true };
      let s := runs { start0 .running with iter := 1 } r;
      let t := s.setQueue 0 { queueOf .active with cycHold := true };
      s.working = true ∧ s.Canonical ∧ (s.furrow 1).run = some r ∧ r.held = true ∧ r.abort = none ∧
        s.node r.entry.node = some { start0 .running with iter := 1 } ∧ (s.queue 0).cycHold = false ∧
        (t.queue 0).cycHold = true) := by
  simp only [State.Canonical]; and_intros <;> decide

theorem test_witness_TokensLandInTheirStore :
    (on.engineOn = true ∧ on.furrowPresent 1 = true ∧ (on.ctx 0).gen = 0 ∧
      (on.furrow 1).addTok 0 0 7 = some { tokens := [{ ctx := 0, gen := 0, value := 7, count := 1 }] }) ∧
    ((0 : BitVec 8) = on.recov.chipgen ∧ (1 : BitVec 8) ≠ on.recov.chipgen) ∧
    (let s := on.setFurrow 1 { tokens := [{ ctx := 0, gen := 0, value := 7, count := 65535 }] };
      s.working = true ∧ s.engineOn = true ∧ (s.furrow 1).addTok 0 0 7 = none) ∧
    (let s := { on with fuses := { on.fuses with t6 := true } };
      isFurrow 400 ∧ s.engineOn = true ∧ (s.ctx 0).gen = 0 ∧ s.furrowPresent 400 = false) ∧
    (on.ctx 0).gen ≠ 5 := by
  and_intros <;> decide

/-- A report of the run of node slot 5's sheaf. -/
def report5 : EngineReport where
  stamp := { ctx := some (0, 0), chipgen := 0 }
  maxexp := some 4
  clipped := 0
  memread := 1
  memwrite := 2
  linksent := 0
  energy := 3
  writes := 1
  ecc := false

theorem test_witness_CommitsCount_report :
    report5.ecc = false ∧ report5.stamp = (runs (start1 .running) run1).runStamp run1 ∧
      (start1 .committed).phase = .committed := by
  and_intros <;> decide

theorem test_witness_SaturationRestartsWide_records :
    (start1 .running).satRecorded = false ∧ ({ start1 .running with satRecorded := true }).satRecorded = true ∧
      on.fresh report5.stamp = true ∧ on.fresh { ctx := some (0, 1), chipgen := 0 } = false ∧
      ((runs (start1 .running) run1).queue 0).recFull = false ∧
      (((runs (start1 .running) run1).setQueue 0 { queueOf .active with recWritten := 64 }).queue 0).recFull = true := by
  and_intros <;> decide

theorem test_witness_QueueTimeoutEndsOrReports_phases :
    (let d := { start1 .admission with timer := some 0, furrow := some 1 };
      (holds d).Canonical ∧ (holds d).node 5 = some d ∧ d.phase = .admission ∧ d.furrow = some 1) ∧
    (let d := { rel opWait (hiveArg 0 8 0 1) with phase := .hive, timer := some 0 };
      (holds d).Canonical ∧ (holds d).node 5 = some d ∧ d.phase = .hive ∧ hOp d.lines ≠ opFence) := by
  simp only [State.Canonical]; and_intros <;> decide

/-- An ARG line that names object 8 of chip 2. -/
def farArg (sub : Nat) : Line := [BitVec.ofNat 64 (2 + sub * 256 + (2 * 2 ^ 18 + 8) * 2 ^ 16), 1, 0, 0, 0, 0, 0, 0]

theorem test_witness_RemoteOperationsAreSent :
    (∀ op ∈ [opSignal, opWait, opStile], ∀ sub ∈ [0, 1, 2],
      let d := { rel op (farArg sub) with ctx := 9 };
      let s := { (holds d).setCtx 9 { state := .live, part := 2 } with
        groups := [(2, { en := true, size := 4, mgr := 0, num := 1 })] };
      Kernel s 5 d op sub ∧ s.chipLocal d.ctx (refChip (aObjref d.lines)) = false ∧
        s.unreachable d.ctx (refChip (aObjref d.lines)) = false ∧ (s.obj (refObj (aObjref d.lines))).kind ≠ 3) ∧
    (∀ op ∈ [opSignal, opWait, opStile], ∀ sub ∈ [0, 1, 2],
      let d := rel op (farArg sub);
      Kernel (holds d) 5 d op sub ∧ (holds d).chipLocal d.ctx (refChip (aObjref d.lines)) = false ∧
        (holds d).unreachable d.ctx (refChip (aObjref d.lines)) = true) := by
  simp only [Kernel, Released]; and_intros <;> decide

theorem test_witness_QctlDestroy_again :
    let d := kern opQctl (argLine 1 (4 * 65536) 0 0 0)
    let s := (holds d).setQueue 4 (queueOf .busy)
    Kernel s 5 d opQctl 1 ∧ s.qstate 4 = .busy ∧ fld (aw d.lines 0) 27 16 = 4 := by
  simp only [Kernel, Released]; and_intros <;> decide

theorem test_witness_LoadroutineFillsTheSlot :
    (∀ n ∈ [0, 16, 8192],
      let d := kern opLoadroutine (argLine 64 (n * 65536) 0x1000 0 0);
      let s := { holds d with regs := { on.regs with kcmden := 7 } };
      Released s 5 d opLoadroutine ∧ s.holderActs = true ∧ bit s.regs.kcmden 0 = true ∧
        fld (aw d.lines 0) 31 16 = n ∧ n ≤ 8192 ∧ pagesFor n ≤ (s.loadPages (aSub d.lines)).length) ∧
    (let d := { kernWaits opLoadroutine (argLine 64 (16 * 65536) 0x1000 0 0) with reading := 1 };
      let s := { holds d with routines := [(64, { loading := [(5, [2])] })] };
      (s.ctx d.ctx).gen = d.gen ∧ (s.rslot (aSub d.lines)).loading.any (fun e => e.1 == 5) = true ∧
        [[(0 : Word)]].length = d.reading ∧ 0 < d.reading ∧ s.Canonical) := by
  simp only [Released, State.Canonical]; and_intros <;> decide

theorem test_witness_ConsentIsNeeded :
    let barred := fun (d : Node) => ({ holds d with charge := { on.charge with barred0 := true } } : State)
    (let d := rel opNop []; (holds d).holderActs = true ∧ (holds d).regs.kcmden = 0 ∧ (barred d).holderActs = false) ∧
    (let d := kern opLoadroutine (argLine 64 0 0 0 0); Released (holds d) 5 d opLoadroutine ∧
      Released (barred d) 5 d opLoadroutine) ∧
    (∀ sub ∈ [0, 1], ∀ op ∈ [opPartctl, opFaultctl, opTally],
      let d := kern op (argLine sub 0 0 0 0); Kernel (holds d) 5 d op sub ∧ Kernel (barred d) 5 d op sub ∧
        aw d.lines 1 = 0 ∧ (holds d).recov.tallyValid = false) := by
  simp only [Kernel, Released]; and_intros <;> decide

theorem test_witness_ContextsDrainToFree_queues :
    (∀ acks ∈ [[601], [600, 601]], let s := on.setQueue 3 { queueOf .busy with acks := acks };
      isQueue 3 ∧ isPort 601 ∧ s.working = true ∧ (s.queue 3).state = .busy ∧ (s.queue 3).acks.contains 601 = true ∧
        (s.furrow 601).run = none) ∧
    (on.memOn = true ∧ (on.ctx 9).drain = 0 ∧ (0 : BitVec 8) = on.recov.chipgen ∧ (1 : BitVec 8) ≠ on.recov.chipgen) ∧
    on.engineOn = true := by
  and_intros <;> decide

theorem test_witness_BlockTransfersMoveLines_traps :
    (∀ lines ∈ [1, 64], ∀ fn ∈ [0, 1], ∀ g ∈ [[(2, (0x7DC8 : Word))], [(1, 3)], [(2, 3)], [(2, 0x7E00)]],
      Executes (coreRuns (runAt0 g []) (encReg 0x0F 0 1 2 (fn + 32 * (lines - 1))) []) 2 0 (runAt0 g [])
        (encReg 0x0F 0 1 2 (fn + 32 * (lines - 1)))) ∧
    (∀ g ∈ [[(2, (0x7DC8 : Word))], [(1, 3)], [(2, 3)], [(2, 0x7E00)]],
      0x7E00 < ((runAt0 g []).reg 2).toNat + 64 * 1 ∨ ((runAt0 g []).reg 1).toNat % 64 ≠ 0 ∨
        ((runAt0 g []).reg 2).toNat % 64 ≠ 0) ∧
    (let x : Transfer := { fill := false, frame := 64, lines := 1, addr := 0 };
      let r := { runOf 0 [] with st := .block, xfer := some x };
      let s := coreRuns r 0 [];
      s.runAt 2 0 = some r ∧ s.callLive r = true ∧ r.xfer = some x ∧ x.fill = false ∧
        ({ ctx := some (0, 1), chipgen := 0 } : Stamp) ≠ s.stampOf r.ctx r.gen) := by
  have a : ∀ lines ∈ [1, 64], ∀ fn ∈ [0, 1], legalWord (encReg 0x0F 0 1 2 (fn + 32 * (lines - 1))) = true := by
    decide
  exact ⟨fun _ h _ g _ _ => executes_core _ _ _ _ (a _ h _ g), by decide, by decide⟩

theorem test_witness_TableAccesses_lines :
    let r := runAt0 (g1 0x0000010000000008) [handle1 none]
    let s := coreRuns r (encReg 0x10 0 1 2 1) []
    let agent := s.coreAgent 2
    let t := s.setAline agent (descLine 6 0) { st := .m }
    Executes s 2 0 r (encReg 0x10 0 1 2 1) ∧ State.tableTarget r (r.reg 1) = some (handle1 none, 0, 1) ∧
      (handle1 none).slot = 6 ∧ s.writable agent (descLine 6 0) = false ∧
      t.writable agent (descLine 6 0) = true ∧
      (let r' := runAt0 (g1 0x1000000000000008) [];
        (coreRuns r' 0 []).readable agent { table := .hive, index := 2 } = false) := by
  refine ⟨executes_core _ _ _ _ (by decide), ?_⟩
  decide

/-- A port that ends, that is full before its start, and that has no credit. -/
def portEnded : Port := { portOf5 true with ended := true }
def portFull : Port := { portOf5 false with prefill := List.replicate 32 (some 3) }
def portSpent : Port := { portOf5 true with credits := 0 }

theorem test_witness_StreamsCarryEntries_blocked :
    (∀ fn ∈ [1, 2, 3], ∀ p ∈ [portEnded, portFull, portSpent],
      Executes (coreRuns (runAt0 (g1 3) []) (encReg 0x11 0 1 2 fn) [(3, some p)]) 2 0 (runAt0 (g1 3) [])
        (encReg 0x11 0 1 2 fn)) ∧
    (∀ p ∈ [portEnded, portFull, portSpent],
      (coreRuns (runAt0 (g1 3) []) 0 [(3, some p)]).runPort 2 (runAt0 (g1 3) []) 1 = some (3, p)) ∧
    portEnded.ended = true ∧ 32 ≤ portFull.prefill.length ∧ portSpent.credits = 0 ∧
    (let p := { portOf5 true with line := List.replicate 7 (some 1) };
      (coreRuns (runAt0 (g1 3) []) 0 [(3, some p)]).runPort 2 (runAt0 (g1 3) []) 1 = some (3, p) ∧
        p.line.length = 7) := by
  have a : [1, 2, 3].all (fun fn => legalWord (encReg 0x11 0 1 2 fn)) = true := by decide
  exact ⟨fun _ h _ _ => executes_core _ _ _ _ (List.all_eq_true.mp a _ h), by decide, by decide, by decide, by decide,
    by decide⟩

theorem test_witness_ChildrenOfACall_traps :
    (∀ fn ∈ [0, 1, 2, 3, 4], ∀ g ∈ [[], [(1, (1 : Word))], [(2, 9)]],
      Executes (coreRuns (runAt0 g []) (encReg 0x12 3 1 2 fn) []) 2 0 (runAt0 g []) (encReg 0x12 3 1 2 fn)) ∧
    (let r := runAt0 [(2, 9)] []; r.reg 2 ≠ 0 ∧ r.handle (r.reg 2).toNat = none) ∧
    (let r := runAt0 [(1, 1)] []; r.handle (r.reg 1).toNat = none ∧ (r.imageAt (r.reg 1).toNat).1 ≠ 0) ∧
    (let r := { runAt0 [] [] with mem := (4, 9) :: nopFrame.take 1 };
      let s := coreRuns r (encReg 0x12 3 1 0 0) [];
      Executes s 2 0 r (encReg 0x12 3 1 0 0) ∧ (r.imageAt (r.reg 1).toNat).1 = 0 ∧
        (s.childErrors r callNode.seq (r.imageAt (r.reg 1).toNat).2).isSome = true) ∧
    (let full := { runAt0 [] [] with
        mem := nopFrame, handles := (List.range 256).map fun i => { nopHandle none with num := i } };
      full.pred 0 = some none ∧ (coreRuns full 0 []).mayIssue full 1 = false) ∧
    (let h := nopHandle none; let r := runAt0 (g1 1) [h]; r.handle (r.reg 1).toNat = some h ∧ h.res = none) := by
  have a : [0, 1, 2, 3, 4].all (fun fn => legalWord (encReg 0x12 3 1 2 fn)) = true := by decide
  exact ⟨fun _ h _ _ => executes_core _ _ _ _ (List.all_eq_true.mp a _ h), by decide, by decide,
    ⟨executes_run _ _ _ rfl rfl rfl rfl (by decide), by decide⟩, by decide +kernel, by decide⟩

theorem test_witness_HiveInstructions_completes :
    (∀ fn ∈ [16, 17],
      Executes (held ((coreRuns (runAt0 [(1, ref8), (2, 4)] []) (encReg 0x13 3 1 2 fn) []).setObj 8 (stileObj 1 1))) 2 0
        (runAt0 [(1, ref8), (2, 4)] []) (encReg 0x13 3 1 2 fn)) ∧
    (stileObj 1 1).kind = 1 ∧ fld (4 : Word) 15 0 = (stileObj 1 1).round ∧
      (stileObj 1 1).arrived = (stileObj 1 1).pminus1 := by
  have b : [16, 17].all (fun fn => legalWord (encReg 0x13 3 1 2 fn)) = true := by decide
  exact ⟨fun _ h => executes_hive (executes_core _ _ _ _ (List.all_eq_true.mp b _ h)) (by decide) rfl, by decide⟩

theorem test_witness_HiveInstructionsEnd :
    (∀ k ∈ [(0, 0, 0, 4), (1, 0, 0, 5), (1, 0, 1, 5), (1, 0, 0, 6), (2, 0, 0, 4), (2, 1, 0, 4), (3, 0, 0, 4)],
      let r := runAt0 [(1, ref8), (2, BitVec.ofNat 64 k.2.2.2)] [];
      let s := held ((coreRuns r 0 []).setObj 8 (objOf k.1 1 k.2.1 k.2.2.1));
      HiveRun s r 1 8 callNode ∧ Holds s [hiveNeed 8 true] ∧ (s.obj 8).kind = k.1 ∧ (s.obj 8).arrived = k.2.1 ∧
        (s.obj 8).next = k.2.2.1 ∧ (s.obj 8).pminus1 = 1 ∧ s.objWorker 8 = false ∧
        (fld (r.reg 2) 15 0 + 65536 - (s.obj 8).round) % 65536 = k.2.2.2 - 4) ∧
    (∀ fn ∈ [0, 1, 2, 8, 9, 10, 11, 12, 13, 16, 17], ∀ k ∈ [(0, 0, 0), (1, 0, 1), (2, 1, 0), (3, 0, 0)],
      Executes (held ((coreRuns (runAt0 [(1, ref8), (2, 4)] []) (encReg 0x13 3 1 2 fn) []).setObj 8
        (objOf k.1 1 k.2.1 k.2.2))) 2 0 (runAt0 [(1, ref8), (2, 4)] []) (encReg 0x13 3 1 2 fn)) ∧
    (let r := { runAt0 [(1, BitVec.ofNat 64 (0x3FFF * 2 ^ 18 + 9000))] [] with ctx := 9 };
      let s := coreRuns r 0 [];
      s.node r.call = some callNode ∧ r.reg 1 = BitVec.ofNat 64 (fld (r.reg 1) 31 0) ∧
        s.chipLocal r.ctx (refChip (fld (r.reg 1) 31 0)) = true ∧ refObj (fld (r.reg 1) 31 0) = 9000 ∧
        s.inService (halfOfObj 9000) = true ∧ s.objAllowed r.ctx 9000 = false) ∧
    fld ((runAt0 [(1, 0x100000000)] []).reg 1) 63 32 ≠ 0 := by
  have b : [0, 1, 2, 8, 9, 10, 11, 12, 13, 16, 17].all (fun fn => legalWord (encReg 0x13 3 1 2 fn)) = true := by
    decide
  refine ⟨?_, fun _ h _ _ => executes_hive (executes_core _ _ _ _ (List.all_eq_true.mp b _ h)) (by decide) rfl,
    by decide, by decide⟩
  simp only [HiveRun]
  decide

theorem test_witness_SysFunctions_ports :
    (∀ e ∈ ((coreRuns (runAt0 [] []) 0 []).core 2).ports, ∀ p : Port, e.2 = some p → p.call = 5 → p.dead = false →
      (if p.started = true then p.line else p.prefill) = []) ∧
    (∃ e ∈ ((coreRuns (runAt0 [] []) 0 [(3, some portFull)]).core 2).ports, ∃ p : Port, e.2 = some p ∧ p.call = 5 ∧
      p.dead = false ∧ (if p.started = true then p.line else p.prefill) ≠ []) :=
  ⟨by decide, (3, some portFull), by decide, portFull, rfl, by decide, by decide, by decide⟩

/-- A hive message of partition 3, in which object 8 does not lie. -/
def foreignMsg (typ op : Nat) : HiveFrame :=
  { msg typ 0 op 3 with port := BitVec.ofNat 64 (2 ^ 48 + 2 * 2 ^ 34 + 3 * 2 ^ 30) }

/-- A Pliat of two groups, of partitions 2 and 3. -/
def grouped2 : State :=
  { grouped 0 with groups := (grouped 0).groups ++ [(3, { en := true, size := 4, mgr := 0, num := 1 })] }

theorem test_witness_HiveMessagesAct_answers :
    (let s := held ((grouped 0).setObj 8 (stileObj 1 0));
      HiveArrives s (msg 0 0 0 3) 0 ∧ AtObject s (msg 0 0 0 3) 8 ∧ msgOp (msg 0 0 0 3) < 3 ∧ (s.obj 8).kind ≠ 0) ∧
    (∀ typ ∈ [0, 2, 4], HiveArrives grouped2 (foreignMsg typ 0) typ ∧ msgObj (foreignMsg typ 0) = 8 ∧
      grouped2.inService (halfOfObj 8) = true ∧ grouped2.objPart 8 ≠ some (portPart (foreignMsg typ 0).port)) ∧
    (AtObject (held (grouped 0)) (msg 2 0 5 3) 8 ∧ HiveArrives (held (grouped 0)) (msg 2 0 5 3) 2 ∧
      ((grouped 0).obj 8).kind ≠ 3) := by
  simp only [HiveArrives, AtObject]; and_intros <;> decide

theorem test_witness_NoticesEnterTheStaleTable_again :
    (let s := { grouped 0 with stale := [{ part := 2, chip := 2, kind := .chip 0, due := 9 }] };
      NoticeArrives s (note 0 0 0) 0 ∧ s.stale.any (fun e => e.part == 2 && e.chip == 2 && e.kind == .chip 0) = true) ∧
    (grouped 0).Canonical := by
  simp only [NoticeArrives, State.Canonical]; and_intros <;> decide

theorem test_witness_StepsyncFiresTheFence :
    (let s := { on with usec := 9, fence := { on.fence with lastEdge := some 0 } };
      s.fenceManager = true ∧ s.fence.lastEdge = some 0 ∧ s.now < 0 + 10) ∧
    (let s := { on with usec := 20, fence := { on.fence with lastEdge := some 0, due := some 25 } };
      s.fenceManager = true ∧ s.fence.lastEdge = some 0 ∧ 0 + 10 ≤ s.now ∧ s.fence.due = some 25 ∧ s.now ≤ 25) := by
  and_intros <;> decide

theorem test_witness_RequestsReachTheHome_busy :
    (let s := cohState {} { txn := some (.store 4 0) } [];
      (s.dir line2).txn.isSome = true ∧ s.reservedUsed 2 (lineHome line2) < 2) ∧
    (let s := (cohState {} { retry := [(2, .rds, false)] } []).setDir { line2 with index := 3 }
        { retry := [(2, .rds, false)] };
      (s.dir line2).retry ≠ [] ∧ 2 ≤ s.reservedUsed 2 (lineHome line2)) ∧
    ((cohState {} { st := .s [3] } []).dir line2 = { st := .s [3] }) := by
  and_intros <;> decide

theorem test_witness_LookupErrorsAreSevere :
    ∀ q ∈ [Req.rds, .rdx, .upg],
      let m : Msg := { src := 2, dst := homeEnd line2, line := line2, kind := .req q false };
      let s := cohState { st := .is } {} [m];
      Coherent s 2 line2 ∧ (s.aline 2 line2).st ≠ .i ∧ (s.aline 2 line2).st ≠ .s ∧
        takeMsg (fun m => m.src == 2 && m.line == line2 && (m.kind == .req q true || m.kind == .req q false)) [] s.net =
          some (m, []) := by
  simp only [Coherent]; decide

theorem test_witness_EvictionsGiveTheLineBack_storage :
    (let s := cohState { st := .mi } { st := .x 2, txn := some (.store 2 0) } [];
      Coherent s 2 line2 ∧ s.Canonical ∧ (s.aline 2 line2).st = .mi ∧
        s.dir line2 = { st := .x 2, txn := some (.store 2 0) } ∧ s.net = []) ∧
    ((cohState { st := .m, hold := true } {} []).aline 2 line2).hold = true ∧
    (let s := (holds (start1 .furrow)).setFurrow 1 { entries := [entry5] };
      isAgent 0 ∧ isLine (descLine 5 0) ∧ (descLine 5 0).table = .desc ∧ lineHome (descLine 5 0) = 0 ∧
        s.linesPinned ((descLine 5 0).index / 32) = true) := by
  simp only [Coherent, State.Canonical]; and_intros <;> decide

theorem test_witness_GrantsReachTheAgent_fetch :
    (let s := cohState { st := .is } { txn := some (.fetch 2 (.data .e) (.x 2) true 0) } [];
      s.Canonical ∧ (s.dir line2).txn = some (.fetch 2 (.data .e) (.x 2) true 0) ∧ (s.dir line2).retry = [] ∧
        (s.dir line2).freed = false ∧
        takeMsg (fun m => m.dst == 2 && m.line == line2 && m.kind.grant.isSome) [] (s.finishFetch line2).net =
          some ({ src := homeEnd line2, dst := 2, line := line2, kind := .data .e }, [])) := by
  simp only [State.Canonical]; and_intros <;> decide

theorem test_witness_ProbesAreAnswered_kept :
    (∀ st ∈ [AState.is, .im, .sm],
      let m : Msg := { src := homeEnd line2, dst := 2, line := line2, kind := .fwdS 3 };
      let x : Msg := { src := homeEnd line2, dst := 2, line := line2, kind := .fwdX 3 };
      let i : Msg := { src := homeEnd line2, dst := 2, line := line2, kind := .inv };
      ((cohState { st := st } {} [m]).aline 2 line2).st = st ∧ Coherent (cohState { st := st } {} [m]) 2 line2 ∧
        takeMsg (fun m => m.dst == 2 && m.line == line2 && m.kind.isFwdS) [] [m] = some (m, []) ∧
        takeMsg (fun m => m.dst == 2 && m.line == line2 && m.kind.isFwdX) [] [x] = some (x, []) ∧
        takeMsg (fun m => m.dst == 2 && m.line == line2 && m.kind == .inv) [] [i] = some (i, [])) := by
  simp only [Coherent]; decide

theorem test_witness_HomesWriteAndWatch :
    (∀ t ∈ [CohTable.queue, .scale],
      let l : CohLine := { table := t, index := 2 };
      let m : Msg := { src := 3, dst := homeEnd l, line := l, kind := .ack };
      let s := { on.setDir l { st := .s [3], txn := some (.homeWrite [3]), arrived := [(30, 0)] } with net := [m] };
      isLine l ∧ on.homeUp l = true ∧ on.dir l = {} ∧ on.Canonical ∧ Coherent s 3 l ∧ s.Canonical ∧
        s.dir l = { st := .s [3], txn := some (.homeWrite [3]), arrived := [(30, 0)] } ∧
        takeMsg (fun m => m.src == 3 && m.line == l && m.kind == .ack) [] s.net = some (m, [])) ∧
    (let s := { cohState {} { arrived := [(2, 1)] } [] with usec := 8 };
      isLine line2 ∧ s.homeUp line2 = true ∧ ∃ e ∈ (s.dir line2).arrived, e.2 + 7 ≤ s.now) ∧
    (let s := { on with charge := { on.charge with inService1 := false } };
      isLine (hiveLineOf 200000) ∧ s.homeUp (hiveLineOf 200000) = false ∧ s.homeUp line2 = true) ∧
    (let s := { cohState {} { arrived := [(2, 2)] } [] with usec := 8 };
      ∀ e ∈ (s.dir line2).arrived, s.now < e.2 + 7) := by
  simp only [Coherent, State.Canonical]; and_intros <;> decide

theorem test_witness_ChargeFollowsTheArbiter :
    (∀ h ∈ [0, 1], on.power = .run ∧ on.recov.safe = false ∧ on.chargeable h = true ∧ on.recov.window = false ∧
      (on.source srcArbiter).count on.now < (on.source srcArbiter).n.toNat ∧ on.chargeable (1 - h) = true) ∧
    (let s := { on with charge := { on.charge with inService1 := false } };
      s.chargeable 0 = true ∧ s.belief 0 ≠ decide (1 = 0) ∧ s.chargeable (1 - 0) = false) ∧
    on.holder = 0 := by
  and_intros <;> decide

theorem test_witness_HangScansConfirmTwice_confirmed :
    let d := { rel opNop [] with phase := .hive }
    let a : HangId := { node := 5, gen := 0, order := 0 }
    let s := { holds d with recov := { on.recov with snapshot := some [(a, a)], suspects := [a] } }
    s.working = true ∧ s.recov.mode = false ∧ s.Canonical ∧ s.recov.snapshot = some [(a, a)] ∧
      onCycle ([(a, a)].filter fun e => s.recov.suspects.contains e.1 && s.recov.suspects.contains e.2) = [a] ∧
      s.node a.node = some d ∧ d.gen = a.gen ∧ d.order = a.order ∧ d.phase ≠ .doomed ∧ d.phase ≠ .heldRecord := by
  simp only [State.Canonical]; and_intros <;> decide

/-- What the steps of a reset find when nothing is broken. -/
def soundFindings (dump : DumpEnd) : ResetFindings where
  badCores := []
  badImem := []
  badHalves := []
  badPairs := []
  corrected := []
  dump := dump
  committed := []
  silent := []

/-- The premises of the reset's statements hold of it, with a dump or without. -/
theorem begun_resetBegun (en : Bool) (fd : ResetFindings) (h : fd.corrected = []) :
    ResetBegun { begun with recov := { begun.recov with dumpEn := en } } fd := by
  refine ⟨rfl, rfl, rfl, rfl, rfl, rfl, rfl, rfl, rfl, ?_, by simp [h]⟩
  unfold State.Canonical
  cases en <;> decide

theorem test_witness_ComputeResetClears_begun :
    (∀ (en : Bool) (dump : DumpEnd),
      let s := { begun with recov := { begun.recov with dumpEn := en } };
      ResetBegun s (soundFindings dump) ∧ s.recov.dumpEn = en ∧ (soundFindings dump).dump = dump) ∧
    (begun.faults.sources.keys fun _ x => x.masked) = [] :=
  ⟨fun en _ => ⟨begun_resetBegun en _ rfl, rfl, rfl⟩, by decide⟩

theorem test_witness_ResetTestsDecide :
    (∀ hs, ResetBegun begun { soundFindings .written with badHalves := hs }) ∧
    (let s := begun.setSource (srcCore 0 0) { masked := true };
      ResetBegun s (soundFindings .written) ∧ (s.source (srcCore 0 0)).masked = true ∧
        (s.source (srcCore 0 0)).forced = false ∧ srcCore 0 0 ∉ (soundFindings .written).badPairs) ∧
    (let s := begun.setSource srcCollector { masked := true };
      let fd := { soundFindings .written with badPairs := [srcCollector] };
      ResetBegun s fd ∧ (s.source srcCollector).masked = true ∧ srcCollector ∈ fd.badPairs ∧
        sourceHalf srcCollector = none) ∧
    (let fd := { soundFindings .written with badCores := [(0, 2)] };
      ResetBegun begun fd ∧ fd.badCores = [(halfOfCore 2, begun.physOf 2)] ∧
        ∀ j, j < 24 → begun.physOf j = j % 12) := by
  refine ⟨fun _ => begun_resetBegun false _ rfl, ?_, ?_, begun_resetBegun false _ rfl, by decide, by decide⟩ <;>
    (simp only [ResetBegun, State.Canonical]; and_intros <;> decide)

theorem test_witness_ResetsEndInTime_completes :
    let s := { begun with recov := { begun.recov with request := none } }
    s.recov.safe = false ∧ s.recov.inprogress = true ∧ s.recov.request = none ∧ s.recov.dumping = false ∧
      s.heldCmds = [] := by
  and_intros <;> decide

theorem test_witness_PrivilegedWritesAreServed_idle :
    let s := { on with clocks := { on.clocks with idle := .doze } }
    s.power = .run ∧ s.recov.safe = false ∧ s.clocks.idle ≠ .none ∧ s.recov.inprogress = false := by
  and_intros <;> decide

theorem test_witness_RegistersAreRead :
    (on.working = true ∧ on.regGated 0x10060 = false ∧ 0x10060 % 8 = 0 ∧ latchAt 0x10060 = none) ∧
    (let s := { on with clocks := State.reset.clocks };
      s.working = true ∧ s.regGated (0x20008 - 0x20008 % 8) = true) ∧
    PageOpen on .pf 3 ∧
    (let s := { on with clocks := State.reset.clocks }; ∃ r, s.regGated (latchOffset r) = true) := by
  refine ⟨by decide, by decide, ⟨by decide, by decide, by decide, by decide, by decide⟩, .scaledata0, by decide⟩

theorem test_witness_RegisterRulesWrite_clashes :
    (let v : Word := BitVec.ofNat 64 (50 + 100 * 2 ^ 22);
      (grouped 0).hiveClash 3 (fld v 17 0) (fld v 40 22) = true ∧ (fld v 17 0, fld v 40 22) ≠ (grouped 0).hiveRange 3) ∧
    (let s := on.setCtx 9 { state := .live, part := 2 }; s.partCtxs 2 ≠ []) ∧
    (let s := on.setQueue 4 (queueOf .idle); s.onlyBoot = false ∧ s.regs.groupchips.toNat ≠ fld (600 : Word) 15 0) := by
  and_intros <;> decide

theorem test_witness_PowerUpSequence_corrected :
    ∀ p ∈ [srcCollector], sourceListed p = true := by decide

theorem test_witness_LinkClockFallsBack :
    (let s := { on with clocks := { on.clocks with returnDue := 64 } }; s.now < s.clocks.returnDue) ∧
    on.clocks.returnDue ≤ on.now ∧ on.power ≠ .off := by
  and_intros <;> decide

theorem test_witness_IdleAndWake :
    (let s := { on with clocks := { on.clocks with idle := .doze, planned := some 50 } };
      s.clocks.idle ≠ .none ∧ s.clocks.waking = false ∧ s.clocks.planned = some 50) ∧
    (let s := { on with clocks := { on.clocks with idle := .doze, waking := true, wakeDue := 20 } };
      s.clocks.waking = true ∧ s.now < s.clocks.wakeDue) := by
  and_intros <;> decide

theorem test_witness_MonitorsReport :
    (1 < 576 ∧ on.engineOn = true ∧ on.furrowPresent 1 = true ∧ on.power = .run ∧ on.recov.safe = false) ∧
    (let r := { run1 with tag := 0x11 }; let s := on.setFurrow 2 { run := some r };
      isFurrow 2 ∧ 2 ≤ kindOfFurrow 2 ∧ (s.furrow 2).run = some r ∧ r.tag = 0x11) := by
  and_intros <;> decide

theorem test_witness_LifetimeImageTravels_waits :
    let s := { on with life := { on.life with sideband := .flush 0, answerDue := 200 } }
    s.power ≠ .off ∧ s.life.request.isSome = true ∧ s.now < s.life.answerDue := by
  and_intros <;> decide

theorem test_witness_CommandsComplete_both :
    Machine.WellFormed (.tailRead 4095) ∧ ¬ Machine.WellFormed (.tailRead 4096) := by
  simp [Machine.WellFormed, isQueue]

/-- A START of furrow 1 with SIGTOK 7, or with CHAIN, and so many iterations. -/
def chainOf (tok chain rep : Nat) (ph : Phase) : Node :=
  nodeOf [[BitVec.ofNat 64 (0x11 * 2 ^ 32 + 4096 + opStart * 16 + 1),
    BitVec.ofNat 64 (tok * 2 ^ 48 + chain * 2 ^ 16 + 0x101001), BitVec.ofNat 64 rep, 0, 0, 0, 0, 0], []] ph

theorem test_witness_CommitsSendTokensAndChain :
    (let d := chainOf 7 0 1 .running;
      RunsSheaf (runs d run1) 1 run1 d ∧ hRepeat d.lines ≤ d.iter + 1 ∧ hSigtok d.lines ≠ 0 ∧ fChain d.lines = false ∧
        opTemplate (hOp d.lines) = false ∧ hOp d.lines ≠ opCall ∧ report5.stamp = (runs d run1).runStamp run1) ∧
    (let d := chainOf 0 1 2 .running;
      let b := { chainOf 0 0 1 .held with seq := 1, chained := true };
      let s := (runs d run1).setNode 6 (some b);
      RunsSheaf s 1 run1 d ∧ d.iter = 0 ∧ 1 < hRepeat d.lines ∧ run1.abort = none ∧ fChain d.lines = true ∧ d.fmt ≠ 0 ∧
        s.nodeAt d.queue (d.seq.toNat + 1) = some 6 ∧ s.node 6 = some b ∧ hOp b.lines = opStart ∧ tAny b.lines = false ∧
        tUnit b.lines = 1 ∧ s.needsPass b = false ∧ s.tagBreaks b.queue b.tag = [] ∧ fPred b.lines = false ∧
        (s.queue b.queue).onAborted b.seq.toNat = false ∧ (s.queue b.queue).notTaken b.seq.toNat = false ∧
        hRepeat b.lines ≠ 0 ∧ fSkipok b.lines = false ∧ s.releasable { b with chainEarly := true } = true) := by
  simp only [RunsSheaf, State.Canonical]; and_intros <;> decide

theorem test_witness_RemoteOperationsAreSent_arrivals :
    ∀ sub ∈ [0, 1], ∀ kind ∈ [0, 1, 2, 3],
      let d := { rel opStile (farArg sub) with ctx := 9 };
      let s := tierState 0 0 (rel opStile (farArg sub));
      let t := s.setObj 8 (objOf kind 1 0 0);
      Kernel t 5 d opStile sub ∧ t.chipLocal d.ctx (refChip (aObjref d.lines)) = false ∧
        t.unreachable d.ctx (refChip (aObjref d.lines)) = false ∧ refObj (aObjref d.lines) = 8 ∧
        t.objAllowed d.ctx 8 = true ∧ Holds t [hiveNeed 8 false] ∧ t.inService (halfOfObj 8) = true ∧
        (t.obj 8).kind = kind := by
  simp only [Kernel, Released]; decide

theorem test_witness_TallyWritesThenCompletes_notice :
    let d := { kernWaits opTally (argLine 1 0 0x10000 0 0) with buffer := 0x10000 }
    let s := { holds d with regs := { on.regs with msixEnable := true, msixMaskAll := false, msixCtl1 := 0 } }
    d.child = none ∧ hOp d.lines = opTally ∧ aSub d.lines = 1 ∧ s.node 5 = some d ∧ s.regs.msixEnable = true ∧
      s.msixMasked 1 = false := by
  and_intros <;> decide

theorem test_witness_PartctlReleaseHoldsItsLines :
    let d := kern opPartctl (argLine 1 (2 * 65536) 0 0 0)
    let s := { held (holds d) with
      objects := [(8, { w0 := 3 })]
      regs := { on.regs with kcmden := 7, hivepart := [(2, BitVec.ofNat 64 (100 * 2 ^ 22))] } }
    let b := { d with begun := true }
    let far := { s with objects := [(8, { w0 := 3 }), (90, { w0 := 4 })] }
    Kernel s 5 d opPartctl 1 ∧ s.holderActs = true ∧ s.partCtxs 2 = [] ∧ d.begun = false ∧ bit s.regs.kcmden 1 = true ∧
      Kernel (s.setNode 5 (some b)) 5 b opPartctl 1 ∧ b.begun = true ∧
      s.Canonical ∧ (∀ k ∈ s.rangeObjects 2, s.waitersOf k = []) ∧ s.rangeObjects 2 = [8] ∧
      (∀ k ∈ s.rangeObjects 2, s.lineHeld (hiveNeed k true) = true) ∧ far.Canonical ∧
      (∀ k ∈ far.rangeObjects 2, far.waitersOf k = []) ∧ far.rangeObjects 2 = [8, 90] ∧
      far.lineHeld (hiveNeed 90 true) = false := by
  simp only [Kernel, Released, State.Canonical]; and_intros <;> decide

theorem test_witness_QctlActsOnItsQueue_refused :
    (let d := kern opQctl createArg; Kernel (holds d) 5 d opQctl 0 ∧ ((holds d).ctx 0).state ≠ .live) ∧
    (let d := kern opQctl (argLine 2 (4 * 65536) 3 5 0);
      Kernel (holds d) 5 d opQctl 2 ∧ (holds d).qstate 4 ≠ .stopped) ∧
    (let d := kern opQctl (argLine 1 (4 * 65536) 0 0 0);
      Kernel (holds d) 5 d opQctl 1 ∧ (holds d).qstate 4 = .free) ∧
    (let d := kern opQctl (argLine 1 0 0 0 0);
      let s := (holds d).setQueue 0 (queueOf .active);
      Kernel s 5 d opQctl 1 ∧ fld (aw d.lines 0) 27 16 = d.queue ∧ s.qstate 0 ≠ .busy) := by
  simp only [Kernel, Released]; and_intros <;> decide

theorem test_witness_ChildrenOfACall_reemit :
    let h : Handle := { nopHandle (some (0, 1)) with lines := [[(1 : Word) + 2 ^ 24, 0x5000, 1, 0, 0, 0, 0, 0]] }
    let r := runAt0 (g1 1) [h]
    let s := coreRuns r (encReg 0x12 3 1 0 1) []
    Executes s 2 0 r (encReg 0x12 3 1 0 1) ∧ r.handle (r.reg 1).toNat = some h ∧ r.pred 0 = some none ∧
      h.res.isSome = true ∧ (s.childErrors r callNode.seq h.lines).isSome = true :=
  ⟨executes_core _ _ _ _ (by decide), by decide⟩

theorem test_witness_RequestsReachTheHome_waits :
    let m (i : Nat) : Msg :=
      { src := 2, dst := homeEnd line2, line := { line2 with index := i }, kind := .req .rds false }
    let s := cohState {} {} [m 3, m 4]
    Coherent s 2 line2 ∧ (s.aline 2 line2).st = .i ∧ s.canAsk 2 (lineHome line2) = false ∧
      ∀ m ∈ s.net, m.src = 2 → m.line ≠ line2 := by
  simp only [Coherent]; decide

theorem test_witness_LookupErrorsAreSevere_back :
    (∀ k ∈ [MsgKind.wbd, .wbc],
      let m : Msg := { src := 2, dst := homeEnd line2, line := line2, kind := k };
      Coherent (cohState { st := .mi } { st := .x 2 } [m]) 2 line2 ∧
        takeMsg (fun m => m.src == 2 && m.line == line2 && m.kind == k) [] [m] = some (m, [])) ∧
    (let l : CohLine := { table := .queue, index := 24 }; isLine l ∧ on.homeUp l = true ∧ l.table = .queue) ∧
    ({ unc := true, pos := 0, syn := 0 } : Found).unc = true := by
  simp only [Coherent]; and_intros <;> decide

theorem test_witness_HomesWriteAndWatch_transactions :
    (let s := { cohState {} { txn := some (.store 2 0), began := 1 } [] with usec := 8 };
      s.homeUp line2 = true ∧ (s.dir line2).txn.isSome = true ∧ (s.dir line2).began + 7 ≤ s.now) ∧
    (let s := { cohState {} { txn := some (.store 2 0), began := 2 } [] with usec := 8 };
      (∀ e ∈ (s.dir line2).arrived, s.now < e.2 + 7) ∧ s.now < (s.dir line2).began + 7) := by
  and_intros <;> decide

theorem test_witness_ResetsEndInTime_held :
    let s := { begun with
      recov := { begun.recov with request := none }, heldCmds := [(4, .registerWrite 0x10060 .whole 1)] }
    s.recov.safe = false ∧ s.recov.inprogress = true ∧ s.recov.request = none ∧ s.recov.dumping = false ∧
      s.power = .run ∧ s.clocks.idle = .none ∧ s.heldCmds = [(4, .registerWrite 0x10060 .whole 1)] := by
  and_intros <;> decide

theorem test_witness_RegisterRulesWrite_groups :
    (let v : Word := BitVec.ofNat 64 (2 ^ 62 + 4 * 2 ^ 42 + 3 * 2 ^ 28 + 2 ^ 14);
      Tbl.wf {} on.groups = true ∧ on.partCtxs 2 = [] ∧ 1 ≤ fld v 55 42 ∧ fld v 55 42 ≤ 16383 ∧
        fld v 27 14 < fld v 55 42 ∧ fld v 41 28 < fld v 55 42) ∧
    (let v : Word := BitVec.ofNat 64 (2 ^ 62 + 4 * 2 ^ 42 + 4 * 2 ^ 28);
      let g := on.group 2;
      fld v 55 42 ≤ fld v 41 28 ∧
        (g.en, g.size.toNat, g.mgr.toNat, g.num.toNat) ≠ (bit v 62, fld v 55 42, fld v 41 28, fld v 27 14)) := by
  and_intros <;> decide

theorem test_witness_IdleAndWake_wakes :
    (∀ i ∈ [Idle.nap, .doze, .deep],
      let s := ({ on with clocks := { on.clocks with idle := i } } : State).setQueue 3 (queueOf .idle);
      s.power = .run ∧ s.recov.safe = false ∧ s.clocks.idle ≠ .none ∧ s.clocks.waking = false ∧ s.engineOn = true ∧
        s.hiveOn 0 = true ∧ s.recov.inprogress = false ∧ s.pageGated 3 = false ∧ s.pageLive .pf 3 = true ∧
        s.qstate 3 = .idle ∧ s.Canonical ∧ (s.source srcCollector).masked = false) ∧
    (let s := { on with
        clocks := { on.clocks with idle := .doze, waking := true }, heldCmds := [(0, .retiredRead .pf 3 true)] };
      s.clocks.waking = true ∧ s.clocks.wakeDue ≤ s.now ∧ s.recov.safe = false ∧ s.recov.inprogress = false ∧
        s.power = .run ∧ s.pageGated 3 = false ∧ s.pageLive .pf 3 = true) := by
  simp only [State.Canonical]; and_intros <;> decide

theorem test_witness_LifetimeImageTravels_flush :
    on.working = true ∧ bit (1 : Word) 0 = true ∧ bit (2 : Word) 0 = false ∧
    (let s := { on with life := { on.life with loaded := true } };
      s.power ≠ .off ∧ s.life.sideband = .idle ∧ s.life.loaded = true) := by
  and_intros <;> decide

theorem test_witness_StreamsCarryEntries_unbound :
    (Executes (coreRuns (runAt0 (g1 4) []) (encReg 0x11 0 1 2 0) []) 2 0 (runAt0 (g1 4) []) (encReg 0x11 0 1 2 0) ∧
      4 ≤ ((runAt0 (g1 4) []).reg 1).toNat ∧ (runAt0 (g1 4) []).handle 0 = none) ∧
    ∀ fn ∈ [1, 2, 3], Executes (coreRuns (runAt0 (g1 3) []) (encReg 0x11 0 1 2 fn) []) 2 0 (runAt0 (g1 3) [])
        (encReg 0x11 0 1 2 fn) ∧
      (coreRuns (runAt0 (g1 3) []) (encReg 0x11 0 1 2 fn) []).runPort 2 (runAt0 (g1 3) []) 1 = none := by
  have a : [1, 2, 3].all (fun fn => legalWord (encReg 0x11 0 1 2 fn)) = true := by decide
  exact ⟨⟨executes_core _ _ _ _ (by decide), by decide, by decide⟩,
    fun _ h => ⟨executes_core _ _ _ _ (List.all_eq_true.mp a _ h), rfl⟩⟩

theorem test_witness_PushesEndASync :
    let r := { runAt0 [] [] with st := .sync }
    let s := coreRuns r 0 [(3, some { portOf5 true with line := [some 7] })]
    isCore 2 ∧ isFrame 0 ∧ s.Canonical ∧ s.runAt 2 0 = some r ∧ r.st = .sync ∧
      (∀ fr' ∈ List.range 8, ∀ r', s.runAt 2 fr' = some r' → r'.st = .sync → fr' = 0) ∧
      (∀ p ∈ [portOf5 true, { portOf5 true with line := [some 7] }, { portOf5 true with dead := true }],
        p.call = r.call) ∧
      ∀ e ∈ (s.core 2).ports, e.1 = 3 := by
  simp only [State.Canonical]; and_intros <;> decide

/-- The CALL of a shipped routine with ARG words 1 to 6, on core 2. -/
def shippedNode (slot argc : Nat) (a1 a2 a3 a4 a5 a6 : Word) : Node :=
  { nodeOf (sheaf opCall 0x104002 1
      [BitVec.ofNat 64 (2 + slot * 256 + argc * 65536), a1, a2, a3, a4, a5, a6, 0]) .core with coreNo := 2 }

/-- Core 2 runs a shipped routine. -/
def shippedRuns (slot : Nat) (t : Track) (d : Node) : State :=
  { (holds d).setCore 2 { frames := [(0, .run { runAt0 [] [] with slot := slot, track := t })], current := some 0 } with
    objects := [(8, { w0 := 1 })] }

theorem test_witness_ShippedRoutinesKeepTheirContract :
    (∀ x ∈ [(7, 5, shippedNode 7 5 0 0 0 0 0 0), (7, 6, shippedNode 7 6 0 0 0 1 64 0),
        (8, 3, shippedNode 8 3 0 0 0 0 0 0), (8, 4, shippedNode 8 4 0 17 1 0 0 0), (8, 4, shippedNode 8 4 0 16 1 0 0 0),
        (9, 1, shippedNode 9 1 0 0 0 0 0 0), (9, 2, shippedNode 9 2 99 ref8 0 0 0 0),
        (9, 2, shippedNode 9 2 100 ref8 0 0 0 0), (10, 0, shippedNode 10 0 0 0 0 0 0 0),
        (10, 1, shippedNode 10 1 0 0 0 0 0 0), (0, 0, shippedNode 0 0 0 0 0 0 0 0)],
      let t : Track := { n := 1, row := 1 };
      let r := { runAt0 [] [] with slot := x.1, track := t };
      let s := shippedRuns x.1 t x.2.2;
      isCore 2 ∧ s.coreOn 2 = true ∧ s.currentRun 2 = some (0, r) ∧ r.stall = none ∧ r.slot < 64 ∧
        s.node r.call = some x.2.2 ∧ fld (aw x.2.2.lines 0) 18 16 = x.2.1 ∧ r.track.n = 1 ∧ r.track.row = 1 ∧
        (s.obj 8).w0 ≠ 0) ∧
    areRegs 3 1 0 ∧ (refChip (fld ref8 31 0) = 0x3FFF ∧ refObj (fld ref8 31 0) = 8) := by
  simp only [List.forall_mem_cons, List.not_mem_nil, false_imp_iff, implies_true, and_true]
  and_intros <;> decide

/-- A run of context 9 in partition 2 of a group of four chips whose registers name object 8 of a chip. -/
def farRun (chip : Nat) : Run :=
  { runAt0 [(1, BitVec.ofNat 64 (chip * 2 ^ 18 + 8)), (2, 4)] [] with ctx := 9 }

/-- Core 2 runs it beside an own object of a kind. -/
def farRuns (chip kind : Nat) (w : BitVec 32) (hold : Bool) : State :=
  let s := coreRuns (farRun chip) w []
  let t := tierState 0 0 (rel opNop [])
  { s with objects := [(8, objOf kind 1 0 0)], agents := if hold = true then t.agents else [], groups := t.groups
           ctxs := t.ctxs, regs := t.regs }

theorem executes_far (chip kind : Nat) (w : BitVec 32) (hold : Bool) (h : legalWord w = true) :
    Executes (farRuns chip kind w hold) 2 0 (farRun chip) w := by
  have hx := executes_run (farRun chip) w [] rfl rfl rfl rfl h
  have hf := hx.2.2.2.2.1
  have hs : ¬ (farRun chip).slot < 64 := by simp [farRun, runAt0, runOf]
  rw [if_neg hs] at hf
  exact ⟨hx.1, hx.2.1, hx.2.2.1, hx.2.2.2.1, by rw [if_neg hs]; exact hf, hx.2.2.2.2.2⟩

theorem test_witness_HiveInstructionsOfOtherChips :
    (∀ fn ∈ [0, 1, 2, 8, 9, 10, 11, 12, 13, 16, 17], ∀ chip kind hold,
      Executes (farRuns chip kind (encReg 0x13 3 1 2 fn) hold) 2 0 (farRun chip) (encReg 0x13 3 1 2 fn)) ∧
    areRegs 3 1 2 ∧
    (∀ x ∈ [(2, 0, true), (2, 2, true), (2, 3, true), (2, 2, false), (9, 0, true)],
      let s := farRuns x.1 x.2.1 0 x.2.2;
      let r := farRun x.1;
      s.node r.call = some callNode ∧ fld (r.reg 1) 63 32 = 0 ∧
        s.chipLocal r.ctx (refChip (fld (r.reg 1) 31 0)) = false ∧
        s.unreachable r.ctx (refChip (fld (r.reg 1) 31 0)) = decide (x.1 = 9) ∧ refObj (fld (r.reg 1) 31 0) = 8 ∧
        s.objAllowed r.ctx 8 = true ∧ s.inService (halfOfObj 8) = true ∧ (s.obj 8).kind = x.2.1 ∧
        s.lineHeld (hiveNeed 8 false) = x.2.2) ∧
    (let s := { farRuns 2 0 0 true with regs := on.regs }; s.objAllowed (farRun 2).ctx 8 = false ∧
      s.unreachable (farRun 2).ctx 2 = false) := by
  have b : [0, 1, 2, 8, 9, 10, 11, 12, 13, 16, 17].all (fun fn => legalWord (encReg 0x13 3 1 2 fn)) = true := by
    decide
  refine ⟨fun _ h _ _ _ => executes_far _ _ _ _ (List.all_eq_true.mp b _ h), by decide, ?_, by decide⟩
  simp only [List.forall_mem_cons, List.not_mem_nil, false_imp_iff, implies_true, and_true]
  and_intros <;> decide

/-- A remote operation with MSGID 7 of core 2's run. -/
def opRun : RemoteOp := { op7 false none with owner := .run 2 0 3 }

theorem test_witness_AnswersEndTheOperation_results :
    (∀ x ∈ [(1, false, 0x17), (1, false, 0x16), (3, true, 0x17), (3, true, 0x16)],
      let d := { rel opSignal [] with phase := .hive };
      let s := { (grouped 0).setNode 5 (some d) with remoteOps := [op7 x.2.1 none] };
      let m := msg x.1 x.2.2 0 0;
      HiveArrives s m x.1 ∧ s.pendingOp m x.2.1 = some (op7 x.2.1 none) ∧ s.node 5 = some d ∧ d.phase = .hive ∧
        msgResult m = x.2.2) ∧
    (∀ x ∈ [(1, false, 0), (1, false, 0x16), (1, false, 0x17), (3, true, 0), (3, true, 0x16), (3, true, 0x17)],
      let r := { runAt0 [] [] with st := .hive };
      let s := { coreRuns r 0 [] with groups := (grouped 0).groups, regs := (grouped 0).regs
                                      remoteOps := [{ opRun with wait := x.2.1 }] };
      let m := msg x.1 x.2.2 0 0;
      HiveArrives s m x.1 ∧ s.pendingOp m x.2.1 = some { opRun with wait := x.2.1 } ∧ s.runAt 2 0 = some r ∧
        s.node r.call = some callNode ∧ callNode.phase = .core ∧ msgResult m = x.2.2 ∧ s.waitersOf 8 = []) := by
  simp only [HiveArrives]; and_intros <;> decide

theorem test_witness_SignalReportsReachTheObject_arrivals :
    (∀ mgr ∈ [(0 : BitVec 14), 1], ∀ x ∈ [(0, 0, 0), (1, 0, 0), (1, 1, 0), (1, 0, 1), (2, 0, 0), (2, 1, 0), (2, 2, 0),
        (2, 0, 1), (2, 0, 2), (3, 0, 0)],
      let w0 : Word := BitVec.ofNat 64 (3 * 2 ^ 19 + 8);
      let w2 : Word := BitVec.ofNat 64 (0x3FFF * 2 ^ 50);
      let s := (held (grouped mgr)).setObj 8 (objOf x.1 1 x.2.1 x.2.2);
      s.working = true ∧ s.engineOn = true ∧ s.hiveOn (halfOfObj 8) = true ∧ fld w0 17 0 = 8 ∧ fld w0 21 19 = 3 ∧
        s.reportStale w2 = false ∧ s.inService (halfOfObj 8) = true ∧ s.reportTenant 8 w2 = true ∧
        Holds s [hiveNeed 8 true] ∧ (s.obj 8).kind = x.1 ∧ (s.obj 8).arrived = x.2.1 ∧ (s.obj 8).next = x.2.2 ∧
        (s.obj 8).pminus1 = 1 ∧ (s.obj 8).round = 4 ∧ s.objWorker 8 = decide (mgr = 0)) ∧
    (let w2 : Word := BitVec.ofNat 64 (0x3FFF * 2 ^ 50 + 9 * 2 ^ 40);
      let s := { grouped 0 with ctxs := [(9, { state := .live, part := 3 })] };
      w2Chip w2 = 0x3FFF ∧ (s.reportStale w2 = true ∨ s.reportTenant 8 w2 = false)) ∧
    (let s := { on with charge := { on.charge with inService1 := false } };
      s.inService (halfOfObj 200000) = false ∧ s.hiveOn (halfOfObj 200000) = true) := by
  simp only [List.forall_mem_cons, List.not_mem_nil, false_imp_iff, implies_true, and_true]
  and_intros <;> decide

theorem test_witness_RequestsReachTheHome_others :
    (∀ v ∈ [[3], [2, 3]], ∀ st ∈ [AState.i, .s],
      let s := cohState { st := st } { st := .s v } [];
      Coherent s 2 line2 ∧ s.Canonical ∧ s.net = [] ∧ s.reservedUsed 2 (lineHome line2) < 2 ∧
        s.sharedUsed (lineHome line2) < 68 ∧ s.dir line2 = { st := .s v } ∧ v.filter (· ≠ 2) ≠ [] ∧
        mayWrite 2 line2 = true ∧ (s.aline 2 line2).st = st) ∧
    (let s := cohState {} { st := .x 3 } [];
      Coherent s 2 line2 ∧ s.Canonical ∧ s.net = [] ∧ s.reservedUsed 2 (lineHome line2) < 2 ∧
        s.dir line2 = { st := .x 3 } ∧ (s.aline 2 line2).st = .i ∧ mayHold 2 line2 = true) := by
  simp only [Coherent, State.Canonical]; and_intros <;> decide

theorem test_witness_WindowViolationEndsTheRun_orphan :
    let d := start1 .heldRecord
    let r := { run1 with abort := some .destroy, orphan := some d }
    let s := { on with ctxs := [(0, { state := .live })] }.setFurrow 1 { run := some r }
    isFurrow 1 ∧ s.working = true ∧ s.engineOn = true ∧ s.Canonical ∧ (s.furrow 1).run = some r ∧ s.runNode r = none ∧
      r.orphan = some d ∧ (s.ctx d.ctx).gen = d.gen ∧ d.phase ≠ .doomed := by
  simp only [State.Canonical]; and_intros <;> decide

theorem test_witness_RegisterRulesWrite_fence :
    (on.fenceWaits = false ∧ on.onlyBoot = true ∧ (4 : BitVec 16) ≠ on.regs.groupchips) ∧
    (let s := { on with fence := { on.fence with openNodes := [5], arrived := 1 } };
      let v : Word := BitVec.ofNat 64 (3 * 2 ^ 48 + 2 ^ 32 + 1);
      s.fenceWaits = true ∧ BitVec.ofNat 4 (fld v 51 48) ≠ s.fence.part ∧
        BitVec.ofNat 12 (fld (0x100000001 : Word) 43 32) = s.fence.arrivals ∧
        BitVec.ofNat 4 (fld (0x100000001 : Word) 51 48) = s.fence.part) ∧
    (let s := on.setQueue 4 (queueOf .idle); s.onlyBoot = false) ∧
    (on.fence.part.toNat ≠ 2 ∧ on.inService 0 = true ∧ on.inService 1 = true ∧ on.halvesOn 0 = true) := by
  and_intros <;> decide

theorem test_witness_SpecialRegistersWrite :
    -- PL_HANGMODE
    ((bit (0x0000FFFF : Word) 24, BitVec.ofNat 17 (fld (0x0000FFFF : Word) 16 0)) ≠ (on.recov.mode, on.recov.period) ∧
      on.onlyBoot = true ∧ 100 ≤ (BitVec.ofNat 17 (fld (0x0000FFFF : Word) 16 0)).toNat ∧
      (BitVec.ofNat 17 (fld (0x0000FFFF : Word) 16 0)).toNat ≤ 100000 ∧
      (on.setQueue 4 (queueOf .idle)).onlyBoot = false) ∧
    -- PL_VERNEG
    ((0x3 : BitVec 4) ≠ on.regs.offer ∧ on.queueExists (fun _ x => decide (1 ≤ x.fmt.toNat)) = false ∧
      (on.setQueue 4 (queueOf .idle)).queueExists (fun _ x => decide (1 ≤ x.fmt.toNat)) = true) ∧
    -- PL_TRIM
    (on.trim.link ≠ 3 ∧ (3 : BitVec 5).toNat < on.linkPorts ∧ on.linkPorts ≤ (31 : BitVec 5).toNat) ∧
    -- PL_CLKEN
    (on.clocks.enables &&& ~~~(0 : BitVec 17) &&& 0x1DFFF ≠ 0 ∧ on.queueExists (fun _ _ => true) = false ∧
      (on.setQueue 4 (queueOf .idle)).queueExists (fun _ _ => true) = true) ∧
    -- PL_FENCESEQ
    ((5 : BitVec 48) ≠ on.fence.seq ∧ on.fenceWaits = false ∧ on.fence.ready = []) ∧
    -- PL_FAULTSRC
    (sourceListed 0xFFFF = false ∧ sourceListed srcCollector = true) ∧
    -- PL_ABORTQ
    (on.regs.abortBusy = false ∧ (on.queue 4).state = .free ∧ ((on.setQueue 4 (queueOf .idle)).queue 4).state ≠ .free) ∧
    -- PL_BREAKCTL
    (Tbl.wf ({} : Break) on.breaks = true ∧ isSystem 9 = false ∧ (on.ctx 9).state ≠ .live ∧
      ((on.setCtx 9 { state := .live }).ctx 9).state = .live ∧ (on.brk 0).mode = 0) := by
  and_intros <;> decide

theorem test_witness_PrivilegedWritesAreServed_reset :
    begun.power = .run ∧ begun.recov.safe = false ∧ begun.clocks.idle = .none ∧ begun.recov.inprogress = true := by
  and_intros <;> decide

theorem test_witness_PowerUpSequence_loads :
    (let s := { on with power := .stability 63 };
      s.power = .stability 63 ∧ 1568 ≤ 1600 ∧ 63 ≤ 63 ∧ s.life.loaded = false ∧ s.life.sideband = .idle) ∧
    (let s := { on with power := .stability 63, life := { on.life with sideband := .header 0 } };
      s.life.sideband ≠ .idle) := by
  and_intros <;> decide

theorem test_witness_HiveInstructionsEnd_tiers :
    ∀ mgr ∈ [(0 : BitVec 14), 1],
      ∀ x ∈ [(4, 0, 0), (4, 1, 0), (4, 2, 0), (5, 0, 0), (5, 0, 1), (5, 0, 2), (6, 0, 0)],
      let r := { runAt0 [(1, ref8), (2, BitVec.ofNat 64 x.1)] [] with ctx := 9 };
      let t := tierState mgr 0 (rel opNop []);
      let s := { coreRuns r 0 [] with
        objects := [(8, objOf 2 1 x.2.1 x.2.2)], agents := t.agents, groups := t.groups
        ctxs := t.ctxs, regs := t.regs };
      HiveRun s r 1 8 callNode ∧ Holds s [hiveNeed 8 true] ∧ (s.obj 8).kind = 2 ∧ (s.obj 8).arrived = x.2.1 ∧
        (s.obj 8).next = x.2.2 ∧ (s.obj 8).pminus1 = 1 ∧ s.objWorker 8 = decide (mgr = 0) ∧
        (fld (r.reg 2) 15 0 + 65536 - (s.obj 8).round) % 65536 = x.1 - 4 := by
  simp only [List.forall_mem_cons, List.not_mem_nil, false_imp_iff, implies_true, and_true, HiveRun]
  and_intros <;> decide

/-! ## Numbers out of range (WellFormed) -/

theorem test_queue_4096_is_refused : ¬ isQueue 4096 ∧ exec (.tailRead 4096) on = .fault .noSuchUnit := ⟨by decide, rfl⟩
theorem test_half_2_is_refused : ¬ isHalf 2 ∧ exec (.fetchGrant 2) on = .fault .noSuchUnit := ⟨by decide, rfl⟩
theorem test_node_65536_is_refused : ¬ isNode 65536 ∧ exec (.sheafRelease 65536) on = .fault .noSuchUnit :=
  ⟨by decide, rfl⟩
theorem test_furrow_600_is_refused : ¬ isFurrow 600 ∧ exec (.engineStart 600) on = .fault .noSuchUnit := ⟨by decide,
  rfl⟩
theorem test_ctx_1024_is_refused : ¬ isCtx 1024 ∧ exec (.teardown 1024) on = .fault .noSuchUnit := ⟨by decide, rfl⟩
theorem test_part_12_is_refused : ¬ isPart 12 ∧ exec (.groupWrite 12 .whole 0) on = .fault .noSuchUnit :=
  ⟨by decide, rfl⟩
theorem test_core_24_is_refused : ¬ isCore 24 ∧ exec (.runStart 24) on = .fault .noSuchUnit := ⟨by decide, rfl⟩
theorem test_frame_8_is_refused : ¬ isFrame 8 ∧ exec (.frameClearComplete 0 8) on = .fault .noSuchUnit :=
  ⟨by decide, rfl⟩
theorem test_reg_32_is_refused : ¬ isReg 32 ∧ exec (.addi 0 32 0 0) on = .fault .noSuchUnit := ⟨by decide, rfl⟩
theorem test_regs_32_are_refused : ¬ areRegs 0 0 32 ∧ exec (.add 0 0 0 32) on = .fault .noSuchUnit := ⟨by decide, rfl⟩
theorem test_agent_30_is_refused :
    ¬ isAgent 30 ∧ exec (.rds 30 ⟨{ table := .hive, index := 0 }, false, none⟩) on = .fault .noSuchUnit :=
  ⟨by decide, rfl⟩
theorem test_break_8_is_refused : ¬ isBreak 8 ∧ exec (.breakResume 8) on = .fault .noSuchUnit := ⟨by decide, rfl⟩
theorem test_port_608_is_refused : ¬ isPort 608 ∧ exec (.teardownAck (.context 0) 608) on = .fault .noSuchUnit :=
  ⟨by decide, rfl⟩
theorem test_vf_12_is_refused : ¬ isFn (.vf 12) ∧ exec (.doorbellWrite (.vf 12) 0 true 0) on = .fault .noSuchUnit :=
  ⟨by decide, rfl⟩

/-! ## The manual's examples, worked out from its text -/

/-- The state that an outcome answers. -/
def next (o : Host.Outcome State Fault Refusal) : State := match o with
  | .next t => t
  | _ => State.reset

/-- 00_scope.md: furrow 364 is the VE of core 9 in cluster 7. -/
theorem test_furrow_364 : 364 / 48 = 7 ∧ 364 % 48 / 3 = 9 ∧ kindOfFurrow 364 = 1 := by decide

/-- 02: OFFER 3 sets AGREED 1. -/
theorem test_offer_3_agrees_1 : (next (exec (.vernegOfferWrite .whole 0x3000000) on)).regs.agreed = 1 := by decide

/-- 02: words 0 and 1 of the record of a saturated rerun. -/
theorem test_record_words :
    (recordWords { seq := 500, tag := 0x5EED0042, status := 0x18, gen := 0x2A3, queue := 2067, executed := 0, count := 1
                   detail := 0, furrow := 0, retire := false, node := none } 0 0).take 2 =
      [0x1F4, 0x5EED0042182A3813] := by decide

/-- The CFGSTART of 03's example. -/
def cfgstartLine : Line :=
  [0x1A2B000700042031, 0x003100000000006F, 0x0000018001500001, 0xC80, 0, 0x80100012005003E8, 0, 0]

theorem test_header_fields :
    hTag [cfgstartLine] = 0x1A2B0007 ∧ hEdgecnt [cfgstartLine] = 2 ∧ hLen [cfgstartLine] = 2 ∧
      hOp [cfgstartLine] = opCfgstart ∧ hFmt [cfgstartLine] = 1 ∧ hSigtok [cfgstartLine] = 0x31 ∧
      tKind [cfgstartLine] = 0 ∧ tUnit [cfgstartLine] = 111 ∧ hAccw [cfgstartLine] = 1 ∧
      hSeedexp [cfgstartLine] = 0x80 ∧ hScaleslot [cfgstartLine] = 336 ∧ hRepeat [cfgstartLine] = 1 ∧
      hCost [cfgstartLine] = 3200 := by decide

theorem test_edge_entries :
    edgeQueue (edgeEntry [cfgstartLine] 0) = 5 ∧ extendSeq (edgeSeqlo (edgeEntry [cfgstartLine] 0)) 1003 = some 1000 ∧
      edgeQueue (edgeEntry [cfgstartLine] 1) = 2049 ∧ extendSeq (edgeSeqlo (edgeEntry [cfgstartLine] 1)) 16 = some 18 ∧
      extendSeq 0xFFFF0 1048581 = some 1048560 := by decide

/-- 03: a FORMAT refusal at TARGET has DETAIL 0x00200000. -/
theorem test_format_detail : formatDetail 0 64 = 0x00200000 := by decide

/-- 04: GROUPCHIPS 600 reserves 2,458 node slots and 154 queues a half. -/
theorem test_reserve_600 :
    let s := { on with regs := { on.regs with groupchips := 600 } };
    reserveOf 600 = (2458, 154) ∧ s.isRecovery 1893 = false ∧ s.isRecovery 1894 = true ∧ s.isRecovery 3941 = false ∧
      s.isRecovery 3942 = true := by decide

/-- 06: the route table of the FANOUT example names experts 0, 2, 4 and 7. -/
theorem test_fanout_plan :
    fanoutPlan 8 [0x60, 0, 0x0000006000000028, 0, 0x00000088000000C8, 0, 0, 0x0000015000000018] =
      [(0, 96, 0), (2, 40, 96), (4, 200, 136), (7, 24, 336)] := by decide

/-- 06: the mask of the MASKED example has 20 tiles, of which the second row's first is number 2. -/
theorem test_masked_plan :
    let plan := maskedPlan 4 8 [0x3, 0, 0xF, 0, 0x3F, 0, 0xFF, 0];
    plan.length = 20 ∧ plan.take 3 = [(0, 0, 0), (1, 0, 1), (128, 1, 0)] ∧ plan.getLast? = some (391, 3, 7) := by decide

/-- 08: the ARG line of the stile's INIT, and a participant that arrives early for round 6. -/
theorem test_stile_example :
    let ls : List Line := [[0x11], [0x0000FFFD04000202, 4]];
    refObj (aObjref ls) = 66560 ∧ refChip (aObjref ls) = 0x3FFF ∧ aSub ls = 2 ∧
      (let o : Obj := { w0 := 0x0005000300020000 };
        classifyArrival o 6 false = .counted { o with w0 := 0x0005000300020001 } false false) := by decide

/-- 12: the port word of chip 5's PEERLOST. -/
theorem test_peerlost_port :
    let w : Word := 0x7FFF001484800000;
    portClass w = 1 ∧ portDest w = 0x3FFF ∧ portSrc w = 5 ∧ portPart w = 2 ∧ portGen w = 0x12 := by decide

/-- 13: a known event 3,200 µs away allows DOZE, not DEEP; one 6 ms away allows DEEP. -/
theorem test_doze_not_deep :
    let s := fun due => { on with
      trim := { on.trim with state := .locked }, clocks := { on.clocks with maxstate := 3 }
      stale := [{ part := 2, chip := 2, kind := .chip 0, due := due }] };
    (s 3200).idleChoice = .doze ∧ (s 6000).idleChoice = .deep := by decide

/-- 14: the routine mark's word 1. -/
theorem test_trace_mark : traceW1 0xA11 3 = 0x00000A1100000003 := by decide

/-- 15: VF 4, of partition 3, cannot reach queue 2,070; the write is counted in PL_ABSORBED1. -/
theorem test_foreign_doorbell :
    let s := next (exec (.doorbellWrite (.vf 3) 2070 true 5) on);
    s.regs.absorbed1 = 1 ∧ s.regs.absorbed0 = 0 ∧ s.queues = [] := by decide

/-- 15: the installer enables everything but TRACE with a 32-bit write of PL_CLKEN. -/
theorem test_clken_example :
    let s := next (exec (.clkenWrite .low 0x0001DFFF) { on with clocks := State.reset.clocks });
    s.plClken = 0x1DFFF ∧ Tbl.get [] s.audit.ring 0 = [0, 0x4000000000010030, 0, 0x1DFFF] := by decide

/-! ## Single steps -/

/-- An overflowing ADD wraps, and its destination may be a source. -/
theorem test_add_wraps :
    ((next (exec (.add 2 1 1 1) (coreRuns (runAt0 [(1, 0xFFFFFFFFFFFFFFFF)] []) (encReg 0 1 1 1 0) []))).runAt 2 0).map
      (fun r => (r.reg 1, r.pc)) = some (0xFFFFFFFFFFFFFFFE, 4) := by decide

/-- MULHU of two largest numbers. -/
theorem test_mulhu :
    ((next (exec (.mulhu 2 2 1 1) (coreRuns (runAt0 [(1, 0xFFFFFFFFFFFFFFFF)] []) (encReg 0 2 1 1 9) []))).runAt 2 0).map
      (fun r => r.reg 2) = some 0xFFFFFFFFFFFFFFFE := by decide

/-- A load above the frame's usable part traps: the run is gone, and its CALL's context is to be torn down. -/
theorem test_load_traps :
    let s := next (exec (.ld 2 1 0 0x7E00) ((coreRuns (runAt0 [] []) (encImm 0x08 1 0 0x7E00) []).setCtx 0
      { state := .live }));
    s.runAt 2 0 = none ∧ s.tears.map (·.ctx) = [0] := by decide

/-- A doorbell write wakes an IDLE queue, which then reads TAIL and has lines to fetch. -/
theorem test_doorbell_wakes :
    let s := next (exec (.doorbellWrite .pf 3 true 8) (on.setQueue 3 (queueOf .idle)));
    s.qstate 3 = .active ∧ (s.queue 3).tail = 8 ∧ (s.queue 3).pending = true ∧
      (next (exec (.tailRead 3) s)).grantChoice 0 = some 3 := by decide

/-- A step performs the front command with the queue's rest. -/
theorem test_step_takes_the_front :
    (next (step { State.reset with pending := [.powerUp true, .stabilityWindow 1600] })).pending = [.stabilityWindow 1600] ∧
    (next (step { State.reset with pending := [.powerUp true] })).power = .stability 0 := by decide

end Sys2Proof.Tests
end

section
/-! The bytes of a frame (R212): what one byte write changes and leaves, then the same for a number written over
several bytes, least significant first (R16). -/

namespace Sys2Proof.Machine

/-! ## One byte -/

theorem Memory.read_write_same {m : Memory} (a : Nat) (b : BitVec 8) (h : m.wf = true) : (m.write a b).read a = b :=
  Tbl.get_set_same a b h

theorem Memory.read_write_other (m : Memory) {a i : Nat} (b : BitVec 8) (h : i ≠ a) :
    (m.write a b).read i = m.read i :=
  Tbl.get_set_other m b h

theorem Memory.wf_write {m : Memory} (a : Nat) (b : BitVec 8) (h : m.wf = true) : (m.write a b).wf = true :=
  Tbl.wf_set a b h

/-! ## A number over several bytes -/

theorem Memory.wf_writeNat {m : Memory} (a v n : Nat) (h : m.wf = true) : (m.writeNat a v n).wf = true := by
  induction n generalizing m a v with
  | zero => exact h
  | succ n ih => exact ih (a + 1) (v / 256) (Memory.wf_write a (BitVec.ofNat 8 v) h)

theorem Memory.read_writeNat_outside (m : Memory) (v : Nat) {a b n : Nat} (h : b < a ∨ a + n ≤ b) :
    (m.writeNat a v n).read b = m.read b := by
  induction n generalizing m a v with
  | zero => rfl
  | succ n ih =>
    have outsideRest : b < a + 1 ∨ a + 1 + n ≤ b := by omega
    have notFirst : b ≠ a := by omega
    exact (ih _ _ outsideRest).trans (Memory.read_write_other m _ notFirst)

/-- The lowest byte survives the writes behind it, so the digit of weight 1 is v mod 256 and the bytes behind it spell
v / 256. -/
theorem Memory.readNat_writeNat {m : Memory} (a v n : Nat) (h : m.wf = true) :
    (m.writeNat a v n).readNat a n = v % 256 ^ n := by
  induction n generalizing m a v with
  | zero => simp [Memory.readNat, Nat.mod_one]
  | succ n ih =>
    have firstByte : (m.writeNat a v (n + 1)).read a = BitVec.ofNat 8 v :=
      (Memory.read_writeNat_outside _ _ (.inl a.lt_succ_self)).trans (Memory.read_write_same a _ h)
    have otherBytes : (m.writeNat a v (n + 1)).readNat (a + 1) n = v / 256 % 256 ^ n :=
      ih (a + 1) (v / 256) (Memory.wf_write a _ h)
    calc (m.writeNat a v (n + 1)).readNat a (n + 1)
        = v % 256 + 256 * (v / 256 % 256 ^ n) := by
          rw [Memory.readNat, firstByte, otherBytes, BitVec.toNat_ofNat]
      _ = v % 256 ^ (n + 1) := by rw [Nat.pow_succ', Nat.mod_mul]

/-- Settles O29, by induction on the number of stored bytes. -/
theorem storedBytesReadBack : Obligations.StoredBytesReadBack :=
  fun _ a v n h => ⟨Memory.readNat_writeNat a v n h, fun _ outside => Memory.read_writeNat_outside _ v outside,
    Memory.wf_writeNat a v n h⟩

end Sys2Proof.Machine
end

section
/-! A released sheaf's own step (R120): the step of an opcode acts on the sheaf that the node slot holds. -/

namespace Sys2Proof.Machine
open Sys2Proof.Claim

section OwnSteps
variable {s : State} {n op : Nat} {d : Node}

theorem released_opcode (h : Released s n d op) : hOp d.lines = op := by
  obtain ⟨-, -, -, -, -, opcode⟩ := h
  exact opcode

theorem ownStep_acts (h : Released s n d op) {p : Node → Bool} (hp : p d = true) (f : State → Node → State) :
    ok (isNode n) (s.when s.working fun s => s.opStep n p f) = .next (f s d) := by
  obtain ⟨slot, working, node, ready, running, -⟩ := h
  simp [slot, working, State.opStep, node, ready, running, hp]

theorem opcodeStep_acts (h : Released s n d op) (f : State → Node → State) :
    ok (isNode n) (s.when s.working fun s => s.opStep n (fun d => hOp d.lines == op) f) = .next (f s d) := by
  exact ownStep_acts h (by simp [released_opcode h]) f

theorem subStep_acts {sub : Nat} (h : Released s n d op) (hs : aSub d.lines = sub) (f : State → Node → State) :
    ok (isNode n) (s.when s.working fun s =>
      s.opStep n (fun d => hOp d.lines == op && aSub d.lines == sub) f) = .next (f s d) := by
  exact ownStep_acts h (by simp [released_opcode h, hs]) f

end OwnSteps

/-- Settles O9: the own step of a released NOP is its retirement, whose frame is `State.retireWith_frame`. -/
theorem nopRetiresDone : Obligations.NopRetiresDone := by
  intro n d s h t
  have step : exec (.nop n) s = .next t := opcodeStep_acts h fun s _ => s.retireWith n stDone 1 0
  simp [step, t]

/-! ## Engine sheaves (R96, R120, R130, R317) -/

theorem State.withReads_unread (s : State) (c : Instr) (xs : List LineNeed) (wait f : State → State) :
    s.withReads c xs wait f =
      if (unread s c xs).all s.lineHeld then f (hasRead s c) else wait (s.beginReads c (unread s c xs)) := rfl

/-- The image build of an engine sheaf reads its lines first; the launch looks at nothing that this changes. -/
theorem State.launchOf_cases (s : State) (c : Instr) (n : Nat) (d : Node) :
    let needs := sheafNeeds n d.lines.length
    (Holds s (unread s c needs) → s.launchOf c n d = (hasRead s c).launch n d) ∧
    (¬ Holds s (unread s c needs) → s.launchOf c n d = asksReads s c c needs) := by
  intro needs
  unfold State.launchOf
  rw [State.withReads_unread]
  exact ⟨fun held => if_pos held, fun lacking => if_neg lacking⟩

/-- The check of the image's metadata (R205) looks at nothing that the reads of the lines change. -/
theorem State.sheafMeta_hasRead (s : State) (c : Instr) (d : Node) : (hasRead s c).sheafMeta d = s.sheafMeta d := rfl

theorem engineSheavesAskForAdmission : EngineSheavesAskForAdmission := by
  intro n d s needs launched asked
  have launches (c : Instr) : (hasRead s c).launch n d = launched (hasRead s c) := by
    simp only [State.launch, State.sheafMeta_hasRead, launched]
    cases s.sheafMeta d <;> rfl
  have asks (c : Instr) (step : exec c s = .next (s.launchOf c n d)) : asked c := by
    obtain ⟨held, lacking⟩ := s.launchOf_cases c n d
    exact ⟨fun h => by rw [step, held h, launches], fun h => by rw [step, lacking h]⟩
  exact ⟨fun h => asks (.start n) (opcodeStep_acts h fun s d => s.launchOf (.start n) n d),
    fun h => asks (.cfgstart n) (opcodeStep_acts h fun s d => s.launchOf (.cfgstart n) n d),
    fun h => asks (.combine n) (opcodeStep_acts h fun s d => s.launchOf (.combine n) n d),
    fun h => asks (.measure n) (opcodeStep_acts h fun s d => s.launchOf (.measure n) n d)⟩

/-! ## FENCE and CALL (R98, R213, R385) -/

theorem fenceQueueRetiresDone : FenceQueueRetiresDone := by
  intro n d s h sub
  have step : exec (.fenceQueue n) s = .next ((s.fenceOrigin d.queue).retireWith n stDone 1 0) :=
    subStep_acts h sub fun s d => (s.fenceOrigin d.queue).retireWith n stDone 1 0
  exact step

theorem callQueuesItsFirstRun : CallQueuesItsFirstRun := by
  intro n d s h loaded k d'
  refine (opcodeStep_acts h _).trans ?_
  simp only [loaded, if_false]
  rfl

theorem State.isArrival_iff (s : State) (d : Node) :
    s.isArrival d = true ↔
      s.fence.en = true ∧ (isSystem d.ctx = true ∨ (s.ctx d.ctx).part = s.fence.part.toNat) := by
  simp [State.isArrival]

theorem fenceStepArrives : FenceStepArrives := by
  intro n d s h counts
  obtain ⟨released, sub⟩ := h
  have step : exec (.fenceStep n) s = .next (s.fenceStep n d) := subStep_acts released sub fun s d => s.fenceStep n d
  have arrival : s.isArrival d = true ↔ counts := s.isArrival_iff d
  refine ⟨fun c acts drained => ?_, fun c waits => ?_, fun c => ?_⟩ <;> rw [step, State.fenceStep]
  · simp [arrival.mpr c, acts, drained]
  · rcases waits with waits | waits <;> simp [arrival.mpr c, waits]
  · simp [mt arrival.mp c]

/-- Settles O10 from its four parts: each opcode's own step is `exec` of its command (`ownStep_acts`). -/
theorem ownStepsReachTheirUnits : Obligations.OwnStepsReachTheirUnits :=
  ⟨engineSheavesAskForAdmission, fenceQueueRetiresDone, callQueuesItsFirstRun, fenceStepArrives⟩

/-! ## BRANCH (R99, R301-R303) -/

/-- Reading a line that the cache holds changes nothing (R317). -/
theorem State.askLine_read_held {s : State} {x : LineNeed} (read : x.write = false) (held : s.lineHeld x = true) :
    s.askLine x = s := by
  have notI : (s.aline x.agent x.line).st ≠ .i := by
    intro i
    simp [State.lineHeld, read, State.readable, i] at held
  simp [State.askLine, read, State.localRead, notI]

theorem branchObjectDecides : BranchObjectDecides := by
  intro n d s h sub o allowed held
  have step : exec (.branchObject n) s = .next (s.withLines (s.branchNeeds d) (·.park (.branchObject n)) fun s =>
      s.branchObject n d) :=
    subStep_acts h sub fun s d =>
      s.withLines (s.branchNeeds d) (·.park (.branchObject n)) fun s => s.branchObject n d
  have needs : s.branchNeeds d = [hiveNeed o false] := if_pos allowed
  have lineHeld : s.lineHeld (hiveNeed o false) = true := by simpa [Holds] using held
  rw [step, needs, State.withLines_held _ _ held, List.foldl_cons, List.foldl_nil,
    State.askLine_read_held rfl lineHeld, State.branchObject]
  simp [allowed, o]

theorem branchDeadline_evaluates {s : State} {n : Nat} {d : Node} (slot : isNode n) (working : s.working = true)
    (node : s.node n = some d) (phase : d.phase = .branch) (running : s.frozen d = false)
    (numbered : d.seq.toNat + fld (aw d.lines 0) 31 16 < (s.queue d.queue).nextSeq.toNat) :
    exec (.deadlineEvaluation n) s = .next (s.evaluate n d) := by
  show execDeadlineEvaluation n s = _
  simp [execDeadlineEvaluation, slot, working, node, phase, running, numbered]

theorem branchDeadline_frozen {s : State} {n : Nat} {d : Node} (slot : isNode n) (node : s.node n = some d)
    (frozen : s.frozen d = true) : exec (.deadlineEvaluation n) s = .next s := by
  show execDeadlineEvaluation n s = _
  simp [execDeadlineEvaluation, slot, State.when, node, frozen]

theorem branchDeadlineIsEvaluated : BranchDeadlineIsEvaluated := by
  refine ⟨fun n d s h sub => subStep_acts h sub fun s d => s.setNode n (some { d with phase := .branch }),
    fun n d s slot node frozen => branchDeadline_frozen slot node frozen,
    fun n d s slot working node phase running numbered => ?_⟩
  rw [branchDeadline_evaluates slot working node phase running numbered]
  exact ⟨fun none => by simp [State.evaluate, none], fun l limit => by simp [State.evaluate, limit]⟩

/-- Settles O11 from its two parts. -/
theorem branchesDecide : Obligations.BranchesDecide := ⟨branchObjectDecides, branchDeadlineIsEvaluated⟩

end Sys2Proof.Machine
end

section
/-! What stands behind a retirement (R71, R108-R110): freeing a node slot, the trace, the accounting, break units, edges
and the notice of a TALLY leave the queues alone, forget nothing that was driven, occupy no node slot and start no run. -/

namespace Sys2Proof.Machine

/-! ## Background work: coherence, runs of control cores, the trace -/

/-- `t` is `s` but for the tables of the coherence protocol, the control cores, the trace and the model's counters. -/
def State.Background (s t : State) : Prop :=
  ∃ free stamp oldSlots oldRetired cores agents dirs net reads trace, t = { s with
    free := free, stamp := stamp, oldSlots := oldSlots, oldRetired := oldRetired, cores := cores, agents := agents
    dirs := dirs, net := net, reads := reads, trace := trace }

namespace State.Background

theorem refl (s : State) : s.Background s := ⟨_, _, _, _, _, _, _, _, _, _, rfl⟩

theorem trans {s t u : State} (h : s.Background t) (h' : t.Background u) : s.Background u := by
  obtain ⟨_, _, _, _, _, _, _, _, _, _, rfl⟩ := h
  obtain ⟨_, _, _, _, _, _, _, _, _, _, rfl⟩ := h'
  exact ⟨_, _, _, _, _, _, _, _, _, _, rfl⟩

theorem forAll (s : State) (ns : List Nat) {f : State → Nat → State} (h : ∀ (x : State) n, x.Background (f x n)) :
    s.Background (s.forAll ns f) := by
  induction ns generalizing s with
  | nil => exact refl s
  | cons n ns ih => exact (h s n).trans (ih (f s n))

theorem queues {s t : State} (h : s.Background t) : t.queues = s.queues := by
  obtain ⟨_, _, _, _, _, _, _, _, _, _, rfl⟩ := h
  rfl

theorem queue {s t : State} (h : s.Background t) (q : Nat) : t.queue q = s.queue q := by
  simp only [State.queue, h.queues]

theorem regs {s t : State} (h : s.Background t) : t.regs = s.regs := by
  obtain ⟨_, _, _, _, _, _, _, _, _, _, rfl⟩ := h
  rfl

theorem nodes {s t : State} (h : s.Background t) : t.nodes = s.nodes := by
  obtain ⟨_, _, _, _, _, _, _, _, _, _, rfl⟩ := h
  rfl

end State.Background

section Background
variable (s : State)

theorem State.send_background (src dst : Nat) (l : CohLine) (k : MsgKind) : s.Background (s.send src dst l k) :=
  ⟨_, _, _, _, _, _, _, _, _, _, rfl⟩

theorem State.setDir_background (l : CohLine) (x : Dir) : s.Background (s.setDir l x) :=
  ⟨_, _, _, _, _, _, _, _, _, _, rfl⟩

theorem State.writeHome_background (l : CohLine) : s.Background (s.writeHome l) := by
  unfold State.writeHome
  split <;> exact ⟨_, _, _, _, _, _, _, _, _, _, rfl⟩

theorem State.invAll_background (l : CohLine) (v : List Nat) : s.Background (s.invAll l v) :=
  .forAll s v fun x _ => x.send_background _ _ _ _

/-- A home that serves a request writes the line's directory entry, and then invalidates, answers or forwards. -/
theorem State.serve_background (l : CohLine) (r : Nat) (q : Req) (shared : Bool) :
    s.Background (s.serve l r q shared) := by
  have enters (x : Dir) : s.Background (s.setDir l x) := s.setDir_background l x
  have invalidates (x : Dir) (v : List Nat) : s.Background ((s.setDir l x).invAll l v) :=
    (enters x).trans (State.invAll_background _ l v)
  have answers (x : Dir) (a : Nat) (k : MsgKind) : s.Background ((s.setDir l x).send (homeEnd l) a l k) :=
    (enters x).trans (State.send_background _ _ a l k)
  unfold State.serve
  dsimp only
  repeat' split
  · exact invalidates _ _
  · exact (enters _).trans (State.writeHome_background _ l)
  · exact enters _
  · exact enters _
  · exact enters _
  · exact enters _
  · exact answers _ _ _
  · exact enters _
  · exact invalidates _ _
  · exact answers _ _ _
  · exact answers _ _ _

theorem State.takeBack_background (l : CohLine) : s.Background (s.takeBack l) := by
  unfold State.takeBack
  dsimp only
  split
  · exact s.setDir_background l _
  · exact (s.setDir_background l _).trans (State.invAll_background _ _ _)

theorem State.serveNext_background (l : CohLine) (k : Nat) : s.Background (s.serveNext l k) := by
  induction k generalizing s with
  | zero => exact .refl s
  | succ k ih =>
    unfold State.serveNext
    dsimp only
    repeat' split
    · exact .refl s
    · exact (s.takeBack_background l).trans (ih _)
    · exact ((s.setDir_background l _).trans (State.serve_background _ _ _ _ _)).trans (ih _)
    · exact .refl s

theorem State.freeLines_background (n len : Nat) : s.Background (s.freeLines n len) :=
  .trans (t := { s with reads := _ }) ⟨_, _, _, _, _, _, _, _, _, _, rfl⟩
    (.forAll _ _ fun x i => (x.setDir_background (descLine n i) _).trans (State.serveNext_background _ _ _))

theorem State.pickRun_background (k : Nat) : s.Background (s.pickRun k) := by
  unfold State.pickRun
  split
  · exact ⟨_, _, _, _, _, _, _, _, _, _, rfl⟩
  · exact .refl s

theorem State.readyRun_background (k fr : Nat) : s.Background (s.readyRun k fr) := by
  unfold State.readyRun
  split
  · exact .trans ⟨_, _, _, _, _, _, _, _, _, _, rfl⟩ (State.pickRun_background _ k)
  · exact .refl s

theorem State.wakeIssuers_background : s.Background s.wakeIssuers :=
  .forAll s _ fun x k => .forAll x _ fun y fr => by
    repeat' split
    · exact y.readyRun_background k fr
    all_goals exact .refl y

theorem State.traceRec_background (kind q : Nat) (c : Option Nat) (w1 : Word) :
    s.Background (s.traceRec kind q c w1) := by
  unfold State.traceRec
  dsimp only
  split
  · exact ⟨_, _, _, _, _, _, _, _, _, _, rfl⟩
  · exact .refl s

/-- Freeing a node slot is background work behind the slot itself. -/
theorem State.freeNode_background {n : Nat} {d : Node} (h : s.node n = some d) :
    (s.setNode n none).Background (s.freeNode n) := by
  have taken (kept : Bool) : (s.setNode n none).Background
      (if kept then s.setNode n none else (s.setNode n none).freeLines n d.lines.length) := by
    cases kept
    · exact State.freeLines_background _ n d.lines.length
    · exact .refl _
  simp only [State.freeNode, h]
  exact (taken _).trans (State.wakeIssuers_background _)

end Background

/-! ## What follows a retirement -/

/-- From `s` to `t` nothing that was driven is forgotten, no node slot is taken and no run is started; the time, the
recovery state and the generations of the contexts stay as they are. -/
structure State.Follows (s t : State) : Prop where
  canonical : t.Canonical
  usec : t.usec = s.usec
  recov : t.recov = s.recov
  gen : ∀ c, (t.ctx c).gen = (s.ctx c).gen
  idle : ∀ f, (s.furrow f).run = none → (t.furrow f).run = none
  free : ∀ n, s.node n = none → t.node n = none
  driven : ∀ o ∈ s.out, o ∈ t.out

namespace State.Follows

theorem refl {s : State} (hs : s.Canonical) : s.Follows s :=
  ⟨hs, rfl, rfl, fun _ => rfl, fun _ h => h, fun _ h => h, fun _ h => h⟩

theorem trans {s t u : State} (h : s.Follows t) (h' : t.Follows u) : s.Follows u where
  canonical := h'.canonical
  usec := h'.usec.trans h.usec
  recov := h'.recov.trans h.recov
  gen c := (h'.gen c).trans (h.gen c)
  idle f i := h'.idle f (h.idle f i)
  free n i := h'.free n (h.free n i)
  driven o i := h'.driven o (h.driven o i)

theorem forAll {s : State} (hs : s.Canonical) (ns : List Nat) {f : State → Nat → State}
    (h : ∀ (x : State) n, x.Canonical → x.Follows (f x n)) : s.Follows (s.forAll ns f) := by
  induction ns generalizing s with
  | nil => exact refl hs
  | cons n ns ih => exact (h s n hs).trans (ih (h s n hs).canonical)

/-- A change of other tables. -/
theorem of_tables {s t : State} (ht : t.Canonical) (usec : t.usec = s.usec) (recov : t.recov = s.recov)
    (ctxs : t.ctxs = s.ctxs) (furrows : t.furrows = s.furrows) (nodes : t.nodes = s.nodes) (out : t.out = s.out) :
    s.Follows t where
  canonical := ht
  usec := usec
  recov := recov
  gen c := by simp only [State.ctx, ctxs]
  idle f i := by simpa only [State.furrow, furrows] using i
  free n i := by simpa only [State.node, nodes] using i
  driven o i := out ▸ i

end State.Follows

theorem State.Background.follows {s t : State} (h : s.Background t) (ht : t.Canonical) : s.Follows t := by
  obtain ⟨_, _, _, _, _, _, _, _, _, _, rfl⟩ := h
  exact .of_tables ht rfl rfl rfl rfl rfl rfl

section Tables
variable {α : Type} [DecidableEq α] {d : α}

/-- Changing every listed entry is read entry by entry, where the change leaves the default alone. -/
theorem Tbl.get_mapAllFrom {f : Nat → α → α} {t : Tbl α} {lo k : Nat} (hd : f k d = d) (h : Tbl.wfFrom d lo t = true) :
    Tbl.get d (Tbl.mapAll d f t) k = f k (Tbl.get d t k) := by
  induction t generalizing lo with
  | nil => exact hd.symm
  | cons e t ih =>
    obtain ⟨j, x⟩ := e
    simp only [Tbl.wfFrom, Bool.and_eq_true, decide_eq_true_eq] at h
    obtain ⟨-, rest⟩ := h
    have tail : Tbl.get d (Tbl.mapAll d f t) k = f k (Tbl.get d t k) := ih rest
    have unlisted (e : j = k) : Tbl.get d t k = d := Tbl.get_of_wfFrom rest (by omega)
    by_cases hx : f j x = d
    · have dropped : Tbl.mapAll d f ((j, x) :: t) = Tbl.mapAll d f t := by simp [Tbl.mapAll, hx]
      by_cases hj : j = k
      · rw [dropped, tail, unlisted hj, hd, ← hx, hj]
        simp [Tbl.get]
      · rw [dropped, tail]
        simp [Tbl.get, hj]
    · have listed : Tbl.mapAll d f ((j, x) :: t) = (j, f j x) :: Tbl.mapAll d f t := by simp [Tbl.mapAll, hx]
      by_cases hj : j = k
      · subst hj
        simp [listed, Tbl.get]
      · simp [listed, Tbl.get, hj, tail]

theorem Tbl.get_mapAll {f : Nat → α → α} {t : Tbl α} {k : Nat} (hd : f k d = d) (h : Tbl.wf d t = true) :
    Tbl.get d (Tbl.mapAll d f t) k = f k (Tbl.get d t k) := Tbl.get_mapAllFrom hd h

end Tables

theorem State.writeQueue_eq (s : State) (q : Nat) (y : Queue) :
    ∃ old, s.writeQueue q y = { s.setQueue q y with oldRetired := old } := by
  unfold State.writeQueue
  dsimp only
  split <;> exact ⟨_, rfl⟩

section Follows
variable {s : State} (hs : s.Canonical)
include hs

/-- Counting for a context changes no generation. -/
theorem State.modAcct_gen (c : Nat) (f : Acct → Acct) (j : Nat) : ((s.modAcct c f).ctx j).gen = (s.ctx j).gen := by
  by_cases h : j = c
  · subst h
    have read : (s.modAcct j f).ctx j = { s.ctx j with acct := f (s.ctx j).acct } :=
      s.setCtx_ctx_same j _ (State.canonical_ctxs hs)
    rw [read]
  · exact congrArg Ctx.gen (s.setCtx_ctx_other _ h)

theorem State.modAcct_follows (c : Nat) (f : Acct → Acct) : s.Follows (s.modAcct c f) where
  canonical := State.modAcct_canonical s c f hs
  usec := rfl
  recov := rfl
  gen := s.modAcct_gen hs c f
  idle _ h := h
  free _ h := h
  driven _ h := h

/-- A furrow whose run stays, or ends. -/
theorem State.setFurrow_follows (f : Nat) (x : Furrow) (h : (s.furrow f).run = none → x.run = none) :
    s.Follows (s.setFurrow f x) where
  canonical := State.setFurrow_canonical s f x hs
  usec := rfl
  recov := rfl
  gen _ := rfl
  idle j i := by
    by_cases e : j = f
    · subst e
      rw [s.setFurrow_furrow_same j x (State.canonical_furrows hs)]
      exact h i
    · rwa [s.setFurrow_furrow_other x e]
  free _ h := h
  driven _ h := h

theorem State.drive_follows (o : Out) : s.Follows (s.drive o) where
  canonical := State.drive_canonical s o hs
  usec := rfl
  recov := rfl
  gen _ := rfl
  idle _ h := h
  free _ h := h
  driven _ h := List.mem_cons_of_mem o h

theorem State.driveAll_follows (os : List Out) : s.Follows (s.driveAll os) := by
  induction os generalizing s with
  | nil => exact .refl hs
  | cons o os ih => exact (s.drive_follows hs o).trans (ih (State.drive_canonical s o hs))

theorem State.discard_follows (f : Nat) : s.Follows (s.discard f) := by
  unfold State.discard
  split
  · have emptied := s.setFurrow_follows hs f { s.furrow f with shadow := none } fun h => h
    exact emptied.trans (State.drive_follows emptied.canonical _)
  · exact .refl hs

theorem State.discardWhere_follows (p : Entry → Bool) : s.Follows (s.discardWhere p) :=
  .forAll hs _ fun _ f hx => State.discard_follows hx f

/-- A change of every sheaf, where it stands. -/
theorem State.mapNodes_follows (f : Nat → Node → Node) :
    s.Follows { s with nodes := s.nodes.mapAll none fun n o => o.map (f n) } where
  canonical := by simp [hs]
  usec := rfl
  recov := rfl
  gen _ := rfl
  idle _ h := h
  free n h := by
    have read := Tbl.get_mapAll (f := fun n o => o.map (f n)) (k := n) rfl (State.canonical_nodes hs)
    exact read.trans (congrArg _ h)
  driven _ h := h

theorem State.beginPause_follows (c : Nat) : s.Follows (s.beginPause c) := by
  have discards := s.discardWhere_follows hs fun e => decide ((s.queue e.queue).ctx = c) &&
    decide ((s.queue e.queue).kind = .user)
  exact discards.trans (State.mapNodes_follows discards.canonical _)

theorem State.setBrk_follows (u : Nat) (x : Break) : s.Follows (s.setBrk u x) :=
  .of_tables (State.setBrk_canonical s u x hs) rfl rfl rfl rfl rfl rfl

theorem State.fireBreak_follows (u : Nat) : s.Follows (s.fireBreak u) :=
  (s.setBrk_follows hs u _).trans (State.beginPause_follows (s.setBrk_follows hs u _).canonical _)

theorem State.countBreaks_follows (q n : Nat) : s.Follows (s.countBreaks q n) := by
  unfold State.countBreaks
  split
  · refine .forAll hs _ fun x u hx => ?_
    dsimp only
    split
    · exact (x.setBrk_follows hx u _).trans (State.fireBreak_follows (x.setBrk_follows hx u _).canonical u)
    · exact x.setBrk_follows hx u _
  · exact .refl hs

theorem State.settleEdges_follows (hit : EdgeTarget → Bool) (zero : Bool) : s.Follows (s.settleEdges hit zero) :=
  s.mapNodes_follows hs _

theorem State.checkAbortBusy_follows : s.Follows s.checkAbortBusy := by
  unfold State.checkAbortBusy
  split
  · exact .of_tables hs rfl rfl rfl rfl rfl rfl
  · exact .refl hs

theorem State.sendMsix_follows (v : Nat) : s.Follows (s.sendMsix v) := by
  unfold State.sendMsix
  repeat' split
  · exact .refl hs
  · exact .of_tables hs rfl rfl rfl rfl rfl rfl
  · exact s.drive_follows hs _

theorem State.tallyEnd_follows (d : Node) : s.Follows (s.tallyEnd d) := by
  unfold State.tallyEnd
  split
  · exact s.sendMsix_follows hs 1
  · exact .refl hs

/-- A sheaf takes the place of another one, or of itself. -/
theorem State.setNode_follows {n : Nat} {d : Node} (h : s.node n = some d) (x : Option Node) :
    s.Follows (s.setNode n x) where
  canonical := State.setNode_canonical s n x hs
  usec := rfl
  recov := rfl
  gen _ := rfl
  idle _ h := h
  free m i := by
    have other : m ≠ n := by
      rintro rfl
      simp [h] at i
    rwa [s.setNode_node_other x other]
  driven _ h := h

theorem State.modNode_follows (n : Nat) (f : Node → Node) : s.Follows (s.modNode n f) where
  canonical := State.modNode_canonical s n f hs
  usec := rfl
  recov := rfl
  gen _ := rfl
  idle _ h := h
  free m i := by
    by_cases e : m = n
    · subst e
      exact (s.setNode_node_same m _ (State.canonical_nodes hs)).trans (by rw [i]; rfl)
    · exact (s.setNode_node_other _ e).trans i
  driven _ h := h

theorem State.freeNode_follows (n : Nat) : s.Follows (s.freeNode n) := by
  have canonical : (s.freeNode n).Canonical := State.freeNode_canonical s n hs
  cases h : s.node n with
  | none => simpa only [State.freeNode, h] using State.Follows.refl hs
  | some d => exact (s.setNode_follows hs h none).trans ((s.freeNode_background h).follows canonical)

/-- The slot that is freed is free. -/
theorem State.freeNode_node (n : Nat) : (s.freeNode n).node n = none := by
  cases h : s.node n with
  | none => simp only [State.freeNode, h]
  | some d =>
    have emptied : (s.setNode n none).node n = none := s.setNode_node_same n none (State.canonical_nodes hs)
    rwa [State.node, (s.freeNode_background h).nodes]

theorem State.traceRec_follows (kind q : Nat) (c : Option Nat) (w1 : Word) : s.Follows (s.traceRec kind q c w1) :=
  (s.traceRec_background kind q c w1).follows (State.traceRec_canonical s kind q c w1 hs)

theorem State.setQueue_follows (q : Nat) (x : Queue) : s.Follows (s.setQueue q x) :=
  .of_tables (State.setQueue_canonical s q x hs) rfl rfl rfl rfl rfl rfl

theorem State.putRecord_follows (r : Record) : s.Follows (s.putRecord r) := by
  unfold State.putRecord
  dsimp only
  split
  · exact s.setQueue_follows hs r.queue _
  · exact (s.setQueue_follows hs r.queue _).trans (State.drive_follows (s.setQueue_follows hs r.queue _).canonical _)

/-- Writing a queue keeps for RETIRED what its storage still holds (R319). -/
theorem State.writeQueue_follows (q : Nat) (y : Queue) : s.Follows (s.writeQueue q y) := by
  obtain ⟨old, written⟩ := s.writeQueue_eq q y
  have canonical : (s.writeQueue q y).Canonical := State.writeQueue_canonical s q y hs
  rw [written] at canonical ⊢
  exact .of_tables canonical rfl rfl rfl rfl rfl rfl

end Follows

end Sys2Proof.Machine
end

section
/-! The retirement of a sequence number (R68, R71, R74, R110): what it makes of its queue, of the node slot and of the
record that goes out. -/

namespace Sys2Proof.Machine

/-! ## The queue -/

/-- A record is produced: counted as written, or held while the ring is full (R74). -/
def Queue.put (x : Queue) (r : Record) : Queue :=
  if x.recFull then { x with held := x.held ++ [r] } else { x with recWritten := x.recWritten + 1 }

/-- Sequence number `seq` is remembered as retired; a sheaf that was accepted is in flight no longer (R110). -/
def Queue.marked (x : Queue) (seq : Word) (r : Retired) (accepted : Bool) : Queue :=
  { x with
    record := Tbl.ins x.record seq.toNat (some r), inflight := if accepted then x.inflight - 1 else x.inflight }

/-- A queue in which the sequence number of a retire record retires: it is remembered, its record is produced if RECMODE
asks for one, and RETIRED advances (R71). -/
def Queue.retire (x : Queue) (r : Retired) (rec : Record) : Queue :=
  let y := x.marked rec.seq r rec.node.isSome
  ((if y.records rec.status then y.put rec else y).advance 4097).dropBranches

namespace Queue
variable (x : Queue)

@[simp] theorem advance_keeps (k : Nat) :
    (x.advance k).config = x.config ∧
    (x.advance k).head = x.head ∧
    (x.advance k).nextSeq = x.nextSeq ∧
    (x.advance k).inflight = x.inflight ∧
    (x.advance k).record = x.record ∧
    (x.advance k).recWritten = x.recWritten ∧
    (x.advance k).held = x.held := by
  induction k generalizing x with
  | zero => simp [Queue.advance]
  | succ k ih =>
    unfold Queue.advance
    (repeat' split) <;> simp [ih]

@[simp] theorem dropBranches_keeps :
    x.dropBranches.config = x.config ∧
    x.dropBranches.head = x.head ∧
    x.dropBranches.nextSeq = x.nextSeq ∧
    x.dropBranches.inflight = x.inflight ∧
    x.dropBranches.record = x.record ∧
    x.dropBranches.recWritten = x.recWritten ∧
    x.dropBranches.held = x.held := by
  simp [Queue.dropBranches]

@[simp] theorem put_keeps (r : Record) :
    (x.put r).config = x.config ∧
    (x.put r).head = x.head ∧
    (x.put r).nextSeq = x.nextSeq ∧
    (x.put r).inflight = x.inflight ∧
    (x.put r).record = x.record := by
  unfold Queue.put
  split <;> simp

@[simp] theorem marked_recFull (seq : Word) (r : Retired) (accepted : Bool) :
    (x.marked seq r accepted).recFull = x.recFull := rfl
@[simp] theorem marked_records (seq : Word) (r : Retired) (accepted : Bool) (status : BitVec 8) :
    (x.marked seq r accepted).records status = x.records status := rfl

@[simp] theorem marked_recWritten (seq : Word) (r : Retired) (accepted : Bool) :
    (x.marked seq r accepted).recWritten = x.recWritten := rfl

/-- A retirement leaves HEAD, the next sequence number and the recorded configuration alone. -/
theorem retire_keeps (r : Retired) (rec : Record) :
    (x.retire r rec).config = x.config ∧ (x.retire r rec).head = x.head ∧
    (x.retire r rec).nextSeq = x.nextSeq := by
  unfold Queue.retire
  dsimp only
  split <;> simp [Queue.marked]

theorem retire_inflight (r : Retired) (rec : Record) :
    (x.retire r rec).inflight = if rec.node.isSome then x.inflight - 1 else x.inflight := by
  unfold Queue.retire
  dsimp only
  split <;> simp [Queue.marked]

theorem retire_record (r : Retired) (rec : Record) :
    (x.retire r rec).record = Tbl.ins x.record rec.seq.toNat (some r) := by
  unfold Queue.retire
  dsimp only
  split <;> simp [Queue.marked]

/-- With room in the ring a record that RECMODE asks for is counted as written. -/
theorem retire_recWritten (r : Retired) {rec : Record} (room : x.recFull = false)
    (asked : x.records rec.status = true) : (x.retire r rec).recWritten = x.recWritten + 1 := by
  simp [Queue.retire, asked, Queue.put, room]

end Queue

/-! ## The state -/

/-- The queue's part of a retirement: the sequence number is remembered and the record produced. -/
def State.recorded (s : State) (q : Nat) (seq : Word) (tag : BitVec 32) (gen : BitVec 12) (fin : Final)
    (node : Option Nat) : State :=
  let s := s.markRetired q seq tag fin.status fin.executed node.isSome
  if (s.queue q).records fin.status then s.putRecord (retireRecord q seq tag gen fin node) else s

/-- The node slot of a sheaf that retires: free, or kept while its record is held (R109). -/
def State.vacated (s : State) (held : Bool) (fin : Final) : Option Nat → State
  | some n => if held then s.modNode n fun d => { d with phase := .heldRecord, final := some fin } else s.freeNode n
  | none => s

/-- The rest of a retirement: RETIRED, the trace, the accounting and the break units (R71, R434). -/
def State.concluded (s : State) (q c : Nat) (w1 : Word) : State :=
  (((s.advanceQueue q).traceRec 3 q (some c) w1).modAcct c fun a => { a with retired := a.retired + 1 }).countBreaks q 1

section Leaves
variable (s : State)

theorem State.discardWhere_leaves (p : Entry → Bool) :
    (s.discardWhere p).queues = s.queues ∧ (s.discardWhere p).nodes = s.nodes ∧ (s.discardWhere p).regs = s.regs := by
  have one (x : State) (f : Nat) :
      (x.discard f).queues = x.queues ∧ (x.discard f).nodes = x.nodes ∧ (x.discard f).regs = x.regs := by
    unfold State.discard
    split <;> exact ⟨rfl, rfl, rfl⟩
  exact ⟨State.forAll_keep (·.queues) _ _ _ fun x f => (one x f).1,
    State.forAll_keep (·.nodes) _ _ _ fun x f => (one x f).2.1,
    State.forAll_keep (·.regs) _ _ _ fun x f => (one x f).2.2⟩

theorem State.fireBreak_leaves (u : Nat) : (s.fireBreak u).queues = s.queues ∧ (s.fireBreak u).regs = s.regs := by
  obtain ⟨queues, -, regs⟩ := State.discardWhere_leaves (s.setBrk u { s.brk u with hit := true }) fun e =>
    decide ((s.queue e.queue).ctx = (s.brk u).ctx.toNat) && decide ((s.queue e.queue).kind = .user)
  exact ⟨queues, regs⟩

theorem State.countBreaks_leaves (q n : Nat) :
    (s.countBreaks q n).queues = s.queues ∧ (s.countBreaks q n).regs = s.regs := by
  unfold State.countBreaks
  split
  · constructor
    · refine State.forAll_keep (·.queues) _ _ _ fun x u => ?_
      dsimp only
      split
      · exact (State.fireBreak_leaves _ u).1
      · rfl
    · refine State.forAll_keep (·.regs) _ _ _ fun x u => ?_
      dsimp only
      split
      · exact (State.fireBreak_leaves _ u).2
      · rfl
  · exact ⟨rfl, rfl⟩

theorem State.freeNode_leaves (n : Nat) : (s.freeNode n).queues = s.queues ∧ (s.freeNode n).regs = s.regs := by
  cases h : s.node n with
  | none => simp only [State.freeNode, h, and_self]
  | some d => exact ⟨(s.freeNode_background h).queues, (s.freeNode_background h).regs⟩

theorem State.vacated_leaves (held : Bool) (fin : Final) (node : Option Nat) :
    (s.vacated held fin node).queues = s.queues ∧ (s.vacated held fin node).regs = s.regs := by
  cases node with
  | none => exact ⟨rfl, rfl⟩
  | some n => cases held with
    | true => exact ⟨rfl, rfl⟩
    | false => exact s.freeNode_leaves n

theorem State.recorded_regs (q : Nat) (seq : Word) (tag : BitVec 32) (gen : BitVec 12) (fin : Final)
    (node : Option Nat) : (s.recorded q seq tag gen fin node).regs = s.regs := by
  unfold State.recorded State.putRecord
  dsimp only
  repeat' split
  all_goals rfl

theorem State.advanceQueue_regs (q : Nat) : (s.advanceQueue q).regs = s.regs := by
  obtain ⟨_, e⟩ := s.writeQueue_eq q (((s.queue q).advance 4097).dropBranches)
  rw [State.advanceQueue, e]
  rfl

theorem State.concluded_regs (q c : Nat) (w1 : Word) : (s.concluded q c w1).regs = s.regs :=
  (State.countBreaks_leaves _ q 1).2.trans
    ((State.traceRec_background _ 3 q (some c) w1).regs.trans (s.advanceQueue_regs q))

theorem State.checkAbortBusy_queues : s.checkAbortBusy.queues = s.queues := by
  unfold State.checkAbortBusy
  split <;> rfl

theorem State.tallyEnd_queues (d : Node) : (s.tallyEnd d).queues = s.queues := by
  unfold State.tallyEnd
  split <;> simp

theorem State.retireSeq_eq (q : Nat) (seq : Word) (tag : BitVec 32) (gen : BitVec 12) (fin : Final)
    (node : Option Nat) :
    ∃ w1, s.retireSeq q seq tag gen fin node =
      let x := (s.markRetired q seq tag fin.status fin.executed node.isSome).queue q
      ((s.recorded q seq tag gen fin node).vacated (x.records fin.status && x.recFull) fin node).concluded q
        (s.queue q).ctx w1 := by
  cases node <;> exact ⟨_, rfl⟩

theorem State.retireSeq_regs (q : Nat) (seq : Word) (tag : BitVec 32) (gen : BitVec 12) (fin : Final)
    (node : Option Nat) : (s.retireSeq q seq tag gen fin node).regs = s.regs := by
  obtain ⟨w1, e⟩ := s.retireSeq_eq q seq tag gen fin node
  rw [e]
  exact (State.concluded_regs _ q _ w1).trans
    ((State.vacated_leaves _ _ fin node).2.trans (s.recorded_regs q seq tag gen fin node))

end Leaves

section Retirement
variable {s : State} (hs : s.Canonical)
include hs

theorem State.markRetired_queue (q : Nat) (seq : Word) (tag : BitVec 32) (status : BitVec 8) (executed : Nat)
    (accepted : Bool) :
    (s.markRetired q seq tag status executed accepted).queue q = (s.queue q).marked seq
      { zero := executed == 0, tag := tag, status := status, stamp := s.stamp } accepted :=
  s.setQueue_queue_same q _ (State.canonical_queues hs)

theorem State.putRecord_queue (r : Record) : (s.putRecord r).queue r.queue = (s.queue r.queue).put r := by
  have written (x : Queue) : (s.setQueue r.queue x).queue r.queue = x :=
    s.setQueue_queue_same r.queue x (State.canonical_queues hs)
  simp only [State.putRecord, Queue.put]
  split
  · exact written _
  · exact written _

theorem State.recorded_follows (q : Nat) (seq : Word) (tag : BitVec 32) (gen : BitVec 12) (fin : Final)
    (node : Option Nat) : s.Follows (s.recorded q seq tag gen fin node) := by
  have marked : s.Follows (s.markRetired q seq tag fin.status fin.executed node.isSome) := s.setQueue_follows hs q _
  unfold State.recorded
  dsimp only
  split
  · exact marked.trans (State.putRecord_follows marked.canonical _)
  · exact marked

theorem State.recorded_queue (q : Nat) (seq : Word) (tag : BitVec 32) (gen : BitVec 12) (fin : Final)
    (node : Option Nat) :
    let y := (s.queue q).marked seq { zero := fin.executed == 0, tag := tag, status := fin.status, stamp := s.stamp }
      node.isSome
    (s.recorded q seq tag gen fin node).queue q =
      if y.records fin.status then y.put (retireRecord q seq tag gen fin node) else y := by
  intro y
  have marked : (s.markRetired q seq tag fin.status fin.executed node.isSome).queue q = y :=
    s.markRetired_queue hs q seq tag fin.status fin.executed node.isSome
  have canonical : (s.markRetired q seq tag fin.status fin.executed node.isSome).Canonical :=
    (s.setQueue_follows hs q _).canonical
  simp only [State.recorded, marked]
  split
  · rw [← marked]
    exact State.putRecord_queue canonical (retireRecord q seq tag gen fin node)
  · exact marked

theorem State.vacated_follows (held : Bool) (fin : Final) (node : Option Nat) : s.Follows (s.vacated held fin node) := by
  cases node with
  | none => exact .refl hs
  | some n => cases held with
    | true => exact s.modNode_follows hs n _
    | false => exact s.freeNode_follows hs n

theorem State.concluded_follows (q c : Nat) (w1 : Word) : s.Follows (s.concluded q c w1) := by
  have advanced : s.Follows (s.advanceQueue q) := s.writeQueue_follows hs q _
  have traced := advanced.trans (State.traceRec_follows advanced.canonical 3 q (some c) w1)
  have counted := traced.trans (State.modAcct_follows traced.canonical c fun a => { a with retired := a.retired + 1 })
  exact counted.trans (State.countBreaks_follows counted.canonical q 1)

theorem State.concluded_queue (q c : Nat) (w1 : Word) :
    (s.concluded q c w1).queue q = ((s.queue q).advance 4097).dropBranches := by
  have advanced : (s.advanceQueue q).queue q = ((s.queue q).advance 4097).dropBranches := by
    obtain ⟨_, e⟩ := s.writeQueue_eq q (((s.queue q).advance 4097).dropBranches)
    rw [State.advanceQueue, e]
    exact s.setQueue_queue_same q _ (State.canonical_queues hs)
  have same : (s.concluded q c w1).queues = (s.advanceQueue q).queues :=
    (State.countBreaks_leaves _ q 1).1.trans (State.traceRec_background _ 3 q (some c) w1).queues
  rw [State.queue, same]
  exact advanced

theorem State.retireSeq_stages (q : Nat) (seq : Word) (tag : BitVec 32) (gen : BitVec 12) (fin : Final)
    (node : Option Nat) :
    ∃ w1, s.retireSeq q seq tag gen fin node =
      ((s.recorded q seq tag gen fin node).vacated ((s.queue q).records fin.status && (s.queue q).recFull) fin
        node).concluded q (s.queue q).ctx w1 := by
  obtain ⟨w1, e⟩ := s.retireSeq_eq q seq tag gen fin node
  have marked := s.markRetired_queue hs q seq tag fin.status fin.executed node.isSome
  simp only [marked, Queue.marked_records, Queue.marked_recFull] at e
  exact ⟨w1, e⟩

/-- A sequence number retires (R71): everything but its queue is only followed up. -/
theorem State.retireSeq_follows (q : Nat) (seq : Word) (tag : BitVec 32) (gen : BitVec 12) (fin : Final)
    (node : Option Nat) : s.Follows (s.retireSeq q seq tag gen fin node) := by
  obtain ⟨w1, e⟩ := s.retireSeq_stages hs q seq tag gen fin node
  have recorded := s.recorded_follows hs q seq tag gen fin node
  have vacated := recorded.trans (State.vacated_follows recorded.canonical
    ((s.queue q).records fin.status && (s.queue q).recFull) fin node)
  rw [e]
  exact vacated.trans (State.concluded_follows vacated.canonical q _ w1)

theorem State.retireSeq_queue (q : Nat) (seq : Word) (tag : BitVec 32) (gen : BitVec 12) (fin : Final)
    (node : Option Nat) :
    (s.retireSeq q seq tag gen fin node).queue q = (s.queue q).retire
      { zero := fin.executed == 0, tag := tag, status := fin.status, stamp := s.stamp }
      (retireRecord q seq tag gen fin node) := by
  obtain ⟨w1, e⟩ := s.retireSeq_stages hs q seq tag gen fin node
  have recorded := s.recorded_follows hs q seq tag gen fin node
  have vacated := State.vacated_follows recorded.canonical
    ((s.queue q).records fin.status && (s.queue q).recFull) fin node
  rw [e, State.concluded_queue vacated.canonical, State.queue, (State.vacated_leaves _ _ fin node).1]
  exact congrArg (fun y => (Queue.advance y 4097).dropBranches) (s.recorded_queue hs q seq tag gen fin node)

/-- With room for its record the sheaf gives its node slot up (R109). -/
theorem State.retireSeq_node {q n : Nat} {seq : Word} {tag : BitVec 32} {gen : BitVec 12} {fin : Final}
    (room : (s.queue q).recFull = false) : (s.retireSeq q seq tag gen fin (some n)).node n = none := by
  obtain ⟨w1, e⟩ := s.retireSeq_stages hs q seq tag gen fin (some n)
  have recorded := s.recorded_follows hs q seq tag gen fin (some n)
  have freed := State.freeNode_node recorded.canonical n
  rw [e, room, Bool.and_false]
  exact (State.concluded_follows (State.freeNode_canonical _ n recorded.canonical) q _ w1).free n freed

/-- The record goes to its slot of the ring while there is room (R70, R290). -/
theorem State.retireSeq_writes {q : Nat} {seq : Word} {tag : BitVec 32} {gen : BitVec 12} {fin : Final}
    {node : Option Nat} (room : (s.queue q).recFull = false) (asked : (s.queue q).records fin.status = true) :
    let x := s.queue q
    .memWrite (s.stampOf x.ctx (s.ctx x.ctx).gen) x.recHost
      (x.recBase + BitVec.ofNat 64 (32 * (x.recWritten.toNat % 64)))
      (recordWords (retireRecord q seq tag gen fin node) x.recWritten.toNat s.now) ∈
        (s.retireSeq q seq tag gen fin node).out := by
  intro x
  obtain ⟨w1, e⟩ := s.retireSeq_stages hs q seq tag gen fin node
  have recorded := s.recorded_follows hs q seq tag gen fin node
  have vacated := State.vacated_follows recorded.canonical (x.records fin.status && x.recFull) fin node
  rw [e]
  refine (vacated.trans (State.concluded_follows vacated.canonical q _ w1)).driven _ ?_
  have marked := s.markRetired_queue hs q seq tag fin.status fin.executed node.isSome
  have written : s.recorded q seq tag gen fin node =
      (s.markRetired q seq tag fin.status fin.executed node.isSome).writeRecord
        (retireRecord q seq tag gen fin node) := by
    simp only [State.recorded, State.putRecord, retireRecord, marked]
    exact (if_pos asked).trans (if_neg (by simp [room]))
  rw [written, State.writeRecord, State.drive_out]
  simp only [retireRecord, marked]
  exact List.mem_cons_self

end Retirement

end Sys2Proof.Machine
end

section
/-! CONFIG at its acceptance (R96). -/

namespace Sys2Proof.Machine
open Sys2Proof.Claim

/-- A sheaf that retires at its acceptance takes a sequence number and retires it (R71, R96). -/
theorem State.retireAtAcceptance_queue {s : State} (hs : s.Canonical) (q : Nat) (ls : List Line) (fin : Final) :
    (s.retireAtAcceptance q ls fin).queue q = (s.queue q).number.retire
      { zero := fin.executed == 0, tag := hTag ls, status := fin.status, stamp := s.stamp }
      (retireRecord q (s.queue q).nextSeq (hTag ls) (s.ctx (s.queue q).ctx).gen fin none) := by
  have numbered : (s.modQueue q Queue.number).queue q = (s.queue q).number :=
    s.setQueue_queue_same q _ (State.canonical_queues hs)
  rw [← numbered]
  exact State.retireSeq_queue (State.modQueue_canonical s q Queue.number hs) q _ _ _ fin none

/-- The queue's recorded configuration becomes the REGLOAD lines of a CONFIG, unless REPEAT is 0 (R96). -/
def State.recordConfig (s : State) (q : Nat) (ls : List Line) : State :=
  if hRepeat ls = 0 then s else s.modQueue q fun x => { x with config := regloads ls }

theorem State.recordConfig_canonical {s : State} (hs : s.Canonical) (q : Nat) (ls : List Line) :
    (s.recordConfig q ls).Canonical := by
  unfold State.recordConfig
  split
  · exact hs
  · exact State.modQueue_canonical s q _ hs

theorem State.recordConfig_queue {s : State} (hs : s.Canonical) (q : Nat) (ls : List Line) :
    (s.recordConfig q ls).queue q =
      { s.queue q with config := if hRepeat ls = 0 then (s.queue q).config else regloads ls } := by
  unfold State.recordConfig
  split
  · rfl
  · exact s.setQueue_queue_same q _ (State.canonical_queues hs)

/-- Besides its configuration CONFIG changes the queue as a sheaf does that retires at its acceptance; it is never in
flight. -/
theorem State.acceptConfig_queue {s : State} (hs : s.Canonical) (q : Nat) (ls : List Line) :
    let x := s.queue q
    let y := (s.acceptConfig q ls).queue q
    y.config = (if hRepeat ls = 0 then x.config else regloads ls) ∧ y.head = x.head ∧ y.nextSeq = x.nextSeq + 1 ∧
      y.inflight = x.inflight := by
  intro x y
  let traced := s.traceAccept q ls x.nextSeq.toNat
  have canonical : traced.Canonical := State.traceAccept_canonical s q ls _ hs
  have same : traced.queue q = x := (s.traceRec_background _ _ _ _).queue q
  have recorded := State.recordConfig_queue canonical q ls
  have accepted := State.retireAtAcceptance_queue (State.recordConfig_canonical canonical q ls) q ls
    { status := stDone, executed := if hRepeat ls = 0 then 0 else 1, detail := 0, furrow := noFurrow }
  rw [recorded, same] at accepted
  have retired : y = _ := accepted
  simp only [retired, Queue.retire_keeps, Queue.retire_inflight, retireRecord]
  exact ⟨rfl, rfl, rfl, rfl⟩

/-- Settles O6: the queue is the one that `State.acceptConfig_queue` describes, with the lines of the CONFIG consumed. -/
theorem configReplacesRecordedConfiguration : Obligations.ConfigReplacesRecordedConfiguration := by
  intro q ls s isQ working active fetches front opcode accepted hs
  let u := s.acceptConfig q ls
  refine ⟨u.consume q ls.length, ?_, ?_⟩
  · show execConfig q s = _
    simp [execConfig, isQ, working, active, fetches, front, opcode, accepted, u]
  · have consumed : (u.consume q ls.length).queue q = { u.queue q with
        head := (u.queue q).head + BitVec.ofNat 64 ls.length, fetched := (u.queue q).fetched.drop ls.length
        partialAtTail := false } :=
      u.setQueue_queue_same q _ (State.canonical_queues (State.acceptConfig_canonical s q ls hs))
    obtain ⟨config, head, nextSeq, inflight⟩ := State.acceptConfig_queue hs q ls
    rw [consumed]
    exact ⟨config, congrArg (· + _) head, nextSeq, inflight⟩

end Sys2Proof.Machine
end

section
/-! The end of a sheaf's run without a commit (R88, R296, R297), pre-emption (R298) and queue timeouts (R77). -/

namespace Sys2Proof.Machine
open Sys2Proof.Claim

/-! ## A sheaf with a sequence number retires -/

/-- The report that waits for the steward is background work behind the queues. -/
theorem State.queueScale_eq (s : State) (d : Node) : ∃ waiting, s.queueScale d = { s with stewardQ := waiting } := by
  unfold State.queueScale
  split <;> exact ⟨_, rfl⟩

theorem State.queueScale_regs (s : State) (d : Node) : (s.queueScale d).regs = s.regs := by
  obtain ⟨_, e⟩ := s.queueScale_eq d
  rw [e]

section Sheaf
variable {s : State} (hs : s.Canonical) {n : Nat} {d : Node} {fin : Final}
include hs

theorem State.retireQueued_follows : s.Follows (s.retireQueued n d fin) := by
  have scaled : s.Follows (s.queueScale d) := by
    have canonical : (s.queueScale d).Canonical := State.queueScale_canonical s d hs
    obtain ⟨_, e⟩ := s.queueScale_eq d
    rw [e] at canonical ⊢
    exact .of_tables canonical rfl rfl rfl rfl rfl rfl
  have retired := scaled.trans (State.retireSeq_follows scaled.canonical d.queue d.seq d.tag d.gen fin (some n))
  have settled := retired.trans (State.settleEdges_follows retired.canonical (EdgeTarget.isSeq d.queue d.seq.toNat)
    (fin.executed == 0))
  have checked := settled.trans (State.checkAbortBusy_follows settled.canonical)
  exact checked.trans (State.tallyEnd_follows checked.canonical d)

/-- What a retirement makes of a state is behind the retirement of the sequence number. -/
theorem State.retireSeq_to_retireQueued :
    ((s.queueScale d).retireSeq d.queue d.seq d.tag d.gen fin (some n)).Follows (s.retireQueued n d fin) := by
  have scaled : (s.queueScale d).Canonical := State.queueScale_canonical s d hs
  have retired := (State.retireSeq_follows scaled d.queue d.seq d.tag d.gen fin (some n)).canonical
  have settled := State.settleEdges_follows retired (EdgeTarget.isSeq d.queue d.seq.toNat) (fin.executed == 0)
  have checked := settled.trans (State.checkAbortBusy_follows settled.canonical)
  exact checked.trans (State.tallyEnd_follows checked.canonical d)

theorem State.retireQueued_queue : (s.retireQueued n d fin).queue d.queue = (s.queue d.queue).retire
    { zero := fin.executed == 0, tag := d.tag, status := fin.status, stamp := s.stamp }
    (retireRecord d.queue d.seq d.tag d.gen fin (some n)) := by
  have scaled : (s.queueScale d).Canonical := State.queueScale_canonical s d hs
  have retired := State.retireSeq_queue scaled d.queue d.seq d.tag d.gen fin (some n)
  have same : (s.retireQueued n d fin).queues =
      ((s.queueScale d).retireSeq d.queue d.seq d.tag d.gen fin (some n)).queues :=
    (State.tallyEnd_queues _ d).trans (State.checkAbortBusy_queues _)
  obtain ⟨_, e⟩ := s.queueScale_eq d
  rw [State.queue, same, ← State.queue, retired, e]
  rfl

theorem State.retireQueued_node (room : (s.queue d.queue).recFull = false) :
    (s.retireQueued n d fin).node n = none := by
  have scaled : (s.queueScale d).Canonical := State.queueScale_canonical s d hs
  have room' : ((s.queueScale d).queue d.queue).recFull = false := by
    obtain ⟨_, e⟩ := s.queueScale_eq d
    rw [e]
    exact room
  exact (s.retireSeq_to_retireQueued hs).free n (State.retireSeq_node scaled room')

/-- With room in the ring, a retirement that RECMODE records produces its record (R68, R70). -/
theorem State.retireQueued_produces (room : (s.queue d.queue).recFull = false)
    (asked : (s.queue d.queue).records fin.status = true) :
    Produced s (s.retireQueued n d fin) d.queue (retireRecord d.queue d.seq d.tag d.gen fin (some n)) := by
  refine ⟨fun _ => ⟨?_, ?_⟩, fun full => absurd full (by simp [room])⟩
  · rw [s.retireQueued_queue hs]
    exact Queue.retire_recWritten _ _ room asked
  · refine (s.retireSeq_to_retireQueued hs).driven _ ?_
    have scaled : (s.queueScale d).Canonical := State.queueScale_canonical s d hs
    obtain ⟨_, e⟩ := s.queueScale_eq d
    rw [e] at scaled ⊢
    exact State.retireSeq_writes scaled room asked

end Sheaf

/-- What led to the state of a retirement, and what follows it, tells nothing else of the record. -/
theorem produced_between {s u v t : State} {q : Nat} {r : Record} (before : s.Follows u) (sameQueue : u.queue q = s.queue q)
    (h : Produced u v q r) (after : v.Follows t) (sameAfter : t.queue q = v.queue q) : Produced s t q r := by
  have stamp (c : Nat) (gen : BitVec 12) : u.stampOf c gen = s.stampOf c gen := by simp only [State.stampOf, before.recov]
  have now : u.now = s.now := congrArg BitVec.toNat before.usec
  obtain ⟨written, held⟩ := h
  simp only [sameQueue, stamp, before.gen, now] at written held
  refine ⟨fun room => ?_, fun full => ?_⟩
  · exact ⟨sameAfter ▸ (written room).1, after.driven _ (written room).2⟩
  · exact sameAfter ▸ held full

/-! ## The end of an engine's run -/

theorem State.account_eq (s : State) (f : Nat) (r : EngineRun) (rep : EngineReport) (lost : Bool) :
    ∃ free g, s.account f r rep lost = { s with free := free }.modAcct r.entry.ctx g := by
  unfold State.account
  dsimp only
  split <;> exact ⟨_, _, rfl⟩

/-- The engine's run is over: it is accounted and traced, and the furrow runs nothing (R304, R438). -/
def State.runOver (s : State) (f : Nat) (r : EngineRun) (rep : EngineReport) : State :=
  ((s.account f r rep true).traceEnd f r true).clearRun f

theorem State.runOver_queues (s : State) (f : Nat) (r : EngineRun) (rep : EngineReport) :
    (s.runOver f r rep).queues = s.queues := by
  obtain ⟨_, _, e⟩ := s.account_eq f r rep true
  simp [State.runOver, State.clearRun, State.onFurrow, e]

theorem State.runOver_nodes (s : State) (f : Nat) (r : EngineRun) (rep : EngineReport) :
    (s.runOver f r rep).nodes = s.nodes := by
  obtain ⟨_, _, e⟩ := s.account_eq f r rep true
  simp [State.runOver, State.clearRun, State.onFurrow, e]

theorem State.wakeLent_eq (s : State) : ∃ lent os, s.wakeLent = { s with lent := lent }.driveAll os := ⟨_, _, rfl⟩

/-- A furrow without the entries that satisfy a test; its run stays. -/
def Furrow.without (x : Furrow) (p : Entry → Bool) (now : Nat) (trimmed : Bool) : Furrow :=
  { x with entries := x.entries.filter fun e => !p e }.touch now trimmed

theorem State.removeEntries_eq (s : State) (p : Entry → Bool) :
    s.removeEntries p =
      let u := s.discardWhere p
      { u with
        admits := u.admits.filter fun a => !p a.entry
        furrows := u.furrows.mapAll {} fun _ x => x.without p u.now u.trimmed }.wakeLent := rfl

section Abort
variable {s : State} (hs : s.Canonical)
include hs

theorem State.account_follows (f : Nat) (r : EngineRun) (rep : EngineReport) (lost : Bool) :
    s.Follows (s.account f r rep lost) := by
  obtain ⟨free, g, e⟩ := s.account_eq f r rep lost
  have counted : s.Follows { s with free := free } := .of_tables hs rfl rfl rfl rfl rfl rfl
  rw [e]
  exact counted.trans (State.modAcct_follows counted.canonical r.entry.ctx g)

theorem State.runOver_follows (f : Nat) (r : EngineRun) (rep : EngineReport) : s.Follows (s.runOver f r rep) := by
  have accounted := s.account_follows hs f r rep true
  have traced := accounted.trans (State.traceRec_follows accounted.canonical 2 r.entry.queue (some r.entry.ctx)
    (traceW1 r.tag (traceRun f r.entry.member true)))
  exact traced.trans (State.setFurrow_follows traced.canonical f _ fun _ => rfl)

theorem State.runOver_run (f : Nat) (r : EngineRun) (rep : EngineReport) : ((s.runOver f r rep).furrow f).run = none := by
  have traced : ((s.account f r rep true).traceEnd f r true).Canonical :=
    State.traceEnd_canonical _ f r true (State.account_canonical s f r rep true hs)
  unfold State.runOver State.clearRun State.onFurrow State.modFurrow
  rw [State.setFurrow_furrow_same _ f _ (State.canonical_furrows traced)]
  rfl

/-! ## What the sheaf holds in furrows -/

theorem State.wakeLent_follows : s.Follows s.wakeLent := by
  obtain ⟨lent, os, e⟩ := s.wakeLent_eq
  have marked : s.Follows { s with lent := lent } := .of_tables hs rfl rfl rfl rfl rfl rfl
  rw [e]
  exact marked.trans (State.driveAll_follows marked.canonical os)

theorem State.removeEntries_follows (p : Entry → Bool) : s.Follows (s.removeEntries p) := by
  have discarded := s.discardWhere_follows hs p
  rw [State.removeEntries_eq]
  generalize s.discardWhere p = u at discarded ⊢
  have removed : u.Follows { u with
      admits := u.admits.filter fun a => !p a.entry
      furrows := u.furrows.mapAll {} fun _ x => x.without p u.now u.trimmed } :=
    { State.Follows.refl discarded.canonical with
      canonical := by simp [discarded.canonical]
      idle := fun f h => by
        have read := Tbl.get_mapAll (k := f) (f := fun _ (x : Furrow) => x.without p u.now u.trimmed) rfl
          (State.canonical_furrows discarded.canonical)
        exact (congrArg Furrow.run read).trans h }
  exact (discarded.trans removed).trans (State.wakeLent_follows removed.canonical)

/-- The chained successor of a sheaf that ends without a commit gives its place up (R138). -/
theorem State.chainBreak_follows (d : Node) : s.Follows (s.chainBreak d) := by
  unfold State.chainBreak
  split
  · exact .refl hs
  · next m _ =>
    split
    · next b successor =>
      split
      · exact s.setNode_follows hs successor _
      · have discarded := s.discardWhere_follows hs fun e => e.node == m
        split
        · exact discarded.trans (State.setFurrow_follows discarded.canonical _ _ fun h => h)
        · exact .refl hs
    · exact .refl hs

end Abort

section Queues
variable (s : State)

theorem State.wakeLent_queues : s.wakeLent.queues = s.queues := State.driveAll_queues _ _

theorem State.removeEntries_queue (p : Entry → Bool) (q : Nat) : (s.removeEntries p).queue q = s.queue q := by
  have same : (s.removeEntries p).queues = s.queues := (State.wakeLent_queues _).trans (s.discardWhere_leaves p).1
  simp only [State.queue, same]

theorem State.removeEntries_nodes (p : Entry → Bool) : (s.removeEntries p).nodes = s.nodes :=
  (State.driveAll_nodes _ _).trans (s.discardWhere_leaves p).2.1

theorem State.chainBreak_queue (d : Node) (q : Nat) : (s.chainBreak d).queue q = s.queue q := by
  have same : (s.chainBreak d).queues = s.queues := by
    unfold State.chainBreak
    repeat' split
    · rfl
    · rfl
    · exact (State.discardWhere_leaves _ _).1
    · rfl
    · rfl
  simp only [State.queue, same]

end Queues

/-! ## Aborts that were asked for (R88, R296, R297) -/

theorem abortHandshake_ends {s : State} {f : Nat} {r : EngineRun} {d : Node} (h : RunsSheaf s f r d)
    (rep : EngineReport) (stamp : rep.stamp = s.runStamp r) (asked : r.abort = some .request) :
    exec (.abortHandshake f rep) s = .next ((s.runOver f r rep).requestAborted f d r) := by
  obtain ⟨isF, working, ports, -, run, -, -, -, node, gen, ctx, phase, -⟩ := h
  have same : (s.runOver f r rep).runNode r = some d := by
    have sheaf : (s.runOver f r rep).node r.entry.node = some d := by rwa [State.node, s.runOver_nodes]
    simp [State.runNode, asked, sheaf, gen, ctx]
  have running : d.phase ≠ .doomed := by simp [phase]
  show execAbortHandshake f rep s = _
  simp only [execAbortHandshake, ok_pos isF, working, State.when_true, State.reportFor, ports, run, stamp]
  simp only [State.runOver] at same
  simp [asked, same, running, State.runOver]

/-- A sheaf aborted on request retires ABORTED with the iterations that committed, and leaves its furrow (R88, R297). -/
theorem State.requestAborted_retires {s : State} {f : Nat} {r : EngineRun} {d : Node} (member : r.entry.member = none)
    (node : s.node r.entry.node = some d) (child : d.child = none) (notTemplate : opTemplate (hOp d.lines) = false)
    (notCall : hOp d.lines ≠ opCall) :
    s.requestAborted f d r = ((s.removeEntries fun e => e.node == r.entry.node).retireQueued r.entry.node d
      { status := stAborted, executed := d.iter, detail := 0, furrow := BitVec.ofNat 10 f }).chainBreak d := by
  have sheaf : (s.removeEntries fun e => e.node == r.entry.node).node r.entry.node = some d := by
    rwa [State.node, State.removeEntries_nodes]
  have final : d.endFinal stAborted (BitVec.ofNat 10 f) =
      { status := stAborted, executed := d.iter, detail := 0, furrow := BitVec.ofNat 10 f } := by
    simp [Node.endFinal, Node.executed, notTemplate, notCall, stAborted, stDone]
  simp only [State.requestAborted, member, State.streamEnd, child, final, State.retire, sheaf]

theorem abortRetiresTheSheaf : AbortRetiresTheSheaf := by
  intro f r d rep s h stamp asked room notTemplate notCall
  refine ⟨_, abortHandshake_ends h rep stamp asked, ?_⟩
  obtain ⟨-, -, -, hs, -, -, member, -, node, -, -, -, child, -⟩ := h
  let n := r.entry.node
  let fin : Final := { status := stAborted, executed := d.iter, detail := 0, furrow := BitVec.ofNat 10 f }
  let u := (s.runOver f r rep).removeEntries fun e => e.node == n
  let t := (u.retireQueued n d fin).chainBreak d
  have ended := s.runOver_follows hs f r rep
  have removed : s.Follows u := ended.trans (State.removeEntries_follows ended.canonical _)
  have retired : u.Follows (u.retireQueued n d fin) := u.retireQueued_follows removed.canonical
  have broken : (u.retireQueued n d fin).Follows t := State.chainBreak_follows retired.canonical d
  have sameQueue : u.queue d.queue = s.queue d.queue := by
    rw [State.removeEntries_queue, State.queue, s.runOver_queues, ← State.queue]
  have isT : (s.runOver f r rep).requestAborted f d r = t :=
    State.requestAborted_retires member (by rwa [State.node, s.runOver_nodes]) child notTemplate notCall
  rw [isT]
  have room' : (u.queue d.queue).recFull = false := sameQueue ▸ room
  have lastQueue : t.queue d.queue = _ :=
    (State.chainBreak_queue _ d d.queue).trans (u.retireQueued_queue removed.canonical)
  refine ⟨?_, ?_, ?_, ?_⟩
  · have idle : (u.furrow f).run = none :=
      (State.removeEntries_follows ended.canonical _).idle f (s.runOver_run hs f r rep)
    exact (retired.trans broken).idle f idle
  · exact broken.free n (u.retireQueued_node removed.canonical room')
  · rw [lastQueue, Queue.retire_record]
    simp [retireRecord, fin]
  · have asks : (u.queue d.queue).records fin.status = true := by simp [Queue.records, fin, stAborted, stDone]
    exact produced_between removed sameQueue (u.retireQueued_produces removed.canonical room' asks) broken
      (State.chainBreak_queue _ d d.queue)

/-! ## Pre-emption and queue timeouts (R77, R298, R299) -/

theorem preemptionAbortsTheRun : PreemptionAbortsTheRun := by
  intro f r d sh s h may shadow urgent eligible
  obtain ⟨isF, working, -, -, run, -, -, -, node, gen, ctx, -, -, notTorn, notDestroyed⟩ := h
  have sheaf : s.runNode r = some d := by simp [State.runNode, notTorn, notDestroyed, node, gen, ctx]
  show execPreempt f s = _
  simp [execPreempt, isF, working, run, sheaf, may, shadow, urgent, eligible]

theorem queueTimeout_fires {s : State} {n t0 : Nat} {d : Node} (slot : isNode n) (working : s.working = true)
    (node : s.node n = some d) (timer : d.timer = some t0) (due : t0 ≤ s.now) (child : d.child = none) :
    exec (.queueTimeout n) s =
      .next ((s.setNode n (some { d with timer := none })).timerFires n { d with timer := none }) := by
  show execQueueTimeout n s = _
  simp [execQueueTimeout, slot, working, node, timer, due, child]

theorem queueTimeoutEndsOrReports : QueueTimeoutEndsOrReports := by
  intro n t0 d s slot working _ node timer due child
  rw [queueTimeout_fires slot working node timer due child]
  refine ⟨fun phase => ?_, fun f phase furrow => ?_, fun phase notFence => ?_, fun f phase running => ?_⟩
  · rcases phase with phase | phase | phase <;> simp only [State.timerFires, phase]
  · simp only [State.timerFires, phase, Node.furrowNo, furrow]
  · simp only [State.timerFires, phase, notFence, if_false]
  · have same (x : Option Node) : (s.setNode n x).runningOn n = some f := running
    simp only [State.timerFires, phase, same]
    rfl

/-- Settles O18 from its three parts. -/
theorem runsAreAborted : Obligations.RunsAreAborted :=
  ⟨abortRetiresTheSheaf, preemptionAbortsTheRun, queueTimeoutEndsOrReports⟩

end Sys2Proof.Machine
end

section
/-! LOADROUTINE, TALLY, PARTCTL and FAULTCTL (R101, R102, R241, R287, R334, R342, R366-R369). -/

namespace Sys2Proof.Machine
open Sys2Proof.Claim

/-! ## Chip-wide commands (R29, R101, R102, R429) -/

/-- The own step of a kernel command. -/
theorem kernelStep_acts {s : State} {n o sub : Nat} {d : Node} (h : Kernel s n d o sub) (f : State → Node → State) :
    ok (isNode n) (s.when s.working fun s => s.kernelStep n o sub f) = .next (f s d) :=
  subStep_acts h.1 h.2 f

section ChipWide
variable {s : State} {n : Nat} {d : Node} {consent : Bool} {cs : List (Bool × Nat × Nat)} {f : State → State}

/-- No half acts as the holder of charge: a chip-wide command waits. -/
theorem State.chipWide_waits (h : s.holderActs = false) : s.chipWide n d consent cs f = s := by
  simp [State.chipWide, h]

theorem State.chipWide_denied (h : s.holderActs = true) (hc : consent = false) :
    s.chipWide n d consent cs f =
      (s.auditCmd d true).retireWith n stPriv 0 (BitVec.ofNat 32 (hOp d.lines)) := by
  simp [State.chipWide, h, hc]

theorem State.chipWide_refused {b : Bool} {p : Nat × Nat} (h : s.holderActs = true) (hr : b = true) :
    s.chipWide n d true [(b, p)] f = (s.auditCmd d true).refuse n d p.1 p.2 := by
  simp [State.chipWide, h, firstRefusal, hr]

theorem State.chipWide_acts (h : s.holderActs = true) (hc : consent = true) (hr : ∀ c ∈ cs, c.1 = false) :
    s.chipWide n d consent cs f = f (s.auditCmd d false) := by
  have none : firstRefusal cs = none := by simpa [firstRefusal] using hr
  simp [State.chipWide, h, hc, none]

end ChipWide

/-! ## LOADROUTINE (R241, R242) -/

section Loadroutine
variable {s : State} {n : Nat} {d : Node}

/-- What LOADROUTINE does once it may act: an image of length 0 empties the slot, another one is read. -/
def State.loadRoutine (s : State) (n : Nat) (d : Node) : State :=
  let i := aSub d.lines
  let len := fld (aw d.lines 0) 31 16
  if len = 0 then (s.loadSlot n i 0 []).retireWith n stDone 1 0
  else ((s.setRslot i { s.rslot i with
      loading := (s.rslot i).loading ++ [(n, (s.loadPages i).take (pagesFor len))] }).setNode n
    (some { d with phase := .kernel, reading := (len + 15) / 16 })).drive
      (.memRead (s.stampOf d.ctx d.gen) false (aw d.lines 1) ((len + 15) / 16))

theorem loadroutine_step (h : Released s n d opLoadroutine) :
    exec (.loadroutine n) s = .next (s.chipWide n d (bit s.regs.kcmden 0)
      [(decide (8192 < fld (aw d.lines 0) 31 16) ||
        decide ((s.loadPages (aSub d.lines)).length < pagesFor (fld (aw d.lines 0) 31 16)), 0, 16)]
      (·.loadRoutine n d)) :=
  opcodeStep_acts h fun s d => s.chipWide n d (bit s.regs.kcmden 0)
    [(decide (8192 < fld (aw d.lines 0) 31 16) ||
      decide ((s.loadPages (aSub d.lines)).length < pagesFor (fld (aw d.lines 0) 31 16)), 0, 16)]
    (·.loadRoutine n d)

/-- The image that a LOADROUTINE waits for arrives whole. -/
theorem routineImageRead_whole (slot : isNode n) (working : s.working = true) (node : s.node n = some d)
    (phase : d.phase = .kernel) (opcode : hOp d.lines = opLoadroutine) (gen : (s.ctx d.ctx).gen = d.gen)
    (loading : (s.rslot (aSub d.lines)).loading.any (fun e => e.1 == n) = true) {ls : List Line}
    (length : ls.length = d.reading) :
    exec (.routineImageRead n ⟨s.stampOf d.ctx d.gen, .lines ls⟩) s =
      .next ((s.loadSlot n (aSub d.lines) (fld (aw d.lines 0) 31 16) (instrsOf ls)).retireWith n stDone 1 0) := by
  show execRoutineImageRead n _ s = _
  have fresh : s.fresh (s.stampOf d.ctx d.gen) = true := by simp [State.fresh, State.stampOf, gen]
  simp only [execRoutineImageRead, ok_pos slot, working, fresh, Bool.and_self, State.when_true, node, phase, opcode,
    loading, and_self, if_true, length]

/-- The image that a LOADROUTINE waits for has an uncorrectable error: the slot holds nothing, and the sheaf ends. -/
theorem routineImageRead_error (slot : isNode n) (working : s.working = true) (node : s.node n = some d)
    (phase : d.phase = .kernel) (opcode : hOp d.lines = opLoadroutine) (gen : (s.ctx d.ctx).gen = d.gen)
    (loading : (s.rslot (aSub d.lines)).loading.any (fun e => e.1 == n) = true) {line : Nat}
    (inside : line < d.reading) :
    ∃ fin e, exec (.routineImageRead n ⟨s.stampOf d.ctx d.gen, .error line⟩) s =
      .next ((s.setRslot (aSub d.lines) { (s.rslot (aSub d.lines)).endLoad n with
        image := [], pages := [] }).useFree.doom n d fin e) := by
  have fresh : s.fresh (s.stampOf d.ctx d.gen) = true := by simp [State.fresh, State.stampOf, gen]
  show ∃ fin e, execRoutineImageRead n _ s = _
  simp only [execRoutineImageRead, ok_pos slot, working, fresh, Bool.and_self, State.when_true, node, phase, opcode,
    loading, and_self, if_true, inside]
  exact ⟨_, _, rfl⟩

theorem State.raise_node (e : Event) (m : Nat) : (s.raise e).node m = s.node m := by simp [State.node]

theorem State.doom_rslot (fin : Final) (e : Event) (i : Nat) : (s.doom n d fin e).rslot i = s.rslot i := by
  simp [State.rslot]

/-- A sheaf that is to end with a teardown keeps its node slot until then. -/
theorem State.doom_phase (hs : s.Canonical) (fin : Final) (e : Event) :
    ((s.doom n d fin e).node n).map (·.phase) = some .doomed := by
  have removed : (s.removeEntries fun x => x.node == n && decide (x.gen = d.gen)).Canonical :=
    State.removeEntries_canonical s _ hs
  simp only [State.doom, State.raise_node, State.setNode_node_same _ n _ (State.canonical_nodes removed)]
  rfl

theorem loadroutineFillsTheSlot : LoadroutineFillsTheSlot := by
  intro n d s i len t
  refine ⟨fun h acts consent fits pages => ?_, fun slot working node phase opcode gen loading => ⟨?_, ?_⟩⟩
  · have none : ∀ c ∈ [(decide (8192 < len) || decide ((s.loadPages i).length < pagesFor len), 0, 16)],
        c.1 = false := by simp [fits, pages]
    rw [loadroutine_step h, State.chipWide_acts acts consent none]
    rfl
  · exact fun ls length => routineImageRead_whole slot working node phase opcode gen loading length
  · intro line inside hs
    obtain ⟨fin, e, step⟩ := routineImageRead_error slot working node phase opcode gen loading inside
    let x : RSlot := { (s.rslot i).endLoad n with image := [], pages := [] }
    have same : ((s.setRslot i x).useFree.doom n d fin e).rslot i = x :=
      (State.doom_rslot fin e i).trans (s.setRslot_rslot_same i x (State.canonical_routines hs))
    have canonical : (s.setRslot i x).useFree.Canonical := by simp [hs]
    exact ⟨_, step, congrArg RSlot.image same, congrArg RSlot.pages same, State.doom_phase canonical fin e⟩

end Loadroutine

/-! ## TALLY (R362, R366-R369) -/

section Tally
variable {s : State} {n : Nat} {d : Node}

theorem State.tally_cases (acts : s.holderActs = true) :
    let d' := { d with phase := .kernel, buffer := s.tallyBuffer d }
    ((aw d.lines 1 ≠ 0 ∨ s.recov.tallyValid = true) →
      s.tally n d = ((s.auditCmd d false).setNode n (some d')).writeTally d') ∧
    (aw d.lines 1 = 0 → s.recov.tallyValid = false → s.tally n d = (s.auditCmd d true).refuse n d 1 0) := by
  refine ⟨fun buffer => ?_, fun none invalid => ?_⟩
  · have named : ∀ c ∈ [(aw d.lines 1 == 0 && !s.recov.tallyValid, 1, 0)], c.1 = false := by
      rcases buffer with h | h
      · simpa using fun none => absurd none h
      · simp [h]
    exact State.chipWide_acts acts rfl named
  · exact State.chipWide_refused acts (by simp [none, invalid])

theorem tallyRead_ends (slot : isNode n) (working : s.working = true) (node : s.node n = some d)
    (phase : d.phase = .kernel) (opcode : hOp d.lines = opTally) (gen : (s.ctx d.ctx).gen = d.gen) :
    exec (.tallyReadCompletion n ⟨s.stampOf d.ctx d.gen, true⟩) s =
      .next ({ s with recov := { s.recov with window := false } }.retireWith n stDone 1 0) := by
  have fresh : s.fresh (s.stampOf d.ctx d.gen) = true := by simp [State.fresh, State.stampOf, gen]
  show execTallyReadCompletion n _ s = _
  simp only [execTallyReadCompletion, ok_pos slot, working, fresh, Bool.and_self, State.when_true, node, phase, opcode,
    and_self, if_true]

/-- What an MSI-X message is made of stands in the registers. -/
theorem State.msix_of_regs {t : State} (h : t.regs = s.regs) (v : Nat) :
    t.regs.msixEnable = s.regs.msixEnable ∧ t.msixMasked v = s.msixMasked v ∧ t.msixOut v = s.msixOut v := by
  simp only [State.msixMasked, State.msixOut, h, and_self]

theorem State.checkAbortBusy_msix (v : Nat) :
    s.checkAbortBusy.regs.msixEnable = s.regs.msixEnable ∧ s.checkAbortBusy.msixMasked v = s.msixMasked v ∧
      s.checkAbortBusy.msixOut v = s.msixOut v := by
  unfold State.checkAbortBusy
  split <;> exact ⟨rfl, rfl, rfl⟩

theorem State.sendMsix_sends {v : Nat} (enabled : s.regs.msixEnable = true) (unmasked : s.msixMasked v = false) :
    s.msixOut v ∈ (s.sendMsix v).out := by
  simp [State.sendMsix, enabled, unmasked]

theorem State.retireQueued_notifies {fin : Final} (opcode : hOp d.lines = opTally) (sub : aSub d.lines = 1) :
    ∃ u : State, u.regs = s.regs ∧ s.retireQueued n d fin = u.checkAbortBusy.sendMsix 1 := by
  refine ⟨((s.queueScale d).retireSeq d.queue d.seq d.tag d.gen fin (some n)).settleEdges
    (EdgeTarget.isSeq d.queue d.seq.toNat) (fin.executed == 0), ?_, ?_⟩
  · exact (State.retireSeq_regs (s.queueScale d) d.queue d.seq d.tag d.gen fin (some n)).trans (s.queueScale_regs d)
  · simp only [State.retireQueued, State.tallyEnd, opcode, sub, and_self, if_true]

/-- The notice of a TALLY is the last thing its retirement does, and nothing before it changes the MSI-X registers. -/
theorem State.retire_notifies (child : d.child = none) (opcode : hOp d.lines = opTally) (sub : aSub d.lines = 1)
    (node : s.node n = some d) (enabled : s.regs.msixEnable = true) (unmasked : s.msixMasked 1 = false) (fin : Final) :
    s.msixOut 1 ∈ (s.retire n fin).out := by
  have retires : s.retire n fin = s.retireQueued n d fin := by simp only [State.retire, node, child]
  obtain ⟨u, regs, ends⟩ := State.retireQueued_notifies (s := s) (n := n) (fin := fin) opcode sub
  obtain ⟨enable, masked, out⟩ := State.msix_of_regs regs 1
  obtain ⟨enable', masked', out'⟩ := u.checkAbortBusy_msix 1
  rw [retires, ends, ← out, ← out']
  exact State.sendMsix_sends (by rw [enable', enable, enabled]) (by rw [masked', masked, unmasked])

theorem tallyWritesThenCompletes : TallyWritesThenCompletes := by
  intro n d s d' begun refused
  have write (h : Kernel s n d opTally 0) : exec (.tallyWrite n) s = .next (s.tally n d) :=
    kernelStep_acts h fun s d => s.tally n d
  have notify (h : Kernel s n d opTally 1) : exec (.tallyWriteNotify n) s = .next (s.tally n d) :=
    kernelStep_acts h fun s d => s.tally n d
  refine ⟨fun buffer acts => ?_, fun none invalid acts => ?_, tallyRead_ends, State.retire_notifies⟩
  · have begins : s.tally n d = begun := (State.tally_cases acts).1 buffer
    exact ⟨fun h => by rw [write h, begins], fun h => by rw [notify h, begins]⟩
  · have refuses : s.tally n d = refused := (State.tally_cases acts).2 none invalid
    exact ⟨fun h => by rw [write h, refuses], fun h => by rw [notify h, refuses]⟩

end Tally

/-! ## The lines and objects of a partition (R287, R317, R321) -/

section Range
variable {s : State}

theorem State.aline_setAline (hs : s.Canonical) (a : Nat) (l : CohLine) (x : ALine) (b : Nat) (m : CohLine) :
    (s.setAline a l x).aline b m = if b * 4194304 + lineKey m = a * 4194304 + lineKey l then x else s.aline b m := by
  split
  · next same =>
    unfold State.aline
    rw [same]
    exact Tbl.get_set_same _ x (State.canonical_agents hs)
  · next other => exact Tbl.get_set_other _ x other

/-- The cache may write the line in this state (R308). -/
def AState.writes : AState → Bool
  | .e | .m => true
  | _ => false

theorem State.writable_eq (a : Nat) (l : CohLine) : s.writable a l = (s.aline a l).st.writes := by
  unfold State.writable AState.writes
  cases (s.aline a l).st <;> rfl

theorem State.setAline_writable (hs : s.Canonical) (a : Nat) (l : CohLine) {st : AState}
    (same : st.writes = (s.aline a l).st.writes) (b : Nat) (m : CohLine) :
    (s.setAline a l { s.aline a l with st := st }).writable b m = s.writable b m := by
  rw [State.writable_eq, State.writable_eq, State.aline_setAline hs]
  split
  · next key => simp only [same, State.aline, key]
  · rfl

/-- A cache that asks for a line, or makes M of E, may write the same lines as before. -/
theorem State.localWrite_writable (hs : s.Canonical) (a : Nat) (l : CohLine) (b : Nat) (m : CohLine) :
    (s.localWrite a l).writable b m = s.writable b m := by
  have becomes (st : AState) (same : st.writes = (s.aline a l).st.writes) :
      (s.setAline a l { s.aline a l with st := st }).writable b m = s.writable b m :=
    State.setAline_writable hs a l same b m
  unfold State.localWrite
  dsimp only
  split
  · split
    · next i =>
      split
      · exact becomes .im (by rw [i]; rfl)
      · rfl
    · next sh =>
      split
      · exact becomes .sm (by rw [sh]; rfl)
      · rfl
    · next e => exact becomes .m (by rw [e]; rfl)
    · rfl
  · rfl

/-- One object of a range is cleared where the hive cache holds its line, and its line asked for otherwise. -/
def State.clearOne (s : State) (k : Nat) : State :=
  s.withLines [hiveNeed k true] id fun s => s.clearObj k

theorem State.clearRange_eq (s : State) (p : Nat) : s.clearRange p = s.forAll (s.rangeObjects p) State.clearOne := rfl

/-- Clearing an object that nobody waits at. -/
theorem State.clearObj_alone {k : Nat} (alone : s.waitersOf k = []) :
    s.clearObj k = (s.setObj k {}).setWaiters k [] := by
  simp [State.clearObj, alone]

theorem State.clearOne_eq {k : Nat} (alone : s.waitersOf k = []) :
    s.clearOne k = if s.lineHeld (hiveNeed k true) = true
      then ((s.askLine (hiveNeed k true)).setObj k {}).setWaiters k [] else s.askLine (hiveNeed k true) := by
  have alone' : (s.askLine (hiveNeed k true)).waitersOf k = [] := by rwa [s.askLine_eq]
  split
  · next held => exact (State.withLines_held id _ (by simpa using held)).trans (State.clearObj_alone alone')
  · next lacking =>
    refine (State.withLines_asks id _ (by simpa using lacking)).trans ?_
    simp [lacking]

/-- Clearing one object leaves the tables alone that the clearing of the next one reads. -/
theorem State.clearOne_leaves (hs : s.Canonical) {k : Nat} (alone : s.waitersOf k = []) :
    (s.clearOne k).Canonical ∧ (∀ j, (s.clearOne k).waitersOf j = s.waitersOf j) ∧
    (∀ j, (s.clearOne k).lineHeld (hiveNeed j true) = s.lineHeld (hiveNeed j true)) ∧
    (s.clearOne k).audit = s.audit ∧ (s.clearOne k).queues = s.queues ∧ (s.clearOne k).regs = s.regs := by
  have asked := State.askLine_canonical s (hiveNeed k true) hs
  have lines (j : Nat) : (s.askLine (hiveNeed k true)).lineHeld (hiveNeed j true) = s.lineHeld (hiveNeed j true) :=
    State.localWrite_writable hs _ _ _ _
  have waiters (j : Nat) : (s.askLine (hiveNeed k true)).waitersOf j = s.waitersOf j := by rw [s.askLine_eq]; rfl
  have rest : (s.askLine (hiveNeed k true)).audit = s.audit ∧ (s.askLine (hiveNeed k true)).queues = s.queues ∧
      (s.askLine (hiveNeed k true)).regs = s.regs := by rw [s.askLine_eq]; exact ⟨rfl, rfl, rfl⟩
  rw [State.clearOne_eq alone]
  split
  · refine ⟨by simp [asked], fun j => ?_, lines, rest⟩
    by_cases same : j = k
    · subst same
      rw [alone]
      exact State.setWaiters_waitersOf_same _ j [] (State.canonical_waiters (State.setObj_canonical _ j {} asked))
    · exact (State.setWaiters_waitersOf_other _ _ same).trans (waiters j)
  · exact ⟨asked, waiters, lines, rest⟩

theorem State.clearOne_obj (hs : s.Canonical) {k : Nat} (alone : s.waitersOf k = []) (j : Nat) :
    (s.clearOne k).obj j = if j = k ∧ s.lineHeld (hiveNeed k true) = true then {} else s.obj j := by
  have asked := State.askLine_canonical s (hiveNeed k true) hs
  have same (j : Nat) : (s.askLine (hiveNeed k true)).obj j = s.obj j := by rw [s.askLine_eq]; rfl
  rw [State.clearOne_eq alone]
  by_cases held : s.lineHeld (hiveNeed k true) = true
  · simp only [held, if_true, and_true, State.setWaiters_obj]
    split
    · next e =>
      subst e
      exact State.setObj_obj_same _ j {} (State.canonical_objects asked)
    · next other => exact (State.setObj_obj_other _ _ other).trans (same j)
  · rw [if_neg held, if_neg fun h => held h.2]
    exact same j

/-- Of the objects to be cleared, those whose line is held are. -/
theorem State.clearAll (ks : List Nat) (hs : s.Canonical) (alone : ∀ k ∈ ks, s.waitersOf k = []) :
    let t := s.forAll ks State.clearOne
    t.Canonical ∧
    (∀ j, t.obj j = if j ∈ ks ∧ s.lineHeld (hiveNeed j true) = true then {} else s.obj j) ∧
    t.audit = s.audit ∧ t.queues = s.queues ∧ t.regs = s.regs := by
  induction ks generalizing s with
  | nil => exact ⟨hs, fun j => by simp [State.forAll], rfl, rfl, rfl⟩
  | cons k ks ih =>
    have here : s.waitersOf k = [] := alone k List.mem_cons_self
    obtain ⟨canonical, waiters, lines, audit, queues, regs⟩ := State.clearOne_leaves hs here
    obtain ⟨canonical', objs, audit', queues', regs'⟩ := ih canonical fun j h =>
      (waiters j).trans (alone j (List.mem_cons_of_mem k h))
    refine ⟨canonical', fun j => (objs j).trans ?_, audit'.trans audit, queues'.trans queues, regs'.trans regs⟩
    rw [lines j, State.clearOne_obj hs here]
    by_cases e : j = k
    · subst e
      by_cases held : s.lineHeld (hiveNeed j true) = true <;> simp [held]
    · simp [e]

theorem Tbl.mem_keysFrom {α : Type} [DecidableEq α] {d : α} {t : Tbl α} {lo k : Nat} {p : Nat → Bool}
    (h : Tbl.wfFrom d lo t = true) : k ∈ Tbl.keys t (fun i _ => p i) ↔ p k = true ∧ Tbl.get d t k ≠ d := by
  induction t generalizing lo with
  | nil => simp [Tbl.keys, Tbl.get]
  | cons e t ih =>
    obtain ⟨j, x⟩ := e
    simp only [Tbl.wfFrom, Bool.and_eq_true, decide_eq_true_eq] at h
    obtain ⟨⟨-, listed⟩, rest⟩ := h
    have tail := ih rest
    have unlisted (e : j = k) : Tbl.get d t k = d := Tbl.get_of_wfFrom rest (by omega)
    have head : k ∈ Tbl.keys ((j, x) :: t) (fun i _ => p i) ↔ (p j = true ∧ j = k) ∨ k ∈ Tbl.keys t (fun i _ => p i) := by
      by_cases hp : p j = true <;> simp [Tbl.keys, hp, eq_comm (a := j)]
    rw [head, tail]
    by_cases e : j = k
    · subst e
      simp [Tbl.get, listed, unlisted rfl]
    · simp [Tbl.get, e]

/-- The objects of a range that are not clear. -/
theorem State.mem_rangeObjects (hs : s.Canonical) (p k : Nat) :
    k ∈ s.rangeObjects p ↔
      ((s.hiveRange p).1 ≤ k ∧ k < (s.hiveRange p).1 + (s.hiveRange p).2) ∧ s.obj k ≠ {} := by
  unfold State.rangeObjects
  have keys := Tbl.mem_keysFrom (k := k) (p := fun i => decide ((s.hiveRange p).1 ≤ i) &&
    decide (i < (s.hiveRange p).1 + (s.hiveRange p).2)) (State.canonical_objects hs)
  simpa [State.obj] using keys

/-- RELEASE clears the objects of the range whose line the hive cache holds, and nothing else (R287, R321). -/
theorem State.clearRange_clears (hs : s.Canonical) (p : Nat) (alone : ∀ k ∈ s.rangeObjects p, s.waitersOf k = []) :
    ((∀ k ∈ s.rangeObjects p, s.lineHeld (hiveNeed k true) = true) → (s.clearRange p).rangeObjects p = []) ∧
    (∀ k, (k ∉ s.rangeObjects p ∨ s.lineHeld (hiveNeed k true) = false) → (s.clearRange p).obj k = s.obj k) ∧
    (s.clearRange p).audit = s.audit ∧ (s.clearRange p).queues = s.queues := by
  obtain ⟨canonical, objs, audit, queues, regs⟩ := State.clearAll (s.rangeObjects p) hs alone
  rw [← State.clearRange_eq] at canonical objs audit queues regs
  refine ⟨fun held => List.eq_nil_iff_forall_not_mem.mpr fun k mem => ?_, fun k left => ?_, audit, queues⟩
  · have range : (s.clearRange p).hiveRange p = s.hiveRange p := by simp only [State.hiveRange, regs]
    obtain ⟨inside, unclear⟩ := (State.mem_rangeObjects canonical p k).mp mem
    rw [range] at inside
    rw [objs k] at unclear
    split at unclear
    · exact unclear rfl
    · next kept =>
      have mem' := (State.mem_rangeObjects hs p k).mpr ⟨inside, unclear⟩
      exact kept ⟨mem', held k mem'⟩
  · rw [objs k, if_neg]
    rintro ⟨mem, held⟩
    rcases left with out | lacking
    · exact out mem
    · simp [lacking] at held

end Range

/-! ## PARTCTL and FAULTCTL (R287, R334, R342) -/

section Steps
variable {s : State} {n : Nat} {d : Node}

theorem partctlDefine_step (h : Kernel s n d opPartctl 0) :
    let p := fld (aw d.lines 0) 19 16
    let cl : BitVec 12 := BitVec.ofNat 12 (fld (aw d.lines 0) 43 32)
    exec (.partctlDefine n) s = .next (s.chipWide n d (bit s.regs.kcmden 1)
      [(s.partCtxs p != [], 0, 16),
        (cl == 0 || s.parts.any fun e => e.1 != p && e.2.defined && e.2.clusters &&& cl != 0, 0, 32)]
      fun s => (s.setPart p { defined := true, clusters := cl }).retireWith n stDone 1 0) :=
  kernelStep_acts h _

/-- The first step of a RELEASE takes the partition's clusters. -/
theorem partctlRelease_first (h : Kernel s n d opPartctl 1) (begun : d.begun = false) :
    let p := fld (aw d.lines 0) 19 16
    exec (.partctlRelease n) s = .next (s.chipWide n d (bit s.regs.kcmden 1) [(s.partCtxs p != [], 0, 16)]
      fun s => ((s.setPart p {}).setNode n (some { d with begun := true })).releasePart n p) := by
  refine (kernelStep_acts h _).trans ?_
  simp [begun]

/-- A RELEASE that has begun clears on. -/
theorem partctlRelease_goes_on (h : Kernel s n d opPartctl 1) (begun : d.begun = true) :
    exec (.partctlRelease n) s =
      .next (s.when s.holderActs fun s => s.releasePart n (fld (aw d.lines 0) 19 16)) := by
  refine (kernelStep_acts h _).trans ?_
  simp [begun]

theorem faultctlThreshold_step (h : Kernel s n d opFaultctl 0) :
    let i := fld (aw d.lines 0) 31 16
    exec (.faultctlThreshold n) s = .next (s.chipWide n d (bit s.regs.kcmden 2) [(!sourceListed i, 0, 16)]
      fun s => (s.setSource i { s.source i with
        n := BitVec.ofNat 8 (fld (aw d.lines 0) 39 32)
        window := BitVec.ofNat 22 (fld (aw d.lines 1) 31 0), subs := [] }).retireWith n stDone 1 0) :=
  kernelStep_acts h _

theorem faultctlAcklog_step (h : Kernel s n d opFaultctl 1) :
    let k := fld (aw d.lines 1) 31 0
    exec (.faultctlAcklog n) s = .next (s.chipWide n d true
      [(decide ((s.faults.written - s.faults.acked).toNat < k), 1, 0)]
      fun s => { s with faults := { s.faults with acked := s.faults.acked + BitVec.ofNat 16 k } }.retireWith
        n stDone 1 0) :=
  kernelStep_acts h _

end Steps

theorem partctlAndFaultctlRetireDone : PartctlAndFaultctlRetireDone := by
  intro n d s acts p cl i k t releases
  refine ⟨fun h consent empty some free => ?_, fun h first consent empty => ?_, fun h begun => ?_,
    fun hs alone => State.clearRange_clears hs p alone, fun h consent listed => ?_, fun h written => ?_⟩
  · rw [partctlDefine_step h, State.chipWide_acts acts consent (by simpa [p, cl, empty] using And.intro some free)]
  · refine (partctlRelease_first h first).trans ?_
    rw [State.chipWide_acts acts consent (by simpa using empty)]
    rfl
  · refine (partctlRelease_goes_on h begun).trans ?_
    rw [acts]
    rfl
  · rw [faultctlThreshold_step h, State.chipWide_acts acts consent (by simpa using listed)]
  · rw [faultctlAcklog_step h, State.chipWide_acts acts rfl (by simpa using written)]

theorem consentIsNeeded : ConsentIsNeeded := by
  intro n d s denied
  refine ⟨fun acts => ⟨fun h no => ?_, fun h no => ?_, fun h first no => ?_, fun h no => ?_⟩,
    fun waits => ⟨fun h => ?_, fun h => ?_, fun h => ?_, fun h => ?_, fun h => ?_, fun h => ?_, fun h => ?_⟩⟩
  · rw [loadroutine_step h, State.chipWide_denied acts no]
  · rw [partctlDefine_step h, State.chipWide_denied acts no]
  · rw [partctlRelease_first h first, State.chipWide_denied acts no]
  · rw [faultctlThreshold_step h, State.chipWide_denied acts no]
  · rw [loadroutine_step h, State.chipWide_waits waits]
  · rw [partctlDefine_step h, State.chipWide_waits waits]
  · cases begun : d.begun
    · rw [partctlRelease_first h begun, State.chipWide_waits waits]
    · rw [partctlRelease_goes_on h begun, waits, State.when_false]
  · rw [faultctlThreshold_step h, State.chipWide_waits waits]
  · rw [faultctlAcklog_step h, State.chipWide_waits waits]
  · exact (kernelStep_acts h _).trans (by rw [State.tally, State.chipWide_waits waits])
  · exact (kernelStep_acts h _).trans (by rw [State.tally, State.chipWide_waits waits])

/-- Settles O23 from its four parts: a chip-wide command waits, is denied, refused or acts (`State.chipWide`). -/
theorem installersCommandsAct : Obligations.InstallersCommandsAct :=
  ⟨loadroutineFillsTheSlot, tallyWritesThenCompletes, partctlAndFaultctlRetireDone, consentIsNeeded⟩

end Sys2Proof.Machine
end

section
/-! Reading what a change of one sheaf, furrow or queue writes, and what it leaves alone. -/

namespace Sys2Proof.Machine

theorem State.modNode_node_other (s : State) {n m : Nat} (f : Node → Node) (h : m ≠ n) :
    (s.modNode n f).node m = s.node m := s.setNode_node_other _ h

theorem State.modFurrow_furrow_other (s : State) {f j : Nat} (g : Furrow → Furrow) (h : j ≠ f) :
    (s.modFurrow f g).furrow j = s.furrow j := s.setFurrow_furrow_other _ h

theorem State.onFurrow_furrow_other (s : State) {f j : Nat} (g : Furrow → Furrow) (h : j ≠ f) :
    (s.onFurrow f g).furrow j = s.furrow j := s.setFurrow_furrow_other _ h

section Canonical
variable {s : State} (hs : s.Canonical)
include hs

theorem State.modNode_node (n : Nat) (f : Node → Node) : (s.modNode n f).node n = (s.node n).map f :=
  s.setNode_node_same n _ (State.canonical_nodes hs)

theorem State.modFurrow_furrow (f : Nat) (g : Furrow → Furrow) : (s.modFurrow f g).furrow f = g (s.furrow f) :=
  s.setFurrow_furrow_same f _ (State.canonical_furrows hs)

theorem State.onFurrow_furrow (f : Nat) (g : Furrow → Furrow) :
    (s.onFurrow f g).furrow f = (g (s.furrow f)).touch s.now s.trimmed :=
  s.setFurrow_furrow_same f _ (State.canonical_furrows hs)

theorem State.modQueue_queue (q : Nat) (f : Queue → Queue) : (s.modQueue q f).queue q = f (s.queue q) :=
  s.setQueue_queue_same q _ (State.canonical_queues hs)

end Canonical

end Sys2Proof.Machine
end

section
/-! Edges and release (R115-R120): the two crossings of the half bridge, and the release of a held sheaf. -/

namespace Sys2Proof.Machine
open Sys2Proof.Claim

/-! ## The crossings of the half bridge (R116, R117, R119) -/

/-- The destruction of the queue withdrew source m after a sheaf of this acceptance order was accepted (R119). -/
def Queue.withdrew (x : Queue) (m order : Nat) : Bool :=
  match Tbl.get none x.record m with
  | some r => decide (x.state = .busy) && decide (r.status = stWithdrawn) && decide (order < r.stamp)
  | none => false

/-- What a registration that reaches the half of its source makes of the edge (R116, R119). -/
def Queue.registration (x : Queue) (m order : Nat) : EdgeState :=
  if x.state = .free then .done false
  else if x.withdrew m order = true then .registered
  else match x.source m with
    | some z => .done z
    | none => .registered

/-- Every edge of a sheaf changed by g. -/
def Node.mapEdges (g : Edge → Edge) (d : Node) : Node := { d with edges := d.edges.map g }

/-- Every edge of every sheaf changed by g. -/
def State.mapEdges (s : State) (g : Edge → Edge) : State :=
  { s with nodes := s.nodes.mapAll none fun _ o => o.map (Node.mapEdges g) }
theorem State.mapEdges_node {s : State} (hs : s.Canonical) (g : Edge → Edge) (n : Nat) :
    (s.mapEdges g).node n = (s.node n).map (Node.mapEdges g) :=
  Tbl.get_mapAll (f := fun _ (o : Option Node) => o.map (Node.mapEdges g)) rfl (State.canonical_nodes hs)

theorem Queue.withdrew_iff (s : State) (q m : Nat) (d : Node) :
    (s.queue q).withdrew m d.order = true ↔ WithdrawnSince s q m d := by
  unfold Queue.withdrew WithdrawnSince
  cases Tbl.get none (s.queue q).record m <;> simp [and_assoc]

theorem edgeRegistration_step {s : State} {n i q m : Nat} {d : Node} {st : EdgeState} (slot : isNode n)
    (edge : i < 64) (up : s.up = true) (node : s.node n = some d)
    (waits : d.edges[i]? = some { target := .seq q m, st := .unregistered })
    (makes : (s.queue q).registration m d.order = st) :
    exec (.edgeRegistration n i) s = .next (s.setNode n (some (d.setEdge i st))) := by
  subst makes
  show execEdgeRegistration n i s = _
  simp only [execEdgeRegistration, ok_pos (And.intro slot edge), up, State.when_true, node, waits]
  rfl

theorem retireNotice_step {s : State} {q : Nat} (queue : isQueue q) (up : s.up = true) (seq : Word) :
    exec (.retireNotice q seq) s = .next (s.mapEdges (notice q seq.toNat)) := by
  have satisfies : (fun e : Edge => match e.st with
      | .noticed z => if e.target.isSeq q seq.toNat then { e with st := .done z } else e
      | _ => e) = notice q seq.toNat := by
    funext ⟨target, st⟩
    cases st with
    | noticed z => cases target <;> simp [notice, EdgeTarget.isSeq]
    | _ => rfl
  show execRetireNotice q seq s = _
  simp only [execRetireNotice, ok_pos queue, up, State.when_true]
  exact congrArg (fun g => Host.Outcome.next (s.mapEdges g)) satisfies

theorem edgesCrossTheBridge : EdgesCrossTheBridge := by
  refine ⟨fun n i q m d s slot edge up node waits => ?_, fun q seq s queue up hs => ?_⟩
  · have withdrew := Queue.withdrew_iff s q m d
    refine ⟨fun free => edgeRegistration_step slot edge up node waits (if_pos free), fun withdrawn => ?_,
      fun taken kept => edgeRegistration_step slot edge up node waits
        ((if_neg taken).trans (if_neg (mt withdrew.mp kept)))⟩
    have ⟨busy, _⟩ := withdrawn
    have taken : (s.queue q).state ≠ .free := by simp [busy]
    exact edgeRegistration_step slot edge up node waits ((if_neg taken).trans (if_pos (withdrew.mpr withdrawn)))
  · exact ⟨_, retireNotice_step queue up seq, rfl, State.mapEdges_node hs _⟩

/-! ## The release of a held sheaf (R115, R120, R317) -/

/-- Reading lines that the caches hold changes nothing (R317). -/
theorem State.askLines_read_held {s : State} {xs : List LineNeed} (read : ∀ x ∈ xs, x.write = false)
    (held : Holds s xs) : xs.foldl State.askLine s = s := by
  induction xs with
  | nil => rfl
  | cons x xs ih =>
    obtain ⟨first, rest⟩ : s.lineHeld x = true ∧ Holds s xs := by simpa [Holds] using held
    rw [List.foldl_cons, State.askLine_read_held (read x List.mem_cons_self) first]
    exact ih (fun y hy => read y (List.mem_cons_of_mem x hy)) rest

/-- A release only reads: the object of its predicate (R200). -/
theorem State.releaseNeeds_read (s : State) (d : Node) : ∀ x ∈ s.releaseNeeds d, x.write = false := by
  unfold State.releaseNeeds
  dsimp only
  split <;> simp [hiveNeed]

theorem sheafRelease_acts {s : State} {n : Nat} {d : Node} (slot : isNode n) (working : s.working = true)
    (node : s.node n = some d) (may : s.releasable d = true) (held : Holds s (s.releaseNeeds d)) :
    exec (.sheafRelease n) s = .next (s.releaseSheaf n d) := by
  show execSheafRelease n s = _
  simp only [execSheafRelease, ok_pos slot, working, State.when_true, node, may, if_true]
  rw [State.withLines_held _ _ held, State.askLines_read_held (s.releaseNeeds_read d) held]

/-- A sheaf stamped with its release order and the time of its release (R130, R442). -/
def State.stampedNode (s : State) (d : Node) : Node := { d with relOrder := s.stamp, releasedAt := s.now }

/-- A released sheaf: stamped, and its queue timer restarted (R76). -/
def State.releasedNode (s : State) (d : Node) : Node :=
  { s.stampedNode d with timer := if s.qPaused d.queue then none else some (s.dueIn (s.queue d.queue).timeout) }

/-- The state in which a released sheaf's path and predicate are looked at. -/
def State.withReleased (s : State) (n : Nat) (d : Node) : State :=
  (s.setNode n (some (s.stampedNode d))).tickStamp.restartTimer n

theorem State.withReleased_node_other (s : State) {n m : Nat} (d : Node) (h : m ≠ n) :
    (s.withReleased n d).node m = s.node m :=
  (State.modNode_node_other _ _ h).trans (s.setNode_node_other (some (s.stampedNode d)) h)

section Release
variable {s : State} {n : Nat} {d : Node} (hs : s.Canonical)
include hs

theorem State.withReleased_canonical : (s.withReleased n d).Canonical :=
  State.restartTimer_canonical _ n (State.tickStamp_canonical _ (State.setNode_canonical s n _ hs))

theorem State.withReleased_node : (s.withReleased n d).node n = some (s.releasedNode d) := by
  have stamped : (s.setNode n (some (s.stampedNode d))).tickStamp.node n = some (s.stampedNode d) :=
    s.setNode_node_same n (some (s.stampedNode d)) (State.canonical_nodes hs)
  have canonical := State.tickStamp_canonical _ (State.setNode_canonical s n (some (s.stampedNode d)) hs)
  rw [State.withReleased, State.restartTimer, State.modNode_node canonical, stamped]
  rfl

/-- A release that no break unit stops goes on to the sheaf's path and predicate (R120). -/
theorem State.release1_unbroken (unbroken : s.tagBreaks d.queue d.tag = []) :
    s.release1 n d = (s.withReleased n d).afterRelease n (s.releasedNode d) := by
  have noBreak : s.releaseBreaks d = [] := by simp [State.releaseBreaks, unbroken]
  have node : (s.withReleased n d).node n = some (s.releasedNode d) := State.withReleased_node hs
  simp only [State.withReleased, State.stampedNode] at node ⊢
  simp only [State.release1, noBreak, ne_eq, not_true_eq_false, if_false, node]

end Release

/-- A sheaf on no excluded path, whose predicate holds and that is not skipped, goes on to the steward or to its
opcode's own step (R120). -/
theorem State.afterRelease_goes_on {s : State} {d : Node} (n : Nat)
    (kept : (s.queue d.queue).onAborted d.seq.toNat = false) (taken : (s.queue d.queue).notTaken d.seq.toNat = false)
    (holds : s.predicate d = some true) (runs : hRepeat d.lines ≠ 0)
    (notSkipped : (fSkipok d.lines && d.allZero) = false) :
    s.afterRelease n d = s.setNode n (some { d with phase := if d.stewarded then .steward else .ready }) := by
  simp [State.afterRelease, kept, taken, holds, runs, notSkipped]

theorem State.releasable_unpaused {s : State} {d : Node} (h : s.releasable d = true) : s.qPaused d.queue = false := by
  simp only [State.releasable, Bool.and_eq_true, Bool.not_eq_true'] at h
  obtain ⟨⟨⟨-, unpaused⟩, -⟩, -⟩ := h
  exact unpaused

theorem releaseSendsASheafOn : ReleaseSendsASheafOn := by
  intro n d s slot working hs node may unbroken kept taken holds runs notSkipped held late
  let u := s.withReleased n d
  have goes : s.releaseSheaf n d = u.setNode n (some { s.releasedNode d with
      phase := if d.stewarded then .steward else .ready }) := by
    simp only [State.releaseSheaf, late, Bool.false_eq_true, if_false]
    rw [State.release1_unbroken hs unbroken]
    exact State.afterRelease_goes_on (s := u) (d := s.releasedNode d) n kept taken holds runs notSkipped
  refine ⟨_, (sheafRelease_acts slot working node may held).trans (congrArg _ goes), ?_, rfl, fun m other => ?_, rfl⟩
  · rw [u.setNode_node_same n _ (State.canonical_nodes (State.withReleased_canonical hs))]
    simp [State.releasedNode, State.stampedNode, State.releasable_unpaused may]
  · exact (u.setNode_node_other _ other).trans (s.withReleased_node_other d other)

/-- Settles O8 from its two parts. -/
theorem sheavesAreReleased : Obligations.SheavesAreReleased := ⟨edgesCrossTheBridge, releaseSendsASheafOn⟩

end Sys2Proof.Machine
end

section
/-! What follows a change of a furrow and an engine start (R76, R136, R141, R270): lending, the discarded preload of a
parked sheaf, the cycle budget, the trace and the timers. -/

namespace Sys2Proof.Machine
open Sys2Proof.Claim

/-! ## Furrows -/

@[simp] theorem Furrow.touch_entries (now : Nat) (trimmed : Bool) (x : Furrow) :
    (x.touch now trimmed).entries = x.entries := (rfl)
@[simp] theorem Furrow.touch_shadow (now : Nat) (trimmed : Bool) (x : Furrow) :
    (x.touch now trimmed).shadow = x.shadow := (rfl)
@[simp] theorem Furrow.touch_run (now : Nat) (trimmed : Bool) (x : Furrow) :
    (x.touch now trimmed).run = x.run := (rfl)

section Leaves
variable (s : State)

theorem State.wakeLent_leaves : s.wakeLent.nodes = s.nodes ∧ s.wakeLent.furrows = s.furrows ∧
    s.wakeLent.admits = s.admits ∧ s.wakeLent.flying = s.flying :=
  ⟨State.driveAll_nodes _ _, State.driveAll_keep (·.furrows) _ _ fun _ _ => rfl,
    State.driveAll_keep (·.admits) _ _ fun _ _ => rfl, State.driveAll_keep (·.flying) _ _ fun _ _ => rfl⟩

theorem State.wakeLent_furrow (f : Nat) : s.wakeLent.furrow f = s.furrow f := by
  obtain ⟨-, furrows, -⟩ := s.wakeLent_leaves
  rw [State.furrow, furrows, State.furrow]

theorem State.discard_leaves (f : Nat) : (s.discard f).queues = s.queues ∧ (s.discard f).flying = s.flying := by
  unfold State.discard
  split <;> exact ⟨rfl, rfl⟩

theorem State.unpark_leaves (f : Nat) : (s.unpark f).queues = s.queues ∧ (s.unpark f).flying = s.flying := by
  unfold State.unpark
  dsimp only
  split
  · exact s.discard_leaves f
  · exact ⟨rfl, rfl⟩

end Leaves

/-- Discarding a preload empties the furrow's shadow bank, and changes nothing else of it. -/
theorem State.discard_furrow {s : State} (hs : s.Canonical) (f : Nat) :
    (s.discard f).furrow f = { s.furrow f with shadow := none } := by
  unfold State.discard
  split
  · exact State.modFurrow_furrow hs f fun x => { x with shadow := none }
  · next empty => rw [← empty]

theorem State.unpark_furrow {s : State} (hs : s.Canonical) (f : Nat) :
    ∃ sh, (s.unpark f).furrow f = { s.furrow f with shadow := sh } := by
  unfold State.unpark
  dsimp only
  split
  · exact ⟨none, State.discard_furrow hs f⟩
  · exact ⟨_, rfl⟩

/-! ## Budgets and timers -/

/-- What follows the handshake o that starts an iteration of the sheaf d in node slot n on furrow f: its cycle budget
begins, o is driven, the start is traced and the timers restart (R76, R141, R439). -/
def State.begins (s : State) (f n : Nat) (d : Node) (member : Option Nat) (o : Out) : State :=
  (((s.startBudget d).drive o).traceStart f d member).startTimers n d

section Begins
variable (s : State)

theorem State.startBudget_eq (d : Node) : ∃ qs, s.startBudget d = { s with queues := qs } := by
  unfold State.startBudget
  split <;> exact ⟨_, rfl⟩

theorem State.startBudget_stampOf (d : Node) (c : Nat) (gen : BitVec 12) :
    (s.startBudget d).stampOf c gen = s.stampOf c gen := by
  obtain ⟨_, budget⟩ := s.startBudget_eq d
  rw [budget]
  rfl

/-- A start of FMT 0 begins the budget of its CYC (R141). -/
theorem State.startBudget_queue {s : State} (hs : s.Canonical) {d : Node} (fmt : d.fmt = 0) :
    ((s.startBudget d).queue d.queue).cycHold = decide (hCyc d.lines ≠ 0) ∧
    ((s.startBudget d).queue d.queue).cycDue = s.now + hCyc d.lines / 1600 := by
  rw [State.startBudget, if_pos fmt, State.modQueue_queue hs]
  exact ⟨rfl, rfl⟩

theorem State.restartTimer_phase {s : State} (hs : s.Canonical) (n m : Nat) :
    ((s.restartTimer n).node m).map (·.phase) = (s.node m).map (·.phase) := by
  by_cases h : m = n
  · subst h
    rw [State.restartTimer, State.modNode_node hs, Option.map_map]
    rfl
  · rw [State.restartTimer, s.modNode_node_other _ h]

theorem State.startTimers_phase {s : State} (hs : s.Canonical) (n m : Nat) (d : Node) :
    ((s.startTimers n d).node m).map (·.phase) = (s.node m).map (·.phase) := by
  have own := State.restartTimer_phase hs n m
  unfold State.startTimers
  split
  · exact (State.restartTimer_phase (State.restartTimer_canonical s n hs) _ m).trans own
  · exact own

theorem State.startTimers_eq (n : Nat) (d : Node) : ∃ ns, s.startTimers n d = { s with nodes := ns } := by
  unfold State.startTimers
  split <;> exact ⟨_, rfl⟩

variable (f n : Nat) (d : Node) (member : Option Nat) (o : Out)

/-- The trace and the timers leave furrows, queues and what is driven alone. -/
theorem State.begins_leaves : (s.begins f n d member o).furrows = s.furrows ∧
    (s.begins f n d member o).queues = (s.startBudget d).queues ∧ (s.begins f n d member o).out = o :: s.out := by
  obtain ⟨_, budget⟩ := s.startBudget_eq d
  obtain ⟨_, timers⟩ := (((s.startBudget d).drive o).traceStart f d member).startTimers_eq n d
  obtain ⟨_, _, _, _, _, _, _, _, _, _, traced⟩ := State.traceRec_background ((s.startBudget d).drive o) 1 d.queue
    (some d.ctx) (traceW1 d.tag (traceRun f member false))
  rw [State.begins, timers, State.traceStart, traced, budget]
  exact ⟨rfl, rfl, rfl⟩

theorem State.begins_furrow (j : Nat) : (s.begins f n d member o).furrow j = s.furrow j := by
  obtain ⟨furrows, -⟩ := s.begins_leaves f n d member o
  rw [State.furrow, furrows, State.furrow]

theorem State.begins_queue (q : Nat) : (s.begins f n d member o).queue q = (s.startBudget d).queue q := by
  obtain ⟨-, queues, -⟩ := s.begins_leaves f n d member o
  rw [State.queue, queues, State.queue]

theorem State.begins_drives : o ∈ (s.begins f n d member o).out := by
  obtain ⟨-, -, out⟩ := s.begins_leaves f n d member o
  exact out ▸ List.mem_cons_self

theorem State.begins_phase {s : State} (hs : s.Canonical) (m : Nat) :
    ((s.begins f n d member o).node m).map (·.phase) = (s.node m).map (·.phase) := by
  let u := (s.startBudget d).drive o
  have canonical : (u.traceStart f d member).Canonical :=
    State.traceStart_canonical u f d member (State.drive_canonical _ o (State.startBudget_canonical s d hs))
  have traced : (u.traceStart f d member).nodes = u.nodes := State.Background.nodes (u.traceRec_background ..)
  obtain ⟨_, budget⟩ := s.startBudget_eq d
  have nodes : u.nodes = s.nodes := congrArg (·.nodes) budget
  refine (State.startTimers_phase canonical n m d).trans ?_
  rw [State.node, traced, nodes, State.node]

end Begins

/-! ## Engine starts (R136, R147) -/

section Start
variable {s : State} {f : Nat} {sh : Shadow} {d : Node}

/-- The furrow after the start of a sheaf's own run: it runs, its entry has left the list, and the shadow bank is empty
(R136). -/
theorem Furrow.afterStart_own (x : Furrow) (own : sh.entry.measure = false) (now stamp : Nat) (early : Bool) :
    let y := x.afterStart sh d now stamp early
    y.shadow = none ∧ y.entries = x.entries.erase sh.entry ∧
      y.run.map (fun r => (r.entry, r.abort, r.iter, r.held)) = some (sh.entry, none, d.iter, false) := by
  simp only [Furrow.afterStart, own, Bool.false_eq_true, false_and, if_false]
  refine ⟨?_, ?_, ?_⟩ <;> repeat' split
  all_goals rfl

theorem State.countLatency_eq (s : State) (d : Node) (e : Entry) :
    ∃ life free, s.countLatency d e = { s with life := life, free := free } := by
  unfold State.countLatency
  split <;> exact ⟨_, _, rfl⟩

/-- The start of a sheaf's own run, which no stream port is bound to. -/
theorem State.start1_own (own : sh.entry.measure = false) (child : d.child = none) :
    ∃ life free, s.start1 f sh d =
      ((({ s with life := life, free := free }.setNode sh.entry.node (some (d.afterStart sh.entry))).onFurrow f
        fun x => x.afterStart sh d s.now s.stamp (!s.clocks.evalid)).tickStamp).begins f sh.entry.node d sh.entry.member
        (.start (s.stampOf sh.entry.ctx sh.entry.gen) f sh.entry.node sh.entry.member (d.measures sh.entry)
          (imageOut (d.image sh.entry.member (d.measures sh.entry) d.wide))) := by
  obtain ⟨life, free, counted⟩ := s.countLatency_eq d sh.entry
  refine ⟨life, free, ?_⟩
  simp only [State.start1, State.streamStart, child, own, Bool.false_eq_true, if_false, counted,
    State.startBudget_stampOf]
  rfl

theorem State.start1_starts (hs : s.Canonical) (member : sh.entry.member = none) (own : sh.entry.measure = false)
    (child : d.child = none) :
    let t := s.start1 f sh d
    t.furrow f =
      ((s.furrow f).afterStart sh d s.now s.stamp (!s.clocks.evalid)).touch s.now s.trimmed ∧
    (t.node sh.entry.node).map (·.phase) = some .running ∧
    .start (s.stampOf sh.entry.ctx sh.entry.gen) f sh.entry.node none (d.measures sh.entry)
      (imageOut (d.image none (d.measures sh.entry) d.wide)) ∈ t.out ∧
    (d.fmt = 0 → (t.queue d.queue).cycHold = decide (hCyc d.lines ≠ 0) ∧
      (t.queue d.queue).cycDue = s.now + hCyc d.lines / 1600) := by
  obtain ⟨life, free, eq⟩ := State.start1_own (s := s) (f := f) own child
  let u : State := { s with life := life, free := free }
  have hu : u.Canonical := hs
  let v := u.setNode sh.entry.node (some (d.afterStart sh.entry))
  have hv : v.Canonical := State.setNode_canonical u _ _ hu
  let g := fun x : Furrow => x.afterStart sh d s.now s.stamp (!s.clocks.evalid)
  have hw := State.tickStamp_canonical _ (State.onFurrow_canonical v f g hv)
  intro t
  simp only [t, eq, State.begins_furrow, State.begins_queue]
  refine ⟨State.onFurrow_furrow hv f g, ?_, ?_, fun fmt => State.startBudget_queue hw fmt⟩
  · refine (State.begins_phase f sh.entry.node d _ _ hw _).trans ?_
    have placed : v.node sh.entry.node = some (d.afterStart sh.entry) :=
      u.setNode_node_same _ _ (State.canonical_nodes hu)
    show (v.node sh.entry.node).map (·.phase) = _
    rw [placed]
    simp [Node.afterStart, member, own]
  · rw [← member]
    exact State.begins_drives ..

theorem engineStart_starts (isF : isFurrow f) (working : s.working = true) (idle : (s.furrow f).run = none)
    (shadow : (s.furrow f).shadow = some sh) (node : s.node sh.entry.node = some d) :
    exec (.engineStart f) s = .next (if s.canStart (s.furrow f) sh d then s.start1 f sh d else s) := by
  show execEngineStart f s = _
  simp only [execEngineStart, ok_pos isF, working, State.when_true, idle, shadow, node]

theorem engineStart_continues {r : EngineRun} (isF : isFurrow f) (working : s.working = true)
    (run : (s.furrow f).run = some r) (held : r.held = true) (kept : r.abort = none)
    (node : s.node r.entry.node = some d) :
    exec (.engineStart f) s = .next (if (s.queue d.queue).cycHold = false then s.nextHeld f r d else s) := by
  show execEngineStart f s = _
  simp only [execEngineStart, ok_pos isF, working, State.when_true, run, node, held, kept, true_and]

end Start

end Sys2Proof.Machine
end

section
/-! Cycle budgets (R141, R142) and the landing of tokens (R124-R129, R290, R357). -/

namespace Sys2Proof.Machine
open Sys2Proof.Claim

/-! ## Cycle budgets -/

/-- A budget that runs, and that CHAIN does not void, holds the sheaf in the shadow bank back (R141, R142). -/
theorem State.canStart_held {s : State} {sh : Shadow} {d : Node} (x : Furrow) (fmt : d.fmt = 0)
    (runs : (s.queue d.queue).cycHold = true) (counts : s.cycVoid d = false) : s.canStart x sh d = false := by
  have shut : s.budgetOpen d = false := by simp [State.budgetOpen, fmt, runs, counts]
  simp [State.canStart, shut]

/-- The next iteration of a run of FMT 0 starts, and begins its budget (R141). -/
theorem State.nextHeld_starts {s : State} (hs : s.Canonical) (f : Nat) (r : EngineRun) {d : Node} (fmt : d.fmt = 0) :
    let t := s.nextHeld f r d
    (t.furrow f).run = some { r with held := false, since := s.now, early := !s.clocks.evalid } ∧
    .rerun (s.runStamp r) f ∈ t.out ∧ (t.queue d.queue).cycHold = decide (hCyc d.lines ≠ 0) := by
  let u := s.modFurrow f fun x => { x with
    run := some { r with held := false, since := s.now, early := !s.clocks.evalid } }
  have begins : s.nextHeld f r d = u.begins f r.entry.node d none (.rerun (s.runStamp r) f) := rfl
  obtain ⟨budget, -⟩ := State.startBudget_queue (s := u) (State.modFurrow_canonical s f _ hs) fmt
  intro t
  simp only [t, begins, State.begins_furrow, State.begins_queue]
  exact ⟨congrArg Furrow.run (State.modFurrow_furrow hs f _), State.begins_drives .., budget⟩

theorem cycleBudgetExpiry_step {s : State} {q : Nat} (queue : isQueue q) (working : s.working = true) :
    exec (.cycleBudgetExpiry q) s = .next (
      if (s.queue q).cycDue ≤ s.now then s.setQueue q { s.queue q with cycHold := false } else s) := by
  show execCycleBudgetExpiry q s = _
  simp only [execCycleBudgetExpiry, ok_pos queue, working, State.when_true]
  rfl

theorem cycleBudgetHoldsAndReleases : CycleBudgetHoldsAndReleases := by
  refine ⟨fun f sh d s isF working hs idle shadow node fmt => ⟨fun may member own child => ?_, fun runs counts => ?_⟩,
    fun f r d s isF working hs run held kept node fmt => ⟨fun runs => ?_, fun spent => ?_⟩,
    fun q s queue working => cycleBudgetExpiry_step queue working⟩
  · obtain ⟨furrow, -, -, budget⟩ := State.start1_starts (f := f) hs member own child
    obtain ⟨-, -, run⟩ := Furrow.afterStart_own (d := d) (s.furrow f) own s.now s.stamp (!s.clocks.evalid)
    refine ⟨s.start1 f sh d, ?_, ?_, budget fmt⟩
    · rw [engineStart_starts isF working idle shadow node, if_pos may]
    · rw [furrow, Furrow.touch_run, ← Option.isSome_map, run]
      rfl
  · rw [engineStart_starts isF working idle shadow node, State.canStart_held _ fmt runs counts]
    rfl
  · rw [engineStart_continues isF working run held kept node, runs]
    rfl
  · refine ⟨s.nextHeld f r d, ?_, State.nextHeld_starts hs f r fmt⟩
    rw [engineStart_continues isF working run held kept node, if_pos spent]

/-! ## Tokens -/

/-- A working Pliat takes a delivery at once (R454). -/
theorem State.delivery_working {s : State} (working : s.working = true) (c : Instr) (f : State → State) :
    s.delivery c f = f s := by
  simp only [State.working, State.up, Bool.and_eq_true, Bool.not_eq_true', decide_eq_true_eq] at working
  obtain ⟨⟨⟨power, safe⟩, awake⟩, -⟩ := working
  simp [State.delivery, power, safe, awake]

theorem State.working_noReset {s : State} (working : s.working = true) : s.recov.inprogress = false := by
  simp only [State.working, Bool.and_eq_true, Bool.not_eq_true'] at working
  exact working.2

theorem Furrow.addTok_entries {x y : Furrow} {c : Nat} {gen : BitVec 12} {v : BitVec 16}
    (h : x.addTok c gen v = some y) : y.entries = x.entries := by
  unfold Furrow.addTok at h
  dsimp only at h
  split at h <;> split at h
  · cases h
  · exact Option.some.inj h ▸ rfl
  · cases h
  · exact Option.some.inj h ▸ rfl

section Land
variable {s : State} {f c : Nat} {gen : BitVec 12} {v : BitVec 16}

/-- A token that the store takes is added, and changes no entry, no queue and no token in flight (R126). -/
theorem State.landToken_added (hs : s.Canonical) {x : Furrow} (current : (s.ctx c).gen = gen)
    (present : s.furrowPresent f = true) (added : (s.furrow f).addTok c gen v = some x) :
    let t := s.landToken f c gen v
    (t.furrow f).tokens = x.tokens ∧ (t.furrow f).entries = (s.furrow f).entries ∧ t.flying = s.flying ∧
      t.queues = s.queues := by
  let u := s.setFurrow f (x.touch s.now s.trimmed)
  have lands : s.landToken f c gen v = (u.unpark f).wakeLent := by
    simp [State.landToken, current, present, added, u]
  have furrow : u.furrow f = x.touch s.now s.trimmed := s.setFurrow_furrow_same f _ (State.canonical_furrows hs)
  obtain ⟨sh, unparked⟩ := State.unpark_furrow (s := u) (State.setFurrow_canonical s f _ hs) f
  obtain ⟨queues, flying⟩ := u.unpark_leaves f
  obtain ⟨-, -, -, flying'⟩ := (u.unpark f).wakeLent_leaves
  have entries : x.entries = (s.furrow f).entries := Furrow.addTok_entries added
  intro t
  simp only [t, lands, State.wakeLent_furrow, unparked, furrow]
  exact ⟨rfl, entries, flying'.trans flying, (State.wakeLent_queues _).trans queues⟩

theorem State.landToken_overflow (current : (s.ctx c).gen = gen) (present : s.furrowPresent f = true)
    (full : (s.furrow f).addTok c gen v = none) : s.landToken f c gen v = s.raise
      { source := srcFurrow f, kind := kTokenOverflow, cls := .contain, ctx := some (c, gen)
        furrow := BitVec.ofNat 10 f, cause := 0xE1 } := by
  simp [State.landToken, current, present, full]

theorem State.landToken_absent (current : (s.ctx c).gen = gen) (absent : s.furrowPresent f = false) :
    s.landToken f c gen v = s.raise
      { source := srcFurrow f, kind := kTokenDrop, cls := .note, ctx := some (c, gen)
        furrow := BitVec.ofNat 10 f } := by
  simp [State.landToken, current, absent]

theorem State.landToken_stale (stale : (s.ctx c).gen ≠ gen) : s.landToken f c gen v = s := by
  simp [State.landToken, stale]

variable {cg : BitVec 8} (isF : isFurrow f) (isC : isCtx c) (working : s.working = true)
include isF isC

theorem tokenDelivery_ignored (closed : (s.flying.contains { furrow := f, ctx := c, gen := gen, value := v } &&
    cg == s.recov.chipgen) = false) : exec (.tokenDelivery f c ⟨gen, cg⟩ v false) s = .next s := by
  show execTokenDelivery f c ⟨gen, cg⟩ v false s = _
  simp only [execTokenDelivery, ok_pos (And.intro isF isC), Bool.false_eq_true, if_false, closed, State.when_false]

include working

theorem tokenDelivery_remote : exec (.tokenDelivery f c ⟨gen, cg⟩ v true) s =
    .next (if s.engineOn = true then s.landToken f c gen v else s) := by
  show execTokenDelivery f c ⟨gen, cg⟩ v true s = _
  simp [execTokenDelivery, isF, isC, State.when, State.delivery_working working, State.working_noReset working]

theorem tokenDelivery_own (flies : { furrow := f, ctx := c, gen := gen, value := v } ∈ s.flying)
    (current : cg = s.recov.chipgen) : exec (.tokenDelivery f c ⟨gen, cg⟩ v false) s =
    .next ({ s with flying := s.flying.erase { furrow := f, ctx := c, gen := gen, value := v } }.landToken
      f c gen v) := by
  show execTokenDelivery f c ⟨gen, cg⟩ v false s = _
  simp [execTokenDelivery, isF, isC, flies, current, State.delivery_working working, State.working_noReset working]

end Land

theorem tokensLandInTheirStore : TokensLandInTheirStore := by
  intro f c gen cg v s isF isC working hs token here
  have remote := tokenDelivery_remote (gen := gen) (v := v) (cg := cg) isF isC working
  refine ⟨fun current present => ⟨fun x added => ⟨fun ports => ?_, fun flies chip => ?_⟩, fun full ports => ?_⟩,
    fun current absent ports => ?_, fun stale => ?_, fun old => ?_⟩
  · exact ⟨_, remote.trans (congrArg _ (if_pos ports)), State.landToken_added hs current present added⟩
  · have taken : State.Canonical { s with flying := s.flying.erase token } := hs
    exact ⟨_, tokenDelivery_own isF isC working flies chip, State.landToken_added taken current present added⟩
  · rw [remote, if_pos ports, State.landToken_overflow current present full]
  · rw [remote, if_pos ports, State.landToken_absent current absent]
  · rw [remote, State.landToken_stale stale, ite_self]
  · exact tokenDelivery_ignored isF isC (by simp [old])

/-- Settles O15 from its two parts. -/
theorem tokensAndBudgets : Obligations.TokensAndBudgets := ⟨cycleBudgetHoldsAndReleases, tokensLandInTheirStore⟩

end Sys2Proof.Machine
end

section
/-! Admission, grants, preloads and engine starts (R35, R41, R130, R131, R135, R136, R317). -/

namespace Sys2Proof.Machine
open Sys2Proof.Claim

/-! ## Admission (R130) -/

theorem furrowAdmit_step {s : State} {f : Nat} {a : Admit} (isF : isFurrow f) (working : s.working = true)
    (first : firstAdmit (s.admits.filter fun b => b.furrow == f && s.enterable b) = some a) :
    exec (.furrowAdmit f) s = .next (s.admit1 a) := by
  show execFurrowAdmit f s = _
  simp only [execFurrowAdmit, ok_pos isF, working, State.when_true, first]

/-- The state in which a request's entry enters its furrow: the request is gone, and its sheaf follows (R130, R195). -/
def State.entering (s : State) (a : Admit) : State :=
  { s with admits := s.admits.erase a }.modNode a.entry.node fun d => d.entered a.entry

theorem State.enterFurrow_leaves (s : State) (f : Nat) (e : Entry) (front : Bool) :
    (s.enterFurrow f e front).admits = s.admits ∧ (s.enterFurrow f e front).nodes = s.nodes ∧
    (s.enterFurrow f e front).queues = s.queues := by
  let u := (s.onFurrow f fun x => x.enter { e with entered := s.stamp } front).tickStamp
  obtain ⟨nodes, -, admits, -⟩ := u.wakeLent_leaves
  exact ⟨admits, nodes, u.wakeLent_queues⟩

theorem State.enterFurrow_entries {s : State} (hs : s.Canonical) (f : Nat) (e : Entry) (front : Bool) :
    ((s.enterFurrow f e front).furrow f).entries =
      ((s.furrow f).enter { e with entered := s.stamp } front).entries := by
  rw [State.enterFurrow, State.wakeLent_furrow, State.tickStamp_furrow, State.onFurrow_furrow hs, Furrow.touch_entries]

theorem State.enterFurrow_other (s : State) {f j : Nat} (e : Entry) (front : Bool) (h : j ≠ f) :
    (s.enterFurrow f e front).furrow j = s.furrow j := by
  rw [State.enterFurrow, State.wakeLent_furrow, State.tickStamp_furrow, s.onFurrow_furrow_other _ h]

theorem furrowAdmitsTheFirstRequest : FurrowAdmitsTheFirstRequest := by
  intro f a d s isF working hs first furrow node member own
  let u := s.entering a
  have hu : u.Canonical := State.modNode_canonical { s with admits := s.admits.erase a } _ _ hs
  have sheaf : u.node a.entry.node = some { d with phase := .furrow } := by
    have read : u.node a.entry.node = (s.node a.entry.node).map fun d => d.entered a.entry :=
      State.modNode_node (s := { s with admits := s.admits.erase a }) hs _ _
    rw [read, node]
    simp [Node.entered, member, own]
  obtain ⟨admits, nodes, queues⟩ := u.enterFurrow_leaves a.furrow a.entry a.front
  subst furrow
  refine ⟨_, furrowAdmit_step isF working first, admits, ?_, ?_, queues, fun j other => ?_⟩
  · exact (congrArg (Tbl.get none · a.entry.node) nodes).trans sheaf
  · refine (State.enterFurrow_entries hu a.furrow a.entry a.front).trans ?_
    cases a.front <;> rfl
  · exact u.enterFurrow_other a.entry a.front other

/-! ## Arbitration with one head (R131) -/

/-- With one eligible head whose context has the deficit for its charge, that head is granted at the first visit, and
its charge is taken. -/
theorem Furrow.arbitrate_single (x : Furrow) {e : Entry} (prio : e.prio ≤ 3)
    (covered : (e.charge : Int) ≤ Tbl.get 0 x.deficits e.ctx) :
    x.arbitrate [e] = some (e, { x with
      deficits := Tbl.set 0 x.deficits e.ctx (Tbl.get 0 x.deficits e.ctx - (e.charge : Int))
      lastCtx := some e.ctx
      lastQueue := Tbl.set none x.lastQueue e.ctx (some e.queue) }) := by
  have level : min 4 e.prio = e.prio := by omega
  have ring : ringFrom [e.ctx] x.lastCtx = [e.ctx] := by
    cases x.lastCtx with
    | none => rfl
    | some l =>
      by_cases h : l ≤ e.ctx
      · simp [ringFrom, h]
      · have below : e.ctx < l := by omega
        simp [ringFrom, h, below]
  have turn : ringNext [e.queue] (Tbl.get none x.lastQueue e.ctx) = some e.queue := by
    cases Tbl.get none x.lastQueue e.ctx with
    | none => rfl
    | some l => by_cases h : l < e.queue <;> simp [ringNext, h]
  have next : x.nextOf [e] e.ctx = some e := by simp [Furrow.nextOf, sortNats, insNat, turn]
  have visits : visitsFor (Tbl.get 0 x.deficits e.ctx) e.charge = 0 := by
    unfold visitsFor
    omega
  simp [Furrow.arbitrate, level, contextsOf, sortNats, insNat, ring, next, visits, walkRing, covered,
    Furrow.addDeficit, Int.sub_eq_add_neg]

/-! ## What the fabric does before a grant (R35) -/

/-- From s to t some ports have carried lines: of a furrow at most its shadow bank has changed. -/
structure State.Carries (s t : State) : Prop where
  frame : t = { s with furrows := t.furrows, fabric := t.fabric, free := t.free }
  furrow : ∀ f, ∃ sh, t.furrow f = { s.furrow f with shadow := sh }

/-- A furrow to which its port has carried one line. -/
def Furrow.carried (x : Furrow) : Furrow :=
  { x with shadow := x.shadow.map fun sh => { sh with left := sh.left - 1 } }

namespace State.Carries

theorem refl (s : State) : s.Carries s := ⟨rfl, fun _ => ⟨_, rfl⟩⟩

theorem trans {s t u : State} (h : s.Carries t) (h' : t.Carries u) : s.Carries u where
  frame := by
    rw [h'.frame, h.frame]
  furrow f := by
    obtain ⟨_, first⟩ := h.furrow f
    obtain ⟨sh, second⟩ := h'.furrow f
    exact ⟨sh, by rw [second, first]⟩

end State.Carries

section Carrying
variable {s : State} (hs : s.Canonical)
include hs

theorem State.carryLine_carries (port : Nat) : s.Carries (s.carryLine port) := by
  unfold State.carryLine
  split
  · exact .refl s
  · next f _ =>
    refine ⟨rfl, fun j => ?_⟩
    by_cases h : j = f
    · subst h
      exact ⟨_, State.modFurrow_furrow hs j Furrow.carried⟩
    · exact ⟨_, s.modFurrow_furrow_other Furrow.carried h⟩

theorem State.carryLines_carries (port k : Nat) : s.Carries (s.carryLines port k) := by
  induction k generalizing s with
  | zero => exact .refl s
  | succ k ih => exact (State.carryLine_carries hs port).trans (ih (State.carryLine_canonical s port hs))

theorem State.carrySome_carries (port : Nat) : s.Carries (s.carrySome port) := by
  unfold State.carrySome
  dsimp only
  split
  · exact .refl s
  · exact (State.carryLines_carries hs port _).trans ⟨rfl, fun _ => ⟨_, rfl⟩⟩

end Carrying

end Sys2Proof.Machine
end

section
/-! Grants, preloads and engine starts (R35, R41, R131, R135, R136, R317). -/

namespace Sys2Proof.Machine
open Sys2Proof.Claim

/-! ## Grants (R131, R135, R317) -/

/-- Beginning reads changes only what is still to be read, the agents and the messages on their way. -/
theorem State.beginReads_eq (s : State) (c : Instr) (xs : List LineNeed) :
    ∃ agents net, s.beginReads c xs = { s with
      reads := (s.reads.filter fun e => e.1 != c) ++ [(c, (xs.filter fun x => !s.lineHeld x).map (·.line))]
      agents := agents, net := net } :=
  ⟨_, _, State.askLines_eq _ _⟩

/-- The state in which a granted entry takes the shadow bank: its port has carried some of the lines that waited, and
the descriptor cache reads the sheaf's lines (R35, R317). -/
def State.preparing (s : State) (f : Nat) (x : Furrow) (e : Entry) : State :=
  let u := (s.setFurrow f x).carrySome (fabricPort f)
  match u.node e.node with
  | some d => u.beginReads (.preloadComplete f none) (sheafNeeds e.node d.lines.length)
  | none => u

/-- The shadow bank of an entry that has just been granted. -/
def State.granting (s : State) (e : Entry) (parked : Bool) : Shadow :=
  { entry := e, loaded := false, parked := parked, left := s.fabricLines e, since := s.stamp }

theorem State.preload_eq (s : State) (f : Nat) (x : Furrow) (e : Entry) (parked : Bool) :
    s.preload f x e parked =
      let v := s.preparing f x e
      (v.modFurrow f fun y => { y with shadow := some (v.granting e parked) }).tickStamp.drive
        (.preload f e.node e.member) := rfl

section Preload
variable {s : State} (hs : s.Canonical) (f : Nat) (x : Furrow) (e : Entry)

theorem State.preparing_eq (s : State) (f : Nat) (x : Furrow) (e : Entry) :
    ∃ reads agents net, s.preparing f x e =
      { (s.setFurrow f x).carrySome (fabricPort f) with reads := reads, agents := agents, net := net } := by
  unfold State.preparing
  dsimp only
  split
  · obtain ⟨_, _, begun⟩ := State.beginReads_eq _ _ _
    exact ⟨_, _, _, begun⟩
  · exact ⟨_, _, _, rfl⟩

include hs

theorem State.preparing_canonical : (s.preparing f x e).Canonical := by
  have carried := State.carrySome_canonical _ (fabricPort f) (State.setFurrow_canonical s f x hs)
  unfold State.preparing
  dsimp only
  split
  · exact State.beginReads_canonical _ _ _ carried
  · exact carried

/-- What a grant has changed before the shadow bank is taken. -/
theorem State.preparing_leaves : (∃ sh, (s.preparing f x e).furrow f = { x with shadow := sh }) ∧
    (s.preparing f x e).nodes = s.nodes ∧ (s.preparing f x e).out = s.out := by
  have carried := State.carrySome_carries (State.setFurrow_canonical s f x hs) (fabricPort f)
  obtain ⟨sh, furrow⟩ := carried.furrow f
  rw [s.setFurrow_furrow_same f x (State.canonical_furrows hs)] at furrow
  obtain ⟨_, _, _, eq⟩ := s.preparing_eq f x e
  rw [eq]
  exact ⟨⟨sh, furrow⟩, congrArg (·.nodes) carried.frame, congrArg (·.out) carried.frame⟩

/-- The lines of the granted sheaf that the descriptor cache does not hold are still to be read (R317). -/
theorem State.preparing_reads {d : Node} (node : s.node e.node = some d) :
    (.preloadComplete f none, ((sheafNeeds e.node d.lines.length).filter fun y => !s.lineHeld y).map (·.line)) ∈
      (s.preparing f x e).reads := by
  have carried := State.carrySome_carries (State.setFurrow_canonical s f x hs) (fabricPort f)
  let u := (s.setFurrow f x).carrySome (fabricPort f)
  have frame : u = _ := carried.frame
  have sheaf : u.node e.node = some d := by
    rw [State.node, frame]
    exact node
  have held : u.lineHeld = s.lineHeld := by
    rw [frame]
    rfl
  have begins : s.preparing f x e =
      u.beginReads (.preloadComplete f none) (sheafNeeds e.node d.lines.length) := by
    simp only [State.preparing]
    rw [sheaf]
  obtain ⟨_, _, begun⟩ := u.beginReads_eq (.preloadComplete f none) (sheafNeeds e.node d.lines.length)
  rw [begins, begun, held]
  simp

theorem State.preload_fills (parked : Bool) :
    let t := s.preload f x e parked
    (∃ k, t.furrow f = { x with
      shadow := some { entry := e, loaded := false, parked := parked, left := s.fabricLines e, since := k } }) ∧
    t.out = .preload f e.node e.member :: s.out ∧ t.nodes = s.nodes ∧
    ∀ d, s.node e.node = some d → (.preloadComplete f none,
      ((sheafNeeds e.node d.lines.length).filter fun y => !s.lineHeld y).map (·.line)) ∈ t.reads := by
  let v := s.preparing f x e
  obtain ⟨⟨_, furrow⟩, nodes, out⟩ := State.preparing_leaves hs f x e
  have lines : v.fabricLines e = s.fabricLines e := by simp only [State.fabricLines, State.node, v, nodes]
  rw [State.preload_eq]
  refine ⟨⟨v.stamp, ?_⟩, ?_, ?_, fun d node => ?_⟩
  · rw [State.drive_furrow, State.tickStamp_furrow, State.modFurrow_furrow (State.preparing_canonical hs f x e), furrow,
      State.granting, lines]
  · rw [State.drive_out, State.tickStamp_out, State.modFurrow_out, out]
  · rw [State.drive_nodes, State.tickStamp_nodes, State.modFurrow_nodes, nodes]
  · rw [State.drive_reads, State.tickStamp_reads, State.modFurrow_reads]
    exact State.preparing_reads hs f x e node

end Preload

theorem State.grant_single {s : State} {f : Nat} {e : Entry} {y : Furrow} (empty : (s.furrow f).shadow = none)
    (noChain : (s.furrow f).chainFrom = none)
    (only : (s.furrow f).heads.filter (fun e => s.grantable (s.furrow f) e) = [e])
    (eligible : (s.furrow f).eligible e = true) (chosen : (s.furrow f).arbitrate [e] = some (e, y)) :
    s.grant f = s.preload f { y with chainFrom := if y.chainFrom = some e.order then none else y.chainFrom } e
      false := by
  have head : [e].filter (s.furrow f).eligible = [e] := by simp [eligible]
  have noEntry : (s.furrow f).chainEntry [e] = none := by simp [Furrow.chainEntry, noChain]
  simp [State.grant, State.grantWith, empty, only, head, Furrow.direct, noEntry, chosen]

theorem grantPreloadsTheHead : GrantPreloadsTheHead := by
  intro f e s isF working hs empty noChain only eligible prio covered
  have step : exec (.arbiterGrant f) s = .next (s.grant f) := by
    show execArbiterGrant f s = _
    simp only [execArbiterGrant, ok_pos isF, working, State.when_true]
  have grants := State.grant_single empty noChain only eligible ((s.furrow f).arbitrate_single prio covered)
  obtain ⟨⟨k, furrow⟩, out, nodes, reads⟩ := State.preload_fills hs f _ e false
  refine ⟨_, step.trans (congrArg _ grants), ⟨k, ?_⟩, ?_, ?_, out, nodes, reads⟩ <;> rw [furrow]

/-! ## Preloads (R35, R41, R135, R317) -/

/-- An entry that is not the default is listed. -/
theorem Tbl.mem_of_get {α : Type} {d : α} {t : Tbl α} {k : Nat} (h : Tbl.get d t k ≠ d) :
    (k, Tbl.get d t k) ∈ t := by
  induction t with
  | nil => exact absurd rfl h
  | cons e t ih =>
    obtain ⟨j, x⟩ := e
    by_cases here : j = k
    · simp [Tbl.get, here]
    · simp only [Tbl.get, here, if_false] at h ⊢
      exact List.mem_cons_of_mem _ (ih h)

/-- In canonical form an entry that is listed is read. -/
theorem Tbl.get_of_mem {α : Type} [DecidableEq α] {d : α} {t : Tbl α} {lo k : Nat} {x : α}
    (wf : Tbl.wfFrom d lo t = true) (h : (k, x) ∈ t) : lo ≤ k ∧ Tbl.get d t k = x := by
  induction t generalizing lo with
  | nil => cases h
  | cons e t ih =>
    obtain ⟨j, y⟩ := e
    simp only [Tbl.wfFrom, Bool.and_eq_true, decide_eq_true_eq] at wf
    obtain ⟨⟨low, -⟩, rest⟩ := wf
    rcases List.mem_cons.mp h with here | later
    · obtain ⟨rfl, rfl⟩ := Prod.mk.inj here
      exact ⟨low, by simp [Tbl.get]⟩
    · obtain ⟨above, read⟩ := ih rest later
      have other : j ≠ k := by omega
      exact ⟨by omega, by simp [Tbl.get, other, read]⟩

section Carry
variable {s : State} {f : Nat} {sh : Shadow}

/-- A furrow whose preload is under way is among those that its port serves (R35). -/
theorem State.mem_carrying (shadow : (s.furrow f).shadow = some sh) (loading : sh.loaded = false) :
    (f, sh.left, sh.since) ∈ s.carrying (fabricPort f) := by
  have listed : (f, s.furrow f) ∈ s.furrows := Tbl.mem_of_get fun unlisted => by
    have none : (s.furrow f).shadow = none := congrArg Furrow.shadow unlisted
    simp [none] at shadow
  exact List.mem_filterMap.mpr ⟨_, listed, by simp [shadow, loading]⟩

/-- The port serves each furrow once. -/
theorem State.carrying_left (wf : Tbl.wf {} s.furrows = true) (shadow : (s.furrow f).shadow = some sh) {port : Nat}
    {w : Nat × Nat × Nat} (h : w ∈ s.carrying port) (here : w.1 = f) : w.2.1 = sh.left := by
  obtain ⟨⟨j, x⟩, listed, served⟩ := List.mem_filterMap.mp h
  obtain ⟨-, read⟩ := Tbl.get_of_mem wf listed
  cases bank : x.shadow with
  | none => simp [bank] at served
  | some sh' =>
    simp only [bank, Option.ite_none_right_eq_some, Option.some.injEq] at served
    obtain ⟨-, rfl⟩ := served
    have same : (s.furrow f).shadow = some sh' := by rw [← bank, ← read, ← here, State.furrow]
    rw [shadow] at same
    rw [Option.some.inj same]

/-- The lines of a preload have all arrived: the port carries none before it is complete. -/
theorem State.carryTo_arrived (shadow : (s.furrow f).shadow = some sh) (loading : sh.loaded = false)
    (arrived : sh.left = 0) (k : Nat) : s.carryTo f (k + 1) = some s := by
  have waits : (s.carrying (fabricPort f)).any (fun w => w.1 == f && w.2.1 == 0) = true :=
    List.any_eq_true.mpr ⟨_, State.mem_carrying shadow loading, by simp [arrived]⟩
  simp only [State.carryTo, waits, if_true]

/-- Another preload of the port is complete before (R35). -/
theorem State.carryTo_later {f' : Nat} {other : Shadow} (wf : Tbl.wf {} s.furrows = true)
    (shadow : (s.furrow f).shadow = some sh) (left : sh.left ≠ 0) (bank : (s.furrow f').shadow = some other)
    (port : fabricPort f' = fabricPort f) (loading : other.loaded = false) (arrived : other.left = 0) (k : Nat) :
    s.carryTo f (k + 1) = none := by
  have mine : (s.carrying (fabricPort f)).any (fun w => w.1 == f && w.2.1 == 0) = false :=
    List.any_eq_false.mpr fun w h => by
      have mem := State.carrying_left wf shadow h
      simp only [Bool.and_eq_true, beq_iff_eq, not_and]
      exact fun here => (mem here).symm ▸ left
  have others : (s.carrying (fabricPort f)).any (fun w => w.2.1 == 0) = true :=
    List.any_eq_true.mpr ⟨_, port ▸ State.mem_carrying bank loading, by simp [arrived]⟩
  simp only [State.carryTo, mine, others, Bool.false_eq_true, if_false, if_true]

end Carry

/-- The bank is filled, if the port has carried all of its lines (R35, R135). -/
def State.fillBank (s : State) (f : Nat) : State :=
  match s.carryTo f 20000 with
  | some u => u.loadBank f
  | none => s

theorem State.fillBank_carried {s u : State} {f : Nat} (h : s.carryTo f 20000 = some u) :
    s.fillBank f = u.loadBank f := by simp only [State.fillBank, h]

theorem State.fillBank_later {s : State} {f : Nat} (h : s.carryTo f 20000 = none) : s.fillBank f = s := by
  simp only [State.fillBank, h]

section Complete
variable {s : State} {f : Nat} {sh : Shadow} {d : Node} (isF : isFurrow f) (working : s.working = true)
  (shadow : (s.furrow f).shadow = some sh) (loading : sh.loaded = false) (node : s.node sh.entry.node = some d)
include isF working shadow loading node

/-- A preload of which a line is still to be read waits (R317). -/
theorem preloadComplete_waits
    (lacking : ¬ Holds s (unread s (.preloadComplete f none) (sheafNeeds sh.entry.node d.lines.length)))
    {err : Option (Bool × PreloadError)} (fits : ∀ x ∈ err, x.1 = false ∧ s.errorFits f sh.entry d x.2 = true) :
    exec (.preloadComplete f err) s = .next (asksReads s (.preloadComplete f none) (.preloadComplete f err)
      (sheafNeeds sh.entry.node d.lines.length)) := by
  show execPreloadComplete f err s = _
  cases err with
  | none =>
    simp only [execPreloadComplete, ok_pos isF, working, State.when_true, shadow, loading, node, State.preloadRead,
      State.withReads_unread]
    exact congrArg _ (if_neg lacking)
  | some x =>
    obtain ⟨unc, e⟩ := x
    obtain ⟨rfl, fit⟩ := fits _ rfl
    simp only [execPreloadComplete, ok_pos isF, working, State.when_true, shadow, loading, node, fit, State.preloadRead,
      State.withReads_unread]
    exact congrArg _ (if_neg lacking)

/-- A preload whose lines have been read fills the bank once the port has carried them (R35). -/
theorem preloadComplete_read
    (held : Holds s (unread s (.preloadComplete f none) (sheafNeeds sh.entry.node d.lines.length))) :
    exec (.preloadComplete f none) s = .next ((hasRead s (.preloadComplete f none)).fillBank f) := by
  show execPreloadComplete f none s = _
  simp only [execPreloadComplete, ok_pos isF, working, State.when_true, shadow, loading, node, State.preloadRead,
    State.withReads_unread]
  exact congrArg _ (if_pos held)

/-- So does one that meets a corrected error, which is reported (R39). -/
theorem preloadComplete_corrected {e : PreloadError} {u : State} (fit : s.errorFits f sh.entry d e = true)
    (held : Holds s (unread s (.preloadComplete f none) (sheafNeeds sh.entry.node d.lines.length)))
    (carried : (hasRead s (.preloadComplete f none)).carryTo f 20000 = some u) :
    ∃ x : Found, x.unc = false ∧ exec (.preloadComplete f (some (false, e))) s =
      .next ((u.loadBank f).useFree.corrected (preloadCode d f e).2.2 x) := by
  refine ⟨{ unc := false, pos := BitVec.ofNat 8 (fld u.freeNow 15 8), syn := BitVec.ofNat 8 (fld u.freeNow 7 0) }, rfl,
    ?_⟩
  show execPreloadComplete f _ s = _
  simp only [execPreloadComplete, ok_pos isF, working, State.when_true, shadow, loading, node, fit, State.preloadRead,
    State.withReads_unread]
  exact congrArg _ ((if_pos held).trans (by simp only [carried]))

/-- One that meets an uncorrectable error is discarded, and ends its sheaf (R41, R338). -/
theorem preloadComplete_uncorrectable {e : PreloadError} (fit : s.errorFits f sh.entry d e = true) :
    exec (.preloadComplete f (some (true, e))) s = .next ((s.discard f).sheafEcc sh.entry.node d (preloadCode d f e).2.2
      (eccDetail (preloadCode d f e).1 (preloadCode d f e).2.1 sh.entry.member) (BitVec.ofNat 10 f)) := by
  show execPreloadComplete f _ s = _
  simp only [execPreloadComplete, ok_pos isF, working, State.when_true, shadow, loading, node, fit]
  rfl

/-- An error that the preload cannot meet changes nothing. -/
theorem preloadComplete_unfit {e : PreloadError} (unfit : s.errorFits f sh.entry d e = false) (unc : Bool) :
    exec (.preloadComplete f (some (unc, e))) s = .next s := by
  show execPreloadComplete f _ s = _
  simp only [execPreloadComplete, ok_pos isF, working, State.when_true, shadow, loading, node, unfit]
  rfl

end Complete

theorem preloadFillsTheShadowBank : PreloadFillsTheShadowBank := by
  intro f sh d s isF working shadow loading node key needs held t
  have reads (h : held) : exec (.preloadComplete f none) s = .next (t.fillBank f) :=
    preloadComplete_read isF working shadow loading node h
  have arrived (left : sh.left = 0) : t.carryTo f 20000 = some t :=
    State.carryTo_arrived (s := t) shadow loading left 19999
  refine ⟨fun h left => ?_, fun u h carried => ?_, fun h => ⟨?_, fun e fit => ?_⟩, fun h left wf first => ?_,
    fun e fit => preloadComplete_uncorrectable isF working shadow loading node fit,
    fun e fit h left => preloadComplete_corrected isF working shadow loading node fit h (arrived left),
    fun unc l alone => preloadComplete_unfit isF working shadow loading node ?_ unc⟩
  · rw [reads h, State.fillBank_carried (arrived left)]
    have bank : t.furrow f = s.furrow f := rfl
    simp only [State.loadBank, State.modFurrow, bank, shadow, Option.map_some]
  · rw [reads h, State.fillBank_carried carried]
  · exact preloadComplete_waits isF working shadow loading node h (err := none) (by simp)
  · exact preloadComplete_waits isF working shadow loading node h (err := some (false, e)) (by simpa using fit)
  · obtain ⟨f', other, bank, port, loading', arrived'⟩ := first
    rw [reads h, State.fillBank_later]
    exact State.carryTo_later (s := t) wf shadow left bank port loading' arrived' 19999
  · rcases alone with own | first | second
    · simp [State.errorFits, own]
    · simp [State.errorFits, first]
    · simp [State.errorFits, second]

/-! ## Engine starts (R126, R136, R147) -/

theorem engineStartRunsTheShadowBank : EngineStartRunsTheShadowBank := by
  intro f sh d s isF working hs idle shadow node may member own child
  obtain ⟨furrow, phase, driven, -⟩ := State.start1_starts (f := f) hs member own child
  obtain ⟨emptied, entries, run⟩ := Furrow.afterStart_own (d := d) (s.furrow f) own s.now s.stamp (!s.clocks.evalid)
  refine ⟨s.start1 f sh d, ?_, ?_, ?_, ?_, phase, driven⟩
  · rw [engineStart_starts isF working idle shadow node, if_pos may]
  · rw [furrow, Furrow.touch_shadow, emptied]
  · rw [furrow, Furrow.touch_run, run]
  · rw [furrow, Furrow.touch_entries, entries]

/-- Settles O14 from its four parts. -/
theorem furrowsFeedTheirEngines : Obligations.FurrowsFeedTheirEngines :=
  ⟨furrowAdmitsTheFirstRequest, grantPreloadsTheHead, preloadFillsTheShadowBank, engineStartRunsTheShadowBank⟩

end Sys2Proof.Machine
end

section
/-! The scale steward: its step, the choice after a MEASURE pass, and its recordings (R152-R165). -/

namespace Sys2Proof.Machine
open Sys2Proof.Claim

/-! ## Writing a slot (R319) -/

/-- Beside the slot the steward changes only the value that the storage of the line still holds (R319). -/
theorem State.writeSlot_eq (s : State) (i : Nat) (x : Slot) :
    ∃ old, s.writeSlot i x = { s.setSlot i x with oldSlots := old } := by
  unfold State.writeSlot
  dsimp only
  split <;> exact ⟨_, rfl⟩

theorem State.writeSlot_slot {s : State} (hs : s.Canonical) (i : Nat) (x : Slot) : (s.writeSlot i x).slot i = x := by
  obtain ⟨_, written⟩ := s.writeSlot_eq i x
  rw [written]
  exact s.setSlot_slot_same i x (State.canonical_slots hs)

theorem State.writeSlot_slot_other (s : State) {i j : Nat} (x : Slot) (h : j ≠ i) :
    (s.writeSlot i x).slot j = s.slot j := by
  obtain ⟨_, written⟩ := s.writeSlot_eq i x
  rw [written]
  exact s.setSlot_slot_other x h

section Slot
variable (s : State) (i : Nat) (x : Slot)

theorem State.writeSlot_leaves : (s.writeSlot i x).admits = s.admits ∧ (s.writeSlot i x).queues = s.queues ∧
    (s.writeSlot i x).furrows = s.furrows ∧ (s.writeSlot i x).out = s.out := by
  obtain ⟨_, written⟩ := s.writeSlot_eq i x
  rw [written]
  exact ⟨rfl, rfl, rfl, rfl⟩

/-- The image's metadata and the furrow that a sheaf runs on depend on no slot (R147, R205). -/
theorem State.writeSlot_launch (d : Node) :
    (s.writeSlot i x).sheafMeta d = s.sheafMeta d ∧ (s.writeSlot i x).targetFurrow d = s.targetFurrow d := by
  obtain ⟨_, written⟩ := s.writeSlot_eq i x
  rw [written]
  exact ⟨rfl, rfl⟩

end Slot

section AskAdmit
variable (s : State) (f : Nat) (e : Entry) (ahead : Bool)

@[simp] theorem State.askAdmit_slot (i : Nat) : (s.askAdmit f e ahead).slot i = s.slot i := (rfl)
@[simp] theorem State.askAdmit_node (n : Nat) : (s.askAdmit f e ahead).node n = s.node n := (rfl)
@[simp] theorem State.askAdmit_queues : (s.askAdmit f e ahead).queues = s.queues := (rfl)
@[simp] theorem State.askAdmit_admits :
    (s.askAdmit f e ahead).admits = s.admits ++ [{ furrow := f, entry := e, front := ahead }] := (rfl)

end AskAdmit

/-! ## The steward's step (R152, R155, R160, R165) -/

theorem chooseExp_eq_exponent (x : Slot) (d : Node) : chooseExp x d = exponent x d := rfl

/-- The slot of a sheaf at its steward step: bound to its context, and acted on by its SLOTCTL (R152, R155). -/
def State.boundSlot (s : State) (d : Node) : Slot :=
  ((s.slot (hScaleslot d.lines)).bindTo d.ctx).control (regOf d.loaded rSlotctl)

section Steward
variable {s : State} {n : Nat} {d : Node} (hs : s.Canonical)
  (free : s.slotBlocked d.ctx (hScaleslot d.lines) = false)
include free

/-- The lines that a steward step needs: a choice writes the one it patches, a pass reads those of its image (R42,
R317). -/
theorem State.stewardLines_cases (f : State → State) :
    (hOp d.lines = opMeasure → s.stewardLines n d f = f s) ∧
    (hOp d.lines ≠ opMeasure → (exponent (s.boundSlot d) d).isSome = true →
      s.stewardLines n d f = s.withLines [patchNeed n d] (·.park (.stewardStep n)) f) ∧
    (hOp d.lines ≠ opMeasure → exponent (s.boundSlot d) d = none →
      s.stewardLines n d f =
        s.withReads (.stewardStep n) (sheafNeeds n d.lines.length) (·.park (.stewardStep n)) f) := by
  refine ⟨fun pass => ?_, fun own chosen => ?_, fun own none => ?_⟩
  · simp [State.stewardLines, pass]
  · obtain ⟨e, chosen⟩ := Option.isSome_iff_exists.mp chosen
    simp only [State.boundSlot] at chosen
    simp [State.stewardLines, free, own, chooseExp_eq_exponent, chosen]
  · simp only [State.boundSlot] at none
    simp [State.stewardLines, free, own, chooseExp_eq_exponent, none]

include hs

/-- A MEASURE sheaf needs no exponent (R167). -/
theorem State.steward_measure (pass : hOp d.lines = opMeasure) :
    let t := s.steward n d
    t.slot (hScaleslot d.lines) = s.boundSlot d ∧ t.node n = some { d with phase := .ready, scaled := true } ∧
      t.admits = s.admits ∧ (∀ j, j ≠ hScaleslot d.lines → t.slot j = s.slot j) ∧ t.queues = s.queues := by
  let u := s.writeSlot (hScaleslot d.lines) (s.boundSlot d)
  have step : s.steward n d = u.setNode n (some { d with phase := .ready, scaled := true }) := by
    simp only [State.steward, free, Bool.false_eq_true, if_false, pass, if_true]
    rfl
  obtain ⟨admits, queues, -, -⟩ := s.writeSlot_leaves (hScaleslot d.lines) (s.boundSlot d)
  simp only [step, State.setNode_slot, State.setNode_admits, State.setNode_queues]
  refine ⟨State.writeSlot_slot hs _ _, u.setNode_node_same n _ (State.canonical_nodes ?_), admits,
    fun j other => s.writeSlot_slot_other _ other, queues⟩
  exact State.writeSlot_canonical s _ _ hs

/-- A choice makes the exponent the sheaf's OUTEXP, and its slot's last one (R160). -/
theorem State.steward_chooses (own : hOp d.lines ≠ opMeasure) {e : Int} (chosen : exponent (s.boundSlot d) d = some e) :
    let t := s.steward n d
    t.slot (hScaleslot d.lines) = { s.boundSlot d with lastexp := some e } ∧
      t.node n = some { d with phase := .ready, scaled := true, outexp := some (BitVec.ofInt 8 e) } ∧
      (∀ j, j ≠ hScaleslot d.lines → t.slot j = s.slot j) ∧ t.queues = s.queues := by
  let y : Slot := { s.boundSlot d with lastexp := some e }
  let u := s.writeSlot (hScaleslot d.lines) (s.boundSlot d)
  let v := u.writeSlot (hScaleslot d.lines) y
  have hu : u.Canonical := State.writeSlot_canonical s _ _ hs
  have hv : v.Canonical := State.writeSlot_canonical u _ y hu
  have step : s.steward n d =
      v.setNode n (some { d with phase := .ready, scaled := true, outexp := some (BitVec.ofInt 8 e) }) := by
    simp only [State.boundSlot] at chosen
    simp only [State.steward, free, Bool.false_eq_true, if_false, own, chooseExp_eq_exponent, chosen]
    rfl
  obtain ⟨-, first, -, -⟩ := s.writeSlot_leaves (hScaleslot d.lines) (s.boundSlot d)
  obtain ⟨-, second, -, -⟩ := u.writeSlot_leaves (hScaleslot d.lines) y
  simp only [step, State.setNode_slot, State.setNode_queues]
  exact ⟨State.writeSlot_slot hu _ y, v.setNode_node_same n _ (State.canonical_nodes hv),
    fun j other => (u.writeSlot_slot_other y other).trans (s.writeSlot_slot_other _ other), second.trans first⟩

/-- Without an exponent to take the sheaf asks for a MEASURE pass on its furrow (R165). -/
theorem State.steward_asksPass (own : hOp d.lines ≠ opMeasure) (plain : opTemplate (hOp d.lines) = false)
    (unset : exponent (s.boundSlot d) d = none) (sound : s.sheafMeta d = none) :
    let t := s.steward n d
    t.slot (hScaleslot d.lines) = s.boundSlot d ∧
      t.node n = some { d with phase := .measuring, scaled := true, furrow := some (s.targetFurrow d) } ∧
      t.admits = s.admits ++ [{ furrow := s.targetFurrow d, front := false
                                entry := d.entry n none true d.relOrder }] ∧
      (∀ j, j ≠ hScaleslot d.lines → t.slot j = s.slot j) ∧ t.queues = s.queues := by
  let u := s.writeSlot (hScaleslot d.lines) (s.boundSlot d)
  let d' : Node := { d with phase := .measuring, scaled := true, furrow := some (s.targetFurrow d) }
  obtain ⟨admits, queues, -, -⟩ := s.writeSlot_leaves (hScaleslot d.lines) (s.boundSlot d)
  obtain ⟨same, target⟩ := s.writeSlot_launch (hScaleslot d.lines) (s.boundSlot d) d
  have step : s.steward n d = u.askPass n d := by
    simp only [State.boundSlot] at unset
    simp only [State.steward, free, Bool.false_eq_true, if_false, own, chooseExp_eq_exponent, unset]
    rfl
  have asks : u.askPass n d =
      (u.setNode n (some d')).askAdmit (s.targetFurrow d) (d'.entry n none true d.relOrder) false := by
    simp only [State.askPass, u, same, sound, target, plain, Bool.false_eq_true, if_false]
    rfl
  have placed : (u.setNode n (some d')).node n = some d' :=
    u.setNode_node_same n _ (State.canonical_nodes (State.writeSlot_canonical s _ _ hs))
  simp only [step, asks, State.askAdmit_slot, State.askAdmit_node, State.askAdmit_queues, State.askAdmit_admits,
    State.setNode_slot, State.setNode_queues, State.setNode_admits]
  exact ⟨State.writeSlot_slot hs _ _, placed, congrArg (· ++ _) admits,
    fun j other => s.writeSlot_slot_other _ other, queues⟩

end Steward

/-- An access of one line acts where its line is held, and waits otherwise (R317). -/
theorem State.withLines_one {s : State} {x : LineNeed} {c : Instr} (f : State → State) :
    (Holds s [x] → s.withLines [x] (·.park c) f = f (s.askLine x)) ∧
    (¬ Holds s [x] → s.withLines [x] (·.park c) f = asks s [x] c) :=
  ⟨fun held => State.withLines_held _ f held, fun lacking => if_neg lacking⟩

/-- Asking for a line changes only the agents and the messages on their way (`State.askLine_eq`), and keeps the
canonical form. -/
theorem State.askLine_form {s : State} (hs : s.Canonical) (x : LineNeed) :
    ∃ agents net, s.askLine x = { s with agents := agents, net := net } ∧
      { s with agents := agents, net := net }.Canonical :=
  ⟨_, _, s.askLine_eq x, s.askLine_eq x ▸ State.askLine_canonical s x hs⟩

theorem stewardStep_acts {s : State} {n : Nat} {d : Node} (slot : isNode n) (working : s.working = true)
    (node : s.node n = some d) (phase : d.phase = .steward) (running : s.frozen d = false) :
    exec (.stewardStep n) s = .next (s.stewardLines n d fun s => s.steward n d) := by
  show execStewardStep n s = _
  simp only [execStewardStep, ok_pos slot, working, State.when_true, node, phase, running, and_self, if_true]

theorem stewardChoosesTheExponent : StewardChoosesTheExponent := by
  intro n d s slot working hs node phase running free i x c needs
  have step := stewardStep_acts slot working node phase running
  obtain ⟨pass, choice, measure⟩ := State.stewardLines_cases (n := n) free fun s => s.steward n d
  obtain ⟨acts, waits⟩ := State.withLines_one (s := s) (x := patchNeed n d) (c := c) fun s => s.steward n d
  refine ⟨fun own chosen lacking => ?_, fun own unset lacking => ?_, fun e own chosen held => ?_,
    fun own plain unset held sound => ?_, fun isPass => ?_⟩
  · rw [step, choice own chosen, waits lacking]
  · rw [step, measure own unset, State.withReads_unread]
    exact congrArg _ (if_neg lacking)
  · obtain ⟨agents, net, asked, canonical⟩ := State.askLine_form hs (patchNeed n d)
    have acted : exec c s = .next ({ s with agents := agents, net := net }.steward n d) := by
      rw [step, choice own (Option.isSome_of_mem chosen), acts held, asked]
    exact ⟨_, acted, State.steward_chooses canonical free own chosen⟩
  · have acted : exec c s = .next ((hasRead s c).steward n d) := by
      rw [step, measure own unset, State.withReads_unread]
      exact congrArg _ (if_pos held)
    exact ⟨_, acted, State.steward_asksPass (s := hasRead s c) hs free own plain unset sound⟩
  · exact ⟨_, step.trans (congrArg _ (pass isPass)), State.steward_measure hs free isPass⟩

/-! ## The choice after a MEASURE pass (R160, R165) -/

/-- The exponent that a pass's own report decides for a sheaf whose slot is x; 0 for a pass that reported ZERO (R160,
R165). -/
def Node.passExp (d : Node) (x : Slot) : Int :=
  (d.pass.maxexp.map fun m : Int => max (-127) (min 127 (m + (x.margin : Int) - (d.rangeBits : Int)))).getD 0

/-- A sheaf whose pass is done, with the exponent that it decided. -/
def Node.chosen (d : Node) (e : Int) (phase : Phase) : Node :=
  { d with phase := phase, scaled := true, pass := {}, outexp := some (BitVec.ofInt 8 e) }

/-- The sheaf d in node slot n has the exponent e, its own image may start from furrow f, and the one that stands in
the shadow bank there gets its patch (R165). -/
def State.opensImage (s : State) (f n : Nat) (d : Node) (e : Int) : State :=
  let t := (s.setNode n (some (d.chosen e .furrow))).onFurrow f fun x => x.releaseAfter n
  if t.imageHeld f n then t.drive (.patch f (BitVec.ofInt 8 e)) else t

/-- The choice of the exponent e after a pass of a sheaf whose slot is x. -/
def State.choosesAfter (s : State) (n : Nat) (d : Node) (x : Slot) (e : Int) : State :=
  let u := s.writeSlot (hScaleslot d.lines) { x with lastexp := some e }
  if opTemplate (hOp d.lines) then u.setNode n (some (d.chosen e .ready))
  else u.opensImage (d.furrow.getD 0) n d e

theorem State.completeChoice_free {s : State} {d : Node} (n : Nat)
    (free : s.slotBlocked d.ctx (hScaleslot d.lines) = false) :
    let x := (s.slot (hScaleslot d.lines)).bindTo d.ctx
    s.completeChoice n d = s.choosesAfter n d x (d.passExp x) := by
  intro x
  have decides : d.passExp x = match d.pass.maxexp with
      | none => 0
      | some m => clampExp m x.margin d.rangeBits := by
    unfold Node.passExp
    cases d.pass.maxexp <;> rfl
  rw [decides]
  exact if_neg (by simp [free])

/-- Letting a sheaf's own image start does not change which sheaf the shadow bank holds. -/
theorem State.imageHeld_releaseAfter {s : State} (hs : s.Canonical) (f n m : Nat) :
    (s.onFurrow f fun x => x.releaseAfter m).imageHeld f n = s.imageHeld f n := by
  simp only [State.imageHeld, State.onFurrow_furrow hs, Furrow.touch_shadow, Furrow.releaseAfter]
  cases (s.furrow f).shadow with
  | none => rfl
  | some sh =>
    simp only [Option.map_some]
    split <;> rfl

theorem State.opensImage_opens {s : State} (hs : s.Canonical) (f n : Nat) (d : Node) (e : Int) :
    let t := s.opensImage f n d e
    t.slots = s.slots ∧ t.node n = some (d.chosen e .furrow) ∧
      t.out = if s.imageHeld f n = true then .patch f (BitVec.ofInt 8 e) :: s.out else s.out := by
  let u := s.setNode n (some (d.chosen e .furrow))
  have placed : u.node n = some (d.chosen e .furrow) := s.setNode_node_same n _ (State.canonical_nodes hs)
  have held : (u.onFurrow f fun x => x.releaseAfter n).imageHeld f n = s.imageHeld f n :=
    State.imageHeld_releaseAfter (State.setNode_canonical s n _ hs) f n n
  intro t
  simp only [t, State.opensImage, u, held] at placed ⊢
  split
  · exact ⟨rfl, placed, rfl⟩
  · exact ⟨rfl, placed, rfl⟩

theorem State.choosesAfter_chooses {s : State} (hs : s.Canonical) {f n : Nat} {d : Node}
    (furrow : opTemplate (hOp d.lines) = false → d.furrow = some f) (x : Slot) (e : Int) :
    let t := s.choosesAfter n d x e
    let banked : Prop := opTemplate (hOp d.lines) = false ∧ s.imageHeld f n = true
    t.slot (hScaleslot d.lines) = { x with lastexp := some e } ∧
      t.node n = some (d.chosen e (if opTemplate (hOp d.lines) = true then .ready else .furrow)) ∧
      (banked → t.out = .patch f (BitVec.ofInt 8 e) :: s.out) ∧ (¬ banked → t.out = s.out) := by
  intro t banked
  let y : Slot := { x with lastexp := some e }
  let u := s.writeSlot (hScaleslot d.lines) y
  have hu : u.Canonical := State.writeSlot_canonical s _ y hs
  have slot : u.slot (hScaleslot d.lines) = y := State.writeSlot_slot hs _ y
  obtain ⟨-, -, furrows, out⟩ := s.writeSlot_leaves (hScaleslot d.lines) y
  cases template : opTemplate (hOp d.lines) with
  | true =>
    have plain : ¬ banked := by simp [banked, template]
    have step : t = u.setNode n (some (d.chosen e .ready)) := if_pos template
    rw [step]
    exact ⟨slot, u.setNode_node_same n _ (State.canonical_nodes hu), fun b => absurd b plain, fun _ => out⟩
  | false =>
    have step : t = u.opensImage f n d e := by
      simp only [t, State.choosesAfter, template, Bool.false_eq_true, if_false, furrow template, Option.getD_some]
      rfl
    have same : u.imageHeld f n = s.imageHeld f n := by
      simp only [State.imageHeld, State.furrow, u, furrows]
    obtain ⟨slots, placed, driven⟩ := State.opensImage_opens hu f n d e
    rw [same] at driven
    rw [step]
    refine ⟨?_, placed, fun b => ?_, fun b => ?_⟩
    · rw [State.slot, slots]
      exact slot
    · obtain ⟨-, held⟩ := b
      rw [driven, if_pos held, out]
    · have notHeld : ¬ s.imageHeld f n = true := fun held => b ⟨template, held⟩
      rw [driven, if_neg notHeld, out]

theorem measureChoice_acts {s : State} {n : Nat} {d : Node} (slot : isNode n) (working : s.working = true)
    (node : s.node n = some d) (phase : d.phase = .choice) :
    exec (.measureChoice n) s = .next (s.choiceLines n d fun s => s.completeChoice n d) := by
  show execMeasureChoice n s = _
  simp only [execMeasureChoice, ok_pos slot, working, State.when_true, node, phase, if_true]

/-- An image in the shadow bank needs no line; any other choice patches the register load in the descriptor cache (R165,
R317). -/
theorem State.choiceLines_cases {s : State} {f : Nat} {d : Node} (n : Nat)
    (free : s.slotBlocked d.ctx (hScaleslot d.lines) = false)
    (furrow : opTemplate (hOp d.lines) = false → d.furrow = some f) (g : State → State) :
    let banked : Prop := opTemplate (hOp d.lines) = false ∧ s.imageHeld f n = true
    (banked → s.choiceLines n d g = g s) ∧
    (¬ banked → s.choiceLines n d g = s.withLines [patchNeed n d] (·.park (.measureChoice n)) g) := by
  intro banked
  have bankedIff : (s.slotBlocked d.ctx (hScaleslot d.lines) = true ∨
      (opTemplate (hOp d.lines) = false ∧ s.imageHeld (d.furrow.getD 0) n = true)) ↔ banked := by
    simp only [free, Bool.false_eq_true, false_or, banked]
    exact and_congr_right fun plain => by rw [furrow plain, Option.getD_some]
  exact ⟨fun b => if_pos (bankedIff.mpr b), fun b => if_neg (mt bankedIff.mp b)⟩

theorem measurePassDecidesTheExponent : MeasurePassDecidesTheExponent := by
  intro n f d s slot working hs node phase free furrow i x e banked
  have step := measureChoice_acts slot working node phase
  obtain ⟨inBank, elsewhere⟩ := State.choiceLines_cases n free furrow fun s => s.completeChoice n d
  obtain ⟨acts, waits⟩ := State.withLines_one (s := s) (x := patchNeed n d) (c := .measureChoice n)
    fun s => s.completeChoice n d
  refine ⟨fun ready => ?_, fun lacking => ?_⟩
  · by_cases b : banked
    · have acted : exec (.measureChoice n) s = .next (s.choosesAfter n d x e) := by
        rw [step, inBank b, State.completeChoice_free n free]
        rfl
      exact ⟨_, acted, State.choosesAfter_chooses hs furrow x e⟩
    · obtain ⟨agents, net, asked, canonical⟩ := State.askLine_form hs (patchNeed n d)
      let u : State := { s with agents := agents, net := net }
      have acted : exec (.measureChoice n) s = .next (u.choosesAfter n d x e) := by
        rw [step, elsewhere b, acts (ready.resolve_left b), asked]
        exact congrArg _ (State.completeChoice_free (s := u) n free)
      exact ⟨_, acted, State.choosesAfter_chooses canonical furrow x e⟩
  · obtain ⟨b, notHeld⟩ := not_or.mp lacking
    rw [step, elsewhere b, waits notHeld]

/-! ## Recordings (R155, R162, R163) -/

theorem scaleRecord_acts {s : State} {r : ScaleRec} {rest : List ScaleRec} (working : s.working = true)
    (oldest : s.stewardQ = r :: rest) :
    exec .scaleRecord s = .next ({ s with stewardQ := rest }.scaleRecord r) := by
  show execScaleRecord s = _
  simp only [execScaleRecord, ok_pos trivial, working, State.when_true, oldest]

/-- A report of the slot's own tenant, of a context that has not changed since, with a non-zero run is recorded (R155,
R162). -/
theorem State.scaleRecord_records {s : State} {r : ScaleRec} {v : Int} (any : r.fold.any = true)
    (max : r.fold.maxexp = some v) (current : (s.ctx r.ctx).gen = r.gen) (owned : s.slotOwned r.ctx r.slot = true) :
    s.scaleRecord r = s.writeSlot r.slot ((s.slot r.slot).record r v) := by
  simp only [State.scaleRecord, any, max, current, owned, and_self, if_true]

/-- Any other report is dropped. -/
theorem State.scaleRecord_drops {s : State} {r : ScaleRec} (void : r.fold.any = false ∨ r.fold.maxexp = none ∨
    (s.ctx r.ctx).gen ≠ r.gen ∨ s.slotOwned r.ctx r.slot = false) : s.scaleRecord r = s := by
  unfold State.scaleRecord
  split
  · next v any max =>
    have foreign : ¬ ((s.ctx r.ctx).gen = r.gen ∧ s.slotOwned r.ctx r.slot = true) := by
      rintro ⟨current, owned⟩
      simp [any, max, current, owned] at void
    rw [if_neg foreign]
  · rfl

theorem scaleReportsAreRecorded : ScaleReportsAreRecorded := by
  intro r rest s working oldest
  have step := scaleRecord_acts working oldest
  refine ⟨fun v any max current owned => ?_, fun void => ?_⟩
  · rw [step]
    exact congrArg _ (State.scaleRecord_records (s := { s with stewardQ := rest }) any max current owned)
  · rw [step]
    exact congrArg _ (State.scaleRecord_drops (s := { s with stewardQ := rest }) void)

/-- Settles O13 from its three parts. -/
theorem scaleExponents : Obligations.ScaleExponents :=
  ⟨stewardChoosesTheExponent, measurePassDecidesTheExponent, scaleReportsAreRecorded⟩

end Sys2Proof.Machine
end

section
/-! Templates: the read of their table, the plan that it gives, and the creation of one member (R180-R197). -/

namespace Sys2Proof.Machine
open Sys2Proof.Claim

/-! ## The table (R180-R182, R197, R435) -/

/-- A table inside the windows gives the template its plan; one that names no member skips the template, or waits while
a pause holds it. -/
theorem State.tableArrives_lines {s : State} {d : Node} (n : Nat) (ls : List Line)
    (inside : s.insideMem d.ctx d.tableArea.1 (64 * d.tableArea.2) false = true) :
    s.tableArrives n d (.lines ls) =
      if d.planOf ls ≠ [] then s.setNode n (some { d with phase := .expand, plan := d.planOf ls })
      else if s.frozen d = true then s.setNode n (some { d with reading := 0 }) else s.skip n d := by
  simp only [State.tableArrives, inside, Bool.not_true, Bool.false_eq_true, if_false]
  cases plan : d.planOf ls with
  | nil => simp
  | cons member rest => simp

/-- The table that a template waits for arrives whole. -/
theorem tableReadComplete_whole {s : State} {n : Nat} {d : Node} {ls : List Line} (slot : isNode n)
    (working : s.working = true) (node : s.node n = some d) (phase : d.phase = .table) (reading : 0 < d.reading)
    (length : ls.length = d.reading) :
    exec (.tableReadComplete n ⟨s.stampOf d.ctx d.gen, .lines ls⟩) s = .next (s.tableArrives n d (.lines ls)) := by
  show execTableReadComplete n _ s = _
  have awaited : d.reading ≠ 0 := Nat.ne_of_gt reading
  simp [execTableReadComplete, ok_pos slot, working, node, phase, awaited, length]

/-! ## Members (R185, R191, R317) -/

/-- The furrow of a template's next member: chosen now for ANY = 1, otherwise the one TARGET names (R191). -/
def State.memberFurrow (s : State) (d : Node) : Nat :=
  if tAny d.lines = true then s.chooseFurrow d.half d.ctx d.kind else tUnit d.lines

/-- A template after it has created the member that stands first in its plan. -/
def Node.withMember (d : Node) (id : Nat) (a0 a1 : Word) (f : Nat) (rest : List (Nat × Word × Word)) : Node :=
  { d with
    plan := rest
    members := d.members ++ [{ ordinal := d.members.length, id := id, arg0 := a0, arg1 := a1, furrow := f
                               st := .waiting, acc32 := d.acc32 }] }

/-- A member whose image passes its metadata check is entered in the template, and asks for admission to its furrow. -/
theorem State.createMember_admits {s : State} {d : Node} (n id : Nat) (a0 a1 : Word) (rest : List (Nat × Word × Word))
    (sound : d.kind = 0 → s.metaCheck d.ctx
      ((d.withMember id a0 a1 (s.memberFurrow d) rest).image (some d.members.length) false d.acc32) = none) :
    s.createMember n d id a0 a1 rest =
      (s.setNode n (some (d.withMember id a0 a1 (s.memberFurrow d) rest))).askAdmit (s.memberFurrow d)
        (d.entry n (some d.members.length) false d.relOrder) false := by
  have noFault : (if d.kind = 0 then s.metaCheck d.ctx
      ((d.withMember id a0 a1 (s.memberFurrow d) rest).image (some d.members.length) false d.acc32) else none) = none :=
    ite_eq_right_iff.mpr sound
  simp only [State.createMember]
  split
  · next reg fails => exact absurd (fails.symm.trans noFault) (Option.some_ne_none reg)
  · rfl

/-- The creation of a member reads the template's lines first (R185, R317). -/
theorem memberCreate_acts {s : State} {n id : Nat} {a0 a1 : Word} {rest : List (Nat × Word × Word)} {d : Node}
    (slot : isNode n) (working : s.working = true) (node : s.node n = some d) (phase : d.phase = .expand)
    (running : s.frozen d = false) (plan : d.plan = (id, a0, a1) :: rest) :
    exec (.memberCreate n) s = .next (s.withReads (.memberCreate n) (sheafNeeds n d.lines.length)
      (·.park (.memberCreate n)) fun s => s.createMember n d id a0 a1 rest) := by
  show execMemberCreate n s = _
  simp only [execMemberCreate, ok_pos slot, working, State.when_true, node, phase, running, plan, and_self, if_true]

/-- Settles O12: the read goes out (`opcodeStep_acts`), the table gives the plan (`State.tableArrives_lines`), and its
first member is created once the lines are read (`State.createMember_admits`). -/
theorem templatesExpandTheirTable : Obligations.TemplatesExpandTheirTable := by
  refine ⟨fun n d s => ⟨fun h => ?_, fun h => ?_⟩, ?_, ?_⟩
  · exact opcodeStep_acts h fun s d => s.readTable n d
  · exact opcodeStep_acts h fun s d => s.readTable n d
  · intro n d ls s slot working node phase reading length inside
    rw [tableReadComplete_whole slot working node phase reading length, State.tableArrives_lines n ls inside]
  · intro n id a0 a1 rest d s slot working node phase running plan f d' c needs
    rw [memberCreate_acts slot working node phase running plan, State.withReads_unread]
    refine ⟨fun held sound => ?_, fun lacking => congrArg _ (if_neg lacking)⟩
    have created := State.createMember_admits (s := hasRead s c) n id a0 a1 rest sound
    exact congrArg _ ((if_pos held).trans created)

end Sys2Proof.Machine
end

section
/-! Hive objects (R249-R256, R265, R317, R321): the release of waiters, what the claim of an object's line leaves
alone, how an arrival is classified, and the operations on an object of this chip. -/

namespace Sys2Proof.Machine
open Sys2Proof.Claim

/-! ## Waiters (R250, R252) -/

/-- Settles O20: testing an object's waiters changes no object, and of the waiters those of that object alone
(`State.wakeWaiters_objects`). -/
theorem wakeReleasesExactly : Obligations.WakeReleasesExactly := by
  intro o s canonical
  obtain ⟨objects, waiters⟩ := s.wakeWaiters_objects o
  constructor
  · calc (s.wakeWaiters o).waitersOf o
        = (s.setWaiters o ((s.waitersOf o).filter fun w => !w.released (s.obj o))).waitersOf o :=
          congrArg (Tbl.get [] · o) waiters
      _ = _ := State.setWaiters_waitersOf_same s o _ (State.canonical_waiters canonical)
  · intro o'
    rw [State.obj, objects, State.obj]

/-! ## The line of an object (R317, R321) -/

section Line
variable (s : State) (o : Nat)

/-- The claim of an object's line changes only the agents and the messages on their way (`State.askLines_eq`). -/
theorem onto_keeps {α : Type} (g : State → α)
    (h : ∀ agents net, g { s with agents := agents, net := net } = g s) : g (onto s o) = g s := by
  have form : onto s o = { s with agents := (onto s o).agents, net := (onto s o).net } :=
    State.askLines_eq [hiveNeed o true] s
  rw [form]
  exact h _ _

@[simp] theorem onto_obj (j : Nat) : (onto s o).obj j = s.obj j := onto_keeps s o (·.obj j) fun _ _ => rfl
@[simp] theorem onto_waitersOf (j : Nat) : (onto s o).waitersOf j = s.waitersOf j :=
  onto_keeps s o (·.waitersOf j) fun _ _ => rfl
@[simp] theorem onto_hivestat : (onto s o).hivestat = s.hivestat := onto_keeps s o (·.hivestat) fun _ _ => rfl
@[simp] theorem onto_inService (h : Nat) : (onto s o).inService h = s.inService h :=
  onto_keeps s o (·.inService h) fun _ _ => rfl
@[simp] theorem onto_chipLocal (c : Nat) (chip : BitVec 14) : (onto s o).chipLocal c chip = s.chipLocal c chip :=
  onto_keeps s o (·.chipLocal c chip) fun _ _ => rfl
@[simp] theorem onto_objPart (j : Nat) : (onto s o).objPart j = s.objPart j :=
  onto_keeps s o (·.objPart j) fun _ _ => rfl
@[simp] theorem onto_objAllowed (c j : Nat) : (onto s o).objAllowed c j = s.objAllowed c j :=
  onto_keeps s o (·.objAllowed c j) fun _ _ => rfl
@[simp] theorem onto_objWorker (j : Nat) : (onto s o).objWorker j = s.objWorker j :=
  onto_keeps s o (·.objWorker j) fun _ _ => rfl
@[simp] theorem onto_inTier (j : Nat) : (onto s o).inTier j = s.inTier j := onto_keeps s o (·.inTier j) fun _ _ => rfl
@[simp] theorem onto_reportStale (w2 : Word) : (onto s o).reportStale w2 = s.reportStale w2 :=
  onto_keeps s o (·.reportStale w2) fun _ _ => rfl
@[simp] theorem onto_reportTenant (j : Nat) (w2 : Word) : (onto s o).reportTenant j w2 = s.reportTenant j w2 :=
  onto_keeps s o (·.reportTenant j w2) fun _ _ => rfl

end Line

/-! ## Arrivals (R253, R255, R265) -/

/-- How many rounds an arrival for round r is ahead of the object. -/
def Obj.ahead (x : Obj) (r : Nat) : Nat := (r + 65536 - x.round) % 65536

/-- The object takes no further early arrival (R253): NEXT reaches P on the worker of a tier object alone. -/
def Obj.nextFull (x : Obj) (worker : Bool) : Prop :=
  if worker = true ∧ x.kind = 2 then x.pminus1 + 1 ≤ x.next else x.pminus1 ≤ x.next

/-- The object with another W0. -/
def Obj.withW0 (x : Obj) (w0 : Word) : Obj := { x with w0 := w0 }

section Classes
variable {x : Obj} {r : Nat} {worker : Bool}

theorem Obj.ahead_present (present : r = x.round) : x.ahead r = 0 := by
  rw [Obj.ahead, present, Nat.add_sub_cancel_left]

theorem classifyArrival_overfull (present : x.ahead r = 0) (tier : worker = true ∧ x.kind = 2)
    (full : x.arrived = x.pminus1 + 1) : classifyArrival x r worker = .misuse 6 := by
  rw [Obj.ahead] at present
  simp [classifyArrival, present, tier, full]

theorem classifyArrival_counts (present : x.ahead r = 0)
    (room : ¬ (worker = true ∧ x.kind = 2 ∧ x.arrived = x.pminus1 + 1)) (early : x.arrived ≠ x.pminus1) :
    classifyArrival x r worker =
      .counted (x.withW0 (stileWord x.round x.pminus1 (x.arrived + 1) x.next)) false false := by
  rw [Obj.ahead] at present
  have notOver : (worker && x.kind == 2 && x.arrived == x.pminus1 + 1) = false := by simpa using room
  simp [classifyArrival, present, notOver, early, Obj.withW0]

theorem classifyArrival_reports (present : x.ahead r = 0) (tier : worker = true ∧ x.kind = 2)
    (last : x.arrived = x.pminus1) :
    classifyArrival x r worker =
      .counted (x.withW0 (stileWord x.round x.pminus1 (x.arrived + 1) x.next)) false true := by
  rw [Obj.ahead] at present
  simp [classifyArrival, present, tier, last, Obj.withW0]

theorem classifyArrival_completes (present : x.ahead r = 0) (own : ¬ (worker = true ∧ x.kind = 2))
    (last : x.arrived = x.pminus1) :
    classifyArrival x r worker =
      .counted (x.withW0 (stileWord (x.round + 1) x.pminus1 x.next 0)) true false := by
  rw [Obj.ahead] at present
  have notWorker : (worker && x.kind == 2) = false := by simpa using own
  simp [classifyArrival, present, notWorker, last, Obj.complete, Obj.withW0]

theorem Obj.nextFull_stile (kind : x.kind = 1) : x.nextFull worker ↔ x.pminus1 ≤ x.next := by
  simp [Obj.nextFull, kind]

theorem Obj.nextFull_tier (kind : x.kind = 2) :
    x.nextFull worker ↔ if worker = true then x.pminus1 + 1 ≤ x.next else x.pminus1 ≤ x.next := by
  simp [Obj.nextFull, kind]

theorem Obj.nextFull_iff :
    x.nextFull worker ↔
      if (worker && x.kind == 2) = true then x.pminus1 + 1 < x.next + 1 else x.pminus1 + 1 ≤ x.next + 1 := by
  simp only [Obj.nextFull, Bool.and_eq_true, beq_iff_eq]
  by_cases tier : worker = true ∧ x.kind = 2
  · rw [if_pos tier, if_pos tier]
    omega
  · rw [if_neg tier, if_neg tier]
    omega

theorem classifyArrival_early (next : x.ahead r = 1) (room : ¬ x.nextFull worker) :
    classifyArrival x r worker =
      .counted (x.withW0 (stileWord x.round x.pminus1 x.arrived (x.next + 1))) false false := by
  rw [Obj.ahead] at next
  rw [Obj.nextFull_iff] at room
  simp only [classifyArrival, next, Nat.one_ne_zero, if_true, if_false, room, Obj.withW0]

theorem classifyArrival_earlyFull (next : x.ahead r = 1) (full : x.nextFull worker) :
    classifyArrival x r worker = .misuse 2 := by
  rw [Obj.ahead] at next
  rw [Obj.nextFull_iff] at full
  simp only [classifyArrival, next, Nat.one_ne_zero, if_true, if_false, full]

theorem classifyArrival_otherRound (far : 1 < x.ahead r) : classifyArrival x r worker = .misuse 3 := by
  rw [Obj.ahead] at far
  have notPresent : (r + 65536 - x.round) % 65536 ≠ 0 := by omega
  have notNext : (r + 65536 - x.round) % 65536 ≠ 1 := by omega
  simp only [classifyArrival, notPresent, notNext, if_false]

end Classes

/-! ## Counting an arrival (R255, R265) -/

section Counting
variable (s : State) (o : Nat)

/-- An arrival that neither completes the round nor fills a worker's writes the object alone. -/
theorem State.countArrival_counts (y : Obj) (g : Signer) :
    s.countArrival o y g false false = s.setObj o { y with w1 := signed y.kind g } := rfl

/-- The one that fills a worker's round is reported to the manager. -/
theorem State.countArrival_reports (y : Obj) (g : Signer) :
    s.countArrival o y g false true =
      (s.setObj o { y with w1 := signed y.kind g }).sendTierarrive o (s.obj o).round := rfl

/-- One that completes the round of a tier object releases the workers. -/
theorem State.countArrival_completes (y : Obj) (g : Signer) :
    s.countArrival o y g true false =
      if y.kind = 2 then (s.setObj o { y with w1 := signed y.kind g }).sendTierrelease o (s.obj o).round
      else s.setObj o { y with w1 := signed y.kind g } := by
  simp [State.countArrival]

/-! An arrival counted at an object whose line has been claimed writes W0 and the last signaller (R245). -/

section Claimed
variable {s o} {kind : Nat} (w0 : Word) (g : Signer)

theorem withW0_signed {x : Obj} (h : x.kind = kind) :
    { x.withW0 w0 with w1 := signed (x.withW0 w0).kind g } = { w0 := w0, w1 := signed kind g : Obj } := by
  subst h
  rfl

theorem onto_counts (h : (s.obj o).kind = kind) :
    (onto s o).countArrival o ((s.obj o).withW0 w0) g false false = rewrite s o { w0 := w0, w1 := signed kind g } := by
  rw [State.countArrival_counts, withW0_signed w0 g h]
  rfl

theorem onto_reports (h : (s.obj o).kind = kind) :
    (onto s o).countArrival o ((s.obj o).withW0 w0) g false true =
      (rewrite s o { w0 := w0, w1 := signed kind g }).sendTierarrive o (s.obj o).round := by
  rw [State.countArrival_reports, withW0_signed w0 g h, onto_obj]
  rfl

theorem onto_completes_stile (h : (s.obj o).kind = 1) :
    (onto s o).countArrival o ((s.obj o).withW0 w0) g true false = rewrite s o { w0 := w0, w1 := signed 1 g } := by
  have notTier : ((s.obj o).withW0 w0).kind ≠ 2 := fun tier => absurd (h.symm.trans tier) (by decide)
  rw [State.countArrival_completes, if_neg notTier, withW0_signed w0 g h]
  rfl

theorem onto_completes_tier (h : (s.obj o).kind = 2) :
    (onto s o).countArrival o ((s.obj o).withW0 w0) g true false =
      (rewrite s o { w0 := w0, w1 := signed 2 g }).sendTierrelease o (s.obj o).round := by
  rw [State.countArrival_completes, if_pos (show ((s.obj o).withW0 w0).kind = 2 from h), withW0_signed w0 g h,
    onto_obj]
  rfl

end Claimed

theorem State.sendTierarrive_waitersOf (round j : Nat) : (s.sendTierarrive o round).waitersOf j = s.waitersOf j := by
  unfold State.sendTierarrive
  split
  · rfl
  · exact congrArg (Tbl.get [] · j) (State.sendHive_objects s _ _).2

/-- Counting an arrival that does not complete the round changes no waiter. -/
theorem State.countArrival_waitersOf (y : Obj) (g : Signer) (report : Bool) (j : Nat) :
    (s.countArrival o y g false report).waitersOf j = s.waitersOf j := by
  cases report
  · rfl
  · rw [State.countArrival_reports, State.sendTierarrive_waitersOf, State.setObj_waitersOf]

end Counting

/-! ## Operations on an object of this chip (R249, R250, R253-R256, R267) -/

section LocalOperations
variable {s : State} {a : Actor} {o round : Nat} {operand : Word}

section Allowed
variable (allowed : s.objAllowed a.ctx o = true)
include allowed

theorem State.localOp_signal (k : Nat) :
    s.localOp a (.signal k) o round operand =
      if (s.obj o).kind = 0 then
        (s.setObj o { w0 := signalValue k (s.obj o).w0 operand, w1 := signed 0 a.signer }, .done, true)
      else (s, .misuse 1, false) := by
  simp [State.localOp, allowed]

theorem State.localOp_wait (c : Nat) :
    s.localOp a (.wait c) o round operand =
      if (s.obj o).kind = 3 then (s, .peerLost, false)
      else if compareCode c (s.obj o).w0 operand = true then (s, .done, false)
      else (s.addWaiter o (a.waiter (.cmp c operand)), .waits, false) := by
  simp [State.localOp, allowed]

theorem State.localOp_init_refused (h : (s.obj o).kind ≠ 3 ∧ s.waitersOf o ≠ []) :
    s.localOp a .init o round operand = (s, .misuse 4, false) := by
  simp [State.localOp, allowed, h]

theorem State.localOp_reset_refused (h : (s.obj o).kind ≠ 3 ∧ s.waitersOf o ≠ []) :
    s.localOp a .reset o round operand = (s, .misuse 4, false) := by
  simp [State.localOp, allowed, h]

theorem State.localOp_init_tooMany (h : s.waitersOf o = [] ∨ (s.obj o).kind = 3) (tier : s.inTier o = true)
    (count : operand.toNat = 65536) : s.localOp a .init o round operand = (s, .misuse 5, false) := by
  have unrefused : ¬ ((s.obj o).kind ≠ 3 ∧ s.waitersOf o ≠ []) := fun ⟨standing, waited⟩ => h.elim waited standing
  simp only [State.localOp, allowed, unrefused, tier, count, and_self, if_true, if_false, Bool.not_true,
    Bool.false_eq_true]

theorem State.localOp_init (h : s.waitersOf o = []) (count : s.inTier o = true → operand.toNat ≠ 65536) :
    s.localOp a .init o round operand =
      (s.setObj o { w0 := stileWord 0 (operand.toNat - 1) 0 0
                    w1 := signed (if s.inTier o = true then 2 else 1) a.signer }, .done, true) := by
  have fits : ¬ (s.inTier o = true ∧ operand.toNat = 65536) := fun ⟨tier, full⟩ => count tier full
  simp only [State.localOp, allowed, h, fits, ne_eq, not_true_eq_false, and_false, if_false, Bool.not_true,
    Bool.false_eq_true]

theorem State.localOp_reset (h : s.waitersOf o = []) :
    s.localOp a .reset o round operand = (s.setObj o { w0 := 0, w1 := signed 0 a.signer }, .done, true) := by
  simp [State.localOp, allowed, h]

variable {op : HiveOp} (arrival : op = .arrive ∨ op = .nowait)
include arrival

theorem State.localOp_arrival_plain (plain : (s.obj o).kind = 0) :
    s.localOp a op o round operand = (s, .misuse 1, false) := by
  obtain rfl | rfl := arrival <;> simp [State.localOp, allowed, plain]

theorem State.localOp_arrival_broken (broken : (s.obj o).kind = 3) :
    s.localOp a op o round operand = (s, .peerLost, false) := by
  obtain rfl | rfl := arrival <;> simp [State.localOp, allowed, broken]

variable (stile : (s.obj o).kind = 1 ∨ (s.obj o).kind = 2)
include stile

theorem State.localOp_arrival_misuse {why : Nat}
    (classified : classifyArrival (s.obj o) round (s.objWorker o) = .misuse why) :
    s.localOp a op o round operand = (s, .misuse why, false) := by
  obtain rfl | rfl := arrival <;> obtain kind | kind := stile <;> simp [State.localOp, allowed, kind, classified]

theorem State.localOp_arrival_counted {y : Obj} {completes report : Bool}
    (classified : classifyArrival (s.obj o) round (s.objWorker o) = .counted y completes report) :
    s.localOp a op o round operand =
      let t := s.countArrival o y a.signer completes report
      if op = .arrive ∧ completes = false then
        (t.addWaiter o (a.waiter (.round (BitVec.ofNat 16 round))), .waits, true)
      else (t, .done, true) := by
  obtain rfl | rfl := arrival <;> obtain kind | kind := stile <;> simp [State.localOp, allowed, kind, classified]

end Allowed
end LocalOperations

end Sys2Proof.Machine
end

section
/-! SIGNAL, WAIT and STILE sheaves (R249-R256, R262-R267): on an object of this chip and on one of another chip. -/

namespace Sys2Proof.Machine
open Sys2Proof.Claim

/-! ## How an operation ends for its sheaf (R252, R254, R263, R267) -/

/-- What the end of an operation on object o does to its sheaf. -/
def State.sheafEnds (s : State) (n : Nat) (d : Node) (src o : Nat) : HiveEnd → State
  | .done => s.retireWith n stDone 1 0
  | .waits => s.setNode n (some { d with phase := .hive })
  | .blocked => s.tenantBlock n d src o
  | .misuse why => s.misuseEnd n d src o why
  | .peerLost => s.peerLostEnd n d src (peerDetail 0x3FFF 0 1)

section Ends
variable {s u : State} {n : Nat} {d : Node} {op : HiveOp} {operand : Word} {e : HiveEnd} {tests : Bool}

/-- The operation of a sheaf, done: its end, and the test of the object's waiters. -/
theorem State.hiveDone_ends {ref o src : Nat} (refers : aObjref d.lines = ref) (names : refObj ref = o)
    (source : s.hiveSource (d.actor n) ref = src)
    (acts : s.hiveOp (d.actor n) op ref (fld (aw d.lines 0) 63 48) operand = (u, e, tests)) :
    s.hiveDone n d op operand =
      if tests = true then (u.sheafEnds n d src o e).wakeWaiters o else u.sheafEnds n d src o e := by
  subst refers names source
  unfold State.hiveDone
  dsimp only
  rw [acts]
  cases e <;> rfl

theorem State.hiveDone_here {o : Nat} (here : s.chipLocal d.ctx (refChip (aObjref d.lines)) = true)
    (names : refObj (aObjref d.lines) = o)
    (acts : s.localOp (d.actor n) op o (fld (aw d.lines 0) 63 48) operand = (u, e, tests)) :
    s.hiveDone n d op operand =
      if tests = true then (u.sheafEnds n d (srcHive (halfOfObj o)) o e).wakeWaiters o
      else u.sheafEnds n d (srcHive (halfOfObj o)) o e := by
  refine State.hiveDone_ends rfl names ?_ ?_
  · rw [State.hiveSource, names]; exact if_pos here
  · rw [State.hiveOp, names, if_pos (show s.chipLocal (d.actor n).ctx _ = true from here), acts]

theorem State.hiveDone_away {chip : BitVec 14} (names : refChip (aObjref d.lines) = chip)
    (away : s.chipLocal d.ctx chip = false)
    (acts : s.remoteOp (d.actor n) op chip (refObj (aObjref d.lines)) (fld (aw d.lines 0) 63 48) operand =
      (u, e, false)) :
    s.hiveDone n d op operand = u.sheafEnds n d (srcHive d.half) (refObj (aObjref d.lines)) e := by
  have notHere : ¬ s.chipLocal (d.actor n).ctx (refChip (aObjref d.lines)) = true := by
    rw [names]
    exact Bool.eq_false_iff.mp away
  have source : s.hiveSource (d.actor n) (aObjref d.lines) = srcHive d.half := if_neg notHere
  have elsewhere : s.hiveOp (d.actor n) op (aObjref d.lines) (fld (aw d.lines 0) 63 48) operand = (u, e, false) := by
    rw [State.hiveOp, if_neg notHere, names, acts]
  exact (State.hiveDone_ends rfl rfl source elsewhere).trans (if_neg Bool.false_ne_true)

end Ends

/-! ## The commands (R120) -/

section Commands
variable {s : State} {n : Nat} {d : Node}

theorem kernel_of_atOwnObject {op sub o : Nat} (h : AtOwnObject s n d op sub o) : Kernel s n d op sub := by
  obtain ⟨released, sub, -⟩ := h
  exact ⟨released, sub⟩

theorem kernel_of_onObject {op sub o : Nat} (h : OnObject s n d op sub o) : Kernel s n d op sub :=
  kernel_of_atOwnObject h.1

theorem wait_step (h : Released s n d opWait) :
    exec (.wait n) s = .next (s.hiveSheaf (.wait n) n d (.wait (aSub d.lines)) (aw d.lines 1)) :=
  opcodeStep_acts h fun s d => s.hiveSheaf (.wait n) n d (.wait (aSub d.lines)) (aw d.lines 1)

theorem signalAdd_step (h : Kernel s n d opSignal 0) :
    exec (.signalAdd n) s = .next (s.hiveSheaf (.signalAdd n) n d (.signal 0) (aw d.lines 1)) :=
  kernelStep_acts h fun s d => s.hiveSheaf (.signalAdd n) n d (.signal 0) (aw d.lines 1)

theorem signalSet_step (h : Kernel s n d opSignal 1) :
    exec (.signalSet n) s = .next (s.hiveSheaf (.signalSet n) n d (.signal 1) (aw d.lines 1)) :=
  kernelStep_acts h fun s d => s.hiveSheaf (.signalSet n) n d (.signal 1) (aw d.lines 1)

theorem signalOr_step (h : Kernel s n d opSignal 2) :
    exec (.signalOr n) s = .next (s.hiveSheaf (.signalOr n) n d (.signal 2) (aw d.lines 1)) :=
  kernelStep_acts h fun s d => s.hiveSheaf (.signalOr n) n d (.signal 2) (aw d.lines 1)

theorem stileArrive_step (h : Kernel s n d opStile 0) :
    exec (.stileArrive n) s = .next (s.hiveSheaf (.stileArrive n) n d .arrive 0) :=
  kernelStep_acts h fun s d => s.hiveSheaf (.stileArrive n) n d .arrive 0

theorem stileArriveNowait_step (h : Kernel s n d opStile 1) :
    exec (.stileArriveNowait n) s = .next (s.hiveSheaf (.stileArriveNowait n) n d .nowait 0) :=
  kernelStep_acts h fun s d => s.hiveSheaf (.stileArriveNowait n) n d .nowait 0

theorem stileInit_step (h : Kernel s n d opStile 2) :
    exec (.stileInit n) s = .next (s.hiveSheaf (.stileInit n) n d .init (aw d.lines 1)) :=
  kernelStep_acts h fun s d => s.hiveSheaf (.stileInit n) n d .init (aw d.lines 1)

theorem stileReset_step (h : Kernel s n d opStile 3) :
    exec (.stileReset n) s = .next (s.hiveSheaf (.stileReset n) n d .reset 0) :=
  kernelStep_acts h fun s d => s.hiveSheaf (.stileReset n) n d .reset 0

end Commands

/-! ## Objects of this chip -/

section Own
variable {s : State} {n o opcode sub : Nat} {d : Node} {c : Instr} {op : HiveOp} {operand : Word}

/-- The sheaf needs its object's line, to write it (R317). -/
theorem hiveSheaf_own (h : AtOwnObject s n d opcode sub o) :
    s.hiveSheaf c n d op operand =
      s.withLines [hiveNeed o true] (·.park c) fun s => s.hiveDone n d op operand := by
  obtain ⟨-, -, here, names, allowed, served⟩ := h
  have needs : s.opNeeds (d.actor n) op (aObjref d.lines) = [hiveNeed o true] := by
    simp [State.opNeeds, Node.actor, names, allowed, served, here]
  rw [State.hiveSheaf, needs]

theorem hiveSheaf_asks (h : AtOwnObject s n d opcode sub o) (lacking : ¬ Holds s [hiveNeed o true]) :
    s.hiveSheaf c n d op operand = asks s [hiveNeed o true] c := by
  rw [hiveSheaf_own h]
  exact State.withLines_one _ |>.2 lacking

/-- With the line held the operation is done on its object (R321). -/
theorem hiveSheaf_acts {u : State} {e : HiveEnd} {tests : Bool} (h : OnObject s n d opcode sub o)
    (acts : (onto s o).localOp (d.actor n) op o (fld (aw d.lines 0) 63 48) operand = (u, e, tests)) :
    s.hiveSheaf c n d op operand =
      if tests = true then (u.sheafEnds n d (srcHive (halfOfObj o)) o e).wakeWaiters o
      else u.sheafEnds n d (srcHive (halfOfObj o)) o e := by
  obtain ⟨own, held⟩ := h
  have whole := hiveSheaf_own (c := c) (op := op) (operand := operand) own
  obtain ⟨-, -, here, names, -, -⟩ := own
  rw [whole, State.withLines_held _ _ held]
  exact State.hiveDone_here (s := onto s o) (by rw [onto_chipLocal, here]) names acts

section
variable {u : State} (h : OnObject s n d opcode sub o)
include h

theorem hiveSheaf_misuse {why : Nat}
    (acts : (onto s o).localOp (d.actor n) op o (fld (aw d.lines 0) 63 48) operand = (u, .misuse why, false)) :
    s.hiveSheaf c n d op operand = u.misuseEnd n d (srcHive (halfOfObj o)) o why :=
  (hiveSheaf_acts h acts).trans (if_neg Bool.false_ne_true)

theorem hiveSheaf_peerLost
    (acts : (onto s o).localOp (d.actor n) op o (fld (aw d.lines 0) 63 48) operand = (u, .peerLost, false)) :
    s.hiveSheaf c n d op operand = u.peerLostEnd n d (srcHive (halfOfObj o)) (peerDetail 0x3FFF 0 1) :=
  (hiveSheaf_acts h acts).trans (if_neg Bool.false_ne_true)

theorem hiveSheaf_done
    (acts : (onto s o).localOp (d.actor n) op o (fld (aw d.lines 0) 63 48) operand = (u, .done, true)) :
    s.hiveSheaf c n d op operand = (u.retireWith n stDone 1 0).wakeWaiters o :=
  (hiveSheaf_acts h acts).trans (if_pos rfl)

end

theorem allowed_of_onObject (h : OnObject s n d opcode sub o) : (onto s o).objAllowed (d.actor n).ctx o = true := by
  obtain ⟨⟨-, -, -, -, allowed, -⟩, -⟩ := h
  rw [onto_objAllowed]
  exact allowed

end Own

/-! ## SIGNAL and WAIT (R249, R250) -/

section SignalAndWait
variable {s : State} {n o opcode sub : Nat} {d : Node} {c : Instr}

theorem hiveSheaf_signal_misuse {operand : Word} (k : Nat) (h : OnObject s n d opcode sub o)
    (other : (s.obj o).kind ≠ 0) :
    s.hiveSheaf c n d (.signal k) operand = (onto s o).misuseEnd n d (srcHive (halfOfObj o)) o 1 := by
  refine hiveSheaf_misuse h ((State.localOp_signal (allowed_of_onObject h) k).trans (if_neg ?_))
  rwa [onto_obj]

theorem hiveSheaf_signal {operand : Word} (k : Nat) (h : OnObject s n d opcode sub o) (plain : (s.obj o).kind = 0) :
    s.hiveSheaf c n d (.signal k) operand =
      ((rewrite s o { w0 := signalValue k (s.obj o).w0 operand, w1 := signedBy 0 d }).retireWith n stDone 1
        0).wakeWaiters o := by
  refine hiveSheaf_done h ((State.localOp_signal (allowed_of_onObject h) k).trans ?_)
  rw [onto_obj, if_pos plain]
  rfl

theorem signalsChangeTheObject : SignalsChangeTheObject := by
  intro n o d s
  refine ⟨fun other => ?_, fun lacking => ?_, fun plain => ?_⟩
  · exact ⟨fun h => by rw [signalAdd_step (kernel_of_onObject h), hiveSheaf_signal_misuse 0 h other],
      fun h => by rw [signalSet_step (kernel_of_onObject h), hiveSheaf_signal_misuse 1 h other],
      fun h => by rw [signalOr_step (kernel_of_onObject h), hiveSheaf_signal_misuse 2 h other]⟩
  · exact ⟨fun h => by rw [signalAdd_step (kernel_of_atOwnObject h), hiveSheaf_asks h lacking],
      fun h => by rw [signalSet_step (kernel_of_atOwnObject h), hiveSheaf_asks h lacking],
      fun h => by rw [signalOr_step (kernel_of_atOwnObject h), hiveSheaf_asks h lacking]⟩
  · refine ⟨fun h => ?_, fun h => ?_, fun h => ?_⟩
    · rw [signalAdd_step (kernel_of_onObject h), hiveSheaf_signal 0 h plain]; rfl
    · rw [signalSet_step (kernel_of_onObject h), hiveSheaf_signal 1 h plain]; rfl
    · rw [signalOr_step (kernel_of_onObject h), hiveSheaf_signal 2 h plain]; rfl

theorem waitComparesOrStands : WaitComparesOrStands := by
  intro n o d s h
  have released := (kernel_of_onObject h).1
  have acts := State.localOp_wait (s := onto s o) (round := fld (aw d.lines 0) 63 48) (operand := aw d.lines 1)
    (allowed_of_onObject h) (aSub d.lines)
  rw [onto_obj] at acts
  rw [wait_step released]
  by_cases broken : (s.obj o).kind = 3
  · rw [if_pos broken] at acts ⊢
    rw [hiveSheaf_acts h acts]; rfl
  · by_cases holds : compareCode (aSub d.lines) (s.obj o).w0 (aw d.lines 1) = true
    · rw [if_neg broken, if_pos holds] at acts ⊢
      rw [hiveSheaf_acts h acts]; rfl
    · rw [if_neg broken, if_neg holds] at acts ⊢
      rw [State.addWaiter, onto_waitersOf] at acts
      rw [hiveSheaf_acts h acts]; rfl

end SignalAndWait

/-! ## Arrivals (R251, R253-R255, R264, R265, R267) -/

section Arrivals
variable {s : State} {n o : Nat} {d : Node}

/-- What ends an arrival of either kind the same way ends ARRIVE and ARRIVE_NOWAIT. -/
theorem arrivalEnds_of {t : State} (acts : ∀ (c : Instr) (op : HiveOp) (sub : Nat), op = .arrive ∨ op = .nowait →
    OnObject s n d opStile sub o → s.hiveSheaf c n d op 0 = t) : ArrivalEnds s n d o t :=
  ⟨fun h => by rw [stileArrive_step (kernel_of_onObject h), acts _ _ _ (.inl rfl) h],
    fun h => by rw [stileArriveNowait_step (kernel_of_onObject h), acts _ _ _ (.inr rfl) h]⟩

theorem arrivalEnds_plain (plain : (s.obj o).kind = 0) :
    ArrivalEnds s n d o ((onto s o).misuseEnd n d (srcHive (halfOfObj o)) o 1) :=
  arrivalEnds_of fun _ _ _ arrival h =>
    hiveSheaf_misuse h (State.localOp_arrival_plain (allowed_of_onObject h) arrival ((onto_obj s o o).symm ▸ plain))

theorem arrivalEnds_broken (broken : (s.obj o).kind = 3) :
    ArrivalEnds s n d o ((onto s o).peerLostEnd n d (srcHive (halfOfObj o)) (peerDetail 0x3FFF 0 1)) :=
  arrivalEnds_of fun _ _ _ arrival h =>
    hiveSheaf_peerLost h
      (State.localOp_arrival_broken (allowed_of_onObject h) arrival ((onto_obj s o o).symm ▸ broken))

variable (stile : (s.obj o).kind = 1 ∨ (s.obj o).kind = 2)
include stile

theorem arrivalEnds_misuse {why : Nat}
    (classified : classifyArrival (s.obj o) (fld (aw d.lines 0) 63 48) (s.objWorker o) = .misuse why) :
    ArrivalEnds s n d o ((onto s o).misuseEnd n d (srcHive (halfOfObj o)) o why) := by
  refine arrivalEnds_of fun _ _ _ arrival h =>
    hiveSheaf_misuse h (State.localOp_arrival_misuse (allowed_of_onObject h) arrival ?_ ?_)
  · rwa [onto_obj]
  · rwa [onto_obj, onto_objWorker]

/-- An arrival that is counted on the round's behalf, acted out: ARRIVE stands unless the round completes. -/
theorem hiveSheaf_arrival {y : Obj} {completes report : Bool} {c : Instr} {op : HiveOp} {sub : Nat}
    (classified : classifyArrival (s.obj o) (fld (aw d.lines 0) 63 48) (s.objWorker o) = .counted y completes report)
    (arrival : op = .arrive ∨ op = .nowait) (h : OnObject s n d opStile sub o) :
    let t := (onto s o).countArrival o y (d.actor n).signer completes report
    s.hiveSheaf c n d op 0 =
      (if op = .arrive ∧ completes = false then
        (t.addWaiter o ((d.actor n).waiter (.round (BitVec.ofNat 16 (fld (aw d.lines 0) 63 48))))).setNode n
          (some { d with phase := .hive })
      else t.retireWith n stDone 1 0).wakeWaiters o := by
  intro t
  have counted := State.localOp_arrival_counted (s := onto s o) (round := fld (aw d.lines 0) 63 48) (operand := 0)
    (allowed_of_onObject h) arrival (by rwa [onto_obj]) (by rwa [onto_obj, onto_objWorker])
  dsimp only at counted
  by_cases stands : op = .arrive ∧ completes = false
  · rw [if_pos stands] at counted
    rw [hiveSheaf_acts h counted, if_pos rfl, if_pos stands]
    rfl
  · rw [if_neg stands] at counted
    rw [hiveSheaf_acts h counted, if_pos rfl, if_neg stands]
    rfl

theorem arrivalEnds_complete {y : Obj} {report : Bool}
    (classified : classifyArrival (s.obj o) (fld (aw d.lines 0) 63 48) (s.objWorker o) = .counted y true report) :
    ArrivalEnds s n d o
      ((((onto s o).countArrival o y (d.actor n).signer true report).retireWith n stDone 1 0).wakeWaiters o) :=
  arrivalEnds_of fun c op sub arrival h => (hiveSheaf_arrival stile classified arrival h).trans (by simp)

/-- Of arrivals that do not complete the round ARRIVE stands behind the object's waiters, and ARRIVE_NOWAIT is done. -/
theorem arrivals_counted {y : Obj} {report : Bool} {t : State}
    (classified : classifyArrival (s.obj o) (fld (aw d.lines 0) 63 48) (s.objWorker o) = .counted y false report)
    (counted : (onto s o).countArrival o y (d.actor n).signer false report = t) :
    (OnObject s n d opStile 0 o → exec (.stileArrive n) s =
      .next (((t.setWaiters o (s.waitersOf o ++ [
        (d.actor n).waiter (.round (BitVec.ofNat 16 (fld (aw d.lines 0) 63 48)))])).setNode n
          (some { d with phase := .hive })).wakeWaiters o)) ∧
    (OnObject s n d opStile 1 o → exec (.stileArriveNowait n) s =
      .next ((t.retireWith n stDone 1 0).wakeWaiters o)) := by
  have waiters : t.waitersOf o = s.waitersOf o := by
    rw [← counted, State.countArrival_waitersOf, onto_waitersOf]
  refine ⟨fun h => ?_, fun h => ?_⟩
  · rw [stileArrive_step (kernel_of_onObject h), hiveSheaf_arrival stile classified (.inl rfl) h, counted,
      if_pos ⟨rfl, rfl⟩, State.addWaiter, waiters]
  · rw [stileArriveNowait_step (kernel_of_onObject h), hiveSheaf_arrival stile classified (.inr rfl) h, counted]
    simp

end Arrivals

theorem arrivalsFillTheRound : ArrivalsFillTheRound := by
  intro n o d s kind round x counted complete
  have present : x.ahead (fld (aw d.lines 0) 63 48) = 0 := Obj.ahead_present round
  have notTier : x.kind ≠ 2 := fun tier => absurd (kind.symm.trans tier) (by decide)
  have early (h : x.arrived ≠ x.pminus1) := arrivals_counted (n := n) (.inl kind)
    (classifyArrival_counts present (fun ⟨_, tier, _⟩ => notTier tier) h) (onto_counts _ (d.actor n).signer kind)
  have last (h : x.arrived = x.pminus1) : ArrivalEnds s n d o ((complete.retireWith n stDone 1 0).wakeWaiters o) := by
    have ends := arrivalEnds_complete (n := n) (.inl kind)
      (classifyArrival_completes present (fun ⟨_, tier⟩ => notTier tier) h)
    rwa [onto_completes_stile _ _ kind] at ends
  rw [round] at early
  exact ⟨fun h => ⟨fun e => (early e).1 h, fun l => (last l).1 h⟩,
    fun h => ⟨fun e => (early e).2 h, fun l => (last l).2 h⟩⟩

theorem otherArrivals : OtherArrivals := by
  intro n o d s x ahead misuse
  refine ⟨arrivalEnds_plain, arrivalEnds_broken, fun kind next full => ?_, fun kind far => ?_,
    fun kind next room => ?_⟩
  · exact arrivalEnds_misuse (.inl kind) (classifyArrival_earlyFull next ((Obj.nextFull_stile kind).mpr full))
  · exact arrivalEnds_misuse (.inl kind) (classifyArrival_otherRound far)
  · have notFull : ¬ x.nextFull (s.objWorker o) := mt (Obj.nextFull_stile kind).mp (Nat.not_le.mpr room)
    exact arrivals_counted (.inl kind) (classifyArrival_early next notFull) (onto_counts _ (d.actor n).signer kind)

theorem tierArrivals : TierArrivals := by
  intro n o d s kind x round ahead worker put filled misuse done stands counts
  have stile : x.kind = 1 ∨ x.kind = 2 := .inr kind
  refine ⟨fun present isWorker full => ?_, fun present room early => ?_, fun present last => ⟨fun isWorker => ?_,
    fun isManager => ?_⟩, fun next => ?_, fun far => ?_⟩
  · exact arrivalEnds_misuse stile (classifyArrival_overfull present ⟨isWorker, kind⟩ full)
  · exact arrivals_counted stile
      (classifyArrival_counts present (fun ⟨isWorker, _, full⟩ => room ⟨isWorker, full⟩) early)
      (onto_counts _ (d.actor n).signer kind)
  · exact arrivals_counted stile (classifyArrival_reports present ⟨isWorker, kind⟩ last)
      (onto_reports _ (d.actor n).signer kind)
  · have ends := arrivalEnds_complete (n := n) stile
      (classifyArrival_completes present (fun ⟨isWorker, _⟩ => isManager isWorker) last)
    rwa [onto_completes_tier _ _ kind] at ends
  · intro full
    have full_iff : x.nextFull (s.objWorker o) ↔ full := Obj.nextFull_tier kind
    refine ⟨fun isFull => ?_, fun room => ?_⟩
    · exact arrivalEnds_misuse stile (classifyArrival_earlyFull next (full_iff.mpr isFull))
    · exact arrivals_counted stile (classifyArrival_early next (mt full_iff.mp room))
        (onto_counts _ (d.actor n).signer kind)
  · exact arrivalEnds_misuse stile (classifyArrival_otherRound far)

/-! ## INIT and RESET (R249, R254, R256) -/

theorem initAndResetRefuse : InitAndResetRefuse := by
  intro n o d s misuse
  refine ⟨fun waited standing => ?_, fun free tier count h => ?_⟩
  · have refused : ((onto s o).obj o).kind ≠ 3 ∧ (onto s o).waitersOf o ≠ [] := by
      rw [onto_obj, onto_waitersOf]
      exact ⟨standing, waited⟩
    refine ⟨fun h => ?_, fun h => ?_⟩
    · rw [stileInit_step (kernel_of_onObject h),
        hiveSheaf_misuse h (State.localOp_init_refused (allowed_of_onObject h) refused)]
    · rw [stileReset_step (kernel_of_onObject h),
        hiveSheaf_misuse h (State.localOp_reset_refused (allowed_of_onObject h) refused)]
  · have tooMany := State.localOp_init_tooMany (s := onto s o) (round := fld (aw d.lines 0) 63 48)
      (operand := aw d.lines 1) (allowed_of_onObject h) (by rwa [onto_waitersOf, onto_obj]) (by rwa [onto_inTier]) count
    rw [stileInit_step (kernel_of_onObject h), hiveSheaf_misuse h tooMany]

theorem initAndResetSetTheObject : InitAndResetSetTheObject := by
  intro n o d s free
  have ontoFree : (onto s o).waitersOf o = [] := by rwa [onto_waitersOf]
  refine ⟨fun h fits => ?_, fun h => ?_⟩
  · have acts := State.localOp_init (s := onto s o) (round := fld (aw d.lines 0) 63 48) (operand := aw d.lines 1)
      (allowed_of_onObject h) ontoFree (by rwa [onto_inTier])
    rw [stileInit_step (kernel_of_onObject h), hiveSheaf_done h acts, onto_inTier]
    rfl
  · rw [stileReset_step (kernel_of_onObject h),
      hiveSheaf_done h (State.localOp_reset (allowed_of_onObject h) ontoFree)]
    rfl

/-! ## Objects of other chips (R262, R263, R266, R373) -/

section Away
variable {s u : State} {n : Nat} {d : Node} {chip : BitVec 14} {c : Instr} {op : HiveOp} {operand : Word}

/-- A SIGNAL or WAIT of an object of another chip needs no line here, nor does an arrival that cannot go out. -/
theorem State.opNeeds_away {a : Actor} {ref : Nat} (away : s.chipLocal a.ctx (refChip ref) = false)
    (noRead : ¬ ((op = .arrive ∨ op = .nowait) ∧ s.unreachable a.ctx (refChip ref) = false)) :
    s.opNeeds a op ref = [] := by
  simp only [State.opNeeds, away, noRead, Bool.false_eq_true, if_false, ite_self]

/-- A direct arrival reads the tier object here (R266). -/
theorem State.opNeeds_direct {a : Actor} {ref : Nat} (away : s.chipLocal a.ctx (refChip ref) = false)
    (reachable : s.unreachable a.ctx (refChip ref) = false) (arrival : op = .arrive ∨ op = .nowait)
    (allowed : s.objAllowed a.ctx (refObj ref) = true) (served : s.inService (halfOfObj (refObj ref)) = true) :
    s.opNeeds a op ref = [hiveNeed (refObj ref) false] := by
  simp [State.opNeeds, away, reachable, arrival, allowed, served]

theorem State.sendOp_waitersOf (a : Actor) (o typ code : Nat) (w1 : Word) (waits : Bool) (j : Nat) :
    (s.sendOp a chip o typ code w1 waits).waitersOf j = s.waitersOf j :=
  congrArg (Tbl.get [] · j) (State.sendHive_objects _ _ _).2

section Operations
variable {a : Actor} {o round : Nat}

theorem State.remoteOp_unreachable (h : s.unreachable a.ctx chip = true) :
    s.remoteOp a op chip o round operand = (s, .blocked, false) := by
  unfold State.remoteOp
  exact if_pos h

variable (reachable : s.unreachable a.ctx chip = false)
include reachable

theorem State.remoteOp_signal (k : Nat) :
    s.remoteOp a (.signal k) chip o round operand = (s.sendOp a chip o 0 k operand false, .waits, false) := by
  simp [State.remoteOp, reachable]

theorem State.remoteOp_wait (k : Nat) (standing : (s.obj o).kind ≠ 3) :
    s.remoteOp a (.wait k) chip o round operand = (s.sendOp a chip o 2 k operand true, .waits, false) := by
  simp [State.remoteOp, reachable, standing]

variable (allowed : s.objAllowed a.ctx o = true)
include allowed

theorem State.remoteOp_arrival_broken (arrival : op = .arrive ∨ op = .nowait) (broken : (s.obj o).kind = 3) :
    s.remoteOp a op chip o round operand = (s, .peerLost, false) := by
  obtain rfl | rfl := arrival <;> simp [State.remoteOp, reachable, allowed, broken]

theorem State.remoteOp_arrival_misuse (arrival : op = .arrive ∨ op = .nowait) (standing : (s.obj o).kind ≠ 3)
    (other : (s.obj o).kind ≠ 2) : s.remoteOp a op chip o round operand = (s, .misuse 7, false) := by
  obtain rfl | rfl := arrival <;> simp [State.remoteOp, reachable, allowed, standing, other]

theorem State.remoteOp_arrive (tier : (s.obj o).kind = 2) :
    s.remoteOp a .arrive chip o round operand =
      ((s.sendOp a chip o 4 3 (BitVec.ofNat 64 round) false).setWaiters o (s.waitersOf o ++
        [a.waiter (.direct (BitVec.ofNat 16 round) ((s.obj o).past (BitVec.ofNat 16 round)))]), .waits, false) := by
  simp [State.remoteOp, reachable, allowed, tier, State.addWaiter, State.sendOp_waitersOf]

theorem State.remoteOp_nowait (tier : (s.obj o).kind = 2) :
    s.remoteOp a .nowait chip o round operand =
      (s.sendOp a chip o 4 3 (BitVec.ofNat 64 round) false, .waits, false) := by
  simp [State.remoteOp, reachable, allowed, tier]

end Operations

section Sheaf
variable {e : HiveEnd} (away : s.chipLocal d.ctx (refChip (aObjref d.lines)) = false)
include away

theorem hiveSheaf_away
    (noRead : ¬ ((op = .arrive ∨ op = .nowait) ∧ s.unreachable d.ctx (refChip (aObjref d.lines)) = false))
    (acts : s.remoteOp (d.actor n) op (refChip (aObjref d.lines)) (refObj (aObjref d.lines))
      (fld (aw d.lines 0) 63 48) operand = (u, e, false)) :
    s.hiveSheaf c n d op operand = u.sheafEnds n d (srcHive d.half) (refObj (aObjref d.lines)) e := by
  have needs : s.opNeeds (d.actor n) op (aObjref d.lines) = [] := State.opNeeds_away away noRead
  rw [State.hiveSheaf, needs, State.withLines_nil, State.hiveDone_away rfl away acts]

theorem hiveSheaf_blocked (unreachable : s.unreachable d.ctx (refChip (aObjref d.lines)) = true) :
    s.hiveSheaf c n d op operand = s.tenantBlock n d (srcHive d.half) (refObj (aObjref d.lines)) :=
  hiveSheaf_away away (by simp [unreachable]) (State.remoteOp_unreachable unreachable)

variable (reachable : s.unreachable d.ctx (refChip (aObjref d.lines)) = false)
include reachable

theorem hiveSheaf_signal_away (k : Nat) :
    s.hiveSheaf c n d (.signal k) operand =
      (s.sendOp (d.actor n) (refChip (aObjref d.lines)) (refObj (aObjref d.lines)) 0 k operand false).setNode n
        (some { d with phase := .hive }) :=
  hiveSheaf_away away (by simp) (State.remoteOp_signal reachable k)

theorem hiveSheaf_wait_away (k : Nat) (standing : (s.obj (refObj (aObjref d.lines))).kind ≠ 3) :
    s.hiveSheaf c n d (.wait k) operand =
      (s.sendOp (d.actor n) (refChip (aObjref d.lines)) (refObj (aObjref d.lines)) 2 k operand true).setNode n
        (some { d with phase := .hive }) :=
  hiveSheaf_away away (by simp) (State.remoteOp_wait reachable k standing)

/-- A direct arrival whose own tier object's line is held here (R266, R317). -/
theorem hiveSheaf_direct (arrival : op = .arrive ∨ op = .nowait)
    (allowed : s.objAllowed d.ctx (refObj (aObjref d.lines)) = true)
    (held : Holds s [hiveNeed (refObj (aObjref d.lines)) false])
    (served : s.inService (halfOfObj (refObj (aObjref d.lines))) = true)
    (acts : s.remoteOp (d.actor n) op (refChip (aObjref d.lines)) (refObj (aObjref d.lines))
      (fld (aw d.lines 0) 63 48) operand = (u, e, false)) :
    s.hiveSheaf c n d op operand = u.sheafEnds n d (srcHive d.half) (refObj (aObjref d.lines)) e := by
  have needs : s.opNeeds (d.actor n) op (aObjref d.lines) = [hiveNeed (refObj (aObjref d.lines)) false] :=
    State.opNeeds_direct away reachable arrival allowed served
  have same : [hiveNeed (refObj (aObjref d.lines)) false].foldl State.askLine s = s :=
    State.askLines_read_held (by simp [hiveNeed]) held
  rw [State.hiveSheaf, needs, State.withLines_held _ _ held, same, State.hiveDone_away rfl away acts]

end Sheaf
end Away

theorem remoteOperationsAreSent : RemoteOperationsAreSent := by
  intro n d s ref chip sent away
  refine ⟨fun reachable => ⟨fun h => ?_, fun h => ?_, fun h => ?_, fun h standing => ?_,
    fun allowed held served => ?_⟩, fun unreachable => ?_⟩
  · rw [signalAdd_step h, hiveSheaf_signal_away away reachable]
  · rw [signalSet_step h, hiveSheaf_signal_away away reachable]
  · rw [signalOr_step h, hiveSheaf_signal_away away reachable]
  · rw [wait_step h, hiveSheaf_wait_away away reachable _ standing]
  · intro o round out ends
    have arrives {c : Instr} {op : HiveOp} {u : State} {e : HiveEnd} (arrival : op = .arrive ∨ op = .nowait)
        (acts : s.remoteOp (d.actor n) op chip o round 0 = (u, e, false)) :
        s.hiveSheaf c n d op 0 = u.sheafEnds n d (srcHive d.half) o e :=
      hiveSheaf_direct away reachable arrival allowed held served acts
    refine ⟨fun broken => ⟨fun h => ?_, fun h => ?_⟩, fun standing other => ⟨fun h => ?_, fun h => ?_⟩,
      fun tier => ⟨fun h => ?_, fun h => ?_⟩⟩
    · rw [stileArrive_step h, arrives (.inl rfl) (State.remoteOp_arrival_broken reachable allowed (.inl rfl) broken)]
      rfl
    · rw [stileArriveNowait_step h,
        arrives (.inr rfl) (State.remoteOp_arrival_broken reachable allowed (.inr rfl) broken)]
      rfl
    · rw [stileArrive_step h,
        arrives (.inl rfl) (State.remoteOp_arrival_misuse reachable allowed (.inl rfl) standing other)]
      rfl
    · rw [stileArriveNowait_step h,
        arrives (.inr rfl) (State.remoteOp_arrival_misuse reachable allowed (.inr rfl) standing other)]
      rfl
    · rw [stileArrive_step h, arrives (.inl rfl) (State.remoteOp_arrive reachable allowed tier)]
      rfl
    · rw [stileArriveNowait_step h, arrives (.inr rfl) (State.remoteOp_nowait reachable allowed tier)]
      rfl
  · refine ⟨fun h => ?_, fun h => ?_, fun h => ?_, fun h => ?_, fun h => ?_, fun h => ?_⟩
    · rw [signalAdd_step h, hiveSheaf_blocked away unreachable]
    · rw [signalSet_step h, hiveSheaf_blocked away unreachable]
    · rw [signalOr_step h, hiveSheaf_blocked away unreachable]
    · rw [wait_step h, hiveSheaf_blocked away unreachable]
    · rw [stileArrive_step h, hiveSheaf_blocked away unreachable]
    · rw [stileArriveNowait_step h, hiveSheaf_blocked away unreachable]

/-- Settles O19 from its parts: on objects of this chip (`hiveSheaf_acts`) and of other chips (`hiveSheaf_away`,
`hiveSheaf_direct`). -/
theorem hiveSheavesActOnObjects : Obligations.HiveSheavesActOnObjects :=
  ⟨signalsChangeTheObject, waitComparesOrStands, arrivalsFillTheRound, otherArrivals, tierArrivals,
    initAndResetSetTheObject, initAndResetRefuse, remoteOperationsAreSent⟩

end Sys2Proof.Machine
end

section
/-! Signal reports of the engines (R257, R260, R274): the checks, and what a report that passes them does to its
object. -/

namespace Sys2Proof.Machine
open Sys2Proof.Claim

section Reports
variable {s : State} {f : Nat} {w0 w1 w2 : Word}

theorem signalReport_step (isF : isFurrow f) (working : s.working = true) (port : s.engineOn = true)
    (clocked : s.hiveOn (halfOfObj (fld w0 17 0)) = true) :
    exec (.signalReport f w0 w1 w2) s =
      .next (s.withLines (s.reportNeeds w0 w2) (·.hold (.signalReport f w0 w1 w2)) fun s =>
        s.signalReport w0 w1 w2) := by
  show execSignalReport f w0 w1 w2 s = _
  simp [execSignalReport, isF, port, clocked, State.delivery_working working, State.working_noReset working]

/-- A report that one of the first three checks drops needs no line. -/
theorem State.reportNeeds_dropped (h : s.reportStale w2 = true ∨ s.inService (halfOfObj (fld w0 17 0)) = false ∨
    s.reportTenant (fld w0 17 0) w2 = false) : s.reportNeeds w0 w2 = [] := by
  rcases h with h | h | h <;> simp [State.reportNeeds, State.objServed, h]

/-- A dropped report, as a NOTE (R274). -/
theorem State.dropReport_note (o : Nat) :
    s.dropReport o w0 w2 = s.raise { source := srcHive (halfOfObj o), kind := kHiveDrop, cls := .note
                                     ctx := if w2Chip w2 = 0x3FFF then some (w2Ctx w2, w2Gen w2) else none
                                     tag := BitVec.ofNat 32 (fld w0 63 32) } := by
  simp [State.dropReport, reportLocal]

section Checked
variable (known : fld w0 21 19 < 4)
include known

theorem State.signalReport_stale (stale : s.reportStale w2 = true) : s.signalReport w0 w1 w2 = s.countStale := by
  simp [State.signalReport, Nat.not_le.mpr known, stale]

variable (fresh : s.reportStale w2 = false)
include fresh

theorem State.signalReport_lost (lost : s.inService (halfOfObj (fld w0 17 0)) = false) :
    s.signalReport w0 w1 w2 = s.dropReport (fld w0 17 0) w0 w2 := by
  simp [State.signalReport, Nat.not_le.mpr known, fresh, State.objServed, lost]

variable (served : s.inService (halfOfObj (fld w0 17 0)) = true)
include served

theorem State.signalReport_foreign (foreign : s.reportTenant (fld w0 17 0) w2 = false) :
    s.signalReport w0 w1 w2 =
      { s with hivestat := { s.hivestat with blocked := satInc s.hivestat.blocked } }.dropReport (fld w0 17 0) w0
        w2 := by
  simp [State.signalReport, Nat.not_le.mpr known, fresh, State.objServed, served, foreign]

variable (tenant : s.reportTenant (fld w0 17 0) w2 = true)
include tenant

theorem State.reportNeeds_checked : s.reportNeeds w0 w2 = [hiveNeed (fld w0 17 0) true] := by
  simp [State.reportNeeds, State.objServed, known, fresh, served, tenant]

theorem State.signalReport_signals (signal : fld w0 21 19 < 3) :
    s.signalReport w0 w1 w2 =
      if (s.obj (fld w0 17 0)).kind = 0 then
        (s.setObj (fld w0 17 0)
          { w0 := signalValue (fld w0 21 19) (s.obj (fld w0 17 0)).w0 w1
            w1 := signed 0 (reportSigner w0 w2) }).wakeWaiters (fld w0 17 0)
      else s.misuseReport (fld w0 17 0) w0 w2 := by
  simp [State.signalReport, Nat.not_le.mpr known, fresh, State.objServed, served, tenant, signal]

variable (arrival : fld w0 21 19 = 3)
omit known
include arrival

theorem State.signalReport_arrival_other (plain : (s.obj (fld w0 17 0)).kind ≠ 1)
    (other : (s.obj (fld w0 17 0)).kind ≠ 2) : s.signalReport w0 w1 w2 = s.misuseReport (fld w0 17 0) w0 w2 := by
  simp [State.signalReport, fresh, State.objServed, served, tenant, arrival, plain, other]

variable (stile : (s.obj (fld w0 17 0)).kind = 1 ∨ (s.obj (fld w0 17 0)).kind = 2)
include stile

theorem State.signalReport_arrival_misuse {why : Nat}
    (classified : classifyArrival (s.obj (fld w0 17 0)) (fld w1 15 0) (s.objWorker (fld w0 17 0)) = .misuse why) :
    s.signalReport w0 w1 w2 = s.misuseReport (fld w0 17 0) w0 w2 := by
  rcases stile with kind | kind <;>
    simp [State.signalReport, fresh, State.objServed, served, tenant, arrival, kind, classified]

theorem State.signalReport_arrival_counted {y : Obj} {completes report : Bool}
    (classified : classifyArrival (s.obj (fld w0 17 0)) (fld w1 15 0) (s.objWorker (fld w0 17 0)) =
      .counted y completes report) :
    s.signalReport w0 w1 w2 =
      (s.countArrival (fld w0 17 0) y (reportSigner w0 w2) completes report).wakeWaiters (fld w0 17 0) := by
  rcases stile with kind | kind <;>
    simp [State.signalReport, fresh, State.objServed, served, tenant, arrival, kind, classified]

end Checked

/-- The report is taken, passes the first three checks of R260, and finds its object's line writable (R321). -/
structure ReportActs (s : State) (f : Nat) (w0 w2 : Word) : Prop where
  isF : isFurrow f
  working : s.working = true
  port : s.engineOn = true
  clocked : s.hiveOn (halfOfObj (fld w0 17 0)) = true
  known : fld w0 21 19 < 4
  fresh : s.reportStale w2 = false
  served : s.inService (halfOfObj (fld w0 17 0)) = true
  tenant : s.reportTenant (fld w0 17 0) w2 = true
  held : Holds s [hiveNeed (fld w0 17 0) true]

section Acts
variable (h : ReportActs s f w0 w2)
include h

theorem ReportActs.step :
    exec (.signalReport f w0 w1 w2) s = .next ((onto s (fld w0 17 0)).signalReport w0 w1 w2) := by
  rw [signalReport_step h.isF h.working h.port h.clocked,
    State.reportNeeds_checked h.known h.fresh h.served h.tenant, State.withLines_held _ _ h.held]
  rfl

/-- The first three checks look at nothing that the claim of the line changes. -/
theorem ReportActs.onto_checks : (onto s (fld w0 17 0)).reportStale w2 = false ∧
    (onto s (fld w0 17 0)).inService (halfOfObj (fld w0 17 0)) = true ∧
    (onto s (fld w0 17 0)).reportTenant (fld w0 17 0) w2 = true := by
  rw [onto_reportStale, onto_inService, onto_reportTenant]
  exact ⟨h.fresh, h.served, h.tenant⟩

theorem ReportActs.signals (signal : fld w0 21 19 < 3) (plain : (s.obj (fld w0 17 0)).kind = 0) :
    exec (.signalReport f w0 w1 w2) s = .next ((rewrite s (fld w0 17 0)
      { w0 := signalValue (fld w0 21 19) (s.obj (fld w0 17 0)).w0 w1
        w1 := signed 0 (reportSigner w0 w2) }).wakeWaiters (fld w0 17 0)) := by
  obtain ⟨fresh, served, tenant⟩ := h.onto_checks
  rw [h.step, State.signalReport_signals h.known fresh served tenant signal, onto_obj, if_pos plain]
  rfl

theorem ReportActs.signal_misused (signal : fld w0 21 19 < 3) (other : (s.obj (fld w0 17 0)).kind ≠ 0) :
    exec (.signalReport f w0 w1 w2) s = .next ((onto s (fld w0 17 0)).misuseReport (fld w0 17 0) w0 w2) := by
  obtain ⟨fresh, served, tenant⟩ := h.onto_checks
  rw [h.step, State.signalReport_signals h.known fresh served tenant signal, onto_obj, if_neg other]

variable (arrival : fld w0 21 19 = 3)
include arrival

theorem ReportActs.arrival_other (plain : (s.obj (fld w0 17 0)).kind ≠ 1) (other : (s.obj (fld w0 17 0)).kind ≠ 2) :
    exec (.signalReport f w0 w1 w2) s = .next ((onto s (fld w0 17 0)).misuseReport (fld w0 17 0) w0 w2) := by
  obtain ⟨fresh, served, tenant⟩ := h.onto_checks
  rw [h.step, State.signalReport_arrival_other fresh served tenant arrival (by rwa [onto_obj]) (by rwa [onto_obj])]

variable (stile : (s.obj (fld w0 17 0)).kind = 1 ∨ (s.obj (fld w0 17 0)).kind = 2)
include stile

theorem ReportActs.arrival_misused {why : Nat}
    (classified : classifyArrival (s.obj (fld w0 17 0)) (fld w1 15 0) (s.objWorker (fld w0 17 0)) = .misuse why) :
    exec (.signalReport f w0 w1 w2) s = .next ((onto s (fld w0 17 0)).misuseReport (fld w0 17 0) w0 w2) := by
  obtain ⟨fresh, served, tenant⟩ := h.onto_checks
  rw [h.step, State.signalReport_arrival_misuse fresh served tenant arrival (by rwa [onto_obj])
    (by rwa [onto_obj, onto_objWorker])]

theorem ReportActs.arrival_counted {y : Obj} {completes report : Bool} {t : State}
    (classified : classifyArrival (s.obj (fld w0 17 0)) (fld w1 15 0) (s.objWorker (fld w0 17 0)) =
      .counted y completes report)
    (counted : (onto s (fld w0 17 0)).countArrival (fld w0 17 0) y (reportSigner w0 w2) completes report = t) :
    exec (.signalReport f w0 w1 w2) s = .next (t.wakeWaiters (fld w0 17 0)) := by
  obtain ⟨fresh, served, tenant⟩ := h.onto_checks
  rw [h.step, State.signalReport_arrival_counted fresh served tenant arrival (by rwa [onto_obj])
    (by rwa [onto_obj, onto_objWorker]), counted]

end Acts
end Reports

theorem signalReportsReachTheObject : SignalReportsReachTheObject := by
  intro f w0 w1 w2 s isF working port clocked o op x gives drop misused
  have dropped (h : s.reportNeeds w0 w2 = []) : gives (s.signalReport w0 w1 w2) := by
    show exec _ s = _
    rw [signalReport_step isF working port clocked, h, State.withLines_nil]
  have note (t : State) : t.dropReport o w0 w2 = drop t := State.dropReport_note o
  refine ⟨fun known stale => ?_, fun known fresh lost => ?_, fun known fresh served foreign => ?_,
    fun known fresh served tenant => ⟨fun lacking => ?_, fun held => ?_⟩⟩
  · have gone := dropped (State.reportNeeds_dropped (.inl stale))
    rwa [State.signalReport_stale known stale] at gone
  · have gone := dropped (State.reportNeeds_dropped (.inr (.inl lost)))
    rwa [State.signalReport_lost known fresh lost, note] at gone
  · have gone := dropped (State.reportNeeds_dropped (.inr (.inr foreign)))
    rwa [State.signalReport_foreign known fresh served foreign, note] at gone
  · have lacks : s.lineHeld (hiveNeed o true) = false := by simpa [Holds] using lacking
    show exec _ s = _
    rw [signalReport_step isF working port clocked, State.reportNeeds_checked known fresh served tenant,
      State.withLines_asks _ _ (by simpa using lacks)]
    simp [o, lacks]
  · have acts : ReportActs s f w0 w2 := ⟨isF, working, port, clocked, known, fresh, served, tenant, held⟩
    have asMisused : (onto s o).misuseReport o w0 w2 = misused := by
      rw [State.misuseReport, onto_hivestat, note]
    have misuses {why : Nat} (arrival : op = 3) (stile : x.kind = 1 ∨ x.kind = 2)
        (classified : classifyArrival x (fld w1 15 0) (s.objWorker o) = .misuse why) : gives misused :=
      asMisused ▸ acts.arrival_misused arrival stile classified
    intro put ahead
    refine ⟨acts.signals, fun signal other => asMisused ▸ acts.signal_misused signal other,
      fun arrival plain other => asMisused ▸ acts.arrival_other arrival plain other, fun arrival kind => ?_,
      fun arrival kind => ?_⟩
    · have notTier : x.kind ≠ 2 := fun tier => absurd (kind.symm.trans tier) (by decide)
      have stile : x.kind = 1 ∨ x.kind = 2 := .inl kind
      refine ⟨fun present early => ?_, fun present last => ?_, fun next room => ?_, fun refused => ?_⟩
      · exact acts.arrival_counted arrival stile
          (classifyArrival_counts present (fun ⟨_, tier, _⟩ => notTier tier) early) (onto_counts _ _ kind)
      · exact acts.arrival_counted arrival stile
          (classifyArrival_completes present (fun ⟨_, tier⟩ => notTier tier) last) (onto_completes_stile _ _ kind)
      · have notFull : ¬ x.nextFull (s.objWorker o) := mt (Obj.nextFull_stile kind).mp (Nat.not_le.mpr room)
        exact acts.arrival_counted arrival stile (classifyArrival_early next notFull) (onto_counts _ _ kind)
      · obtain ⟨next, full⟩ | far := refused
        · exact misuses arrival stile (classifyArrival_earlyFull next ((Obj.nextFull_stile kind).mpr full))
        · exact misuses arrival stile (classifyArrival_otherRound far)
    · have stile : x.kind = 1 ∨ x.kind = 2 := .inr kind
      refine ⟨fun present isWorker => ⟨fun full => ?_, fun last => ?_⟩, fun present isManager last => ?_,
        fun present early => ?_, fun next => ?_, fun far => ?_⟩
      · exact misuses arrival stile (classifyArrival_overfull present ⟨isWorker, kind⟩ full)
      · exact acts.arrival_counted arrival stile (classifyArrival_reports present ⟨isWorker, kind⟩ last)
          (onto_reports _ _ kind)
      · have notWorker : ¬ s.objWorker o = true := Bool.eq_false_iff.mp isManager
        exact acts.arrival_counted arrival stile
          (classifyArrival_completes present (fun ⟨worker, _⟩ => notWorker worker) last) (onto_completes_tier _ _ kind)
      · have notOver : x.arrived ≠ x.pminus1 + 1 := by omega
        exact acts.arrival_counted arrival stile
          (classifyArrival_counts present (fun ⟨_, _, full⟩ => notOver full) (Nat.ne_of_lt early))
          (onto_counts _ _ kind)
      · intro full
        have full_iff : x.nextFull (s.objWorker o) ↔ full := Obj.nextFull_tier kind
        exact ⟨fun isFull => misuses arrival stile (classifyArrival_earlyFull next (full_iff.mpr isFull)),
          fun room => acts.arrival_counted arrival stile (classifyArrival_early next (mt full_iff.mp room))
            (onto_counts _ _ kind)⟩
      · exact misuses arrival stile (classifyArrival_otherRound far)

end Sys2Proof.Machine
end

section
/-! Messages of other chips and their answers (R236, R260-R266). -/

namespace Sys2Proof.Machine
open Sys2Proof.Claim

/-! ## Receiving (R261, R378, R380) -/

section Receiving
variable {s : State} {m : HiveFrame} {typ : Nat}

/-- A message that no check drops is handled. -/
theorem State.receive_handles (h : HiveArrives s m typ) (known : typ < 7) (c : Instr) (f : State → State) :
    s.receive c m typ f = f s := by
  obtain ⟨working, port, clocked, head, type, result, fresh⟩ := h
  have notReserved : ¬ 7 ≤ typ := Nat.not_le.mpr known
  simp only [State.receive, port, clocked, Bool.and_self, State.when_true, State.delivery_working working,
    State.working_noReset working, head, notReserved, result, type, fresh, decide_false, Bool.or_self,
    Bool.false_eq_true, if_false, ne_eq, not_true_eq_false]

variable {o ops : Nat}

/-- A message on an object with its line held acts on it (R260, R321). -/
theorem State.onObject_acts (h : AtObject s m o) (known : msgOp m < ops) (c : Instr) (f : State → State) :
    s.onObject c m ops f = f (onto s o) := by
  obtain ⟨rfl, served, tenant, held⟩ := h
  have needs : s.msgNeeds m ops = [hiveNeed (msgObj m) true] := by
    simp [State.msgNeeds, State.objServed, State.msgTenant, served, tenant, known]
  rw [State.onObject, needs, State.withLines_held _ _ held]
  rfl

/-- One of another tenant needs no line. -/
theorem State.onObject_foreign (names : msgObj m = o) (foreign : s.objPart o ≠ some (portPart m.port)) (c : Instr)
    (f : State → State) : s.onObject c m ops f = f s := by
  subst names
  have needs : s.msgNeeds m ops = [] := by simp [State.msgNeeds, State.msgTenant, foreign]
  rw [State.onObject, needs, State.withLines_nil]

/-- A field is smaller than its width allows. -/
theorem fld_lt {k : Nat} (w : BitVec k) (hi lo : Nat) : fld w hi lo < 2 ^ (hi - lo + 1) :=
  Nat.mod_lt _ (Nat.two_pow_pos _)

theorem msgOp_lt (m : HiveFrame) : msgOp m < 8 := fld_lt m.w0 21 19

theorem msgObj_of_atObject (h : AtObject s m o) : msgObj m = o := by
  obtain ⟨names, -⟩ := h
  exact names

/-- The checks of R260 look at nothing that the claim of the line changes. -/
theorem onto_atObject (h : AtObject s m o) :
    (onto s o).objServed (msgObj m) = true ∧ (onto s o).msgTenant m = true := by
  obtain ⟨rfl, served, tenant, -⟩ := h
  simp [State.objServed, State.msgTenant, served, tenant]

end Receiving

/-! ## Messages (R262, R263, R265) -/

section Messages
variable {s : State} {m : HiveFrame}

theorem State.signalArrives_foreign (served : s.objServed (msgObj m) = true) (foreign : s.msgTenant m = false) :
    s.signalArrives m = s.answerMsg m 1 0x17 := by
  simp [State.signalArrives, served, foreign]

theorem State.waitregArrives_foreign (served : s.objServed (msgObj m) = true) (foreign : s.msgTenant m = false) :
    s.waitregArrives m = s.answerMsg m 3 0x17 := by
  simp [State.waitregArrives, served, foreign]

theorem State.tierArrives_foreign (served : s.objServed (msgObj m) = true) (foreign : s.msgTenant m = false) :
    s.tierArrives m = (s.blockMsg (msgObj m)).answerMsg m 1 0x17 := by
  simp [State.tierArrives, served, foreign]

section Tenant
variable (served : s.objServed (msgObj m) = true) (tenant : s.msgTenant m = true)
include served tenant

theorem State.signalArrives_signals (known : msgOp m < 3) :
    s.signalArrives m =
      if (s.obj (msgObj m)).kind = 0 then
        ((s.setObj (msgObj m) { w0 := signalValue (msgOp m) (s.obj (msgObj m)).w0 m.w1
                                w1 := signed 0 (msgSigner m) }).answerMsg m 1 0).wakeWaiters (msgObj m)
      else s.answerMsg m 1 0x16 := by
  simp [State.signalArrives, served, tenant, Nat.not_le.mpr known]

theorem State.waitregArrives_compares (known : msgOp m < 6) (standing : (s.obj (msgObj m)).kind ≠ 3) :
    s.waitregArrives m =
      if compareCode (msgOp m) (s.obj (msgObj m)).w0 m.w1 = true then s.answerMsg m 3 0
      else if 4096 ≤ s.remoteWaits (halfOfObj (msgObj m)) then s.answerMsg m 3 0xFF
      else s.useFree.addWaiter (msgObj m) (s.remoteWaiter m) := by
  simp [State.waitregArrives, served, tenant, Nat.not_le.mpr known, standing]

theorem State.tierArrives_counted {y : Obj} {completes report : Bool} (tier : (s.obj (msgObj m)).kind = 2)
    (classified : classifyArrival (s.obj (msgObj m)) (fld m.w1 15 0) (s.objWorker (msgObj m)) =
      .counted y completes report) :
    s.tierArrives m = ((s.countArrival (msgObj m) y (msgSigner m) completes report).answerMsg m 1 0).wakeWaiters
      (msgObj m) := by
  simp [State.tierArrives, served, tenant, tier, classified]

theorem State.tierReleased_completes (tier : (s.obj (msgObj m)).kind = 2)
    (present : (s.obj (msgObj m)).round = fld m.w1 15 0) (worker : s.objWorker (msgObj m) = true)
    (room : (s.obj (msgObj m)).complete.arrived ≠ (s.obj (msgObj m)).complete.pminus1 + 1) :
    s.tierReleased m =
      (s.setObj (msgObj m) { (s.obj (msgObj m)).complete with w1 := signed 2 (msgSigner m) }).wakeWaiters
        (msgObj m) := by
  simp [State.tierReleased, served, tenant, tier, present, worker, room]

end Tenant
end Messages

/-! What Pliat does with a message that arrives: on its object, or with none of another tenant. -/

section Steps
variable {s : State} {m : HiveFrame} {o : Nat}

theorem signalMessage_acts (h : HiveArrives s m 0) (object : AtObject s m o) (known : msgOp m < 3) :
    exec (.signalMessage m) s = .next ((onto s o).signalArrives m) := by
  show execSignalMessage m s = _
  rw [execSignalMessage, ok_pos trivial, State.receive_handles h (by decide), State.onObject_acts object known]

theorem waitreg_acts (h : HiveArrives s m 2) (object : AtObject s m o) (known : msgOp m < 6) :
    exec (.waitreg m) s = .next ((onto s o).waitregArrives m) := by
  show execWaitreg m s = _
  rw [execWaitreg, ok_pos trivial, State.receive_handles h (by decide), State.onObject_acts object known]

theorem tierarrive_acts (h : HiveArrives s m 4) (object : AtObject s m o) :
    exec (.tierarrive m) s = .next ((onto s o).tierArrives m) := by
  show execTierarrive m s = _
  rw [execTierarrive, ok_pos trivial, State.receive_handles h (by decide), State.onObject_acts object (msgOp_lt m)]

theorem tierrelease_acts (h : HiveArrives s m 5) (object : AtObject s m o) :
    exec (.tierrelease m) s = .next ((onto s o).tierReleased m) := by
  show execTierrelease m s = _
  rw [execTierrelease, ok_pos trivial, State.receive_handles h (by decide), State.onObject_acts object (msgOp_lt m)]

section Foreign
variable (names : msgObj m = o) (served : s.inService (halfOfObj o) = true)
  (foreign : s.objPart o ≠ some (portPart m.port))
include names served foreign

theorem foreign_checks : s.objServed (msgObj m) = true ∧ s.msgTenant m = false := by
  subst names
  simp [State.objServed, State.msgTenant, served, foreign]

theorem signalMessage_foreign (h : HiveArrives s m 0) :
    exec (.signalMessage m) s = .next (s.answerMsg m 1 0x17) := by
  obtain ⟨inService, other⟩ := foreign_checks names served foreign
  show execSignalMessage m s = _
  rw [execSignalMessage, ok_pos trivial, State.receive_handles h (by decide), State.onObject_foreign names foreign,
    State.signalArrives_foreign inService other]

theorem waitreg_foreign (h : HiveArrives s m 2) : exec (.waitreg m) s = .next (s.answerMsg m 3 0x17) := by
  obtain ⟨inService, other⟩ := foreign_checks names served foreign
  show execWaitreg m s = _
  rw [execWaitreg, ok_pos trivial, State.receive_handles h (by decide), State.onObject_foreign names foreign,
    State.waitregArrives_foreign inService other]

theorem tierarrive_foreign (h : HiveArrives s m 4) :
    exec (.tierarrive m) s = .next ((s.blockMsg o).answerMsg m 1 0x17) := by
  obtain ⟨inService, other⟩ := foreign_checks names served foreign
  show execTierarrive m s = _
  rw [execTierarrive, ok_pos trivial, State.receive_handles h (by decide), State.onObject_foreign names foreign,
    State.tierArrives_foreign inService other, names]

end Foreign

theorem cancel_acts (h : HiveArrives s m 6) :
    exec (.cancel m) s = .next (s.dropWaiters fun w =>
      decide (w.owner = .remote (portPart m.port) (msgId m)) && w.chip == portSrc m.port) := by
  show execCancel m s = _
  rw [execCancel, ok_pos trivial, State.receive_handles h (by decide)]

end Steps

theorem hiveMessagesAct : HiveMessagesAct := by
  intro m o s x
  refine ⟨fun h object known plain => ?_, fun h object known other => ?_, fun names served foreign =>
    ⟨signalMessage_foreign names served foreign, tierarrive_foreign names served foreign,
      waitreg_foreign names served foreign⟩, fun h object known standing => ?_, cancel_acts,
    fun y completes report h object tier classified => ?_, fun h object tier present worker room => ?_⟩
  all_goals
    obtain ⟨served, tenant⟩ := onto_atObject object
    have names := msgObj_of_atObject object
  · rw [signalMessage_acts h object known, State.signalArrives_signals served tenant known, names, onto_obj,
      if_pos plain]
    rfl
  · rw [signalMessage_acts h object known, State.signalArrives_signals served tenant known, names, onto_obj,
      if_neg other]
  · rw [waitreg_acts h object known,
      State.waitregArrives_compares served tenant known (by rwa [names, onto_obj]), names, onto_obj]
  · rw [tierarrive_acts h object,
      State.tierArrives_counted served tenant (by rwa [names, onto_obj]) (by rwa [names, onto_obj, onto_objWorker]),
      names]
  · rw [tierrelease_acts h object,
      State.tierReleased_completes served tenant (by rwa [names, onto_obj]) (by rwa [names, onto_obj])
        (by rwa [names, onto_objWorker]) (by rwa [names, onto_obj]), names, onto_obj]
    rfl

/-! ## Answers (R236, R262, R263) -/

section Answers
variable {s : State} {r : RemoteOp} {m : HiveFrame}

/-- The operation r is over: it awaits no answer any more. -/
def State.withoutOp (s : State) (r : RemoteOp) : State :=
  { s with remoteOps := s.remoteOps.filter fun x => !decide (x.msgid = r.msgid) }

/-- Nothing waits here for the operation r either. -/
def State.withoutWaits (s : State) (r : RemoteOp) : State :=
  (s.withoutOp r).dropWaiters fun w => decide (w.owner = r.owner)

theorem hiveAck_answers (h : HiveArrives s m 1) (pending : s.pendingOp m false = some r) :
    exec (.hiveAck m) s = .next (s.opAnswered r (msgResult m)) := by
  show execHiveAck m s = _
  rw [execHiveAck, ok_pos trivial, State.receive_handles h (by decide), pending]

theorem wake_handles (h : HiveArrives s m 3) (pending : s.pendingOp m true = some r) :
    exec (.wake m) s = .next (if msgResult m = 0xFF then
      { s with remoteOps := s.remoteOps.map fun x =>
          if x.msgid = r.msgid then { x with retryDue := some (s.now + 10) } else x }
      else s.opAnswered r (msgResult m)) := by
  show execWake m s = _
  rw [execWake, ok_pos trivial, State.receive_handles h (by decide), pending]

/-- ACK and WAKE with a RESULT but 0xFF do the same for the operation. -/
theorem answers_opAnswered {t : State} {result : Nat} (results : msgResult m = result) (notRetry : result ≠ 0xFF)
    (answered : s.opAnswered r result = t) :
    (HiveArrives s m 1 → s.pendingOp m false = some r → exec (.hiveAck m) s = .next t) ∧
    (HiveArrives s m 3 → s.pendingOp m true = some r → exec (.wake m) s = .next t) := by
  subst results answered
  exact ⟨hiveAck_answers, fun h pending => (wake_handles h pending).trans (by rw [if_neg notRetry])⟩

/-- What the operation's end, RESULT 0, does for who performed it. -/
def State.opDone (s : State) (r : RemoteOp) : State := match r.owner with
  | .node n => s.wakeSheaf n
  | .run k fr rd => s.finishRun k fr rd 0
  | .remote _ _ => s

theorem State.opAnswered_eq (s : State) (r : RemoteOp) (result : Nat) :
    s.opAnswered r result =
      if result = 0x17 then (s.withoutWaits r).ownerBlocked r.owner r.obj
      else if result = 0x16 then
        (s.withoutWaits r).useFree.endOwner r.owner fun t n d =>
          t.misuseEnd n d (srcHive d.half) r.obj ((s.withoutWaits r).misuseReason r)
      else if (s.waitersOf r.obj).any (fun w => decide (w.owner = r.owner)) = true then s.withoutOp r
      else (s.withoutOp r).opDone r := rfl

/-- The reason of a misuse that another chip reports is 8, or, of a direct arrival, 7 or 8. -/
theorem State.misuseReason_cases (r : RemoteOp) :
    s.misuseReason r = 8 ∨ (s.misuseReason r = 7 ∧ fld r.frame.header 63 60 = 4) := by
  unfold State.misuseReason
  split
  · rcases Nat.mod_two_eq_zero_or_one s.freeNow.toNat with even | odd <;> simp_all
  · exact .inl rfl

section OfASheaf
variable {n : Nat} {d : Node} (owner : r.owner = .node n) (node : s.node n = some d) (phase : d.phase = .hive)
include owner node phase

theorem State.opDone_sheaf : s.opDone r = s.retireWith n stDone 1 0 := by
  simp [State.opDone, owner, State.wakeSheaf, node, phase]

theorem State.ownerBlocked_sheaf (o : Nat) : s.ownerBlocked r.owner o = s.tenantBlock n d (srcHive d.half) o := by
  simp [State.ownerBlocked, owner, node, phase]

theorem State.endOwner_sheaf (f : State → Nat → Node → State) : s.endOwner r.owner f = f s n d := by
  simp [State.endOwner, State.ownerSheaf, State.stopOwner, owner, node, phase]

end OfASheaf

section OfARun
variable {k fr rd : Nat} {run : Run} {d : Node} (owner : r.owner = .run k fr rd) (runs : s.runAt k fr = some run)
include owner runs

theorem State.opDone_run : s.opDone r = (s.setRun k fr (run.setReg rd 0)).readyRun k fr := by
  simp [State.opDone, owner, State.finishRun, runs]

variable (node : s.node run.call = some d)
include node

theorem State.ownerBlocked_run (o : Nat) :
    s.ownerBlocked r.owner o = (s.raise (callBlocked (srcHive d.half) d)).finishRun k fr rd 0x17 := by
  simp [State.ownerBlocked, State.callOf, owner, runs, node]

theorem State.endOwner_run (phase : d.phase = .core) (f : State → Nat → Node → State) :
    s.endOwner r.owner f = f (s.endRun k fr) run.call d := by
  simp [State.endOwner, State.ownerSheaf, State.callOf, State.stopOwner, owner, runs, node, phase]

end OfARun

theorem waitregRetry_sends {msgid : BitVec 32} {t : Nat} (working : s.working = true)
    (pending : s.remoteOps.find? (fun r => r.msgid == msgid) = some r) (due : r.retryDue = some t)
    (passed : t ≤ s.now) :
    exec (.waitregRetry msgid) s = .next (({ s with remoteOps := s.remoteOps.map fun (x : RemoteOp) =>
      if x.msgid = msgid then { x with retryDue := none } else x }).drive (.hiveMsg r.part r.frame)) := by
  have notSafe : s.recov.safe = false := by
    simp only [State.working, State.up, Bool.and_eq_true, Bool.not_eq_true'] at working
    obtain ⟨⟨⟨-, notSafe⟩, -⟩, -⟩ := working
    exact notSafe
  show execWaitregRetry msgid s = _
  simp [execWaitregRetry, working, pending, due, passed, State.sendHive, notSafe]

end Answers

theorem answersEndTheOperation : AnswersEndTheOperation := by
  refine ⟨fun m r n d s owner node phase results alone => ?_, fun m r s => ?_,
    fun m r s h pending results => ?_, fun msgid r t s working pending due passed => ?_⟩
  · refine answers_opAnswered results (by decide) ?_
    rw [State.opAnswered_eq, if_neg (by decide), if_neg (by decide), if_neg (Bool.eq_false_iff.mp alone),
      State.opDone_sheaf owner (s := s.withoutOp r) node phase]
    rfl
  · intro answered rest alone
    constructor
    · intro n d owner node phase
      refine ⟨fun results => ?_, fun results => ⟨alone.misuseReason r, alone.misuseReason_cases r, ?_⟩⟩
      · refine answers_opAnswered results (by decide) ?_
        rw [State.opAnswered_eq, if_pos rfl, State.ownerBlocked_sheaf owner (s := s.withoutWaits r) node phase]
        rfl
      · refine answers_opAnswered results (by decide) ?_
        rw [State.opAnswered_eq, if_neg (by decide), if_pos rfl,
          State.endOwner_sheaf owner (s := (s.withoutWaits r).useFree) node phase]
        rfl
    · intro k fr rd run d owner runs node phase
      refine ⟨fun results unheld => ?_, fun results => ?_,
        fun results => ⟨alone.misuseReason r, alone.misuseReason_cases r, ?_⟩⟩
      · refine answers_opAnswered results (by decide) ?_
        rw [State.opAnswered_eq, if_neg (by decide), if_neg (by decide), if_neg (Bool.eq_false_iff.mp unheld),
          State.opDone_run owner (s := s.withoutOp r) runs]
        rfl
      · refine answers_opAnswered results (by decide) ?_
        rw [State.opAnswered_eq, if_pos rfl, State.ownerBlocked_run owner (s := s.withoutWaits r) runs node]
        rfl
      · refine answers_opAnswered results (by decide) ?_
        rw [State.opAnswered_eq, if_neg (by decide), if_pos rfl,
          State.endOwner_run owner (s := (s.withoutWaits r).useFree) runs node phase]
        rfl
  · rw [wake_handles h pending, if_pos results]
  · exact waitregRetry_sends working pending due passed

/-- Settles O37 from its parts: reports (`ReportActs.step`), messages on their objects (`State.onObject_acts`) and
answers (`answers_opAnswered`). -/
theorem reportsAndMessagesAct : Obligations.ReportsAndMessagesAct :=
  ⟨signalReportsReachTheObject, hiveMessagesAct, answersEndTheOperation⟩

end Sys2Proof.Machine
end

section
/-! What the end of work leaves of the contexts and queues (R71, R291): a retirement, a withdrawal, an abort, the stop
of a CALL or the removal of unstarted work changes STATE and the generation of no context, and STATE and ERR of no
queue. -/

namespace Sys2Proof.Machine

/-! ## Contexts and queues that stand as they were -/

/-- The tables of queues and contexts are in canonical form. -/
def State.Orderly (s : State) : Prop := wf_queues s.queues ∧ wf_ctxs s.ctxs

theorem State.Canonical.orderly {s : State} (hs : s.Canonical) : s.Orderly :=
  ⟨State.canonical_queues hs, State.canonical_ctxs hs⟩

/-- From `s` to `t` every context keeps its state and generation, and every queue its state and ERR. -/
def State.Stands (s t : State) : Prop :=
  s.Orderly → t.Orderly ∧
    (∀ c, (t.ctx c).state = (s.ctx c).state ∧ (t.ctx c).gen = (s.ctx c).gen) ∧
    ∀ q, (t.queue q).state = (s.queue q).state ∧ (t.queue q).err = (s.queue q).err

namespace State.Stands

/-- Whatever touches neither table. -/
theorem of_tables {s t : State} (queues : t.queues = s.queues) (ctxs : t.ctxs = s.ctxs) : s.Stands t := by
  intro orderly
  simpa [State.Orderly, State.ctx, State.queue, queues, ctxs] using orderly

theorem refl (s : State) : s.Stands s := of_tables rfl rfl

theorem trans {s t u : State} (h : s.Stands t) (h' : t.Stands u) : s.Stands u := by
  intro orderly
  obtain ⟨orderly', ctxs, queues⟩ := h orderly
  obtain ⟨orderly'', ctxs', queues'⟩ := h' orderly'
  exact ⟨orderly'', fun c => ⟨(ctxs' c).1.trans (ctxs c).1, (ctxs' c).2.trans (ctxs c).2⟩,
    fun q => ⟨(queues' q).1.trans (queues q).1, (queues' q).2.trans (queues q).2⟩⟩

/-- Before `t` something happened to other tables. -/
theorem before {s t u : State} (h : t.Stands u) (queues : t.queues = s.queues) (ctxs : t.ctxs = s.ctxs) :
    s.Stands u := (of_tables queues ctxs).trans h

/-- After `t` something happens to other tables. -/
theorem after {s t u : State} (h : s.Stands t) (queues : u.queues = t.queues) (ctxs : u.ctxs = t.ctxs) :
    s.Stands u := h.trans (of_tables queues ctxs)

theorem foldl {α : Type} (s : State) (l : List α) {f : State → α → State} (h : ∀ (x : State) a, x.Stands (f x a)) :
    s.Stands (l.foldl f s) := by
  induction l generalizing s with
  | nil => exact refl s
  | cons a l ih => exact (h s a).trans (ih (f s a))

theorem forAll (s : State) (ns : List Nat) {f : State → Nat → State} (h : ∀ (x : State) n, x.Stands (f x n)) :
    s.Stands (s.forAll ns f) := foldl s ns h

end State.Stands

theorem State.Background.stands {s t : State} (h : s.Background t) : s.Stands t := by
  obtain ⟨_, _, _, _, _, _, _, _, _, _, rfl⟩ := h
  exact .of_tables rfl rfl

section Stands
variable (s : State)

theorem State.setCtx_stands (c : Nat) (x : Ctx) (state : x.state = (s.ctx c).state) (gen : x.gen = (s.ctx c).gen) :
    s.Stands (s.setCtx c x) := by
  intro ⟨queues, ctxs⟩
  refine ⟨⟨queues, s.setCtx_ctxs_wf c x ctxs⟩, fun j => ?_, fun _ => ⟨rfl, rfl⟩⟩
  by_cases same : j = c
  · rw [same, s.setCtx_ctx_same c x ctxs]
    exact ⟨state, gen⟩
  · rw [s.setCtx_ctx_other x same]
    exact ⟨rfl, rfl⟩

theorem State.setQueue_stands (q : Nat) (x : Queue) (state : x.state = (s.queue q).state)
    (err : x.err = (s.queue q).err) : s.Stands (s.setQueue q x) := by
  intro ⟨queues, ctxs⟩
  refine ⟨⟨s.setQueue_queues_wf q x queues, ctxs⟩, fun _ => ⟨rfl, rfl⟩, fun j => ?_⟩
  by_cases same : j = q
  · rw [same, s.setQueue_queue_same q x queues]
    exact ⟨state, err⟩
  · rw [s.setQueue_queue_other x same]
    exact ⟨rfl, rfl⟩

theorem State.modAcct_stands (c : Nat) (f : Acct → Acct) : s.Stands (s.modAcct c f) := s.setCtx_stands c _ rfl rfl

theorem State.modCore_stands (k : Nat) (f : Core → Core) : s.Stands (s.modCore k f) := .of_tables rfl rfl

theorem State.useFree_stands : s.Stands s.useFree := .of_tables rfl rfl

/-! ## Furrows, waits and cores -/

theorem State.drive_stands (o : Out) : s.Stands (s.drive o) := .of_tables rfl rfl

theorem State.discardWhere_stands (p : Entry → Bool) : s.Stands (s.discardWhere p) :=
  .forAll s _ fun x f => by
    unfold State.discard
    split <;> exact .of_tables rfl rfl

theorem State.removeEntries_stands (p : Entry → Bool) : s.Stands (s.removeEntries p) :=
  (s.discardWhere_stands p).after (State.wakeLent_queues _) (State.driveAll_ctxs _ _)

theorem State.beginPause_stands (c : Nat) : s.Stands (s.beginPause c) :=
  (s.discardWhere_stands _).after rfl rfl

theorem State.countBreaks_stands (q n : Nat) : s.Stands (s.countBreaks q n) := by
  unfold State.countBreaks
  split
  · refine .forAll s _ fun x u => ?_
    dsimp only
    split
    · exact (State.beginPause_stands _ _).before rfl rfl
    · exact .of_tables rfl rfl
  · exact .refl s

theorem State.wakeSync_stands (k : Nat) : s.Stands (s.wakeSync k) :=
  .forAll s _ fun x fr => by
    split
    · split
      · exact (x.readyRun_background k fr).stands
      · exact .refl x
    · exact .refl x

theorem State.setPort_stands (k i : Nat) (p : Option Port) : s.Stands (s.setPort k i p) :=
  (State.wakeSync_stands _ k).before rfl rfl

theorem State.wakeCredit_stands (k i : Nat) : s.Stands (s.wakeCredit k i) := by
  unfold State.wakeCredit
  split
  · exact (s.readyRun_background k _).stands
  · exact .refl s

theorem State.streamEnd_stands (d : Node) (committed : Bool) : s.Stands (s.streamEnd d committed) := by
  unfold State.streamEnd
  split
  · exact .refl s
  · split
    · exact .refl s
    · exact (s.setPort_stands _ _ _).trans (State.wakeCredit_stands _ _ _)

theorem State.issueDone_stands (k call i : Nat) (res : BitVec 8 × BitVec 16) :
    s.Stands (s.issueDone k call i res) := by
  have wakes (fr : Nat) (r : Run) : s.Stands ((s.setRun k fr r).readyRun k fr) :=
    (State.readyRun_background _ k fr).stands.before rfl rfl
  unfold State.issueDone
  dsimp only
  split
  · exact .refl s
  · split
    · exact .refl s
    · split
      · split
        · exact wakes _ _
        · exact .of_tables rfl rfl
      · split
        · exact wakes _ _
        · exact .of_tables rfl rfl
      · exact .of_tables rfl rfl

theorem State.sendHive_stands (p : Nat) (m : HiveFrame) : s.Stands (s.sendHive p m) := by
  unfold State.sendHive
  split
  · exact .refl s
  · exact s.drive_stands _

theorem State.cancelWaits_stands (p : Owner → Bool) : s.Stands (s.cancelWaits p) :=
  (State.Stands.foldl _ _ fun x _ => x.sendHive_stands _ _).before rfl rfl

theorem State.flushLine_stands (k i : Nat) : s.Stands (s.flushLine k i) := by
  unfold State.flushLine
  split
  · split
    · split
      · exact .refl s
      · exact (s.setPort_stands _ _ _).trans (State.drive_stands _ _)
    · exact .refl s
  · exact .refl s

theorem State.endPort_stands (k i : Nat) : s.Stands (s.endPort k i) := by
  unfold State.endPort
  split
  · split
    · exact .refl s
    · split
      · split
        · exact (s.flushLine_stands k i).trans (State.setPort_stands _ _ _ _)
        · exact (s.setPort_stands _ _ _).trans (State.flushLine_stands _ k i)
      · exact s.setPort_stands _ _ _
  · exact .refl s

theorem State.leaveCore_stands (k : Nat) : s.Stands (s.leaveCore k) := by
  unfold State.leaveCore
  split
  · exact .refl s
  · dsimp only
    split
    · exact (s.useFree_stands.trans (State.modAcct_stands _ _ _)).trans (State.modCore_stands _ _ _)
    · exact s.modCore_stands _ _

theorem State.letGo_stands (h : Handle) : s.Stands (s.letGo h) := by
  unfold State.letGo
  split
  · exact .refl s
  · exact ((s.freeLines_background _ _).trans (State.wakeIssuers_background _)).stands

/-- A core's frame clears, its dead ports go, and it takes another run. -/
theorem State.vacateFrame_stands (k : Nat) (f : Core → Core) (hs : List Handle) :
    s.Stands (hs.foldl State.letGo ((s.modCore k f).pickRun k)) :=
  ((s.modCore_stands k f).trans (State.pickRun_background _ k).stands).trans (.foldl _ hs State.letGo_stands)

theorem State.endRun_stands (k fr : Nat) : s.Stands (s.endRun k fr) := by
  unfold State.endRun
  split
  · exact .refl s
  · next r _ =>
    have ports := State.Stands.forAll s (s.callPorts k r.call) fun x i => x.endPort_stands k i
    have waits := ports.trans (State.cancelWaits_stands _ fun o => match o with
      | .run k' fr' _ => k' == k && fr' == fr
      | _ => false)
    dsimp only
    refine .trans ?_ (State.vacateFrame_stands _ k _ r.handles)
    split
    · exact waits.trans (State.leaveCore_stands _ k)
    · exact waits

theorem State.stopCall_stands (n : Nat) (d : Node) : s.Stands (s.stopCall n d) := by
  unfold State.stopCall
  dsimp only
  split
  · exact (s.modCore_stands _ _).trans (State.endRun_stands _ _ _)
  · exact s.modCore_stands _ _

theorem State.stopSheaves_stands (ns : List Nat) : s.Stands (s.stopSheaves ns) :=
  (s.cancelWaits_stands _).trans <| .forAll _ ns fun x n => by
    split
    · split
      · exact (x.stopCall_stands n _).trans (State.modCore_stands _ _ _)
      · exact .refl x
    · exact .refl x

/-! ## Retirement and withdrawal (R71) -/

theorem State.freeNode_stands (n : Nat) : s.Stands (s.freeNode n) := by
  cases h : s.node n with
  | none => simpa only [State.freeNode, h] using State.Stands.refl s
  | some d => exact (s.freeNode_background h).stands.before rfl rfl

theorem State.queueScale_stands (d : Node) : s.Stands (s.queueScale d) := by
  obtain ⟨_, e⟩ := s.queueScale_eq d
  rw [e]
  exact .of_tables rfl rfl

theorem State.checkAbortBusy_stands : s.Stands s.checkAbortBusy := by
  unfold State.checkAbortBusy
  split <;> exact .of_tables rfl rfl

theorem State.tallyEnd_stands (d : Node) : s.Stands (s.tallyEnd d) := by
  unfold State.tallyEnd
  split
  · exact .of_tables (by simp) (by simp)
  · exact .refl s

theorem State.putRecord_stands (r : Record) : s.Stands (s.putRecord r) := by
  unfold State.putRecord
  dsimp only
  split
  · exact s.setQueue_stands _ _ rfl rfl
  · exact (s.setQueue_stands r.queue { s.queue r.queue with recWritten := (s.queue r.queue).recWritten + 1 } rfl
      rfl).after rfl rfl

theorem Queue.advance_stands (x : Queue) (k : Nat) :
    (x.advance k).state = x.state ∧ (x.advance k).err = x.err := by
  induction k generalizing x with
  | zero => exact ⟨rfl, rfl⟩
  | succ k ih =>
    unfold Queue.advance
    split
    · split
      · exact ⟨rfl, rfl⟩
      · exact ih _
    · exact ⟨rfl, rfl⟩

theorem State.advanceQueue_stands (q : Nat) : s.Stands (s.advanceQueue q) := by
  obtain ⟨_, e⟩ := s.writeQueue_eq q (((s.queue q).advance 4097).dropBranches)
  obtain ⟨state, err⟩ := (s.queue q).advance_stands 4097
  rw [State.advanceQueue, e]
  exact (s.setQueue_stands q (((s.queue q).advance 4097).dropBranches) state err).after rfl rfl

theorem State.retireSeq_stands (q : Nat) (seq : Word) (tag : BitVec 32) (gen : BitVec 12) (fin : Final)
    (node : Option Nat) : s.Stands (s.retireSeq q seq tag gen fin node) := by
  have recorded : s.Stands (s.recorded q seq tag gen fin node) := by
    have marked : s.Stands (s.markRetired q seq tag fin.status fin.executed node.isSome) :=
      s.setQueue_stands q _ rfl rfl
    unfold State.recorded
    dsimp only
    split
    · exact marked.trans (State.putRecord_stands _ _)
    · exact marked
  have vacated (held : Bool) (u : State) : u.Stands (u.vacated held fin node) := by
    cases node with
    | none => exact .refl u
    | some n => cases held with
      | true => exact .of_tables rfl rfl
      | false => exact u.freeNode_stands n
  have concluded (u : State) (c : Nat) (w1 : Word) : u.Stands (u.concluded q c w1) :=
    (((u.advanceQueue_stands q).trans (State.traceRec_background _ 3 q (some c) w1).stands).trans
      (State.modAcct_stands _ c _)).trans (State.countBreaks_stands _ q 1)
  obtain ⟨w1, e⟩ := s.retireSeq_eq q seq tag gen fin node
  rw [e]
  exact (recorded.trans (vacated _ _)).trans (concluded _ _ w1)

theorem State.settleEdges_stands (hit : EdgeTarget → Bool) (zero : Bool) : s.Stands (s.settleEdges hit zero) :=
  .of_tables rfl rfl

theorem State.retireQueued_stands (n : Nat) (d : Node) (fin : Final) : s.Stands (s.retireQueued n d fin) := by
  have retired := (s.queueScale_stands d).trans (State.retireSeq_stands _ d.queue d.seq d.tag d.gen fin (some n))
  have settled := retired.trans (State.settleEdges_stands _ (EdgeTarget.isSeq d.queue d.seq.toNat)
    (fin.executed == 0))
  exact (settled.trans (State.checkAbortBusy_stands _)).trans (State.tallyEnd_stands _ d)

theorem State.restartTimer_stands (n : Nat) : s.Stands (s.restartTimer n) := .of_tables rfl rfl

theorem State.endCall_stands (call : Nat) : s.Stands (s.endCall call) := by
  unfold State.endCall
  split
  · split
    · split
      · exact s.retireQueued_stands _ _ _
      · exact .refl s
    · exact .refl s
  · exact .refl s

theorem State.retireChild_stands (n : Nat) (d : Node) (call i : Nat) (fin : Final) :
    s.Stands (s.retireChild n d call i fin) := by
  have ended := (s.queueScale_stands d).trans (State.streamEnd_stands _ d false)
  have traced := (ended.trans (State.freeNode_stands _ n)).trans (State.traceRec_background _ 3 d.queue (some d.ctx)
    (traceW1 d.tag (fin.status.toNat * 2 ^ 24 + d.seq.toNat % 2 ^ 20))).stands
  have settled := traced.trans (State.settleEdges_stands _ (EdgeTarget.isIssue i) (fin.executed == 0))
  exact ((settled.trans (State.issueDone_stands _ _ call i (fin.status, BitVec.ofNat 16 fin.executed))).trans
    (State.restartTimer_stands _ call)).trans (State.endCall_stands _ call)

theorem State.retire_stands (n : Nat) (fin : Final) : s.Stands (s.retire n fin) := by
  unfold State.retire
  split
  · exact .refl s
  · split
    · exact s.retireChild_stands _ _ _ _ _
    · exact s.retireQueued_stands _ _ _

/-- A command that ends without completing takes its SETWINDOWS back, and no more of any context (R284). -/
theorem State.dropCommand_stands (n : Nat) : s.Stands (s.dropCommand n) := by
  intro ⟨queues, ctxs⟩
  let drop := fun (_ : Nat) (x : Ctx) => if x.setwin = some n then { x with setwin := none } else x
  have read (c : Nat) : (s.dropCommand n).ctx c = drop c (s.ctx c) := Tbl.get_mapAll (f := drop) rfl ctxs
  refine ⟨⟨queues, Tbl.wf_mapAll (d := ({} : Ctx)) drop ctxs⟩, fun c => ?_, fun _ => ⟨rfl, rfl⟩⟩
  rw [read]
  dsimp only [drop]
  split <;> exact ⟨rfl, rfl⟩

theorem State.settleWithdrawn_stands (q : Nat) (seq : Word) (zero : Bool) :
    s.Stands (s.settleWithdrawn q seq zero) := by
  unfold State.settleWithdrawn
  split <;> exact .of_tables rfl rfl

theorem State.withdraw1_stands (n : Nat) : s.Stands (s.withdraw1 n) := by
  unfold State.withdraw1
  split
  · exact .refl s
  · next d _ =>
    have scaled : s.Stands (if (s.ctx d.ctx).gen = d.gen then s.queueScale d else s) := by
      split
      · exact s.queueScale_stands d
      · exact .refl s
    have freed := (scaled.trans (State.dropCommand_stands _ n)).trans (State.freeNode_stands _ n)
    have traced := freed.trans (State.traceRec_background _ 3 d.queue (some d.ctx)
      (traceW1 d.tag (stWithdrawn.toNat * 2 ^ 24 + d.seq.toNat % 2 ^ 20))).stands
    dsimp only
    split
    · exact traced.trans (State.settleEdges_stands _ _ _)
    · have marked := traced.trans (u := State.markRetired _ d.queue d.seq d.tag stWithdrawn d.executed true)
        (State.setQueue_stands _ d.queue _ rfl rfl)
      have settled := (marked.trans (State.modAcct_stands _ d.ctx fun a => { a with retired := a.retired + 1 })).trans
        (State.settleWithdrawn_stands _ d.queue d.seq (d.executed == 0))
      exact (settled.trans (State.countBreaks_stands _ d.queue 1)).trans (State.tallyEnd_stands _ d)

theorem State.withdrawQueue_stands (q : Nat) (detail : BitVec 32) : s.Stands (s.withdrawQueue q detail) := by
  have withdrawn := State.Stands.forAll s (s.unretired q) fun x n => x.withdraw1_stands n
  unfold State.withdrawQueue
  dsimp only
  refine .trans ?_ ((State.advanceQueue_stands _ q).trans (State.checkAbortBusy_stands _))
  split
  · exact withdrawn
  · exact withdrawn.trans (.foldl _ _ fun x r => x.putRecord_stands r)

/-! ## The steps of a teardown (R291) -/

theorem State.refuseSetwin_stands (c : Nat) : s.Stands (s.refuseSetwin c) := by
  unfold State.refuseSetwin
  split
  · have ended : s.Stands (s.modCtx c fun x => { x with setwin := none }) := s.setCtx_stands c _ rfl rfl
    dsimp only
    split
    · exact ended.trans (State.retire_stands _ _ _)
    · exact ended
  · exact .refl s

theorem State.writeSlot_stands (i : Nat) (x : Slot) : s.Stands (s.writeSlot i x) := by
  obtain ⟨_, e⟩ := s.writeSlot_eq i x
  rw [e]
  exact .of_tables rfl rfl

theorem State.tearRemove_stands (c : Nat) : s.Stands (s.tearRemove c) := by
  have stopped := (s.removeEntries_stands fun e => e.ctx == c).trans (State.stopSheaves_stands _
    (s.nodesWhere fun _ d => d.ctx == c && decide (d.phase ≠ .heldRecord)))
  exact stopped.trans ((State.Stands.forAll _ _ fun x i => x.writeSlot_stands i {}).before rfl rfl)

theorem State.abortRuns_stands (p : Entry → Bool) (cause : AbortCause) : s.Stands (s.abortRuns p cause) :=
  .forAll s _ fun x f => by split <;> exact .of_tables rfl rfl

theorem State.sendNotice_stands (p : Nat) (dest : BitVec 14) (n0 n1 : Word) : s.Stands (s.sendNotice p dest n0 n1) := by
  unfold State.sendNotice
  split <;> exact .of_tables rfl rfl

theorem State.retireDoomed_stands (p : Node → Bool) : s.Stands (s.retireDoomed p) :=
  .forAll s _ fun x n => by
    split
    · split
      · exact (x.dropCommand_stands n).trans (State.retire_stands _ n _)
      · exact .refl x
    · exact .refl x

end Stands

end Sys2Proof.Machine
end

section
/-! The teardown of a context (R291). -/

namespace Sys2Proof.Machine

/-! ## The stop (step 1) -/

/-- The queues that the teardown of context c stops. -/
def State.queuesToStop (s : State) (c : Nat) : List Nat :=
  s.queues.keys fun _ x => decide (x.ctx = c) && decide (x.state ≠ .free) && decide (x.state ≠ .busy)

theorem State.mem_queuesToStop {s : State} {c q : Nat} (ctx : (s.queue q).ctx = c) (taken : (s.queue q).state ≠ .free)
    (kept : (s.queue q).state ≠ .busy) : q ∈ s.queuesToStop c := by
  have listed : (q, s.queue q) ∈ s.queues := Tbl.mem_of_get fun e => taken (congrArg Queue.state e)
  exact List.mem_map_of_mem (List.mem_filter.mpr ⟨listed, by simp [ctx, taken, kept]⟩)

/-- Every queue listed stops with ERR 6 (R61, R291). -/
def State.stopAll (s : State) (qs : List Nat) : State := s.forAll qs fun s q => s.queueError q 0x06

/-- Context c before its queues stop. -/
def State.inTeardown (s : State) (c : Nat) : State := s.modCtx c fun x => { x with state := .teardown }

/-- Behind its queues a teardown stops the break units, and the context gets its new generation and its drain limit. -/
theorem State.tearStop_eq (s : State) (c : Nat) : ∃ units due, s.tearStop c =
    { (s.inTeardown c).stopAll (s.queuesToStop c) with breaks := units }.modCtx c fun x =>
      { x with gen := x.gen + 1, drainDue := due, acks := [] } := ⟨_, _, rfl⟩

theorem State.queueError_queue {s : State} (hs : s.Canonical) (q : Nat) (err : BitVec 8) (j : Nat) :
    (s.queueError q err).queue j = if j = q then { s.queue q with
      state := .stopped, err := err, fetched := [], reading := 0, partialAtTail := false } else s.queue j := by
  have raised (u : State) (e : Event) : (u.raise e).queue j = u.queue j := by simp [State.queue]
  rw [State.queueError, State.queueErrorOf, raised]
  split
  · next same =>
    subst same
    exact s.setQueue_queue_same j _ (State.canonical_queues hs)
  · next other => exact s.setQueue_queue_other _ other

theorem State.stopAll_ctxs (s : State) (qs : List Nat) : (s.stopAll qs).ctxs = s.ctxs :=
  State.forAll_keep (·.ctxs) s qs _ fun x q => by simp [State.queueError, State.queueErrorOf]

/-- A queue that is listed stops, and one that has stopped with ERR 6 stays so. -/
theorem State.stopAll_stops {s : State} (hs : s.Canonical) {qs : List Nat} {q : Nat}
    (h : q ∈ qs ∨ (s.queue q).state = .stopped ∧ (s.queue q).err = 0x06) :
    ((s.stopAll qs).queue q).state = .stopped ∧ ((s.stopAll qs).queue q).err = 0x06 := by
  induction qs generalizing s with
  | nil => exact h.resolve_left List.not_mem_nil
  | cons j qs ih =>
    refine ih (State.queueError_canonical s j 0x06 hs) ?_
    rw [State.queueError_queue hs]
    by_cases here : q = j
    · exact .inr (by simp [here])
    · rw [if_neg here]
      exact h.imp_left fun listed => (List.mem_cons.mp listed).resolve_left here

theorem State.tearStop_queue {s : State} (hs : s.Canonical) {c q : Nat} (ctx : (s.queue q).ctx = c)
    (taken : (s.queue q).state ≠ .free) (kept : (s.queue q).state ≠ .busy) :
    ((s.tearStop c).queue q).state = .stopped ∧ ((s.tearStop c).queue q).err = 0x06 := by
  obtain ⟨_, _, e⟩ := s.tearStop_eq c
  rw [e]
  exact State.stopAll_stops (State.modCtx_canonical s c _ hs) (.inl (State.mem_queuesToStop ctx taken kept))

theorem State.tearStop_ctx {s : State} (hs : s.Canonical) (c : Nat) :
    ((s.tearStop c).ctx c).state = .teardown ∧ ((s.tearStop c).ctx c).gen = (s.ctx c).gen + 1 ∧
    ∀ c', c' ≠ c → (s.tearStop c).ctx c' = s.ctx c' := by
  obtain ⟨units, _, e⟩ := s.tearStop_eq c
  let u : State := { (s.inTeardown c).stopAll (s.queuesToStop c) with breaks := units }
  have ctxs : u.ctxs = (s.inTeardown c).ctxs := State.stopAll_ctxs _ _
  have wf : Tbl.wf ({} : Ctx) u.ctxs = true := ctxs ▸ s.setCtx_ctxs_wf c _ (State.canonical_ctxs hs)
  have same (c' : Nat) : u.ctx c' = (s.inTeardown c).ctx c' := by simp only [State.ctx, ctxs]
  have own : u.ctx c = { s.ctx c with state := .teardown } :=
    (same c).trans (s.setCtx_ctx_same c _ (State.canonical_ctxs hs))
  have others (c' : Nat) (other : c' ≠ c) : u.ctx c' = s.ctx c' :=
    (same c').trans (s.setCtx_ctx_other _ other)
  rw [e, State.modCtx, u.setCtx_ctx_same c _ wf, own]
  exact ⟨rfl, rfl, fun c' other => (u.setCtx_ctx_other _ other).trans (others c' other)⟩

/-! ## The rest (steps 2 to 7) -/

/-- Steps 2 to 5: the work of context c, of partition `part` and generation `old` before, ends. -/
def State.tearWork (s : State) (c : Nat) (cause : BitVec 8) (part : Nat) (old : BitVec 12) : State :=
  let s := ((s.refuseSetwin c).tearRemove c).abortRuns (fun e => e.ctx == c) .teardown
  let s := if isSystem c then s else s.sendNotice part 0x3FFF (noticeN0 2 0 c old.toNat) 0
  let s := s.retireDoomed fun d => d.ctx == c
  let qs := sortNats ((s.nodes.filterMap fun e => match e.2 with
    | some d => if d.ctx = c ∧ d.phase ≠ .heldRecord then some d.queue else none
    | none => none))
  s.forAll qs fun s q => s.withdrawQueue q (withdrawDetail 1 cause.toNat)

/-- Step 7, or the wait for the acknowledgements of the engines that still run the context. -/
def State.tearEnd (s : State) (c : Nat) : State :=
  let fs := s.runsWhere fun e => e.ctx == c
  if fs = [] then s.tearDone c else s.modCtx c fun x => { x with acks := fs }

theorem State.teardown_eq (s : State) (c : Nat) (cause : BitVec 8) :
    s.teardown c cause = ((s.tearStop c).tearWork c cause (s.ctx c).part (s.ctx c).gen).tearEnd c := rfl

theorem State.tearWork_stands (s : State) (c : Nat) (cause : BitVec 8) (part : Nat) (old : BitVec 12) :
    s.Stands (s.tearWork c cause part old) := by
  have aborted := ((s.refuseSetwin_stands c).trans (State.tearRemove_stands _ c)).trans
    (State.abortRuns_stands _ (fun e => e.ctx == c) .teardown)
  unfold State.tearWork
  dsimp only
  refine .trans ?_ ((State.retireDoomed_stands _ fun d => d.ctx == c).trans
    (.forAll _ _ fun x q => x.withdrawQueue_stands q (withdrawDetail 1 cause.toNat)))
  split
  · exact aborted
  · exact aborted.trans (State.sendNotice_stands _ part 0x3FFF (noticeN0 2 0 c old.toNat) 0)

/-- The end changes the context's own entry only: it is DRAINING or FREE, or still in TEARDOWN. -/
theorem State.tearEnd_ctx {s : State} {c : Nat} (torn : (s.ctx c).state = .teardown) :
    ∃ x : Ctx, x.state ∈ [.teardown, .draining, .free] ∧ x.gen = (s.ctx c).gen ∧
      (s.setCtx c x).Stands (s.tearEnd c) := by
  unfold State.tearEnd
  dsimp only
  split
  · let x : Ctx := if (s.ctx c).drain = 0 then { s.ctx c with state := .free, windows := [], acks := [] }
      else { s.ctx c with state := .draining, acks := [] }
    have done : (s.setCtx c x).Stands (s.tearDone c) :=
      (State.Stands.forAll _ _ fun y n => y.retire_stands n _).before rfl rfl
    refine ⟨x, ?_, ?_, done⟩
    · dsimp only [x]
      split <;> simp
    · dsimp only [x]
      split <;> rfl
  · let x : Ctx := { s.ctx c with acks := s.runsWhere fun e => e.ctx == c }
    exact ⟨x, by simp [x, torn], rfl, .refl (s.setCtx c x)⟩

/-- A teardown of a context (R291): it leaves its state, its generation rises, its queues stop with ERR 6, and every
other context keeps its generation. -/
theorem State.teardown_stops {s : State} (hs : s.Canonical) (c : Nat) (cause : BitVec 8) :
    ((s.teardown c cause).ctx c).state ∈ [.teardown, .draining, .free] ∧
    ((s.teardown c cause).ctx c).gen = (s.ctx c).gen + 1 ∧
    (∀ q, (s.queue q).ctx = c → (s.queue q).state ≠ .free → (s.queue q).state ≠ .busy →
      ((s.teardown c cause).queue q).state = .stopped ∧ ((s.teardown c cause).queue q).err = 0x06) ∧
    ∀ c', c' ≠ c → ((s.teardown c cause).ctx c').gen = (s.ctx c').gen := by
  obtain ⟨torn, raised, others⟩ := State.tearStop_ctx hs c
  let t := (s.tearStop c).tearWork c cause (s.ctx c).part (s.ctx c).gen
  obtain ⟨orderly, ctxs, queues⟩ := (s.tearStop c).tearWork_stands c cause (s.ctx c).part (s.ctx c).gen
    (State.tearStop_canonical s c hs).orderly
  obtain ⟨state, gen⟩ := ctxs c
  obtain ⟨x, ends, sameGen, rest⟩ := State.tearEnd_ctx (s := t) (c := c) (state.trans torn)
  have ⟨queuesWf, ctxsWf⟩ := orderly
  obtain ⟨-, ctxs', queues'⟩ := rest ⟨queuesWf, t.setCtx_ctxs_wf c x ctxsWf⟩
  obtain ⟨state', gen'⟩ := ctxs' c
  rw [t.setCtx_ctx_same c x ctxsWf] at state' gen'
  rw [s.teardown_eq]
  refine ⟨state' ▸ ends, ?_, fun q ctx taken kept => ?_, fun c' other => ?_⟩
  · exact gen'.trans (sameGen.trans (gen.trans raised))
  · obtain ⟨stopped, err⟩ := State.tearStop_queue hs ctx taken kept
    exact ⟨(queues' q).1.trans ((queues q).1.trans stopped), (queues' q).2.trans ((queues q).2.trans err)⟩
  · rw [(ctxs' c').2, t.setCtx_ctx_other x other, (ctxs c').2, others c' other]

/-- Settles O24: the request is dropped or performed, and `State.teardown_stops` says what the teardown does. -/
theorem teardownStopsTheContext : Obligations.TeardownStopsTheContext := by
  intro c r s isC working asked t
  refine ⟨?_, fun hs _ => State.teardown_stops (s := t) hs c r.cause⟩
  show execTeardown c s = _
  simp only [execTeardown, ok_pos isC, working, State.when_true, asked]
  rfl

end Sys2Proof.Machine
end

section
/-! CTXCTL (R281-R285, R304): CREATE, TEARDOWN, SETWINDOWS and READACCT, and the end of their checker load. -/

namespace Sys2Proof.Machine
open Sys2Proof.Claim

/-- The record of a queue of the PF goes to device memory, another queue's to the windows of its context. -/
def State.acctFits (s : State) (d : Node) : Bool :=
  if (s.queue d.queue).kind = .pf then s.inDevice (aw d.lines 1).toNat 128
  else s.insideCtx d.ctx (aw d.lines 1).toNat 128 true

section Commands
variable {s : State} {n c : Nat} {d : Node} {detail : BitVec 32} (names : fld (aw d.lines 0) 25 16 = c)
include names

/-! ## CREATE (R276, R282, R283) -/

section Create
variable (h : Kernel s n d opCtxctl 0)
include h

theorem ctxctlCreate_refuses (why : isSystem c = true ∨ (s.ctx c).state ≠ .free ∨ s.ctxNamed c = true ∨
    s.inService (halfOfCtx c) = false) : exec (.ctxctlCreate n) s = .next (s.refuse n d 0 16) := by
  refine (kernelStep_acts h _).trans ?_
  simp only [names]
  rw [if_pos (by simpa [or_assoc] using why)]

variable {p : Nat} (part : fld (aw d.lines 0) 29 26 = p) (plain : isSystem c = false)
  (free : (s.ctx c).state = .free) (unnamed : s.ctxNamed c = false) (served : s.inService (halfOfCtx c) = true)
include part plain free unnamed served

theorem ctxctlCreate_undefined (undefined : (s.part p).defined = false) :
    exec (.ctxctlCreate n) s = .next (s.refuse n d 0 26) := by
  refine (kernelStep_acts h _).trans ?_
  simp [names, part, plain, free, unnamed, served, undefined]

variable (defined : (s.part p).defined = true)
include defined

theorem ctxctlCreate_badWindow (bad : s.badWindow c p d.lines = some detail) :
    exec (.ctxctlCreate n) s = .next (s.retireWith n stFormat 0 detail) := by
  refine (kernelStep_acts h _).trans ?_
  simp [names, part, plain, free, unnamed, served, defined, bad]

theorem ctxctlCreate_creates (good : s.badWindow c p d.lines = none) :
    exec (.ctxctlCreate n) s = .next (((s.setCtx c { s.ctx c with
      state := .live, part := p, windows := setWindows [] d.lines, acct := {}, drain := 0 }).setNode n
        (some { d with phase := .kernel })).loadCheckers c) := by
  refine (kernelStep_acts h _).trans ?_
  simp [names, part, plain, free, unnamed, served, defined, good]

end Create

/-! ## TEARDOWN (R283, R291) -/

section Teardown
variable (h : Kernel s n d opCtxctl 1)
include h

theorem ctxctlTeardown_refuses (why : c = d.ctx ∨ s.inService (halfOfCtx c) = false ∨ (s.ctx c).state = .free) :
    exec (.ctxctlTeardown n) s = .next (s.refuse n d 0 16) := by
  refine (kernelStep_acts h _).trans ?_
  simp only [names]
  split
  · rfl
  · next may =>
    have free : (s.ctx c).state = .free := (or_assoc.mpr why).resolve_left may
    rw [free]

variable (other : c ≠ d.ctx) (served : s.inService (halfOfCtx c) = true)
include other served

theorem ctxctlTeardown_done (torn : (s.ctx c).state = .draining ∨ (s.ctx c).state = .quarantined) :
    exec (.ctxctlTeardown n) s = .next (s.retireWith n stDone 1 0) := by
  refine (kernelStep_acts h _).trans ?_
  rcases torn with torn | torn <;> simp [names, other, served, torn]

theorem ctxctlTeardown_tears (live : (s.ctx c).state = .live) (unasked : s.tears.any (fun t => t.ctx == c) = false) :
    exec (.ctxctlTeardown n) s = .next ((s.setNode n (some { d with phase := .kernel })).teardown c 0x00) := by
  refine (kernelStep_acts h _).trans ?_
  simp only [names, State.setNode_tears, other, served, live, unasked, Bool.true_eq_false, or_self, Bool.false_eq_true,
    if_false]

end Teardown

/-! ## SETWINDOWS (R284) -/

section Setwindows
variable (h : Kernel s n d opCtxctl 2)
include h

theorem ctxctlSetwindows_refuses (why : (s.ctx c).state ≠ .live ∨ s.inService (halfOfCtx c) = false) :
    exec (.ctxctlSetwindows n) s = .next (s.refuse n d 0 16) := by
  refine (kernelStep_acts h _).trans ?_
  simp only [names]
  rw [if_pos why]

variable (live : (s.ctx c).state = .live) (served : s.inService (halfOfCtx c) = true)
include live served

theorem ctxctlSetwindows_badWindow (bad : s.badWindow c (s.ctx c).part d.lines = some detail) :
    exec (.ctxctlSetwindows n) s = .next (s.retireWith n stFormat 0 detail) := by
  refine (kernelStep_acts h _).trans ?_
  simp [names, live, served, bad]

theorem ctxctlSetwindows_pauses (good : s.badWindow c (s.ctx c).part d.lines = none)
    (unset : (s.ctx c).setwin = none) :
    exec (.ctxctlSetwindows n) s = .next (((s.setCtx c { s.ctx c with setwin := some n }).setNode n
      (some { d with phase := .kernel })).discardWhere fun e => e.ctx == c) := by
  refine (kernelStep_acts h _).trans ?_
  simp [names, live, served, good, unset]

end Setwindows

/-! ## READACCT (R285, R304) -/

section Readacct
variable (h : Kernel s n d opCtxctl 3)
include h

theorem ctxctlReadacct_refuses (lost : s.inService (halfOfCtx c) = false) :
    exec (.ctxctlReadacct n) s = .next (s.refuse n d 0 16) := by
  refine (kernelStep_acts h _).trans ?_
  simp [names, lost]

variable (served : s.inService (halfOfCtx c) = true)
include served

theorem ctxctlReadacct_outside (outside : s.acctFits d = false) :
    exec (.ctxctlReadacct n) s = .next (s.doom n d
      { status := stWindow, executed := 0, detail := 0xFFD0FFFF, furrow := noFurrow }
      { d.event (srcFrontEnd d.half) kWindow .contain stWindow 0xFFD0FFFF noFurrow with address := aw d.lines 1 }) := by
  refine (kernelStep_acts h _).trans ?_
  simp only [State.acctFits] at outside
  simp [names, served, outside]

theorem ctxctlReadacct_writes (inside : s.acctFits d = true) :
    exec (.ctxctlReadacct n) s = .next ((s.drive (.memWrite (s.stampOf d.ctx d.gen) false (aw d.lines 1)
      (s.acctWords c))).retireWith n stDone 1 0) := by
  refine (kernelStep_acts h _).trans ?_
  simp only [State.acctFits] at inside
  simp [names, served, inside]

end Readacct

end Commands

theorem ctxctlActsOnItsContextParts : CtxctlActsOnItsContextParts := by
  intro n d s c p waiting
  exact ⟨fun h plain free unnamed served defined good =>
      ctxctlCreate_creates rfl h rfl plain free unnamed served defined good,
    fun h other served live unasked => ctxctlTeardown_tears rfl h other served live unasked,
    fun h live served good unset => ctxctlSetwindows_pauses rfl h live served good unset,
    fun h why => ctxctlCreate_refuses rfl h why,
    fun h plain free unnamed served =>
      ⟨fun undefined => ctxctlCreate_undefined rfl h rfl plain free unnamed served undefined,
        fun _ defined bad => ctxctlCreate_badWindow rfl h rfl plain free unnamed served defined bad⟩,
    fun h why => ctxctlTeardown_refuses rfl h why,
    fun h other served torn => ctxctlTeardown_done rfl h other served torn,
    fun h why => ctxctlSetwindows_refuses rfl h why,
    fun h live served _ bad => ctxctlSetwindows_badWindow rfl h live served bad,
    fun h lost => ctxctlReadacct_refuses rfl h lost,
    fun h served outside => ctxctlReadacct_outside rfl h served outside,
    fun h served inside => ctxctlReadacct_writes rfl h served inside⟩

theorem checkersLoadedEndsTheCommand : CheckersLoadedEndsTheCommand := by
  intro n d s slot working node phase opcode c
  refine ⟨fun create => ?_, fun setwindows waits idle => ?_⟩
  · show execWindowCheckersLoaded n s = _
    simp [execWindowCheckersLoaded, slot, working, node, phase, opcode, create]
  · show execWindowCheckersLoaded n s = _
    simp only [execWindowCheckersLoaded, ok_pos slot, working, State.when_true, node]
    rw [if_neg (by simp [setwindows]), if_pos ⟨phase, opcode, setwindows, waits, idle⟩]
    rfl

/-- Settles O22 from its two parts. -/
theorem ctxctlActsOnItsContext : Obligations.CtxctlActsOnItsContext :=
  ⟨ctxctlActsOnItsContextParts, checkersLoadedEndsTheCommand⟩

end Sys2Proof.Machine
end

section
/-! What an event leaves of the furrows (R330, R345): an engine that runs nothing runs nothing after it. -/

namespace Sys2Proof.Machine

theorem State.Background.furrows {s t : State} (h : s.Background t) : t.furrows = s.furrows := by
  obtain ⟨_, _, _, _, _, _, _, _, _, _, rfl⟩ := h
  rfl

section Furrows
variable (s : State)

theorem State.sendMsix_furrows (v : Nat) : (s.sendMsix v).furrows = s.furrows := by
  unfold State.sendMsix
  repeat' split
  all_goals rfl

theorem State.openRecord_furrows (e : Event) (c : Class) (esc : Bool) :
    (s.openRecord e c esc).furrows = s.furrows := by
  unfold State.openRecord
  dsimp only
  split
  · rfl
  · split
    · exact (State.sendMsix_furrows _ 0).trans (State.traceRec_background _ _ _ _ _).furrows
    · exact (State.traceRec_background _ _ _ _ _).furrows

@[simp] theorem State.lifeAdd_furrows (i n : Nat) : (s.lifeAdd i n).furrows = s.furrows := (rfl)

@[simp] theorem State.lifeFault_furrows (source : Nat) (c : Class) : (s.lifeFault source c).furrows = s.furrows := (rfl)

theorem State.lifeEvent_furrows (e : Event) (c : Class) : (s.lifeEvent e c).furrows = s.furrows := by
  unfold State.lifeEvent
  repeat' split
  all_goals simp

@[simp] theorem State.sbSend_furrows (st : Sideband) : (s.sbSend st).furrows = s.furrows := by
  unfold State.sbSend
  dsimp only
  split <;> rfl

@[simp] theorem State.startLoad_furrows : s.startLoad.furrows = s.furrows := by simp [State.startLoad]

@[simp] theorem State.countSeconds_furrows : s.countSeconds.furrows = s.furrows := by simp [State.countSeconds]

@[simp] theorem State.stampImage_furrows : s.stampImage.furrows = s.furrows := by
  unfold State.stampImage
  simp

@[simp] theorem State.startFlush_furrows : s.startFlush.furrows = s.furrows := by
  unfold State.startFlush
  simp

@[simp] theorem State.requestFlush_furrows : s.requestFlush.furrows = s.furrows := by
  unfold State.requestFlush
  repeat' split
  all_goals simp

@[simp] theorem State.noticeAll_furrows (n0 : Word) : (s.noticeAll n0).furrows = s.furrows :=
  State.forAll_keep (·.furrows) s _ _ fun x p => by
    unfold State.sendNotice
    split <;> rfl

theorem State.askTeardown_furrows (c : Nat) (cause : BitVec 8) (node : Option Nat) :
    (s.askTeardown c cause node).furrows = s.furrows := by
  unfold State.askTeardown
  split <;> rfl

theorem State.askReset_furrows (r : ResetReq) : (s.askReset r).furrows = s.furrows := by
  unfold State.askReset
  split <;> rfl

end Furrows

section Idle
variable {s : State} (hs : s.Canonical) {f : Nat} (idle : (s.furrow f).run = none)
include hs idle

/-- In the safe state no engine runs anything (R345). -/
theorem State.enterSafe_idle : (s.enterSafe.furrow f).run = none := by
  by_cases safe : s.recov.safe = true
  · simpa [State.enterSafe, safe] using idle
  · let stop := fun (_ : Nat) (x : Furrow) => { x with entries := [], shadow := none, run := none }
    have canonical := State.abortAll_canonical s (fun _ => true) hs
    have stopped : s.enterSafe.furrows = (s.abortAll fun _ => true).furrows.mapAll {} stop := by
      simp [State.enterSafe, safe, stop]
    rw [State.furrow, stopped, Tbl.get_mapAll rfl (State.canonical_furrows canonical)]

theorem State.act_idle (e : Event) (c : Class) (rec : Nat) (full : Bool) :
    ((s.act e c rec full).furrow f).run = none := by
  cases c with
  | note => exact idle
  | contain =>
    unfold State.act
    dsimp only
    split
    · rwa [State.furrow, State.askTeardown_furrows]
    · exact idle
  | severe =>
    unfold State.act
    dsimp only
    split
    · exact idle
    · rwa [State.furrow, State.askReset_furrows]
  | grave => exact State.enterSafe_idle hs idle

theorem State.raise_idle (e : Event) : ((s.raise e).furrow f).run = none := by
  let u := ((s.windowAfter e).countEvent e (s.classify e).2).lifeEvent e (s.classify e).1
  have canonical : u.Canonical :=
    State.lifeEvent_canonical _ _ _ (State.countEvent_canonical _ _ _ (State.windowAfter_canonical s e hs))
  have same : u.furrows = s.furrows := State.lifeEvent_furrows _ _ _
  unfold State.raise
  split
  · exact idle
  · dsimp only
    split
    · refine State.act_idle ?_ ?_ _ _ _ _
      · exact canonical
      · rwa [State.furrow, same]
    · refine State.act_idle (State.openRecord_canonical u _ _ _ canonical) ?_ _ _ _ _
      rwa [State.furrow, State.openRecord_furrows, same]

end Idle

end Sys2Proof.Machine
end

section
/-! The acknowledgements of teardowns, destroyed queues and memory, the drain limit (R289, R291, R293-R295), and window
violations (R281, R305). -/

namespace Sys2Proof.Machine
open Sys2Proof.Claim

/-! ## Acknowledgements (R291, R293-R295) -/

section Acks
variable {s : State} {c : Nat} {chipgen : BitVec 8}

theorem State.working_running (working : s.working = true) :
    s.power = .run ∧ s.recov.safe = false ∧ s.clocks.idle = .none ∧ s.recov.inprogress = false := by
  simpa [State.working, State.up, and_assoc] using working

theorem writeAck_step (isC : isCtx c) (working : s.working = true) (port : s.memOn = true) :
    exec (.writeAck ⟨c, chipgen⟩) s = .next (if chipgen = s.recov.chipgen then s.writeLanded c else s) := by
  obtain ⟨power, notSafe, awake, noReset⟩ := State.working_running working
  show execWriteAck ⟨c, chipgen⟩ s = _
  simp [execWriteAck, isC, power, notSafe, awake, noReset, port]

theorem State.writeLanded_counts (awaited : (s.ctx c).drain ≠ 0) :
    s.writeLanded c = s.setCtx c (if (s.ctx c).drain = 1 ∧ (s.ctx c).state = .draining
      then { s.ctx c with drain := 0, state := .free, windows := [] }
      else { s.ctx c with drain := (s.ctx c).drain - 1 }) := by
  unfold State.writeLanded
  dsimp only
  rw [if_neg awaited]
  split <;> rfl

end Acks

theorem contextsDrainToFreeParts : ContextsDrainToFreeParts := by
  refine ⟨fun c port s isC isP working torn awaited idle => ?_, fun q port s isQ isP working busy awaited idle => ?_,
    fun c chipgen s isC working port => ⟨fun same awaited => ?_, fun same none => ?_, fun old => ?_⟩,
    fun c s isC working draining due => ?_⟩
  · show execTeardownAck (.context c) port s = _
    simp only [execTeardownAck, ok_pos (And.intro isP isC), working, State.when_true, torn, awaited, idle, and_self,
      if_true]
  · have half : q / 4 < 1024 := by
      have : q < 4096 := isQ
      omega
    show execTeardownAck (.queue q) port s = _
    simp only [execTeardownAck, ok_pos (And.intro isP half), working, State.when_true, busy, awaited, idle, and_self,
      if_true]
  · rw [writeAck_step isC working port, if_pos same, State.writeLanded_counts awaited]
  · rw [writeAck_step isC working port, if_pos same, State.writeLanded]
    exact congrArg Host.Outcome.next (if_pos none)
  · rw [writeAck_step isC working port, if_neg old]
  · show execQuarantine c s = _
    simp only [execQuarantine, ok_pos isC, working, State.when_true, draining, due, and_self, if_true]

/-! ## Window violations (R281, R305) -/

section Violation
variable {s : State} {f : Nat} {r : EngineRun} {rep : EngineReport}

theorem State.runOver_runNode (r' : EngineRun) : (s.runOver f r rep).runNode r' = s.runNode r' := by
  simp only [State.runNode, State.node, State.runOver_nodes]

theorem State.runOver_stands : s.Stands (s.runOver f r rep) := by
  obtain ⟨free, g, e⟩ := s.account_eq f r rep true
  have accounted : s.Stands (s.account f r rep true) := by
    rw [e]
    exact (State.modAcct_stands { s with free := free } r.entry.ctx g).before rfl rfl
  exact (accounted.trans (State.traceRec_background _ 2 r.entry.queue (some r.entry.ctx)
    (traceW1 r.tag (traceRun f r.entry.member true))).stands).after rfl rfl

theorem State.runOver_leaves : (s.runOver f r rep).tears = s.tears ∧ (s.runOver f r rep).fuses = s.fuses := by
  obtain ⟨free, g, e⟩ := s.account_eq f r rep true
  obtain ⟨_, _, _, _, _, _, _, _, _, _, traced⟩ := (s.account f r rep true).traceRec_background 2 r.entry.queue
    (some r.entry.ctx) (traceW1 r.tag (traceRun f r.entry.member true))
  unfold State.runOver State.traceEnd
  rw [traced, e]
  exact ⟨rfl, rfl⟩

theorem State.removeEntries_queues (p : Entry → Bool) : (s.removeEntries p).queues = s.queues :=
  (State.wakeLent_queues _).trans (s.discardWhere_leaves p).1

theorem State.removeEntries_tears (p : Entry → Bool) : (s.removeEntries p).tears = s.tears := by
  have discarded : (s.discardWhere p).tears = s.tears := State.forAll_keep (·.tears) _ _ _ fun x j => by
    unfold State.discard
    split <;> rfl
  exact (State.driveAll_keep (·.tears) _ _ fun _ _ => rfl).trans discarded

theorem State.tearCovered_congr {t : State} (recov : t.recov = s.recov) (tears : t.tears = s.tears) {c : Nat}
    (state : (t.ctx c).state = (s.ctx c).state) : t.tearCovered c = s.tearCovered c := by
  simp only [State.tearCovered, recov, tears, state]

/-- A teardown of the context covers the sheaf as much after the end of its run as before. -/
theorem State.runOver_tearCovered (hs : s.Canonical) (p : Entry → Bool) (c : Nat) :
    ((s.runOver f r rep).removeEntries p).tearCovered c = s.tearCovered c := by
  have ended := s.runOver_follows hs f r rep
  have removed := ended.trans (State.removeEntries_follows ended.canonical p)
  obtain ⟨-, ctxs, -⟩ := s.runOver_stands.trans (State.removeEntries_stands _ p) hs.orderly
  exact State.tearCovered_congr removed.recov ((State.removeEntries_tears p).trans s.runOver_leaves.1) (ctxs c).1

theorem State.runOver_accessDetail (addr : Word) (write : Bool) (ordinal : Option Nat) :
    (s.runOver f r rep).accessDetail addr write ordinal = s.accessDetail addr write ordinal := by
  have same (sp : Nat) : (s.runOver f r rep).spaceRange sp = s.spaceRange sp := by
    unfold State.spaceRange
    rw [s.runOver_leaves.2]
  simp only [State.accessDetail, State.spaceOf, same]

variable {addr : Word} {write : Bool} {d : Node}

/-- What a window violation accounts of its run: the busy time alone. -/
def State.noReport (s : State) (r : EngineRun) : EngineReport :=
  { stamp := s.runStamp r, maxexp := none, clipped := 0, memread := 0, memwrite := 0
    linksent := 0, energy := 0, writes := 0, ecc := false }

/-- The event of a window violation of the sheaf d (R281). -/
def violation (f : Nat) (addr : Word) (detail : BitVec 32) (d : Node) : Event :=
  { d.event (srcFurrow f) kWindow .contain stWindow detail (BitVec.ofNat 10 f) with address := addr }

theorem windowViolation_dooms (isF : isFurrow f) (working : s.working = true) (ports : s.engineOn = true)
    (run : (s.furrow f).run = some r) (sheaf : s.runNode r = some d) (stands : d.phase ≠ .doomed)
    (child : d.child = none) :
    let u := s.runOver f r (s.noReport r)
    let detail := s.accessDetail addr write r.entry.member
    exec (.windowViolation ⟨f, s.runStamp r⟩ addr write) s = .next (u.doom r.entry.node d
      { status := stWindow, executed := d.executed, detail := detail, furrow := BitVec.ofNat 10 f }
      (violation f addr detail d)) := by
  intro u detail
  have same : u.runNode r = some d := (State.runOver_runNode r).trans sheaf
  have sameDetail : u.accessDetail addr write r.entry.member = detail := s.runOver_accessDetail addr write _
  show execWindowViolation ⟨f, s.runStamp r⟩ addr write s = _
  simp only [execWindowViolation, ok_pos isF, working, State.when_true, State.reportFor, ports, run]
  simp only [u, State.runOver, State.noReport] at same sameDetail
  simp [same, sameDetail, stands, State.streamEnd, child, u, State.runOver, State.noReport, violation]

theorem windowViolation_orphan (isF : isFurrow f) (working : s.working = true) (ports : s.engineOn = true)
    (hs : s.Canonical) (run : (s.furrow f).run = some r) (gone : s.runNode r = none) (orphan : r.orphan = some d)
    (current : (s.ctx d.ctx).gen = d.gen) :
    let u := s.runOver f r (s.noReport r)
    exec (.windowViolation ⟨f, s.runStamp r⟩ addr write) s = .next (u.raise
      ((violation f addr (s.accessDetail addr write r.entry.member) d).endedAs (some d.orphanEnd))) := by
  intro u
  have same : u.runNode r = none := (State.runOver_runNode r).trans gone
  have sameDetail : u.accessDetail addr write r.entry.member = s.accessDetail addr write r.entry.member :=
    s.runOver_accessDetail addr write _
  have sameGen : (u.ctx d.ctx).gen = d.gen := ((s.runOver_follows hs f r (s.noReport r)).gen d.ctx).trans current
  show execWindowViolation ⟨f, s.runStamp r⟩ addr write s = _
  simp only [execWindowViolation, ok_pos isF, working, State.when_true, State.reportFor, ports, run]
  simp only [u, State.runOver, State.noReport] at same sameDetail sameGen
  simp [same, sameDetail, orphan, sameGen, u, State.runOver, State.noReport, violation]

/-- A running sheaf is doomed at once: its run is over, its end is decided unless a teardown covers it, and no queue
changes (R292, R305). -/
theorem State.doom_running (hs : s.Canonical) (idle : (s.furrow f).run = none) (running : d.phase = .running) (n : Nat)
    (fin : Final) (e : Event) :
    ((s.doom n d fin e).furrow f).run = none ∧
    (s.doom n d fin e).node n = some { d with
      phase := .doomed, endedIn := 6
      final := if (s.removeEntries fun x => x.node == n && decide (x.gen = d.gen)).tearCovered d.ctx = true then none
        else some fin } ∧
    (s.doom n d fin e).queues = s.queues := by
  have removed := State.removeEntries_follows hs fun x => x.node == n && decide (x.gen = d.gen)
  have code : s.phaseCode n d = 6 := by simp [State.phaseCode, running, Phase.code]
  refine ⟨State.raise_idle (State.setNode_canonical _ n _ removed.canonical) (removed.idle f idle) _, ?_, ?_⟩
  · simp only [State.doom, State.raise_node, State.setNode_node_same _ n _ (State.canonical_nodes removed.canonical),
      code]
  · have raised (u : State) (e : Event) : (u.raise e).queues = u.queues := by simp
    exact (raised _ _).trans (State.removeEntries_queues _)

end Violation

theorem runNode_of_runsSheaf {s : State} {f : Nat} {r : EngineRun} {d : Node} (h : RunsSheaf s f r d) :
    s.runNode r = some d := by
  obtain ⟨-, -, -, -, -, -, -, -, node, gen, ctx, -, -, notTorn, notDestroyed⟩ := h
  simp [State.runNode, notTorn, notDestroyed, node, gen, ctx]

theorem windowViolationEndsTheRun : WindowViolationEndsTheRun := by
  refine ⟨fun f addr write r d s h => ?_, fun f addr write r d s isF working ports hs run gone orphan current own => ?_,
    fun f c addr s isF isC working ports => ?_⟩
  · have sheaf := runNode_of_runsSheaf h
    obtain ⟨isF, working, ports, hs, run, -, member, -, -, -, -, running, child, -⟩ := h
    have stands : d.phase ≠ .doomed := by simp [running]
    have ended := s.runOver_follows hs f r (s.noReport r)
    obtain ⟨idle, doomed, queues⟩ := State.doom_running ended.canonical (s.runOver_run hs f r (s.noReport r)) running
      r.entry.node { status := stWindow, executed := d.executed, detail := s.accessDetail addr write none
                     furrow := BitVec.ofNat 10 f } (violation f addr (s.accessDetail addr write none) d)
    rw [State.runOver_tearCovered hs] at doomed
    refine ⟨_, windowViolation_dooms isF working ports run sheaf stands child, ?_⟩
    rw [member]
    exact ⟨idle, doomed, queues.trans (s.runOver_queues f r _)⟩
  · intro none1
    have withdrawn : d.orphanEnd = { status := stWithdrawn, executed := 0, detail := 0x200, furrow := noFurrow } :=
      if_neg own
    rw [windowViolation_orphan isF working ports hs run gone orphan current, withdrawn]
    rfl
  · show execRemoteWriteDrop f c addr s = _
    simp [execRemoteWriteDrop, isF, isC, ports, State.delivery_working working, State.working_noReset working]

/-- Settles O25 from its two parts. -/
theorem contextsDrainToFree : Obligations.ContextsDrainToFree :=
  ⟨contextsDrainToFreeParts, windowViolationEndsTheRun⟩

end Sys2Proof.Machine
end

section
/-! The rules of the coherence tables, of the messages in flight and of a home's directory entry (R309-R315): what
each operation of the protocol writes, and what it leaves as it is. -/

namespace Sys2Proof.Machine
open Sys2Proof.Claim

/-! ## The tables -/

section Tables
variable {s : State} (hs : s.Canonical) (l : CohLine)
include hs

theorem State.setDir_dir_same (x : Dir) : (s.setDir l x).dir l = x :=
  Tbl.get_set_same _ x (State.canonical_dirs hs)

theorem State.setAline_aline_same (a : Nat) (x : ALine) : (s.setAline a l x).aline a l = x := by
  rw [State.aline_setAline hs, if_pos rfl]

end Tables

/-- INV to each agent of a list is one message to each, behind those that are in flight. -/
theorem State.invAll_eq (s : State) (l : CohLine) (v : List Nat) : s.invAll l v =
    { s with net := s.net ++ v.map fun a => { src := homeEnd l, dst := a, line := l, kind := .inv } } := by
  induction v generalizing s with
  | nil => simp [State.invAll, State.forAll]
  | cons a v ih =>
    have step : s.invAll l (a :: v) = (s.send (homeEnd l) a l .inv).invAll l v := rfl
    rw [step, ih]
    simp [State.send]

/-! ## Commands of an agent, and the messages they name -/

/-- A command of an agent that takes part is performed (R306, R307, R327). -/
theorem ok_coherent {s : State} {a : Nat} {l : CohLine} (h : Coherent s a l) (f : State → State) :
    ok (isAgent a ∧ isLine l) (s.when (s.coherent a l) f) = .next (f s) := by
  obtain ⟨isA, isL, up⟩ := h
  rw [ok_pos ⟨isA, isL⟩, up, State.when_true]

theorem State.deliver_arrives {s : State} {p : Msg → Bool} {m : Msg} {rest : List Msg} (h : Arrives s p m rest)
    (f : State → Msg → State) : s.deliver p f = f { s with net := rest } m := by
  unfold Arrives at h
  simp only [State.deliver, h]

theorem takeMsg_none {p : Msg → Bool} {ms : List Msg} (none1 : ∀ m ∈ ms, p m = false) (before : List Msg) :
    takeMsg p before ms = none := by
  induction ms generalizing before with
  | nil => rfl
  | cons m ms ih =>
    rw [takeMsg, none1 m List.mem_cons_self]
    exact ih (fun x h => none1 x (List.mem_cons_of_mem m h)) (m :: before)

theorem State.deliver_none {s : State} {p : Msg → Bool} (none1 : ∀ m ∈ s.net, p m = false)
    (f : State → Msg → State) : s.deliver p f = s := by
  simp only [State.deliver, takeMsg_none none1]

/-- A message alone in the network arrives. -/
theorem takeMsg_alone {p : Msg → Bool} {m : Msg} (h : p m = true) : takeMsg p [] [m] = some (m, []) := by
  simp [takeMsg, h]

theorem State.takesIn_later (s : State) (home rank : Nat) : s.takesIn home rank false = true := rfl

theorem State.lookup_uncorrectable {x : Found} (unc : x.unc = true) (s : State) (l : CohLine) (f : State → State) :
    s.lookup l (some x) f = s.severeError (srcHome (lineHome l)) x := by
  simp [State.lookup, unc]

/-! ## The home's directory entry -/

section Entry
variable {s : State} {l : CohLine}

theorem State.serveNext_busy (busy : (s.dir l).txn.isSome = true) (n : Nat) : s.serveNext l n = s := by
  cases n with
  | zero => rfl
  | succ n => simp [State.serveNext, busy]

theorem State.serveNext_quiet (free : (s.dir l).txn = none) (kept : (s.dir l).freed = false)
    (quiet : (s.dir l).retry = []) (n : Nat) : s.serveNext l n = s := by
  cases n with
  | zero => rfl
  | succ n => simp [State.serveNext, free, kept, quiet]

/-- The end of a transaction of a line that no request waits for. -/
theorem State.endTxn_quiet (hs : s.Canonical) (kept : (s.dir l).freed = false) (quiet : (s.dir l).retry = [])
    (st : DState) : s.endTxn l st = s.setDir l { s.dir l with st := st, txn := none, began := 0 } := by
  unfold State.endTxn
  apply State.serveNext_quiet <;> simp only [State.setDir_dir_same hs, kept, quiet]

theorem State.settleDir_free (free : (s.dir l).txn = none) : s.settleDir l = s := by
  simp only [State.settleDir, free]

theorem State.finishStore_free (free : (s.dir l).txn = none) : s.finishStore l = s := by
  simp only [State.finishStore, free]

theorem State.finishFetch_eq {a : Nat} {k : MsgKind} {next : DState} {b : Bool} {e : Nat}
    (fetch : (s.dir l).txn = some (.fetch a k next b e)) : s.finishFetch l =
    ((s.setDir l ((s.dir l).drop a)).send (homeEnd l) a l k).endTxn l next := by
  simp only [State.finishFetch, fetch]

end Entry

/-! ## What a home leaves alone -/

theorem State.serve_agents (s : State) (l : CohLine) (r : Nat) (q : Req) (shared : Bool) :
    (s.serve l r q shared).agents = s.agents := by
  have stored (u : State) : (u.writeHome l).agents = u.agents := by
    unfold State.writeHome
    split <;> rfl
  unfold State.serve
  dsimp only
  repeat' split
  all_goals simp only [State.invAll_eq, stored, State.setDir, State.send]

theorem State.takeBack_agents (s : State) (l : CohLine) : (s.takeBack l).agents = s.agents := by
  unfold State.takeBack
  dsimp only
  split
  · rfl
  · simp only [State.invAll_eq, State.setDir]

theorem State.serveNext_agents (s : State) (l : CohLine) (n : Nat) : (s.serveNext l n).agents = s.agents := by
  induction n generalizing s with
  | zero => rfl
  | succ n ih =>
    unfold State.serveNext
    dsimp only
    repeat' split
    · rfl
    · exact (ih _).trans (s.takeBack_agents l)
    · exact (ih _).trans (State.serve_agents _ l _ _ _)
    · rfl

theorem State.finishFetch_agents (s : State) (l : CohLine) : (s.finishFetch l).agents = s.agents := by
  unfold State.finishFetch
  split
  · exact State.serveNext_agents _ l _
  · rfl

theorem State.aline_of_agents {s t : State} (h : t.agents = s.agents) (a : Nat) (l : CohLine) :
    t.aline a l = s.aline a l := by
  rw [State.aline, State.aline, h]

/-! ## The runs that wait for a node slot -/

/-- Runs that become ready change the control cores and the order stamp alone (R215). -/
theorem State.wakeIssuers_keep {α : Type} (g : State → α)
    (h : ∀ (x : State) cores stamp, g { x with cores := cores, stamp := stamp } = g x) (s : State) :
    g s.wakeIssuers = g s := by
  have picks (x : State) (k : Nat) : g (x.pickRun k) = g x := by
    unfold State.pickRun
    split
    · exact h x _ _
    · rfl
  have readies (x : State) (k fr : Nat) : g (x.readyRun k fr) = g x := by
    unfold State.readyRun
    split
    · exact (picks _ k).trans (h x _ _)
    · rfl
  refine State.forAll_keep g s _ _ fun x k => State.forAll_keep g x _ _ fun y fr => ?_
  repeat' split
  · exact readies y k fr
  all_goals rfl

section WakeIssuers
variable (s : State)

@[simp] theorem State.wakeIssuers_net : s.wakeIssuers.net = s.net := State.wakeIssuers_keep (·.net) (fun _ _ _ => rfl) s
@[simp] theorem State.wakeIssuers_dirs : s.wakeIssuers.dirs = s.dirs :=
  State.wakeIssuers_keep (·.dirs) (fun _ _ _ => rfl) s
@[simp] theorem State.wakeIssuers_dir (l : CohLine) : s.wakeIssuers.dir l = s.dir l :=
  State.wakeIssuers_keep (·.dir l) (fun _ _ _ => rfl) s
@[simp] theorem State.wakeIssuers_aline (a : Nat) (l : CohLine) : s.wakeIssuers.aline a l = s.aline a l :=
  State.wakeIssuers_keep (·.aline a l) (fun _ _ _ => rfl) s

end WakeIssuers

end Sys2Proof.Machine
end

section
/-! Requests at the home (R313-R315, R317, R318, R326): the request of an agent reaches the home, and the directory
state decides what the home does for it. -/

namespace Sys2Proof.Machine
open Sys2Proof.Claim

/-! ## What a home does for a request, by the state of the line -/

section Serve
variable {s : State} {l : CohLine} {r : Nat} {sh : Bool} (agent : r ≠ 30)
include agent

theorem State.serve_rds_free (free : (s.dir l).st = .u) : s.serve l r .rds sh =
    s.setDir l ((s.dir l).start (.fetch r (.data (firstGrant l))
      (if firstGrant l = .e then .x r else .s [r]) sh s.now) s.now) := by
  simp [State.serve, agent, free]

theorem State.serve_rdx_free (free : (s.dir l).st = .u) : s.serve l r .rdx sh =
    s.setDir l ((s.dir l).start (.fetch r (.data .m) (.x r) sh s.now) s.now) := by
  simp [State.serve, agent, free]

theorem State.serve_rds_shared {v : List Nat} (shared : (s.dir l).st = .s v) : s.serve l r .rds sh =
    s.setDir l ((s.dir l).start (.fetch r (.data .s) (.s (insertSharer v r)) sh s.now) s.now) := by
  simp [State.serve, agent, shared]

theorem State.serve_upg_alone (alone : (s.dir l).st = .s [r]) : s.serve l r .upg sh =
    (s.setDir l { (s.dir l).drop r with st := .x r }).send (homeEnd l) r l .gnt := by
  simp [State.serve, agent, alone]

/-- A claim of a line that others share invalidates them first (R318). -/
theorem State.serve_claim_shared {v : List Nat} {q : Req} (claim : q ≠ .rds) (shared : (s.dir l).st = .s v)
    (others : v.filter (· ≠ r) ≠ []) : s.serve l r q sh =
    (s.setDir l ((s.dir l).start (.inval r (decide (q = .upg) && v.contains r) (v.filter (· ≠ r)) sh) s.now)).invAll l
      (v.filter (· ≠ r)) := by
  have nonempty : (v.filter (· ≠ r)).isEmpty = false := by simpa only [List.isEmpty_eq_false_iff] using others
  unfold State.serve
  simp only [agent, if_false, shared]
  cases q with
  | rds => exact absurd rfl claim
  | rdx | upg => simp only [nonempty, Bool.false_eq_true, if_false]

theorem State.serve_rds_owned {o : Nat} (owned : (s.dir l).st = .x o) : s.serve l r .rds sh =
    (s.setDir l ((s.dir l).start (.forward r false sh) s.now)).send (homeEnd l) o l (.fwdS r) := by
  simp [State.serve, agent, owned]

theorem State.serve_rdx_owned {o : Nat} (owned : (s.dir l).st = .x o) : s.serve l r .rdx sh =
    (s.setDir l ((s.dir l).start (.forward r true sh) s.now)).send (homeEnd l) o l (.fwdX r) := by
  simp [State.serve, agent, owned]

end Serve

/-! ## A first request -/

theorem State.firstRequest_busy {s : State} {m : Msg} (busy : (s.dir m.line).txn.isSome = true ∨
      (s.dir m.line).retry ≠ [] ∨ 68 ≤ s.sharedUsed (lineHome m.line)) (q : Req) :
    s.firstRequest m q = (s.setDir m.line { (s.dir m.line).note m.src s.now with
      retry := (s.dir m.line).retry ++ [(m.src, q, false)] }).send (homeEnd m.line) m.src m.line .retry := by
  have waits : ((s.dir m.line).txn.isSome || !(s.dir m.line).retry.isEmpty ||
      decide (68 ≤ s.sharedUsed (lineHome m.line))) = true := by
    rcases busy with h | h | h <;> simp [h]
  simp only [State.firstRequest, waits, if_true]

theorem State.firstRequest_free {s : State} {m : Msg} {d : DState} (entry : s.dir m.line = { st := d })
    (room : s.sharedUsed (lineHome m.line) < 68) (q : Req) : s.firstRequest m q =
    (s.setDir m.line { st := d, arrived := [(m.src, s.now)] }).serve m.line m.src q true := by
  have serves : ((s.dir m.line).txn.isSome || !(s.dir m.line).retry.isEmpty ||
      decide (68 ≤ s.sharedUsed (lineHome m.line))) = false := by
    rw [entry]
    exact decide_eq_false (by omega)
  have served : s.firstRequest m q =
      (s.setDir m.line ((s.dir m.line).note m.src s.now)).serve m.line m.src q true := by
    simp only [State.firstRequest, serves, Bool.false_eq_true, if_false]
  rw [served, entry]
  rfl

/-- An agent may ask the home of a line that is in directory state `d` and free of requests, with no message in
flight. -/
structure Asks (s : State) (a : Nat) (l : CohLine) (d : DState) : Prop where
  coherent : Coherent s a l
  canonical : s.Canonical
  quiet : s.net = []
  reserved : s.reservedUsed a (lineHome l) < 2
  room : s.sharedUsed (lineHome l) < 68
  entry : s.dir l = { st := d }

/-- The request has reached the home: the agent waits in state `w`, and the home has noted the arrival. -/
def State.asked (s : State) (a : Nat) (l : CohLine) (w : AState) (d : DState) : State :=
  ({ s.setAline a l { s.aline a l with st := w } with net := [] }.tookIn (lineHome l) (intakeRank a false)).setDir l
    { st := d, arrived := [(a, s.now)] }

section Asked
variable {s : State} {a : Nat} {l : CohLine} {d : DState} (h : Asks s a l d) (w : AState)
include h

theorem Asks.agent : a ≠ 30 := by
  obtain ⟨isA, -, -⟩ := h.coherent
  omega

theorem Asks.canAsk : s.canAsk a (lineHome l) = true := by
  simp [State.canAsk, State.asking, h.quiet, h.reserved]

theorem State.asked_takenIn_canonical :
    ({ s.setAline a l { s.aline a l with st := w } with net := [] }.tookIn (lineHome l)
      (intakeRank a false)).Canonical :=
  State.setAline_canonical s a l _ h.canonical

theorem State.asked_canonical : (s.asked a l w d).Canonical :=
  State.setDir_canonical _ l _ (State.asked_takenIn_canonical h w)

theorem State.asked_dir : (s.asked a l w d).dir l = { st := d, arrived := [(a, s.now)] } :=
  State.setDir_dir_same (State.asked_takenIn_canonical h w) l _

theorem State.asked_aline : ((s.asked a l w d).aline a l).st = w :=
  congrArg ALine.st (State.setAline_aline_same (x := { s.aline a l with st := w }) h.canonical l a)

theorem State.request_served (q : Req) :
    ((s.setAline a l { s.aline a l with st := w }).send a (homeEnd l) l (.req q false)).request a l q false none =
      (s.asked a l w d).serve l a q true := by
  let u := s.setAline a l { s.aline a l with st := w }
  let m : Msg := { src := a, dst := homeEnd l, line := l, kind := .req q false }
  have arrives : Arrives (u.send a (homeEnd l) l (.req q false))
      (fun m => m.src == a && m.line == l && (m.kind == .req q true || m.kind == .req q false)) m [] := by
    show takeMsg _ [] (s.net ++ [m]) = _
    rw [h.quiet]
    exact takeMsg_alone (by simp [m])
  let taken := { u with net := [] }.tookIn (lineHome l) (intakeRank a false)
  have entry : taken.dir l = { st := d } := h.entry
  have room : taken.sharedUsed (lineHome l) < 68 := h.room
  rw [State.request, State.takesIn_later, State.when_true, State.deliver_arrives arrives]
  show taken.requestArrives m = _
  simp only [State.requestArrives, m, State.settleDir_free (s := taken) (l := l) (by rw [entry])]
  exact State.firstRequest_free (m := m) entry room q

theorem rds_asks (idle : (s.aline a l).st = .i) (may : mayHold a l = true) :
    exec (.rds a ⟨l, false, none⟩) s = .next ((s.asked a l .is d).serve l a .rds true) := by
  refine (ok_coherent h.coherent fun s => (s.localRead a l).request a l .rds false none).trans ?_
  have asks : s.localRead a l =
      (s.setAline a l { s.aline a l with st := .is }).send a (homeEnd l) l (.req .rds false) :=
    if_pos ⟨idle, may, h.canAsk⟩
  rw [asks, State.request_served h]

theorem rdx_asks (idle : (s.aline a l).st = .i) (may : mayWrite a l = true) :
    exec (.rdx a ⟨l, false, none⟩) s = .next ((s.asked a l .im d).serve l a .rdx true) := by
  refine (ok_coherent h.coherent fun s =>
    (if (s.aline a l).st = .i then s.localWrite a l else s).request a l .rdx false none).trans ?_
  have asks : s.localWrite a l =
      (s.setAline a l { s.aline a l with st := .im }).send a (homeEnd l) l (.req .rdx false) := by
    simp [State.localWrite, may, idle, h.canAsk]
  rw [if_pos idle, asks, State.request_served h]

theorem upg_asks (shared : (s.aline a l).st = .s) (may : mayWrite a l = true) :
    exec (.upg a ⟨l, false, none⟩) s = .next ((s.asked a l .sm d).serve l a .upg true) := by
  refine (ok_coherent h.coherent fun s =>
    (if (s.aline a l).st = .s then s.localWrite a l else s).request a l .upg false none).trans ?_
  have asks : s.localWrite a l =
      (s.setAline a l { s.aline a l with st := .sm }).send a (homeEnd l) l (.req .upg false) := by
    simp [State.localWrite, may, shared, h.canAsk]
  rw [if_pos shared, asks, State.request_served h]

/-- A transaction that the home begins for the request makes the line BUSY, while the agent waits (R315, R317). -/
theorem Asks.makesBusy {c : Instr} {q : Req} {x : Txn} {ms : List Msg}
    (run : exec c s = .next ((s.asked a l w d).serve l a q true))
    (serves : (s.asked a l w d).serve l a q true = { (s.asked a l w d).setDir l
      (((s.asked a l w d).dir l).start x (s.asked a l w d).now) with net := ms }) :
    ∃ t : State, exec c s = .next t ∧ (t.aline a l).st = w ∧
      t.dir l = { st := d, txn := some x, arrived := [(a, s.now)], began := s.now } ∧ t.net = ms := by
  refine ⟨_, run, ?_⟩
  rw [serves, State.asked_dir h]
  exact ⟨State.asked_aline h w, State.setDir_dir_same (State.asked_canonical h w) l _, rfl⟩

end Asked

/-! ## The line is read from storage, invalidated or forwarded -/

section Served
variable {s : State} {a : Nat} {l : CohLine}

theorem rds_free_reads (h : Asks s a l .u) (idle : (s.aline a l).st = .i) (may : mayHold a l = true) :
    ∃ t : State, exec (.rds a ⟨l, false, none⟩) s = .next t ∧ (t.aline a l).st = .is ∧
      t.dir l = { txn := some (.fetch a (.data (firstGrant l)) (if firstGrant l = .e then .x a else .s [a]) true s.now)
                  arrived := [(a, s.now)], began := s.now } ∧ t.net = [] :=
  h.makesBusy .is (rds_asks h idle may) (State.serve_rds_free h.agent (by rw [State.asked_dir h]))

theorem rds_shared_reads {v : List Nat} (h : Asks s a l (.s v)) (idle : (s.aline a l).st = .i)
    (may : mayHold a l = true) :
    ∃ t : State, exec (.rds a ⟨l, false, none⟩) s = .next t ∧ (t.aline a l).st = .is ∧
      t.dir l = { st := .s v, txn := some (.fetch a (.data .s) (.s (insertSharer v a)) true s.now)
                  arrived := [(a, s.now)], began := s.now } ∧ t.net = [] :=
  h.makesBusy .is (rds_asks h idle may) (State.serve_rds_shared h.agent (by rw [State.asked_dir h]))

theorem rdx_free_reads (h : Asks s a l .u) (idle : (s.aline a l).st = .i) (may : mayWrite a l = true) :
    ∃ t : State, exec (.rdx a ⟨l, false, none⟩) s = .next t ∧ (t.aline a l).st = .im ∧
      t.dir l = { txn := some (.fetch a (.data .m) (.x a) true s.now), arrived := [(a, s.now)], began := s.now } ∧
      t.net = [] :=
  h.makesBusy .im (rdx_asks h idle may) (State.serve_rdx_free h.agent (by rw [State.asked_dir h]))

/-- The only sharer that asks to write is granted at once (R318). -/
theorem upg_alone_granted (h : Asks s a l (.s [a])) (shared : (s.aline a l).st = .s) (may : mayWrite a l = true) :
    ∃ t : State, exec (.upg a ⟨l, false, none⟩) s = .next t ∧ (t.aline a l).st = .sm ∧ t.dir l = { st := .x a } ∧
      t.net = [{ src := homeEnd l, dst := a, line := l, kind := .gnt }] := by
  have served : { ((s.asked a l .sm (.s [a])).dir l).drop a with st := .x a } = ({ st := .x a } : Dir) := by
    simp [State.asked_dir h, Dir.drop]
  refine ⟨_, upg_asks h shared may, ?_⟩
  rw [State.serve_upg_alone h.agent (by rw [State.asked_dir h]), served]
  exact ⟨State.asked_aline h .sm, State.setDir_dir_same (State.asked_canonical h .sm) l { st := .x a }, rfl⟩

/-- A claim of a shared line sends INV to every other sharer (R318). -/
theorem Asks.invalidates {v : List Nat} (h : Asks s a l (.s v)) {w : AState} {c : Instr} {q : Req} (claim : q ≠ .rds)
    (others : v.filter (· ≠ a) ≠ []) (run : exec c s = .next ((s.asked a l w (.s v)).serve l a q true)) :
    ∃ t : State, exec c s = .next t ∧ (t.aline a l).st = w ∧
      t.dir l = { st := .s v
                  txn := some (.inval a (decide (q = .upg) && v.contains a) (v.filter (· ≠ a)) true)
                  arrived := [(a, s.now)], began := s.now } ∧
      t.net = (v.filter (· ≠ a)).map fun b => { src := homeEnd l, dst := b, line := l, kind := .inv } := by
  refine h.makesBusy w run ?_
  rw [State.serve_claim_shared h.agent claim (by rw [State.asked_dir h]) others, State.invAll_eq]
  rfl

theorem rds_owned_forwards {o : Nat} (h : Asks s a l (.x o)) (idle : (s.aline a l).st = .i)
    (may : mayHold a l = true) :
    ∃ t : State, exec (.rds a ⟨l, false, none⟩) s = .next t ∧ (t.aline a l).st = .is ∧
      t.dir l = { st := .x o, txn := some (.forward a false true), arrived := [(a, s.now)], began := s.now } ∧
      t.net = [{ src := homeEnd l, dst := o, line := l, kind := .fwdS a }] :=
  h.makesBusy .is (rds_asks h idle may) (State.serve_rds_owned h.agent (by rw [State.asked_dir h]))

theorem rdx_owned_forwards {o : Nat} (h : Asks s a l (.x o)) (idle : (s.aline a l).st = .i)
    (may : mayWrite a l = true) :
    ∃ t : State, exec (.rdx a ⟨l, false, none⟩) s = .next t ∧ (t.aline a l).st = .im ∧
      t.dir l = { st := .x o, txn := some (.forward a true true), arrived := [(a, s.now)], began := s.now } ∧
      t.net = [{ src := homeEnd l, dst := o, line := l, kind := .fwdX a }] :=
  h.makesBusy .im (rdx_asks h idle may) (State.serve_rdx_owned h.agent (by rw [State.asked_dir h]))

end Served

/-- An agent that may not ask a further request of the home sends none (R313). -/
theorem requests_wait {s : State} {a : Nat} {l : CohLine} (coherent : Coherent s a l) (idle : (s.aline a l).st = .i)
    (full : s.canAsk a (lineHome l) = false) (silent : ∀ m ∈ s.net, m.src = a → m.line ≠ l) :
    exec (.rds a ⟨l, false, none⟩) s = .next s ∧ exec (.rdx a ⟨l, false, none⟩) s = .next s := by
  have reads : s.localRead a l = s := if_neg (by simp [full])
  have writes : s.localWrite a l = s := by simp [State.localWrite, idle, full]
  have unmet (q : Req) : s.request a l q false none = s := by
    rw [State.request, State.takesIn_later, State.when_true]
    refine State.deliver_none (fun m inFlight => ?_) _
    have other := silent m inFlight
    by_cases own : m.src = a
    · simp [own, other own]
    · simp [own]
  constructor
  · refine (ok_coherent coherent fun s => (s.localRead a l).request a l .rds false none).trans ?_
    rw [reads, unmet]
  · refine (ok_coherent coherent fun s =>
      (if (s.aline a l).st = .i then s.localWrite a l else s).request a l .rdx false none).trans ?_
    rw [if_pos idle, writes, unmet]

theorem requestsReachTheHome : RequestsReachTheHome := by
  refine ⟨fun a l s coherent hs quiet reserved room => ?_, fun m q s busy => State.firstRequest_busy busy q,
    fun a l s coherent idle full silent => requests_wait coherent idle full silent⟩
  have asks (d : DState) (entry : s.dir l = { st := d }) : Asks s a l d := ⟨coherent, hs, quiet, reserved, room, entry⟩
  refine ⟨fun idle may => ⟨fun entry => ?_, fun v entry => ?_⟩, fun idle may entry => ?_,
    fun shared may entry => upg_alone_granted (asks (.s [a]) entry) shared may,
    fun v entry others may => ⟨fun idle => ?_, fun shared => ?_⟩,
    fun o entry idle => ⟨rds_owned_forwards (asks (.x o) entry) idle, rdx_owned_forwards (asks (.x o) entry) idle⟩⟩
  · obtain ⟨t, run, waits, busy, quiet⟩ := rds_free_reads (asks .u entry) idle may
    exact ⟨t, run, waits, quiet, busy⟩
  · obtain ⟨t, run, waits, busy, quiet⟩ := rds_shared_reads (asks (.s v) entry) idle may
    exact ⟨t, run, waits, quiet, busy⟩
  · obtain ⟨t, run, waits, busy, quiet⟩ := rdx_free_reads (asks .u entry) idle may
    exact ⟨t, run, waits, quiet, busy⟩
  · exact (asks (.s v) entry).invalidates (q := .rdx) nofun others (rdx_asks (asks (.s v) entry) idle may)
  · exact (asks (.s v) entry).invalidates (q := .upg) nofun others (upg_asks (asks (.s v) entry) shared may)

/-! ## Errors in the entry that is looked up (R326) -/

/-- A request whose lookup meets an uncorrectable error is taken in, and not served. -/
theorem State.request_lost {s : State} {a : Nat} {l : CohLine} {q : Req} {m : Msg} {rest : List Msg} {x : Found}
    (unc : x.unc = true)
    (arrives : Arrives s (fun m => m.src == a && m.line == l && (m.kind == .req q true || m.kind == .req q false))
      m rest) :
    s.request a l q false (some x) = ({ s with net := rest }.tookIn (lineHome l) (intakeRank a false)).severeError
      (srcHome (lineHome l)) x := by
  rw [State.request, State.takesIn_later, State.when_true, State.deliver_arrives arrives,
    State.lookup_uncorrectable unc]

section Back
variable {s : State} {a : Nat} {l : CohLine} {m : Msg} {rest : List Msg} (coherent : Coherent s a l)
include coherent

theorem wbd_arrives (arrives : Arrives s (fun m => m.src == a && m.line == l && m.kind == .wbd) m rest)
    (bad data : Option Found) : exec (.wbd a ⟨l, false, bad, data⟩) s =
      .next ({ s with net := rest }.lookup l bad fun s => (s.writeBack m).carried l data) := by
  obtain ⟨isA, isL, up⟩ := coherent
  show execWbd a ⟨l, false, bad, data⟩ s = _
  rw [execWbd, ok_pos ⟨isA, isL⟩]
  simp only [up, State.takesIn_later, Bool.and_true, State.when_true, State.deliver_arrives arrives]

theorem wbc_arrives (arrives : Arrives s (fun m => m.src == a && m.line == l && m.kind == .wbc) m rest)
    (bad : Option Found) : exec (.wbc a ⟨l, false, bad⟩) s =
      .next ({ s with net := rest }.lookup l bad fun s => s.writeBack m) := by
  obtain ⟨isA, isL, up⟩ := coherent
  show execWbc a ⟨l, false, bad⟩ s = _
  rw [execWbc, ok_pos ⟨isA, isL⟩]
  simp only [up, State.takesIn_later, Bool.and_true, State.when_true, State.deliver_arrives arrives]

end Back

/-- A home-side write takes its turn on the line, behind the requests that wait there (R319). -/
def State.queueWrite (s : State) (l : CohLine) : State :=
  (s.setDir l { (s.dir l).note 30 s.now with retry := (s.dir l).retry ++ [(30, .rds, true)] }).serveNext l
    ((s.dir l).retry.length + 2)

theorem homeSideWrite_taken {s : State} {l : CohLine} (isL : isLine l) (up : s.homeUp l = true)
    (table : l.table = .queue ∨ l.table = .scale) (bad : Option Found) :
    exec (.homeSideWrite ⟨l, false, bad⟩) s = .next ((s.tookIn (lineHome l) (homeRank l)).lookup l bad fun s =>
      (s.settleDir l).queueWrite l) := by
  have written : (l.table == .queue || l.table == .scale) = true := by simpa using table
  show execHomeSideWrite ⟨l, false, bad⟩ s = _
  rw [execHomeSideWrite, ok_pos isL]
  simp only [up, written, State.takesIn_later, Bool.and_true, State.when_true, State.queueWrite]

theorem lookupErrorsAreSevere : LookupErrorsAreSevere := by
  refine ⟨fun l x s isL up table unc => ?_, fun a l x m rest s coherent unc => ⟨fun q arrives => ⟨?_, ?_, ?_⟩,
    fun arrives y => ?_, fun arrives => ?_⟩⟩
  · rw [homeSideWrite_taken isL up table, State.lookup_uncorrectable unc]
  · rintro rfl busy
    refine (ok_coherent coherent fun s => (s.localRead a l).request a l .rds false (some x)).trans ?_
    rw [show s.localRead a l = s from if_neg (by simp [busy]), State.request_lost unc arrives]
  · rintro rfl busy
    refine (ok_coherent coherent fun s =>
      (if (s.aline a l).st = .i then s.localWrite a l else s).request a l .rdx false (some x)).trans ?_
    rw [if_neg busy, State.request_lost unc arrives]
  · rintro rfl busy
    refine (ok_coherent coherent fun s =>
      (if (s.aline a l).st = .s then s.localWrite a l else s).request a l .upg false (some x)).trans ?_
    rw [if_neg busy, State.request_lost unc arrives]
  · rw [wbd_arrives coherent arrives, State.lookup_uncorrectable unc]
  · rw [wbc_arrives coherent arrives, State.lookup_uncorrectable unc]

end Sys2Proof.Machine
end

section
/-! Evictions (R37, R315, R317, R318): an agent gives a line back, the home writes it to storage, and the agent drops
what it retained. -/

namespace Sys2Proof.Machine
open Sys2Proof.Claim

section Eviction
variable {s : State} {a : Nat} {l : CohLine} (coherent : Coherent s a l)
include coherent

/-- What an agent does to evict a line that may leave. -/
theorem agentEviction_leaves (loose : (s.aline a l).hold = false)
    (unpinned : ¬ (l.table = .desc ∧ a = lineHome l ∧ s.linesPinned (l.index / 32) = true)) :
    ((s.aline a l).st = .s → exec (.agentEviction a l) s = .next (s.setAline a l { s.aline a l with st := .i })) ∧
    ((s.aline a l).st = .e → exec (.agentEviction a l) s =
      .next ((s.setAline a l { s.aline a l with st := .ei }).send a (homeEnd l) l .wbc)) ∧
    ((s.aline a l).st = .m → exec (.agentEviction a l) s =
      .next ((s.setAline a l { s.aline a l with st := .mi }).send a (homeEnd l) l .wbd)) := by
  obtain ⟨isA, isL, up⟩ := coherent
  have unneeded : (decide (l.table = .desc) && a == lineHome l && s.linesPinned (l.index / 32)) = false := by
    rw [Bool.eq_false_iff]
    simpa only [ne_eq, Bool.and_eq_true, decide_eq_true_eq, beq_iff_eq, and_assoc] using unpinned
  have leaves : s.evictable a l = true := by
    simp only [State.evictable, loose, unneeded, Bool.not_false, Bool.and_self]
  show (_ → execAgentEviction a l s = _) ∧ (_ → execAgentEviction a l s = _) ∧ (_ → execAgentEviction a l s = _)
  rw [execAgentEviction, ok_pos ⟨isA, isL⟩]
  simp only [up, leaves, Bool.and_true, State.when_true]
  refine ⟨?_, ?_, ?_⟩
  all_goals
    intro st
    simp only [st]

theorem agentEviction_stays (stays : (s.aline a l).hold = true ∨
      (l.table = .desc ∧ a = lineHome l ∧ s.linesPinned (l.index / 32) = true)) :
    exec (.agentEviction a l) s = .next s := by
  obtain ⟨isA, isL, up⟩ := coherent
  have kept : s.evictable a l = false := by
    rcases stays with held | ⟨desc, home, pinned⟩
    · simp [State.evictable, held]
    · simp [State.evictable, desc, home, pinned]
  show execAgentEviction a l s = _
  rw [execAgentEviction, ok_pos ⟨isA, isL⟩]
  simp only [kept, Bool.and_false, State.when_false]

end Eviction

/-- A writeback or release of the owner makes the line BUSY while storage is written (R315). -/
theorem State.writeBack_owner {s : State} {m : Msg} (owned : s.dir m.line = { st := .x m.src }) :
    s.writeBack m = (s.tookIn (lineHome m.line) (intakeRank m.src true)).setDir m.line
      { st := .x m.src, txn := some (.store m.src s.now), began := s.now } := by
  have entry : (s.tookIn (lineHome m.line) (intakeRank m.src true)).dir m.line = { st := .x m.src } := owned
  unfold State.writeBack
  dsimp only
  rw [State.settleDir_free (by rw [entry]), entry]
  simp only [Option.isNone_none, beq_self_eq_true, Bool.and_self, if_true, Dir.start]
  rfl

theorem State.writeBack_stores {s : State} (hs : s.Canonical) (rest : List Msg) (m : Msg)
    (owned : s.dir m.line = { st := .x m.src }) :
    ({ s with net := rest }.writeBack m).dir m.line =
      { st := .x m.src, txn := some (.store m.src s.now), began := s.now } ∧
    ({ s with net := rest }.writeBack m).net = rest ∧ ({ s with net := rest }.writeBack m).agents = s.agents := by
  have canonical : ({ s with net := rest }.tookIn (lineHome m.line) (intakeRank m.src true)).Canonical := hs
  rw [State.writeBack_owner (s := { s with net := rest }) owned]
  exact ⟨State.setDir_dir_same canonical m.line _, rfl, rfl⟩

/-- Storage holds the line: it is in no cache, and its WBACK goes (R315, R318). -/
theorem State.finishStore_owner {s : State} (hs : s.Canonical) {a b g : Nat} {l : CohLine}
    (storing : s.dir l = { st := .x a, txn := some (.store a b), began := g }) :
    s.finishStore l = (s.send (homeEnd l) a l .wback).setDir l {} := by
  have entry : (s.send (homeEnd l) a l .wback).dir l = { st := .x a, txn := some (.store a b), began := g } := storing
  have ends : s.finishStore l = (s.send (homeEnd l) a l .wback).endTxn l .u := by
    simp only [State.finishStore, storing]
  have sent : (s.send (homeEnd l) a l .wback).Canonical := hs
  rw [ends, State.endTxn_quiet sent (by rw [entry]) (by rw [entry]), entry]

/-- The WBACK of a line in no cache is met by an agent that retains the line: it drops it, and what waits for a line of
its cache is tried again. -/
theorem wback_arrives {s u : State} {a : Nat} {l : CohLine} {m : Msg} {rest : List Msg} (coherent : Coherent s a l)
    (stored : s.finishStore l = u) (hu : u.Canonical) (same : u.agents = s.agents)
    (retained : (s.aline a l).st = .ei ∨ (s.aline a l).st = .mi)
    (arrives : Arrives u (fun m => m.dst == a && m.line == l && m.kind == .wback) m rest) :
    ∃ t : State, exec (.wback a l) s = .next (if a < 4 then t.resume else t) ∧ t.dirs = u.dirs ∧ t.net = rest ∧
      t.aline a l = { s.aline a l with st := .i } := by
  let v : State := { u.wakeIssuers with net := rest }
  have hv : v.Canonical := State.wakeIssuers_canonical u hu
  have line : v.aline a l = s.aline a l := (State.wakeIssuers_aline u a l).trans (State.aline_of_agents same a l)
  have met : Arrives u.wakeIssuers (fun m => m.dst == a && m.line == l && m.kind == .wback) m rest := by
    unfold Arrives
    rw [State.wakeIssuers_net]
    exact arrives
  have drops : v.wbackArrives a l = v.setAline a l { s.aline a l with st := .i } := by
    rw [State.wbackArrives, line]
    rcases retained with st | st <;> simp only [st]
  refine ⟨(v.wbackArrives a l).wakeIssuers, ?_, ?_, ?_, ?_⟩
  · refine (ok_coherent coherent _).trans ?_
    rw [stored, State.deliver_arrives met]
  · rw [State.wakeIssuers_dirs, drops]
    exact State.wakeIssuers_dirs u
  · rw [State.wakeIssuers_net, drops]
    rfl
  · rw [State.wakeIssuers_aline, drops, State.setAline_aline_same hv]

theorem evictionsGiveTheLineBack : EvictionsGiveTheLineBack := by
  refine ⟨fun a l s coherent => ⟨agentEviction_leaves coherent, agentEviction_stays coherent⟩,
    fun a l rest s coherent hs owned kind arrives => ⟨?_, ?_⟩, fun a l s coherent hs retained => ⟨?_, ?_⟩⟩
  · rintro rfl
    exact ⟨_, wbd_arrives coherent arrives none none, State.writeBack_stores hs rest _ owned⟩
  · rintro rfl
    exact ⟨_, wbc_arrives coherent arrives none, State.writeBack_stores hs rest _ owned⟩
  · intro b g storing quiet
    have stored := State.finishStore_owner hs storing
    have canonical : (s.send (homeEnd l) a l .wback).Canonical := hs
    have arrives : Arrives ((s.send (homeEnd l) a l .wback).setDir l {})
        (fun m => m.dst == a && m.line == l && m.kind == .wback)
        { src := homeEnd l, dst := a, line := l, kind := .wback } [] := by
      show takeMsg _ [] (s.net ++ _) = _
      rw [quiet]
      exact takeMsg_alone (by simp)
    obtain ⟨t, run, dirs, net, line⟩ :=
      wback_arrives coherent stored (State.setDir_canonical _ l _ canonical) rfl retained arrives
    refine ⟨t, run, ?_, net, line⟩
    rw [State.dir, dirs]
    exact State.setDir_dir_same canonical l {}
  · intro m rest free arrives
    exact wback_arrives coherent (State.finishStore_free (by rw [free])) hs rfl retained arrives

/-- Settles O40 from its three parts. -/
theorem coherenceRequests : Obligations.CoherenceRequests :=
  ⟨requestsReachTheHome, lookupErrorsAreSevere, evictionsGiveTheLineBack⟩

end Sys2Proof.Machine
end

section
/-! Grants, probes and home-side transactions (R314-R319, R325, R327): the answers of the coherence protocol, at the
agent that waits and at the home. -/

namespace Sys2Proof.Machine
open Sys2Proof.Claim

/-! ## Grants at the agent -/

/-- A transaction of a line that no other request waits for ends with its request served: the directory names the new
holders, and the home has sent `ms` by then. -/
theorem State.served_ends {s : State} (hs : s.Canonical) {l : CohLine} (quiet : (s.dir l).retry = [])
    (kept : (s.dir l).freed = false) (r : Nat) (ms : List Msg) (st : DState) :
    let t := { s.setDir l ((s.dir l).drop r) with net := ms }.endTxn l st
    (t.dir l).txn = none ∧ (t.dir l).st = st ∧ t.agents = s.agents ∧ t.net = ms := by
  let u : State := { s.setDir l ((s.dir l).drop r) with net := ms }
  have hu : u.Canonical := State.setDir_canonical s l _ hs
  have entry : u.dir l = (s.dir l).drop r := State.setDir_dir_same hs l _
  have ends : u.endTxn l st = u.setDir l { u.dir l with st := st, txn := none, began := 0 } :=
    State.endTxn_quiet hu (by rw [entry]; exact kept) (by rw [entry]; exact quiet) st
  show ((u.endTxn l st).dir l).txn = _ ∧ ((u.endTxn l st).dir l).st = _ ∧ (u.endTxn l st).agents = _ ∧
    (u.endTxn l st).net = _
  rw [ends, State.setDir_dir_same hu]
  exact ⟨rfl, rfl, rfl, rfl⟩

section Awaited
variable {s : State} {a : Nat} {l : CohLine} (f : State → State)

theorem State.dataArrives_exclusive (waits : (s.aline a l).st = .is) :
    s.dataArrives a l .e f = f (s.setAline a l { s.aline a l with st := .e, hold := true }) := by
  simp only [State.dataArrives, waits]
  rfl

theorem State.dataArrives_modified (waits : (s.aline a l).st = .im ∨ (s.aline a l).st = .sm) :
    s.dataArrives a l .m f = f (s.setAline a l { s.aline a l with st := .m, hold := true }) := by
  rcases waits with waits | waits <;>
  · simp only [State.dataArrives, waits]
    rfl

theorem State.dataArrives_shared (waits : (s.aline a l).st = .is) :
    s.dataArrives a l .s f = (f (s.setAline a l { s.aline a l with st := .s })).release a l := by
  simp only [State.dataArrives, waits]
  rfl

end Awaited

section Grants
variable {s : State} {a : Nat} {l : CohLine} {m : Msg} {rest : List Msg} (coherent : Coherent s a l)
include coherent

theorem data_arrives {g : Grant} (data : m.kind = .data g)
    (arrives : Arrives (s.finishFetch l) (fun m => m.dst == a && m.line == l && m.kind.grant.isSome) m rest) :
    exec (.data a ⟨l, none⟩) s =
      .next ({ s.finishFetch l with net := rest }.dataArrives a l g fun s => s.atGrant a l) := by
  refine (ok_coherent coherent _).trans ?_
  rw [State.deliver_arrives arrives, data]

theorem gnt_arrives (waits : (s.aline a l).st = .sm)
    (arrives : Arrives s (fun m => m.dst == a && m.line == l && m.kind == .gnt) m rest) :
    exec (.gnt a l) s = .next ({ s with net := rest }.granted a l .m fun s => s.atGrant a l) := by
  refine (ok_coherent coherent _).trans ?_
  rw [State.deliver_arrives arrives]
  exact congrArg _ (if_pos waits)

theorem retry_arrives {q : Req} (waits : (s.aline a l).st.request = some q)
    (arrives : Arrives s (fun m => m.dst == a && m.line == l && m.kind == .retry) m rest) :
    exec (.retry a l) s = .next ({ s with net := rest }.send a (homeEnd l) l (.req q true)) := by
  have waits' : ({ s with net := rest }.aline a l).st.request = some q := waits
  refine (ok_coherent coherent _).trans ?_
  rw [State.deliver_arrives arrives]
  simp only [waits']

theorem holdEnd_releases (held : (s.aline a l).hold = true) : exec (.holdEnd a l) s = .next (s.release a l) := by
  obtain ⟨isA, isL, up⟩ := coherent
  show execHoldEnd a l s = _
  rw [execHoldEnd, ok_pos ⟨isA, isL⟩, up, held, Bool.and_self, State.when_true]

end Grants

theorem grantsReachTheAgent : GrantsReachTheAgent := by
  refine ⟨fun a l k next b e s hs fetch quiet kept => ?_, fun a l m rest s coherent => ⟨fun g arrives data => ?_,
    fun arrives waits => gnt_arrives coherent waits arrives,
    fun q arrives waits => retry_arrives coherent waits arrives, holdEnd_releases coherent⟩⟩
  · rw [State.finishFetch_eq fetch]
    exact State.served_ends hs quiet kept a (s.net ++ [_]) next
  · let t : State := { s.finishFetch l with net := rest }
    have line : t.aline a l = s.aline a l := State.aline_of_agents (s.finishFetch_agents l) a l
    have run := data_arrives coherent data arrives
    rw [← line]
    refine ⟨?_, ?_, ?_⟩
    · rintro waits rfl
      rw [run, State.dataArrives_exclusive _ waits]
    · rintro waits rfl
      rw [run, State.dataArrives_modified _ waits]
    · rintro waits rfl
      rw [run, State.dataArrives_shared _ waits]

/-! ## Forwards and invalidations at the agent -/

section Probe
variable {s : State} {a : Nat} {l : CohLine}

/-- What arrives while a copy is awaited is kept, but an upgrade answers INV (R316, R317). -/
theorem State.probe_awaiting {k : MsgKind} (awaits : (s.aline a l).st = .is ∨ (s.aline a l).st = .im ∨
      ((s.aline a l).st = .sm ∧ k ≠ .inv)) :
    s.probe a l k = s.setAline a l { s.aline a l with kept := (s.aline a l).kept ++ [k] } := by
  rcases awaits with st | st | ⟨st, forward⟩
  · simp [State.probe, st]
  · simp [State.probe, st]
  · cases k with
    | inv => exact absurd rfl forward
    | _ => simp [State.probe, st]

/-- A forward at the owner is kept during its hold (R316). -/
theorem State.probe_owner {k : MsgKind} (owns : (s.aline a l).st = .e ∨ (s.aline a l).st = .m) (forward : k ≠ .inv) :
    s.probe a l k = if (s.aline a l).hold = true then
      s.setAline a l { s.aline a l with kept := (s.aline a l).kept ++ [k] } else s.answer a l k := by
  cases k with
  | inv => exact absurd rfl forward
  | _ => rcases owns with st | st <;> simp [State.probe, st]

theorem State.probe_inv {st : AState} (shares : (s.aline a l).st = .s ∧ st = .i ∨ (s.aline a l).st = .sm ∧ st = .im) :
    s.probe a l .inv =
      (s.setAline a l { s.aline a l with st := st, hold := false }).send a (homeEnd l) l .ack := by
  rcases shares with ⟨before, rfl⟩ | ⟨before, rfl⟩ <;> simp [State.probe, State.answer, ALine.givenUp, before]

theorem State.answer_fwdS_owner (owns : (s.aline a l).st = .e ∨ (s.aline a l).st = .m) (r : Nat) :
    s.answer a l (.fwdS r) = ((s.setAline a l { s.aline a l with st := .s }).send a r l (.data .s)).send a (homeEnd l) l
      (.fack (decide ((s.aline a l).st = .m))) := by
  rcases owns with st | st <;> simp [State.answer, st]

theorem State.answer_fwdX_owner (owns : (s.aline a l).st = .e ∨ (s.aline a l).st = .m) (r : Nat) :
    s.answer a l (.fwdX r) = ((s.setAline a l { s.aline a l with st := .i }).send a r l (.data .m)).send a (homeEnd l) l
      (.fack false) := by
  rcases owns with st | st <;> simp [State.answer, st]

end Probe

section Probes
variable {s : State} {a r : Nat} {l : CohLine} {m : Msg} {rest : List Msg} (coherent : Coherent s a l)
include coherent

theorem fwdS_arrives (kind : m.kind = .fwdS r)
    (arrives : Arrives s (fun m => m.dst == a && m.line == l && m.kind.isFwdS) m rest) :
    exec (.fwdS a l) s = .next ({ s with net := rest }.probe a l (.fwdS r)) := by
  refine (ok_coherent coherent _).trans ?_
  rw [State.deliver_arrives arrives, kind]

theorem fwdX_arrives (kind : m.kind = .fwdX r)
    (arrives : Arrives s (fun m => m.dst == a && m.line == l && m.kind.isFwdX) m rest) :
    exec (.fwdX a l) s = .next ({ s with net := rest }.probe a l (.fwdX r)) := by
  refine (ok_coherent coherent _).trans ?_
  rw [State.deliver_arrives arrives, kind]

theorem inv_arrives (arrives : Arrives s (fun m => m.dst == a && m.line == l && m.kind == .inv) m rest) :
    exec (.inv a l) s = .next ({ s with net := rest }.probe a l .inv) := by
  refine (ok_coherent coherent _).trans ?_
  rw [State.deliver_arrives arrives]

/-! ## Answers at the home -/

theorem fack_arrives (arrives : Arrives s
      (fun m => m.src == a && m.line == l && (m.kind == .fack true || m.kind == .fack false)) m rest) :
    exec (.fack a ⟨l, none⟩) s = .next ({ s with net := rest }.fackArrives a l).wakeIssuers := by
  refine (ok_coherent coherent _).trans ?_
  rw [State.deliver_arrives arrives, ite_self]
  rfl

theorem ack_arrives (arrives : Arrives s (fun m => m.src == a && m.line == l && m.kind == .ack) m rest) :
    exec (.coherenceAck a l) s = .next ({ s with net := rest }.ackArrives m).wakeIssuers := by
  refine (ok_coherent coherent _).trans ?_
  rw [State.deliver_arrives arrives]

end Probes

section Ends
variable {s : State} {a r : Nat} {l : CohLine} {sh : Bool}

/-- The FACK of a forward ends it: the claimant owns the line, or owner and reader share it (R318). -/
theorem State.fackArrives_forward {b : Bool} (forward : (s.dir l).txn = some (.forward r b sh)) :
    s.fackArrives a l = (s.setDir l ((s.dir l).drop r)).endTxn l
      (if b = true then .x r else .s (insertSharer [a] r)) := by
  cases b <;> simp [State.fackArrives, forward]

theorem State.ackArrives_last {m : Msg} {gnt : Bool} {left : List Nat}
    (inval : (s.dir m.line).txn = some (.inval r gnt left sh)) (last : left.filter (· ≠ m.src) = []) :
    s.ackArrives m = ((s.setDir m.line ((s.dir m.line).drop r)).send (homeEnd m.line) r m.line
      (if gnt then .gnt else .data .m)).endTxn m.line (.x r) := by
  simp only [State.ackArrives, inval, last, List.isEmpty_nil, if_true]

theorem State.ackArrives_more {m : Msg} {gnt : Bool} {left : List Nat}
    (inval : (s.dir m.line).txn = some (.inval r gnt left sh)) (more : left.filter (· ≠ m.src) ≠ []) :
    s.ackArrives m = s.setDir m.line { s.dir m.line with
      txn := some (.inval r gnt (left.filter (· ≠ m.src)) sh) } := by
  have others : (left.filter (· ≠ m.src)).isEmpty = false := by simpa only [List.isEmpty_eq_false_iff] using more
  simp only [State.ackArrives, inval, others, Bool.false_eq_true, if_false]

end Ends

theorem probesAreAnswered : ProbesAreAnswered := by
  refine ⟨fun a r l m rest s coherent => ⟨fun arrives kind => ⟨fun owns => ?_, fun awaits => ?_⟩,
      fun arrives kind => ⟨fun owns => ?_, fun awaits => ?_⟩,
      fun arrives => ⟨fun shares => ?_, fun upgrades => ?_, fun awaits => ?_⟩⟩,
    fun a r l m rest sh s coherent quiet kept hs => ⟨fun b arrives forward => ?_,
      fun gnt left arrives src line inval => ?_⟩⟩
  · let t : State := { s with net := rest }
    have forward : MsgKind.fwdS r ≠ .inv := nofun
    rw [fwdS_arrives coherent kind arrives, State.probe_owner (s := t) owns forward,
      State.answer_fwdS_owner (s := t) owns]
    rfl
  · exact (fwdS_arrives coherent kind arrives).trans
      (congrArg _ (State.probe_awaiting (awaits.imp_right (Or.imp_right fun st => ⟨st, nofun⟩))))
  · let t : State := { s with net := rest }
    have forward : MsgKind.fwdX r ≠ .inv := nofun
    rw [fwdX_arrives coherent kind arrives, State.probe_owner (s := t) owns forward,
      State.answer_fwdX_owner (s := t) owns]
    rfl
  · exact (fwdX_arrives coherent kind arrives).trans
      (congrArg _ (State.probe_awaiting (awaits.imp_right (Or.imp_right fun st => ⟨st, nofun⟩))))
  · exact (inv_arrives coherent arrives).trans (congrArg _ (State.probe_inv (.inl ⟨shares, rfl⟩)))
  · exact (inv_arrives coherent arrives).trans (congrArg _ (State.probe_inv (.inr ⟨upgrades, rfl⟩)))
  · exact (inv_arrives coherent arrives).trans (congrArg _ (State.probe_awaiting (awaits.imp_right .inl)))
  · let u : State := { s with net := rest }
    obtain ⟨free, st, -, net⟩ := State.served_ends (s := u) hs quiet kept r rest
      (if b = true then .x r else .s (insertSharer [a] r))
    refine ⟨_, fack_arrives coherent arrives, ?_⟩
    rw [State.wakeIssuers_dir, State.wakeIssuers_net, State.fackArrives_forward (s := u) forward]
    exact ⟨free, net, st⟩
  · subst src line
    let u : State := { s with net := rest }
    refine ⟨_, ack_arrives coherent arrives, ?_⟩
    rw [State.wakeIssuers_dir, State.wakeIssuers_net]
    split
    · next last =>
      obtain ⟨free, st, -, net⟩ := State.served_ends (s := u) hs quiet kept r (rest ++ [_]) (.x r)
      rw [State.ackArrives_last (s := u) inval last]
      exact ⟨free, st, net⟩
    · next more =>
      rw [State.ackArrives_more (s := u) inval more]
      exact ⟨congrArg Dir.txn (State.setDir_dir_same (s := u) hs m.line _), rfl⟩

end Sys2Proof.Machine
end

section
/-! Writes at the home (R227, R319, R327), and the watch over what a home has not ended in time (R325, R331). -/

namespace Sys2Proof.Machine
open Sys2Proof.Claim

/-! ## Storage -/

/-- From `s` to `t` a home-side write has reached storage: the line is in no cache, and nothing reads its old value any
more (R227, R319). -/
def State.Written (s : State) (l : CohLine) (t : State) : Prop :=
  t.dir l = {} ∧ (l.table = .queue → ∀ e, e ∈ t.oldRetired ↔ e ∈ s.oldRetired ∧ 8 * e.1 ≠ l.index) ∧
    (l.table = .scale → ∀ e, e ∈ t.oldSlots ↔ e ∈ s.oldSlots ∧ e.1 / 4 ≠ l.index)

/-- A home that stores a line changes the old values alone, no message and no directory entry. -/
theorem State.writeHome_keep {α : Type} (g : State → α)
    (h : ∀ (x : State) oldSlots oldRetired, g { x with oldSlots := oldSlots, oldRetired := oldRetired } = g x)
    (s : State) (l : CohLine) : g (s.writeHome l) = g s := by
  unfold State.writeHome
  split
  · exact h s _ _
  · exact h s _ _
  · rfl

theorem State.writeHome_net (s : State) (l : CohLine) : (s.writeHome l).net = s.net :=
  State.writeHome_keep (·.net) (fun _ _ _ => rfl) s l

theorem State.writeHome_dir (s : State) (l : CohLine) : (s.writeHome l).dir l = s.dir l :=
  State.writeHome_keep (·.dir l) (fun _ _ _ => rfl) s l

/-- A home stores a line: the old values of `s` that belong to it are dropped. -/
theorem State.writeHome_written {s u : State} {l : CohLine} (retired : u.oldRetired = s.oldRetired)
    (slots : u.oldSlots = s.oldSlots) {t : State} (entry : t.dir l = {})
    (storesRetired : t.oldRetired = (u.writeHome l).oldRetired) (storesSlots : t.oldSlots = (u.writeHome l).oldSlots) :
    s.Written l t := by
  refine ⟨entry, fun table e => ?_, fun table e => ?_⟩
  · simp only [storesRetired, State.writeHome, table, retired, List.mem_filter, bne_iff_ne]
  · simp only [storesSlots, State.writeHome, table, slots, List.mem_filter, bne_iff_ne]

theorem State.Written.wakeIssuers {s t : State} {l : CohLine} (h : s.Written l t) : s.Written l t.wakeIssuers :=
  (State.wakeIssuers_keep (s.Written l) (fun _ _ _ => rfl) t).mpr h

/-! ## The turn of a home-side write -/

section Turn
variable {s : State} {l : CohLine}

theorem State.serve_write_shared {v : List Nat} (shared : (s.dir l).st = .s v) (nonempty : v ≠ []) (q : Req)
    (sh : Bool) : s.serve l 30 q sh = (s.setDir l ((s.dir l).start (.homeWrite v) s.now)).invAll l v := by
  cases v with
  | nil => exact absurd rfl nonempty
  | cons a v => simp [State.serve, shared]

theorem State.serve_write_free (free : (s.dir l).st = .u) (q : Req) (sh : Bool) :
    s.serve l 30 q sh = (s.setDir l ((s.dir l).drop 30)).writeHome l := by
  simp [State.serve, free]

/-- A home-side write has been noted at a line in directory state `d`, and taken from the head of its retry list. -/
def State.turn (s : State) (l : CohLine) (d : DState) : State :=
  (s.setDir l { st := d, retry := [(30, .rds, true)], arrived := [(30, s.now)] }).setDir l
    { st := d, arrived := [(30, s.now)] }

variable (hs : s.Canonical) {d : DState}
include hs

theorem State.turn_dir : (s.turn l d).dir l = { st := d, arrived := [(30, s.now)] } :=
  State.setDir_dir_same (State.setDir_canonical s l _ hs) l _

theorem State.turn_canonical : (s.turn l d).Canonical :=
  State.setDir_canonical _ l _ (State.setDir_canonical s l _ hs)

/-- A home-side write on a line that no request waits for is served at once. -/
theorem State.queueWrite_served (entry : s.dir l = { st := d }) :
    s.queueWrite l = ((s.turn l d).serve l 30 .rds false).serveNext l 1 := by
  unfold State.queueWrite
  rw [entry]
  unfold State.serveNext
  simp only [State.setDir_dir_same hs, Dir.note]
  rfl

end Turn

section Write
variable {s : State} {l : CohLine} (hs : s.Canonical)
include hs

theorem State.queueWrite_shared {v : List Nat} (nonempty : v ≠ []) (entry : s.dir l = { st := .s v }) :
    ((s.queueWrite l).dir l).txn = some (.homeWrite v) ∧ (s.queueWrite l).oldRetired = s.oldRetired ∧
    (s.queueWrite l).oldSlots = s.oldSlots ∧
    (s.queueWrite l).net = s.net ++ v.map fun a => { src := homeEnd l, dst := a, line := l, kind := .inv } := by
  let t := s.turn l (.s v)
  let x := (t.dir l).start (.homeWrite v) t.now
  have busy : (((t.setDir l x).invAll l v).dir l).txn = some (.homeWrite v) := by
    rw [State.invAll_eq]
    exact congrArg Dir.txn (State.setDir_dir_same (State.turn_canonical hs) l x)
  have served : s.queueWrite l = (t.setDir l x).invAll l v := by
    rw [State.queueWrite_served hs entry, State.serve_write_shared (by rw [State.turn_dir hs]) nonempty]
    exact State.serveNext_busy (by rw [busy]; rfl) 1
  rw [served]
  refine ⟨busy, ?_⟩
  rw [State.invAll_eq]
  exact ⟨rfl, rfl, rfl⟩

theorem State.queueWrite_free (entry : s.dir l = {}) :
    s.Written l (s.queueWrite l) ∧ (s.queueWrite l).net = s.net := by
  let u := (s.turn l .u).setDir l {}
  have left : ({ st := .u, arrived := [(30, s.now)] } : Dir).drop 30 = {} := by simp [Dir.drop]
  have free : (u.writeHome l).dir l = {} :=
    (State.writeHome_dir u l).trans (State.setDir_dir_same (State.turn_canonical hs) l {})
  have served : s.queueWrite l = u.writeHome l := by
    rw [State.queueWrite_served hs entry, State.serve_write_free (by rw [State.turn_dir hs]), State.turn_dir hs, left]
    apply State.serveNext_quiet <;> rw [free]
  rw [served]
  exact ⟨State.writeHome_written (u := u) rfl rfl free rfl rfl, State.writeHome_net u l⟩

end Write

/-- The last ACK of a home-side write (R319). -/
theorem State.ackArrives_homeWrite {s : State} (hs : s.Canonical) {m : Msg} {e g : Nat} {v : List Nat}
    (entry : s.dir m.line =
      { st := .s v, txn := some (.homeWrite [m.src]), arrived := [(30, e)], began := g }) :
    s.Written m.line (s.ackArrives m) ∧ (s.ackArrives m).net = s.net := by
  let x : Dir := { st := .s v, txn := some (.homeWrite [m.src]), began := g }
  let u := s.setDir m.line x
  have hu : (u.writeHome m.line).Canonical := State.writeHome_canonical u m.line (State.setDir_canonical s m.line x hs)
  have stands : (u.writeHome m.line).dir m.line = x :=
    (State.writeHome_dir u m.line).trans (State.setDir_dir_same hs m.line x)
  have ends : s.ackArrives m = (u.writeHome m.line).endTxn m.line .u := by
    simp [State.ackArrives, entry, Dir.drop, u, x]
  have stored : s.ackArrives m = (u.writeHome m.line).setDir m.line {} := by
    rw [ends, State.endTxn_quiet hu (by rw [stands]) (by rw [stands]), stands]
  rw [stored]
  exact ⟨State.writeHome_written (u := u) rfl rfl (State.setDir_dir_same hu m.line {}) rfl rfl,
    State.writeHome_net u m.line⟩

/-- A home-side write on a line free of requests, looked up without an error, is served at once. -/
theorem homeSideWrite_served {s : State} {l : CohLine} {d : DState} (isL : isLine l) (up : s.homeUp l = true)
    (table : l.table = .queue ∨ l.table = .scale) (entry : s.dir l = { st := d }) :
    exec (.homeSideWrite ⟨l, false, none⟩) s = .next ((s.tookIn (lineHome l) (homeRank l)).queueWrite l) := by
  let u := s.tookIn (lineHome l) (homeRank l)
  have free : (u.dir l).txn = none := congrArg Dir.txn entry
  rw [homeSideWrite_taken isL up table]
  show Host.Outcome.next ((u.settleDir l).queueWrite l) = _
  rw [State.settleDir_free free]

/-! ## The watch -/

theorem coherenceTimeout_lost {s : State} {l : CohLine} (isL : isLine l) (lost : s.homeUp l = false) :
    exec (.coherenceTimeout l) s = .next s := by
  show execCoherenceTimeout l s = _
  rw [execCoherenceTimeout, ok_pos isL, lost, Bool.false_and, State.when_false]

theorem homeSideWrite_lost {s : State} {h : HomeArrival} (isL : isLine h.line) (lost : s.homeUp h.line = false) :
    exec (.homeSideWrite h) s = .next s := by
  show execHomeSideWrite h s = _
  rw [execHomeSideWrite, ok_pos isL, lost, Bool.false_and, Bool.false_and, State.when_false]

theorem coherenceTimeout_watches {s : State} {l : CohLine} (isL : isLine l) (up : s.homeUp l = true) :
    exec (.coherenceTimeout l) s = .next (if (s.dir l).overdue s.now = true then
      s.raise { source := srcHome (lineHome l), kind := kCoherence, cls := .severe } else s) := by
  show execCoherenceTimeout l s = _
  rw [execCoherenceTimeout, ok_pos isL, up, Bool.true_and]
  rfl

theorem Dir.overdue_iff (d : Dir) (now : Nat) : d.overdue now = true ↔
    (∃ e ∈ d.arrived, e.2 + 7 ≤ now) ∨ (d.txn.isSome = true ∧ d.began + 7 ≤ now) := by
  simp [Dir.overdue]

/-- Nothing of a line is overdue whose requests and transaction are younger than 10,000 clocks (R325). -/
theorem Dir.not_overdue {d : Dir} {now : Nat} (young : ∀ e ∈ d.arrived, now < e.2 + 7)
    (recent : d.txn = none ∨ now < d.began + 7) : ¬ d.overdue now = true := by
  rw [Dir.overdue_iff]
  rintro (⟨e, waits, old⟩ | ⟨busy, old⟩)
  · exact absurd (young e waits) (by omega)
  · rcases recent with free | recent
    · simp [free] at busy
    · omega

/-! ## The statements -/

theorem homesWriteAndWatch : HomesWriteAndWatch := by
  refine ⟨fun l s isL up table hs => ⟨fun v nonempty shared => ?_, fun free => ?_,
      fun a e g v rest coherent entry arrives => ?_⟩,
    fun h s isL lost => ⟨homeSideWrite_lost isL lost, coherenceTimeout_lost isL lost⟩,
    fun l s isL up => ⟨fun late => ?_, fun young recent => ?_⟩⟩
  · exact ⟨_, homeSideWrite_served isL up table shared,
      State.queueWrite_shared (s := s.tookIn (lineHome l) (homeRank l)) hs nonempty shared⟩
  · exact ⟨_, homeSideWrite_served isL up table free,
      State.queueWrite_free (s := s.tookIn (lineHome l) (homeRank l)) hs free⟩
  · let m : Msg := { src := a, dst := homeEnd l, line := l, kind := .ack }
    let u : State := { s with net := rest }
    obtain ⟨written, net⟩ := State.ackArrives_homeWrite (s := u) (m := m) hs entry
    exact ⟨_, ack_arrives coherent arrives, written.wakeIssuers, (State.wakeIssuers_net _).trans net⟩
  · rw [coherenceTimeout_watches isL up, if_pos (((s.dir l).overdue_iff s.now).mpr late)]
  · rw [coherenceTimeout_watches isL up, if_neg (Dir.not_overdue young recent)]

/-- Settles O41 from its three parts. -/
theorem coherenceAnswers : Obligations.CoherenceAnswers :=
  ⟨grantsReachTheAgent, probesAreAnswered, homesWriteAndWatch⟩

end Sys2Proof.Machine
end
